-- ==== Sys2Proof/Word.lean ====
section
/-!
DEFINITION. The byte and the word types of the node's stored formats (R1: little-endian throughout).
-/
namespace Sys2Proof

/-- One byte. -/
abbrev Byte := BitVec 8

/-- A sequence of bytes, the byte of the lowest address first (R1). -/
abbrev Bytes := List Byte

end Sys2Proof
end

