-- ==== Sys2Proof/Syntax.lean ====
section
/-!
DEFINITION. The commands of the node: one constructor of `Instr` for each row of the table of operations and
events, with the row's operands. What a command brings from outside the node (bytes of host memory, a frame, a
sensor value, a disturbance of a stored word) is an operand.
-/
namespace Sys2Proof

/-- Who reaches a register (R465): the physical function (partition 0), a virtual function, the root security
processor, or the management controller. -/
inductive Requester where
  | pf
  | vf (n : Nat)
  | rsp
  | mgt
  deriving DecidableEq, Repr

/-- The handlers of the four levels (R11, R367): a cell's, a platen unit's, a block's, a region's, the chip's. -/
inductive Handler where
  | cell (block cell : Nat)
  | platen (stack unit : Nat)
  | block (g : Nat)
  | region (r : Nat)
  | chip
  deriving DecidableEq, Repr

/-- An error record (R366, Table 16.2). `part` is `none` while PART_VALID is 0. -/
structure ErrRec where
  poison    : Bool := false
  escalated : Bool := false
  level     : Nat := 0
  sev       : Nat := 0
  subsys    : Nat := 0
  cause     : Nat := 0
  unit      : Nat := 0
  part      : Option Nat := none
  status    : Nat := 0
  action    : Nat := 0
  ream      : Nat := 0
  addr      : Nat := 0
  time      : Nat := 0
  deriving DecidableEq, Repr

/-- What a gutter request addresses (R15): an upper-case offset, a galley way, a block, or the key slots. -/
inductive GutTarget where
  | upper (off : Nat)
  | galleyWay (region way : Nat)
  | block (g : Nat)
  | keySlots
  deriving DecidableEq, Repr


/-- An access that reaches a stack controller: a read of `len` bytes, or a write of `data`, marked poisoned or
not, by a partition at an upper-case offset; `crcFails` transfers fail their link CRC in a row (R65). -/
structure Access where
  write    : Bool := false
  part     : Nat := 0
  off      : Nat := 0
  len      : Nat := 0
  data     : Bytes := []
  poison   : Bool := false
  crcFails : Nat := 0
  /-- When the access began to wait on a held row (R92). -/
  since    : Nat := 0
  deriving DecidableEq, Repr

/-- Disturbances of stored sectors: an offset, a code word symbol position (R59), and the value added. -/
abbrev SectorUpsets := List (Nat × Nat × Nat)

/-- Who issues a platen list (chapter 4): a compositor block, or the host path for a descriptor of a submission
ring (partition, ring, place in the ring's order). -/
inductive PltIssuer where
  | block (g : Nat)
  | host (part ring seq : Nat)
  deriving DecidableEq, Repr

/-- A request for a galley line at an upper-case offset, with the folio descriptor that it carries (R105, R108):
key slot and generation, and what the cipher tweak of a sealed folio takes. -/
structure GalReq where
  part    : Nat := 0
  off     : Nat := 0
  sealed  : Bool := false
  slot    : Nat := 0
  gen     : Nat := 0
  conv    : Nat := 0
  runIx   : Nat := 0
  posBase : Nat := 0
  base    : Nat := 0
  deriving DecidableEq, Repr

/-- An ownership record of a shared pool (Table 10.4). -/
structure OwnRec where
  state : Nat := 0
  home  : Nat := 0
  owner : Nat := 0
  succ  : Nat := 0xFFFF
  epoch : Nat := 0
  lease : Nat := 0
  frame : Nat := 0
  conv  : Nat := 0
  layer : Nat := 0
  part  : Nat := 0
  deriving DecidableEq, Repr

/-- Check failures of a checked operation (R113): how many times in a row the check fails, in which cell, and
whether it is the exponential comparison instead of the residue. -/
structure Mismatch where
  times : Nat := 0
  cell  : Nat := 0
  exp   : Bool := false
  deriving DecidableEq, Repr


/-- A PCIe configuration request (R434): a read or a write of a dword of a function, NumVFs, or VF Enable. -/
inductive CfgReq where
  | read (dword : Nat)
  | write (dword data : Nat)
  | numVfs (n : Nat)
  | vfEnable (on : Bool)
  deriving DecidableEq, Repr

/-- What carries an SPDM request to the root security processor (R341): the physical function's DOE mailbox, or MCTP
through the management controller. -/
inductive SpdmBus where
  | doe
  | mctp
  deriving DecidableEq, Repr

/-- The capabilities of Table 15.2. -/
inductive SpdmCap where
  | cert
  | chal
  | measSig
  | keyEx
  | mutAuth
  | encrypt
  | mac
  | hbeat
  | keyUpd
  deriving DecidableEq, Repr

/-- The algorithms of Table 15.2; `other` is any outside it. -/
inductive SpdmAlg where
  | ecdsaP384
  | sha384
  | secp384r1
  | aes256Gcm
  | measSha384
  | other (n : Nat)
  deriving DecidableEq, Repr

/-- An IDE_KM message (R359). `sub` names the key set, the direction and the sub-stream. -/
inductive IdeMsg where
  | query
  | keyProg (sub key : Nat)
  | kSetGo
  | kSetStop
  deriving DecidableEq, Repr

/-- What a vendor-defined request carries (Table 15.2). -/
inductive VendorMsg where
  | beygar (msg : Bytes)
  | ideKm (m : IdeMsg)
  | other
  deriving DecidableEq, Repr

/-- The session that carries an IDE_KM message (R359): one with the host link's requester, or the node's own with the
device of a tier port. -/
inductive IdeVia where
  | host (session : Nat)
  | tier (port : Nat)
  deriving DecidableEq, Repr

/-- The management transports of Table 20.1. -/
inductive MctpBus where
  | i3c
  | smbus
  | pcie
  | mfp
  deriving DecidableEq, Repr

/-- Where a management message comes from: its transport, its source endpoint, and its secured session, if any. -/
structure MgtSrc where
  bus     : MctpBus
  eid     : Nat
  session : Option Nat
  deriving DecidableEq, Repr

/-- An MCTP message without a row of its own (R448, R449): control, PLDM by type, an SPDM request, or another type. -/
inductive MctpMsg where
  | control
  | pldm (ty : Nat)
  | readSensor (id : Nat)
  | cancelUpdate
  | spdm (secured : Bool)
  | other (ty : Nat)
  deriving DecidableEq, Repr

/-- What a block's operand port meets while it streams (R107, R111): lines by their offsets, with how many of their checks fail
in a row, and with the offset of a request of the same cycle that goes first. -/
structure PortEvents where
  fails  : List (Nat × Nat) := []
  rivals : List (Nat × Nat) := []
  deriving DecidableEq, Repr

/-- A ream that its root finishes, and whether a host takes the result of its descriptor (R321). -/
structure RootEnd where
  id    : Nat
  taken : Bool := true
  deriving DecidableEq, Repr

/-- The commands: operations and events of the table, each whole and indivisible. -/
inductive Instr where
  /-- `GUTTER_TRANSFER`: `src` sends transfer `xfer` to `dst`; the receiver has returned `credits` credits since the last one (R13, R14). -/
  | gutterTransfer (src dst xfer credits : Nat)
  /-- `GUTTER_REQUEST`: A gutter request reaches its target (R15). -/
  | gutterRequest (part bytes : Nat) (target : GutTarget) (write : Bool)
  /-- `ARBITRATION_PHASE`: Arbiter `arb` arbitrates, `cycles` arbiter cycles after its last phase, among the requesters of `reqs`,
  each with how many of these cycles it has requested in (R16, R17, R19). -/
  | arbitrationPhase (arb cycles : Nat) (reqs : List (Nat × Nat))
  /-- `WITHDRAW`: The granted requester withdraws; `reqs` still request (R18). -/
  | withdraw (arb : Nat) (reqs : List Nat)
  /-- `STARVATION_REPORT`: A requester's wait counter stands above STARVE_THR (R19). -/
  | starvationReport (arb req : Nat)
  /-- `ARB_COMMIT`: A write of GUT_ARB_COMMIT (R21). -/
  | arbCommit (who : Requester) (value : Nat)
  /-- `ARB_COMMIT_APPLY`: The arbiter applies a pending commit (R21). -/
  | arbCommitApply (arb : Nat)
  /-- `KERN_ENCODE`: A mover codec takes the oldest closed folio that waits for it (R54). -/
  | kernEncode
  /-- `KERN_ENCODE_DONE`: The folio unit switches a folio to its kerned extent (R54). -/
  | kernEncodeDone (folio : Nat)
  /-- `STACK_READ`: A stack controller reads `len` bytes; `upsets` have struck the arrays (R56, R61, R65). -/
  | stackRead (part off len crcFails : Nat) (upsets : SectorUpsets)
  /-- `STACK_WRITE`: A stack controller writes bytes (R60, R109). -/
  | stackWrite (part off : Nat) (data : Bytes) (poison : Bool) (crcFails : Nat)
  /-- `PATROL_SCRUB_ROW`: Patrol scrub takes its next row (R69). -/
  | patrolScrubRow (stack : Nat) (upsets : SectorUpsets)
  /-- `REMAP_INSTALL`: A write of STK_REMAP_ENT with VALID = 1 (R67). -/
  | remapInstall (stack value : Nat)
  /-- `REMAP_COPY_DONE`: The copy of a row to its spare ends (R67). -/
  | remapCopyDone (stack : Nat)
  /-- `REMAP_REMOVE`: A write of STK_REMAP_ENT with VALID = 0 (R68). -/
  | remapRemove (stack value : Nat)
  /-- `FILL`: A write of FILL to STK_CMD (R71). -/
  | fill (stack : Nat)
  /-- `ZEROIZE`: A write of ZEROIZE to STK_CMD (R73). -/
  | zeroize (stack setMask : Nat)
  /-- `STK_CMD_ABORT`: A write of ABORT to STK_CMD; the row in progress ends at progress `reached` (R74). -/
  | stkCmdAbort (stack reached : Nat)
  /-- `STK_CMD_INVALID`: A write to STK_CMD while busy, or with an undefined OP (R74). -/
  | stkCmdInvalid (stack op : Nat)
  /-- `STK_CMD_COMPLETE`: The running command has written its last row (R74). -/
  | stkCmdComplete (stack : Nat)
  /-- `REFRESH`: A refresh of a bank falls due; `busy` is 0 for an idle bank, 1 for one a platen operation holds, else other work (R75). -/
  | refresh (stack bank busy : Nat)
  /-- `PLATEN_LIST_SUBMIT`: A list reaches a stack controller with its header, words, and the stream that follows (R81). -/
  | platenListSubmit (stack : Nat) (issuer : PltIssuer) (header : Bytes) (words : List Nat) (stream : Bytes)
  /-- `PLATEN_LIST_START`: The oldest queued list of a unit, or of the gang whose first unit it is, starts (R82, R89, R97). -/
  | platenListStart (stack unit : Nat)
  /-- `PLT_NOP`: The running list's next command is NOP. -/
  | pltNop (stack unit : Nat)
  /-- `LDS`: The running list's next command is LDS. -/
  | lds (stack unit : Nat)
  /-- `STS`: The running list's next command is STS. -/
  | sts (stack unit : Nat)
  /-- `PUTS`: The running list's next command is PUTS. -/
  | puts (stack unit : Nat)
  /-- `XCLR`: The running list's next command is XCLR. -/
  | xclr (stack unit : Nat)
  /-- `STX`: The running list's next command is STX. -/
  | stx (stack unit : Nat)
  /-- `VMAC`: The running list's next command is VMAC; `mism` checks fail in a row (R88). -/
  | vmac (stack unit mism : Nat)
  /-- `PARM`: The running list's next command is PARM. -/
  | parm (stack unit : Nat)
  /-- `PSCORE`: The running list's next command is PSCORE. -/
  | pscore (stack unit mism : Nat)
  /-- `PWACC`: The running list's next command is PWACC. -/
  | pwacc (stack unit mism : Nat)
  /-- `XOUT`: The running list's next command is XOUT. -/
  | xout (stack unit : Nat)
  /-- `FENCE`: The running list's next command is FENCE. -/
  | fence (stack unit : Nat)
  /-- `PLT_RES_INJ`: A write of PLT_RES_INJ (R88). -/
  | pltResInj (stack value : Nat)
  /-- `PLATEN_LIST_RETIRE`: A list that has run its commands, or failed, retires (R83). -/
  | platenListRetire (stack unit : Nat)
  /-- `PLATEN_PREEMPT`: A list is suspended at its next row boundary (R91). -/
  | platenPreempt (stack unit : Nat)
  /-- `PLATEN_RESUME`: The unit claims its rows again and resumes the list (R91). -/
  | platenResume (stack unit : Nat)
  /-- `PHASE_TMO_EXPIRE`: A gang's hold timer passes PHASE_TMO (R97, R98). -/
  | phaseTmoExpire (stack set : Nat)
  /-- `DISPATCH`: The composition at the front of a block's dispatch queue starts (R121). -/
  | dispatch (block : Nat)
  /-- `GALLEY_READ`: A request reaches the galley; `fails` checks of its line fail in a row, and it loses a cycle to each of `rivals`, the offsets of requests of the same cycle, that is to its bank (R105, R107, R111). -/
  | galleyRead (req : GalReq) (fails : Nat) (rivals : List Nat)
  /-- `GALLEY_FILL`: The line of the oldest miss arrives (R108). -/
  | galleyFill
  /-- `GAL_INV_ALL`: A write of GAL_INV with OP 1 (R110). -/
  | galInvAll (region : Nat)
  /-- `GAL_INV_PART`: A write of GAL_INV with OP 2 (R110). -/
  | galInvPart (region part : Nat)
  /-- `GAL_INV_KEY_SLOT`: A write of GAL_INV with OP 3 (R110). -/
  | galInvKeySlot (region slot : Nat)
  /-- `GAL_INV_DONE`: A running invalidation ends (R110). -/
  | galInvDone (region : Nat)
  /-- `GAL_WAY_DISABLE`: A write of 0 to a bit of GAL_WAY_EN (R110). -/
  | galWayDisable (region way : Nat)
  /-- `CMP_WATCHDOG_EXPIRE`: The watchdog of a block's composition (R115). -/
  | cmpWatchdogExpire (block : Nat)
  /-- `UNFENCE`: A write of 1 to CMP_SEQ_CTL.UNFENCE of a block. -/
  | unfence (block : Nat)
  /-- `CMP_RES_INJ`: A write of CMP_RES_INJ of a block. -/
  | cmpResInj (block value : Nat)
  /-- `CMP_NOP`: A block runs NOP. -/
  | cmpNop (block : Nat)
  /-- `ALU`: A block runs ALU. -/
  | alu (block : Nat)
  /-- `LI`: A block runs LI. -/
  | li (block : Nat)
  /-- `LDC`: A block runs LDC. -/
  | ldc (block : Nat)
  /-- `BR`: A block runs BR. -/
  | br (block : Nat)
  /-- `PLOG`: A block runs PLOG. -/
  | plog (block : Nat)
  /-- `MPOS`: A block runs MPOS. -/
  | mpos (block : Nat)
  /-- `PCNT`: A block runs PCNT. -/
  | pcnt (block : Nat)
  /-- `SYNC`: A block runs SYNC. -/
  | sync (block : Nat)
  /-- `RCHK`: A block runs RCHK. -/
  | rchk (block : Nat)
  /-- `END`: A block runs END. -/
  | endIns (block : Nat)
  /-- `FEXP`: A block runs FEXP; `port` says what its operand port meets. -/
  | fexp (block : Nat) (port : PortEvents)
  /-- `LDQ`: A block runs LDQ. -/
  | ldq (block : Nat)
  /-- `PEMIT`: A block runs PEMIT. -/
  | pemit (block : Nat)
  /-- `AEMIT`: A block runs AEMIT. -/
  | aemit (block : Nat)
  /-- `PSC`: A block runs PSC. -/
  | psc (block : Nat)
  /-- `PWV`: A block runs PWV. -/
  | pwv (block : Nat)
  /-- `AZERO`: A block runs AZERO. -/
  | azero (block : Nat)
  /-- `TMUL`: A block runs TMUL, with the check failures of the operation. -/
  | tmul (block : Nat) (miss : Mismatch)
  /-- `QKDOT`: A block runs QKDOT. -/
  | qkdot (block : Nat) (miss : Mismatch)
  /-- `DQ`: A block runs DQ. -/
  | dq (block : Nat) (miss : Mismatch)
  /-- `QNT`: A block runs QNT. -/
  | qnt (block : Nat) (miss : Mismatch)
  /-- `ROT`: A block runs ROT. -/
  | rot (block : Nat) (miss : Mismatch)
  /-- `MASKQ`: A block runs MASKQ. -/
  | maskq (block : Nat)
  /-- `MASKP`: A block runs MASKP. -/
  | maskp (block : Nat)
  /-- `RMAX`: A block runs RMAX. -/
  | rmax (block : Nat)
  /-- `EXPW`: A block runs EXPW. -/
  | expw (block : Nat) (miss : Mismatch)
  /-- `WACC`: A block runs WACC. -/
  | wacc (block : Nat) (miss : Mismatch)
  /-- `RKSUM`: A block runs RKSUM. -/
  | rksum (block : Nat) (miss : Mismatch)
  /-- `TICKET`: A whole ticket message delivered to this node is taken. -/
  | ticket
  /-- `APPEND_PLACE`: The append of a slot of an attempt, by partition, ream, position and slot. -/
  | appendPlace (part ream pos slot : Nat)
  /-- `APPEND_FWD`: A forwarded append delivered to this node as mirror is taken. -/
  | appendFwd
  /-- `APPEND_FWD_ACK`: An acknowledgment of a forwarded append is taken. -/
  | appendFwdAck
  /-- `MIRROR_COMMIT_TIMEOUT`: The time limit of a forwarded append. -/
  | mirrorCommitTimeout (part ream pos slot : Nat)
  /-- `FOLIO_PARTIAL_ACCEPT`: The collator takes the oldest folio partial at a block's emit port (R164, R299). -/
  | folioPartialAccept (block : Nat)
  /-- `PARTIAL`: A whole PARTIAL message of a child has arrived (R299). -/
  | partialMsg
  /-- `NODE_PARTIAL_SEND`: The node sends the node partials of an attempt (R298). -/
  | nodePartialSend (part ream pos : Nat) (audit : Bool)
  /-- `ROOT_FINISH`: The root finishes a ream (R168). -/
  | rootFinish (part : Nat) (ream : RootEnd)
  /-- `SLOT_PIPELINE_SERVE`: The slot pipeline makes a service decision (R195). -/
  | slotPipelineServe
  /-- `PLACEMENT_BATCH`: The served batch of an attempt is placed (R196). -/
  | placementBatch (part ream pos : Nat) (audit : Bool)
  /-- `GANG_WAIT_EXPIRE`: Folios of an attempt have waited past GANG_WAIT (R200). -/
  | gangWaitExpire (part ream pos : Nat) (audit : Bool)
  /-- `DISPATCH_QUEUE_ADMIT`: A block's dispatch queue has room (R202). -/
  | dispatchQueueAdmit (block : Nat)
  /-- `REAM_COMMIT`: A write of REAM_COMMIT (R204). -/
  | reamCommit (value : Nat)
  /-- `PARTITION_STARVATION`: A partition's oldest work passes STARVE_US (R205). -/
  | partitionStarvation (part : Nat)
  /-- `REGULATOR_REFILL`: A microsecond passes at the regulators (R206). -/
  | regulatorRefill
  /-- `ACCT_PERIOD`: PERIOD_MS have passed (R210). -/
  | acctPeriod
  /-- `CONV_OPEN`: The folio unit runs the oldest waiting command, a CONV_OPEN (R183). -/
  | convOpen
  /-- `CONV_CLOSE`: The folio unit runs the oldest waiting command, a CONV_CLOSE (R184). -/
  | convClose
  /-- `CONV_CLOSE_COMPLETE`: The closing conversation's INFLIGHT has reached 0. -/
  | convCloseComplete
  /-- `CONV_SHARE`: The folio unit runs the oldest waiting command, a CONV_SHARE (R185). -/
  | convShare
  /-- `CONV_IMPOSE`: The folio unit runs the oldest waiting command, a CONV_IMPOSE (R183). -/
  | convImpose
  /-- `ACL_GRANT`: The folio unit runs the oldest waiting command, an ACL_GRANT (R186). -/
  | aclGrant
  /-- `ACL_DROP`: The folio unit runs the oldest waiting command, an ACL_DROP (R183). -/
  | aclDrop
  /-- `PREFIX_PUT`: The folio unit runs the oldest waiting command, a PREFIX_PUT (R189). -/
  | prefixPut
  /-- `PREFIX_DROP`: The folio unit runs the oldest waiting command, a PREFIX_DROP (R183). -/
  | prefixDrop
  /-- `PREFIX_FIND`: The folio unit runs the oldest waiting command, a PREFIX_FIND (R183). -/
  | prefixFind
  /-- `FOLIO_FREE`: A folio, or its replaced extent, is freed (R181). -/
  | folioFree (folio : Nat)
  /-- `CWD_SEARCH`: A search through CWD_CMD; the entries of `bad` (bank, position) fail parity (R188). -/
  | cwdSearch (width banks pos : Nat) (bad : List (Nat × Nat))
  /-- `CWD_INSERT`: An unordered insert through CWD_CMD (R189). -/
  | cwdInsert (width bank : Nat)
  /-- `CWD_INSERT_ORDERED`: An ordered insert through CWD_CMD (R189). -/
  | cwdInsertOrdered (width bank pos : Nat)
  /-- `CWD_DELETE`: A delete through CWD_CMD (R189). -/
  | cwdDelete (bank pos : Nat)
  /-- `CWD_READ`: A read through CWD_CMD; `bad` says the entry fails parity (R189). -/
  | cwdRead (bank pos : Nat) (bad : Bool)
  /-- `CWD_PARITY_SWEEP`: The sweep of all banks meets the parity failures `bad` (R190). -/
  | cwdParitySweep (bad : List (Nat × Nat))
  /-- `CWD_REINSERT`: The folio unit reinserts a lost directory entry from conversation record `conv` (R190). -/
  | cwdReinsert (conv : Nat)
  /-- `SPILL_START`: The mover looks for a run of a partition to spill. -/
  | spillStart (part : Nat)
  /-- `SPILL`: The tier command SPILL runs. -/
  | spill
  /-- `SPILL_COMPLETE`: The writes of a spill end: of a conversation record's layer, with a failed write's tier offset. -/
  | spillComplete (conv layer : Nat) (ok : Bool) (off : Nat)
  /-- `FETCH`: The tier command FETCH runs. -/
  | fetch
  /-- `FETCH_START`: The mover starts the next fetch; `others` is what other heads have written to shared pools. -/
  | fetchStart (others : List (Nat × Bytes))
  /-- `FETCH_COMPLETE`: The folios of a run in transfer are placed. -/
  | fetchComplete (conv layer : Nat)
  /-- `FETCH_FAIL`: A fetch fails, with a KIND of TIER_ERR_LOG1 and a tier offset. -/
  | fetchFail (conv layer kind off : Nat)
  /-- `TIER_LATE_EXPIRE`: The wait limit of an attempt. -/
  | tierLateExpire (part ream pos : Nat) (audit : Bool)
  /-- `HAND_OFF`: The tier command HAND_OFF runs; `reach` says whether the pool answers. -/
  | handOff (reach : Bool)
  /-- `CLAIM`: The tier command CLAIM runs. -/
  | claim (reach : Bool) (others : List (Nat × Bytes))
  /-- `TAKEOVER`: The tier command TAKEOVER runs. -/
  | takeover (reach : Bool) (others : List (Nat × Bytes))
  /-- `LEASE_RENEW`: The owner renews the lease of a run's record. -/
  | leaseRenew (conv layer : Nat) (reach : Bool)
  /-- `LEASE_REVERT`: The previous owner reverts a record that is still handing. -/
  | leaseRevert (conv layer : Nat) (reach : Bool)
  /-- `RECORD_SWEEP`: The home-bay node sweeps its record tables. -/
  | recordSweep
  /-- `PORT_TRAINING_DONE`: Training of the logical port with egress code `code` ends (R238). -/
  | portTrainingDone (code : Nat)
  /-- `TRAINING_TIMEOUT`: A port has not reached HELLO within 400 ms (R238). -/
  | trainingTimeout (code : Nat)
  /-- `TRAINING_RESTART`: Training restarts 1 s after a port was held down (R238). -/
  | trainingRestart (code : Nat)
  /-- `HELLO_SEND`: A port in bring-up sends a HELLO (R238). -/
  | helloSend (code : Nat)
  /-- `HELLO`: A HELLO has arrived; `agreed` is the secret of the link-key agreement that follows on a protected link, none where it fails (R238, R356). -/
  | hello (code : Nat) (pay : Bytes) (agreed : Option Nat)
  /-- `PORT_DOWN`: A port goes from up to down: its signal is lost (0), or its FEC lock (2) (R239). -/
  | portDown (code reason : Nat)
  /-- `FLAP_DIS_CLEAR`: A write of 1 to FLAP_DIS (R239). -/
  | flapDisClear (code : Nat)
  /-- `FRAME_FORWARD`: A frame arrives on a port, with its link envelope and link CRC (R249). -/
  | frameForward (code : Nat) (wire : Bytes)
  /-- `PAUSE_REPEAT`: Half of PAUSE_NS has passed since a PAUSE for a class was sent (R253). -/
  | pauseRepeat (code cls : Nat)
  /-- `PAUSE`: A PAUSE has arrived (R254). -/
  | pause (code : Nat) (pay : Bytes)
  /-- `PAUSE_EXPIRE`: The pause of a class runs out (R254). -/
  | pauseExpire (code cls : Nat)
  /-- `STORM_DETECT`: A class has been paused longer than LIMIT_MS (R256). -/
  | stormDetect (code cls : Nat)
  /-- `STORM_RECOVER`: No PAUSE for a class in drop mode for RECOVER_MS (R256). -/
  | stormRecover (code cls : Nat)
  /-- `EGRESS_FRAME_START`: A frame boundary at an egress (R257). -/
  | egressFrameStart (code : Nat)
  /-- `GATE_ENTRY_ADVANCE`: A gate-list interval ends (R262). -/
  | gateEntryAdvance (code : Nat)
  /-- `GCL_GO`: A write of 1 to FAB_GCL_GO.GO (R264). -/
  | gclGo (code : Nat)
  /-- `GCL_CANCEL`: A write of 1 to FAB_GCL_GO.CANCEL (R264). -/
  | gclCancel (code : Nat)
  /-- `GCL_SWITCHOVER`: Fabric time reaches FAB_GCL_SWITCH (R264). -/
  | gclSwitchover (code : Nat)
  /-- `RT_COMMIT`: A write of 1 to FAB_RT_CTL.COMMIT (R252). -/
  | rtCommit
  /-- `RT_COMMIT_APPLY`: A gap between two lookups (R252). -/
  | rtCommitApply
  /-- `HEARTBEAT_SEND`: HB_US has passed: every up port sends a HEARTBEAT (R244). -/
  | heartbeatSend
  /-- `HEARTBEAT`: A HEARTBEAT has arrived (R386). -/
  | heartbeat (code : Nat) (pay : Bytes)
  /-- `TIME_SYNC_SEND`: INTERVAL_US has passed at a parent (R265). -/
  | timeSyncSend
  /-- `TIME_SYNC`: A TIME_SYNC has arrived (R265). -/
  | timeSync (code : Nat) (pay : Bytes) (frac : Nat)
  /-- `TIME_DREQ`: A TIME_DREQ has arrived (R265). -/
  | timeDreq (code : Nat) (pay : Bytes) (frac : Nat)
  /-- `TIME_DRESP`: A TIME_DRESP has arrived (R265). -/
  | timeDresp (code : Nat) (pay : Bytes)
  /-- `TIME_SYNC_LOSS`: The fifth interval without a TIME_SYNC ends (R266). -/
  | timeSyncLoss
  /-- `TIME_SET`: A write of TIME_SET (R265). -/
  | timeSet (value : Nat)
  /-- `REG`: The oldest record that waits at the reach engine is a REG (R270). -/
  | reg
  /-- `REVOKE`: The oldest record that waits at the reach engine is a REVOKE (R272). -/
  | revoke
  /-- `REVOKE_COMPLETE`: The outstanding count of a revoking entry has reached 0 (R272). -/
  | revokeComplete (index : Nat)
  /-- `WRITE`: A WRITE is the first request of its channel in line (R271). -/
  | write
  /-- `READ`: A READ is the first request of its channel in line (R275). -/
  | read
  /-- `QUERY`: A QUERY is the first request of its channel in line (R275). -/
  | query
  /-- `ATOMIC`: An ATOMIC is the first request of its channel in line (R276). -/
  | atomic
  /-- `FLUSH`: A FLUSH is the first request of its channel in line (R278). -/
  | flush
  /-- `FLUSH_ANSWER`: The writes accepted before a channel's oldest FLUSH are placed (R278). -/
  | flushAnswer (src chan : Nat)
  /-- `DATA`: A DATA frame has come back (R277). -/
  | data
  /-- `STATUS`: A STATUS or an acknowledgment has come back (R283). -/
  | status
  /-- `OPEN`: An OPEN is in line (R286). -/
  | openCh
  /-- `OPEN_RSP`: An OPEN_RSP has come back (R286). -/
  | openRsp
  /-- `ACK_TIMER`: 1 µs has passed since a channel's first write not yet acknowledged (R283). -/
  | ackTimer (src chan : Nat)
  /-- `RTX_TIMEOUT`: A channel's oldest unacknowledged request has waited RTO_US (R284). -/
  | rtxTimeout (dst chan : Nat)
  /-- `OPEN_RETRY`: 1 ms has passed since the last OPEN of a broken channel (R285). -/
  | openRetry (dst chan : Nat)
  /-- `CHANNEL_HOLD_EXPIRE`: A channel's hold ends (R285). -/
  | channelHoldExpire (dst chan : Nat)
  /-- `CONTEXT_IDLE_EXPIRE`: A receive context has seen no frame for IDLE_MS (R287). -/
  | contextIdleExpire (src chan : Nat)
  /-- `SIG_PUT`: The collator command SIG_PUT runs. -/
  | sigPut
  /-- `SIG_DROP`: The collator command SIG_DROP runs. -/
  | sigDrop
  /-- `SIG_REPLACE`: A signature command that waits takes effect. -/
  | sigReplace
  /-- `REAM_TIMEOUT`: The time limit of an attempt. -/
  | reamTimeout (part ream pos : Nat) (audit : Bool)
  /-- `ABORT`: An ABORT delivered to this node is taken. -/
  | abort
  /-- `ABORT_REPEAT`: The second copy of an ABORT is sent. -/
  | abortRepeat
  /-- `ROOT_ABORT`: A ROOT_ABORT delivered to this node is taken. -/
  | rootAbort
  /-- `REAM_REISSUE`: The root reissues a ream. -/
  | reamReissue (part ream : Nat)
  /-- `AUDIT_PARTIAL`: A mirror's fold has arrived (R308). -/
  | auditPartial
  /-- `AUDIT_TIMEOUT`: A mirror's fold is late (R308). -/
  | auditTimeout (part ream pos : Nat)
  /-- `SQ_DOORBELL`: A write of HST_SQ_DBn (R318). -/
  | sqDoorbell (part ring value : Nat)
  /-- `CQ_DOORBELL`: A write of HST_CQ_DBn (R318). -/
  | cqDoorbell (part ring value : Nat)
  /-- `RING_ENABLE`: A write of HST_SQ_CFGn or HST_CQ_CFGn (R317). -/
  | ringEnable (part ring : Nat) (colophon : Bool) (value : Nat)
  /-- `DESCRIPTOR_FETCH`: The next descriptor is fetched; the host's 64 bytes, or a failed read (R319, R320). -/
  | descriptorFetch (desc : Bytes) (ok : Bool)
  /-- `DESCRIPTOR_START`: A fetched descriptor starts (R321). -/
  | descriptorStart (part ring seq : Nat)
  /-- `HOST_NOP`: A NOP descriptor (R321). -/
  | hostNop (part ring seq : Nat)
  /-- `HOST_TICKET`: A TICKET descriptor, with the host's bytes at TKT_ADDR or a failed read (R322). -/
  | hostTicket (part ring seq : Nat) (data : Bytes) (ok : Bool)
  /-- `HOST_COMMAND`: A COMMAND descriptor, with the host's bytes or a failed read (R323). -/
  | hostCommand (part ring seq : Nat) (record data : Bytes) (ok : Bool)
  /-- `HOST_REACH_CMD`: A REACH_CMD descriptor, with the host's bytes or a failed read (R323). -/
  | hostReachCmd (part ring seq : Nat) (record : Bytes) (ok : Bool)
  /-- `HOST_REACH`: A REACH descriptor, with the bytes at BUF_ADDR or a failed read (R324). -/
  | hostReach (part ring seq : Nat) (data : Bytes) (ok : Bool)
  /-- `HOST_PLATEN`: A PLATEN descriptor, with the PUTS data or a failed read (R325). -/
  | hostPlaten (part ring seq : Nat) (data : Bytes) (ok : Bool)
  /-- `COLOPHON_WRITE`: A descriptor completes and its colophon is written (R326). -/
  | colophonWrite (part ring seq : Nat)
  /-- `COAL_TIMEOUT`: COAL_US have passed since the first unsignaled colophon (R328). -/
  | coalTimeout (part cq : Nat)
  /-- `VECTOR_UNMASK`: Host software unmasks an MSI-X vector (R329). -/
  | vectorUnmask (part vec : Nat)
  /-- `FUNCTION_LEVEL_RESET`: A function-level reset (R331). -/
  | functionLevelReset (part : Nat)
  /-- `HST_PRT_RST`: A write of HST_PRT_RST (R331). -/
  | hstPrtRst (value : Nat)
  /-- `HOST_LINK_LOSS`: A hot reset or a loss of the host link (R331). -/
  | hostLinkLoss
  /-- `HDM_DECODER_COMMIT`: Host software commits an HDM decoder (R313). -/
  | hdmDecoderCommit (win base size : Nat)
  /-- `CXL_MEM_READ`: A CXL.mem read of 64 bytes (R314, R315). -/
  | cxlMemRead (hpa crcFails : Nat)
  /-- `CXL_MEM_WRITE`: A CXL.mem write (R314, R315). -/
  | cxlMemWrite (hpa : Nat) (data : Bytes) (crcFails : Nat)
  /-- `KEY_LOAD`: A KEY_LOAD message in a secured session (R347). -/
  | keyLoad (session : Nat) (msg : Bytes)
  /-- `KEY_RETIRE`: A KEY_RETIRE message in a secured session (R349). -/
  | keyRetire (session : Nat) (msg : Bytes)
  /-- `KEY_QUERY`: A KEY_QUERY message in a secured session (R347). -/
  | keyQuery (session : Nat) (msg : Bytes)
  /-- `RSP_KEY_RETIRE`: A write of `value` to RSP_KEY_CMD (R349). -/
  | rspKeyRetire (who : Requester) (value : Nat)
  /-- `DRAIN_ADVANCE`: The drain epoch advances (R350). -/
  | drainAdvance
  /-- `DRAIN_ACK`: The participant of a bit of Table 15.6 acknowledges (R350). -/
  | drainAck (bit : Nat)
  /-- `DRAIN_LATE`: A drain has run one microsecond past LIMIT_US (R351). -/
  | drainLate
  /-- `FORME_REHASH`: The RSP rehashes its stored copy of the active forme, every 100 ms (R345); `upsets` are the bytes of the copy that a disturbance changed, by place and difference. -/
  | formeRehash (upsets : List (Nat × Nat))
  /-- `LINK_REKEY`: A protected link is rekeyed from a session's secret (R358). -/
  | linkRekey (code secret : Nat)
  /-- `ALARM`: The sources of `mask` are raised together; AUTH_PART names `part` (R361). -/
  | alarm (mask part : Nat)
  /-- `ALARM_TEST`: A write to RSP_ALARM_TEST (R363). -/
  | alarmTest (value : Nat)
  /-- `ZEROIZE_CONFIRM`: A write to RSP_ZEROIZE (R362). -/
  | zeroizeConfirm (value : Nat)
  /-- `GET_VERSION`: The SPDM request GET_VERSION (R341). -/
  | getVersion (bus : SpdmBus)
  /-- `GET_CAPABILITIES`: The SPDM request GET_CAPABILITIES (R341). -/
  | getCapabilities (bus : SpdmBus)
  /-- `NEGOTIATE_ALGORITHMS`: The SPDM request NEGOTIATE_ALGORITHMS and what it offers (R341). -/
  | negotiateAlgorithms (bus : SpdmBus) (offered : List SpdmAlg)
  /-- `GET_DIGESTS`: The SPDM request GET_DIGESTS (R341). -/
  | getDigests (bus : SpdmBus) (session : Option Nat)
  /-- `GET_CERTIFICATE`: The SPDM request GET_CERTIFICATE of a part of a slot's chain (R340, R341). -/
  | getCertificate (bus : SpdmBus) (session : Option Nat) (slot off len : Nat)
  /-- `CHALLENGE`: The SPDM request CHALLENGE (R341). -/
  | challenge (bus : SpdmBus) (slot nonce : Nat)
  /-- `GET_MEASUREMENTS`: The SPDM request GET_MEASUREMENTS: index 0 asks for the count, 255 for all (R341). -/
  | getMeasurements (bus : SpdmBus) (session : Option Nat) (index : Nat) (signed : Bool) (nonce : Nat)
  /-- `KEY_EXCHANGE`: The SPDM request KEY_EXCHANGE with the requester's share (R342). -/
  | keyExchange (bus : SpdmBus) (slot share : Nat)
  /-- `FINISH`: The SPDM request FINISH: whether it verifies, the requester's certificate key and whether its authentication holds, and the partition whose key broker it claims to be (R341, R360). -/
  | finish (bus : SpdmBus) (session : Nat) (ok : Bool) (auth : Option (Nat × Bool)) (part : Option Nat)
  /-- `SPDM_HEARTBEAT`: The SPDM request HEARTBEAT (R341). -/
  | spdmHeartbeat (bus : SpdmBus) (session : Nat)
  /-- `KEY_UPDATE`: The SPDM request KEY_UPDATE (R341). -/
  | keyUpdate (bus : SpdmBus) (session : Nat)
  /-- `END_SESSION`: The SPDM request END_SESSION (R341). -/
  | endSession (bus : SpdmBus) (session : Nat)
  /-- `VENDOR_DEFINED_REQUEST`: The SPDM request VENDOR_DEFINED_REQUEST (R341, R342). -/
  | vendorDefinedRequest (bus : SpdmBus) (session : Option Nat) (msg : VendorMsg)
  /-- `SPDM_SESSION_TIMEOUT`: A session has had no message for 60 s (R342). -/
  | spdmSessionTimeout (session : Nat)
  /-- `IDE_KM_QUERY`: The IDE_KM message QUERY (R359). -/
  | ideKmQuery (via : IdeVia)
  /-- `KEY_PROG`: The IDE_KM message KEY_PROG (R359). -/
  | keyProg (via : IdeVia) (sub key : Nat)
  /-- `K_SET_GO`: The IDE_KM message K_SET_GO (R359). -/
  | kSetGo (via : IdeVia)
  /-- `K_SET_STOP`: The IDE_KM message K_SET_STOP (R359). -/
  | kSetStop (via : IdeVia)
  /-- `ERROR_REPORT`: An error record enters the queue of the handler of its level (R367). -/
  | errorReport (h : Handler) (r : ErrRec)
  /-- `ERROR_RETIRE`: A handler retires its entry (R367); `wide`: the chip handler cannot confine the record more narrowly than its partition (R377). -/
  | errorRetire (h : Handler) (wide : Bool)
  /-- `HANDLER_TIMEOUT`: A handler passes its bound (R367). -/
  | handlerTimeout (h : Handler)
  /-- `PARTITION_FENCE`: A write to RAS_FENCE_CMD with KIND 1 (R377). -/
  | partitionFence (part : Nat)
  /-- `REGION_FENCE`: A write to RAS_FENCE_CMD with KIND 2 (R376). -/
  | regionFence (region : Nat)
  /-- `NODE_FENCE`: A write to RAS_FENCE_CMD with KIND 3 (R378). -/
  | nodeFence
  /-- `PARTITION_UNFENCE`: A write of ones to RAS_PFENCE_STS (R380). -/
  | partitionUnfence (mask : Nat)
  /-- `INPUT_LEVEL`: A sideband input has held a new level for 2 µs (R382). -/
  | inputLevel (input : Nat) (active : Bool)
  /-- `INPUT_EVENT`: A filtered assertion of an event input (R383). -/
  | inputEvent (input : Nat)
  /-- `INPUT_STUCK`: An input has been active for HOLD_MS + 1 ms (R384). -/
  | inputStuck (input : Nat)
  /-- `INPUT_UNMASK`: A write of RAS_STUCK_STS (R384). -/
  | inputUnmask (value : Nat)
  /-- `HEARTBEAT_EVALUATE`: HB_US has passed: the present neighbors are compared (R386). -/
  | heartbeatEvaluate
  /-- `NEIGHBOR_LOST`: A neighbor has been silent for LOSS_N + 1 intervals (R386). -/
  | neighborLost (code : Nat)
  /-- `FOLIO_LOAD`: A FOLIO_LOAD record has been submitted (R391). -/
  | folioLoad
  /-- `FOLIO_LOAD_COMPLETE`: The last list entry of a FOLIO_LOAD completes (R391). -/
  | folioLoadComplete
  /-- `ADMIT`: A write of 1 to RAS_ADMIT.GO (R393). -/
  | admitNode
  /-- `PROOF_PASS`: Proof passes with the enabled ports settled (R390). -/
  | proofPass
  /-- `LOAD`: A write of LOAD to RSP_FORME_CTL (R403): the bytes at RSP_FORME_ADDR, and whether the host read completed. -/
  | load (data : Bytes) (ok : Bool)
  /-- `FORME_VERIFIED`: Verification ends (R400). -/
  | formeVerified
  /-- `GO`: A write of GO to RSP_FORME_CTL (R404). -/
  | go
  /-- `CANCEL`: A write of CANCEL to RSP_FORME_CTL (R403). -/
  | cancel
  /-- `ENABLE`: A write of ENABLE to RSP_FORME_CTL (R409). -/
  | enable
  /-- `FORME_HOLD`: The node enters the hold (R405). -/
  | formeHold
  /-- `FORME_DRAIN_TIMEOUT`: DRAIN_US passes in the hold (R405). -/
  | formeDrainTimeout
  /-- `FORME_SWAP`: The swap (R405). -/
  | formeSwap
  /-- `IDLE_ENTRY`: PCM_IDLE_US has passed without work (R415). -/
  | idleEntry
  /-- `IDLE_WAKE`: An arrival that needs D16 or a block (R415). -/
  | idleWake
  /-- `DOZE_ENTRY`: PCM_DOZE_US has passed with every gate of a region closed and no fill (R416). -/
  | dozeEntry (region : Nat)
  /-- `REGION_WAKE`: A dozing region is awake (R416). -/
  | regionWake (region : Nat)
  /-- `KEEP`: A write of KEEP to PCM_STATE_CMD (R418). -/
  | keep
  /-- `KEEP_ABANDON`: The node is not quiet within 1 ms of KEEP (R418). -/
  | keepAbandon
  /-- `WAKE`: A write of WAKE to PCM_STATE_CMD (R419). -/
  | wake
  /-- `SIGNAL_DETECT_WAKE`: Signal detect on the host link, or on the fabric port of an egress code (R419). -/
  | signalDetectWake (link : Option Nat)
  /-- `WAKE_COMPLETE`: Stacks and links have retrained after a wake (R419). -/
  | wakeComplete
  /-- `CLOCK_LEVEL_STEP`: PCM changes a region's clock by one level (R412). -/
  | clockLevelStep (region : Nat)
  /-- `SENSOR_SAMPLE`: The samples of the ten rails in mV and mA, of the node-die sensors, and of the hottest DRAM die and the base die of each stack, in °C (R455). -/
  | sensorSample (mv ma die dram base : List Nat)
  /-- `CAP_STEP`: The next step of the power cap is due (R420). -/
  | capStep
  /-- `CAP_UNDO`: The last step in force is undone (R421). -/
  | capUndo
  /-- `COLD_RESET`: A write of PCM_RST_CMD with KIND 1 (R423); flash slots whose read fails at the start-up that follows. -/
  | coldReset (value : Nat) (failed : List Nat)
  /-- `WARM_RESET`: A write of PCM_RST_CMD with KIND 2 (R423); flash slots whose read fails. -/
  | warmReset (value : Nat) (failed : List Nat)
  /-- `NODE_RESET`: A write of PCM_RST_CMD with KIND 3 (R423). -/
  | nodeReset (value : Nat)
  /-- `REGION_RESET`: A write of PCM_RST_CMD with KIND 4 (R426). -/
  | regionReset (value : Nat)
  /-- `REGION_RESET_COMPLETE`: The region's stacks have retrained (R426). -/
  | regionResetComplete (region : Nat)
  /-- `POWER_GOOD_RISE`: PWR_GOOD rises (R440): the strap levels, whether the fuse parity is right, and the flash slots whose read fails. -/
  | powerGoodRise (straps : Nat) (fuses : Bool) (failed : List Nat)
  /-- `POWER_GOOD_FALL`: PWR_GOOD falls (R440). -/
  | powerGoodFall
  /-- `RESET_N`: The filtered RESET_N input becomes active (R423). -/
  | resetN
  /-- `PERST_N`: The level of PERST_N takes effect on the host link (R434). -/
  | perstN
  /-- `WAKE_N`: An accepted event of WAKE_N (R419). -/
  | wakeN
  /-- `PWR_BRAKE_N`: PWR_BRAKE_N is active (R435). -/
  | pwrBrakeN
  /-- `VR_HOT_N`: VR_HOT_N is active and a thermal step is due (R436). -/
  | vrHotN
  /-- `DEBUG_REQ_N`: An accepted event of DEBUG_REQ_N (R460). -/
  | debugReqN
  /-- `TIER_PERST_RISE`: EN and the reference of a tier port have been ready for 100 ms (R439). -/
  | tierPerstRise (port : Nat)
  /-- `MCTP_MESSAGE`: An MCTP message without a row of its own arrives (R448, R449). -/
  | mctpMessage (src : MgtSrc) (msg : MctpMsg)
  /-- `SET_ENDPOINT_ID`: The MCTP control command Set Endpoint ID (R448). -/
  | setEndpointId (src : MgtSrc) (eid : Nat)
  /-- `GET_ENDPOINT_ID`: The MCTP control command Get Endpoint ID (R450). -/
  | getEndpointId (src : MgtSrc)
  /-- `GET_MCTP_VERSION_SUPPORT`: The MCTP control command Get MCTP Version Support (R450). -/
  | getMctpVersionSupport (src : MgtSrc)
  /-- `FORME_LOAD`: A chunk of a container (Table 20.4). -/
  | formeLoad (src : MgtSrc) (first last : Bool) (data : Bytes)
  /-- `FORME_GO`: The Beygar command FORME_GO (Table 20.4). -/
  | formeGo (src : MgtSrc)
  /-- `FORME_CANCEL`: The Beygar command FORME_CANCEL (Table 20.4). -/
  | formeCancel (src : MgtSrc)
  /-- `OWNER_PROG`: The Beygar command OWNER_PROG (R452). -/
  | ownerProg (src : MgtSrc) (slot alg hash : Nat)
  /-- `OWNER_REVOKE`: The Beygar command OWNER_REVOKE (R343). -/
  | ownerRevoke (src : MgtSrc) (slot : Nat)
  /-- `SVN_COMMIT`: The Beygar command SVN_COMMIT (R338). -/
  | svnCommit (src : MgtSrc)
  /-- `DEBUG_UNLOCK`: The Beygar command DEBUG_UNLOCK (R459). -/
  | debugUnlock (src : MgtSrc) (level : Nat)
  /-- `TEL_RECEIVER`: The Beygar command TEL_RECEIVER (R458). -/
  | telReceiver (src : MgtSrc) (eid : Nat)
  /-- `TEL_READ`: The Beygar command TEL_READ (R458). -/
  | telRead (src : MgtSrc)
  /-- `PLDM_RESET`: The Beygar command RESET, with the word of PCM_RST_CMD, and the flash slots whose reads fail in a start-up that follows (R423). -/
  | pldmReset (src : MgtSrc) (value : Nat) (failed : List Nat)
  /-- `PLDM_WAKE`: The Beygar command WAKE (R419). -/
  | pldmWake (src : MgtSrc)
  /-- `PLDM_KEEP`: The Beygar command KEEP (R418). -/
  | pldmKeep (src : MgtSrc)
  /-- `RECOVERY_WRITE`: The Beygar command RECOVERY_WRITE: a chunk for slot A of the RSP or the MGT image (R451). -/
  | recoveryWrite (src : MgtSrc) (mgt : Bool) (off : Nat) (data : Bytes)
  /-- `STATUS_QUERY`: The Beygar command STATUS (Table 20.3). -/
  | statusQuery (src : MgtSrc)
  /-- `REQUEST_UPDATE`: The PLDM command RequestUpdate (R453). -/
  | requestUpdate (src : MgtSrc)
  /-- `UPDATE_COMPONENT`: A component of a firmware update is written and verified; `last` ends the update (R454). -/
  | updateComponent (src : MgtSrc) (comp : Nat) (data : Bytes) (last : Bool)
  /-- `SET_EVENT_RECEIVER`: The PLDM command SetEventReceiver (R457). -/
  | setEventReceiver (src : MgtSrc) (eid : Nat)
  /-- `EVENT_ACK`: The receiver acknowledges an event (R457). -/
  | eventAck (src : MgtSrc)
  /-- `TELEMETRY_PERIOD`: PERIOD_MS has passed, and whether the record before is still unsent (R458). -/
  | telemetryPeriod (unsent : Bool)
  /-- `BYPASS`: The test access port instruction BYPASS (R461). -/
  | bypass
  /-- `IDCODE`: The test access port instruction IDCODE (R461). -/
  | idcode
  /-- `SAMPLE_PRELOAD`: The test access port instruction SAMPLE/PRELOAD, and the cells shifted in (R461). -/
  | samplePreload (cells : Nat)
  /-- `EXTEST`: The test access port instruction EXTEST (R461). -/
  | extest
  /-- `EXTEST_PULSE`: The test access port instruction EXTEST_PULSE (R461). -/
  | extestPulse
  /-- `EXTEST_TRAIN`: The test access port instruction EXTEST_TRAIN (R461). -/
  | extestTrain
  /-- `CLAMP`: The test access port instruction CLAMP (R461). -/
  | clamp
  /-- `HIGHZ`: The test access port instruction HIGHZ (R461). -/
  | highz
  /-- `TAP_PRIVATE`: A private instruction of the test access port (R461). -/
  | tapPrivate
  /-- `TEST_LOGIC_RESET`: The test access port passes through Test-Logic-Reset; the flash slots whose reads fail in the start-up that follows (R461). -/
  | testLogicReset (failed : List Nat)
  /-- `LOW_WORD_READ`: A read of `len` bytes at an offset of the register space, or of a virtual function's window (R467). -/
  | lowWordRead (who : Requester) (off len : Nat)
  /-- `REGISTER_WRITE`: A write of `len` bytes at an offset of the register space, or of a virtual function's window (R469). -/
  | registerWrite (who : Requester) (off len value : Nat)
  /-- `VDD_AON_RISE`: VDD_AON rises from below its tolerance (R346). -/
  | vddAonRise
  /-- `PARTITION_RESET_COMPLETE`: The stops, ends and drains of a partition reset are done (R332). -/
  | partitionResetComplete (part : Nat)
  /-- `TIER_LINK_UP`: A tier port's link trains at a rate in GT/s and a width (R214). -/
  | tierLinkUp (port speed width : Nat)
  /-- `TIER_LINK_DOWN`: A tier port's link goes down (R224). -/
  | tierLinkDown (port : Nat)
  /-- `HOST_LINK_UP`: The host link finishes training (R434). -/
  | hostLinkUp (speed width cxl : Nat) (flit : Bool)
  /-- `BACK_INVALIDATE_SNOOP`: Another head has changed an ownership record. -/
  | backInvalidateSnoop (pool record : Nat) (now : OwnRec)
  /-- `CONFIGURATION_REQUEST`: A PCIe configuration request (R434). -/
  | configurationRequest (func : Nat) (req : CfgReq)
  /-- `CXL_MAILBOX_COMMAND`: A command of the CXL device mailbox (R311). -/
  | cxlMailboxCommand (opcode : Nat)
  /-- `SMBUS_ALERT_RESPONSE`: The SMBus host reads the alert response address (R448). -/
  | smbusAlertResponse
  deriving DecidableEq, Repr

end Sys2Proof
end

