-- ==== Sys2Proof/Decode.lean ====
section
/-!
DEFINITION. The decoder of table words. The table of operations and events gives no row any bits: a command reaches
the node as a register access, a message, a pin event or a descriptor, never as a word of its own. So no word spells
a command.
-/
namespace Sys2Proof

/-- The command that a table word spells: none, since no row of the table gives bits. -/
def decodeTableWord (_nbits _w : Nat) : Option Instr := none

end Sys2Proof
end

