-- ==== Sys2Proof/Config.lean ====
section
/-!
DEFINITION. The values the spec leaves open, as constants with no body: nothing can be proved of their values.
A function over a counter gives a fresh value each time; a function over operands gives one value per operands.
-/
namespace Sys2Proof

/-- The n-th open number the machine meets: a random draw, an arbitrary content, an undefined result. -/
opaque Config.freeNat : Nat → Nat

/-- What a sector of the upper case holds that no read delivers: never written, poisoned or not decodable. -/
opaque Config.freeCell : Nat → Nat

/-- The sign and payload of the NaN that a result in a format of `eb` exponent and `mb` fraction bits gives: the spec says
only that the result is NaN. -/
opaque Config.nanBits : (eb mb : Nat) → Nat

/-- The cause code of an error record of kind `n`: Table 16.2 leaves it to the chapters, which give none. -/
opaque Config.causeCode : Nat → Nat

/-- AES-XTS-256 under two keys, a tweak and a sector: encryption of 32 bytes (R352). -/
opaque Config.xtsEncrypt : (key1 key2 tweak : Nat) → Bytes → Bytes
/-- AES-XTS-256 decryption of 32 bytes. -/
opaque Config.xtsDecrypt : (key1 key2 tweak : Nat) → Bytes → Bytes
/-- SHA-384 of bytes, as a number of 384 bits. -/
opaque Config.sha384 : Bytes → Nat
/-- A signature under the key numbered `key` over bytes. -/
opaque Config.sign : (key : Nat) → Bytes → Bytes
/-- Whether a signature over bytes verifies under a public key. -/
opaque Config.verify : (pubKey sig msg : Bytes) → Bool
/-- AES-GCM-256 opening: whether the tag is right, and the plain bytes. -/
opaque Config.gcmOpen : (key iv : Nat) → (aad ct : Bytes) → Option Bytes
/-- AES-GCM-256 sealing. -/
opaque Config.gcmSeal : (key iv : Nat) → (aad pt : Bytes) → Bytes
/-- A key derivation under a label. -/
opaque Config.derive : (secret label : Nat) → Nat
/-- The digest of the security state (Table 15.1, measurement 5), whose record the spec does not lay out. -/
opaque Config.secDigest : List Nat → Nat
/-- The contents of a flash slot as shipped. -/
opaque Config.flashImage : Nat → Bytes
/-- Whether both signatures of a firmware image verify (R338). -/
opaque Config.fwVerified : Bytes → Bool
/-- The security version number and the version of a firmware image. -/
opaque Config.fwSvn : Bytes → Nat
opaque Config.fwVersion : Bytes → Nat
/-- The digest of the internal ROM (Table 15.1, measurement 1). -/
opaque Config.romDigest : Nat
/-- The Alias key of a node under measurement 2, the image's SVN and the debug-unlock state (R339). -/
opaque Config.aliasKey : (meas2 svn debug : Nat) → Nat
/-- The upper warning and upper critical thresholds of a sensor (R455). -/
opaque Config.sensorWarn : Nat → Nat
opaque Config.sensorCrit : Nat → Nat
/-- What a dword of a function's configuration space reads as, by the value last written to it, or none (R434). -/
opaque Config.cfgRead : (func dword : Nat) → Option Nat → Nat

/-- The certificate chain of slot 0 (R340), whose Alias certificate carries measurements 1 and 2 and the SVN. -/
opaque Config.certChain : (aliasKey meas1 meas2 svn : Nat) → Bytes

/-- What the management controller gives as the MCTP version it supports (R450). -/
opaque Config.mctpVersion : Nat

/-- What the CXL device mailbox answers to Identify, and to Get Health Information (R311). -/
opaque Config.cxlIdentify : Bytes
opaque Config.cxlHealth : Nat → Bytes

end Sys2Proof
end

