-- ==== Sys2Proof/Machine/Bits.lean ====
section
/-!
DEFINITION. Bit fields and byte order (R1, R2): a field of a word by its lowest bit and width, little-endian
bytes to and from numbers, two's complement, and saturating counts.
-/
namespace Sys2Proof.Machine

/-- Bits `[lo+wd-1:lo]` of `w` (R2). -/
def bits (w lo wd : Nat) : Nat := (w / 2 ^ lo) % 2 ^ wd

/-- Bit `i` of `w`. -/
def bitOf (w i : Nat) : Bool := decide (bits w i 1 = 1)

/-- `w` with bits `[lo+wd-1:lo]` replaced by the low bits of `v`. -/
def setBits (w lo wd v : Nat) : Nat := w - bits w lo wd * 2 ^ lo + (v % 2 ^ wd) * 2 ^ lo

def setBit (w i : Nat) : Nat := setBits w i 1 1
def clrBit (w i : Nat) : Nat := setBits w i 1 0

/-- The bits of `w` that `m` does not have, over `n` bits. -/
def andNot (w m n : Nat) : Nat := w &&& ((2 ^ n - 1) ^^^ (m % 2 ^ n))

def b2n (b : Bool) : Nat := if b then 1 else 0

/-- The set bits of `w` among bits 0 to `n - 1`, ascending. -/
def bitList (w n : Nat) : List Nat := (List.range n).filter fun i => bitOf w i

/-- The number of set bits of `w` among bits 0 to `n - 1`. -/
def popCount (w n : Nat) : Nat := (bitList w n).length

/-- Little-endian value of bytes (R1). -/
def leNat : Bytes → Nat
  | [] => 0
  | b :: r => b.toNat + 256 * leNat r

/-- The `n` little-endian bytes of a number (R1). -/
def natLe : Nat → Nat → Bytes
  | 0, _ => []
  | n + 1, v => BitVec.ofNat 8 v :: natLe n (v / 256)

/-- The little-endian field of `n` bytes at byte offset `o`. -/
def leAt (bs : Bytes) (o n : Nat) : Nat := leNat ((bs.drop o).take n)

/-- Bytes `o` to `o + n - 1`, zero past the end. -/
def slice (bs : Bytes) (o n : Nat) : Bytes :=
  let t := (bs.drop o).take n
  t ++ List.replicate (n - t.length) 0

/-- `bs` with the bytes `xs` at offset `o`. -/
def splice (bs : Bytes) (o : Nat) (xs : Bytes) : Bytes :=
  slice bs 0 o ++ xs ++ bs.drop (o + xs.length)

/-- Two's complement value of the low `n` bits. -/
def sInt (n w : Nat) : Int :=
  let v := w % 2 ^ n
  if v < 2 ^ (n - 1) then (v : Int) else (v : Int) - 2 ^ n

/-- The `n`-bit two's complement pattern of an integer. -/
def ofInt (n : Nat) (i : Int) : Nat := (i % (2 ^ n : Int)).toNat

/-- A sum that stops at `top`. -/
def satAdd (top a b : Nat) : Nat := min top (a + b)

def ceilDiv (a b : Nat) : Nat := (a + b - 1) / b

end Sys2Proof.Machine
end

