-- ==== Sys2Proof/Machine/Field.lean ====
section
/-!
DEFINITION. What a register field is (R2, R6, R12): the window that holds it, its offset and place, its access
type, its reset value, and which instance of it a select register or a window instance picks.
-/
namespace Sys2Proof.Machine

/-- The register windows of Table 21.2. `prt` is the partition function window. -/
inductive Win where
  | gut | krn | flo | cwd | ream | tier | rch | col | time | hst | rsp | pcm | mgt | ras | fab
  | cmp | gal | stk | plt | prt
  deriving DecidableEq, Repr

/-- The access types of Table 0.2. `w1cCount` is a W1C field that holds a count or a recorded maximum. -/
inductive Acc where
  | ro | rw | rwl | w1c | w1cCount | wo | ros
  deriving DecidableEq, Repr

/-- What picks the instance of a field: nothing, the window's unit, or a select register; `req` is a select
register itself, of which every requester has a copy of its own (R471). -/
inductive Sel where
  | one | unit | arb | remap | reamPart | egress | fabPart | colPart | hstPart | hstWin | rasIn | measIx | req
  deriving DecidableEq, Repr

/-- One register field. -/
structure Fld where
  win : Win
  off : Nat
  lo  : Nat
  wd  : Nat
  ty  : Acc
  rst : Nat
  sel : Sel
  deriving DecidableEq, Repr

/-- The number of a window. -/
def Win.ix : Win → Nat
  | .gut => 0 | .krn => 1 | .flo => 2 | .cwd => 3 | .ream => 4 | .tier => 5 | .rch => 6 | .col => 7
  | .time => 8 | .hst => 9 | .rsp => 10 | .pcm => 11 | .mgt => 12 | .ras => 13 | .fab => 14
  | .cmp => 15 | .gal => 16 | .stk => 17 | .plt => 18 | .prt => 19

/-- The key of instance `i` of a field in the register store. -/
def Fld.key (f : Fld) (i : Nat) : Nat := ((f.win.ix * 2 ^ 20 + f.off) * 64 + f.lo) * 2 ^ 20 + i

end Sys2Proof.Machine
end

