-- ==== Sys2Proof/Machine/RegMap.lean ====
section
/-!
DEFINITION. The register map: one handle per register field, named REGISTER.FIELD as R2 writes it,
with the window, offset, position, width, access type and reset value the spec's register table gives it.
A handle with an argument stands for a numbered family of registers or fields.
-/
namespace Sys2Proof.Machine

def GUT_ARB_SEL.ARB_ID : Fld := ⟨.gut, 0x0, 0, 8, .rw, 0, .req⟩
def GUT_ARB_CFG.STARVE_THR : Fld := ⟨.gut, 0x4, 16, 16, .rw, 0x1000, .arb⟩
def GUT_ARB_CFG.NREQ : Fld := ⟨.gut, 0x4, 0, 7, .ro, 0, .arb⟩
def GUT_ARB_STS.WAIT_MAX : Fld := ⟨.gut, 0x8, 16, 16, .ro, 0, .arb⟩
def GUT_ARB_STS.COMMIT_PEND : Fld := ⟨.gut, 0x8, 0, 1, .ro, 0, .arb⟩
def GUT_ARB_COMMIT.COMMIT : Fld := ⟨.gut, 0xC, 0, 1, .wo, 0, .arb⟩
def GUT_XPART_CNT.COUNT : Fld := ⟨.gut, 0x80, 0, 32, .w1cCount, 0, .one⟩
def KRN_FMT_ERR_CNT.COUNT : Fld := ⟨.krn, 0x0, 0, 32, .w1cCount, 0, .one⟩
def KRN_FMT_ERR_LOG0.FOLIO_ID : Fld := ⟨.krn, 0x4, 0, 32, .ros, 0, .one⟩
def KRN_FMT_ERR_LOG1.REASON : Fld := ⟨.krn, 0x8, 28, 4, .ros, 0, .one⟩
def KRN_FMT_ERR_LOG1.SOURCE : Fld := ⟨.krn, 0x8, 16, 8, .ros, 0, .one⟩
def KRN_FMT_ERR_LOG1.BLOCK : Fld := ⟨.krn, 0x8, 0, 10, .ros, 0, .one⟩
def KRN_ENC_IN_BYTES.BYTES : Fld := ⟨.krn, 0x10, 0, 64, .ro, 0, .one⟩
def KRN_ENC_OUT_BYTES.BYTES : Fld := ⟨.krn, 0x18, 0, 64, .ro, 0, .one⟩
def KRN_ENC_SOLID_CNT.COUNT : Fld := ⟨.krn, 0x20, 0, 32, .w1cCount, 0, .one⟩
def KRN_ENC_DEFER_CNT.COUNT : Fld := ⟨.krn, 0x24, 0, 32, .w1cCount, 0, .one⟩
def STK_ID.DIE_GBIT : Fld := ⟨.stk, 0x0, 8, 8, .ro, 0x40, .unit⟩
def STK_ID.LAYERS : Fld := ⟨.stk, 0x0, 4, 4, .ro, 0xc, .unit⟩
def STK_ID.STACK : Fld := ⟨.stk, 0x0, 0, 3, .ro, 0, .unit⟩
def STK_STS.REF_2X : Fld := ⟨.stk, 0x4, 4, 1, .ro, 0, .unit⟩
def STK_STS.THROTTLED : Fld := ⟨.stk, 0x4, 3, 1, .ro, 0, .unit⟩
def STK_STS.SELF_REFRESH : Fld := ⟨.stk, 0x4, 2, 1, .ro, 0, .unit⟩
def STK_STS.FENCED : Fld := ⟨.stk, 0x4, 1, 1, .ros, 0, .unit⟩
def STK_STS.TRAINED : Fld := ⟨.stk, 0x4, 0, 1, .ro, 0, .unit⟩
def STK_ERR_LOG0.OFFSET_LO : Fld := ⟨.stk, 0x30, 0, 32, .ros, 0, .unit⟩
def STK_ERR_LOG1.KIND : Fld := ⟨.stk, 0x34, 28, 4, .ros, 0, .unit⟩
def STK_ERR_LOG1.PART : Fld := ⟨.stk, 0x34, 16, 5, .ros, 0, .unit⟩
def STK_ERR_LOG1.OFFSET_HI : Fld := ⟨.stk, 0x34, 0, 8, .ros, 0, .unit⟩
def STK_REMAP_SEL.INDEX : Fld := ⟨.stk, 0x40, 0, 5, .rw, 0, .unit⟩
def STK_REMAP_ENT.VALID : Fld := ⟨.stk, 0x44, 31, 1, .rw, 0, .remap⟩
def STK_REMAP_ENT.LAYER : Fld := ⟨.stk, 0x44, 27, 4, .rw, 0, .remap⟩
def STK_REMAP_ENT.PC : Fld := ⟨.stk, 0x44, 21, 6, .rw, 0, .remap⟩
def STK_REMAP_ENT.BG : Fld := ⟨.stk, 0x44, 19, 2, .rw, 0, .remap⟩
def STK_REMAP_ENT.BANK : Fld := ⟨.stk, 0x44, 17, 2, .rw, 0, .remap⟩
def STK_REMAP_ENT.ROW : Fld := ⟨.stk, 0x44, 4, 13, .rw, 0, .remap⟩
def STK_REMAP_STS.USED : Fld := ⟨.stk, 0x48, 8, 6, .ro, 0, .unit⟩
def STK_REMAP_STS.INUSE : Fld := ⟨.stk, 0x48, 3, 1, .w1c, 0, .unit⟩
def STK_REMAP_STS.BUSY_ERR : Fld := ⟨.stk, 0x48, 2, 1, .w1c, 0, .unit⟩
def STK_REMAP_STS.DUP : Fld := ⟨.stk, 0x48, 1, 1, .w1c, 0, .unit⟩
def STK_REMAP_STS.BUSY : Fld := ⟨.stk, 0x48, 0, 1, .ro, 0, .unit⟩
def STK_PATROL_CFG.EN : Fld := ⟨.stk, 0x50, 31, 1, .rw, 1, .unit⟩
def STK_PATROL_CFG.PERIOD_H : Fld := ⟨.stk, 0x50, 0, 8, .rw, 0x18, .unit⟩
def STK_PATROL_POS.ROW_INDEX : Fld := ⟨.stk, 0x54, 0, 27, .ro, 0, .unit⟩
def STK_PATROL_PASS.COUNT : Fld := ⟨.stk, 0x58, 0, 32, .ro, 0, .unit⟩
def STK_CMD.SET_MASK : Fld := ⟨.stk, 0x60, 8, 8, .wo, 0, .unit⟩
def STK_CMD.OP : Fld := ⟨.stk, 0x60, 0, 4, .wo, 0, .unit⟩
def STK_CMD_STS.STATUS : Fld := ⟨.stk, 0xA0, 16, 16, .ro, 0, .unit⟩
def STK_CMD_STS.ERR : Fld := ⟨.stk, 0xA0, 2, 1, .w1c, 0, .unit⟩
def STK_CMD_STS.DONE : Fld := ⟨.stk, 0xA0, 1, 1, .w1c, 0, .unit⟩
def STK_CMD_STS.BUSY : Fld := ⟨.stk, 0xA0, 0, 1, .ro, 0, .unit⟩
def STK_CMD_PROG.PROGRESS : Fld := ⟨.stk, 0xA8, 0, 40, .ro, 0, .unit⟩
def STK_REF_CFG.POSTPONE_MAX : Fld := ⟨.stk, 0xB0, 0, 4, .rw, 8, .unit⟩
def STK_TEMP.TEMP_BASE : Fld := ⟨.stk, 0xB4, 8, 8, .ro, 0, .unit⟩
def STK_TEMP.TEMP_MAX : Fld := ⟨.stk, 0xB4, 0, 8, .ro, 0, .unit⟩
def PLT_CFG.PHASE_TMO : Fld := ⟨.plt, 0x0, 24, 8, .rw, 0xa, .unit⟩
def PLT_CFG.EN : Fld := ⟨.plt, 0x0, 0, 1, .rw, 1, .unit⟩
def PLT_STS.HELD : Fld := ⟨.plt, 0x4, 8, 8, .ro, 0, .unit⟩
def PLT_STS.BUSY : Fld := ⟨.plt, 0x4, 0, 8, .ro, 0, .unit⟩
def PLT_CLAIM_STS.WAITERS : Fld := ⟨.plt, 0x8, 16, 16, .ro, 0, .unit⟩
def PLT_CLAIM_STS.CLAIMED : Fld := ⟨.plt, 0x8, 0, 13, .ro, 0, .unit⟩
def PLT_CLAIM_STALL.CYCLES : Fld := ⟨.plt, 0x30, 0, 64, .ro, 0, .unit⟩
def PLT_ERR_LOG0.STATUS : Fld := ⟨.plt, 0x40, 16, 16, .ros, 0, .unit⟩
def PLT_ERR_LOG0.UNIT : Fld := ⟨.plt, 0x40, 8, 6, .ros, 0, .unit⟩
def PLT_ERR_LOG0.CMD_INDEX : Fld := ⟨.plt, 0x40, 0, 8, .ros, 0, .unit⟩
def PLT_ERR_LOG1.PART : Fld := ⟨.plt, 0x44, 16, 5, .ros, 0, .unit⟩
def PLT_ERR_LOG1.TAG : Fld := ⟨.plt, 0x44, 0, 16, .ros, 0, .unit⟩
def PLT_RES_INJ.GO : Fld := ⟨.plt, 0x48, 6, 1, .wo, 0, .unit⟩
def PLT_RES_INJ.UNIT : Fld := ⟨.plt, 0x48, 0, 6, .wo, 0, .unit⟩
def CMP_ID.REGION : Fld := ⟨.cmp, 0x0, 4, 2, .ro, 0, .unit⟩
def CMP_ID.BLOCK : Fld := ⟨.cmp, 0x0, 0, 4, .ro, 0, .unit⟩
def CMP_OWNER.ASSIGNED : Fld := ⟨.cmp, 0x4, 7, 1, .rwl, 0, .unit⟩
def CMP_OWNER.OWNER : Fld := ⟨.cmp, 0x4, 0, 5, .rwl, 0, .unit⟩
def CMP_SEQ_CTL.UNFENCE : Fld := ⟨.cmp, 0x8, 1, 1, .wo, 0, .unit⟩
def CMP_SEQ_CTL.RUN : Fld := ⟨.cmp, 0x8, 0, 1, .rw, 1, .unit⟩
def CMP_SEQ_STS.PC : Fld := ⟨.cmp, 0xC, 16, 13, .ro, 0, .unit⟩
def CMP_SEQ_STS.CLK_ON : Fld := ⟨.cmp, 0xC, 7, 1, .ro, 0, .unit⟩
def CMP_SEQ_STS.STATE : Fld := ⟨.cmp, 0xC, 0, 3, .ro, 0, .unit⟩
def CMP_WDOG.LIMIT_US : Fld := ⟨.cmp, 0x10, 0, 16, .rw, 0x64, .unit⟩
def CMP_RES_CFG.EXP_EN : Fld := ⟨.cmp, 0x14, 1, 1, .rwl, 1, .unit⟩
def CMP_RES_CFG.MAC_EN : Fld := ⟨.cmp, 0x14, 0, 1, .rwl, 1, .unit⟩
def CMP_FENCE_CFG.FAILS : Fld := ⟨.cmp, 0x18, 16, 8, .ro, 0, .unit⟩
def CMP_FENCE_CFG.FENCE_THR : Fld := ⟨.cmp, 0x18, 0, 8, .rw, 4, .unit⟩
def CMP_RES_INJ.GO : Fld := ⟨.cmp, 0x1C, 7, 1, .wo, 0, .unit⟩
def CMP_RES_INJ.KIND : Fld := ⟨.cmp, 0x1C, 6, 1, .wo, 0, .unit⟩
def CMP_RES_INJ.CELL : Fld := ⟨.cmp, 0x1C, 0, 4, .wo, 0, .unit⟩
def CMP_BUSY_CYC.CYCLES : Fld := ⟨.cmp, 0x40, 0, 64, .ro, 0, .unit⟩
def CMP_ERR_LOG0.STATUS : Fld := ⟨.cmp, 0x48, 16, 16, .ros, 0, .unit⟩
def CMP_ERR_LOG0.PC : Fld := ⟨.cmp, 0x48, 0, 13, .ros, 0, .unit⟩
def CMP_ERR_LOG1.KIND : Fld := ⟨.cmp, 0x4C, 28, 4, .ros, 0, .unit⟩
def CMP_ERR_LOG1.PART : Fld := ⟨.cmp, 0x4C, 16, 5, .ros, 0, .unit⟩
def CMP_ERR_LOG1.CELL : Fld := ⟨.cmp, 0x4C, 4, 4, .ros, 0, .unit⟩
def CMP_ERRQ_STS.BLK_LOST : Fld := ⟨.cmp, 0x50, 24, 8, .ro, 0, .unit⟩
def CMP_ERRQ_STS.CELL_LOST : Fld := ⟨.cmp, 0x50, 16, 8, .ro, 0, .unit⟩
def CMP_ERRQ_STS.BLK_DEPTH : Fld := ⟨.cmp, 0x50, 12, 4, .ro, 0, .unit⟩
def CMP_ERRQ_STS.CELL_DEPTH : Fld := ⟨.cmp, 0x50, 8, 4, .ro, 0, .unit⟩
def CMP_ERRQ_STS.BLK_OVF : Fld := ⟨.cmp, 0x50, 1, 1, .w1c, 0, .unit⟩
def CMP_ERRQ_STS.CELL_OVF : Fld := ⟨.cmp, 0x50, 0, 1, .w1c, 0, .unit⟩
def GAL_ID.REGION : Fld := ⟨.gal, 0x0, 0, 2, .ro, 0, .unit⟩
def GAL_WAY_EN.EN : Fld := ⟨.gal, 0x14, 0, 16, .rw, 0xffff, .unit⟩
def GAL_INV.OP : Fld := ⟨.gal, 0x18, 28, 4, .wo, 0, .unit⟩
def GAL_INV.PART : Fld := ⟨.gal, 0x18, 12, 5, .wo, 0, .unit⟩
def GAL_INV.KEY_SLOT : Fld := ⟨.gal, 0x18, 0, 12, .wo, 0, .unit⟩
def GAL_INV_STS.DONE : Fld := ⟨.gal, 0x1C, 1, 1, .w1c, 0, .unit⟩
def GAL_INV_STS.BUSY : Fld := ⟨.gal, 0x1C, 0, 1, .ro, 0, .unit⟩
def GAL_ERR_LOG0.OFFSET_LO : Fld := ⟨.gal, 0x60, 0, 32, .ros, 0, .unit⟩
def GAL_ERR_LOG1.KIND : Fld := ⟨.gal, 0x64, 28, 4, .ros, 0, .unit⟩
def GAL_ERR_LOG1.WAY : Fld := ⟨.gal, 0x64, 24, 4, .ros, 0, .unit⟩
def GAL_ERR_LOG1.PART : Fld := ⟨.gal, 0x64, 16, 5, .ros, 0, .unit⟩
def GAL_ERR_LOG1.OFFSET_HI : Fld := ⟨.gal, 0x64, 0, 8, .ros, 0, .unit⟩
def FLO_CFG.EN : Fld := ⟨.flo, 0x0, 31, 1, .rwl, 0, .one⟩
def FLO_CFG.SEARCH_MAX : Fld := ⟨.flo, 0x0, 16, 8, .rw, 0x40, .one⟩
def FLO_CFG.MAXRUN_LOG2 : Fld := ⟨.flo, 0x0, 12, 4, .rwl, 0xa, .one⟩
def FLO_CFG.NCONV_LOG2 : Fld := ⟨.flo, 0x0, 8, 4, .rwl, 0xc, .one⟩
def FLO_CFG.NFOLIO_LOG2 : Fld := ⟨.flo, 0x0, 0, 5, .rwl, 0x16, .one⟩
def FLO_LEAF_CFG.NLEAF : Fld := ⟨.flo, 0x18, 0, 24, .rwl, 0, .one⟩
def FLO_CMD_GO.GO : Fld := ⟨.flo, 0x80, 0, 1, .wo, 0, .one⟩
def FLO_CMD_STS.STATUS : Fld := ⟨.flo, 0x84, 16, 16, .ro, 0, .one⟩
def FLO_CMD_STS.ERR : Fld := ⟨.flo, 0x84, 2, 1, .w1c, 0, .one⟩
def FLO_CMD_STS.DONE : Fld := ⟨.flo, 0x84, 1, 1, .w1c, 0, .one⟩
def FLO_CMD_STS.BUSY : Fld := ⟨.flo, 0x84, 0, 1, .ro, 0, .one⟩
def CWD_CMD.OP : Fld := ⟨.cwd, 0x70, 28, 4, .wo, 0, .one⟩
def CWD_CMD.WIDTH : Fld := ⟨.cwd, 0x70, 26, 2, .wo, 0, .one⟩
def CWD_CMD.BANKS : Fld := ⟨.cwd, 0x70, 18, 8, .wo, 0, .one⟩
def CWD_CMD.POS : Fld := ⟨.cwd, 0x70, 0, 15, .wo, 0, .one⟩
def CWD_DATA.RESULT : Fld := ⟨.cwd, 0x74, 0, 32, .rw, 0, .one⟩
def CWD_RES.HIT : Fld := ⟨.cwd, 0x78, 63, 1, .ro, 0, .one⟩
def CWD_RES.BANK : Fld := ⟨.cwd, 0x78, 48, 3, .ro, 0, .one⟩
def CWD_RES.POS : Fld := ⟨.cwd, 0x78, 32, 15, .ro, 0, .one⟩
def CWD_RES.RESULT : Fld := ⟨.cwd, 0x78, 0, 32, .ro, 0, .one⟩
def CWD_STS.STATUS : Fld := ⟨.cwd, 0x80, 16, 16, .ro, 0, .one⟩
def CWD_STS.BUSY : Fld := ⟨.cwd, 0x80, 0, 1, .ro, 0, .one⟩
def CWD_ERR_LOG.BANK : Fld := ⟨.cwd, 0xA0, 20, 3, .ros, 0, .one⟩
def CWD_ERR_LOG.TYPE : Fld := ⟨.cwd, 0xA0, 16, 4, .ros, 0, .one⟩
def CWD_ERR_LOG.POS : Fld := ⟨.cwd, 0xA0, 0, 15, .ros, 0, .one⟩
def REAM_CFG.STARVE_US : Fld := ⟨.ream, 0x0, 16, 16, .rw, 0x64, .one⟩
def REAM_STS.POOL_USED : Fld := ⟨.ream, 0x4, 16, 14, .ro, 0, .one⟩
def REAM_STS.ADMITTED : Fld := ⟨.ream, 0x4, 0, 16, .ro, 0, .one⟩
def REAM_PSEL.PART : Fld := ⟨.ream, 0x8, 0, 5, .rw, 0, .req⟩
def REAM_COMMIT.COMMIT : Fld := ⟨.ream, 0x34, 0, 1, .wo, 0, .one⟩
def REAM_COMMIT_STS.PEND : Fld := ⟨.ream, 0x38, 0, 1, .ro, 0, .one⟩
def REAM_STARVE_STS.STARVE : Fld := ⟨.ream, 0x40, 0, 32, .w1c, 0, .one⟩
def REAM_STARVE_AGE.AGE_US : Fld := ⟨.ream, 0x44, 0, 32, .ro, 0, .reamPart⟩
def REAM_REG_CTL.EN : Fld := ⟨.ream, 0x48, 0, 1, .rw, 1, .one⟩
def REAM_REG_CFG.GUT_BURST : Fld := ⟨.ream, 0x4C, 24, 8, .rw, 0x10, .reamPart⟩
def REAM_REG_CFG.GUT_RATE : Fld := ⟨.ream, 0x4C, 16, 8, .rw, 0x10, .reamPart⟩
def REAM_REG_CFG.STK_BURST : Fld := ⟨.ream, 0x4C, 8, 8, .rw, 0x10, .reamPart⟩
def REAM_REG_CFG.STK_RATE : Fld := ⟨.ream, 0x4C, 0, 8, .rw, 0x10, .reamPart⟩
def REAM_ACCT_BASE.OFFSET : Fld := ⟨.ream, 0x50, 12, 28, .rw, 0, .one⟩
def REAM_ACCT_CFG.EN : Fld := ⟨.ream, 0x58, 31, 1, .rw, 0, .one⟩
def REAM_ACCT_CFG.PERIOD_MS : Fld := ⟨.ream, 0x58, 16, 15, .rw, 0x3e8, .one⟩
def REAM_ACCT_CFG.SIZE_LOG2 : Fld := ⟨.ream, 0x58, 0, 5, .rw, 0xc, .one⟩
def TIER_SPILL_CFG.EN : Fld := ⟨.tier, 0x50, 31, 1, .rw, 0, .one⟩
def TIER_SPILL_CFG.HI : Fld := ⟨.tier, 0x50, 16, 8, .rw, 0x30, .one⟩
def TIER_SPILL_CFG.LO : Fld := ⟨.tier, 0x50, 8, 8, .rw, 0x18, .one⟩
def TIER_PF_CFG.MOVE_MAX : Fld := ⟨.tier, 0x54, 4, 4, .rw, 4, .one⟩
def TIER_PF_CFG.DEPTH : Fld := ⟨.tier, 0x54, 0, 4, .rw, 4, .one⟩
def TIER_LEASE_CFG.LEASE_US : Fld := ⟨.tier, 0x58, 16, 16, .rwl, 0x7d0, .one⟩
def TIER_LEASE_CFG.GUARD_US : Fld := ⟨.tier, 0x58, 8, 8, .rwl, 0x14, .one⟩
def TIER_LATE_CFG.CPL_TMO_US : Fld := ⟨.tier, 0x5C, 24, 8, .rw, 0x32, .one⟩
def TIER_LATE_CFG.LIMIT_US : Fld := ⟨.tier, 0x5C, 0, 16, .rw, 0x3e8, .one⟩
def FAB_NODE_ID.NODE_ID : Fld := ⟨.fab, 0x0, 0, 16, .rwl, 0, .one⟩
def FAB_PSEL.HALF : Fld := ⟨.fab, 0x4, 4, 1, .rw, 0, .req⟩
def FAB_PSEL.PORT : Fld := ⟨.fab, 0x4, 0, 4, .rw, 0, .req⟩
def FAB_PORT_CFG.EN : Fld := ⟨.fab, 0x8, 31, 1, .rwl, 0, .egress⟩
def FAB_PORT_CFG.MODE : Fld := ⟨.fab, 0x8, 29, 2, .rwl, 0, .egress⟩
def FAB_PORT_CFG.PROT : Fld := ⟨.fab, 0x8, 28, 1, .rwl, 0, .egress⟩
def FAB_PORT_CFG.EDGE : Fld := ⟨.fab, 0x8, 27, 1, .rwl, 0, .egress⟩
def FAB_PORT_CFG.LINK_KEY_SLOT : Fld := ⟨.fab, 0x8, 16, 8, .rwl, 0, .egress⟩
def FAB_PORT_CFG.FLAP_MAX : Fld := ⟨.fab, 0x8, 0, 8, .rw, 8, .egress⟩
def FAB_PORT_STS.DROP_MODE : Fld := ⟨.fab, 0xC, 24, 8, .ro, 0, .egress⟩
def FAB_PORT_STS.PAUSED : Fld := ⟨.fab, 0xC, 16, 8, .ro, 0, .egress⟩
def FAB_PORT_STS.REASON : Fld := ⟨.fab, 0xC, 8, 4, .ro, 0, .egress⟩
def FAB_PORT_STS.FLAP_DIS : Fld := ⟨.fab, 0xC, 3, 1, .w1c, 0, .egress⟩
def FAB_PORT_STS.STATE : Fld := ⟨.fab, 0xC, 0, 3, .ro, 0, .egress⟩
def TIME_NOW.NS : Fld := ⟨.time, 0x0, 0, 64, .ro, 0, .one⟩
def TIME_CFG.GM : Fld := ⟨.time, 0x8, 31, 1, .rwl, 0, .one⟩
def TIME_CFG.PARENT_HALF : Fld := ⟨.time, 0x8, 28, 1, .rwl, 0, .one⟩
def TIME_CFG.PARENT : Fld := ⟨.time, 0x8, 24, 4, .rwl, 0, .one⟩
def TIME_CFG.INTERVAL_US : Fld := ⟨.time, 0x8, 0, 16, .rw, 0x3e8, .one⟩
def RCH_CFG.EN : Fld := ⟨.rch, 0x0, 31, 1, .rwl, 0, .one⟩
def RCH_CFG.RETRY_MAX : Fld := ⟨.rch, 0x0, 16, 8, .rw, 0x10, .one⟩
def RCH_CFG.RTO_US : Fld := ⟨.rch, 0x0, 8, 8, .rw, 0x14, .one⟩
def RCH_HOLD_CFG.IDLE_MS : Fld := ⟨.rch, 0x4, 16, 16, .rw, 0x3e8, .one⟩
def RCH_HOLD_CFG.HOLD_MS : Fld := ⟨.rch, 0x4, 0, 16, .rw, 0x64, .one⟩
def RCH_INCARNATION.VALUE : Fld := ⟨.rch, 0x8, 0, 32, .ro, 0, .one⟩
def RCH_STS.TX_CTX : Fld := ⟨.rch, 0x1C, 16, 16, .ro, 0, .one⟩
def RCH_STS.RX_CTX : Fld := ⟨.rch, 0x1C, 0, 16, .ro, 0, .one⟩
def COL_CFG.EN : Fld := ⟨.col, 0x0, 31, 1, .rwl, 0, .one⟩
def COL_CFG.MAX_ATTEMPT : Fld := ⟨.col, 0x0, 20, 4, .rw, 3, .one⟩
def COL_CFG.REAM_TMO_US : Fld := ⟨.col, 0x0, 0, 16, .rw, 0x7d0, .one⟩
def COL_CFG2.MIRROR_TMO_US : Fld := ⟨.col, 0x4, 24, 8, .rw, 0x14, .one⟩
def COL_CFG2.AUDIT_TMO_US : Fld := ⟨.col, 0x4, 16, 8, .rw, 0x32, .one⟩
def COL_STORE_STS.USED_KIB : Fld := ⟨.col, 0x20, 16, 16, .ro, 0, .one⟩
def COL_STORE_STS.PART_KIB : Fld := ⟨.col, 0x20, 0, 16, .ro, 0, .one⟩
def HST_LINK_STS.CXL : Fld := ⟨.hst, 0x0, 24, 4, .ro, 0, .one⟩
def HST_LINK_STS.WIDTH : Fld := ⟨.hst, 0x0, 16, 8, .ro, 0, .one⟩
def HST_LINK_STS.SPEED : Fld := ⟨.hst, 0x0, 8, 8, .ro, 0, .one⟩
def HST_LINK_STS.IDE : Fld := ⟨.hst, 0x0, 2, 1, .ro, 0, .one⟩
def HST_LINK_STS.FLIT : Fld := ⟨.hst, 0x0, 1, 1, .ro, 0, .one⟩
def HST_LINK_STS.UP : Fld := ⟨.hst, 0x0, 0, 1, .ro, 0, .one⟩
def HST_PRT_RST.GO : Fld := ⟨.hst, 0xC, 31, 1, .wo, 0, .one⟩
def HST_PRT_RST.RETIRE : Fld := ⟨.hst, 0xC, 30, 1, .wo, 0, .one⟩
def HST_PRT_RST.PART : Fld := ⟨.hst, 0xC, 0, 5, .wo, 0, .one⟩
def HST_DMA_ERR_CNT.COUNT : Fld := ⟨.hst, 0x30, 0, 32, .w1cCount, 0, .one⟩
def HST_PRT_IRQ.PRT_IRQ_DROP_CNT : Fld := ⟨.prt, 0x8, 0, 32, .w1cCount, 0, .unit⟩
def RSP_KEY_FLOOR.FLOOR : Fld := ⟨.rsp, 0x8C, 0, 17, .ro, 1, .one⟩
def RSP_FORME_CTL.OP : Fld := ⟨.rsp, 0x100, 28, 4, .wo, 0, .one⟩
def RSP_FORME_STS.STATUS : Fld := ⟨.rsp, 0x114, 16, 16, .ro, 0, .one⟩
def RSP_FORME_STS.ENABLED : Fld := ⟨.rsp, 0x114, 7, 1, .ro, 0, .one⟩
def RSP_FORME_STS.ERR : Fld := ⟨.rsp, 0x114, 6, 1, .w1c, 0, .one⟩
def RSP_FORME_STS.DONE : Fld := ⟨.rsp, 0x114, 5, 1, .w1c, 0, .one⟩
def RSP_FORME_STS.STATE : Fld := ⟨.rsp, 0x114, 0, 3, .ro, 0, .one⟩
def RSP_QUOIN_STS.OPEN : Fld := ⟨.rsp, 0x120, 1, 14, .ro, 0, .one⟩
def PCM_STATE.ERR : Fld := ⟨.pcm, 0x0, 31, 1, .w1c, 0, .one⟩
def PCM_STATE.ERR_REASON : Fld := ⟨.pcm, 0x0, 28, 3, .ro, 0, .one⟩
def PCM_STATE.DOZE : Fld := ⟨.pcm, 0x0, 8, 4, .ro, 0, .one⟩
def PCM_STATE.NODE : Fld := ⟨.pcm, 0x0, 0, 3, .ro, 0, .one⟩
def PCM_STATE_CMD.OP : Fld := ⟨.pcm, 0x4, 0, 4, .wo, 0, .one⟩
def PCM_POL.CAP_W : Fld := ⟨.pcm, 0x8, 22, 10, .rwl, 0x2bc, .one⟩
def PCM_POL.BOOST_EN : Fld := ⟨.pcm, 0x8, 21, 1, .rwl, 0, .one⟩
def PCM_POL.KEEP_EN : Fld := ⟨.pcm, 0x8, 20, 1, .rwl, 0, .one⟩
def PCM_RST_CMD.KIND : Fld := ⟨.pcm, 0x20, 28, 4, .wo, 0, .one⟩
def PCM_RST_CMD.CONFIRM : Fld := ⟨.pcm, 0x20, 20, 8, .wo, 0, .one⟩
def PCM_RST_CMD.REGION : Fld := ⟨.pcm, 0x20, 0, 2, .wo, 0, .one⟩
def PCM_RST_STS.LAST_KIND : Fld := ⟨.pcm, 0x24, 28, 4, .ro, 1, .one⟩
def PCM_RST_STS.CAUSE : Fld := ⟨.pcm, 0x24, 24, 4, .ro, 0, .one⟩
def PCM_RST_STS.RBUSY : Fld := ⟨.pcm, 0x24, 0, 4, .ro, 0, .one⟩
def PCM_THROTTLE_US.US : Fld := ⟨.pcm, 0x60, 0, 64, .ro, 0, .one⟩
def PCM_STRAP.MGT_ADDR : Fld := ⟨.pcm, 0x70, 4, 3, .ro, 0, .one⟩
def PCM_STRAP.REFCLK_SEL : Fld := ⟨.pcm, 0x70, 3, 1, .ro, 0, .one⟩
def PCM_STRAP.BOOT_SEL : Fld := ⟨.pcm, 0x70, 0, 3, .ro, 0, .one⟩
def GUT_ARB_STARVE_STS.STARVE (k : Nat) : Fld := ⟨.gut, 0x50 + 4 * k, 0, 32, .w1c, 0, .arb⟩
def GUT_ARB_STARVE_SUM.ARB (k : Nat) : Fld := ⟨.gut, 0x60 + 4 * k, 0, 32, .ro, 0, .one⟩
def STK_CNT.COUNT (k : Nat) : Fld := ⟨.stk, 0x10 + 4 * k, 0, 32, .w1cCount, 0, .unit⟩
def STK_CMD_PAT.PAT (k : Nat) : Fld := ⟨.stk, 0x80 + 4 * k, 0, 32, .rw, 0, .unit⟩
def PLT_CNT.COUNT (k : Nat) : Fld := ⟨.plt, 0x10 + 4 * k, 0, 32, .w1cCount, 0, .unit⟩
def CMP_CNT.COUNT (k : Nat) : Fld := ⟨.cmp, 0x20 + 4 * k, 0, 32, .w1cCount, 0, .unit⟩
def GAL_CNT.COUNT (k : Nat) : Fld := ⟨.gal, 0x40 + 4 * k, 0, 32, .w1cCount, 0, .unit⟩
def FLO_CMD_DATA.DATA (k : Nat) : Fld := ⟨.flo, 0x40 + 4 * k, 0, 32, .rw, 0, .one⟩
def FLO_CNT.COUNT (k : Nat) : Fld := ⟨.flo, 0xA0 + 4 * k, 0, 32, .w1cCount, 0, .one⟩
def CWD_CNT.COUNT (k : Nat) : Fld := ⟨.cwd, 0x90 + 4 * k, 0, 32, .w1cCount, 0, .one⟩
def REAM_EMODEL.COEF (k : Nat) : Fld := ⟨.ream, 0x70 + 4 * k, 0, 24, .rwl, ([0x1F400, 0x24400, 0x7800, 0x2800, 0x200, 0x29A, 0x1700, 0x1900].getD k 0), .one⟩
def TIER_PORT_CFG.EN (k : Nat) : Fld := ⟨.tier, 0x0 + 4 * k, 31, 1, .rwl, 0, .one⟩
def TIER_PORT_CFG.MODE (k : Nat) : Fld := ⟨.tier, 0x0 + 4 * k, 26, 2, .rwl, 0, .one⟩
def TIER_PORT_CFG.IDE_EN (k : Nat) : Fld := ⟨.tier, 0x0 + 4 * k, 25, 1, .rwl, 0, .one⟩
def TIER_PORT_CFG.POOL (k : Nat) : Fld := ⟨.tier, 0x0 + 4 * k, 0, 2, .rwl, 0, .one⟩
def TIER_PORT_STS.WIDTH (k : Nat) : Fld := ⟨.tier, 0x10 + 4 * k, 16, 8, .ro, 0, .one⟩
def TIER_PORT_STS.SPEED (k : Nat) : Fld := ⟨.tier, 0x10 + 4 * k, 8, 8, .ro, 0, .one⟩
def TIER_PORT_STS.DEGRADED (k : Nat) : Fld := ⟨.tier, 0x10 + 4 * k, 1, 1, .ro, 0, .one⟩
def TIER_PORT_STS.UP (k : Nat) : Fld := ⟨.tier, 0x10 + 4 * k, 0, 1, .ro, 0, .one⟩
def FAB_SHP.RATE (k : Nat) : Fld := ⟨.fab, 0x30 + 4 * k, 16, 16, .rw, 0, .egress⟩
def FAB_SHP.BURST (k : Nat) : Fld := ⟨.fab, 0x30 + 4 * k, 0, 16, .rw, 0x40, .egress⟩
def FAB_OCC.MAX (k : Nat) : Fld := ⟨.fab, 0x2C0 + 4 * k, 16, 16, .w1cCount, 0, .egress⟩
def FAB_OCC.CUR (k : Nat) : Fld := ⟨.fab, 0x2C0 + 4 * k, 0, 16, .ro, 0, .egress⟩
def TIME_CNT.COUNT (k : Nat) : Fld := ⟨.time, 0x30 + 4 * k, 0, 32, .w1cCount, 0, .one⟩
def HST_PRT_CNT.COUNT (k : Nat) : Fld := ⟨.prt, 0x10 + 4 * k, 0, 32, .w1cCount, 0, .unit⟩
def RSP_CNT.COUNT (k : Nat) : Fld := ⟨.rsp, 0xC0 + 4 * k, 0, 32, .w1cCount, 0, .one⟩
def RAS_QSTS.LOST (k : Nat) : Fld := ⟨.ras, 0x20 + 4 * k, 16, 16, .ro, 0, .one⟩
def RAS_QSTS.DEPTH (k : Nat) : Fld := ⟨.ras, 0x20 + 4 * k, 8, 6, .ro, 0, .one⟩
def RAS_QSTS.OVF (k : Nat) : Fld := ⟨.ras, 0x20 + 4 * k, 1, 1, .w1c, 0, .one⟩
def RAS_QSTS.BUSY (k : Nat) : Fld := ⟨.ras, 0x20 + 4 * k, 0, 1, .ro, 0, .one⟩
def RAS_LOG_DATA.DATA (k : Nat) : Fld := ⟨.ras, 0x60 + 4 * k, 0, 32, .ros, 0, .one⟩
def RAS_CNT.COUNT (k : Nat) : Fld := ⟨.ras, 0x80 + 4 * k, 0, 32, .w1cCount, 0, .one⟩
def RAS_MDOWN.NODE_B (k : Nat) : Fld := ⟨.ras, 0xC0 + 4 * k, 16, 16, .rw, 0xffff, .one⟩
def RAS_MDOWN.NODE_A (k : Nat) : Fld := ⟨.ras, 0xC0 + 4 * k, 0, 16, .rw, 0xffff, .one⟩
def RSP_FORME_DIGEST.DIGEST (k : Nat) : Fld := ⟨.rsp, 0x140 + 4 * k, 0, 32, .ro, 0, .one⟩
def RSP_FORME_CNT.COUNT (k : Nat) : Fld := ⟨.rsp, 0x180 + 4 * k, 0, 32, .w1cCount, 0, .one⟩
def PCM_CNT.COUNT (k : Nat) : Fld := ⟨.pcm, 0x40 + 4 * k, 0, 32, .w1cCount, 0, .one⟩
def MGT_CNT.COUNT (k : Nat) : Fld := ⟨.mgt, 0xB0 + 4 * k, 0, 32, .w1cCount, 0, .one⟩
def GUT_ARB_PRIO.PRIO (k : Nat) : Fld := ⟨.gut, 0x10 + 4*(k/8), 0 + 4*(k%8), 4, .rw, 8, .arb⟩
def GUT_ARB_ACT.ACT (k : Nat) : Fld := ⟨.gut, 0x30 + 4*(k/8), 0 + 4*(k%8), 4, .ro, 8, .arb⟩
def STK_SET_OWNER.ASSIGNED (k : Nat) : Fld := ⟨.stk, 0x8 + 4*(k/4), 7 + 8*(k%4), 1, .rwl, 0, .unit⟩
def STK_SET_OWNER.OWNER (k : Nat) : Fld := ⟨.stk, 0x8 + 4*(k/4), 0 + 8*(k%4), 5, .rwl, 0, .unit⟩
def STK_CMD_START.OFFSET : Fld := ⟨.stk, 0x68, 12, 28, .rw, 0, .unit⟩
def STK_CMD_END.OFFSET : Fld := ⟨.stk, 0x70, 12, 28, .rw, 0, .unit⟩
def GAL_WAY_OWNER.ASSIGNED (k : Nat) : Fld := ⟨.gal, 0x4 + 4*(k/4), 7 + 8*(k%4), 1, .rwl, 0, .unit⟩
def GAL_WAY_OWNER.SEALED (k : Nat) : Fld := ⟨.gal, 0x4 + 4*(k/4), 6 + 8*(k%4), 1, .rwl, 0, .unit⟩
def GAL_WAY_OWNER.OWNER (k : Nat) : Fld := ⟨.gal, 0x4 + 4*(k/4), 0 + 8*(k%4), 5, .rwl, 0, .unit⟩
def GAL_HIT.COUNT : Fld := ⟨.gal, 0x20, 0, 64, .ro, 0, .unit⟩
def GAL_MISS.COUNT : Fld := ⟨.gal, 0x28, 0, 64, .ro, 0, .unit⟩
def GAL_FILL.COUNT : Fld := ⟨.gal, 0x30, 0, 64, .ro, 0, .unit⟩
def FLO_TBL_BASE.OFFSET : Fld := ⟨.flo, 0x8, 12, 28, .rwl, 0, .one⟩
def FLO_TBL_LIMIT.OFFSET : Fld := ⟨.flo, 0x10, 12, 28, .rwl, 0, .one⟩
def FLO_SET_SEL.VALUE : Fld := ⟨.flo, 0x90, 0, 22, .rw, 0, .req⟩
def FLO_SET_FREE.VALUE : Fld := ⟨.flo, 0x94, 0, 22, .ro, 0, .one⟩
def CWD_BANK_CFG.TYPE (k : Nat) : Fld := ⟨.cwd, 0x0, 4 + 8*k, 4, .rwl, 0, .one⟩
def CWD_BANK_CFG.WIDTH (k : Nat) : Fld := ⟨.cwd, 0x0, 8*k, 2, .rwl, 0, .one⟩
def CWD_KEY.BITS (k : Nat) : Fld := ⟨.cwd, 0x10 + 4*k, 0, 32, .rw, 0, .one⟩
def CWD_MASK.BITS (k : Nat) : Fld := ⟨.cwd, 0x40 + 4*k, 0, 32, .rw, 0, .one⟩
def REAM_PW.WEIGHT : Fld := ⟨.ream, 0xC, 0, 8, .rw, 0x10, .reamPart⟩
def REAM_PW_ACT.WEIGHT : Fld := ⟨.ream, 0x20, 0, 8, .ro, 0x10, .reamPart⟩
def REAM_CW.W (k : Nat) : Fld := ⟨.ream, 0x10 + 4*(k/4), 0 + 8*(k%4), 8, .rw, 0x10, .reamPart⟩
def REAM_CW_ACT.W (k : Nat) : Fld := ⟨.ream, 0x24 + 4*(k/4), 0 + 8*(k%4), 8, .ro, 0x10, .reamPart⟩
def REAM_ACCT_PROD.INDEX : Fld := ⟨.ream, 0x5C, 0, 32, .ro, 0, .one⟩
def REAM_ACCT_CONS.INDEX : Fld := ⟨.ream, 0x60, 0, 32, .rw, 0, .one⟩
def REAM_TKT_REFUSE_CNT.COUNT : Fld := ⟨.ream, 0x90, 0, 32, .w1cCount, 0, .one⟩
def REAM_BUSY_CNT.COUNT : Fld := ⟨.ream, 0x94, 0, 32, .w1cCount, 0, .one⟩
def REAM_SKIP_CNT.COUNT : Fld := ⟨.ream, 0x98, 0, 32, .w1cCount, 0, .one⟩
def REAM_APPEND_DUP_CNT.COUNT : Fld := ⟨.ream, 0x9C, 0, 32, .w1cCount, 0, .one⟩
def REAM_PRESS_CNT.COUNT : Fld := ⟨.ream, 0xA0, 0, 32, .w1cCount, 0, .one⟩
def REAM_GALLEY_CNT.COUNT : Fld := ⟨.ream, 0xA4, 0, 32, .w1cCount, 0, .one⟩
def REAM_XREGION_CNT.COUNT : Fld := ⟨.ream, 0xA8, 0, 32, .w1cCount, 0, .one⟩
def REAM_REPLACE_CNT.COUNT : Fld := ⟨.ream, 0xAC, 0, 32, .w1cCount, 0, .one⟩
def REAM_STARVE_CNT.COUNT : Fld := ⟨.ream, 0xB0, 0, 32, .w1cCount, 0, .one⟩
def REAM_ACCT_LOST_CNT.COUNT : Fld := ⟨.ream, 0xB4, 0, 32, .w1cCount, 0, .one⟩
def REAM_REG_STALL_CNT.COUNT : Fld := ⟨.ream, 0xB8, 0, 32, .w1cCount, 0, .one⟩
def REAM_PACCT.VALUE (k : Nat) : Fld := ⟨.ream, 0x100 + 8*k, 0, 64, .ros, 0, .reamPart⟩
def REAM_PUNLOG.VALUE (k : Nat) : Fld := ⟨.ream, 0x180 + 8*k, 0, 64, .ros, 0, .reamPart⟩
def TIER_POOL_CFG.EN (k : Nat) : Fld := ⟨.tier, 0x20 + 8*k, 63, 1, .rwl, 0, .one⟩
def TIER_POOL_CFG.SHARED (k : Nat) : Fld := ⟨.tier, 0x20 + 8*k, 62, 1, .rwl, 0, .one⟩
def TIER_POOL_CFG.BAY (k : Nat) : Fld := ⟨.tier, 0x20 + 8*k, 58, 4, .rwl, 0, .one⟩
def TIER_POOL_CFG.NBAY_M1 (k : Nat) : Fld := ⟨.tier, 0x20 + 8*k, 54, 4, .rwl, 0, .one⟩
def TIER_POOL_CFG.SIZE_GIB (k : Nat) : Fld := ⟨.tier, 0x20 + 8*k, 34, 17, .rwl, 0, .one⟩
def TIER_POOL_CFG.REC_LOG2 (k : Nat) : Fld := ⟨.tier, 0x20 + 8*k, 29, 5, .rwl, 0, .one⟩
def TIER_POOL_CFG.BASE (k : Nat) : Fld := ⟨.tier, 0x20 + 8*k, 0, 16, .rwl, 0, .one⟩
def TIER_PART_POOL.EN (k : Nat) : Fld := ⟨.tier, 0x40 + 4*(k/8), 3 + 4*(k%8), 1, .rwl, 0, .one⟩
def TIER_PART_POOL.POOL (k : Nat) : Fld := ⟨.tier, 0x40 + 4*(k/8), 0 + 4*(k%8), 2, .rwl, 0, .one⟩
def TIER_CMD_DATA.DATA (k : Nat) : Fld := ⟨.tier, 0x80 + 4*k, 0, 32, .rw, 0, .one⟩
def TIER_CMD_GO.GO : Fld := ⟨.tier, 0xC0, 0, 1, .wo, 0, .one⟩
def TIER_CMD_STS.STATUS : Fld := ⟨.tier, 0xC4, 16, 16, .ro, 0, .one⟩
def TIER_CMD_STS.ERR : Fld := ⟨.tier, 0xC4, 2, 1, .w1c, 0, .one⟩
def TIER_CMD_STS.DONE : Fld := ⟨.tier, 0xC4, 1, 1, .w1c, 0, .one⟩
def TIER_CMD_STS.BUSY : Fld := ⟨.tier, 0xC4, 0, 1, .ro, 0, .one⟩
def TIER_CNT.COUNT (k : Nat) : Fld := ⟨.tier, 0xD0 + 4*k, 0, 32, .w1cCount, 0, .one⟩
def TIER_LATE_CNT.COUNT : Fld := ⟨.tier, 0xF0, 0, 32, .w1cCount, 0, .one⟩
def TIER_ERR_LOG0.OFFSET_LO : Fld := ⟨.tier, 0xF8, 0, 32, .ros, 0, .one⟩
def TIER_ERR_LOG1.KIND : Fld := ⟨.tier, 0xFC, 28, 4, .ros, 0, .one⟩
def TIER_ERR_LOG1.POOL : Fld := ⟨.tier, 0xFC, 14, 2, .ros, 0, .one⟩
def TIER_ERR_LOG1.OFFSET_HI : Fld := ⟨.tier, 0xFC, 0, 14, .ros, 0, .one⟩
def FAB_PFC_CFG.XOFF : Fld := ⟨.fab, 0x10, 24, 8, .rw, 0x10, .egress⟩
def FAB_PFC_CFG.XON : Fld := ⟨.fab, 0x10, 16, 8, .rw, 8, .egress⟩
def FAB_PFC_CFG.PAUSE_NS : Fld := ⟨.fab, 0x10, 0, 16, .rw, 0x2000, .egress⟩
def FAB_STORM_CFG.LIMIT_MS : Fld := ⟨.fab, 0x14, 24, 8, .rw, 0xa, .egress⟩
def FAB_STORM_CFG.RECOVER_MS : Fld := ⟨.fab, 0x14, 8, 16, .rw, 0x64, .egress⟩
def FAB_WFQ_CFG.W (k : Nat) : Fld := ⟨.fab, 0x18 + 4*(k/4), 0 + 8*(k%4), 8, .rw, 0x10, .egress⟩
def FAB_WFQ_BURST.B (k : Nat) : Fld := ⟨.fab, 0x20 + 4*(k/4), 0 + 8*(k%4), 8, .rw, 0x10, .egress⟩
def FAB_RT_CTL.PEND : Fld := ⟨.fab, 0x50, 1, 1, .ro, 0, .one⟩
def FAB_RT_CTL.COMMIT : Fld := ⟨.fab, 0x50, 0, 1, .wo, 0, .one⟩
def FAB_EPOCH.EPOCH : Fld := ⟨.fab, 0x54, 0, 32, .rw, 0, .one⟩
def FAB_MPSEL.PART : Fld := ⟨.fab, 0x60, 0, 5, .rw, 0, .req⟩
def FAB_MTR_RATE.PIR : Fld := ⟨.fab, 0x64, 16, 16, .rw, 0, .fabPart⟩
def FAB_MTR_RATE.CIR : Fld := ⟨.fab, 0x64, 0, 16, .rw, 0, .fabPart⟩
def FAB_MTR_BURST.PBS : Fld := ⟨.fab, 0x68, 16, 16, .rw, 0x40, .fabPart⟩
def FAB_MTR_BURST.CBS : Fld := ⟨.fab, 0x68, 0, 16, .rw, 0x40, .fabPart⟩
def FAB_MTR_CTL.EN : Fld := ⟨.fab, 0x6C, 0, 1, .rw, 0, .fabPart⟩
def FAB_GCL_CFG.GATED : Fld := ⟨.fab, 0x80, 24, 8, .rw, 0, .egress⟩
def FAB_GCL_CFG.ADMIN_N : Fld := ⟨.fab, 0x80, 0, 9, .rw, 1, .egress⟩
def FAB_GCL_GO.CANCEL : Fld := ⟨.fab, 0x84, 1, 1, .wo, 0, .egress⟩
def FAB_GCL_GO.GO : Fld := ⟨.fab, 0x84, 0, 1, .wo, 0, .egress⟩
def FAB_GCL_STS.SUSP : Fld := ⟨.fab, 0x88, 3, 1, .ro, 0, .egress⟩
def FAB_GCL_STS.ERR : Fld := ⟨.fab, 0x88, 2, 1, .w1c, 0, .egress⟩
def FAB_GCL_STS.DONE : Fld := ⟨.fab, 0x88, 1, 1, .w1c, 0, .egress⟩
def FAB_GCL_STS.PEND : Fld := ⟨.fab, 0x88, 0, 1, .ro, 0, .egress⟩
def FAB_GCL_BASE.BASE : Fld := ⟨.fab, 0x90, 0, 64, .rw, 0, .egress⟩
def FAB_GCL_CYCLE.CYCLE_NS : Fld := ⟨.fab, 0x98, 0, 32, .rw, 0x2710, .egress⟩
def FAB_GCL_SWITCH.T : Fld := ⟨.fab, 0xA0, 0, 64, .rw, 0, .egress⟩
def FAB_HDR_DROP_CNT.COUNT : Fld := ⟨.fab, 0x100, 0, 32, .w1cCount, 0, .one⟩
def FAB_E2E_CRC_CNT.COUNT : Fld := ⟨.fab, 0x104, 0, 32, .w1cCount, 0, .one⟩
def FAB_KEYGEN_DROP_CNT.COUNT : Fld := ⟨.fab, 0x108, 0, 32, .w1cCount, 0, .one⟩
def FAB_HOP_DROP_CNT.COUNT : Fld := ⟨.fab, 0x10C, 0, 32, .w1cCount, 0, .one⟩
def FAB_NOROUTE_CNT.COUNT : Fld := ⟨.fab, 0x110, 0, 32, .w1cCount, 0, .one⟩
def FAB_PROT_DROP_CNT.COUNT : Fld := ⟨.fab, 0x114, 0, 32, .w1cCount, 0, .one⟩
def FAB_MTR_YELLOW_CNT.COUNT : Fld := ⟨.fab, 0x118, 0, 32, .w1cCount, 0, .one⟩
def FAB_MTR_RED_CNT.COUNT : Fld := ⟨.fab, 0x11C, 0, 32, .w1cCount, 0, .one⟩
def FAB_MTR_DEMOTE_CNT.COUNT : Fld := ⟨.fab, 0x120, 0, 32, .w1cCount, 0, .one⟩
def FAB_LCRC_CNT.COUNT : Fld := ⟨.fab, 0x124, 0, 32, .w1cCount, 0, .egress⟩
def FAB_STOMP_CNT.COUNT : Fld := ⟨.fab, 0x128, 0, 32, .w1cCount, 0, .egress⟩
def FAB_FLAP_CNT.COUNT : Fld := ⟨.fab, 0x12C, 0, 32, .w1cCount, 0, .egress⟩
def FAB_PAUSE_TX_CNT.COUNT : Fld := ⟨.fab, 0x130, 0, 32, .w1cCount, 0, .egress⟩
def FAB_PAUSE_RX_CNT.COUNT : Fld := ⟨.fab, 0x134, 0, 32, .w1cCount, 0, .egress⟩
def FAB_OVF_DROP_CNT.COUNT : Fld := ⟨.fab, 0x138, 0, 32, .w1cCount, 0, .egress⟩
def FAB_STORM_CNT.COUNT : Fld := ⟨.fab, 0x13C, 0, 32, .w1cCount, 0, .egress⟩
def FAB_STORM_DROP_CNT.COUNT : Fld := ⟨.fab, 0x140, 0, 32, .w1cCount, 0, .egress⟩
def FAB_GATE_OVR_CNT.COUNT : Fld := ⟨.fab, 0x144, 16, 16, .w1cCount, 0, .egress⟩
def FAB_GATE_NOFIT_CNT.COUNT : Fld := ⟨.fab, 0x144, 0, 16, .w1cCount, 0, .egress⟩
def FAB_TX_BYTES.VALUE (k : Nat) : Fld := ⟨.fab, 0x200 + 8*k, 0, 64, .ro, 0, .egress⟩
def FAB_RX_BYTES.VALUE (k : Nat) : Fld := ⟨.fab, 0x240 + 8*k, 0, 64, .ro, 0, .egress⟩
def FAB_PAUSED_NS.VALUE (k : Nat) : Fld := ⟨.fab, 0x280 + 8*k, 0, 64, .ro, 0, .egress⟩
def FAB_GCL_ADMIN.ENTRY (k : Nat) : Fld := ⟨.fab, 0x400 + 4*k, 0, 32, .rw, 0, .egress⟩
def FAB_GCL_OPER.ENTRY (k : Nat) : Fld := ⟨.fab, 0x800 + 4*k, 0, 32, .ro, 0, .egress⟩
def FAB_RT_SHADOW.ENTRY (k : Nat) : Fld := ⟨.fab, 0x20000 + 4*(k/2), 0 + 16*(k%2), 16, .rwl, 0, .one⟩
def FAB_RT_ACTIVE.ENTRY (k : Nat) : Fld := ⟨.fab, 0x40000 + 4*(k/2), 0 + 16*(k%2), 16, .ro, 0, .one⟩
def TIME_STS.LOST : Fld := ⟨.time, 0xC, 2, 1, .ro, 0, .one⟩
def TIME_STS.OOB : Fld := ⟨.time, 0xC, 1, 1, .ro, 1, .one⟩
def TIME_STS.LOCKED : Fld := ⟨.time, 0xC, 0, 1, .ro, 0, .one⟩
def TIME_OFFSET.OFFSET : Fld := ⟨.time, 0x10, 0, 32, .ro, 0, .one⟩
def TIME_SET.NS : Fld := ⟨.time, 0x18, 0, 64, .wo, 0, .one⟩
def TIME_HB_CFG.HB_US : Fld := ⟨.time, 0x20, 0, 16, .rw, 0x64, .one⟩
def RCH_RTX_BASE.OFFSET : Fld := ⟨.rch, 0x10, 12, 28, .rwl, 0, .one⟩
def RCH_RTX_CFG.SLOTS_LOG2 : Fld := ⟨.rch, 0x18, 0, 5, .rwl, 0xe, .one⟩
def RCH_CMD_DATA.DATA (k : Nat) : Fld := ⟨.rch, 0x40 + 4*k, 0, 32, .rw, 0, .one⟩
def RCH_CMD_GO.GO : Fld := ⟨.rch, 0x80, 0, 1, .wo, 0, .one⟩
def RCH_CMD_STS.STATUS : Fld := ⟨.rch, 0x84, 16, 16, .ro, 0, .one⟩
def RCH_CMD_STS.ERR : Fld := ⟨.rch, 0x84, 2, 1, .w1c, 0, .one⟩
def RCH_CMD_STS.DONE : Fld := ⟨.rch, 0x84, 1, 1, .w1c, 0, .one⟩
def RCH_CMD_STS.BUSY : Fld := ⟨.rch, 0x84, 0, 1, .ro, 0, .one⟩
def RCH_CMD_KEY.KEY : Fld := ⟨.rch, 0x88, 0, 32, .ro, 0, .one⟩
def RCH_REG_SEL.INDEX : Fld := ⟨.rch, 0x90, 0, 16, .rw, 0, .req⟩
def RCH_REG_STS.STATE : Fld := ⟨.rch, 0x94, 30, 2, .ro, 0, .one⟩
def RCH_REG_STS.PART : Fld := ⟨.rch, 0x94, 24, 5, .ro, 0, .one⟩
def RCH_REG_STS.GEN : Fld := ⟨.rch, 0x94, 16, 8, .ro, 1, .one⟩
def RCH_REG_STS.OUTSTANDING : Fld := ⟨.rch, 0x94, 0, 16, .ro, 0, .one⟩
def RCH_CH_SEL.RX : Fld := ⟨.rch, 0xA0, 31, 1, .rw, 0, .req⟩
def RCH_CH_SEL.CHAN : Fld := ⟨.rch, 0xA0, 16, 4, .rw, 0, .req⟩
def RCH_CH_SEL.NODE : Fld := ⟨.rch, 0xA0, 0, 16, .rw, 0, .req⟩
def RCH_CH_STS.STATE : Fld := ⟨.rch, 0xA4, 30, 2, .ro, 0, .one⟩
def RCH_CH_STS.CLASS : Fld := ⟨.rch, 0xA4, 27, 3, .ro, 0, .one⟩
def RCH_CH_STS.UNACK : Fld := ⟨.rch, 0xA4, 0, 9, .ro, 0, .one⟩
def RCH_CH_SEQ.SEQ : Fld := ⟨.rch, 0xA8, 0, 24, .ro, 0, .one⟩
def RCH_DUP_CNT.COUNT : Fld := ⟨.rch, 0xC0, 0, 32, .w1cCount, 0, .one⟩
def RCH_OOS_CNT.COUNT : Fld := ⟨.rch, 0xC4, 0, 32, .w1cCount, 0, .one⟩
def RCH_RTX_CNT.COUNT : Fld := ⟨.rch, 0xC8, 0, 32, .w1cCount, 0, .one⟩
def RCH_TMO_CNT.COUNT : Fld := ⟨.rch, 0xCC, 0, 32, .w1cCount, 0, .one⟩
def RCH_BROKEN_CNT.COUNT : Fld := ⟨.rch, 0xD0, 0, 32, .w1cCount, 0, .one⟩
def RCH_LOST_WR_CNT.COUNT : Fld := ⟨.rch, 0xD4, 0, 32, .w1cCount, 0, .one⟩
def RCH_RTX_WAIT_CNT.COUNT : Fld := ⟨.rch, 0xD8, 0, 32, .w1cCount, 0, .one⟩
def RCH_NOCTX_CNT.COUNT : Fld := ⟨.rch, 0xDC, 0, 32, .w1cCount, 0, .one⟩
def RCH_REFUSE_CNT.COUNT : Fld := ⟨.rch, 0xE0, 0, 32, .w1cCount, 0, .one⟩
def RCH_REPLAY_HIT_CNT.COUNT : Fld := ⟨.rch, 0xE4, 0, 32, .w1cCount, 0, .one⟩
def RCH_REPLAY_MISS_CNT.COUNT : Fld := ⟨.rch, 0xE8, 0, 32, .w1cCount, 0, .one⟩
def RCH_ERR_LOG0.STATUS : Fld := ⟨.rch, 0xF0, 16, 16, .ros, 0, .one⟩
def RCH_ERR_LOG0.SRC_NODE : Fld := ⟨.rch, 0xF0, 0, 16, .ros, 0, .one⟩
def RCH_ERR_LOG1.KEY : Fld := ⟨.rch, 0xF4, 0, 32, .ros, 0, .one⟩
def COL_SIG_BASE.OFFSET : Fld := ⟨.col, 0x8, 12, 28, .rwl, 0, .one⟩
def COL_SIG_CFG.SIG_LOG2 : Fld := ⟨.col, 0x10, 0, 5, .rwl, 0xc, .one⟩
def COL_PSEL.PART : Fld := ⟨.col, 0x14, 0, 5, .rw, 0, .req⟩
def COL_AUDIT_CFG.N : Fld := ⟨.col, 0x18, 0, 16, .rwl, 0, .colPart⟩
def COL_QUOTA.QUOTA_KIB : Fld := ⟨.col, 0x1C, 0, 16, .rwl, 0x200, .colPart⟩
def COL_CMD_DATA.DATA (k : Nat) : Fld := ⟨.col, 0x40 + 4*k, 0, 32, .rw, 0, .one⟩
def COL_CMD_GO.GO : Fld := ⟨.col, 0x80, 0, 1, .wo, 0, .one⟩
def COL_CMD_STS.STATUS : Fld := ⟨.col, 0x84, 16, 16, .ro, 0, .one⟩
def COL_CMD_STS.ERR : Fld := ⟨.col, 0x84, 2, 1, .w1c, 0, .one⟩
def COL_CMD_STS.DONE : Fld := ⟨.col, 0x84, 1, 1, .w1c, 0, .one⟩
def COL_CMD_STS.BUSY : Fld := ⟨.col, 0x84, 0, 1, .ro, 0, .one⟩
def COL_DUP_CNT.COUNT : Fld := ⟨.col, 0xC0, 0, 32, .w1cCount, 0, .one⟩
def COL_STALE_CNT.COUNT : Fld := ⟨.col, 0xC4, 0, 32, .w1cCount, 0, .one⟩
def COL_ABORT_CNT.COUNT : Fld := ⟨.col, 0xC8, 0, 32, .w1cCount, 0, .one⟩
def COL_REISSUE_CNT.COUNT : Fld := ⟨.col, 0xCC, 0, 32, .w1cCount, 0, .one⟩
def COL_STANDIN_CNT.COUNT : Fld := ⟨.col, 0xD0, 0, 32, .w1cCount, 0, .one⟩
def COL_NO_STANDIN_CNT.COUNT : Fld := ⟨.col, 0xD4, 0, 32, .w1cCount, 0, .one⟩
def COL_MIRROR_TMO_CNT.COUNT : Fld := ⟨.col, 0xD8, 0, 32, .w1cCount, 0, .one⟩
def COL_UNMIRRORED_CNT.COUNT : Fld := ⟨.col, 0xDC, 0, 32, .w1cCount, 0, .one⟩
def COL_AUDIT_CNT.COUNT : Fld := ⟨.col, 0xE0, 0, 32, .w1cCount, 0, .one⟩
def COL_AUDIT_MISMATCH_CNT.COUNT : Fld := ⟨.col, 0xE4, 0, 32, .w1cCount, 0, .one⟩
def COL_AUDIT_SKIP_CNT.COUNT : Fld := ⟨.col, 0xE8, 0, 32, .w1cCount, 0, .one⟩
def COL_MIRROR_REFUSE_CNT.COUNT : Fld := ⟨.col, 0xEC, 0, 32, .w1cCount, 0, .one⟩
def COL_ERR_LOG0.REAM_ID : Fld := ⟨.col, 0xF0, 0, 32, .ros, 0, .one⟩
def COL_ERR_LOG1.STATUS : Fld := ⟨.col, 0xF4, 16, 16, .ros, 0, .one⟩
def COL_ERR_LOG1.FAULT_POS : Fld := ⟨.col, 0xF4, 8, 6, .ros, 0, .one⟩
def COL_ERR_LOG1.ATTEMPT : Fld := ⟨.col, 0xF4, 0, 8, .ros, 0, .one⟩
def COL_AUDIT_LOG.NODE : Fld := ⟨.col, 0xF8, 16, 16, .ros, 0, .one⟩
def COL_AUDIT_LOG.MIRROR : Fld := ⟨.col, 0xF8, 0, 16, .ros, 0, .one⟩
def COL_SIG_STAGE.DATA (k : Nat) : Fld := ⟨.col, 0x400 + 4*k, 0, 32, .rw, 0, .one⟩
def HST_PSEL.PART : Fld := ⟨.hst, 0x4, 0, 5, .rw, 0, .req⟩
def HST_PRT_CFG.EN : Fld := ⟨.hst, 0x8, 31, 1, .rwl, 0, .hstPart⟩
def HST_PRT_CFG.FETCH_W : Fld := ⟨.hst, 0x8, 0, 4, .rw, 1, .hstPart⟩
def HST_WIN_SEL.WIN : Fld := ⟨.hst, 0x10, 0, 5, .rw, 0, .req⟩
def HST_WIN_CFG.EN : Fld := ⟨.hst, 0x14, 31, 1, .rwl, 0, .hstWin⟩
def HST_WIN_CFG.PART : Fld := ⟨.hst, 0x14, 0, 5, .rwl, 0, .hstWin⟩
def HST_WIN_BASE.VALUE : Fld := ⟨.hst, 0x18, 28, 12, .rwl, 0, .hstWin⟩
def HST_WIN_SIZE.VALUE : Fld := ⟨.hst, 0x20, 28, 12, .rwl, 0, .hstWin⟩
def HST_TX_BYTES.BYTES : Fld := ⟨.hst, 0x38, 0, 64, .ro, 0, .one⟩
def HST_RX_BYTES.BYTES : Fld := ⟨.hst, 0x40, 0, 64, .ro, 0, .one⟩
def HST_PRT_ID.DEFINED : Fld := ⟨.prt, 0x0, 8, 1, .ro, 0, .unit⟩
def HST_PRT_ID.PART : Fld := ⟨.prt, 0x0, 0, 5, .ro, 0, .unit⟩
def HST_PRT_STS.RST_BUSY : Fld := ⟨.prt, 0x4, 1, 1, .ro, 0, .unit⟩
def HST_PRT_STS.READY : Fld := ⟨.prt, 0x4, 0, 1, .ro, 0, .unit⟩
def HST_SQ_BASE.ADDR (k : Nat) : Fld := ⟨.prt, 0x100 + 0x20*k, 12, 52, .rw, 0, .unit⟩
def HST_CQ_BASE.ADDR (k : Nat) : Fld := ⟨.prt, 0x110 + 0x20*k, 12, 52, .rw, 0, .unit⟩
def HST_SQ_CFG.EN (k : Nat) : Fld := ⟨.prt, 0x108 + 0x20*k, 31, 1, .rw, 0, .unit⟩
def HST_SQ_CFG.CQ (k : Nat) : Fld := ⟨.prt, 0x108 + 0x20*k, 16, 3, .rw, 0, .unit⟩
def HST_SQ_CFG.SIZE_LOG2 (k : Nat) : Fld := ⟨.prt, 0x108 + 0x20*k, 0, 5, .rw, 4, .unit⟩
def HST_SQ_STS.ERR (k : Nat) : Fld := ⟨.prt, 0x10C + 0x20*k, 31, 1, .ro, 0, .unit⟩
def HST_SQ_STS.ERR_KIND (k : Nat) : Fld := ⟨.prt, 0x10C + 0x20*k, 28, 3, .ro, 0, .unit⟩
def HST_SQ_STS.HEAD (k : Nat) : Fld := ⟨.prt, 0x10C + 0x20*k, 0, 16, .ro, 0, .unit⟩
def HST_CQ_CFG.EN (k : Nat) : Fld := ⟨.prt, 0x118 + 0x20*k, 31, 1, .rw, 0, .unit⟩
def HST_CQ_CFG.VECTOR (k : Nat) : Fld := ⟨.prt, 0x118 + 0x20*k, 24, 6, .rw, 0, .unit⟩
def HST_CQ_CFG.COAL_CNT (k : Nat) : Fld := ⟨.prt, 0x118 + 0x20*k, 16, 8, .rw, 1, .unit⟩
def HST_CQ_CFG.COAL_US (k : Nat) : Fld := ⟨.prt, 0x118 + 0x20*k, 8, 8, .rw, 0, .unit⟩
def HST_CQ_CFG.SIZE_LOG2 (k : Nat) : Fld := ⟨.prt, 0x118 + 0x20*k, 0, 5, .rw, 4, .unit⟩
def HST_CQ_STS.ERR (k : Nat) : Fld := ⟨.prt, 0x11C + 0x20*k, 31, 1, .ro, 0, .unit⟩
def HST_CQ_STS.PHASE (k : Nat) : Fld := ⟨.prt, 0x11C + 0x20*k, 16, 1, .ro, 1, .unit⟩
def HST_CQ_STS.TAIL (k : Nat) : Fld := ⟨.prt, 0x11C + 0x20*k, 0, 16, .ro, 0, .unit⟩
def HST_SQ_DB.INDEX (k : Nat) : Fld := ⟨.prt, 0x1000 + 8*k, 0, 16, .wo, 0, .unit⟩
def HST_CQ_DB.INDEX (k : Nat) : Fld := ⟨.prt, 0x1004 + 8*k, 0, 16, .wo, 0, .unit⟩
def RSP_ID.FW_VER : Fld := ⟨.rsp, 0x0, 0, 32, .ro, 0, .one⟩
def RSP_BOOT_STS.FAIL : Fld := ⟨.rsp, 0x4, 31, 1, .ro, 0, .one⟩
def RSP_BOOT_STS.STEP : Fld := ⟨.rsp, 0x4, 24, 4, .ro, 0, .one⟩
def RSP_BOOT_STS.REASON : Fld := ⟨.rsp, 0x4, 16, 8, .ro, 0, .one⟩
def RSP_BOOT_STS.SLOT_B : Fld := ⟨.rsp, 0x4, 0, 1, .ro, 0, .one⟩
def RSP_FW_SVN.RUN : Fld := ⟨.rsp, 0x8, 8, 8, .ro, 0, .one⟩
def RSP_FW_SVN.MIN : Fld := ⟨.rsp, 0x8, 0, 8, .ro, 0, .one⟩
def RSP_OWNER_STS.ALG (k : Nat) : Fld := ⟨.rsp, 0xC, 2 + 4*k, 1, .ro, 0, .one⟩
def RSP_OWNER_STS.REVOKED (k : Nat) : Fld := ⟨.rsp, 0xC, 1 + 4*k, 1, .ro, 0, .one⟩
def RSP_OWNER_STS.PROG (k : Nat) : Fld := ⟨.rsp, 0xC, 0 + 4*k, 1, .ro, 0, .one⟩
def RSP_MEAS_SEL.INDEX : Fld := ⟨.rsp, 0x10, 0, 3, .rw, 1, .req⟩
def RSP_MEAS.DIGEST (k : Nat) : Fld := ⟨.rsp, 0x40 + 4*k, 0, 32, .ro, 0, .measIx⟩
def RSP_KEY_SEL.SLOT : Fld := ⟨.rsp, 0x80, 0, 12, .rw, 0, .req⟩
def RSP_KEY_STS.STATE : Fld := ⟨.rsp, 0x84, 30, 2, .ro, 0, .one⟩
def RSP_KEY_STS.PART : Fld := ⟨.rsp, 0x84, 24, 5, .ro, 0, .one⟩
def RSP_KEY_STS.GEN : Fld := ⟨.rsp, 0x84, 0, 16, .ro, 1, .one⟩
def RSP_KEY_CMD.RETIRE : Fld := ⟨.rsp, 0x88, 31, 1, .wo, 0, .one⟩
def RSP_DRAIN_EPOCH.EPOCH : Fld := ⟨.rsp, 0x90, 0, 32, .ro, 0, .one⟩
def RSP_DRAIN_STS.LATE : Fld := ⟨.rsp, 0x94, 31, 1, .w1c, 0, .one⟩
def RSP_DRAIN_STS.BUSY : Fld := ⟨.rsp, 0x94, 30, 1, .ro, 0, .one⟩
def RSP_DRAIN_STS.PEND : Fld := ⟨.rsp, 0x94, 0, 28, .ro, 0, .one⟩
def RSP_DRAIN_CFG.LIMIT_US : Fld := ⟨.rsp, 0x98, 0, 16, .rw, 0x3e8, .one⟩
def RSP_ALARM_LVL.LVL (k : Nat) : Fld := ⟨.rsp, 0xA0, 0 + 2*k, 2, .rwl, ([2,2,2,3,2,2,0,1].getD k 0), .one⟩
def RSP_ALARM_STS.SRC : Fld := ⟨.rsp, 0xA4, 0, 8, .w1c, 0, .one⟩
def RSP_ALARM_LOG.SRC : Fld := ⟨.rsp, 0xA8, 16, 8, .ros, 0, .one⟩
def RSP_ALARM_LOG.LEVEL : Fld := ⟨.rsp, 0xA8, 8, 8, .ros, 0, .one⟩
def RSP_ALARM_LOG.COUNT : Fld := ⟨.rsp, 0xA8, 0, 8, .ros, 0, .one⟩
def RSP_ALARM_TEST.GO : Fld := ⟨.rsp, 0xAC, 7, 1, .wo, 0, .one⟩
def RSP_ALARM_TEST.SOURCE : Fld := ⟨.rsp, 0xAC, 0, 3, .wo, 0, .one⟩
def RSP_AUTH_CFG.FAIL_MAX : Fld := ⟨.rsp, 0xB0, 0, 8, .rwl, 0x10, .one⟩
def RSP_ZEROIZE.CONFIRM : Fld := ⟨.rsp, 0xB4, 0, 8, .wo, 0, .one⟩
def RAS_CFG.FENCE_LINKS : Fld := ⟨.ras, 0x0, 31, 1, .rwl, 0, .one⟩
def RAS_CFG.IRQ_SEV : Fld := ⟨.ras, 0x0, 0, 2, .rw, 1, .one⟩
def RAS_NODE_STS.STATE : Fld := ⟨.ras, 0x4, 30, 2, .ro, 0, .one⟩
def RAS_NODE_STS.FENCE_CAUSE : Fld := ⟨.ras, 0x4, 16, 8, .ro, 0, .one⟩
def RAS_ADMIT.ERR : Fld := ⟨.ras, 0x8, 1, 1, .w1c, 0, .one⟩
def RAS_ADMIT.GO : Fld := ⟨.ras, 0x8, 0, 1, .wo, 0, .one⟩
def RAS_FENCE_CMD.KIND : Fld := ⟨.ras, 0xC, 30, 2, .wo, 0, .one⟩
def RAS_FENCE_CMD.TARGET : Fld := ⟨.ras, 0xC, 0, 5, .wo, 0, .one⟩
def RAS_PFENCE_STS.FENCED : Fld := ⟨.ras, 0x10, 0, 32, .w1c, 0, .one⟩
def RAS_RFENCE_STS.FENCED : Fld := ⟨.ras, 0x14, 0, 4, .ro, 0, .one⟩
def RAS_LOG_PROD.INDEX : Fld := ⟨.ras, 0x40, 0, 32, .ro, 0, .one⟩
def RAS_LOG_CONS.INDEX : Fld := ⟨.ras, 0x44, 0, 32, .rw, 0, .one⟩
def RAS_LOG_STS.OVF : Fld := ⟨.ras, 0x48, 31, 1, .w1c, 0, .one⟩
def RAS_LOG_STS.LOST : Fld := ⟨.ras, 0x48, 0, 16, .ro, 0, .one⟩
def RAS_LOG_SEL.ENTRY : Fld := ⟨.ras, 0x4C, 0, 9, .rw, 0, .req⟩
def RAS_HB_CFG.LOSS_N : Fld := ⟨.ras, 0xA0, 8, 8, .rw, 4, .one⟩
def RAS_HB_CFG.DISAGREE_N : Fld := ⟨.ras, 0xA0, 0, 8, .rw, 3, .one⟩
def RAS_JOIN_STS.REASON : Fld := ⟨.ras, 0xB0, 28, 4, .ro, 0, .one⟩
def RAS_JOIN_STS.EGRESS : Fld := ⟨.ras, 0xB0, 0, 5, .ro, 0, .one⟩
def RAS_NBR_LOST.NBR : Fld := ⟨.ras, 0xA4, 0, 24, .ro, 0, .one⟩
def RAS_NBR_DISAGREE.NBR : Fld := ⟨.ras, 0xA8, 0, 24, .ro, 0, .one⟩
def RAS_NBR_AHEAD.NBR : Fld := ⟨.ras, 0xAC, 0, 24, .ro, 0, .one⟩
def RAS_IN_SEL.INPUT : Fld := ⟨.ras, 0xE0, 0, 4, .rw, 0, .req⟩
def RAS_IN_CFG.CLASS : Fld := ⟨.ras, 0xE4, 31, 1, .ro, 0, .rasIn⟩
def RAS_IN_CFG.HOLD_MS : Fld := ⟨.ras, 0xE4, 0, 16, .rw, 0x64, .rasIn⟩
def RAS_IN_STS.LEVEL : Fld := ⟨.ras, 0xEC, 0, 16, .ro, 0, .one⟩
def RAS_STUCK_STS.STUCK : Fld := ⟨.ras, 0xE8, 0, 16, .w1c, 0, .one⟩
def RAS_IN_DROP_CNT.COUNT : Fld := ⟨.ras, 0xF0, 0, 32, .w1cCount, 0, .one⟩
def RAS_CMD_DATA.DATA (k : Nat) : Fld := ⟨.ras, 0x100 + 4*k, 0, 32, .rw, 0, .one⟩
def RAS_CMD_GO.GO : Fld := ⟨.ras, 0x140, 0, 1, .wo, 0, .one⟩
def RAS_CMD_STS.STATUS : Fld := ⟨.ras, 0x144, 16, 16, .ro, 0, .one⟩
def RAS_CMD_STS.DONE_N : Fld := ⟨.ras, 0x144, 3, 13, .ro, 0, .one⟩
def RAS_CMD_STS.ERR : Fld := ⟨.ras, 0x144, 2, 1, .w1c, 0, .one⟩
def RAS_CMD_STS.DONE : Fld := ⟨.ras, 0x144, 1, 1, .w1c, 0, .one⟩
def RAS_CMD_STS.BUSY : Fld := ⟨.ras, 0x144, 0, 1, .ro, 0, .one⟩
def RSP_FORME_ADDR.ADDR : Fld := ⟨.rsp, 0x108, 6, 58, .rw, 0, .one⟩
def RSP_FORME_LEN.LEN : Fld := ⟨.rsp, 0x110, 0, 22, .rw, 0, .one⟩
def RSP_FORME_ID.VALUE : Fld := ⟨.rsp, 0x118, 0, 32, .ro, 0, .one⟩
def RSP_FORME_VER.VALUE : Fld := ⟨.rsp, 0x11C, 0, 32, .ro, 0, .one⟩
def RSP_QUOIN_VIOL_CNT.COUNT : Fld := ⟨.rsp, 0x124, 0, 32, .w1cCount, 0, .one⟩
def RSP_QUOIN_VIOL_LOG.ADDR : Fld := ⟨.rsp, 0x128, 0, 26, .ros, 0, .one⟩
def RSP_COMMIT_CFG.DRAIN_US : Fld := ⟨.rsp, 0x130, 0, 16, .rw, 0x3e8, .one⟩
def RSP_COMMIT_LAST.TIME : Fld := ⟨.rsp, 0x138, 0, 64, .ro, 0, .one⟩
def PCM_IDLE_US.US : Fld := ⟨.pcm, 0xC, 0, 32, .rwl, 0, .one⟩
def PCM_DOZE_US.US : Fld := ⟨.pcm, 0x10, 0, 32, .rwl, 0, .one⟩
def PCM_CLK_STS.STEP : Fld := ⟨.pcm, 0x14, 16, 4, .ro, 0, .one⟩
def PCM_CLK_STS.LEVEL (k : Nat) : Fld := ⟨.pcm, 0x14, 0 + 4*k, 4, .ro, 8, .one⟩
def PCM_PWR.AVG_W : Fld := ⟨.pcm, 0x18, 16, 16, .ro, 0, .one⟩
def PCM_PWR.INST_W : Fld := ⟨.pcm, 0x18, 0, 16, .ro, 0, .one⟩
def PCM_DIE_TEMP.TEMP : Fld := ⟨.pcm, 0x1C, 0, 8, .ro, 0, .one⟩
def MGT_ID.FW_VER : Fld := ⟨.mgt, 0x0, 0, 32, .ro, 0, .one⟩
def MGT_STS.EID : Fld := ⟨.mgt, 0x4, 24, 8, .ro, 0, .one⟩
def MGT_STS.DEBUG_LVL : Fld := ⟨.mgt, 0x4, 4, 2, .ro, 0, .one⟩
def MGT_STS.UPDATE : Fld := ⟨.mgt, 0x4, 2, 2, .ro, 0, .one⟩
def MGT_STS.SLOT_B : Fld := ⟨.mgt, 0x4, 1, 1, .ro, 0, .one⟩
def MGT_STS.READY : Fld := ⟨.mgt, 0x4, 0, 1, .ro, 0, .one⟩
def MGT_ENERGY.UJ (k : Nat) : Fld := ⟨.mgt, 0x40 + 8*k, 0, 64, .ro, 0, .one⟩
def MGT_ENERGY_TOT.UJ : Fld := ⟨.mgt, 0x90, 0, 64, .ro, 0, .one⟩
def MGT_TEL_STS.SEQ : Fld := ⟨.mgt, 0xA0, 0, 32, .ro, 0, .one⟩
def MGT_TEL_SKIP_CNT.COUNT : Fld := ⟨.mgt, 0xA4, 0, 32, .w1cCount, 0, .one⟩
def MGT_TEL_BUF.DATA (k : Nat) : Fld := ⟨.mgt, 0x1000 + 4*k, 0, 32, .ro, 0, .one⟩

/-- The fields of the register word (or double word) that covers byte offset `off` of window `w` (R464).
The big tables of the fabric window are found by arithmetic, the rest by searching the window. -/
def gutFields : List Fld :=
  [GUT_ARB_SEL.ARB_ID, GUT_ARB_CFG.STARVE_THR, GUT_ARB_CFG.NREQ, GUT_ARB_STS.WAIT_MAX, GUT_ARB_STS.COMMIT_PEND, GUT_ARB_COMMIT.COMMIT, GUT_XPART_CNT.COUNT] ++
  (List.range 2).map GUT_ARB_STARVE_STS.STARVE ++
  (List.range 5).map GUT_ARB_STARVE_SUM.ARB ++
  (List.range 64).map GUT_ARB_PRIO.PRIO ++
  (List.range 64).map GUT_ARB_ACT.ACT
def krnFields : List Fld :=
  [KRN_FMT_ERR_CNT.COUNT, KRN_FMT_ERR_LOG0.FOLIO_ID, KRN_FMT_ERR_LOG1.REASON, KRN_FMT_ERR_LOG1.SOURCE, KRN_FMT_ERR_LOG1.BLOCK, KRN_ENC_IN_BYTES.BYTES, KRN_ENC_OUT_BYTES.BYTES, KRN_ENC_SOLID_CNT.COUNT, KRN_ENC_DEFER_CNT.COUNT]
def stkFields : List Fld :=
  [STK_ID.DIE_GBIT, STK_ID.LAYERS, STK_ID.STACK, STK_STS.REF_2X, STK_STS.THROTTLED, STK_STS.SELF_REFRESH, STK_STS.FENCED, STK_STS.TRAINED, STK_ERR_LOG0.OFFSET_LO, STK_ERR_LOG1.KIND, STK_ERR_LOG1.PART, STK_ERR_LOG1.OFFSET_HI] ++
  [STK_REMAP_SEL.INDEX, STK_REMAP_ENT.VALID, STK_REMAP_ENT.LAYER, STK_REMAP_ENT.PC, STK_REMAP_ENT.BG, STK_REMAP_ENT.BANK, STK_REMAP_ENT.ROW, STK_REMAP_STS.USED, STK_REMAP_STS.INUSE, STK_REMAP_STS.BUSY_ERR, STK_REMAP_STS.DUP, STK_REMAP_STS.BUSY] ++
  [STK_PATROL_CFG.EN, STK_PATROL_CFG.PERIOD_H, STK_PATROL_POS.ROW_INDEX, STK_PATROL_PASS.COUNT, STK_CMD.SET_MASK, STK_CMD.OP, STK_CMD_STS.STATUS, STK_CMD_STS.ERR, STK_CMD_STS.DONE, STK_CMD_STS.BUSY, STK_CMD_PROG.PROGRESS, STK_REF_CFG.POSTPONE_MAX] ++
  [STK_TEMP.TEMP_BASE, STK_TEMP.TEMP_MAX, STK_CMD_START.OFFSET, STK_CMD_END.OFFSET] ++
  (List.range 8).map STK_CNT.COUNT ++
  (List.range 8).map STK_CMD_PAT.PAT ++
  (List.range 8).map STK_SET_OWNER.ASSIGNED ++
  (List.range 8).map STK_SET_OWNER.OWNER
def pltFields : List Fld :=
  [PLT_CFG.PHASE_TMO, PLT_CFG.EN, PLT_STS.HELD, PLT_STS.BUSY, PLT_CLAIM_STS.WAITERS, PLT_CLAIM_STS.CLAIMED, PLT_CLAIM_STALL.CYCLES, PLT_ERR_LOG0.STATUS, PLT_ERR_LOG0.UNIT, PLT_ERR_LOG0.CMD_INDEX, PLT_ERR_LOG1.PART, PLT_ERR_LOG1.TAG] ++
  [PLT_RES_INJ.GO, PLT_RES_INJ.UNIT] ++
  (List.range 8).map PLT_CNT.COUNT
def cmpFields : List Fld :=
  [CMP_ID.REGION, CMP_ID.BLOCK, CMP_OWNER.ASSIGNED, CMP_OWNER.OWNER, CMP_SEQ_CTL.UNFENCE, CMP_SEQ_CTL.RUN, CMP_SEQ_STS.PC, CMP_SEQ_STS.CLK_ON, CMP_SEQ_STS.STATE, CMP_WDOG.LIMIT_US, CMP_RES_CFG.EXP_EN, CMP_RES_CFG.MAC_EN] ++
  [CMP_FENCE_CFG.FAILS, CMP_FENCE_CFG.FENCE_THR, CMP_RES_INJ.GO, CMP_RES_INJ.KIND, CMP_RES_INJ.CELL, CMP_BUSY_CYC.CYCLES, CMP_ERR_LOG0.STATUS, CMP_ERR_LOG0.PC, CMP_ERR_LOG1.KIND, CMP_ERR_LOG1.PART, CMP_ERR_LOG1.CELL, CMP_ERRQ_STS.BLK_LOST] ++
  [CMP_ERRQ_STS.CELL_LOST, CMP_ERRQ_STS.BLK_DEPTH, CMP_ERRQ_STS.CELL_DEPTH, CMP_ERRQ_STS.BLK_OVF, CMP_ERRQ_STS.CELL_OVF] ++
  (List.range 8).map CMP_CNT.COUNT
def galFields : List Fld :=
  [GAL_ID.REGION, GAL_WAY_EN.EN, GAL_INV.OP, GAL_INV.PART, GAL_INV.KEY_SLOT, GAL_INV_STS.DONE, GAL_INV_STS.BUSY, GAL_ERR_LOG0.OFFSET_LO, GAL_ERR_LOG1.KIND, GAL_ERR_LOG1.WAY, GAL_ERR_LOG1.PART, GAL_ERR_LOG1.OFFSET_HI] ++
  [GAL_HIT.COUNT, GAL_MISS.COUNT, GAL_FILL.COUNT] ++
  (List.range 5).map GAL_CNT.COUNT ++
  (List.range 16).map GAL_WAY_OWNER.ASSIGNED ++
  (List.range 16).map GAL_WAY_OWNER.SEALED ++
  (List.range 16).map GAL_WAY_OWNER.OWNER
def floFields : List Fld :=
  [FLO_CFG.EN, FLO_CFG.SEARCH_MAX, FLO_CFG.MAXRUN_LOG2, FLO_CFG.NCONV_LOG2, FLO_CFG.NFOLIO_LOG2, FLO_LEAF_CFG.NLEAF, FLO_CMD_GO.GO, FLO_CMD_STS.STATUS, FLO_CMD_STS.ERR, FLO_CMD_STS.DONE, FLO_CMD_STS.BUSY, FLO_TBL_BASE.OFFSET] ++
  [FLO_TBL_LIMIT.OFFSET, FLO_SET_SEL.VALUE, FLO_SET_FREE.VALUE] ++
  (List.range 16).map FLO_CMD_DATA.DATA ++
  (List.range 8).map FLO_CNT.COUNT
def cwdFields : List Fld :=
  [CWD_CMD.OP, CWD_CMD.WIDTH, CWD_CMD.BANKS, CWD_CMD.POS, CWD_DATA.RESULT, CWD_RES.HIT, CWD_RES.BANK, CWD_RES.POS, CWD_RES.RESULT, CWD_STS.STATUS, CWD_STS.BUSY, CWD_ERR_LOG.BANK] ++
  [CWD_ERR_LOG.TYPE, CWD_ERR_LOG.POS] ++
  (List.range 4).map CWD_CNT.COUNT ++
  (List.range 8).map CWD_BANK_CFG.TYPE ++
  (List.range 8).map CWD_BANK_CFG.WIDTH ++
  (List.range 12).map CWD_KEY.BITS ++
  (List.range 12).map CWD_MASK.BITS
def reamFields : List Fld :=
  [REAM_CFG.STARVE_US, REAM_STS.POOL_USED, REAM_STS.ADMITTED, REAM_PSEL.PART, REAM_COMMIT.COMMIT, REAM_COMMIT_STS.PEND, REAM_STARVE_STS.STARVE, REAM_STARVE_AGE.AGE_US, REAM_REG_CTL.EN, REAM_REG_CFG.GUT_BURST, REAM_REG_CFG.GUT_RATE, REAM_REG_CFG.STK_BURST] ++
  [REAM_REG_CFG.STK_RATE, REAM_ACCT_BASE.OFFSET, REAM_ACCT_CFG.EN, REAM_ACCT_CFG.PERIOD_MS, REAM_ACCT_CFG.SIZE_LOG2, REAM_PW.WEIGHT, REAM_PW_ACT.WEIGHT, REAM_ACCT_PROD.INDEX, REAM_ACCT_CONS.INDEX, REAM_TKT_REFUSE_CNT.COUNT, REAM_BUSY_CNT.COUNT, REAM_SKIP_CNT.COUNT] ++
  [REAM_APPEND_DUP_CNT.COUNT, REAM_PRESS_CNT.COUNT, REAM_GALLEY_CNT.COUNT, REAM_XREGION_CNT.COUNT, REAM_REPLACE_CNT.COUNT, REAM_STARVE_CNT.COUNT, REAM_ACCT_LOST_CNT.COUNT, REAM_REG_STALL_CNT.COUNT] ++
  (List.range 8).map REAM_EMODEL.COEF ++
  (List.range 16).map REAM_CW.W ++
  (List.range 16).map REAM_CW_ACT.W ++
  (List.range 10).map REAM_PACCT.VALUE ++
  (List.range 10).map REAM_PUNLOG.VALUE
def tierFields : List Fld :=
  [TIER_SPILL_CFG.EN, TIER_SPILL_CFG.HI, TIER_SPILL_CFG.LO, TIER_PF_CFG.MOVE_MAX, TIER_PF_CFG.DEPTH, TIER_LEASE_CFG.LEASE_US, TIER_LEASE_CFG.GUARD_US, TIER_LATE_CFG.CPL_TMO_US, TIER_LATE_CFG.LIMIT_US, TIER_CMD_GO.GO, TIER_CMD_STS.STATUS, TIER_CMD_STS.ERR] ++
  [TIER_CMD_STS.DONE, TIER_CMD_STS.BUSY, TIER_LATE_CNT.COUNT, TIER_ERR_LOG0.OFFSET_LO, TIER_ERR_LOG1.KIND, TIER_ERR_LOG1.POOL, TIER_ERR_LOG1.OFFSET_HI] ++
  (List.range 4).map TIER_PORT_CFG.EN ++
  (List.range 4).map TIER_PORT_CFG.MODE ++
  (List.range 4).map TIER_PORT_CFG.IDE_EN ++
  (List.range 4).map TIER_PORT_CFG.POOL ++
  (List.range 4).map TIER_PORT_STS.WIDTH ++
  (List.range 4).map TIER_PORT_STS.SPEED ++
  (List.range 4).map TIER_PORT_STS.DEGRADED ++
  (List.range 4).map TIER_PORT_STS.UP ++
  (List.range 4).map TIER_POOL_CFG.EN ++
  (List.range 4).map TIER_POOL_CFG.SHARED ++
  (List.range 4).map TIER_POOL_CFG.BAY ++
  (List.range 4).map TIER_POOL_CFG.NBAY_M1 ++
  (List.range 4).map TIER_POOL_CFG.SIZE_GIB ++
  (List.range 4).map TIER_POOL_CFG.REC_LOG2 ++
  (List.range 4).map TIER_POOL_CFG.BASE ++
  (List.range 32).map TIER_PART_POOL.EN ++
  (List.range 32).map TIER_PART_POOL.POOL ++
  (List.range 16).map TIER_CMD_DATA.DATA ++
  (List.range 8).map TIER_CNT.COUNT
def fabFields : List Fld :=
  [FAB_NODE_ID.NODE_ID, FAB_PSEL.HALF, FAB_PSEL.PORT, FAB_PORT_CFG.EN, FAB_PORT_CFG.MODE, FAB_PORT_CFG.PROT, FAB_PORT_CFG.EDGE, FAB_PORT_CFG.LINK_KEY_SLOT, FAB_PORT_CFG.FLAP_MAX, FAB_PORT_STS.DROP_MODE, FAB_PORT_STS.PAUSED, FAB_PORT_STS.REASON] ++
  [FAB_PORT_STS.FLAP_DIS, FAB_PORT_STS.STATE, FAB_PFC_CFG.XOFF, FAB_PFC_CFG.XON, FAB_PFC_CFG.PAUSE_NS, FAB_STORM_CFG.LIMIT_MS, FAB_STORM_CFG.RECOVER_MS, FAB_RT_CTL.PEND, FAB_RT_CTL.COMMIT, FAB_EPOCH.EPOCH, FAB_MPSEL.PART, FAB_MTR_RATE.PIR] ++
  [FAB_MTR_RATE.CIR, FAB_MTR_BURST.PBS, FAB_MTR_BURST.CBS, FAB_MTR_CTL.EN, FAB_GCL_CFG.GATED, FAB_GCL_CFG.ADMIN_N, FAB_GCL_GO.CANCEL, FAB_GCL_GO.GO, FAB_GCL_STS.SUSP, FAB_GCL_STS.ERR, FAB_GCL_STS.DONE, FAB_GCL_STS.PEND] ++
  [FAB_GCL_BASE.BASE, FAB_GCL_CYCLE.CYCLE_NS, FAB_GCL_SWITCH.T, FAB_HDR_DROP_CNT.COUNT, FAB_E2E_CRC_CNT.COUNT, FAB_KEYGEN_DROP_CNT.COUNT, FAB_HOP_DROP_CNT.COUNT, FAB_NOROUTE_CNT.COUNT, FAB_PROT_DROP_CNT.COUNT, FAB_MTR_YELLOW_CNT.COUNT, FAB_MTR_RED_CNT.COUNT, FAB_MTR_DEMOTE_CNT.COUNT] ++
  [FAB_LCRC_CNT.COUNT, FAB_STOMP_CNT.COUNT, FAB_FLAP_CNT.COUNT, FAB_PAUSE_TX_CNT.COUNT, FAB_PAUSE_RX_CNT.COUNT, FAB_OVF_DROP_CNT.COUNT, FAB_STORM_CNT.COUNT, FAB_STORM_DROP_CNT.COUNT, FAB_GATE_OVR_CNT.COUNT, FAB_GATE_NOFIT_CNT.COUNT] ++
  (List.range 8).map FAB_SHP.RATE ++
  (List.range 8).map FAB_SHP.BURST ++
  (List.range 8).map FAB_OCC.MAX ++
  (List.range 8).map FAB_OCC.CUR ++
  (List.range 8).map FAB_WFQ_CFG.W ++
  (List.range 8).map FAB_WFQ_BURST.B ++
  (List.range 8).map FAB_TX_BYTES.VALUE ++
  (List.range 8).map FAB_RX_BYTES.VALUE ++
  (List.range 8).map FAB_PAUSED_NS.VALUE
def timeFields : List Fld :=
  [TIME_NOW.NS, TIME_CFG.GM, TIME_CFG.PARENT_HALF, TIME_CFG.PARENT, TIME_CFG.INTERVAL_US, TIME_STS.LOST, TIME_STS.OOB, TIME_STS.LOCKED, TIME_OFFSET.OFFSET, TIME_SET.NS, TIME_HB_CFG.HB_US] ++
  (List.range 4).map TIME_CNT.COUNT
def rchFields : List Fld :=
  [RCH_CFG.EN, RCH_CFG.RETRY_MAX, RCH_CFG.RTO_US, RCH_HOLD_CFG.IDLE_MS, RCH_HOLD_CFG.HOLD_MS, RCH_INCARNATION.VALUE, RCH_STS.TX_CTX, RCH_STS.RX_CTX, RCH_RTX_BASE.OFFSET, RCH_RTX_CFG.SLOTS_LOG2, RCH_CMD_GO.GO, RCH_CMD_STS.STATUS] ++
  [RCH_CMD_STS.ERR, RCH_CMD_STS.DONE, RCH_CMD_STS.BUSY, RCH_CMD_KEY.KEY, RCH_REG_SEL.INDEX, RCH_REG_STS.STATE, RCH_REG_STS.PART, RCH_REG_STS.GEN, RCH_REG_STS.OUTSTANDING, RCH_CH_SEL.RX, RCH_CH_SEL.CHAN, RCH_CH_SEL.NODE] ++
  [RCH_CH_STS.STATE, RCH_CH_STS.CLASS, RCH_CH_STS.UNACK, RCH_CH_SEQ.SEQ, RCH_DUP_CNT.COUNT, RCH_OOS_CNT.COUNT, RCH_RTX_CNT.COUNT, RCH_TMO_CNT.COUNT, RCH_BROKEN_CNT.COUNT, RCH_LOST_WR_CNT.COUNT, RCH_RTX_WAIT_CNT.COUNT, RCH_NOCTX_CNT.COUNT] ++
  [RCH_REFUSE_CNT.COUNT, RCH_REPLAY_HIT_CNT.COUNT, RCH_REPLAY_MISS_CNT.COUNT, RCH_ERR_LOG0.STATUS, RCH_ERR_LOG0.SRC_NODE, RCH_ERR_LOG1.KEY] ++
  (List.range 16).map RCH_CMD_DATA.DATA
def colFields : List Fld :=
  [COL_CFG.EN, COL_CFG.MAX_ATTEMPT, COL_CFG.REAM_TMO_US, COL_CFG2.MIRROR_TMO_US, COL_CFG2.AUDIT_TMO_US, COL_STORE_STS.USED_KIB, COL_STORE_STS.PART_KIB, COL_SIG_BASE.OFFSET, COL_SIG_CFG.SIG_LOG2, COL_PSEL.PART, COL_AUDIT_CFG.N, COL_QUOTA.QUOTA_KIB] ++
  [COL_CMD_GO.GO, COL_CMD_STS.STATUS, COL_CMD_STS.ERR, COL_CMD_STS.DONE, COL_CMD_STS.BUSY, COL_DUP_CNT.COUNT, COL_STALE_CNT.COUNT, COL_ABORT_CNT.COUNT, COL_REISSUE_CNT.COUNT, COL_STANDIN_CNT.COUNT, COL_NO_STANDIN_CNT.COUNT, COL_MIRROR_TMO_CNT.COUNT] ++
  [COL_UNMIRRORED_CNT.COUNT, COL_AUDIT_CNT.COUNT, COL_AUDIT_MISMATCH_CNT.COUNT, COL_AUDIT_SKIP_CNT.COUNT, COL_MIRROR_REFUSE_CNT.COUNT, COL_ERR_LOG0.REAM_ID, COL_ERR_LOG1.STATUS, COL_ERR_LOG1.FAULT_POS, COL_ERR_LOG1.ATTEMPT, COL_AUDIT_LOG.NODE, COL_AUDIT_LOG.MIRROR] ++
  (List.range 16).map COL_CMD_DATA.DATA
def hstFields : List Fld :=
  [HST_LINK_STS.CXL, HST_LINK_STS.WIDTH, HST_LINK_STS.SPEED, HST_LINK_STS.IDE, HST_LINK_STS.FLIT, HST_LINK_STS.UP, HST_PRT_RST.GO, HST_PRT_RST.RETIRE, HST_PRT_RST.PART, HST_DMA_ERR_CNT.COUNT, HST_PSEL.PART, HST_PRT_CFG.EN] ++
  [HST_PRT_CFG.FETCH_W, HST_WIN_SEL.WIN, HST_WIN_CFG.EN, HST_WIN_CFG.PART, HST_WIN_BASE.VALUE, HST_WIN_SIZE.VALUE, HST_TX_BYTES.BYTES, HST_RX_BYTES.BYTES]
def prtFields : List Fld :=
  [HST_PRT_IRQ.PRT_IRQ_DROP_CNT, HST_PRT_ID.DEFINED, HST_PRT_ID.PART, HST_PRT_STS.RST_BUSY, HST_PRT_STS.READY] ++
  (List.range 4).map HST_PRT_CNT.COUNT ++
  (List.range 8).map HST_SQ_BASE.ADDR ++
  (List.range 8).map HST_CQ_BASE.ADDR ++
  (List.range 8).map HST_SQ_CFG.EN ++
  (List.range 8).map HST_SQ_CFG.CQ ++
  (List.range 8).map HST_SQ_CFG.SIZE_LOG2 ++
  (List.range 8).map HST_SQ_STS.ERR ++
  (List.range 8).map HST_SQ_STS.ERR_KIND ++
  (List.range 8).map HST_SQ_STS.HEAD ++
  (List.range 8).map HST_CQ_CFG.EN ++
  (List.range 8).map HST_CQ_CFG.VECTOR ++
  (List.range 8).map HST_CQ_CFG.COAL_CNT ++
  (List.range 8).map HST_CQ_CFG.COAL_US ++
  (List.range 8).map HST_CQ_CFG.SIZE_LOG2 ++
  (List.range 8).map HST_CQ_STS.ERR ++
  (List.range 8).map HST_CQ_STS.PHASE ++
  (List.range 8).map HST_CQ_STS.TAIL ++
  (List.range 8).map HST_SQ_DB.INDEX ++
  (List.range 8).map HST_CQ_DB.INDEX
def rspFields : List Fld :=
  [RSP_KEY_FLOOR.FLOOR, RSP_FORME_CTL.OP, RSP_FORME_STS.STATUS, RSP_FORME_STS.ENABLED, RSP_FORME_STS.ERR, RSP_FORME_STS.DONE, RSP_FORME_STS.STATE, RSP_QUOIN_STS.OPEN, RSP_ID.FW_VER, RSP_BOOT_STS.FAIL, RSP_BOOT_STS.STEP, RSP_BOOT_STS.REASON] ++
  [RSP_BOOT_STS.SLOT_B, RSP_FW_SVN.RUN, RSP_FW_SVN.MIN, RSP_MEAS_SEL.INDEX, RSP_KEY_SEL.SLOT, RSP_KEY_STS.STATE, RSP_KEY_STS.PART, RSP_KEY_STS.GEN, RSP_KEY_CMD.RETIRE, RSP_DRAIN_EPOCH.EPOCH, RSP_DRAIN_STS.LATE, RSP_DRAIN_STS.BUSY] ++
  [RSP_DRAIN_STS.PEND, RSP_DRAIN_CFG.LIMIT_US, RSP_ALARM_STS.SRC, RSP_ALARM_LOG.SRC, RSP_ALARM_LOG.LEVEL, RSP_ALARM_LOG.COUNT, RSP_ALARM_TEST.GO, RSP_ALARM_TEST.SOURCE, RSP_AUTH_CFG.FAIL_MAX, RSP_ZEROIZE.CONFIRM, RSP_FORME_ADDR.ADDR, RSP_FORME_LEN.LEN] ++
  [RSP_FORME_ID.VALUE, RSP_FORME_VER.VALUE, RSP_QUOIN_VIOL_CNT.COUNT, RSP_QUOIN_VIOL_LOG.ADDR, RSP_COMMIT_CFG.DRAIN_US, RSP_COMMIT_LAST.TIME] ++
  (List.range 8).map RSP_CNT.COUNT ++
  (List.range 12).map RSP_FORME_DIGEST.DIGEST ++
  (List.range 4).map RSP_FORME_CNT.COUNT ++
  (List.range 4).map RSP_OWNER_STS.ALG ++
  (List.range 4).map RSP_OWNER_STS.REVOKED ++
  (List.range 4).map RSP_OWNER_STS.PROG ++
  (List.range 12).map RSP_MEAS.DIGEST ++
  (List.range 8).map RSP_ALARM_LVL.LVL
def pcmFields : List Fld :=
  [PCM_STATE.ERR, PCM_STATE.ERR_REASON, PCM_STATE.DOZE, PCM_STATE.NODE, PCM_STATE_CMD.OP, PCM_POL.CAP_W, PCM_POL.BOOST_EN, PCM_POL.KEEP_EN, PCM_RST_CMD.KIND, PCM_RST_CMD.CONFIRM, PCM_RST_CMD.REGION, PCM_RST_STS.LAST_KIND] ++
  [PCM_RST_STS.CAUSE, PCM_RST_STS.RBUSY, PCM_THROTTLE_US.US, PCM_STRAP.MGT_ADDR, PCM_STRAP.REFCLK_SEL, PCM_STRAP.BOOT_SEL, PCM_IDLE_US.US, PCM_DOZE_US.US, PCM_CLK_STS.STEP, PCM_PWR.AVG_W, PCM_PWR.INST_W, PCM_DIE_TEMP.TEMP] ++
  (List.range 8).map PCM_CNT.COUNT ++
  (List.range 4).map PCM_CLK_STS.LEVEL
def rasFields : List Fld :=
  [RAS_CFG.FENCE_LINKS, RAS_CFG.IRQ_SEV, RAS_NODE_STS.STATE, RAS_NODE_STS.FENCE_CAUSE, RAS_ADMIT.ERR, RAS_ADMIT.GO, RAS_FENCE_CMD.KIND, RAS_FENCE_CMD.TARGET, RAS_PFENCE_STS.FENCED, RAS_RFENCE_STS.FENCED, RAS_LOG_PROD.INDEX, RAS_LOG_CONS.INDEX] ++
  [RAS_LOG_STS.OVF, RAS_LOG_STS.LOST, RAS_LOG_SEL.ENTRY, RAS_HB_CFG.LOSS_N, RAS_HB_CFG.DISAGREE_N, RAS_JOIN_STS.REASON, RAS_JOIN_STS.EGRESS, RAS_NBR_LOST.NBR, RAS_NBR_DISAGREE.NBR, RAS_NBR_AHEAD.NBR, RAS_IN_SEL.INPUT, RAS_IN_CFG.CLASS] ++
  [RAS_IN_CFG.HOLD_MS, RAS_IN_STS.LEVEL, RAS_STUCK_STS.STUCK, RAS_IN_DROP_CNT.COUNT, RAS_CMD_GO.GO, RAS_CMD_STS.STATUS, RAS_CMD_STS.DONE_N, RAS_CMD_STS.ERR, RAS_CMD_STS.DONE, RAS_CMD_STS.BUSY] ++
  (List.range 5).map RAS_QSTS.LOST ++
  (List.range 5).map RAS_QSTS.DEPTH ++
  (List.range 5).map RAS_QSTS.OVF ++
  (List.range 5).map RAS_QSTS.BUSY ++
  (List.range 8).map RAS_LOG_DATA.DATA ++
  (List.range 8).map RAS_CNT.COUNT ++
  (List.range 8).map RAS_MDOWN.NODE_B ++
  (List.range 8).map RAS_MDOWN.NODE_A ++
  (List.range 16).map RAS_CMD_DATA.DATA
def mgtFields : List Fld :=
  [MGT_ID.FW_VER, MGT_STS.EID, MGT_STS.DEBUG_LVL, MGT_STS.UPDATE, MGT_STS.SLOT_B, MGT_STS.READY, MGT_ENERGY_TOT.UJ, MGT_TEL_STS.SEQ, MGT_TEL_SKIP_CNT.COUNT] ++
  (List.range 4).map MGT_CNT.COUNT ++
  (List.range 10).map MGT_ENERGY.UJ
def windowFields : Win → List Fld
  | .gut => gutFields
  | .krn => krnFields
  | .stk => stkFields
  | .plt => pltFields
  | .cmp => cmpFields
  | .gal => galFields
  | .flo => floFields
  | .cwd => cwdFields
  | .ream => reamFields
  | .tier => tierFields
  | .fab => fabFields
  | .time => timeFields
  | .rch => rchFields
  | .col => colFields
  | .hst => hstFields
  | .prt => prtFields
  | .rsp => rspFields
  | .pcm => pcmFields
  | .ras => rasFields
  | .mgt => mgtFields

/-- The fields whose register covers the aligned word at `off`: a 64-bit register's fields are found at
both of its words. -/
def fieldsAt (w : Win) (off : Nat) : List Fld :=
  let base := (windowFields w).filter fun f => f.off = off ∨ (f.off + 4 = off ∧ 32 < f.lo + f.wd)
  let big : List Fld :=
    match w with
    | .fab =>
      if 0x20000 ≤ off ∧ off < 0x40000 then [FAB_RT_SHADOW.ENTRY ((off - 0x20000) / 2), FAB_RT_SHADOW.ENTRY ((off - 0x20000) / 2 + 1)]
      else if 0x40000 ≤ off ∧ off < 0x60000 then [FAB_RT_ACTIVE.ENTRY ((off - 0x40000) / 2), FAB_RT_ACTIVE.ENTRY ((off - 0x40000) / 2 + 1)]
      else if 0x400 ≤ off ∧ off < 0x800 then [FAB_GCL_ADMIN.ENTRY ((off - 0x400) / 4)]
      else if 0x800 ≤ off ∧ off < 0xC00 then [FAB_GCL_OPER.ENTRY ((off - 0x800) / 4)]
      else []
    | .col => if 0x400 ≤ off ∧ off < 0x640 then [COL_SIG_STAGE.DATA ((off - 0x400) / 4)] else []
    | .mgt => if 0x1000 ≤ off ∧ off < 0x1820 then [MGT_TEL_BUF.DATA ((off - 0x1000) / 4)] else []
    | _ => []
  base ++ big

end Sys2Proof.Machine
end

