-- ==== Sys2Proof/Machine/KMap.lean ====
section
/-!
DEFINITION. Sparse data by a Nat key: a list of key and value pairs, keys strictly rising.
`find?` and `insert` leave an absent key absent; `get` and `put` read a default at an absent key and
never list an entry equal to it, so equal contents are equal lists.
-/
namespace Sys2Proof.Machine

/-- Key and value pairs, keys strictly rising. -/
abbrev KMap (α : Type) := List (Nat × α)

def KMap.find? {α : Type} : KMap α → Nat → Option α
  | [], _ => none
  | (k', v) :: r, k => if k = k' then some v else KMap.find? r k

def KMap.erase {α : Type} (m : KMap α) (k : Nat) : KMap α := m.filter fun p => p.1 ≠ k

/-- Place a pair before the first larger key. -/
def KMap.place {α : Type} : KMap α → Nat → α → KMap α
  | [], k, v => [(k, v)]
  | (k', v') :: r, k, v => if k < k' then (k, v) :: (k', v') :: r else (k', v') :: KMap.place r k v

def KMap.insert {α : Type} (m : KMap α) (k : Nat) (v : α) : KMap α := KMap.place (KMap.erase m k) k v

def KMap.get {α : Type} (d : α) (m : KMap α) (k : Nat) : α := (KMap.find? m k).getD d

def KMap.put {α : Type} [DecidableEq α] (d : α) (m : KMap α) (k : Nat) (v : α) : KMap α :=
  if v = d then KMap.erase m k else KMap.insert m k v

def KMap.upd {α : Type} [DecidableEq α] (d : α) (m : KMap α) (k : Nat) (f : α → α) : KMap α :=
  KMap.put d m k (f (KMap.get d m k))

/-- The canonical form: keys strictly rising. -/
def KMap.sorted {α : Type} : KMap α → Bool
  | [] => true
  | [_] => true
  | (k, _) :: (k', v') :: r => decide (k < k') && KMap.sorted ((k', v') :: r)

end Sys2Proof.Machine
end

