-- ==== Sys2Proof/Machine/State.lean ====
section
/-!
DEFINITION. The state of the node as plain data, the reasons a step can stop, and the state after reset.
A register that no field of `State` names is in `regs`, at its reset value when absent. Every other field starts
empty: State.reset is the node at power-up, before PWR_GOOD rises.
-/
namespace Sys2Proof.Machine

/-- One arbiter (R16–R19): its owner, whether a tenure has been granted whose first cycle may still run, and when, the
requesters that wait, the wait counters by requester, and for each priority the requester granted last, plus one. -/
structure Arb where
  owner : Option Nat := none
  first : Bool := false
  since : Nat := 0
  asking : List Nat := []
  waits : KMap Nat := []
  last  : KMap Nat := []
  deriving DecidableEq, Repr

/-- One gutter source and target pair (R13, R14): credits held and transfers waiting, oldest first. -/
structure GutLink where
  credits : Nat := 0
  waiting : List Nat := []
  deriving DecidableEq, Repr

/-- An error handler (R367): its queue, oldest first, the entry it is handling, and since when. -/
structure HandlerSt where
  queue : List ErrRec := []
  cur   : Option ErrRec := none
  since : Nat := 0
  /-- The handler has passed its bound with this entry (R367). -/
  late  : Bool := false
  deriving DecidableEq, Repr

/-- A running FILL or ZEROIZE of a stack (R71, R73). -/
inductive StkCmd where
  | fill (start stop : Nat) (pat : Bytes)
  | zero (setMask : Nat)
  deriving DecidableEq, Repr

/-- One stack controller: its running command, its running remap copy (index and entry word), the accesses that
wait for a row, oldest first, and the postponed refreshes by bank. -/
structure StkUnit where
  cmd       : Option StkCmd := none
  remap     : Option (Nat × Nat) := none
  waiting   : List Access := []
  postponed : KMap Nat := []
  deriving DecidableEq, Repr

/-- A galley line (Table 5.4). Invalidation clears `valid` and leaves the rest (R110). -/
structure GalLine where
  valid : Bool := false
  tag   : Nat := 0
  part  : Nat := 0
  slot  : Nat := 0
  gen   : Nat := 0
  data  : Bytes := []
  crc   : Nat := 0
  deriving DecidableEq, Repr

/-- A platen list (Table 4.2) with what follows it on the stream and when it arrived. -/
structure PltList where
  gang    : Bool := false
  target  : Nat := 0
  part    : Nat := 0
  tag     : Nat := 0
  est     : Nat := 0
  words   : List Nat := []
  stream  : Bytes := []
  issuer  : PltIssuer := .block 0
  arrived : Nat := 0
  deriving DecidableEq, Repr

/-- A list that runs: its place, the bytes it streams out, and what its completion record will say. -/
structure PltRun where
  list      : PltList := {}
  pos       : Nat := 0
  outs      : Bytes := []
  /-- Words of `outs` that are poisoned. -/
  outsBad   : List Nat := []
  ended     : Bool := false
  status    : Nat := 0
  cmdIndex  : Nat := 255
  retried   : Bool := false
  poison    : Bool := false
  preempted : Bool := false
  suspended : Bool := false
  start     : Nat := 0
  budget    : Nat := 0
  /-- Lines of rows written and not yet fenced (R109). -/
  wrote     : List Nat := []
  deriving DecidableEq, Repr

/-- A press hold of a gang (R97). `lost` names the holder whose state was dropped; `uncounted` where the drop has not been
counted yet (Table 4.8). -/
structure PltHold where
  held   : Bool := false
  issuer : PltIssuer := .block 0
  part   : Nat := 0
  n      : Nat := 0
  since  : Nat := 0
  hFirst : Nat := 0
  nPass  : Nat := 0
  lost   : Option PltIssuer := none
  uncounted : Bool := false
  deriving DecidableEq, Repr

/-- A completion record on its way to the issuer (Table 4.3), with the bytes streamed. -/
structure PltDone where
  issuer    : PltIssuer := .block 0
  tag       : Nat := 0
  status    : Nat := 0
  cmdIndex  : Nat := 0
  retried   : Bool := false
  poison    : Bool := false
  preempted : Bool := false
  cycles    : Nat := 0
  outs      : Bytes := []
  outsBad   : List Nat := []
  deriving DecidableEq, Repr

/-- What fixes a folio's layout: formats, head dimension and span. -/
structure Geo where
  kf   : Nat := 0
  vf   : Nat := 0
  d    : Nat := 32
  span : Nat := 64
  deriving DecidableEq, Repr

/-- The fixed part of a folio header (Table 2.5). -/
structure Hdr where
  ver    : Nat := 1
  desc   : Nat := 0
  closed : Bool := false
  sealed : Bool := false
  kerned : Bool := false
  folio  : Nat := 0
  conv   : Nat := 0
  part   : Nat := 0
  layer  : Nat := 0
  group  : Nat := 0
  base   : Nat := 0
  fill   : Nat := 0
  blocks : Nat := 0
  kLen   : Nat := 0
  slot   : Nat := 0
  gen    : Nat := 0
  deriving DecidableEq, Repr


/-- A folio slot of a composition (Table 6.2), with the fields no instruction can read. -/
structure FSlot where
  folio  : Nat := 0
  base   : Nat := 0
  posBase : Nat := 0
  posEnd : Nat := 0
  desc   : Nat := 0
  geo    : Geo := {}
  kerned : Bool := false
  sealed : Bool := false
  press  : Bool := false
  slot   : Nat := 0
  gen    : Nat := 0
  conv   : Nat := 0
  runIx  : Nat := 0
  deriving DecidableEq, Repr

/-- A composition: the attempt it serves, its context and query staging (Table 6.1), and its folio slots. -/
structure Comp where
  att     : Nat := 0
  ream    : Nat := 0
  slot    : Nat := 0
  attempt : Nat := 0
  part    : Nat := 0
  entry   : Nat := 0
  nq      : Nat := 0
  nh      : Nat := 0
  qfmt    : Nat := 0
  layer   : Nat := 0
  tau     : Nat := 0
  window  : Nat := 0
  sinks   : Nat := 0
  qpos    : List Nat := []
  staging : Bytes := []
  slots   : List FSlot := []
  /-- An append composition (R157): it hands rows on and has no pairs to emit. -/
  append  : Bool := false
  deriving DecidableEq, Repr

/-- A press list a block has issued and whose data has not landed: phase 1 or 2, where its words go. -/
structure PressOut where
  two    : Bool := false
  tag    : Nat := 0
  fslot  : Nat := 0
  ad     : Nat := 0
  np     : Nat := 0
  count  : Nat := 0
  first  : Nat := 0
  deriving DecidableEq, Repr

/-- A press list that a block has issued and whose completion has not come: its tag, the folio and the extent it was dispatched
on (R176), and whether its composition still runs to take its data. -/
structure ListOut where
  tag   : Nat := 0
  folio : Nat := 0
  base  : Nat := 0
  live  : Bool := true
  deriving DecidableEq, Repr

/-- Where the walk of a group of a kerned folio stands (R50): the body offset of its next block, and the bytes of the
body it holds, from their body offset, a multiple of 64. -/
structure Walk where
  off  : Nat := 0
  lo   : Nat := 0
  data : Bytes := []
  deriving DecidableEq, Repr

/-- The last stream of an expander (R128): its folio slot, the solid block after its last one, the header it read, and
of a kerned folio where it stands in the group of that block. -/
structure StreamSt where
  fslot : Nat := 0
  next  : Nat := 0
  hdr   : Bytes := []
  walk  : Walk := {}
  deriving DecidableEq, Repr

/-- The operand port of a block whose stream has not ended (R103): the lines read so far, oldest first, and, while the
port is stalled on a line that missed, how many checks of that line fail in a row once it is filled. -/
structure PortRun where
  lines : List Bytes := []
  miss  : Option Nat := none
  deriving DecidableEq, Repr

/-- One compositor block (Table 5.1) and what it runs. Tile rows are 512-bit words, accumulator rows 2,048-bit
words of 64 FP32 columns; poison marks a tile row, or the columns of an accumulator row. -/
structure BlkSt where
  cur     : Option Comp := none
  queue   : List Comp := []
  pc      : Nat := 0
  start   : Nat := 0
  cycles  : Nat := 0
  strict  : Bool := false
  repeats : Nat := 0
  emitted : List (Nat × Nat) := []
  press   : List PressOut := []
  /-- Press lists that have not completed, oldest first; they outlive their composition (R176, R303). -/
  lists   : List ListOut := []
  inject  : KMap Nat := []
  scal    : KMap Nat := []
  tiles   : KMap Nat := []
  tpsn    : KMap Nat := []
  accs    : KMap Nat := []
  apsn    : KMap Nat := []
  rmap    : KMap Nat := []
  preds   : KMap Nat := []
  /-- Its next composition has been counted as waiting for a folio's count (R176). -/
  waited  : Bool := false
  /-- The expander's last stream (R128). -/
  stream  : Option StreamSt := none
  /-- The operand port during a stream (R103). -/
  port    : PortRun := {}
  deriving DecidableEq, Repr

/-- Where a unit's command came from: its own registers, or a descriptor of a submission ring. -/
inductive CmdSrc where
  | reg
  | host (part ring seq : Nat)
  deriving DecidableEq, Repr

/-- A conversation record (Table 8.2). `state` is 0 free, 1 active, 2 releasing. -/
structure ConvRec where
  conv     : Nat := 0
  state    : Nat := 0
  role     : Nat := 0
  part     : Nat := 0
  sealed   : Bool := false
  spread   : Nat := 0
  inflight : Nat := 0
  tenant   : Nat := 0
  keySlot  : Nat := 0
  sig      : Nat := 0
  nlayer   : Nat := 0
  nhg      : Nat := 0
  hgLo     : Nat := 0
  hgHi     : Nat := 0
  posLo    : Nat := 0
  posHi    : Nat := 0
  primary  : Nat := 0
  mirror   : Nat := 0
  desc     : Nat := 0
  deriving DecidableEq, Repr

/-- A run record (Table 8.3) with its folio vector, by entry, and the leaf block of each LEAF_k in use. -/
structure RunRec where
  tail       : Nat := 0
  tier       : Nat := 0
  lastStep   : Nat := 0
  lastAccess : Nat := 0
  leaf       : KMap Nat := []
  vec        : KMap Nat := []
  deriving DecidableEq, Repr

/-- A folio table entry (Table 8.4). `state` is 0 free, 1 active, 2 freeing, 3 in the lower case. -/
structure FolioEnt where
  chunk    : Nat := 0
  nchunk   : Nat := 0
  closed   : Bool := false
  sealed   : Bool := false
  kerned   : Bool := false
  state    : Nat := 0
  refs     : Nat := 0
  outst    : Nat := 0
  oldOutst : Nat := 0
  oldChunk : Nat := 0
  oldN     : Nat := 0
  part     : Nat := 0
  tierRef  : Nat := 0
  deriving DecidableEq, Repr

/-- A catchword entry: its key units and its result word. -/
structure CwdEnt where
  key : Nat := 0
  res : Nat := 0
  deriving DecidableEq, Repr

/-- A data-key slot (R347–R349). `state` is 0 free, 1 open, 2 closing, 3 exhausted; `floor` bounds the next
generation from below. -/
structure KeySlot where
  state : Nat := 0
  gen   : Nat := 1
  floor : Nat := 1
  part  : Nat := 0
  key1  : Nat := 0
  key2  : Nat := 0
  deriving DecidableEq, Repr

/-- An MFP frame (Table 11.3) with its route extension and payload. `from?` is the ingress that still counts it. -/
structure Frame where
  ty      : Nat := 0
  tc      : Nat := 0
  sr      : Bool := false
  yellow  : Bool := false
  first   : Bool := true
  last    : Bool := true
  hops    : Nat := 1
  part    : Nat := 0
  dst     : Nat := 0
  src     : Nat := 0
  keyGen  : Nat := 0
  chan    : Nat := 0
  keySlot : Nat := 0
  seq     : Nat := 0
  msg     : Nat := 0
  off     : Nat := 0
  arg     : Nat := 0
  ext     : Bytes := []
  pay     : Bytes := []
  from?   : Option Nat := none
  stomp   : Bool := false
  /-- What its end-to-end CRC as received differs by from the right one: transit does not check it (R242). -/
  crcErr  : Nat := 0
  /-- The reach region whose outstanding count falls when the frame leaves (R271). -/
  tok?    : Option Nat := none
  /-- The channel and the sequence number of the WRITE that is complete when the frame leaves (R277). -/
  wr?     : Option (Nat × Nat) := none
  deriving DecidableEq, Repr

/-- The transmitter and receiver of a logical port (chapter 11): the frames that go ahead of every queue, the
green and yellow part of each class queue, the finish tags, the shaper tokens in eighths of a byte, pause ends,
since when a class is paused without a break, when the last PAUSE for it came, its gate lists, what it has
received and not passed on by class, the classes it has paused at its partner, and its down transitions. -/
structure PortSt where
  urgent    : List Frame := []
  green     : KMap (List Frame) := []
  yel       : KMap (List Frame) := []
  tag       : KMap Nat := []
  head      : KMap Nat := []
  vtime     : Nat := 0
  tokens    : KMap Int := []
  tokAt     : KMap Nat := []
  pauseEnd  : KMap Nat := []
  pauseFrom : KMap Nat := []
  pauseLast : KMap Nat := []
  occ       : KMap Nat := []
  xoff      : KMap Nat := []
  downs     : List Nat := []
  heldAt    : Nat := 0
  trainAt   : Nat := 0
  hello     : Bool := false
  helloAck  : Bool := false
  peer      : Nat := 0
  peerFw    : Nat := 0
  gclBase   : Nat := 0
  gclCycle  : Nat := 0
  gclN      : Nat := 0
  /-- When the line is free, in ps. -/
  lineFree  : Nat := 0
  /-- This port has sent HELLO with ACK = 1 in this bring-up. -/
  ackSent   : Bool := false
  /-- The gate-list entry that runs (R262). -/
  gateIx    : Nat := 0
  /-- When this port last sent HELLO in this bring-up (R238). -/
  helloAt   : Option Nat := none
  deriving DecidableEq, Repr

/-- A partition's two-rate meter (R260): the buckets in bytes, since when, and the colour of each message under
way, by TYPE, source and MSG_ID: 0 green, 1 yellow, 2 red. -/
structure MeterSt where
  full  : Bool := true
  tc    : Int := 0
  tp    : Int := 0
  since : Nat := 0
  msgs  : KMap Nat := []
  deriving DecidableEq, Repr

/-- One vector's partial: the maximum, the sum and the d outputs, as FP32 words (R163). -/
structure Tri where
  m : Nat := 0xFF800000
  l : Nat := 0
  o : List Nat := []
  deriving DecidableEq, Repr

/-- The fold of one vector of a slot (R166, R167): whether the local folios are known, the order codes still to
come (a folio's POS_BASE, or 2^32 + child position), the fold so far, and what waits for its turn. -/
structure VecFold where
  placed : Bool := false
  left   : List Nat := []
  came   : List Nat := []
  acc    : Option Tri := none
  buf    : List (Nat × Tri) := []
  deriving DecidableEq, Repr

/-- An append of an attempt at its primary or stand-in (R156–R161): its stored-form rows once known, and its
progress: 0 rows not ready, 1 ready, 2 placed and awaiting the mirror, 3 complete. -/
structure AppSt where
  slot  : Nat := 0
  state : Nat := 0
  rows  : Bytes := []
  fwdAt : Nat := 0
  deriving DecidableEq, Repr

/-- A folio partial at a block's emit port, not yet accepted by the collator (R140, R145). -/
structure Emit where
  block   : Nat := 0
  att     : Nat := 0
  attempt : Nat := 0
  step    : Nat := 0
  slot    : Nat := 0
  key     : Nat := 0
  first   : Nat := 0
  d       : Nat := 32
  bf16    : Bool := false
  poison  : Bool := false
  tris    : List Tri := []
  deriving DecidableEq, Repr

/-- What has been charged to a tenant (Table 9.2), with the energy in 1/256 pJ. -/
structure Charge where
  cmp  : Nat := 0
  plt  : Nat := 0
  gal  : Nat := 0
  stk  : Nat := 0
  fab  : Nat := 0
  hst  : Nat := 0
  tier : Nat := 0
  pj   : Nat := 0
  deriving DecidableEq, Repr

/-- The signed chunk count of a conversation that a ream changed, to be recorded for its storage tenant (R210). -/
structure OwedChunks where
  row    : Nat := 0
  conv   : Nat := 0
  tenant : Nat := 0
  delta  : Int := 0
  deriving DecidableEq, Repr

/-- A request that waits for a regulator's tokens (R206). -/
inductive RegReq where
  | gut (part bytes : Nat) (target : GutTarget) (write : Bool)
  | stk (x : Access)
  | list (stack : Nat) (issuer : PltIssuer) (header : Bytes) (words : List Nat) (stream : Bytes)
  deriving DecidableEq, Repr

/-- A folio whose mode decision waits for a gang (R200). -/
structure GangWait where
  slot  : Nat := 0
  fslot : FSlot := {}
  since : Nat := 0
  deriving DecidableEq, Repr

/-- A composition placed on a block and not yet in its dispatch queue (R199). -/
structure PendComp where
  comp  : Comp := {}
  block : Nat := 0
  cls   : Nat := 0
  tag   : Nat := 0
  cost  : Nat := 0
  since : Nat := 0
  deriving DecidableEq, Repr

/-- A ream policy (Table 9.1), without its identifier. -/
structure Policy where
  acl   : Bool := false
  press : Bool := false
  weight : Nat := 16
  thr   : Nat := 128
  gangWait : Nat := 0
  maxReams : Nat := 0
  poolMax : Nat := 0
  classes : List Nat := []
  deriving DecidableEq, Repr

/-- An attempt of a ream at one position of its signature (chapters 7, 9, 13). -/
structure Att where
  part    : Nat := 0
  ream    : Nat := 0
  step    : Nat := 0
  attempt : Nat := 0
  sig     : Nat := 0
  pos     : Nat := 0
  standin : Bool := false
  audit   : Bool := false
  /-- The policy in force when the ream was admitted (R193). -/
  pol     : Policy := {}
  /-- This attempt is a mirror's computation for an audit (R308). -/
  mirrorOf : Option Nat := none
  ticket  : Bytes := []
  start   : Nat := 0
  tag     : Nat := 0
  next    : Nat := 0
  /-- The slot pipeline has served the batch from `next` on, and it is not placed yet. -/
  due     : Bool := false
  parked  : List PendComp := []
  waits   : List Nat := []
  lateAt  : Option Nat := none
  gangs   : List GangWait := []
  folds   : KMap VecFold := []
  seen    : List (Nat × Nat × Nat × Nat) := []
  apps    : List AppSt := []
  charges : KMap Charge := []
  chunks  : KMap Int := []
  local?  : Option Nat := none
  audited : Bool := false
  asked   : Bool := false
  auditIn : Option Bytes := none
  /-- This attempt is counted in INFLIGHT of the conversations of its ticket (R184). -/
  flight  : Bool := false
  deriving DecidableEq, Repr

/-- An admitted ream at its root (R194, R304): its ticket as the next attempt carries it, where its result goes,
the FAULT_POS of a timeout of the attempt before, when the reissue is due, and whether a stand-in was refused. -/
structure Ream where
  part      : Nat := 0
  ream      : Nat := 0
  attempt   : Nat := 0
  ticket    : Bytes := []
  src       : CmdSrc := .reg
  audit     : Bool := false
  /-- The policy in force when it was admitted (R193). -/
  pol       : Policy := {}
  lastTmo   : Option Nat := none
  reissueAt : Option Nat := none
  noStand   : Bool := false
  /-- While it waits for its reissue, it is counted in INFLIGHT of its conversations (R184). -/
  flight    : Bool := false
  done      : Bool := false
  deriving DecidableEq, Repr

/-- A signature descriptor (Table 13.1): node, mirror and parent of each position. -/
structure SigDesc where
  sig     : Nat := 0
  part    : Nat := 0
  standin : Nat := 0
  epoch   : Nat := 0
  memb    : List (Nat × Nat × Nat) := []
  deriving DecidableEq, Repr

/-- One entry of the tier mover's fetch queue (R221). -/
structure FetchEnt where
  conv   : Nat := 0
  layer  : Nat := 0
  demand : Bool := false
  dist   : Nat := 0
  moving : Bool := false
  /-- The attempt that asked for it, and its slot's tenant. -/
  att    : Nat := 0
  tenant : Nat := 0
  /-- Extents taken for its folios while it is in transfer: folio, first chunk, chunks. -/
  places : List (Nat × Nat × Nat) := []
  deriving DecidableEq, Repr

/-- A run being spilled: the chunks it took in the pool, by folio (folio, first chunk, chunks, stored bytes), and
its record in a shared pool. -/
structure SpillSt where
  conv   : Nat := 0
  layer  : Nat := 0
  pool   : Nat := 0
  places : List (Nat × Nat × Nat) := []
  /-- Kerned extents made for its folios, which they are switched to when the spill ends: folio, first chunk, chunks (R219). -/
  encs   : List (Nat × Nat × Nat) := []
  record : Nat := 0
  frame  : Nat := 0
  byCmd  : Bool := false
  deriving DecidableEq, Repr

/-- A record this node holds (R228): its pool and number, its run, the epoch it took and the end of its lease. -/
structure LeaseEnt where
  pool   : Nat := 0
  record : Nat := 0
  conv   : Nat := 0
  layer  : Nat := 0
  epoch  : Nat := 0
  lease  : Nat := 0
  /-- When a renewal or a revert last found the pool out of reach, in fabric time (R228, R231). -/
  tried  : Option Nat := none
  deriving DecidableEq, Repr

/-- A forme as its sections by type × 256 + instance, with the header fields that the image keeps. -/
structure FormeImg where
  alg   : Nat := 0
  id    : Nat := 0
  ver   : Nat := 0
  epoch : Nat := 0
  time  : Nat := 0
  secs  : KMap Bytes := []
  deriving DecidableEq, Repr

/-- A descriptor of a submission ring (chapter 14), with the colophon ring whose entry it reserved (R320). `state` is
0 fetched, 1 handed on, 2 done. -/
structure HostJob where
  part   : Nat := 0
  ring   : Nat := 0
  seq    : Nat := 0
  cq     : Nat := 0
  desc   : Bytes := []
  started : Bool := false
  status : Nat := 0
  res    : Bytes := []
  state  : Nat := 0
  deriving DecidableEq, Repr

/-- What a request of the reach engine serves at its issuer: nothing, a descriptor, or an entry of a FOLIO_LOAD. -/
inductive ReqOwner where
  | none
  | job (part ring seq : Nat)
  | load (entry stage : Nat)
  deriving DecidableEq, Repr

/-- A request this node has issued on a channel (R284): what its slot holds, when it was last sent, and what has come
back. -/
structure TxReq where
  seq    : Nat := 0
  ty     : Nat := 0
  part   : Nat := 0
  msg    : Nat := 0
  pay    : Bytes := []
  owner  : ReqOwner := .none
  sentAt : Nat := 0
  got    : Bytes := []
  status : Nat := 0
  /-- Its completion has been given. -/
  done   : Bool := false
  /-- It has met a full retransmit store, which is counted once (R284). -/
  waited : Bool := false
  deriving DecidableEq, Repr

/-- A send context by destination × 16 + channel (R283–R286). `state` is 0 closed, 1 open, 2 opening, 3 broken. -/
structure RchTx where
  state    : Nat := 0
  cls      : Nat := 0
  next     : Nat := 0
  held     : List TxReq := []
  waitq    : List TxReq := []
  known    : Option Nat := none
  tmos     : Nat := 0
  brokenAt : Nat := 0
  openAt   : Nat := 0
  deriving DecidableEq, Repr

/-- A receive context by source × 16 + channel (R281, R283, R278). `flush` holds the FLUSHes not yet answered with
the status each will carry, `done` those answered within the window. -/
structure RchRx where
  cls    : Nat := 0
  e      : Nat := 0
  unack  : Nat := 0
  since  : Nat := 0
  nakAt  : Option Nat := none
  last   : Nat := 0
  fault  : Nat := 0
  flush  : List (Nat × Nat × Nat × Nat) := []
  done   : List (Nat × Nat) := []
  deriving DecidableEq, Repr

/-- A region entry (R269–R272). `state` is 0 free, 1 active, 2 revoking; `waiter` is the REVOKE that waits. -/
structure RchReg where
  state   : Nat := 0
  part    : Nat := 0
  gen     : Nat := 1
  kind    : Nat := 0
  rights  : Nat := 0
  src     : Nat := 0
  any     : Bool := false
  base    : Nat := 0
  len     : Nat := 0
  conv    : Nat := 0
  layer   : Nat := 0
  hg      : Nat := 0
  posBase : Nat := 0
  sealed  : Bool := false
  outst   : Nat := 0
  waiter  : Option CmdSrc := none
  deriving DecidableEq, Repr

/-- An entry of a replay cache (R290). -/
structure Replay where
  chan   : Nat := 0
  seq    : Nat := 0
  status : Nat := 0
  result : Nat := 0
  deriving DecidableEq, Repr

/-- A running FOLIO_LOAD (R391): its record, its list, the next entry to start, entries done, the first failing
status, and by entry what the source has sent so far. -/
structure LoadSt where
  cmd    : Bytes := []
  list   : Bytes := []
  next   : Nat := 0
  done   : Nat := 0
  status : Nat := 0
  ents   : KMap (Nat × Nat × Bytes) := []
  /-- Reads that have ended and are not taken up yet: entry, stage, status, data. -/
  came   : List (Nat × Nat × Nat × Bytes) := []
  deriving DecidableEq, Repr

/-- A secured session (R342): whether FINISH has completed, its mutual authentication, the requester's certificate
key, the partition it claims, its last message and its secret. -/
structure Session where
  done   : Bool := false
  mauth  : Bool := false
  cert   : Nat := 0
  part   : Option Nat := none
  last   : Nat := 0
  secret : Nat := 0
  deriving DecidableEq, Repr

/-- A link key (R356–R358): key and salt of each direction, frames sent under the key and its phase, the last count
accepted under the receive phase, and the old receive key with its last count until a frame of the new phase comes. -/
structure LinkKey where
  txKey   : Nat := 0
  txSalt  : Nat := 0
  rxKey   : Nat := 0
  rxSalt  : Nat := 0
  txCount : Nat := 0
  txPhase : Nat := 0
  rxLast  : Nat := 0
  rxPhase : Nat := 0
  old     : Option (Nat × Nat × Nat) := none
  deriving DecidableEq, Repr

/-- The IDE stream of a port (R359): its keys by sub-stream, whether it runs, and whether zeroization stopped it, so
that its link carries no TLP until keys are programmed (R362). -/
structure IdeSt where
  keys : KMap Nat := []
  go   : Bool := false
  stop : Bool := false
  deriving DecidableEq, Repr

/-- What a port's last valid HEARTBEAT said, and when it came (R386). -/
structure Neighbor where
  node   : Nat := 0
  digest : Nat := 0
  fw     : Nat := 0
  epoch  : Nat := 0
  last   : Nat := 0
  deriving DecidableEq, Repr

/-- A sideband input (R382–R384): when its filtered level became active, the last accepted event, whether the present
assertion has been taken, and whether an accepted event waits for its consumer. -/
structure InputSt where
  actAt  : Nat := 0
  event  : Option Nat := none
  taken  : Bool := false
  fresh  : Bool := false
  deriving DecidableEq, Repr

/-- An HDM decoder (R313): its host physical base and size, whether it is committed, and its error status. -/
structure Hdm where
  base      : Nat := 0
  size      : Nat := 0
  committed : Bool := false
  error     : Bool := false
  deriving DecidableEq, Repr

/-- An SPDM error (R341, R342, R362). -/
inductive SpdmErr where
  | unsupportedRequest
  | sessionLimitExceeded
  | unspecified
  | unexpectedRequest
  | decryptError
  deriving DecidableEq, Repr

/-- An answer of the root security processor to an SPDM request (R341, R342, R359). -/
inductive SpdmAns where
  | version (l : List Nat)
  | capabilities (l : List SpdmCap)
  | algorithms (l : List SpdmAlg)
  | digests (d : Nat)
  | certificate (data : Bytes) (left : Nat)
  | challengeAuth (chain nonce : Nat) (sig : Bytes)
  | measurements (count : Nat) (l : List (Nat × Nat)) (nonce : Nat) (sig : Option Bytes)
  | keyExchange (share : Nat) (sig : Bytes)
  | finish
  | heartbeat
  | keyUpdate
  | endSession
  | ideQuery (stream : Nat) (go : Bool)
  | keyProg
  | setGo
  | setStop
  | error (e : SpdmErr)
  deriving DecidableEq, Repr

/-- A PLDM completion code (chapter 20). -/
inductive PldmCode where
  | success
  | error
  | invalidData
  | notReady
  | unsupportedCmd
  | invalidType
  | alreadyInUpdateMode
  | notInUpdateMode
  | verifyErrorImageIncomplete
  deriving DecidableEq, Repr

/-- A telemetry record (R458): its header fields and its values. -/
structure TelRec where
  seq    : Nat := 0
  n      : Nat := 0
  gap    : Bool := false
  oob    : Bool := false
  tStart : Nat := 0
  tEnd   : Nat := 0
  values : List Nat := []
  deriving DecidableEq, Repr

/-- The instruction of the test access port (R461). -/
inductive TapIr where
  | bypass
  | idcode
  | samplePreload
  | extest
  | extestPulse
  | extestTrain
  | clamp
  | highz
  deriving DecidableEq, Repr

/-- What the node sends (the model's own record of its outputs). -/
inductive OutMsg where
  /-- A transfer delivered over the gutter (R13). -/
  | gutter (src dst xfer : Nat)
  /-- A gutter target's answer: served, or refused with poison (a read) or a discard (a write) (R15). -/
  | gutAnswer (part : Nat) (write accepted : Bool)
  /-- An MSI-X vector delivered (R328, R329). -/
  | msix (part vec : Nat)
  /-- A PlatformEventMessage sent to the receiver (R457). -/
  | eventMsg (r : ErrRec)
  /-- A stack controller's answer to a read (R56, R61, R65). -/
  | readData (part off : Nat) (data : Bytes) (poison : Bool) (status : Nat)
  /-- A stack controller's answer to a read some of whose sectors are poison: those that cover the range, in order. -/
  | readSectors (part off : Nat) (sectors : List (Option Bytes)) (status : Nat)
  /-- A stack controller's answer to a write. -/
  | writeDone (part off status : Nat)
  /-- A platen completion record returned to its issuer (R83). -/
  | pltDone (r : PltDone)
  /-- A frame transmitted on a logical port, and its bytes on the link (R245). -/
  | frame (code : Nat) (f : Frame) (wire : Bytes)
  /-- Bytes written to the host for a descriptor: a colophon or a result (R326, R322). -/
  | hostWrite (part ring seq : Nat) (data : Bytes)
  /-- An accounting record formed (R210). -/
  | acct (part : Nat) (record : Bytes)
  /-- An answer of the root security processor in a session, or outside one as session 0 (R341, R347). -/
  | spdm (session : Nat) (data : Bytes)
  /-- A colophon written at an entry of a colophon ring (R326). -/
  | colophon (part cq index : Nat) (data : Bytes)
  /-- The completion of a configuration request: Configuration Request Retry Status, or data (R434). -/
  | cfg (func : Nat) (retry : Bool) (data : Nat)
  /-- A sensor has crossed a threshold (R455). -/
  | sensorEvent (id value : Nat)
  /-- An answer of the root security processor to an SPDM request, outside a session as session 0 (R341). -/
  | spdmAns (session : Nat) (a : SpdmAns)
  /-- A PLDM response: its completion code, the status of a node operation, and its data (chapter 20). -/
  | pldm (eid : Nat) (code : PldmCode) (status : Nat) (data : Bytes)
  /-- An MCTP control response (R448, R450). -/
  | mctp (eid : Nat) (data : Bytes)
  /-- A telemetry record sent to its receiver (R458). -/
  | telemetry (eid : Nat) (r : TelRec)
  /-- The answer to a register read (R467). -/
  | regRead (who : Requester) (addr value : Nat)
  /-- The address given in answer to the SMBus alert response address (R448). -/
  | alertAddr (addr : Nat)
  /-- The answer of the CXL device mailbox (R311). -/
  | mboxAnswer (data : Bytes)
  /-- The register that the test access port selects, as captured (R461). -/
  | tap (value : Nat)
  deriving DecidableEq, Repr

/-- The gutter and its arbiters (chapter 1). -/
structure GutSt where
  /-- Arbiters by identifier (Table 1.5). -/
  arbs : KMap Arb := []
  /-- Gutter pairs by 8 × source + target. -/
  links : KMap GutLink := []
  deriving DecidableEq, Repr

/-- The RAS controller (chapter 16). -/
structure RasSt where
  /-- Error handlers by `handlerIx`. -/
  handlers : KMap HandlerSt := []
  /-- The log of R371, by index mod 512. -/
  errLog : KMap ErrRec := []
  /-- Neighbors by egress code (R386). -/
  nbrs : KMap Neighbor := []
  /-- Consecutive evaluations in which the disagreeing neighbors were the majority (R387). -/
  disagree : Nat := 0
  /-- Sideband inputs by number (R382–R384). -/
  inputs : KMap InputSt := []
  /-- A FOLIO_LOAD that runs (R391). -/
  load : Option LoadSt := none
  deriving DecidableEq, Repr

/-- The host interface (chapter 14). -/
structure HstSt where
  /-- MSI-X pending bits of each function (R329). -/
  msixPend : KMap Nat := []
  /-- MSI-X vectors the host has unmasked, of each function (R329). -/
  msixOpen : KMap Nat := []
  /-- Submission ring tails as the doorbells gave them, by 8 × partition + ring (R317). -/
  sqTail : KMap Nat := []
  /-- Colophon ring heads as the doorbells gave them, by 8 × partition + ring (R317). -/
  cqHead : KMap Nat := []
  /-- One plus the ring that took the last turn, by partition (R319). -/
  lastRing : KMap Nat := []
  /-- Turns a partition has taken in this round (R319). -/
  turns : KMap Nat := []
  /-- Submission rings whose present wait for a colophon entry has been counted (R320). -/
  waits : KMap Nat := []
  /-- Descriptors fetched from each submission ring (R321). -/
  seqs : KMap Nat := []
  /-- Colophons not yet signaled, and since when, by 8 × partition + ring (R328). -/
  unsig : KMap (Nat × Nat) := []
  /-- Partitions whose running reset came from their function's own function-level reset (R332). -/
  flrOwn : List Nat := []
  /-- Partitions whose running reset retires their key slots (R331). -/
  rstRetire : List Nat := []
  /-- VF Enable of the physical function (R330). -/
  vfEnable : Bool := false
  /-- NumVFs of the physical function (R330). -/
  numVfs : Nat := 0
  /-- PERST_N holds the host link in reset (R434). -/
  perst : Bool := false
  /-- HDM decoders by number (R313). -/
  hdm : KMap Hdm := []
  /-- Configuration space of the functions, by 4096 × function + dword (R434). -/
  cfg : KMap Nat := []
  /-- The last answer of the CXL device mailbox (R311). -/
  mbox : Bytes := []
  deriving DecidableEq, Repr

/-- The stack controllers (chapter 3). -/
structure StkSt where
  /-- Controllers by stack. -/
  units : KMap StkUnit := []
  /-- Rows a running platen list has claimed for writing, by 64 × stack + unit of its first unit (R89). -/
  claims : KMap (List Nat) := []
  /-- Commands of units that have met a claimed row: the row, and since when they wait (R92). -/
  claimWaits : List (Instr × Nat × Nat) := []
  deriving DecidableEq, Repr

/-- The galley (chapter 5). -/
structure GalSt where
  /-- Lines by (region × 16384 + set) × 16 + way (R104). -/
  lines : KMap GalLine := []
  /-- Requests whose lines have not arrived, oldest first, each with how many checks of its line fail in a row (R103, R108,
  R111). -/
  fills : List (GalReq × Nat) := []
  /-- Pseudo-LRU tree bits of each set, by region × 16384 + set (R106). -/
  plru : KMap Nat := []
  deriving DecidableEq, Repr

/-- The platen units (chapter 4). -/
structure PltSt where
  /-- Sort lanes of 16 bits, by ((64 × stack + unit) × 16 + sort) × 128 + lane. -/
  sorts : KMap Nat := []
  /-- Sorts whose content is undefined: one plus the free value they were left with, by (64 × stack + unit) × 16 + sort (R85). -/
  undef : KMap Nat := []
  /-- Groups of 16 lanes of a sort that are poisoned, as bits, by (64 × stack + unit) × 16 + sort (R84). -/
  spsn : KMap Nat := []
  /-- Groups of 16 lanes of an accumulator that are poisoned, by (64 × stack + unit) × 4 + x. -/
  apsn : KMap Nat := []
  /-- Accumulator lanes of 48 bits, by ((64 × stack + unit) × 4 + x) × 128 + lane. -/
  accs : KMap Nat := []
  /-- Accumulator mode bits, 1 for F32, by (64 × stack + unit) × 4 + x. -/
  f32 : KMap Nat := []
  /-- Press parameters of each gang as the PARM word, by 8 × stack + set. -/
  parms : KMap Nat := []
  /-- Press holds, by 8 × stack + set. -/
  holds : KMap PltHold := []
  /-- When a list or a hold last left a gang, by 8 × stack + set (R200). -/
  freeAt : KMap Nat := []
  /-- Queued lists of a stack, oldest first. -/
  queues : KMap (List PltList) := []
  /-- Running lists, by 64 × stack + first unit. -/
  runs : KMap PltRun := []
  /-- Residue mismatches to force, by 64 × stack + unit. -/
  inject : KMap Nat := []
  deriving DecidableEq, Repr

/-- The compositor blocks (chapters 5 and 6). -/
structure CmpSt where
  /-- Blocks by global number. -/
  blocks : KMap BlkSt := []
  /-- Folio partials at the emit ports, oldest first (R140). -/
  emits : List Emit := []
  /-- Program stores by block: 8,192 words of 8 bytes (R123); an absent one has lost its contents. -/
  prog : KMap Bytes := []
  deriving DecidableEq, Repr

/-- The forme (chapter 17). -/
structure FmeSt where
  /-- The active forme, by section. -/
  active : FormeImg := {}
  /-- The container that LOAD has read and that is being verified (R403). -/
  loading : Option Bytes := none
  /-- The staged or armed forme, merged, with its NEW_EPOCH and COMMIT_TIME (R403). -/
  staged : Option FormeImg := none
  /-- Step 8 of Table 17.12 has been taken since the last reset (R408). -/
  applied : Bool := false
  /-- When the hold began (R405). -/
  holdAt : Nat := 0
  deriving DecidableEq, Repr

/-- What the participants of a drain have accepted and not ended (Table 15.6): writes that wait at the stacks, frames queued by
egress code, runs in transfer by run key, buffered records by attempt, vector and code, and running descriptors. -/
structure DrainWork where
  writes : List Access := []
  frames : List (Nat × Frame) := []
  runs   : List Nat := []
  recs   : List (Nat × Nat × Nat) := []
  jobs   : List (Nat × Nat × Nat) := []
  deriving DecidableEq, Repr

/-- The root security processor's keys (chapter 15). -/
structure KeySt where
  /-- Data-key slots by number (R347). -/
  slots : KMap KeySlot := []
  /-- Slots whose retirement waits for the next drain epoch (R350). -/
  waiting : List Nat := []
  /-- Slots the running drain covers (R350). -/
  covered : List Nat := []
  /-- When the running drain began (R351). -/
  drainAt : Nat := 0
  /-- What the participants had under way when the running drain began (R350). -/
  drainOld : DrainWork := {}
  /-- The running drain has been reported late (R351). -/
  lateSaid : Bool := false
  /-- Secured sessions by number (R342). -/
  sessions : KMap Session := []
  /-- Link keys by link-key slot (R356). -/
  links : KMap LinkKey := []
  /-- IDE streams: 0 the host link, 1 + n tier port n (R359). -/
  ide : KMap IdeSt := []
  /-- The zeroization latch in D0 (R362). -/
  zeroized : Bool := false
  /-- One plus the highest level carried out for each alarm source whose bit is set (R361). -/
  carried : KMap Nat := []
  /-- Times of the node authentication failures of the last second (R360). -/
  nodeFails : List Nat := []
  /-- Times of the authentication failures of the last second by partition (R360). -/
  partFails : KMap (List Nat) := []
  /-- The Alias private key (R339). -/
  aliasKey : Option Nat := none
  deriving DecidableEq, Repr

/-- The folio unit (chapter 8). -/
structure FloSt where
  /-- Conversation records by index. -/
  convs : KMap ConvRec := []
  /-- Run records by index. -/
  runs : KMap RunRec := []
  /-- Folio table entries by folio ID. -/
  folios : KMap FolioEnt := []
  /-- Folio IDs pushed back on the free stack, last first. -/
  freed : List Nat := []
  /-- 1 more than the entries taken of those that firmware wrote, which stand below: 2^NFOLIO_LOG2 less this are left. -/
  fresh : Nat := 1
  /-- Leaf blocks pushed back on their free stack. -/
  leafFreed : List Nat := []
  /-- The same for the entries that firmware wrote: NLEAF less this are left. -/
  leafFresh : Nat := 1
  /-- Chunks in use: length by first chunk number; every other chunk is free in the bitmaps. -/
  used : KMap Nat := []
  /-- Next-fit cursor of each channel set. -/
  cursors : KMap Nat := []
  /-- Encodes under way: the new extent and its chunks, by folio (R54). -/
  encodes : KMap (Nat × Nat) := []
  /-- Closed folios that wait for a codec under policy 1 (R54). -/
  toEncode : List Nat := []
  /-- Directory command records that wait, oldest first (R183). -/
  waiting : List (CmdSrc × Bytes) := []
  /-- A CONV_CLOSE that waits under R184, and its conversation record. -/
  closing : Option (CmdSrc × Nat) := none
  deriving DecidableEq, Repr

/-- The catchword unit (chapter 8). -/
structure CwdSt where
  /-- Valid entries by 32768 × bank + position. -/
  ents : KMap CwdEnt := []
  deriving DecidableEq, Repr

/-- The fabric ports, the router and the time unit (chapter 11). -/
structure FabSt where
  /-- Logical ports by egress code. -/
  ports : KMap PortSt := []
  /-- Frames delivered to this node's fabric core and not yet taken, oldest first. -/
  inbox : List Frame := []
  /-- Meters by partition. -/
  meters : KMap MeterSt := []
  deriving DecidableEq, Repr

/-- The time unit (R265, R266): timestamps in 1/65,536 ns. -/
structure TimSt where
  /-- T1 of the last TIME_SYNC. -/
  t1 : Nat := 0
  /-- T2, its arrival. -/
  t2 : Nat := 0
  /-- T3, the departure of the TIME_DREQ. -/
  t3 : Nat := 0
  /-- Its SEQ_ID. -/
  seq : Nat := 0
  /-- A TIME_DRESP is awaited. -/
  asked : Bool := false
  /-- The grandmaster it named. -/
  gm : Nat := 0
  /-- Links from the grandmaster. -/
  steps : Nat := 0
  /-- When the last TIME_SYNC arrived, in node time. -/
  lastSync : Nat := 0
  /-- Consecutive intervals with an offset of at most 250 ns. -/
  good : Nat := 0
  /-- The rate correction in ppm. -/
  rate : Int := 0
  /-- What the rate correction has gathered, in millionths of a nanosecond. -/
  frac : Int := 0
  /-- The next SEQ_ID a parent sends. -/
  txSeq : Nat := 0
  /-- When the last TIME_SYNC was sent (R265). -/
  syncAt : Option Nat := none
  /-- When the last HEARTBEAT was sent (R244). -/
  hbAt : Option Nat := none
  deriving DecidableEq, Repr

/-- The reach engine (chapter 12). -/
structure RchSt where
  /-- Region entries by index. -/
  regs : KMap RchReg := []
  /-- The allocation cursor: the index last taken. -/
  cursor : Nat := 65535
  /-- Send contexts by destination × 16 + channel. -/
  tx : KMap RchTx := []
  /-- Receive contexts by source × 16 + channel. -/
  rx : KMap RchRx := []
  /-- Command records that wait, oldest first (R269). -/
  cmds : List (CmdSrc × Bytes) := []
  /-- Replay caches by source, oldest first. -/
  replay : KMap (List Replay) := []
  deriving DecidableEq, Repr

/-- The ream scheduler (chapter 9). -/
structure ReaSt where
  /-- V1 of the slot pipeline (R195). -/
  v1 : Nat := 0
  /-- F1 by partition. -/
  f1 : KMap Nat := []
  /-- Pending compositions in the order of placement (R199, R203). -/
  pool : List PendComp := []
  /-- V by block (R202). -/
  vb : KMap Nat := []
  /-- F by 512 × block + 16 × partition + class. -/
  fb : KMap Nat := []
  /-- Tokens of the stack bucket by partition (R206). -/
  stkTok : KMap Int := []
  /-- Tokens of the gutter bucket by partition. -/
  gutTok : KMap Int := []
  /-- Requests that wait for tokens, oldest first (R206). -/
  regWait : List RegReq := []
  /-- Commands of units that have found the bucket empty and been counted (R206). -/
  stalled : List Instr := []
  /-- Energy charged since cold reset in 1/256 pJ, by partition (R209). -/
  pj : KMap Nat := []
  /-- Energy carried to the next record in 1/256 pJ, by 4 × partition + type (R209). -/
  carry : KMap Nat := []
  /-- Partitions whose next record carries GAP (R211). -/
  gap : KMap Nat := []
  /-- Spill bytes not yet in a type 2 record, by conversation record (Table 9.4). -/
  spill : KMap Charge := []
  /-- Claim stall and idle warm cycles of a partition not yet in a type 3 record. -/
  rest : KMap Charge := []
  /-- When a block's clock start request was sent (R201). -/
  gateAt : KMap Nat := []
  /-- Since when a block with an open gate has run nothing, or was last accounted (Table 9.2). -/
  idleAt : KMap Nat := []
  /-- When the last type 3 records were due (R210). -/
  lastAcct : Nat := 0
  deriving DecidableEq, Repr

/-- The collator (chapter 13). -/
structure ColSt where
  /-- Attempts by `attKey`. -/
  atts : KMap Att := []
  /-- Reams admitted at this root by 2^32 × partition + REAM_ID. -/
  reams : KMap Ream := []
  /-- Signature descriptors by INDEX. -/
  sigs : KMap SigDesc := []
  /-- A SIG_PUT or SIG_DROP that waits for the reams of the old entry (R294). -/
  held : Option (CmdSrc × Bytes × Bytes) := none
  /-- Collator command records that wait, with the descriptor supplied, oldest first. -/
  waiting : List (CmdSrc × Bytes × Bytes) := []
  /-- ABORTs forwarded: partition, REAM_ID, ATTEMPT, ROOT_ABORT (R302). -/
  aborts : List (Nat × Nat × Nat × Bool) := []
  /-- Second copies of ABORTs with the time they are due (R302). -/
  repeats : List (Nat × Frame) := []
  /-- Reams admitted at this root by partition, for the Nth (R308). -/
  audits : KMap Nat := []
  /-- Chunks taken by attempts whose ream may go on, by 2^32 × partition + REAM_ID: they enter its one type 2 record of each
  storage tenant (R210). -/
  owed : KMap (List OwedChunks) := []
  deriving DecidableEq, Repr

/-- The lower case (chapter 10). -/
structure TierSt where
  /-- Chunks in use in the pools' bitmaps: length by 2^36 × pool + chunk. -/
  used : KMap Nat := []
  /-- Next-fit cursor of each pool. -/
  cursors : KMap Nat := []
  /-- Partitions whose spills are under way toward HI (R218). -/
  needy : List Nat := []
  /-- Partitions for which a fetch has found no space: another run is spilled (R222). -/
  starved : List Nat := []
  /-- When the record table was last swept (R233). -/
  sweptAt : Nat := 0
  /-- Ownership records by 2^24 × pool + record number. -/
  records : KMap OwnRec := []
  /-- Runs being spilled by 65536 × conversation record + layer. -/
  spills : KMap SpillSt := []
  /-- The fetch queue in order (R221). -/
  fetchq : List FetchEnt := []
  /-- The lease list (R228). -/
  leases : List LeaseEnt := []
  /-- A tier command that runs. -/
  cmd : Option Bytes := none
  deriving DecidableEq, Repr

/-- The host path's descriptors (chapter 14). -/
structure JobSt where
  /-- Descriptors fetched and not yet answered by a colophon, oldest first. -/
  jobs : List HostJob := []
  deriving DecidableEq, Repr

/-- The fuses of the root security processor (chapter 15), blank as shipped. -/
structure FusSt where
  /-- Programmed owner-key slots: algorithm flag and key hash (R343). -/
  owners : KMap (Nat × Nat) := []
  /-- Bit n: the revoke fuse of owner slot n is blown (R343). -/
  revoked : Nat := 0
  /-- Blown SVN fuses, at most 64 (R338). -/
  svn : Nat := 0
  deriving DecidableEq, Repr

/-- The power and clock manager and the node's pins (chapters 18 and 19). -/
structure PcmSt where
  /-- PWR_GOOD is high (R440). -/
  pwrGood : Bool := false
  /-- RESET_N is held active (R385). -/
  rstHeld : Bool := false
  /-- A test instruction holds every domain but D0 in warm reset (R461). -/
  tapHeld : Bool := false
  /-- THERMTRIP_N is driven low (R438). -/
  thermtrip : Bool := false
  /-- The last module power samples in µW, newest first, at most 100 (R420). -/
  samples : List Nat := []
  /-- Consecutive samples at 125 °C or more (R438). -/
  hot : Nat := 0
  /-- When the last step of Table 18.4 was taken (R420). -/
  stepAt : Nat := 0
  /-- Since when the average has stayed at or below 0.95 × CAP_W (R421). -/
  lowFrom : Option Nat := none
  /-- A step was taken for heat, and the die has not since been at or below 100 °C (R422). -/
  heat : Bool := false
  /-- The running assertion of PWR_BRAKE_N has been counted (R435). -/
  brake : Bool := false
  /-- What each rail's energy count has gathered below 1 µJ, in 1/100,000 µJ (R456). -/
  rest : KMap Nat := []
  /-- The action of Table 3.5 in force in each stack: 0 to 3 (R75). -/
  stkTemp : KMap Nat := []
  /-- Bit n: TIER_PERST_Nn is high (R439). -/
  tierPerst : Nat := 0
  /-- The instruction the test access port holds (R461). -/
  tapIr : TapIr := .idcode
  /-- The boundary-scan cells as last preloaded (R461). -/
  boundary : Nat := 0
  /-- When the KEEP command was taken, and then when KEEP was entered (R418). -/
  keepAt : Nat := 0
  /-- Since when the node has held none of what R415 lists. -/
  quietAt : Option Nat := none
  /-- Since when every gate of a region has been closed and no fill has run, by region (R416). -/
  restAt : KMap Nat := []
  /-- Since when a tier port has been enabled with its reference clock, by port (R439). -/
  tierOnAt : KMap Nat := []
  deriving DecidableEq, Repr

/-- The management controller and the flash (chapter 20). -/
structure MgtSt where
  /-- Flash slots as written since manufacture: RSP A and B, MGT A and B, forme A and B (Table 20.5). -/
  flash : KMap Bytes := []
  /-- A debug level that takes effect at the next warm reset (R459). -/
  dbgNext : Nat := 0
  /-- Events not yet acknowledged, oldest first (R457). -/
  events : List ErrRec := []
  /-- The endpoint that receives events; 0 none (R457). -/
  receiver : Nat := 0
  /-- The last value of each sensor of Table 20.6, by its ID. -/
  sens : KMap Nat := []
  /-- What FORME_LOAD has received so far (Table 20.4). -/
  load : Bytes := []
  /-- The update agent that is served (R453). -/
  updater : Option Nat := none
  /-- The last telemetry record (R458). -/
  tel : Option TelRec := none
  /-- When the last telemetry record fell due (R458). -/
  telAt : Nat := 0
  /-- Telemetry records have been skipped since the last one formed (R458). -/
  telGap : Bool := false
  /-- The endpoint that receives telemetry records; 0 none (R458). -/
  telTo : Nat := 0
  deriving DecidableEq, Repr

/-- The state of the node. -/
structure State where
  /-- Time since reset in ns; a step on an empty queue advances it. -/
  now : Nat := 0
  /-- When each event that comes at a period last came, by `Period.ix`. -/
  periods : KMap Nat := []
  /-- The model's own: how many free values have been drawn. -/
  freeIx : Nat := 0
  /-- The model's own: what the node has sent, newest first. -/
  out : List OutMsg := []
  /-- Register fields by `Fld.key`; an absent one holds its reset value (R7). -/
  regs : KMap Nat := []
  /-- Bytes of the stack arrays and, from 2^48 on, of the pools, by location; an absent one was never written (R63). -/
  mem : List Host.Cell := []
  /-- The four check symbols of each written sector, by location div 32 (R59). -/
  chk : KMap Nat := []
  /-- The three poison bit copies of each sector, by location div 32 (R62). -/
  psn : KMap Nat := []
  /-- High words latched by a read of the low word, by 2^26 × requester + address of the high word (R467). -/
  latch : KMap Nat := []
  /-- The gutter and its arbiters (chapter 1). -/
  gut : GutSt := {}
  /-- The RAS controller (chapter 16). -/
  ras : RasSt := {}
  /-- The host interface (chapter 14). -/
  hst : HstSt := {}
  /-- The stack controllers (chapter 3). -/
  stk : StkSt := {}
  /-- The galley (chapter 5). -/
  gal : GalSt := {}
  /-- The platen units (chapter 4). -/
  plt : PltSt := {}
  /-- The compositor blocks (chapters 5 and 6). -/
  cmp : CmpSt := {}
  /-- The forme (chapter 17). -/
  fme : FmeSt := {}
  /-- The root security processor's keys (chapter 15). -/
  key : KeySt := {}
  /-- The folio unit (chapter 8). -/
  flo : FloSt := {}
  /-- The catchword unit (chapter 8). -/
  cwd : CwdSt := {}
  /-- The fabric ports, the router and the time unit (chapter 11). -/
  fab : FabSt := {}
  /-- The time unit (R265, R266): timestamps in 1/65,536 ns. -/
  tim : TimSt := {}
  /-- The reach engine (chapter 12). -/
  rch : RchSt := {}
  /-- The ream scheduler (chapter 9). -/
  rea : ReaSt := {}
  /-- The collator (chapter 13). -/
  col : ColSt := {}
  /-- The lower case (chapter 10). -/
  tier : TierSt := {}
  /-- The host path's descriptors (chapter 14). -/
  job : JobSt := {}
  /-- The fuses of the root security processor (chapter 15), blank as shipped. -/
  fus : FusSt := {}
  /-- The power and clock manager and the node's pins (chapters 18 and 19). -/
  pcm : PcmSt := {}
  /-- The management controller and the flash (chapter 20). -/
  mgt : MgtSt := {}
  /-- The commands that wait, first in, first out. -/
  pending : List Instr := []
  deriving DecidableEq, Repr

/-- Why the machine stops with a fault. -/
inductive Fault where
  /-- A rail left its tolerance while PWR_GOOD is high and the spec gives the node no behaviour (R443). Raised by
  `VDD_AON_RISE`. Safe: no claim is made of what the node does then. -/
  | unspecifiedPower
  deriving DecidableEq, Repr

/-- Why the machine refuses a command. -/
inductive Refusal where
  /-- The command has no meaning in this model yet. Raised by the dispatch alone. Safe. -/
  | notModelled (mnemonic : String)
  /-- A private test instruction at debug level 2: the spec gives it no effect. Raised by `TAP_PRIVATE`. Safe. -/
  | privateTest
  deriving DecidableEq, Repr

/-- The node after reset: every register at the value its table gives, and nothing in progress. The incarnation, which the
table gives as random and nonzero, is a free value that is not zero (R288). -/
def State.reset : State := { regs := [(RCH_INCARNATION.VALUE.key 0, Config.freeNat 0 % (2 ^ 32 - 1) + 1)], freeIx := 1 }

end Sys2Proof.Machine
end

