-- ==== Sys2Proof/Machine/Status.lean ====
section
/-!
DEFINITION. The status codes of the chapters (R8, Table 0.3).
-/
namespace Sys2Proof.Machine.ST

def OK : Nat := 0x0000
def POISON : Nat := 0x0001
def ADDR_RANGE : Nat := 0x0002
def STK_FENCED : Nat := 0x0003
def STK_CMD_ABORTED : Nat := 0x0005
def STK_CMD_RANGE : Nat := 0x0006
def STK_CMD_OWNED : Nat := 0x0007
def PHASE_LOST : Nat := 0x0100
def PLT_LIST_FORMAT : Nat := 0x0101
def PLT_TOO_LONG : Nat := 0x0102
def PLT_NOT_OPEN : Nat := 0x0103
def PLT_RESIDUE : Nat := 0x0104
def PLT_ADDR : Nat := 0x0105
def PLT_QUEUE_FULL : Nat := 0x0106
def PLT_DISABLED : Nat := 0x0107
def PLT_NO_HOLD : Nat := 0x0108
def CMP_RESIDUE : Nat := 0x0201
def GAL_CRC : Nat := 0x0202
def CMP_WATCHDOG : Nat := 0x0203
def CMP_FENCED : Nat := 0x0204
def KERN_FORMAT : Nat := 0x0210
def CMP_ILLEGAL : Nat := 0x0220
def CMP_OPERAND : Nat := 0x0221
def CMP_PC : Nat := 0x0222
def CMP_STREAM : Nat := 0x0223
def CMP_EMIT : Nat := 0x0224
def CMP_NO_EMIT : Nat := 0x0225
def TKT_FORMAT : Nat := 0x0300
def TKT_PART : Nat := 0x0301
def TKT_SIG : Nat := 0x0302
def TKT_SLOT : Nat := 0x0303
def TKT_MASK : Nat := 0x0304
def APPEND_FMT : Nat := 0x0305
def APPEND_POS : Nat := 0x0306
def REAM_BUSY : Nat := 0x0380
def REAM_NO_BLOCK : Nat := 0x0381
def FOLIO_CLOSED : Nat := 0x0411
def KERN_FORMAT_SVC : Nat := 0x0410
def KERN_FORMAT_RCH : Nat := 0x0710
def DIR_NO_CONV : Nat := 0x0400
def DIR_NO_RUN : Nat := 0x0401
def DIR_CONV_EXISTS : Nat := 0x0402
def DIR_GEOMETRY : Nat := 0x0403
def DIR_CMD_FORMAT : Nat := 0x0404
def FOLIO_TBL_FULL : Nat := 0x0405
def FOLIO_NOSPACE : Nat := 0x0406
def RUN_FULL : Nat := 0x0407
def SHARE_MISMATCH : Nat := 0x0408
def SHARE_OPEN : Nat := 0x0409
def ACCESS_DENIED : Nat := 0x040A
def CWD_GROUP_FULL : Nat := 0x040B
def CWD_DUP : Nat := 0x040C
def CWD_NOT_FOUND : Nat := 0x040D
def FLO_DISABLED : Nat := 0x040E
def TIER_LATE : Nat := 0x0500
def STALE_EPOCH : Nat := 0x0501
def TIER_FAIL : Nat := 0x0502
def TIER_NOT_OWNER : Nat := 0x0503
def TIER_BUSY : Nat := 0x0504
def TIER_CMD_FORMAT : Nat := 0x0505
def METER_RED : Nat := 0x0600
def FAB_NO_ROUTE : Nat := 0x0601
def REVOKED : Nat := 0x0700
def GEN_MISMATCH : Nat := 0x0701
def RCH_KEY : Nat := 0x0702
def RCH_RIGHTS : Nat := 0x0703
def RCH_BOUNDS : Nat := 0x0704
def RCH_FORMAT : Nat := 0x0705
def RCH_NOT_RESIDENT : Nat := 0x0706
def RCH_SEALED : Nat := 0x0707
def RCH_XPART : Nat := 0x0708
def RCH_UNREACHABLE : Nat := 0x0709
def RCH_PEER_RESET : Nat := 0x070A
def RCH_NO_CONTEXT : Nat := 0x070B
def RCH_REG_FULL : Nat := 0x070C
def RCH_REG_FORMAT : Nat := 0x070D
def ABORTED_COLLECTIVE : Nat := 0x0800
def COL_TIMEOUT : Nat := 0x0801
def AUDIT_MISMATCH : Nat := 0x0802
def MIRROR_COMMIT : Nat := 0x0803
def COL_STALE : Nat := 0x0804
def COL_NO_STANDIN : Nat := 0x0805
def COL_STORE_FULL : Nat := 0x0806
def SIG_FORMAT : Nat := 0x0807
def SIG_INDEX : Nat := 0x0808
def SIG_FDOM : Nat := 0x0809
def SIG_NOT_FOUND : Nat := 0x080A
def HST_DESC_FORMAT : Nat := 0x0900
def HST_DMA : Nat := 0x0901
def HST_RES_SHORT : Nat := 0x0902
def PRT_RESET : Nat := 0x0903
def HST_NO_PART : Nat := 0x0904
def HST_PROG : Nat := 0x0905
def KEY_RETIRED : Nat := 0x0A00
def KEY_SLOT : Nat := 0x0A01
def KEY_BUSY : Nat := 0x0A02
def KEY_GEN : Nat := 0x0A03
def KEY_FORMAT : Nat := 0x0A04
def KEY_AUTH : Nat := 0x0A05
def FENCED : Nat := 0x0B00
def EPOCH_BEHIND : Nat := 0x0B01
def NOT_ADMITTED : Nat := 0x0B02
def LOAD_MISMATCH : Nat := 0x0B03
def RAS_STATE : Nat := 0x0B04
def RAS_CMD_FORMAT : Nat := 0x0B05
def FORME_FORMAT : Nat := 0x0C00
def FORME_SIG : Nat := 0x0C01
def FORME_FIELD : Nat := 0x0C02
def FORME_OVERLAP : Nat := 0x0C03
def FORME_CONSTRAINT : Nat := 0x0C04
def FORME_BASE : Nat := 0x0C05
def FORME_BOOT_ONLY : Nat := 0x0C06
def FORME_IN_USE : Nat := 0x0C07
def FORME_EPOCH : Nat := 0x0C08
def FORME_LATE : Nat := 0x0C09
def FORME_BUSY : Nat := 0x0C0A
def FORME_FW : Nat := 0x0C0B
def FORME_COMMIT : Nat := 0x0C0C

end Sys2Proof.Machine.ST
end

