-- ==== Sys2Proof/Machine/Ops.lean ====
section
/-!
DEFINITION. The named operations every family shares: register fields, counts, flags, free values, outputs,
interrupt vectors, error reports, and the partition checks of R15.
-/
namespace Sys2Proof.Machine

/-- The value of instance `i` of a register field (R6, R7). -/
def State.rd (s : State) (f : Fld) (i : Nat := 0) : Nat := KMap.get f.rst s.regs (f.key i)

/-- Set a register field to the low bits of `v`. -/
def State.wr (s : State) (f : Fld) (i v : Nat) : State :=
  { s with regs := KMap.put f.rst s.regs (f.key i) (v % 2 ^ f.wd) }

def State.flag (s : State) (f : Fld) (i : Nat := 0) : Bool := decide (s.rd f i ≠ 0)

/-- Count `n` events in a field that saturates at all ones. -/
def State.bumpBy (s : State) (f : Fld) (i n : Nat) : State := s.wr f i (min (2 ^ f.wd - 1) (s.rd f i + n))
def State.bump (s : State) (f : Fld) (i : Nat := 0) : State := s.bumpBy f i 1

/-- Add to a field that wraps. -/
def State.addWrap (s : State) (f : Fld) (i n : Nat) : State := s.wr f i (s.rd f i + n)

/-- Set the bits `m` of a field of flags. -/
def State.raise (s : State) (f : Fld) (i m : Nat) : State := s.wr f i (s.rd f i ||| m)

/-- Draw a free value. -/
def State.draw (s : State) : Nat := Config.freeNat s.freeIx
def State.drawn (s : State) : State := { s with freeIx := s.freeIx + 1 }

def State.emit (s : State) (m : OutMsg) : State := { s with out := m :: s.out }

/-- Bytes go out to the host for a descriptor, and are counted (chapter 14). -/
def hostOut (part ring seq : Nat) (data : Bytes) (s : State) : State :=
  (s.emit (.hostWrite part ring seq data)).addWrap HST_TX_BYTES.BYTES 0 data.length

/-- The number of a requester's own copy of a select register (R471). -/
def whoIx : Requester → Nat
  | .pf => 0
  | .rsp => 1
  | .mgt => 2
  | .vf n => 3 + n

/-- Signal MSI-X vector `v` of partition `p` (R328, R329): a masked vector sets its pending bit. -/
def signal (p v : Nat) (s : State) : State :=
  if bitOf (KMap.get 0 s.hst.msixOpen p) v then s.emit (.msix p v)
  else { s with hst.msixPend := KMap.put 0 s.hst.msixPend p (setBit (KMap.get 0 s.hst.msixPend p) v) }

/-- Signal the node's own vector, 62 of partition 0 (R473). -/
def signalNode (s : State) : State := signal 0 62 s

/-- A domain other than D0 is held in reset. -/
def nodeHeld (s : State) : Bool := !s.pcm.pwrGood || s.pcm.rstHeld || s.pcm.tapHeld || s.pcm.thermtrip

/-- The root security processor runs its firmware: past step 3 of Table 15.1, not in ROM recovery, and not stopped. -/
def rspRuns (s : State) : Bool :=
  !nodeHeld s && decide (3 ≤ s.rd RSP_BOOT_STS.STEP) && !s.flag RSP_BOOT_STS.FAIL && decide (s.rd PCM_STATE.NODE ≠ 3)

/-- The events that come at a period: the regulator's refill (R206), the catchword's sweep (R190), the rehash of the forme
(R345), the sensors' samples (R455), and the comparison of the neighbors (R386). -/
inductive Period where
  | refill | sweep | rehash | sample | evaluate
  deriving DecidableEq, Repr

def Period.ix : Period → Nat
  | .refill => 0
  | .sweep => 1
  | .rehash => 2
  | .sample => 3
  | .evaluate => 4

/-- Whether a period of `ns` has passed since an event last came, if it ever has. -/
def State.due (s : State) (p : Period) (ns : Nat) : Bool :=
  match KMap.find? s.periods p.ix with
  | some t => decide (t + ns ≤ s.now)
  | none => true

/-- An event of a period: what it does when it is due, and nothing before. -/
def State.atPeriod (p : Period) (ns : Nat) (act : State → State) (s : State) : State :=
  if s.due p ns then act { s with periods := KMap.insert s.periods p.ix s.now } else s

/-- The number of a handler. -/
def handlerIx : Handler → Nat
  | .cell b c => 16 * b + c
  | .platen k u => 1024 + 64 * k + u
  | .block g => 1536 + g
  | .region r => 1600 + r
  | .chip => 1604

/-- Queue entries of a handler (Table 1.1). -/
def handlerCap : Handler → Nat
  | .cell _ _ => 8
  | .platen _ _ => 8
  | .block _ => 8
  | .region _ => 32
  | .chip => 32

/-- The level of a handler: 0 cell, 1 block, 2 region, 3 chip (Table 16.2). -/
def handlerLevel : Handler → Nat
  | .cell _ _ => 0
  | .platen _ _ => 0
  | .block _ => 1
  | .region _ => 2
  | .chip => 3

/-- The handler one level up; a platen unit's records pass to its region's handler (R369). -/
def handlerUp : Handler → Handler
  | .cell b _ => .block b
  | .platen k _ => .region (k / 2)
  | .block g => .region (g / 16)
  | .region _ => .chip
  | .chip => .chip

/-- Take step 1 and step 3 of R378 at once (R379): the node's state, the cause, and every block's clock. -/
def fenceNow (cause : Nat) (s : State) : State :=
  let s := (s.wr RAS_NODE_STS.STATE 0 3).wr RAS_NODE_STS.FENCE_CAUSE 0 cause
  (List.range 64).foldl (fun s b => s.wr CMP_SEQ_STS.CLK_ON b 0) (s.bump (RAS_CNT.COUNT 6))

/-- A record lost at a full queue (R117, R369): the overflow flag and the count of the handler. -/
def recordLost (h : Handler) (r : ErrRec) (s : State) : State :=
  match h with
  | .cell b _ => (s.wr CMP_ERRQ_STS.CELL_OVF b 1).bump CMP_ERRQ_STS.CELL_LOST b
  | .block g => (s.wr CMP_ERRQ_STS.BLK_OVF g 1).bump CMP_ERRQ_STS.BLK_LOST g
  | .platen k _ => s.bump (PLT_CNT.COUNT 7) k
  | .region k => (s.wr (RAS_QSTS.OVF k) 0 1).bump (RAS_QSTS.LOST k)
  | .chip =>
    let s := (s.wr (RAS_QSTS.OVF 4) 0 1).bump (RAS_QSTS.LOST 4)
    if r.sev = 3 then fenceNow 1 s else s

/-- The state of a handler. -/
def State.hand (s : State) (h : Handler) : HandlerSt := KMap.get {} s.ras.handlers (handlerIx h)

def State.setHand (s : State) (h : Handler) (x : HandlerSt) : State :=
  { s with ras.handlers := KMap.put {} s.ras.handlers (handlerIx h) x }

/-- The unit of a record at a handler (R368): its subsystem at chip level. Below that a handler serves one unit, and every
record there is of it. -/
def recWho (h : Handler) (r : ErrRec) : Nat := if (handlerLevel h) = 3 then r.subsys else 0

/-- Enter a record at a handler (R367–R369). An idle handler takes it at once; Table 16.4 rules the rest.
`n` bounds the passes up the levels. -/
def enter : Nat → Handler → ErrRec → State → State
  | 0, _, _, s => s
  | n + 1, h, r, s =>
    let h := if r.sev = 3 then .chip else h
    let x := s.hand h
    match x.cur with
    | none => s.setHand h { x with cur := some r, since := s.now }
    | some c =>
      if r.sev = 3 ∧ c.sev = 3 then fenceNow 1 s
      else if r.sev = 2 ∧ c.sev = 2 ∧ recWho h r = recWho h c then
        let s := s.bump (RAS_CNT.COUNT 4)
        match h with
        | .chip => enter n .chip { r with escalated := true, sev := 3 } s
        | _ => enter n (handlerUp h) { r with escalated := true } s
      else if (handlerCap h) ≤ x.queue.length then recordLost h r s
      else s.setHand h { x with queue := x.queue ++ [r] }

/-- Report an error record to a handler (R365, R367), stamped with fabric time. -/
def report (h : Handler) (r : ErrRec) (s : State) : State :=
  enter 5 h { r with level := (handlerLevel h), time := s.rd TIME_NOW.NS } s

/-- A consumption of poisoned data (R373): counted, and reported as a contained record at a level. -/
def poisonUse (h : Handler) (subsys unit : Nat) (part : Option Nat) (status addr : Nat) (s : State) : State :=
  report h { poison := true, sev := 2, subsys := subsys, cause := Config.causeCode 40, unit := unit, part := part,
             status := status, addr := addr } (s.bump (RAS_CNT.COUNT 5))

/-- An error that the hardware corrected (Table 16.1), reported at a level. -/
def corrected (h : Handler) (subsys unit : Nat) (part : Option Nat) (action addr : Nat) (s : State) : State :=
  report h { sev := 1, subsys := subsys, cause := Config.causeCode 42, unit := unit, part := part, action := action, addr := addr } s

/-- The partition that owns channel set `set` of stack `k`, or none (R57). -/
def setOwner (s : State) (k set : Nat) : Option Nat :=
  if s.flag (STK_SET_OWNER.ASSIGNED set) k then some (s.rd (STK_SET_OWNER.OWNER set) k) else none

/-- The partition that owns block `g`, or none (R102). -/
def blockOwner (s : State) (g : Nat) : Option Nat :=
  if s.flag CMP_OWNER.ASSIGNED g then some (s.rd CMP_OWNER.OWNER g) else none

/-- Whether stack `k` refuses accesses: fenced itself (R65), or in a fenced region (R376). -/
def stackShut (s : State) (k : Nat) : Bool := s.flag STK_STS.FENCED k || bitOf (s.rd RAS_RFENCE_STS.FENCED) (k / 2)

/-- A resource with an owner is served to its owner, and one with none to partition 0; partition 0 is served
everywhere (R15, R57). -/
def ownerAllows (owner : Option Nat) (part : Nat) : Bool := part == 0 || owner == some part

/-- Stack of an upper-case offset (Table 3.2). -/
def offStack (a : Nat) : Nat := bits a 33 3
/-- Channel set within the stack (Table 3.2). -/
def offSet (a : Nat) : Nat := bits a 30 3

/-- 768 GiB (R56). -/
def upperSize : Nat := 768 * 2 ^ 30

/-- The check of R15 at the target of a gutter request. -/
def gutAllows (s : State) (part : Nat) : GutTarget → Bool
  | .upper off => ownerAllows (setOwner s (offStack off) (offSet off)) part
  | .galleyWay r w =>
    let owner := if s.flag (GAL_WAY_OWNER.ASSIGNED w) r then some (s.rd (GAL_WAY_OWNER.OWNER w) r) else none
    if part = 0 then !(s.flag (GAL_WAY_OWNER.SEALED w) r) else owner == some part
  | .block g => ownerAllows (blockOwner s g) part
  | .keySlots => false

end Sys2Proof.Machine
end

