-- ==== Sys2Proof/Machine/Charge.lean ====
section
/-!
DEFINITION. Charges (R208, R209, R212): the items, the energy model, a partition's totals, and what an attempt or a
partition's overhead has been charged.
-/
namespace Sys2Proof.Machine

/-- Items of Table 9.6. -/
inductive Item where
  | cmp | plt | stall | gal | stk | fab | hst | tier | warm
  deriving DecidableEq, Repr

def Item.ix : Item → Nat
  | .cmp => 0 | .plt => 1 | .stall => 2 | .gal => 3 | .stk => 4 | .fab => 5 | .hst => 6 | .tier => 7 | .warm => 9

/-- The coefficient of an item in 1/256 pJ (Table 9.3); `boost` picks the boost clock's. -/
def Item.coef (s : State) (i : Item) (boost : Bool) : Nat :=
  s.rd (REAM_EMODEL.COEF (match i with
    | .cmp => if boost then 1 else 0
    | .warm => 2 | .plt => 3 | .stall => 3 | .gal => 4 | .stk => 5 | .fab => 6 | .hst => 7 | .tier => 7))

/-- Charge a partition's totals (R212). -/
def chargePart (p : Nat) (i : Item) (n : Nat) (boost : Bool) (s : State) : State :=
  let s := s.addWrap (REAM_PACCT.VALUE i.ix) p n
  let pj := KMap.get 0 s.rea.pj p + n * i.coef s boost
  let s := { s with rea.pj := KMap.put 0 s.rea.pj p pj }
  s.wr (REAM_PACCT.VALUE 8) p (pj / 256000)

def Charge.add (c : Charge) (i : Item) (n pj : Nat) : Charge :=
  let c := { c with pj := c.pj + pj }
  match i with
  | .cmp => { c with cmp := c.cmp + n }
  | .plt => { c with plt := c.plt + n }
  | .stall => { c with plt := c.plt + n }
  | .gal => { c with gal := c.gal + n }
  | .stk => { c with stk := c.stk + n }
  | .fab => { c with fab := c.fab + n }
  | .hst => { c with hst := c.hst + n }
  | .tier => { c with tier := c.tier + n }
  | .warm => { c with cmp := c.cmp + n }

def Charge.plus (a b : Charge) : Charge :=
  { cmp := a.cmp + b.cmp, plt := a.plt + b.plt, gal := a.gal + b.gal, stk := a.stk + b.stk, fab := a.fab + b.fab,
    hst := a.hst + b.hst, tier := a.tier + b.tier, pj := a.pj + b.pj }

/-- The key of an attempt. -/
def attKey (part ream pos : Nat) (audit : Bool) : Nat := ((b2n audit * 64 + pos) * 32 + part) * 2 ^ 32 + ream

def State.att? (s : State) (k : Nat) : Option Att := KMap.find? s.col.atts k
def State.setAtt (s : State) (k : Nat) (a : Att) : State := { s with col.atts := KMap.insert s.col.atts k a }
def State.dropAtt (s : State) (k : Nat) : State := { s with col.atts := KMap.erase s.col.atts k }

/-- A charge made once the records of its attempt are formed (R208, R212): the totals take it, and as no record will carry it
the unlogged accumulators do; its energy goes to the next record of type 1. DESIGN CHOICE: the spec does not name its record. -/
def chargeLost (p : Nat) (i : Item) (n : Nat) (boost : Bool) (s : State) : State :=
  let pj := n * i.coef s boost
  let s := chargePart p i n boost s
  if s.flag REAM_ACCT_CFG.EN then
    ({ s with rea.carry := KMap.upd 0 s.rea.carry (4 * p + 1) (· + pj) }).addWrap (REAM_PUNLOG.VALUE i.ix) p n
  else s

/-- Charge a tenant of an attempt, and its partition. -/
def chargeAtt (k tenant : Nat) (i : Item) (n : Nat) (boost : Bool) (s : State) : State :=
  match s.att? k with
  | none => chargeLost (k / 2 ^ 32 % 32) i n boost s
  | some a =>
    let pj := n * i.coef s boost
    chargePart a.part i n boost
      (s.setAtt k { a with charges := KMap.insert a.charges tenant (((KMap.find? a.charges tenant).getD {}).add i n pj) })

/-- Charge a partition's overhead: claim stall or idle warm cycles, to be carried by its next type 3 record. -/
def chargeOver (p : Nat) (i : Item) (n : Nat) (s : State) : State :=
  let s' := { s with rea.rest := KMap.insert s.rea.rest p (((KMap.find? s.rea.rest p).getD {}).add i n (n * i.coef s false)) }
  chargePart p i n false s'

end Sys2Proof.Machine
end

