-- ==== Sys2Proof/Machine/Cwd.lean ====
section
/-!
DEFINITION. The catchword unit (R187–R190): search, insert, ordered insert, delete, read and the parity sweep.
-/
namespace Sys2Proof.Machine

/-- Units of a width code (R187). -/
def cwdUnits (code : Nat) : Nat := if code = 3 then 4 else code
def bankUnits (s : State) (b : Nat) : Nat := cwdUnits (s.rd (CWD_BANK_CFG.WIDTH b))
def bankPlaces (s : State) (b : Nat) : Nat := if bankUnits s b = 0 then 0 else 32768 / bankUnits s b
def cwdKey (b p : Nat) : Nat := 32768 * b + p
def cwdEnt (s : State) (b p : Nat) : Option CwdEnt := KMap.find? s.cwd.ents (cwdKey b p)

/-- The first match in the lowest selected bank of a width, at or above a position (R188). -/
def cwdSearch (s : State) (key mask banks units start : Nat) : Option (Nat × Nat × CwdEnt) :=
  (List.find? (fun e : Nat × CwdEnt =>
    let b := e.1 / 32768
    bitOf banks b && bankUnits s b == units && decide (start ≤ e.1 % 32768) && (e.2.key &&& mask) == (key &&& mask))
    s.cwd.ents).map fun e => (e.1 / 32768, e.1 % 32768, e.2)

/-- Positions free in a group of 64 (R189). -/
def groupFree (s : State) (b g : Nat) : List Nat :=
  (List.range 64).filterMap fun i => if (cwdEnt s b (64 * g + i)).isNone then some (64 * g + i) else none

def cwdPut (b p : Nat) (e : CwdEnt) (s : State) : State := { s with cwd.ents := KMap.insert s.cwd.ents (cwdKey b p) e }
def cwdDrop (b p : Nat) (s : State) : State := { s with cwd.ents := KMap.erase s.cwd.ents (cwdKey b p) }

def cwdHas (s : State) (b key : Nat) : Bool := s.cwd.ents.any fun e => e.1 / 32768 == b && e.2.key == key

/-- An insert refused: its code, counted in CWD_CNT3. -/
def cwdRefuse (st : Nat) (s : State) : Nat × Nat × State := (st, 0, s.bump (CWD_CNT.COUNT 3))

/-- An unordered insert into a bank (R189): its status and position. -/
def cwdInsert (b key res : Nat) (s : State) : Nat × Nat × State :=
  if cwdHas s b key then cwdRefuse ST.CWD_DUP s
  else
    let free := ((List.range (bankPlaces s b / 64)).map (groupFree s b)).find? fun l => decide (2 ≤ l.length)
    match free with
    | some (p :: _) => (ST.OK, p, cwdPut b p { key := key, res := res } s)
    | _ => cwdRefuse ST.CWD_GROUP_FULL s

/-- Move the entries of positions `[p, q)` up by one place. -/
def cwdShift (b p q : Nat) (s : State) : State :=
  (List.range (q - p)).foldl (fun s i =>
    match cwdEnt s b (q - 1 - i) with
    | some e => cwdPut b (q - i) e (cwdDrop b (q - 1 - i) s)
    | none => s) s

/-- An ordered insert at position `p` (R189). -/
def cwdInsertAt (b p key res : Nat) (s : State) : Nat × Nat × State :=
  if cwdHas s b key then cwdRefuse ST.CWD_DUP s
  else
    let free := groupFree s b (p / 64)
    match free.find? fun q => decide (p ≤ q) with
    | some q =>
      if p < bankPlaces s b ∧ 2 ≤ free.length then (ST.OK, p, cwdPut b p { key := key, res := res } (cwdShift b p q s))
      else cwdRefuse ST.CWD_GROUP_FULL s
    | none => cwdRefuse ST.CWD_GROUP_FULL s

/-- The first bank of a type and width, and whether there is one. -/
def bankOf (s : State) (ty units : Nat) : Option Nat :=
  (List.range 8).find? fun b => decide (s.rd (CWD_BANK_CFG.TYPE b) = ty ∧ bankUnits s b = units)

/-- Insert into the banks of a type in ascending order until one takes the entry; a key any of them holds is a duplicate. -/
def cwdInsertType (ty units key res : Nat) (s : State) : Nat × State :=
  let bs := (List.range 8).filter fun b => decide (s.rd (CWD_BANK_CFG.TYPE b) = ty ∧ bankUnits s b = units)
  if bs.any fun b => cwdHas s b key then (ST.CWD_DUP, s.bump (CWD_CNT.COUNT 3))
  else
    let (st, s) := bs.foldl (fun (r : Nat × State) b =>
      if r.1 = ST.OK then r
      else
        let (st, _, s') := cwdInsert b key res r.2
        if st = ST.OK then (st, s') else r) (ST.CWD_GROUP_FULL, s)
    if st = ST.OK then (st, s) else (st, s.bump (CWD_CNT.COUNT 3))

/-- Find and delete a key in the banks of a width; `false` when none holds it. -/
def cwdDeleteKey (units key : Nat) (s : State) : Bool × State :=
  match cwdSearch s key (2 ^ (96 * units) - 1) 255 units 0 with
  | some (b, p, _) => (true, cwdDrop b p s)
  | none => (false, s)

/-! Keys (Table 8.7). -/
def dirKey (part role conv : Nat) : Nat := 2 ^ 92 + part * 2 ^ 87 + role * 2 ^ 86 + conv
def accessKey (part src conv : Nat) : Nat := 2 * 2 ^ 92 + part * 2 ^ 87 + src * 2 ^ 64 + conv
/-- A prefix key of 2 units with a 128-bit digest. -/
def prefixKey2 (part desc len digest : Nat) : Nat :=
  (3 * 2 ^ 92 + part * 2 ^ 87 + desc * 2 ^ 79 + len * 2 ^ 32 + bits digest 96 32) + bits digest 0 96 * 2 ^ 96
/-- A prefix key of 4 units with a 256-bit digest. -/
def prefixKey4 (part desc len digest : Nat) : Nat :=
  (4 * 2 ^ 92 + part * 2 ^ 87 + desc * 2 ^ 79 + len * 2 ^ 32 + bits digest 224 32) + bits digest 128 96 * 2 ^ 96 +
    bits digest 32 96 * 2 ^ 192 + bits digest 0 32 * 2 ^ (288 + 64)

/-- The search mask that takes every bit of a key. -/
def fullMask (units : Nat) : Nat := 2 ^ (96 * units) - 1

/-- An entry that fails parity: invalidated, counted, logged and reported at chip level (R190). -/
def parityFail (b p : Nat) (s : State) : State :=
  match cwdEnt s b p with
  | none => s
  | some e =>
    let s := (cwdDrop b p s).bump (CWD_CNT.COUNT 2)
    let s := ((s.wr CWD_ERR_LOG.BANK 0 b).wr CWD_ERR_LOG.TYPE 0 (bits e.key 92 4)).wr CWD_ERR_LOG.POS 0 p
    report .chip { sev := 2, subsys := 7, cause := Config.causeCode 20, addr := p } s

def parityFails (bad : List (Nat × Nat)) (s : State) : State := bad.foldl (fun s x => parityFail x.1 x.2 s) s

/-- The key and mask registers as numbers. -/
def cwdRegKey (s : State) (units : Nat) : Nat :=
  (List.range (3 * units)).foldl (fun n k => n + s.rd (CWD_KEY.BITS k) * 2 ^ (32 * k)) 0
def cwdRegMask (s : State) (units : Nat) : Nat :=
  (List.range (3 * units)).foldl (fun n k => n + s.rd (CWD_MASK.BITS k) * 2 ^ (32 * k)) 0

def cwdResult (hit b p res : Nat) (s : State) : State :=
  (((s.wr CWD_RES.HIT 0 hit).wr CWD_RES.BANK 0 b).wr CWD_RES.POS 0 p).wr CWD_RES.RESULT 0 res

/-- R188: a search command; entries of `bad` fail parity when they are read. -/
def execCwdSearch (width banks pos : Nat) (bad : List (Nat × Nat)) (s : State) : Host.Outcome State Fault Refusal :=
  let s := parityFails bad (s.bump (CWD_CNT.COUNT 0))
  let u := cwdUnits width
  match cwdSearch s (cwdRegKey s u) (cwdRegMask s u) banks u pos with
  | some (b, p, e) => .next ((cwdResult 1 b p e.res s).wr CWD_STS.STATUS 0 ST.OK)
  | none => .next ((s.wr CWD_RES.HIT 0 0).wr CWD_STS.STATUS 0 ST.CWD_NOT_FOUND)

/-- The end of an insert command: its status, and its place in CWD_RES. -/
def cwdInsertDone (b : Nat) (r : Nat × Nat × State) : State :=
  let (st, p, s) := r
  let s := if st = ST.OK then (s.wr CWD_RES.BANK 0 b).wr CWD_RES.POS 0 p else s
  s.wr CWD_STS.STATUS 0 st

/-- R189: an unordered insert command into bank BANKS[2:0]. -/
def execCwdInsert (width bank : Nat) (s : State) : Host.Outcome State Fault Refusal :=
  let b := bank % 8
  let u := cwdUnits width
  if bankUnits s b = u ∧ 0 < u then .next (cwdInsertDone b (cwdInsert b (cwdRegKey s u) (s.rd CWD_DATA.RESULT) s))
  else .next (cwdInsertDone b (cwdRefuse ST.CWD_GROUP_FULL s))

/-- R189: an ordered insert command at POS. -/
def execCwdInsertOrdered (width bank pos : Nat) (s : State) : Host.Outcome State Fault Refusal :=
  let b := bank % 8
  let u := cwdUnits width
  if bankUnits s b = u ∧ 0 < u then .next (cwdInsertDone b (cwdInsertAt b pos (cwdRegKey s u) (s.rd CWD_DATA.RESULT) s))
  else .next (cwdInsertDone b (cwdRefuse ST.CWD_GROUP_FULL s))

/-- R189: a delete at POS. -/
def execCwdDelete (bank pos : Nat) (s : State) : Host.Outcome State Fault Refusal :=
  match cwdEnt s (bank % 8) pos with
  | some _ => .next ((cwdDrop (bank % 8) pos s).wr CWD_STS.STATUS 0 ST.OK)
  | none => .next (s.wr CWD_STS.STATUS 0 ST.CWD_NOT_FOUND)

/-- R189: a read at POS into CWD_KEY, with its result word; `bad` fails parity (R190). -/
def execCwdRead (bank pos : Nat) (bad : Bool) (s : State) : Host.Outcome State Fault Refusal :=
  let s := if bad then parityFail (bank % 8) pos s else s
  match cwdEnt s (bank % 8) pos with
  | some e =>
    let s := (List.range 12).foldl (fun s k => s.wr (CWD_KEY.BITS k) 0 (bits e.key (32 * k) 32)) s
    .next ((cwdResult 1 (bank % 8) pos e.res s).wr CWD_STS.STATUS 0 ST.OK)
  | none => .next ((s.wr CWD_RES.HIT 0 0).wr CWD_STS.STATUS 0 ST.CWD_NOT_FOUND)

/-- R190: the sweep of every bank; entries of `bad` fail parity. -/
def execCwdParitySweep (bad : List (Nat × Nat)) (s : State) : Host.Outcome State Fault Refusal :=
  .next (s.atPeriod .sweep 1000000 (parityFails bad))

/-- R187: a change of a bank's width or type invalidates every entry of the bank. -/
def cwdBankChange (b : Nat) (s : State) : State :=
  { s with cwd.ents := s.cwd.ents.filter fun e => e.1 / 32768 != b }

end Sys2Proof.Machine
end

