-- ==== Sys2Proof/Machine/Fp.lean ====
section
/-!
DEFINITION. Number formats (R36, Table 2.3): exact values, and rounding to a format. A finite value is a signed
dyadic ±m × 2^e; sums and products are exact and rounded once.
-/
namespace Sys2Proof.Machine

/-- A decoded value. -/
inductive Num where
  | nan
  | inf (neg : Bool)
  | fin (neg : Bool) (m : Nat) (e : Int)
  deriving DecidableEq, Repr

/-- A binary format: exponent bits, fraction bits, bias, and whether it has infinities (E4M3 has none). -/
structure Fmt where
  eb   : Nat
  mb   : Nat
  bias : Int
  infs : Bool
  deriving DecidableEq, Repr

def fp32 : Fmt := ⟨8, 23, 127, true⟩
def fp16 : Fmt := ⟨5, 10, 15, true⟩
def bf16 : Fmt := ⟨8, 7, 127, true⟩
def e4m3 : Fmt := ⟨4, 3, 7, false⟩
def e5m2 : Fmt := ⟨5, 2, 15, true⟩

def Fmt.width (f : Fmt) : Nat := 1 + f.eb + f.mb
def Fmt.signBit (f : Fmt) : Nat := 2 ^ (f.eb + f.mb)
/-- The pattern of +∞, or for E4M3 one past the largest finite pattern. -/
def Fmt.top (f : Fmt) : Nat := if f.infs then (2 ^ f.eb - 1) * 2 ^ f.mb else 2 ^ (f.eb + f.mb) - 1
/-- The pattern of a NaN result: its sign and, where the format has more than one NaN, its payload are open. -/
def Fmt.qnan (f : Fmt) : Nat :=
  let b := Config.nanBits f.eb f.mb
  b % 2 * f.signBit + (if f.infs then (2 ^ f.eb - 1) * 2 ^ f.mb + 1 + b / 2 % (2 ^ f.mb - 1) else 2 ^ (f.eb + f.mb) - 1)

/-- The value of a pattern (Table 2.3). -/
def Fmt.dec (f : Fmt) (w : Nat) : Num :=
  let neg := bitOf w (f.eb + f.mb)
  let ex := bits w f.mb f.eb
  let fr := bits w 0 f.mb
  if f.infs ∧ ex = 2 ^ f.eb - 1 then (if fr = 0 then .inf neg else .nan)
  else if ¬ f.infs ∧ ex = 2 ^ f.eb - 1 ∧ fr = 2 ^ f.mb - 1 then .nan
  else if ex = 0 then .fin neg fr (1 - f.bias - f.mb)
  else .fin neg (fr + 2 ^ f.mb) ((ex : Int) - f.bias - f.mb)

/-- How a value between two neighbours is rounded: to nearest with ties to even, or away from zero. -/
inductive Rnd where
  | rne
  | away
  deriving DecidableEq, Repr

/-- `m / 2^k` rounded to an integer. -/
def shiftRnd (r : Rnd) (m k : Nat) : Nat :=
  let q := m / 2 ^ k
  let rem := m % 2 ^ k
  match r with
  | .away => if rem = 0 then q else q + 1
  | .rne =>
    if k = 0 then q
    else if 2 ^ (k - 1) < rem ∨ (rem = 2 ^ (k - 1) ∧ q % 2 = 1) then q + 1 else q

/-- The magnitude pattern of m × 2^e rounded to a format, not yet checked against the top. -/
def Fmt.mag (f : Fmt) (r : Rnd) (m : Nat) (e : Int) : Nat :=
  if m = 0 then 0
  else
    let q : Int := max (e + Nat.log2 m) (1 - f.bias) - f.mb
    let m' := if q ≤ e then m * 2 ^ (e - q).toNat else shiftRnd r m (q - e).toNat
    ((q + f.mb + f.bias) * 2 ^ f.mb).toNat + m' - 2 ^ f.mb

/-- Round a value to a format. With `sat`, finite values beyond the largest finite saturate to it; an infinity
saturates only where the format has none (R38). -/
def Fmt.enc (f : Fmt) (r : Rnd) (sat : Bool) : Num → Nat
  | .nan => f.qnan
  | .inf neg => (if neg then f.signBit else 0) + (if f.infs then f.top else f.top - 1)
  | .fin neg m e =>
    let g := f.mag r m e
    (if neg then f.signBit else 0) + (if f.top ≤ g then (if sat ∨ ¬ f.infs then f.top - 1 else f.top) else g)

/-- Round to FP32, ties to even (rn_fp32). -/
def rn32 (x : Num) : Nat := fp32.enc .rne false x
def of32 (w : Nat) : Num := fp32.dec w

def Num.neg : Num → Num
  | .nan => .nan
  | .inf n => .inf (!n)
  | .fin n m e => .fin (!n) m e

/-- Exact product. -/
def Num.mul : Num → Num → Num
  | .nan, _ => .nan
  | _, .nan => .nan
  | .inf a, .inf b => .inf (a != b)
  | .inf a, .fin b m _ => if m = 0 then .nan else .inf (a != b)
  | .fin a m _, .inf b => if m = 0 then .nan else .inf (a != b)
  | .fin a m e, .fin b n g => .fin (a != b) (m * n) (e + g)

/-- The signed integer a value is at scale 2^e; `e` at most the value's own exponent. -/
def alignAt (neg : Bool) (m : Nat) (e low : Int) : Int :=
  let v : Int := m * 2 ^ (e - low).toNat
  if neg then -v else v

def ofSigned (i : Int) (e : Int) (zeroNeg : Bool) : Num :=
  if i = 0 then .fin zeroNeg 0 e else .fin (decide (i < 0)) i.natAbs e

/-- Exact sum. A zero sum of unlike signs is +0. -/
def Num.add : Num → Num → Num
  | .nan, _ => .nan
  | _, .nan => .nan
  | .inf a, .inf b => if a = b then .inf a else .nan
  | .inf a, .fin _ _ _ => .inf a
  | .fin _ _ _, .inf b => .inf b
  | .fin a m e, .fin b n g =>
    let low := min e g
    ofSigned (alignAt a m e low + alignAt b n g low) low (a && b)

def Num.ofInt (i : Int) : Num := ofSigned i 0 false
def Num.pow2 (e : Int) : Num := .fin false 1 e
def Num.isNan : Num → Bool
  | .nan => true
  | _ => false
def Num.isInf : Num → Bool
  | .inf _ => true
  | _ => false
def Num.isZero : Num → Bool
  | .fin _ m _ => m == 0
  | _ => false
def Num.negative : Num → Bool
  | .nan => false
  | .inf n => n
  | .fin n m _ => n && m != 0
def Num.abs : Num → Num
  | .nan => .nan
  | .inf _ => .inf false
  | .fin _ m e => .fin false m e

/-- Order of values; NaN is unordered, and zeros of both signs are equal. -/
def Num.lt : Num → Num → Bool
  | .nan, _ => false
  | _, .nan => false
  | .inf a, .inf b => a && !b
  | .inf a, .fin _ _ _ => a
  | .fin _ _ _, .inf b => !b
  | .fin a m e, .fin b n g =>
    let low := min e g
    decide (alignAt a m e low < alignAt b n g low)

def Num.le (a b : Num) : Bool := !a.isNan && !b.isNan && !(b.lt a)

/-- The larger of two; a NaN wins. -/
def Num.max2 (a b : Num) : Num := if a.isNan then a else if b.isNan then b else if a.lt b then b else a

/-- FP32 arithmetic on patterns, each result rounded once. -/
def fadd (a b : Nat) : Nat := rn32 ((of32 a).add (of32 b))
def fmul (a b : Nat) : Nat := rn32 ((of32 a).mul (of32 b))
def fsub (a b : Nat) : Nat := rn32 ((of32 a).add (of32 b).neg)

def posZero : Nat := 0
def minusInf32 : Nat := 0xFF800000

/-- The quotient p / (q × 2^0) as a dyadic with a sticky bit at its end, fit for one later rounding. -/
def ratio (p q : Nat) (e : Int) : Num :=
  .fin false ((p * 2 ^ 96 / q) * 2 + (if p * 2 ^ 96 % q = 0 then 0 else 1)) (e - 97)

/-- |x| / |y| rounded to an integer, ties to even. -/
def divRne (m : Nat) (e : Int) (n : Nat) (g : Int) : Nat :=
  let p := if g ≤ e then m * 2 ^ (e - g).toNat else m
  let q := if g ≤ e then n else n * 2 ^ (g - e).toNat
  if q = 0 then 0
  else
    let t := p / q
    let r := p % q
    if q < 2 * r ∨ (2 * r = q ∧ t % 2 = 1) then t + 1 else t

/-- Round a finite value to an integer, ties to even. -/
def rneInt (neg : Bool) (m : Nat) (e : Int) : Int :=
  let v : Int := if 0 ≤ e then m * 2 ^ e.toNat else shiftRnd .rne m (-e).toNat
  if neg then -v else v

/-- Element formats by code (Table 2.3). -/
def fmtOf (code : Nat) : Fmt :=
  if code = 0 then fp16 else if code = 1 then bf16 else if code = 2 then e4m3 else e5m2

/-- Whether a format code is block-scaled: INT8, INT4 or MXFP4. -/
def scaled (code : Nat) : Bool := decide (4 ≤ code ∧ code ≤ 6)

/-- Bits of an element of a format code. -/
def elemBits (code : Nat) : Nat :=
  if code ≤ 1 then 16 else if code ≤ 4 then 8 else 4

/-- Bytes of a scale: FP16 for INT8 and INT4, E8M0 for MXFP4. -/
def scaleBytes (code : Nat) : Nat := if code = 4 ∨ code = 5 then 2 else if code = 6 then 1 else 0

/-- Twice the E2M1 value of a 4-bit pattern. -/
def e2m1Twice (w : Nat) : Int :=
  let v : Int := ([0, 1, 2, 3, 4, 6, 8, 12] : List Int).getD (w % 8) 0
  if bitOf w 3 then -v else v

/-- ival of R39: the integer element, or twice the E2M1 value. -/
def ival (code w : Nat) : Int :=
  if code = 4 then sInt 8 w else if code = 5 then sInt 4 w else e2m1Twice w

/-- The scale of a block, widened exactly; E8M0 0xFF is NaN. -/
def scaleVal (code w : Nat) : Num :=
  if code = 6 then (if w = 255 then .nan else .pow2 ((w : Int) - 127)) else fp16.dec w

/-- f of R39: 0.5 for MXFP4, 1 otherwise. -/
def fOf (code : Nat) : Num := if code = 6 then .pow2 (-1) else .pow2 0

/-- The value of a stored element under its scale. -/
def elemVal (code w scale : Nat) : Num :=
  if scaled code then ((scaleVal code scale).mul (fOf code)).mul (Num.ofInt (ival code w)) else (fmtOf code).dec w

/-- One block of R39: t[b] from the integer sum and the two scales. -/
def blockTerm (qc kc qs ks : Nat) (sum : Int) : Nat :=
  let c := rn32 ((((scaleVal qc qs).mul (scaleVal kc ks)).mul (fOf qc)).mul (fOf kc))
  rn32 ((of32 c).mul (Num.ofInt sum))

/-- The ordered sum of R39: the first term, then the others in ascending order, rounded each time. -/
def orderedSum : List Nat → Nat
  | [] => posZero
  | t :: r => r.foldl fadd t

/-- Quantize 32 inputs to a block-scaled format by the node's rules (R38, Table 2.4): scale and elements. -/
def quantBlock (code : Nat) (xs : List Num) : Nat × List Nat :=
  let top : Nat := if code = 4 then 127 else 7
  let w := elemBits code
  let mx := (xs.map Num.abs).foldl Num.max2 (.fin false 0 0)
  if xs.any Num.isNan then (if code = 6 then 255 else 0x7E00, xs.map fun _ => 0)
  else if mx.isZero then (0, xs.map fun _ => 0)
  else if code = 6 then
    let e : Nat := match mx with
      | .fin _ m e => (min 254 (max 0 (e + Nat.log2 m - 2 + 127))).toNat
      | _ => 254
    (e, xs.map fun x =>
      match x with
      | .inf n => (if n then 8 else 0) + 7
      | .nan => 0
      | .fin n m g =>
        (if n then 8 else 0) + min 7 ((⟨2, 1, 1, false⟩ : Fmt).mag .rne m (g - ((e : Int) - 127))))
  else
    match mx with
    | .fin _ m e =>
      let s := fp16.enc .away false (ratio m top e)
      (s, xs.map fun x =>
        match x, fp16.dec s with
        | .fin n a g, .fin _ sm sg =>
          let q : Int := min top (divRne a g sm sg)
          ofInt w (if n then -q else q)
        | _, _ => 0)
    | _ =>
      (0x7C00, xs.map fun x =>
        match x with
        | .inf n => ofInt w (if n then -(top : Int) else top)
        | _ => 0)

end Sys2Proof.Machine
end

