-- ==== Sys2Proof/Machine/Folio.lean ====
section
/-!
DEFINITION. Folio geometry (R35, R37, R40): section offsets, row bytes, element and scale reads, and the fixed
part of the header (Table 2.5).
-/
namespace Sys2Proof.Machine

/-- The body starts at this header offset (R40). -/
def bodyOff : Nat := 0x9C0

def elemBytes (code n : Nat) : Nat := n * elemBits code / 8

/-- Section sizes in bytes: key elements, key scales, value elements, value scales (R37). -/
def Geo.keyLen (g : Geo) : Nat := elemBytes g.kf (g.span * g.d)
def Geo.keyScaleLen (g : Geo) : Nat := g.span * (g.d / 32) * scaleBytes g.kf
def Geo.valLen (g : Geo) : Nat := elemBytes g.vf (g.span * g.d)
def Geo.valScaleLen (g : Geo) : Nat := g.span * (g.d / 32) * scaleBytes g.vf

/-- Section starts within the solid payload. -/
def Geo.keyOff (_ : Geo) : Nat := 0
def Geo.keyScaleOff (g : Geo) : Nat := g.keyLen
def Geo.valOff (g : Geo) : Nat := g.keyLen + g.keyScaleLen
def Geo.valScaleOff (g : Geo) : Nat := g.keyLen + g.keyScaleLen + g.valLen
/-- The solid payload (R35). -/
def Geo.solid (g : Geo) : Nat := g.keyLen + g.keyScaleLen + g.valLen + g.valScaleLen

/-- Element `i` of packed bytes in a format. -/
def elemAt (code : Nat) (bs : Bytes) (i : Nat) : Nat :=
  if elemBits code = 16 then leAt bs (2 * i) 2
  else if elemBits code = 8 then leAt bs i 1
  else bits (leAt bs (i / 2) 1) (4 * (i % 2)) 4

/-- Scale `i` of packed bytes in a format. -/
def scaleAt (code : Nat) (bs : Bytes) (i : Nat) : Nat := leAt bs (scaleBytes code * i) (scaleBytes code)

/-- Pack elements into bytes; 4-bit elements fill the low half first (R37). -/
def packElems (code : Nat) : List Nat → Bytes
  | [] => []
  | [a] => if elemBits code = 16 then natLe 2 a else natLe 1 a
  | a :: b :: r =>
    if elemBits code = 16 then natLe 2 a ++ packElems code (b :: r)
    else if elemBits code = 8 then natLe 1 a ++ packElems code (b :: r)
    else natLe 1 (a % 16 + 16 * (b % 16)) ++ packElems code r

def Hdr.ofBytes (b : Bytes) : Hdr :=
  let f := leAt b 3 1
  { ver := leAt b 0 2, desc := leAt b 2 1, closed := bitOf f 2, sealed := bitOf f 1, kerned := bitOf f 0,
    folio := leAt b 4 4, conv := leAt b 8 6, part := leAt b 0xE 1 % 32, layer := leAt b 0x10 2,
    group := leAt b 0x12 2, base := leAt b 0x14 4, fill := leAt b 0x18 2, blocks := leAt b 0x1A 2,
    kLen := leAt b 0x1C 4, slot := leAt b 0x20 2, gen := leAt b 0x22 2 }

def Hdr.toBytes (h : Hdr) : Bytes :=
  natLe 2 h.ver ++ natLe 1 h.desc ++ natLe 1 (b2n h.kerned + 2 * b2n h.sealed + 4 * b2n h.closed) ++
  natLe 4 h.folio ++ natLe 6 h.conv ++ natLe 1 h.part ++ natLe 1 0 ++ natLe 2 h.layer ++ natLe 2 h.group ++
  natLe 4 h.base ++ natLe 2 h.fill ++ natLe 2 h.blocks ++ natLe 4 h.kLen ++ natLe 2 h.slot ++ natLe 2 h.gen ++
  natLe 28 0

end Sys2Proof.Machine
end

