-- ==== Sys2Proof/Machine/FormeRead.lean ====
section
/-!
DEFINITION. What the active forme says (Tables 17.5–17.7): partitions, policies, descriptors, masks, rotary
records, entries, platen programs and failure domains, read from the bytes of its sections.
-/
namespace Sys2Proof.Machine

/-- A section of an image; absent is empty. -/
def FormeImg.sec (f : FormeImg) (ty inst : Nat) : Bytes := KMap.get [] f.secs (256 * ty + inst)

def secOf (s : State) (ty : Nat) (inst : Nat := 0) : Bytes := s.fme.active.sec ty inst

/-! PART sections (Table 17.6). -/
def FormeImg.defined (f : FormeImg) (p : Nat) : Bool := bitOf (leAt (f.sec 2 p) 0 1) 0
def partDefined (s : State) (p : Nat) : Bool := s.fme.active.defined p
def partMode (s : State) (p bit : Nat) : Bool := bitOf (leAt (secOf s 2 p) 0 1) bit
def modeSealed (s : State) (p : Nat) : Bool := partMode s p 1
def modeMirror (s : State) (p : Nat) : Bool := partMode s p 2
def modeProt (s : State) (p : Nat) : Bool := partMode s p 3
def modeFast (s : State) (p : Nat) : Bool := partMode s p 4
def modeEnergy (s : State) (p : Nat) : Bool := partMode s p 5

def polOfBytes (b : Bytes) : Policy :=
  { acl := bitOf (leAt b 1 1) 1, press := bitOf (leAt b 1 1) 0, weight := leAt b 2 1, thr := leAt b 4 2,
    gangWait := leAt b 6 2, maxReams := leAt b 8 2, poolMax := leAt b 0xA 2,
    classes := (List.range 16).map fun c => leAt b (0x10 + c) 1 }

/-- The record of a table section whose key field matches. -/
def findRec (b : Bytes) (n base size keyLen key : Nat) : Option Bytes :=
  ((List.range n).map fun k => slice b (base + size * k) size).find? fun r => leAt r 0 keyLen = key

def FormeImg.policy? (f : FormeImg) (id : Nat) : Option Policy :=
  let b := f.sec 6 0
  (findRec b (leAt b 0 1) 0x40 32 1 id).map polOfBytes

def policyOf (s : State) (p : Nat) : Policy :=
  (s.fme.active.policy? (leAt (secOf s 2 p) 1 1 % 32)).getD {}

/-! Format descriptors (Table 2.1). -/
structure Desc where
  geo    : Geo := {}
  policy : Nat := 0
  deriving DecidableEq, Repr

def descOfBytes (b : Bytes) : Desc :=
  { geo := { kf := leAt b 1 1 % 16, vf := leAt b 1 1 / 16, d := 32 * leAt b 2 1, span := 2 ^ (leAt b 3 1 % 16) }
    policy := leAt b 4 1 % 4 }

def FormeImg.desc? (f : FormeImg) (id : Nat) : Option Desc :=
  let b := f.sec 3 0
  (findRec b (leAt b 0 2) 0x40 8 1 id).map descOfBytes

def desc? (s : State) (id : Nat) : Option Desc := s.fme.active.desc? id
def descOf (s : State) (id : Nat) : Desc := (desc? s id).getD {}

/-! Mask programs (Table 7.4) and rotary records (Table 17.7). -/
structure Mask where
  bitmap : Bool := false
  windowed : Bool := false
  causal : Bool := false
  bmG    : Nat := 6
  window : Nat := 0
  sinks  : Nat := 0
  deriving DecidableEq, Repr

def maskOfBytes (b : Bytes) : Mask :=
  { bitmap := bitOf (leAt b 1 1) 2, windowed := bitOf (leAt b 1 1) 1, causal := bitOf (leAt b 1 1) 0,
    bmG := leAt b 2 1 % 16, window := leAt b 4 4, sinks := leAt b 8 4 }

def mask? (s : State) (id : Nat) : Option Mask :=
  let b := secOf s 4
  (findRec b (leAt b 0 2) 0x40 16 1 id).map maskOfBytes

def round64 (n : Nat) : Nat := (n + 63) / 64 * 64

/-- The rotary records from an offset on: descriptor, mode and frequencies. -/
def rotaries (f : FormeImg) : Nat → Nat → List (Nat × Nat × Bytes)
  | 0, _ => []
  | n + 1, o =>
    let b := f.sec 4 0
    let id := leAt b o 1
    let d := ((f.desc? id).map fun x => x.geo.d).getD 32
    (id, leAt b (o + 1) 1 % 2, slice b (o + 0x40) (2 * d)) :: rotaries f n (round64 (o + 0x40 + 2 * d))

def rotary? (s : State) (id : Nat) : Option (Nat × Bytes) :=
  let b := secOf s 4
  ((rotaries s.fme.active (leAt b 2 2) (round64 (0x40 + 16 * leAt b 0 2))).find? fun r => r.1 = id).map (·.2)

/-! Entry records and platen programs (Table 17.7). -/
def entryRec (s : State) (id : Nat) : Bytes :=
  let b := secOf s 5
  (findRec b (leAt b 0 2) 0x40 8 1 id).getD []
def entryGalley (s : State) (id : Nat) : Nat := leAt (entryRec s id) 2 2
def entryPress (s : State) (id : Nat) : Nat := leAt (entryRec s id) 4 2
def entryAppend (s : State) (id : Nat) : Nat := leAt (entryRec s id) 6 2

/-- The command words of a platen program (R325). -/
def platenProg? (s : State) (id : Nat) : Option (List Nat) :=
  let b := secOf s 5
  (findRec b (leAt b 2 2) 0x11000 8 2 id).map fun r =>
    (List.range (leAt r 2 1)).map fun i => leAt b (leAt r 4 4 + 8 * i) 8

/-- The failure domain of a node under the FABRIC section; `none` outside every range. -/
def FormeImg.fdom (f : FormeImg) (n : Nat) : Option Nat :=
  let b := f.sec 8 0
  (((List.range (leAt b 0x84 2)).map fun k => slice b (0xC0 + 8 * k) 8).find? fun r =>
    decide (leAt r 0 2 ≤ n ∧ n ≤ leAt r 2 2)).map fun r => leAt r 4 2
def fdom (s : State) (n : Nat) : Option Nat := s.fme.active.fdom n

def nodeId (s : State) : Nat := s.rd FAB_NODE_ID.NODE_ID

/-- Whether a folio with these formats may be served in press mode, apart from its header and extent (R80). -/
def pressFormats (g : Geo) : Bool :=
  decide (4 ≤ g.kf ∧ g.kf ≤ 6 ∧ 4 ≤ g.vf ∧ g.vf ≤ 6 ∧ (g.d = 32 ∨ g.d = 64 ∨ g.d = 128 ∨ g.d = 256))

/-- Row bytes of a plane (R35). -/
def Geo.keyRow (g : Geo) : Nat := elemBytes g.kf g.d + g.d / 32 * scaleBytes g.kf
def Geo.valRow (g : Geo) : Nat := elemBytes g.vf g.d + g.d / 32 * scaleBytes g.vf

/-! Data-key slots as the units see them (R243, R348). -/
def keySlot (s : State) (n : Nat) : KeySlot := KMap.get {} s.key.slots n

/-- Whether generation `g` of slot `n` is open. -/
def keyOpen (s : State) (n g : Nat) : Bool := decide ((keySlot s n).state = 1 ∧ (keySlot s n).gen = g)

/-- The tweak of a sector of a sealed folio (Table 15.8). -/
def xtsTweak (gen conv runIx posBase sector : Nat) : Nat :=
  gen * 2 ^ 112 + conv * 2 ^ 64 + runIx % 4096 * 2 ^ 38 + posBase / 64 % 2 ^ 26 * 2 ^ 12 + sector % 4096

end Sys2Proof.Machine
end

