-- ==== Sys2Proof/Machine/Kern.lean ====
section
/-!
DEFINITION. Kern-64 (R44–R49): the canonical encoder, the block decoder with its format checks, and the max-abs
entries of R42.
-/
namespace Sys2Proof.Machine

/-- Pack the bits of `v` at the 1 bits of a `w`-bit mask `z`, lowest first. -/
def gather (v z w : Nat) : Nat :=
  ((List.range w).foldl (fun (r : Nat × Nat) n => if bitOf z n then (r.1 + bits v n 1 * 2 ^ r.2, r.2 + 1) else r) (0, 0)).1

/-- Spread the low bits of `v` over the 1 bits of `z`. -/
def scatter (v z w : Nat) : Nat :=
  ((List.range w).foldl (fun (r : Nat × Nat) n => if bitOf z n then (r.1 + bits v r.2 1 * 2 ^ n, r.2 + 1) else r) (0, 0)).1

/-- The elements of a block: bytes, or halfwords. -/
def blockElems (w : Nat) (b : Bytes) : List Nat := (List.range (512 / w)).map fun i => leAt b (w / 8 * i) (w / 8)

/-- The largest mask of bit positions constant across a block, and their values (R46). -/
def maskConst (w : Nat) (xs : List Nat) : Nat × Nat :=
  let all1 := xs.foldl (· &&& ·) (2 ^ w - 1)
  let any1 := xs.foldl (· ||| ·) 0
  (all1 ||| ((2 ^ w - 1) ^^^ any1), all1)

def packBody (w : Nat) (xs : List Nat) : Nat × Bytes :=
  let (m, c) := maskConst w xs
  let k := w - popCount m w
  let z := (2 ^ w - 1) ^^^ m
  let area := (xs.foldl (fun (r : Nat × Nat) x => (r.1 + gather x z w * 2 ^ r.2, r.2 + k)) (0, 0)).1
  (k, natLe (w / 8) m ++ natLe (w / 8) c ++ natLe (64 * k / w) area)

/-- The flag and body of a block: the shortest of ZERO, PACK8, PACK16 and RAW (R46). -/
def encodeBlock (b : Bytes) : Nat × Bytes :=
  let e8 := blockElems 8 b
  if e8.all (· == 0) then (1, [])
  else
    let (k8, b8) := packBody 8 e8
    let (k16, b16) := packBody 16 (blockElems 16 b)
    let best := if k8 ≤ 7 then (2, b8) else (0, b)
    if k16 ≤ 14 ∧ b16.length < best.2.length then (3, b16) else best

/-- A kerned folio: KERN_LEN, the block index table, the flag map and the body without padding (R44–R47). -/
structure Kerned where
  len   : Nat := 0
  index : Bytes := []
  flags : Bytes := []
  body  : Bytes := []
  deriving DecidableEq, Repr

/-- Encode the solid payload of a folio (R46). -/
def kernEncode (solid : Bytes) : Kerned :=
  let n := solid.length / 64
  let (body, idx, fl) := (List.range n).foldl (fun (r : Bytes × List Nat × Nat) j =>
    let (f, b) := encodeBlock (slice solid (64 * j) 64)
    (r.1 ++ b, (if j % 16 = 0 then r.2.1 ++ [r.1.length] else r.2.1), r.2.2 + f * 4 ^ j)) ([], [], 0)
  { len := body.length, index := slice (idx.flatMap (natLe 2)) 0 128, flags := natLe 256 fl, body := body }

/-- The flag of block `j` in a header (R44). -/
def kernFlag (hdr : Bytes) (j : Nat) : Nat := bits (leAt hdr (0xC0 + j / 4) 1) (2 * (j % 4)) 2
def kernIndex (hdr : Bytes) (g : Nat) : Nat := leAt hdr (0x40 + 2 * g) 2

/-- One block's body at an offset: its 64 bytes and its length, or the REASON of R49. -/
def decodeBlock (flag : Nat) (body : Bytes) (klen off : Nat) : Except Nat (Bytes × Nat) :=
  if flag = 1 then if klen < off then .error 5 else .ok (List.replicate 64 0, 0)
  else if flag = 0 then if klen < off + 64 then .error 5 else .ok (slice body off 64, 64)
  else
    let w := if flag = 2 then 8 else 16
    let n := w / 8
    if klen < off + n then .error 5
    else
      let m := leAt body off n
      let k := w - popCount m w
      if (flag = 2 ∧ k = 8) ∨ (flag = 3 ∧ 15 ≤ k) then .error 1
      else if klen < off + 2 * n then .error 5
      else
        let c := leAt body (off + n) n
        let len := 2 * n + 64 * k / w
        if c &&& ((2 ^ w - 1) ^^^ m) ≠ 0 then .error 2
        else if klen < off + len then .error 5
        else
          let area := leAt body (off + 2 * n) (64 * k / w)
          let xs := (List.range (512 / w)).map fun i => c ||| scatter (bits area (i * k) k) ((2 ^ w - 1) ^^^ m) w
          .ok (xs.flatMap (natLe n), len)

/-- Where the bodies of group `g` must end: at the next index entry, or at KERN_LEN for the last group (R49). -/
def groupEnd (hdr : Bytes) (klen sb g : Nat) : Nat := if sb ≤ 16 * g + 16 then klen else kernIndex hdr (g + 1)

/-- Decode the first `n` blocks of group `g`: the blocks, and the first fault as its block and REASON. A group walked
to its end must end where `groupEnd` says; DESIGN CHOICE: KRN_FMT_ERR_LOG1 then names its last block (R49 names none). -/
def decodeGroup (hdr body : Bytes) (klen sb g n : Nat) : List Bytes × Option (Nat × Nat) :=
  let size := min 16 (sb - 16 * g)
  let (bs, off, bad) := (List.range (min n size)).foldl (fun (r : List Bytes × Nat × Option (Nat × Nat)) i =>
    match r.2.2 with
    | some _ => r
    | none =>
      match decodeBlock (kernFlag hdr (16 * g + i)) body klen r.2.1 with
      | .ok (b, len) => (r.1 ++ [b], r.2.1 + len, none)
      | .error e => (r.1, r.2.1, some (16 * g + i, e))) ([], kernIndex hdr g, none)
  match bad with
  | some x => (bs, some x)
  | none => if size ≤ n ∧ off ≠ groupEnd hdr klen sb g then (bs, some (16 * g + size - 1, 3)) else (bs, none)

/-- Whether a header agrees with its format descriptor (condition 1 of R49). -/
def kernHeaderOk (h : Hdr) (hdr : Bytes) (desc : Nat) (g : Geo) (kerned : Bool) : Bool :=
  decide (h.ver = 1 ∧ h.desc = desc ∧ h.kerned = kerned ∧ h.blocks = g.solid / 64) &&
  (!kerned || decide (kernIndex hdr 0 = 0 ∧ h.kLen + 64 ≤ h.blocks * 64))

/-- Decode a whole kerned folio: its solid payload, or the first fault. -/
def decodeAll (hdr body : Bytes) (klen sb : Nat) : Except (Nat × Nat) Bytes :=
  (List.range (ceilDiv sb 16)).foldl (fun (r : Except (Nat × Nat) Bytes) g =>
    match r with
    | .error e => .error e
    | .ok acc =>
      match decodeGroup hdr body klen sb g 16 with
      | (bs, none) => .ok (acc ++ bs.flatten)
      | (_, some e) => .error e) (.ok [])

/-- A malformed folio: counted, logged, and reported at the codec's level (R49). `source` is the block's number,
64 for a mover codec, 65 for the reach codec. -/
def kernFault (h : Handler) (source status folio block reason : Nat) (s : State) : State :=
  let s := s.bump KRN_FMT_ERR_CNT.COUNT
  let s := (((s.wr KRN_FMT_ERR_LOG0.FOLIO_ID 0 folio).wr KRN_FMT_ERR_LOG1.REASON 0 reason).wr
    KRN_FMT_ERR_LOG1.SOURCE 0 source).wr KRN_FMT_ERR_LOG1.BLOCK 0 block
  report h { sev := 2, subsys := 5, cause := Config.causeCode 10, unit := if source < 64 then source else 0, status := status } s

/-! Max-abs entries (R42). -/

/-- The magnitude of an element after scaling: `none` for a NaN. -/
def scaledAbs (code w scale : Nat) : Option Num :=
  if scaled code then
    if (scaleVal code scale).isNan then none
    else if ival code w = 0 then some (.fin false 0 0)
    else
      let v := ((Num.ofInt (ival code w)).mul (scaleVal code scale)).mul (fOf code)
      if v.isNan then none else some v.abs
  else
    let v := elemVal code w 0
    if v.isNan then none else some v.abs

/-- The entry of one element: rounded toward +∞ to FP16, 0x7C00 above the range, 0x7E00 for a NaN. -/
def maxAbsOf (code w scale : Nat) : Nat :=
  match scaledAbs code w scale with
  | none => 0x7E00
  | some v => if v.isInf then 0x7C00 else fp16.enc .away false v

/-- Merge two entries; 0x7E00 stays. -/
def maxAbsMerge (a b : Nat) : Nat := if a = 0x7E00 ∨ b = 0x7E00 then 0x7E00 else max a b

end Sys2Proof.Machine
end

