-- ==== Sys2Proof/Machine/ArrayCode.lean ====
section
/-!
DEFINITION. The array code of R59 over GF(2^8), field polynomial 0x11D, α = 2, and the CRC-32C of R104.
A code word is 36 symbols: 0–3 the check symbols, 4–35 the sector's bytes.
-/
namespace Sys2Proof.Machine

/-- One doubling in GF(2^8). -/
def gfTwice (a : Nat) : Nat := if 128 ≤ a then ((a * 2) ^^^ 0x11D) % 256 else a * 2

def gfMulAux : Nat → Nat → Nat → Nat
  | 0, _, _ => 0
  | n + 1, a, b => (if b % 2 = 1 then a else 0) ^^^ gfMulAux n (gfTwice a) (b / 2)

/-- Product in GF(2^8). -/
def gfMul (a b : Nat) : Nat := gfMulAux 8 a b

def gfPow : Nat → Nat → Nat
  | _, 0 => 1
  | a, n + 1 => gfMul a (gfPow a n)

/-- Inverse of a nonzero element: its 254th power, by squaring. -/
def gfInv (a : Nat) : Nat :=
  let a2 := gfMul a a; let a4 := gfMul a2 a2; let a8 := gfMul a4 a4; let a16 := gfMul a8 a8
  let a32 := gfMul a16 a16; let a64 := gfMul a32 a32; let a128 := gfMul a64 a64
  gfMul a128 (gfMul a64 (gfMul a32 (gfMul a16 (gfMul a8 (gfMul a4 a2)))))

/-- The check symbols c(0) to c(3) of a sector (R59): division by g(x), highest byte first. -/
def checkSyms (sector : List Nat) : List Nat :=
  sector.reverse.foldl (fun r b =>
    match r with
    | [c0, c1, c2, c3] =>
      let t := b ^^^ c3
      [gfMul t 0x40, c0 ^^^ gfMul t 0x78, c1 ^^^ gfMul t 0x36, c2 ^^^ gfMul t 0x0F]
    | r => r) [0, 0, 0, 0]

/-- Horner evaluation of a code word at `x`, symbol 0 the constant term. -/
def wordAt (x : Nat) (w : List Nat) : Nat := w.foldr (fun c acc => c ^^^ gfMul acc x) 0

/-- The syndromes S_0 to S_3. -/
def syndromes (w : List Nat) : List Nat := [wordAt 1 w, wordAt 2 w, wordAt 4 w, wordAt 8 w]

/-- What a decode of a sector finds (Table 3.3). -/
inductive Decoded where
  | clean
  | fixed (word : List Nat)
  | bad
  deriving DecidableEq, Repr

def flipAt (w : List Nat) (i e : Nat) : List Nat := w.set i ((w.getD i 0) ^^^ e)

/-- A one-symbol error that explains the syndromes. -/
def oneError (s0 s1 s2 s3 : Nat) : Option (Nat × Nat) :=
  ((List.range 36).find? fun i =>
    let x := gfPow 2 i
    s0 ≠ 0 ∧ gfMul s0 x = s1 ∧ gfMul s1 x = s2 ∧ gfMul s2 x = s3).map fun i => (i, s0)

/-- A two-symbol error that explains the syndromes. -/
def twoErrors (s0 s1 s2 s3 : Nat) : Option (Nat × Nat × Nat × Nat) :=
  (List.range 36).findSome? fun i =>
    ((List.range 36).drop (i + 1)).findSome? fun k =>
      let xi := gfPow 2 i; let xk := gfPow 2 k
      let e1 := gfMul (s1 ^^^ gfMul s0 xk) (gfInv (xi ^^^ xk))
      let e2 := s0 ^^^ e1
      if e1 ≠ 0 ∧ e2 ≠ 0 ∧ gfMul e1 (gfMul xi xi) ^^^ gfMul e2 (gfMul xk xk) = s2 ∧
          gfMul e1 (gfMul xi (gfMul xi xi)) ^^^ gfMul e2 (gfMul xk (gfMul xk xk)) = s3
      then some (i, e1, k, e2) else none

/-- Decode a code word: one or two symbols in error are corrected (R61). -/
def decodeWord (w : List Nat) : Decoded :=
  match syndromes w with
  | [0, 0, 0, 0] => .clean
  | [s0, s1, s2, s3] =>
    match oneError s0 s1 s2 s3 with
    | some (i, e) => .fixed (flipAt w i e)
    | none =>
      match twoErrors s0 s1 s2 s3 with
      | some (i, e1, k, e2) => .fixed (flipAt (flipAt w i e1) k e2)
      | none => .bad
  | _ => .bad

/-- One bit of a CRC with the polynomial 0x1EDC6F41, reflected. -/
def crcStep (c : Nat) : Nat := if c % 2 = 1 then (c / 2) ^^^ 0x82F63B78 else c / 2

/-- CRC-32C of bytes in the order of their offsets (R104): reflected, all ones at the start and inverted at
the end, as the CRC of that name is defined. -/
def crc32c (bs : Bytes) : Nat :=
  (bs.foldl (fun c b =>
    let c := c ^^^ b.toNat
    crcStep (crcStep (crcStep (crcStep (crcStep (crcStep (crcStep (crcStep c)))))))) 0xFFFFFFFF) ^^^ 0xFFFFFFFF

end Sys2Proof.Machine
end

