-- ==== Sys2Proof/Machine/Regulator.lean ====
section
/-!
DEFINITION. The per-partition regulators (R206): the stack bucket and the gutter bucket.
-/
namespace Sys2Proof.Machine

def regRate (s : State) (gut : Bool) (p : Nat) : Nat := s.rd (if gut then REAM_REG_CFG.GUT_RATE else REAM_REG_CFG.STK_RATE) p
def regBurst (s : State) (gut : Bool) (p : Nat) : Nat := s.rd (if gut then REAM_REG_CFG.GUT_BURST else REAM_REG_CFG.STK_BURST) p
def tokens (s : State) (gut : Bool) (p : Nat) : Int := KMap.get 0 (if gut then s.rea.gutTok else s.rea.stkTok) p
def setTokens (gut : Bool) (p : Nat) (v : Int) (s : State) : State :=
  if gut then { s with rea.gutTok := KMap.put 0 s.rea.gutTok p v } else { s with rea.stkTok := KMap.put 0 s.rea.stkTok p v }

/-- Whether a bucket limits a partition now. -/
def regActs (s : State) (gut : Bool) (p : Nat) : Bool := s.flag REAM_REG_CTL.EN && regRate s gut p != 0

/-- Charge a request of `n` bytes to its bucket; `none` where it must wait. -/
def regulate (gut : Bool) (p n : Nat) (s : State) : Option State :=
  if ¬ regActs s gut p then some s
  else if 1 ≤ tokens s gut p then some (setTokens gut p (tokens s gut p - n) s) else none

/-- Charge a request of `n` bytes of a unit that has its turn. -/
def chargeBucket (gut : Bool) (p n : Nat) (s : State) : State :=
  if regActs s gut p then setTokens gut p (tokens s gut p - n) s else s

/-- Whether a request meets an empty bucket. -/
def bucketEmpty (gut : Bool) (p : Nat) (s : State) : Bool := regActs s gut p && decide (tokens s gut p < 1)

/-- A unit's command whose request meets an empty bucket waits, and is counted once. -/
def stallCmd (c : Instr) (s : State) : State :=
  if s.rea.stalled.contains c then s else ({ s with rea.stalled := s.rea.stalled ++ [c] }).bump REAM_REG_STALL_CNT.COUNT

/-- A unit's command goes on. -/
def unstall (c : Instr) (s : State) : State := { s with rea.stalled := s.rea.stalled.erase c }

/-- A request joins those that wait, and is counted once. -/
def regWait (r : RegReq) (s : State) : State := ({ s with rea.regWait := s.rea.regWait ++ [r] }).bump REAM_REG_STALL_CNT.COUNT

/-- The addition of each microsecond. -/
def regAdd (gut : Bool) (p : Nat) (s : State) : State :=
  if ¬ s.flag REAM_REG_CTL.EN then s
  else setTokens gut p (min (tokens s gut p + regRate s gut p * 1000) (regBurst s gut p * 4096)) s

end Sys2Proof.Machine
end

