-- ==== Sys2Proof/Machine/Table.lean ====
section
/-!
DEFINITION. The table area of the folio unit (R171–R175): its parts, the records in their layouts of Tables 8.2 to 8.4,
and what a sector of the area holds.
-/
namespace Sys2Proof.Machine

def State.conv (s : State) (c : Nat) : ConvRec := KMap.get {} s.flo.convs c
def State.setConv (s : State) (c : Nat) (r : ConvRec) : State := { s with flo.convs := KMap.put {} s.flo.convs c r }
def State.run (s : State) (i : Nat) : RunRec := KMap.get {} s.flo.runs i
def State.setRunRec (s : State) (i : Nat) (r : RunRec) : State := { s with flo.runs := KMap.put {} s.flo.runs i r }
def State.folio (s : State) (f : Nat) : FolioEnt := KMap.get {} s.flo.folios f
def State.setFolio (s : State) (f : Nat) (e : FolioEnt) : State := { s with flo.folios := KMap.put {} s.flo.folios f e }

def floOn (s : State) : Bool := s.flag FLO_CFG.EN
def maxRun (s : State) : Nat := 2 ^ s.rd FLO_CFG.MAXRUN_LOG2

def round4k (n : Nat) : Nat := (n + 4095) / 4096 * 4096
/-- Starts of the parts of the table area (Table 8.1). -/
def tblFree (s : State) : Nat := round4k (32 * 2 ^ s.rd FLO_CFG.NFOLIO_LOG2)
def tblConv (s : State) : Nat := tblFree s + round4k (4 * 2 ^ s.rd FLO_CFG.NFOLIO_LOG2)
def tblRun (s : State) : Nat := tblConv s + round4k (64 * 2 ^ s.rd FLO_CFG.NCONV_LOG2)
def tblLeaf (s : State) : Nat := tblRun s + round4k (64 * 2 ^ (s.rd FLO_CFG.NCONV_LOG2 + s.rd FLO_CFG.MAXRUN_LOG2))
def tblMaps (s : State) : Nat :=
  tblLeaf s + round4k (4096 * s.rd FLO_LEAF_CFG.NLEAF + 4 * s.rd FLO_LEAF_CFG.NLEAF)
def tblEnd (s : State) : Nat := tblMaps s + 64 * 393216

/-- A conversation record in memory (Table 8.2). -/
def ConvRec.toBytes (r : ConvRec) : Bytes :=
  natLe 6 r.conv ++ natLe 1 (r.state * 64 + r.role * 32 + r.part) ++ natLe 1 (r.sealed.toNat * 2 + r.spread) ++
  natLe 2 r.inflight ++ natLe 2 r.tenant ++ natLe 2 r.keySlot ++ natLe 2 0 ++ natLe 4 r.sig ++ natLe 2 r.nlayer ++
  natLe 2 r.nhg ++ natLe 2 r.hgLo ++ natLe 2 r.hgHi ++ natLe 4 r.posLo ++ natLe 4 r.posHi ++ natLe 2 r.primary ++
  natLe 2 r.mirror ++ natLe 1 r.desc ++ natLe 23 0

/-- A run record in memory (Table 8.3). -/
def RunRec.toBytes (r : RunRec) : Bytes :=
  natLe 4 r.tail ++ natLe 2 r.vec.length ++ natLe 2 r.tier ++ natLe 4 r.lastStep ++ natLe 4 r.lastAccess ++
  (List.range 8).flatMap (fun k => natLe 4 (KMap.get 0 r.leaf k)) ++ natLe 16 0

/-- A folio table entry in memory (Table 8.4). -/
def FolioEnt.toBytes (e : FolioEnt) : Bytes :=
  natLe 4 e.chunk ++ natLe 1 e.nchunk ++ natLe 1 (e.closed.toNat * 32 + e.sealed.toNat * 16 + e.kerned.toNat * 8 + e.state) ++
  natLe 2 e.refs ++ natLe 2 e.outst ++ natLe 2 e.oldOutst ++ natLe 4 e.oldChunk ++ natLe 1 e.oldN ++ natLe 1 e.part ++
  natLe 6 0 ++ natLe 8 e.tierRef

/-- The run record that leaf block `n` serves, and which of its blocks it is (R174): one of a conversation that stands
goes before one that a closed conversation left. -/
def leafOwner (s : State) (n : Nat) : Option (RunRec × Nat) :=
  let owns := s.flo.runs.filterMap fun e : Nat × RunRec =>
    (List.find? (fun l : Nat × Nat => l.2 == n) e.2.leaf).map fun l => ((s.conv (e.1 / maxRun s)).state != 0, e.2, l.1)
  ((owns.find? (·.1)).or owns.head?).map (·.2)

/-- The eight vector entries from entry `e` of leaf block `n`. -/
def leafSector (s : State) (n e : Nat) : Option Bytes :=
  (leafOwner s n).map fun r => (List.range 8).flatMap fun j => natLe 4 (KMap.get 0 r.1.vec (1024 * r.2 + e + j))

/-- Whether a chunk of a channel set is free (R172). -/
def chunkFree (s : State) (set c : Nat) : Bool :=
  s.flo.used.all fun e : Nat × Nat => decide (c + set * 2 ^ 22 < e.1 ∨ e.1 + e.2 ≤ c + set * 2 ^ 22)

/-- 32 bytes of the bitmap of a channel set, from the bit of chunk `c`: 1 marks a free chunk (R172). -/
def mapSector (s : State) (set c : Nat) : Bytes :=
  (List.range 32).map fun i =>
    BitVec.ofNat 8 (((List.range 8).map fun j => if chunkFree s set (c + 8 * i + j) then 2 ^ j else 0).foldl (· + ·) 0)

/-- What the folio unit keeps in the sector at place `a` of the table area (Table 8.1), its free stacks apart. -/
def tblSector (s : State) (a : Nat) : Option Bytes :=
  if a < 32 * 2 ^ s.rd FLO_CFG.NFOLIO_LOG2 then some (s.folio (a / 32)).toBytes
  else if tblConv s ≤ a ∧ a < tblConv s + 64 * 2 ^ s.rd FLO_CFG.NCONV_LOG2 then
    some (slice (s.conv ((a - tblConv s) / 64)).toBytes ((a - tblConv s) % 64) 32)
  else if tblRun s ≤ a ∧ a < tblRun s + 64 * 2 ^ (s.rd FLO_CFG.NCONV_LOG2 + s.rd FLO_CFG.MAXRUN_LOG2) then
    some (slice (s.run ((a - tblRun s) / 64)).toBytes ((a - tblRun s) % 64) 32)
  else if tblLeaf s ≤ a ∧ a < tblLeaf s + 4096 * s.rd FLO_LEAF_CFG.NLEAF then
    leafSector s ((a - tblLeaf s) / 4096) ((a - tblLeaf s) % 4096 / 4)
  else if tblMaps s ≤ a ∧ a < tblEnd s then
    some (mapSector s ((a - tblMaps s) / 393216) ((a - tblMaps s) % 393216 * 8))
  else none

/-- The record bytes of the sector at an upper-case offset, where the folio unit keeps one (R172). -/
def tableAt (s : State) (off : Nat) : Option Bytes :=
  if floOn s ∧ s.rd FLO_TBL_BASE.OFFSET * 4096 ≤ off then tblSector s (off - s.rd FLO_TBL_BASE.OFFSET * 4096) else none

end Sys2Proof.Machine
end

