-- ==== Sys2Proof/Machine/Upper.lean ====
section
/-!
DEFINITION. The upper case (chapter 3): offset decode, remap, sectors under the array code, reads and writes.
The location of a byte is its upper-case offset, or, in a spare row, 2^40 + stack × 32768 + entry × 1024 + place.
-/
namespace Sys2Proof.Machine

/-- The place of an offset within its row (Table 3.2): granule, sector and byte. -/
def offInRow (a : Nat) : Nat := bits a 9 4 * 64 + bits a 0 6
/-- The row of an offset: the offset with its place in the row cleared. -/
def offRow (a : Nat) : Nat := a - bits a 9 4 * 512 - bits a 0 6
def offLayer (a : Nat) : Nat := bits a 36 4
/-- Pseudo-channel 8 × SET + A[8:6], which is also the platen unit that serves it (Table 3.2). -/
def offPc (a : Nat) : Nat := 8 * offSet a + bits a 6 3
def offBg (a : Nat) : Nat := bits a 13 2 ^^^ bits a 17 2
def offBank (a : Nat) : Nat := bits a 15 2
def offRowNo (a : Nat) : Nat := bits a 17 13

/-- The remap entry word that names the row of an offset, without VALID. -/
def remapWord (a : Nat) : Nat :=
  offLayer a * 2 ^ 27 + offPc a * 2 ^ 21 + offBg a * 2 ^ 19 + offBank a * 2 ^ 17 + offRowNo a * 2 ^ 4

/-- Entry `n` of stack `k` as a word, without VALID. -/
def remapEntry (s : State) (k n : Nat) : Nat :=
  let i := 32 * k + n
  s.rd STK_REMAP_ENT.LAYER i * 2 ^ 27 + s.rd STK_REMAP_ENT.PC i * 2 ^ 21 + s.rd STK_REMAP_ENT.BG i * 2 ^ 19 +
    s.rd STK_REMAP_ENT.BANK i * 2 ^ 17 + s.rd STK_REMAP_ENT.ROW i * 2 ^ 4

/-- The valid remap entry that redirects the row of an offset (R66). -/
def remapOf (s : State) (a : Nat) : Option Nat :=
  let k := offStack a
  (List.range 32).find? fun n => s.flag STK_REMAP_ENT.VALID (32 * k + n) ∧ remapEntry s k n = remapWord a

def spareLoc (k n place : Nat) : Nat := 2 ^ 40 + k * 32768 + n * 1024 + place

/-- Where the byte at an offset lies (R55, R66). -/
def locOf (s : State) (a : Nat) : Nat :=
  match remapOf s a with
  | some n => spareLoc (offStack a) n (offInRow a)
  | none => a

/-- The stored bytes of the sector at a location, if it was ever written. -/
def cells (s : State) (loc : Nat) : Option Bytes :=
  (List.range 32).mapM fun i => KMap.find? s.mem (loc + i)

def symsOf (v : Nat) : List Nat := [bits v 0 8, bits v 8 8, bits v 16 8, bits v 24 8]
def ofSyms (l : List Nat) : Nat := l.foldr (fun c acc => c + 256 * acc) 0

/-- The code word of the sector at a location. -/
def wordOf (s : State) (loc : Nat) (data : Bytes) : List Nat :=
  symsOf (KMap.get 0 s.chk (loc / 32)) ++ data.map BitVec.toNat

/-- The poison bit: the majority of its three copies (R62). -/
def poisonBit (s : State) (loc : Nat) : Bool := decide (2 ≤ popCount (KMap.get 0 s.psn (loc / 32)) 3)

/-- The cells of a sector, written and as never written. -/
@[irreducible] def writeCells (loc : Nat) (data : Bytes) (m : List Host.Cell) : List Host.Cell :=
  (List.range 32).foldl (fun m i => KMap.insert m (loc + i) (data.getD i 0)) m
@[irreducible] def eraseCells (loc : Nat) (m : List Host.Cell) : List Host.Cell := (List.range 32).foldl (fun m i => KMap.erase m (loc + i)) m

/-- The check symbols of a sector's bytes, as they are stored. -/
@[irreducible] def chkOf (data : Bytes) : Nat := ofSyms (checkSyms ((List.range 32).map fun i => (data.getD i 0).toNat))

/-- Write a whole sector with fresh check symbols and its poison bit (R60, R62). -/
def putSector (loc : Nat) (data : Bytes) (poison : Bool) (s : State) : State :=
  { s with
    mem := writeCells loc data s.mem
    chk := KMap.put 0 s.chk (loc / 32) (chkOf data)
    psn := KMap.put 0 s.psn (loc / 32) (if poison then 7 else 0) }

/-- Make a sector one that was never written. -/
def dropSector (loc : Nat) (s : State) : State :=
  { s with
    mem := eraseCells loc s.mem
    chk := KMap.erase s.chk (loc / 32)
    psn := KMap.erase s.psn (loc / 32) }

/-- What a sector holds when it is read (Table 3.3): data, data after correction, poison, or nothing decodable. -/
inductive SectorRead where
  | data (d : Bytes)
  | fixed (d : Bytes)
  | poison
  | bad
  deriving DecidableEq, Repr

/-- A sector never written holds arbitrary data or poison (R63): a free value says which outcome its read has, and what. -/
def arbitrarySector (v : Nat) : SectorRead :=
  match v % 4 with
  | 0 => .bad
  | 1 => .poison
  | 2 => .fixed (natLe 32 (v / 4))
  | _ => .data (natLe 32 (v / 4))

/-- Read the sector at a location. DESIGN CHOICE: a sector whose poison bit is set is in Table 3.3's poison row whether or not its
word decodes; the table gives no order. -/
def readAt (s : State) (loc : Nat) : SectorRead × State :=
  match cells s loc with
  | none => (arbitrarySector s.draw, s.drawn)
  | some d =>
    if poisonBit s loc then (.poison, s)
    else match decodeWord (wordOf s loc d) with
      | .clean => (.data d, s)
      | .fixed w => (.fixed ((w.drop 4).map (BitVec.ofNat 8)), s)
      | .bad => (.bad, s)

/-- The bytes a read outcome delivers; none is poison. -/
def SectorRead.bytes : SectorRead → Option Bytes
  | .data d => some d
  | .fixed d => some d
  | .poison => none
  | .bad => none

/-- Log a sector in STK_ERR_LOG0 and STK_ERR_LOG1. -/
def stkLog (k kind part off : Nat) (s : State) : State :=
  ((((s.wr STK_ERR_LOG0.OFFSET_LO k (off - off % 32)).wr STK_ERR_LOG1.OFFSET_HI k (off / 2 ^ 32)).wr
    STK_ERR_LOG1.KIND k kind).wr STK_ERR_LOG1.PART k part)

/-- Count the outcome of a read (Table 3.3). A correction is a corrected record at region level (Table 16.1); the patrol's
(`kind` 2) is of no partition's work. -/
def countRead (k kind part off : Nat) (r : SectorRead) (s : State) : State :=
  match r with
  | .data _ => s
  | .fixed _ => corrected (.region (k / 2)) 3 k (if kind = 2 then none else some part) 0 off (s.bump (STK_CNT.COUNT 0) k)
  | .bad => stkLog k kind part off (s.bump (STK_CNT.COUNT 1) k)
  | .poison => s.bump (STK_CNT.COUNT 2) k

/-- Disturb symbol `pos` of the stored code word of the sector at an offset by `e`. -/
def upset (off pos e : Nat) (s : State) : State :=
  let loc := locOf s (off - off % 32)
  if pos < 4 then { s with chk := KMap.put 0 s.chk (loc / 32) (KMap.get 0 s.chk (loc / 32) ^^^ (e % 256) * 256 ^ pos) }
  else match KMap.find? s.mem (loc + (pos - 4)) with
    | some b => if pos < 36 then { s with mem := KMap.insert s.mem (loc + (pos - 4)) (b ^^^ BitVec.ofNat 8 e) } else s
    | none => s

def upsetAll (us : SectorUpsets) (s : State) : State := us.foldl (fun s u => upset u.1 u.2.1 u.2.2 s) s

/-- The galley set of a line offset (Table 5.4). -/
def galSet (a : Nat) : Nat := bits a 7 14 ^^^ bits a 21 14
def galTag (a : Nat) : Nat := bits a 21 19
def galKey (r set way : Nat) : Nat := (r * 16384 + set) * 16 + way

/-- Invalidate the lines that hold the sector at an offset, each counted in GAL_CNT2 (R109). -/
def galInvalidate (a : Nat) (s : State) : State :=
  let r := offStack a / 2
  (List.range 16).foldl (fun s w =>
    let l := KMap.get {} s.gal.lines (galKey r (galSet a) w)
    if l.valid ∧ l.tag = galTag a then
      ({ s with gal.lines := KMap.put {} s.gal.lines (galKey r (galSet a) w) { l with valid := false } }).bump (GAL_CNT.COUNT 2) r
    else s) s

/-- A merge met a sector that is poisoned or does not decode: counted, logged where it does not decode, and a
consumption of poison at region level (R60, R373). -/
def mergePoison (part base : Nat) (r : SectorRead) (s : State) : State :=
  let k := offStack base
  let s := s.bump (STK_CNT.COUNT 1) k
  poisonUse (.region (k / 2)) 3 k (some part) ST.POISON base (if r = .bad then stkLog k 1 part base s else s)

/-- A merge that corrected the old sector counts it as any read does (R60, R61). -/
def countMerge (part base : Nat) (r : SectorRead) (s : State) : State := countRead (offStack base) 1 part base r s

/-! The bitmaps of the channel sets as firmware writes them (R172). -/

/-- The chunk of number `n` becomes free, or taken. -/
def setChunkBit (n : Nat) (free : Bool) (s : State) : State :=
  match List.find? (fun e : Nat × Nat => decide (e.1 ≤ n ∧ n < e.1 + e.2)) s.flo.used with
  | some e =>
    if ¬ free then s
    else
      let u := KMap.erase s.flo.used e.1
      let u := if e.1 < n then KMap.insert u e.1 (n - e.1) else u
      { s with flo.used := if n + 1 < e.1 + e.2 then KMap.insert u (n + 1) (e.1 + e.2 - (n + 1)) else u }
  | none => if free then s else { s with flo.used := KMap.insert s.flo.used n 1 }

/-- A byte of the bitmaps, at a place counted from their start, is written. -/
def mapByte (place v : Nat) (s : State) : State :=
  (List.range 8).foldl (fun s j => setChunkBit (place / 393216 * 2 ^ 22 + place % 393216 * 8 + j) (bitOf v j) s) s

def mapsAt (s : State) : Nat := s.rd FLO_TBL_BASE.OFFSET * 4096 + tblMaps s

/-- A write reaches the bitmaps: firmware marks chunks, before a channel set is first assigned and at a change of its owner. -/
def mapWrite (off : Nat) (data : Bytes) (s : State) : State :=
  let lo := mapsAt s
  if ¬ floOn s ∨ off + data.length ≤ lo ∨ lo + 64 * 393216 ≤ off then s
  else data.zipIdx.foldl (fun s x =>
    if lo ≤ off + x.2 ∧ off + x.2 < lo + 64 * 393216 then mapByte (off + x.2 - lo) x.1.toNat s else s) s

/-- The offset of a byte of a spare row: that of the row whose entry names it. -/
def spareOffset (s : State) (loc : Nat) : Nat :=
  let k := (loc - 2 ^ 40) / 32768
  let n := (loc - 2 ^ 40) % 32768 / 1024
  let p := loc % 1024
  let w := remapEntry s k n
  let row := bits w 4 13
  bits w 27 4 * 2 ^ 36 + k * 2 ^ 33 + bits w 24 3 * 2 ^ 30 + row * 2 ^ 17 + bits w 17 2 * 2 ^ 15 +
    (bits w 19 2 ^^^ bits row 0 2) * 2 ^ 13 + p / 64 * 512 + bits w 21 3 * 64 + p % 64

/-- The folio unit takes up its table area as firmware wrote it (R172): the free stacks are full, the records are zeros, and the
bitmaps are those in memory. DESIGN CHOICE: the chunks of a bitmap byte that nothing has written are free. -/
def floAdopt (s : State) : State :=
  let s := { s with flo := { waiting := s.flo.waiting } }
  let lo := mapsAt s
  List.foldl (fun s (c : Host.Cell) =>
    let a := if c.1 < 2 ^ 40 then c.1 else spareOffset s c.1
    if c.1 < 2 ^ 41 ∧ lo ≤ a ∧ a < lo + 64 * 393216 then mapByte (a - lo) c.2.toNat s else s) s s.mem

/-- Write bytes that lie within one sector, merging with what it holds (R60): a poisoned or uncorrectable old
sector makes the merged one poisoned, which is a consumption of poison by the partition's write (R373). -/
def mergeWrite (part off : Nat) (data : Bytes) (poison : Bool) (s : State) : State :=
  let s := mapWrite off data (galInvalidate off s)
  let base := off - off % 32
  let loc := locOf s base
  if data.length = 32 then putSector loc data poison s
  else
    let (r, s) := readAt s loc
    match r.bytes with
    | some old => countMerge part base r (putSector loc (splice old (off % 32) data) poison s)
    | none => mergePoison part base r (putSector loc (splice (slice ((cells s loc).getD []) 0 32) (off % 32) data) true s)

/-! What a stack controller does not serve, or not yet. -/

def State.stkUnit (s : State) (k : Nat) : StkUnit := KMap.get {} s.stk.units k
def State.setStk (s : State) (k : Nat) (u : StkUnit) : State := { s with stk.units := KMap.put {} s.stk.units k u }

/-- Whether the row of an offset is being copied to a spare (R67). -/
def copyHeld (s : State) (a : Nat) : Bool :=
  match (s.stkUnit (offStack a)).remap with
  | some (_, w) => w == remapWord a
  | none => false

/-- Whether a running platen list has claimed the row of an offset (R89). -/
def claimHeld (s : State) (a : Nat) : Bool := s.stk.claims.any fun c => c.2.contains (offRow a)

/-- Whether accesses to the row of an offset wait: it is claimed or being copied, or its stack is in self-refresh (R67, R76,
R89). -/
def rowHeld (s : State) (a : Nat) : Bool := claimHeld s a || copyHeld s a || s.flag STK_STS.SELF_REFRESH (offStack a)

/-- A command of a unit that meets a claimed row begins to wait on it, if it does not yet (R89, R92). -/
def claimWait (c : Instr) (a : Nat) (s : State) : State :=
  if claimHeld s a ∧ (s.stk.claimWaits.all fun w => w.1 != c) then
    { s with stk.claimWaits := s.stk.claimWaits ++ [(c, a, s.now)] }
  else s

/-- The granules of a range, each by its offset. -/
def granulesOf (off len : Nat) : List Nat := (List.range ((off + len + 63) / 64 - off / 64)).map fun i => off - off % 64 + 64 * i

/-- Whether any row of a range is held. -/
def rangeHeld (s : State) (off len : Nat) : Bool := (granulesOf off len).any (rowHeld s)

/-- The 1 GiB ranges that an access touches, each by its first offset: a channel set is one such range in each layer. -/
def rangesOf (off len : Nat) : List Nat := (List.range ((off + (len - 1)) / 2 ^ 30 + 1 - off / 2 ^ 30)).map fun i => (off / 2 ^ 30 + i) * 2 ^ 30

/-- Why an access of a partition is refused, in this order: its range (R56), a fence of a stack it touches (R65), or an owner
of a channel set it touches (R15, R57). It is refused whole. DESIGN CHOICE: the spec gives no order, and none to an access
part of which could be served. -/
def accessRefusal (s : State) (part off len : Nat) : Option Nat :=
  if upperSize < off + len ∨ upperSize ≤ off then some ST.ADDR_RANGE
  else if (rangesOf off len).any fun a => stackShut s (offStack a) then some ST.STK_FENCED
  else if (rangesOf off len).any fun a => !ownerAllows (setOwner s (offStack a) (offSet a)) part then some ST.POISON
  else none

/-- Whether a unit's command must wait with its request: for tokens of its partition's bucket (R206), or for a held row of the
range (R67, R76, R89); and what the wait changes. -/
def reqWaits (c : Instr) (part off len : Nat) (s : State) : Option State :=
  if bucketEmpty false part s then some (stallCmd c s)
  else if (accessRefusal s part off len).isNone && rangeHeld s off len then some ((granulesOf off len).foldl (fun s a => claimWait c a s) s)
  else none

/-- The same for a command that makes several requests. -/
def reqsWait (c : Instr) (part : Nat) (rs : List (Nat × Nat)) (s : State) : Option State :=
  rs.findSome? fun r => reqWaits c part r.1 r.2 s

/-- The first refusal of several requests. -/
def reqsRefusal (s : State) (part : Nat) (rs : List (Nat × Nat)) : Option Nat := rs.findSome? fun r => accessRefusal s part r.1 r.2

/-- Count a refusal: out of range at the stack of A[35:33] (R56), of another partition in GUT_XPART_CNT (R15). -/
def countRefusal (off status : Nat) (s : State) : State :=
  if status = ST.ADDR_RANGE then s.bump (STK_CNT.COUNT 3) (offStack off)
  else if status = ST.STK_FENCED then s
  else s.bump GUT_XPART_CNT.COUNT

/-- Cut a write into its sectors and write each. `n` bounds the sectors. -/
def writeSectors (part : Nat) : Nat → Nat → Bytes → Bool → State → State
  | 0, _, _, _, s => s
  | n + 1, off, data, poison, s =>
    let here := 32 - off % 32
    if data.isEmpty then s
    else writeSectors part n (off + here) (data.drop here) poison (mergeWrite part off (data.take here) poison s)

/-- A write by a unit of the node, for a partition, of bytes at an upper-case offset: a request to the stack controllers,
charged to the partition's bucket (R206), refused and discarded (R15, R56, R65) or carried out. -/
def writeUpper (part off : Nat) (data : Bytes) (s : State) : State :=
  let s := chargeBucket false part data.length s
  match accessRefusal s part off data.length with
  | some st => countRefusal off st s
  | none => writeSectors part (data.length / 32 + 2) off data false s

/-- The outcome of a read of a sector that holds a record of a unit of the node: the record as the unit keeps it, under the
errors of the stored word. -/
def recordRead (s : State) (loc : Nat) (d : Bytes) : SectorRead :=
  if poisonBit s loc then .poison
  else match cells s loc with
    | none => .data d
    | some w => match decodeWord (wordOf s loc w) with
      | .clean => .data d
      | .fixed _ => .fixed d
      | .bad => .bad

/-- The eight entries of a free stack that a sector holds: those that the folio unit pushed stand above those that firmware
wrote, which are read as they were written (R171). -/
def stackWords (s : State) (base j0 low : Nat) (pushed : List Nat) : Option Bytes :=
  let up := pushed.reverse
  if j0 + 8 ≤ low ∨ low + up.length ≤ j0 then none
  else
    let raw := (cells s (locOf s base)).getD (natLe 32 (Config.freeCell base))
    some ((List.range 8).flatMap fun i =>
      if j0 + i < low then slice raw (4 * i) 4 else (up[j0 + i - low]?).elim (slice raw (4 * i) 4) (natLe 4))

/-- Entries of the free stacks that firmware wrote and nothing has taken. -/
def idsLow (s : State) : Nat := 2 ^ s.rd FLO_CFG.NFOLIO_LOG2 - s.flo.fresh
def leavesLow (s : State) : Nat := s.rd FLO_LEAF_CFG.NLEAF - s.flo.leafFresh
def tblLeafFree (s : State) : Nat := tblLeaf s + 4096 * s.rd FLO_LEAF_CFG.NLEAF

/-- What a free stack holds in the sector at an upper-case offset, where the folio unit has pushed an entry of it. -/
def stackAt (s : State) (base : Nat) : Option Bytes :=
  let t := s.rd FLO_TBL_BASE.OFFSET * 4096
  if ¬ floOn s ∨ base < t then none
  else
    let a := base - t
    if tblFree s ≤ a ∧ a < tblFree s + 4 * 2 ^ s.rd FLO_CFG.NFOLIO_LOG2 then
      stackWords s base ((a - tblFree s) / 4) (idsLow s) s.flo.freed
    else if tblLeafFree s ≤ a ∧ a < tblLeafFree s + 4 * s.rd FLO_LEAF_CFG.NLEAF then
      stackWords s base ((a - tblLeafFree s) / 4) (leavesLow s) s.flo.leafFreed
    else none

/-- A signature descriptor in memory (Table 13.1). -/
def SigDesc.toBytes (d : SigDesc) : Bytes :=
  natLe 4 d.sig ++ natLe 1 d.part ++ natLe 1 d.memb.length ++ natLe 2 0 ++ natLe 8 d.standin ++ natLe 1 d.epoch ++ natLe 47 0 ++
  d.memb.flatMap (fun m => natLe 2 m.1 ++ natLe 2 m.2.1 ++ natLe 1 m.2.2 ++ natLe 3 0) ++ natLe (960 - 8 * d.memb.length) 0

/-- What the signature table holds in the sector at an upper-case offset: the valid entry there (R292). -/
def sigAt (s : State) (base : Nat) : Option Bytes :=
  let t := s.rd COL_SIG_BASE.OFFSET * 4096
  if base < t then none
  else (KMap.find? s.col.sigs ((base - t) / 1024)).map fun d => slice d.toBytes ((base - t) % 1024) 32

/-- The record that a unit of the node keeps in the sector at an upper-case offset: in the table area of the folio unit
(R171–R175) or in the signature table (R292). -/
def recordAt (s : State) (base : Nat) : Option Bytes := ((tableAt s base).or (stackAt s base)).or (sigAt s base)

/-- Read the sector at an upper-case offset: a record as its unit keeps it, else what is stored there. -/
def readSector (s : State) (base : Nat) : SectorRead × State :=
  match recordAt s base with
  | some d => (recordRead s (locOf s base) d, s)
  | none => readAt s (locOf s base)

/-- Read `n` sectors from an offset, each delivered or poison (`none`), with the counts of Table 3.3. -/
def readMarks : Nat → Nat → Nat → State → List (Option Bytes) × State
  | 0, _, _, s => ([], s)
  | n + 1, part, base, s =>
    let (r, s) := readSector s base
    let (rest, s) := readMarks n part (base + 32) (countRead (offStack base) 1 part base r s)
    (r.bytes :: rest, s)

/-- The sectors that cover `[off, off + len)`, each delivered or poison. -/
def readCover (part off len : Nat) (s : State) : List (Option Bytes) × State :=
  readMarks ((off + len + 31) / 32 - off / 32) part (off - off % 32) s

/-- The bytes of `[off, off + len)` out of the sectors that cover it; none where one is poison. -/
def joinMarks (off len : Nat) (l : List (Option Bytes)) : Option Bytes :=
  (l.mapM id).map fun d => (d.flatten.drop (off % 32)).take len

/-- The same, zero in place of poison, and the sectors that are poison. -/
def fillMarks (off len : Nat) (l : List (Option Bytes)) : Bytes × List Nat :=
  ((((l.map fun d => d.getD (List.replicate 32 0)).flatten).drop (off % 32)).take len,
   (l.zipIdx.filter fun d : Option Bytes × Nat => d.1.isNone).map fun d => off - off % 32 + 32 * d.2)

/-- A read in the base die, where no partition is checked: `none` is poison. -/
def readArray (part off len : Nat) (s : State) : Option Bytes × State :=
  let (l, s) := readCover part off len s
  (joinMarks off len l, s)

/-- A read by a unit of the node: a request to the stack controllers, charged to the partition's bucket (R206); `none` is
poison, of a sector or of a refusal (R15, R56, R65). -/
def readUpper (part off len : Nat) (s : State) : Option Bytes × State :=
  let s := chargeBucket false part len s
  match accessRefusal s part off len with
  | some st => (none, countRefusal off st s)
  | none => readArray part off len s

/-- The status of a read that delivered poison: the refusal's, else that of a poisoned sector. -/
def readStatus (s : State) (part off len : Nat) : Nat := (accessRefusal s part off len).getD ST.POISON

/-- The 32 bytes that a sector's word stands for, corrected, without counts; a sector never written, poisoned or that does not
decode holds bytes that are open. For what a unit already holds of its own records, and for checks the model makes. -/
def peekSector (s : State) (base : Nat) : Bytes :=
  match (readSector s base).1.bytes with
  | some d => d
  | none => natLe 32 (Config.freeCell base)

/-- Bytes of a range as `peekSector` gives them. -/
def peek (s : State) (off len : Nat) : Bytes :=
  (((List.range ((off + len + 31) / 32 - off / 32)).flatMap fun i => peekSector s (off - off % 32 + 32 * i)).drop (off % 32)).take len

/-- Whether any sector of a range carries poison or does not decode. -/
def rangePoison (s : State) (off len : Nat) : Bool :=
  (List.range ((off + len + 31) / 32 - off / 32)).any fun i =>
    let loc := locOf s (off - off % 32 + 32 * i)
    match cells s loc with
    | none => false
    | some d => poisonBit s loc || decide (decodeWord (wordOf s loc d) = .bad)

end Sys2Proof.Machine
end

