-- ==== Sys2Proof/Machine/Dir.lean ====
section
/-!
DEFINITION. The folio unit's records and space (R171–R182): directory lookups, run vectors, next-fit allocation,
freeing, and folio headers and bodies, sealed and open.
-/
namespace Sys2Proof.Machine

/-! Completion of commands. -/

/-- A descriptor of a submission ring is complete with a status and result bytes; its colophon follows (R326). -/
def jobDone (part ring seq status : Nat) (res : Bytes) (s : State) : State :=
  { s with job.jobs := s.job.jobs.map fun j =>
      if j.part = part ∧ j.ring = ring ∧ j.seq = seq ∧ j.state < 2 then { j with status := status, res := res, state := 2 } else j }

/-! Records. -/

/-- The index of a run record (R173). -/
def runIx (s : State) (c layer hg : Nat) : Nat := c * maxRun s + layer * (s.conv c).nhg + hg

def spanOf (s : State) (c : Nat) : Nat := (descOf s (s.conv c).desc).geo.span
def geoOf (s : State) (c : Nat) : Geo := (descOf s (s.conv c).desc).geo

/-- The byte offset of a chunk number (R175). -/
def chunkOff (n : Nat) : Nat :=
  let set := n / 2 ^ 22
  let c := n % 2 ^ 22
  c / 262144 * 2 ^ 36 + set * 2 ^ 30 + c % 262144 * 4096

def folioBase (s : State) (f : Nat) : Nat := chunkOff (s.folio f).chunk

/-- Whether a table part that a record stands in is poisoned (R374): its sector at an offset of the table area. -/
def tblPoison (s : State) (off : Nat) : Bool :=
  let a := s.rd FLO_TBL_BASE.OFFSET * 4096 + off
  poisonBit s (locOf s (a - a % 32))

/-! Lookup (R177). -/

/-- The directory entry of a handle: its conversation record, by a catchword search. -/
def dirFind (part role conv : Nat) (s : State) : Option Nat × State :=
  if ¬ floOn s then (none, s.bump (FLO_CNT.COUNT 4))
  else
    let s := (s.bump (FLO_CNT.COUNT 4)).bump (CWD_CNT.COUNT 0)
    ((cwdSearch s (dirKey part role conv) (fullMask 1) 255 1 0).map fun r => r.2.2.res, s)

/-- The active conversation record of a handle. -/
def convFind (part role conv : Nat) (s : State) : Option Nat × State :=
  let (r, s) := dirFind part role conv s
  (match r with
   | some c => if (s.conv c).state = 1 then some c else none
   | none => none, s)

/-! Poison in the free stacks and bitmaps (R374). -/

/-- Folio IDs and leaf blocks on their free stacks. -/
def idsLeft (s : State) : Nat := s.flo.freed.length + idsLow s
def leavesLeft (s : State) : Nat := s.flo.leafFreed.length + leavesLow s

/-- Whether the top entry of a free stack is poisoned. -/
def idPoison (s : State) : Bool := decide (idsLeft s ≠ 0) && tblPoison s (tblFree s + 4 * (idsLeft s - 1))
def leafPoison (s : State) : Bool :=
  decide (leavesLeft s ≠ 0) && tblPoison s (tblLeafFree s + 4 * (leavesLeft s - 1))

/-- A use of poison in a free stack or an extent bitmap: a fatal record (R374). -/
def tableFatal (bad : Bool) (s : State) : State :=
  if bad then report .chip { poison := true, sev := 3, subsys := 6, cause := Config.causeCode 43, status := ST.POISON } (s.bump (RAS_CNT.COUNT 5))
  else s

/-- An entry of a free stack as firmware wrote it. -/
def stackEntry (s : State) (start j : Nat) : Nat := leNat (peek s (s.rd FLO_TBL_BASE.OFFSET * 4096 + start + 4 * j) 4)

/-! Leaf blocks and vectors (R174). -/
def takeLeaf (s : State) : Option (Nat × State) :=
  if leafPoison s then none
  else match s.flo.leafFreed with
  | l :: r => some (l, { s with flo.leafFreed := r })
  | [] =>
    if leavesLow s = 0 then none
    else some (stackEntry s (tblLeafFree s) (leavesLow s - 1), { s with flo.leafFresh := s.flo.leafFresh + 1 })

/-- Enter a folio at an entry of a run's vector. -/
def vecPut (i ent f : Nat) (s : State) : Nat × State :=
  if 8192 ≤ ent then (ST.RUN_FULL, s)
  else
    let r := s.run i
    match KMap.find? r.leaf (ent / 1024) with
    | some _ => (ST.OK, s.setRunRec i { r with vec := KMap.put 0 r.vec ent f })
    | none =>
      match takeLeaf s with
      | some (l, s) => (ST.OK, s.setRunRec i { r with leaf := KMap.insert r.leaf (ent / 1024) l, vec := KMap.put 0 r.vec ent f })
      | none => (ST.FOLIO_TBL_FULL, tableFatal (leafPoison s) s)

/-! Allocation (R179). -/
def setChunks : Nat := 3145728

/-- The extents in use of a channel set: first chunk within the set, and length. -/
def setUsed (s : State) (set : Nat) : List (Nat × Nat) :=
  List.filterMap (fun e : Nat × Nat => if e.1 / 2 ^ 22 = set then some (e.1 % 2 ^ 22, e.2) else none) s.flo.used

def setFree (s : State) (set : Nat) : Nat := setChunks - ((setUsed s set).map (·.2)).foldl (· + ·) 0

/-- The first run of `n` free chunks that starts in `[lo, hi)`, ends by `hi`, and crosses no multiple of 262,144. -/
def fitIn (us : List (Nat × Nat)) (n lo hi : Nat) : Option Nat :=
  let starts := [lo] ++ us.map (fun u => u.1 + u.2) ++ (List.range 13).map (· * 262144)
  let ok := starts.filter fun c =>
    decide (lo ≤ c ∧ c + n ≤ hi ∧ c / 262144 = (c + n - 1) / 262144) && us.all fun u => decide (u.1 + u.2 ≤ c ∨ c + n ≤ u.1)
  ok.foldl (fun b c => match b with
    | none => some c
    | some x => some (min x c)) none

/-- Next-fit in one channel set, within SEARCH_MAX line reads (R179, steps 3 and 4). -/
def searchSet (s : State) (set n : Nat) : Option Nat :=
  let us := setUsed s set
  let cur := KMap.get 0 s.flo.cursors set
  let limit := s.rd FLO_CFG.SEARCH_MAX
  match fitIn us n cur setChunks with
  | some c => if (c + n - 1) / 512 - cur / 512 + 1 ≤ limit then some c else none
  | none =>
    match fitIn us n 0 cur with
    | some c => if setChunks / 512 - cur / 512 + (c + n - 1) / 512 + 1 ≤ limit then some c else none
    | none => none

/-- Whether a search of a channel set reads a poisoned line of its bitmap, within SEARCH_MAX lines (R374). -/
def setPoison (s : State) (set n : Nat) : Bool :=
  let us := setUsed s set
  let cur := KMap.get 0 s.flo.cursors set
  let reads := match fitIn us n cur setChunks with
    | some c => (c + n - 1) / 512 - cur / 512 + 1
    | none => match fitIn us n 0 cur with
      | some c => setChunks / 512 - cur / 512 + (c + n - 1) / 512 + 1
      | none => setChunks / 512
  (List.range (min (s.rd FLO_CFG.SEARCH_MAX) reads)).any fun j =>
    let line := tblMaps s + 393216 * set + 64 * ((cur / 512 + j) % (setChunks / 512))
    tblPoison s line || tblPoison s (line + 32)

/-- The channel sets of a partition, ascending, after the set of the tail where it is one of them (R179, step 2). -/
def candidateSets (s : State) (part : Nat) (tail : Option Nat) : List Nat :=
  let own := (List.range 64).filter fun x => setOwner s (x / 8) (x % 8) == some part
  match tail with
  | some t => if own.contains t then own.filter (t ≤ ·) ++ own.filter (· < t) else own
  | none => own

/-- Whether the search for an extent reads poison in a bitmap before it ends. -/
def mapPoison (s : State) (part n : Nat) (tail : Option Nat) : Bool :=
  let sets := candidateSets s part tail
  let tried := sets.takeWhile fun x => (searchSet s x n).isNone
  (tried ++ (sets.drop tried.length).take 1).any fun x => setPoison s x n

/-- Take an extent of `n` chunks for a run: its first chunk number. -/
def allocExtent (part n : Nat) (tail : Option Nat) (s : State) : Option (Nat × State) :=
  if mapPoison s part n tail then none
  else ((candidateSets s part tail).findSome? fun x => (searchSet s x n).map fun c => (x, c)).map fun r =>
    let (x, c) := r
    (x * 2 ^ 22 + c,
      { s with flo.used := KMap.insert s.flo.used (x * 2 ^ 22 + c) n,
               flo.cursors := KMap.put 0 s.flo.cursors x ((c + n) % setChunks) })

/-- The set of a run's tail (R179). A tail in the lower case stands in none. -/
def tailSet (s : State) (i : Nat) : Option Nat :=
  let t := (s.run i).tail
  if t = 0 ∨ (s.folio t).tierRef ≠ 0 then none else some ((s.folio t).chunk / 2 ^ 22)

def takeFolioId (s : State) : Option (Nat × State) :=
  if idPoison s then none
  else match s.flo.freed with
  | f :: r => some (f, { s with flo.freed := r })
  | [] =>
    if idsLow s = 0 then none else some (stackEntry s (tblFree s) (idsLow s - 1), { s with flo.fresh := s.flo.fresh + 1 })

def pushFolioId (f : Nat) (s : State) : State := { s with flo.freed := f :: s.flo.freed }

/-- Chunks of an extent that holds a header and `n` body bytes (R178). -/
def chunksFor (n : Nat) : Nat := (2496 + n + 4095) / 4096

def State.nospace (s : State) : State := s.bump (FLO_CNT.COUNT 2)

/-- An extent alone for an existing folio, steps 2 to 5 of R179, its run's tail in a set; its failure is ST_FOLIO_NOSPACE. -/
def allocForFolio (part n : Nat) (tail : Option Nat) (s : State) : Option Nat × State :=
  let s := tableFatal (mapPoison s part n tail) (s.bump (FLO_CNT.COUNT 0))
  match allocExtent part n tail s with
  | some (c, s) => (some c, s)
  | none => (none, s.nospace)

/-! Headers and bodies. -/

def hdrAt (s : State) (base : Nat) : Hdr := Hdr.ofBytes (peek s base 64)

/-- The bytes of a whole sector of a sealed folio as they are stored. -/
def sealSector (s : State) (h : Hdr) (rix rel : Nat) (d : Bytes) : Bytes :=
  let k := keySlot s h.slot
  Config.xtsEncrypt k.key1 k.key2 (xtsTweak h.gen h.conv rix h.base (rel / 32)) d

def openSector (s : State) (h : Hdr) (rix rel : Nat) (d : Bytes) : Bytes :=
  let k := keySlot s h.slot
  Config.xtsDecrypt k.key1 k.key2 (xtsTweak h.gen h.conv rix h.base (rel / 32)) d

/-- Write bytes of a sealed folio within one sector: read, decrypt, merge, encrypt, write whole (R353). -/
def sealedMerge (h : Hdr) (rix base rel : Nat) (d : Bytes) (s : State) : State :=
  let sec := rel - rel % 32
  let s := galInvalidate (base + sec) s
  let loc := locOf s (base + sec)
  if d.length = 32 then putSector loc (sealSector s h rix sec d) false s
  else
    let (r, s) := readAt s loc
    match r.bytes with
    | some old => countMerge h.part (base + sec) r (putSector loc (sealSector s h rix sec (splice (openSector s h rix sec old) (rel % 32) d)) false s)
    | none => mergePoison h.part (base + sec) r (putSector loc (slice ((cells s loc).getD []) 0 32) true s)

def sealedSectors : Nat → Hdr → Nat → Nat → Nat → Bytes → State → State
  | 0, _, _, _, _, _, s => s
  | n + 1, h, rix, base, rel, d, s =>
    let here := 32 - rel % 32
    if d.isEmpty then s
    else sealedSectors n h rix base (rel + here) (d.drop here)
      (if rel < 64 then mergeWrite h.part (base + rel) (d.take here) false s else sealedMerge h rix base rel (d.take here) s)

/-- Write bytes at a place of a folio's extent (R60, R352, R353). A write of sealed data under a generation that is
not open is dropped: `false`, which is ST_KEY_RETIRED (R348). -/
def folioWrite (h : Hdr) (rix base rel : Nat) (d : Bytes) (s : State) : Bool × State :=
  if ¬ h.sealed then (true, writeUpper h.part (base + rel) d s)
  else if rel + d.length ≤ 64 then (true, writeUpper h.part (base + rel) d s)
  else if ¬ keyOpen s h.slot h.gen then (false, s)
  else
    let s := chargeBucket false h.part d.length s
    match accessRefusal s h.part (base + rel) d.length with
    | some st => (true, countRefusal (base + rel) st s)
    | none => (true, sealedSectors (d.length / 32 + 2) h rix base rel d s)

/-- Decrypt the sectors of a sealed folio that cover bytes read at `rel`, a multiple of 32. -/
def openSectors (s : State) (h : Hdr) (rix : Nat) : Nat → Nat → Bytes → Bytes
  | 0, _, _ => []
  | n + 1, rel, d => (if rel < 64 then d.take 32 else openSector s h rix rel (d.take 32)) ++ openSectors s h rix n (rel + 32) (d.drop 32)

/-- Read bytes of a folio's extent in the clear: `none` is poison. -/
def folioRead (part : Nat) (h : Hdr) (rix base rel len : Nat) (s : State) : Option Bytes × State :=
  if ¬ h.sealed then readUpper part (base + rel) len s
  else
    let lo := rel - rel % 32
    let hi := (rel + len + 31) / 32 * 32
    let (d, s) := readUpper part (base + lo) (hi - lo) s
    (d.map fun b => ((openSectors s h rix ((hi - lo) / 32) lo b).drop (rel - lo)).take len, s)

/-- The run index of the cipher tweak (Table 15.8). -/
def rixOf (s : State) (c layer hg : Nat) : Nat := layer * (s.conv c).nhg + hg

/-- Write the fixed part of a folio's header, in the clear (R41). -/
def writeHdr (base : Nat) (h : Hdr) (s : State) : State := writeUpper h.part base h.toBytes s

/-- Allocate a new folio for entry `ent` of a run, steps 1 to 6 of R179: its status and ID. -/
def newFolio (c layer hg ent : Nat) (s : State) : Nat × Nat × State :=
  let r := s.conv c
  let g := geoOf s c
  let i := runIx s c layer hg
  let k := keySlot s r.keySlot
  if ¬ floOn s then (ST.FLO_DISABLED, 0, s)
  else if 8192 ≤ ent then (ST.RUN_FULL, 0, s)
  else if r.sealed ∧ k.state ≠ 1 then (ST.KEY_RETIRED, 0, s.bump (RSP_CNT.COUNT 3))
  else
    let s := tableFatal (idPoison s || mapPoison s r.part (chunksFor g.solid) (tailSet s i)) (s.bump (FLO_CNT.COUNT 0))
    match takeFolioId s with
    | none => (ST.FOLIO_TBL_FULL, 0, s)
    | some (f, s1) =>
      match allocExtent r.part (chunksFor g.solid) (tailSet s1 i) s1 with
      | none => (ST.FOLIO_NOSPACE, 0, (pushFolioId f s1).nospace)
      | some (ch, s2) =>
        let (st, s3) := vecPut i ent f s2
        if st ≠ ST.OK then
          (st, 0, pushFolioId f { s3 with flo.used := KMap.erase s3.flo.used ch })
        else
          let s := s3.setFolio f { chunk := ch, nchunk := chunksFor g.solid, state := 1, refs := 1, part := r.part, sealed := r.sealed }
          let h : Hdr :=
            { desc := r.desc, sealed := r.sealed, folio := f, conv := r.conv, part := r.part, layer := layer, group := hg,
              base := r.posLo + ent * g.span, blocks := g.solid / 64, slot := if r.sealed then r.keySlot else 0,
              gen := if r.sealed then k.gen else 0 }
          (ST.OK, f, (folioWrite h (rixOf s c layer hg) (chunkOff ch) 0 (h.toBytes ++ List.replicate 2432 0) s).2)

/-! Freeing (R181, R182). -/
def freeExtent (ch : Nat) (s : State) : State := { s with flo.used := KMap.erase s.flo.used ch }

/-- One vector entry fewer names a folio; at none it enters STATE 2. -/
def dropRef (f : Nat) (s : State) : State :=
  let e := s.folio f
  s.setFolio f { e with refs := e.refs - 1, state := if e.refs ≤ 1 then 2 else e.state }

/-- Free what R181 lets go of a folio: the folio whose REFS and OUTSTANDING are 0, or its replaced extent. A folio that was in the
lower case has no extent here. -/
def folioFree (f : Nat) (s : State) : State :=
  let e := s.folio f
  if e.state = 2 ∧ e.refs = 0 ∧ e.outst = 0 then
    let s := if e.nchunk = 0 ∨ e.tierRef ≠ 0 then s else freeExtent e.chunk s
    let s := if e.oldN = 0 ∨ e.oldOutst ≠ 0 then s else freeExtent e.oldChunk s
    (pushFolioId f (s.setFolio f { e with state := 0, oldN := if e.oldOutst = 0 then 0 else e.oldN,
                                           oldChunk := if e.oldOutst = 0 then 0 else e.oldChunk })).bump (FLO_CNT.COUNT 1)
  else if e.oldN ≠ 0 ∧ e.oldOutst = 0 then
    ((freeExtent e.oldChunk s).setFolio f { e with oldN := 0, oldChunk := 0 }).bump (FLO_CNT.COUNT 1)
  else s

def execFolioFree (folio : Nat) (s : State) : Host.Outcome State Fault Refusal := .next (folioFree folio s)

/-! Command records (R183). -/
structure DirCmd where
  op    : Nat := 0
  part  : Nat := 0
  conv  : Nat := 0
  conv2 : Nat := 0
  arg   : Nat := 0
  ten   : Nat := 0
  pay   : Bytes := []
  deriving DecidableEq, Repr

def dirCmd (b : Bytes) : DirCmd :=
  { op := leAt b 0 1, part := leAt b 1 1 % 32, conv := leAt b 8 6, conv2 := leAt b 0x10 6, arg := leAt b 0x18 4,
    ten := leAt b 0x1C 2, pay := slice b 0x20 32 }

/-- The ARG bits that Table 8.6 names for a command. -/
def dirArgMask (op : Nat) : Nat :=
  if op = 1 then 2 ^ 18 - 1 else if op = 2 ∨ op = 4 then 2 ^ 16 else if op = 3 then 2 ^ 32 - 1
  else if op = 5 then 2 ^ 18 - 1 else if op = 6 then 2 ^ 16 - 1 else 2 ^ 32 - 1

/-- Whether a record's reserved bytes and ARG bits are zero. -/
def dirFormOk (b : Bytes) : Bool :=
  let d := dirCmd b
  decide (b.length = 64 ∧ leAt b 1 1 < 32 ∧ leAt b 2 6 = 0 ∧ leAt b 0xE 2 = 0 ∧ leAt b 0x16 2 = 0 ∧ leAt b 0x1E 2 = 0 ∧
    andNot d.arg (dirArgMask d.op) 32 = 0) &&
  (d.op == 1 || leAt b 0x1C 2 == 0) && ((d.op != 1 && d.op != 4) || decide (leAt b 0x39 7 = 0))

/-- End a directory command: to FLO_CMD_STS, or to its descriptor. -/
def floDone (src : CmdSrc) (status : Nat) (res : Bytes) (s : State) : State :=
  let s := s.bump (FLO_CNT.COUNT 3)
  match src with
  | .reg => ((s.wr FLO_CMD_STS.BUSY 0 0).wr FLO_CMD_STS.DONE 0 1).wr FLO_CMD_STS.STATUS 0 status
  | .host p r q => jobDone p r q status res s

/-- Records of no command that have come to the front of the queue are malformed and end, unless a CONV_CLOSE runs; `n` bounds
them. -/
def floDrain : Nat → State → State
  | 0, s => s
  | n + 1, s =>
    match s.flo.waiting with
    | [] => s
    | (src, b) :: rest =>
      if s.flo.closing.isSome ∨ (1 ≤ leAt b 0 1 ∧ leAt b 0 1 ≤ 9) then s
      else floDrain n (floDone src (if floOn s then ST.DIR_CMD_FORMAT else ST.FLO_DISABLED) [] { s with flo.waiting := rest })

def floNext (s : State) : State := floDrain s.flo.waiting.length s

/-- A record reaches the folio unit: without a directory it ends at once (R172), else it waits its turn (R183). -/
def floSubmit (src : CmdSrc) (b : Bytes) (s : State) : State :=
  if ¬ floOn s then floDone src ST.FLO_DISABLED [] s
  else floNext { s with flo.waiting := s.flo.waiting ++ [(src, b)] }

/-- Whether a partition is fenced (R377). -/
def partFenced (s : State) (p : Nat) : Bool := bitOf (s.rd RAS_PFENCE_STS.FENCED) p

/-- Whether the node or a partition refuses commands (R377, R378). -/
def cmdFenced (s : State) (p : Nat) : Bool := partFenced s p || s.rd RAS_NODE_STS.STATE == 3

/-- Run the oldest command when it is `op` and none runs: refuse it, or act. -/
def dirStep (op : Nat) (act : CmdSrc → DirCmd → State → State) (s : State) : State :=
  match s.flo.waiting with
  | [] => s
  | (src, b) :: rest =>
    if s.flo.closing.isSome ∨ leAt b 0 1 ≠ op then s
    else
      let s := { s with flo.waiting := rest }
      let d := dirCmd b
      floNext (if ¬ floOn s then floDone src ST.FLO_DISABLED [] s
        else if ¬ dirFormOk b then floDone src ST.DIR_CMD_FORMAT [] s
        else if cmdFenced s d.part then floDone src ST.FENCED [] s
        else act src d s)

/-- The imposition record of a payload, bytes 0x10 to 0x2F of Table 8.2. -/
def impose (r : ConvRec) (p : Bytes) : ConvRec :=
  { r with sig := leAt p 0 4, nlayer := leAt p 4 2, nhg := leAt p 6 2, hgLo := leAt p 8 2, hgHi := leAt p 0xA 2,
           posLo := leAt p 0xC 4, posHi := leAt p 0x10 4, primary := leAt p 0x14 2, mirror := leAt p 0x16 2,
           desc := leAt p 0x18 1 }

/-- Whether imposition fields break the rules after Table 8.6. -/
def badGeometry (s : State) (r : ConvRec) : Bool :=
  decide (r.nlayer = 0 ∨ r.nhg = 0 ∨ maxRun s < r.nlayer * r.nhg ∨ r.hgHi ≤ r.hgLo ∨ r.nhg < r.hgHi ∨ r.posHi ≤ r.posLo) ||
  (match desc? s r.desc with
   | none => true
   | some d => decide (r.posLo % d.geo.span ≠ 0))

/-- The lowest free conversation record. -/
def freeConv (s : State) : Option Nat :=
  (List.range (s.flo.convs.length + 1)).find? fun i => decide ((s.conv i).state = 0 ∧ i < 2 ^ s.rd FLO_CFG.NCONV_LOG2)

def zeroRuns (c n : Nat) (s : State) : State :=
  { s with flo.runs := s.flo.runs.filter fun e => !decide (c * maxRun s ≤ e.1 ∧ e.1 < c * maxRun s + n) }

def convOpen (src : CmdSrc) (d : DirCmd) (s : State) : State :=
  let sealed := modeSealed s d.part
  let slot := d.arg % 65536
  let r := impose { conv := d.conv, state := 1, role := bits d.arg 16 1, part := d.part, sealed := sealed,
                    spread := bits d.arg 17 1, tenant := d.ten, keySlot := if sealed then slot else 0 } d.pay
  let k := keySlot s slot
  if badGeometry s r then floDone src ST.DIR_GEOMETRY [] s
  else if sealed ∧ ¬ (k.state = 1 ∧ k.part = d.part) then floDone src ST.KEY_SLOT [] s
  else if (cwdSearch s (dirKey d.part r.role d.conv) (fullMask 1) 255 1 0).isSome then floDone src ST.DIR_CONV_EXISTS [] s
  else match freeConv s with
    | none => floDone src ST.FOLIO_TBL_FULL [] s
    | some c =>
      let (st, s1) := cwdInsertType 1 1 (dirKey d.part r.role d.conv) c s
      if st ≠ ST.OK then floDone src ST.FOLIO_TBL_FULL [] s1
      else floDone src ST.OK [] ((zeroRuns c (maxRun s) s1).setConv c r)

/-- R183: CONV_OPEN. -/
def execConvOpen (s : State) : Host.Outcome State Fault Refusal := .next (dirStep 1 convOpen s)

/-- R184: CONV_CLOSE removes the directory entry and waits for CONV_CLOSE_COMPLETE. -/
def execConvClose (s : State) : Host.Outcome State Fault Refusal :=
  .next (dirStep 2 (fun src d s =>
    let role := bits d.arg 16 1
    match convFind d.part role d.conv s with
    | (none, s) => floDone src ST.DIR_NO_CONV [] s
    | (some c, s) =>
      let s := (cwdDeleteKey 1 (dirKey d.part role d.conv) s).2
      let s := s.setConv c { s.conv c with state := 2 }
      { s with flo.closing := some (src, c) }) s)

/-- The run records of a conversation. -/
def runsOf (s : State) (c : Nat) : List Nat :=
  let r := s.conv c
  (List.range r.nlayer).flatMap fun l => (List.range (r.hgHi - r.hgLo)).map fun h => runIx s c l (r.hgLo + h)

/-- Position of entry `e` of a conversation's vectors. -/
def entPos (s : State) (c e : Nat) : Nat := (s.conv c).posLo + e * spanOf s c

/-- Entries of CONV2's run `j` below a length, with what R185 finds at CONV's run `i`: a folio to copy, or a clash. -/
def sharePlan (s : State) (c i j len : Nat) : List (Nat × Nat) × Bool :=
  let es := List.filter (fun e : Nat × Nat => decide (entPos s c e.1 < len)) (s.run j).vec
  (es.filter fun e => KMap.get 0 (s.run i).vec e.1 = 0,
   es.any fun e => let x := KMap.get 0 (s.run i).vec e.1; decide (x ≠ 0 ∧ x ≠ e.2))

/-- Copy the planned entries into a run, and move its tail to the last of them where R185 says so. -/
def shareRun (c i j len : Nat) (s : State) : State :=
  let (es, _) := sharePlan s c i j len
  let s := es.foldl (fun s e =>
    let (_, s) := vecPut i e.1 e.2 s
    let f := s.folio e.2
    s.setFolio e.2 { f with refs := f.refs + 1 }) s
  match es.getLast? with
  | none => s
  | some (e, f) =>
    let r := s.run i
    let tailPos := ((List.find? (fun x : Nat × Nat => x.2 == r.tail) r.vec).map fun x => entPos s c x.1).getD 0
    if r.tail = 0 ∨ tailPos < entPos s c e then s.setRunRec i { r with tail := f } else s

/-- Leaf blocks that entries to copy into a run would take. -/
def leavesNeeded (s : State) (i : Nat) (es : List (Nat × Nat)) : Nat :=
  (((es.map fun e => e.1 / 1024).eraseDups).filter fun k => (KMap.find? (s.run i).leaf k).isNone).length

def convShare (src : CmdSrc) (d : DirCmd) (s : State) : State :=
  let role := bits (leAt d.pay 0 1) 0 1
  let (a, s) := convFind d.part role d.conv s
  let (b, s) := convFind d.part role d.conv2 s
  match a, b with
  | some a, some b =>
    let x := s.conv a
    let y := s.conv b
    let len := d.arg
    if ¬ (x.desc = y.desc ∧ x.sealed = y.sealed ∧ x.keySlot = y.keySlot ∧ x.nlayer = y.nlayer ∧ x.nhg = y.nhg ∧
        x.posLo = y.posLo ∧ x.hgLo = y.hgLo ∧ x.hgHi = y.hgHi ∧ len % spanOf s a = 0) then floDone src ST.SHARE_MISMATCH [] s
    else
      let pairs := (runsOf s a).zip (runsOf s b)
      let plans := pairs.map fun p => sharePlan s a p.1 p.2 len
      if plans.any (·.2) then floDone src ST.SHARE_MISMATCH [] s
      else if plans.any fun p => p.1.any fun e => !(s.folio e.2).closed then floDone src ST.SHARE_OPEN [] s
      else if plans.any fun p => p.1.any fun e => decide (8192 ≤ e.1) then floDone src ST.RUN_FULL [] s
      else if leavesLeft s < ((pairs.zip plans).map fun x => leavesNeeded s x.1.1 x.2.1).foldl (· + ·) 0 then
        floDone src ST.FOLIO_TBL_FULL [] s
      else if leafPoison s ∧ ((pairs.zip plans).any fun x => leavesNeeded s x.1.1 x.2.1 != 0) then
        floDone src ST.POISON [] (tableFatal true s)
      else floDone src ST.OK [] (pairs.foldl (fun s p => shareRun a p.1 p.2 len s) s)
  | _, _ => floDone src ST.DIR_NO_CONV [] s

/-- R185: CONV_SHARE. -/
def execConvShare (s : State) : Host.Outcome State Fault Refusal := .next (dirStep 3 convShare s)

/-- R183: CONV_IMPOSE replaces SIG_ID, PRIMARY and MIRROR; the other imposition fields must be unchanged. -/
def execConvImpose (s : State) : Host.Outcome State Fault Refusal :=
  .next (dirStep 4 (fun src d s =>
    match convFind d.part (bits d.arg 16 1) d.conv s with
    | (none, s) => floDone src ST.DIR_NO_CONV [] s
    | (some c, s) =>
      let r := s.conv c
      let n := impose r d.pay
      if { n with sig := r.sig, primary := r.primary, mirror := r.mirror } ≠ r then floDone src ST.DIR_GEOMETRY [] s
      else floDone src ST.OK [] (s.setConv c n)) s)

/-- R186: ACL_GRANT inserts an access entry. -/
def execAclGrant (s : State) : Host.Outcome State Fault Refusal :=
  .next (dirStep 5 (fun src d s =>
    let (st, s) := cwdInsertType 2 1 (accessKey d.part (d.arg % 65536) d.conv) (bits d.arg 16 2) s
    floDone src st [] s) s)

/-- R183: ACL_DROP deletes it. -/
def execAclDrop (s : State) : Host.Outcome State Fault Refusal :=
  .next (dirStep 6 (fun src d s =>
    let (ok, s) := cwdDeleteKey 1 (accessKey d.part (d.arg % 65536) d.conv) s
    floDone src (if ok then ST.OK else ST.CWD_NOT_FOUND) [] s) s)

/-- The prefix key of a command: its units, its key, and the type of its entries. -/
def prefixKeyOf (s : State) (d : DirCmd) : Nat × Nat × Nat :=
  let digest := leNat d.pay
  let desc := d.arg % 256
  let len := d.arg / 256
  if (bankOf s 4 4).isSome then (4, prefixKey4 d.part desc len digest, 4) else (2, prefixKey2 d.part desc len digest, 3)

/-- Where PREFIX_PUT places an entry so that lengths descend: before the first shorter one of its type, partition
and descriptor, else at the first place after the last of them that its group can spare (R189). -/
def prefixPlace (s : State) (b key : Nat) : Nat :=
  let head := 2 ^ 92 * 15 + 31 * 2 ^ 87 + 255 * 2 ^ 79
  let same := List.filter (fun e : Nat × CwdEnt => e.1 / 32768 == b && (e.2.key &&& head) == (key &&& head)) s.cwd.ents
  match same.find? fun e => decide (bits e.2.key 32 32 < bits key 32 32) with
  | some e => e.1 % 32768
  | none =>
    let after := ((same.getLast?).map fun e => e.1 % 32768 + 1).getD 0
    let free := (List.range (bankPlaces s b / 64)).flatMap fun g =>
      let l := groupFree s b g
      if 2 ≤ l.length then l else []
    (free.find? fun q => decide (after ≤ q)).getD after

/-- R189: PREFIX_PUT. -/
def execPrefixPut (s : State) : Host.Outcome State Fault Refusal :=
  .next (dirStep 7 (fun src d s =>
    let (u, key, ty) := prefixKeyOf s d
    match convFind d.part 0 d.conv s with
    | (none, s) => floDone src ST.DIR_NO_CONV [] s
    | (some c, s) =>
      match bankOf s ty u with
      | none => floDone src ST.CWD_GROUP_FULL [] (s.bump (CWD_CNT.COUNT 3))
      | some b =>
        let (st, _, s) := cwdInsertAt b (prefixPlace s b key) key c s
        floDone src st [] s) s)

/-- R183: PREFIX_DROP. -/
def execPrefixDrop (s : State) : Host.Outcome State Fault Refusal :=
  .next (dirStep 8 (fun src d s =>
    let (u, key, _) := prefixKeyOf s d
    let (ok, s) := cwdDeleteKey u key s
    floDone src (if ok then ST.OK else ST.CWD_NOT_FOUND) [] s) s)

/-- R183: PREFIX_FIND returns the donor handle and the length. -/
def execPrefixFind (s : State) : Host.Outcome State Fault Refusal :=
  .next (dirStep 9 (fun src d s =>
    let (u, key, _) := prefixKeyOf s d
    let s := s.bump (CWD_CNT.COUNT 0)
    match cwdSearch s key (fullMask u) 255 u 0 with
    | none => floDone src ST.CWD_NOT_FOUND [] s
    | some (_, _, e) => floDone src ST.OK (natLe 8 (s.conv e.res).conv ++ natLe 4 (d.arg / 256)) s) s)

/-- R190: the folio unit reinserts a directory entry that parity lost, from an active conversation record. -/
def execCwdReinsert (conv : Nat) (s : State) : Host.Outcome State Fault Refusal :=
  let r := s.conv conv
  let key := dirKey r.part r.role r.conv
  if r.state = 1 ∧ (cwdSearch s key (fullMask 1) 255 1 0).isNone then
    let (st, s) := cwdInsertType 1 1 key conv s
    .next (if st = ST.OK then s.bump (FLO_CNT.COUNT 6) else s)
  else .next s

end Sys2Proof.Machine
end

