-- ==== Sys2Proof/Machine/Acct.lean ====
section
/-!
DEFINITION. Accounting (R208–R212): the records of the ring and what they carry, and the slots of a ticket.
-/
namespace Sys2Proof.Machine

/-! Records (Table 9.4). -/
def sat32 (n : Nat) : Nat := min n 0xFFFFFFFF

/-- What a record carries besides its counts. -/
structure AcctHead where
  ty     : Nat := 1
  part   : Nat := 0
  tenant : Nat := 0
  ream   : Nat := 0
  step   : Nat := 0
  status : Nat := 0
  attempt : Nat := 0
  slots  : Nat := 0
  delta  : Int := 0
  conv   : Nat := 0
  deriving DecidableEq, Repr

def ringSize (s : State) : Nat := 2 ^ s.rd REAM_ACCT_CFG.SIZE_LOG2
def ringUsed (s : State) : Nat := (s.rd REAM_ACCT_PROD.INDEX + 2 ^ 32 - s.rd REAM_ACCT_CONS.INDEX) % 2 ^ 32

/-- The 64 bytes of a record, with its energy in nJ. -/
def acctBytes (h : AcctHead) (c : Charge) (gap : Bool) (nj time : Nat) : Bytes :=
  let big := [c.cmp, c.plt, c.gal, c.stk, c.fab, c.hst, c.tier].any fun n => decide (0xFFFFFFFF ≤ n)
  natLe 1 h.ty ++ natLe 1 h.part ++ natLe 2 h.tenant ++ natLe 4 h.ream ++ natLe 4 h.step ++ natLe 2 h.status ++
  natLe 1 h.attempt ++ natLe 1 (2 * b2n big + b2n gap) ++
  natLe 4 (if h.ty = 2 then ofInt 32 h.delta else sat32 c.cmp) ++ natLe 4 (sat32 c.plt) ++
  (if h.ty = 2 then natLe 8 h.conv else natLe 4 (sat32 c.gal) ++ natLe 4 (sat32 c.stk)) ++
  natLe 4 (sat32 c.fab) ++ natLe 4 (sat32 c.hst) ++ natLe 4 (sat32 c.tier) ++ natLe 2 h.slots ++ natLe 2 0 ++
  natLe 8 nj ++ natLe 8 time

/-- Add a diverted record's counts to the unlogged accumulators (R211). -/
def divert (h : AcctHead) (c : Charge) (nj : Nat) (s : State) : State :=
  let add (i n : Nat) (s : State) := s.addWrap (REAM_PUNLOG.VALUE i) h.part n
  let s := if h.ty = 1 then add 3 c.gal (add 4 c.stk (add 5 c.fab (add 6 c.hst (add 1 c.plt (add 0 c.cmp s)))))
           else if h.ty = 3 then add 2 c.plt (add 9 c.cmp s) else s
  let s := add 8 nj (add 7 c.tier s)
  ({ s with rea.gap := KMap.put 0 s.rea.gap h.part 1 }).bump REAM_ACCT_LOST_CNT.COUNT

/-- Form a record: its energy in whole nJ with what the last of its type left over (R209), written to the ring, or
diverted where the ring is full (R210, R211). -/
def acctRecord (h : AcctHead) (c : Charge) (s : State) : State :=
  if ¬ s.flag REAM_ACCT_CFG.EN then s
  else
    let ck := 4 * h.part + h.ty
    let total := KMap.get 0 s.rea.carry ck + c.pj
    let nj := total / 256000
    let s := { s with rea.carry := KMap.put 0 s.rea.carry ck (total % 256000) }
    if ringSize s ≤ ringUsed s then divert h c nj s
    else
      let i := s.rd REAM_ACCT_PROD.INDEX
      let b := acctBytes h c (KMap.get 0 s.rea.gap h.part = 1) nj (s.rd TIME_NOW.NS)
      let s := { s with rea.gap := KMap.put 0 s.rea.gap h.part 0 }
      let s := writeUpper 0 (s.rd REAM_ACCT_BASE.OFFSET * 4096 + 64 * (i % ringSize s)) b s
      let s := (s.addWrap REAM_ACCT_PROD.INDEX 0 1).emit (.acct h.part b)
      if ringUsed s * 4 = ringSize s * 3 then signalNode s else s

/-! Slots of a ticket (Tables 7.1 and 7.2). -/
def tktNslot (t : Bytes) : Nat := leAt t 0x0C 2
def tktPart (t : Bytes) : Nat := leAt t 0x0E 1 % 32
def tktReam (t : Bytes) : Nat := leAt t 4 4
def tktStep (t : Bytes) : Nat := leAt t 8 4
def tktAttempt (t : Bytes) : Nat := leAt t 3 1
def tktSig (t : Bytes) : Nat := leAt t 0x10 4
def tktForm (t : Bytes) : Nat := leAt t 2 1 % 4
def tktReqNode (t : Bytes) : Nat := leAt t 0x14 2
def tktReqCtx (t : Bytes) : Nat := leAt t 0x16 2
def tktLen (t : Bytes) : Nat := leAt t 0x18 4
def tktLenOff (t : Bytes) : Nat := leAt t 0x1C 4

/-- A slot entry with its KV_LEN. -/
structure Slot where
  conv  : Nat := 0
  layer : Nat := 0
  hg    : Nat := 0
  nq    : Nat := 0
  nh    : Nat := 0
  qfmt  : Nat := 0
  mask  : Nat := 0
  ten   : Nat := 0
  qpos  : Nat := 0
  afmt  : Nat := 0
  rot   : Bool := false
  app   : Bool := false
  qOff  : Nat := 0
  aOff  : Nat := 0
  bmOff : Nat := 0
  tau   : Nat := 0
  kvLen : Nat := 0
  deriving DecidableEq, Repr

def slotOf (t : Bytes) (i : Nat) : Slot :=
  let b := slice t (0x40 + 64 * i) 64
  let f := leAt b 0x14 1
  { conv := leAt b 0 6, layer := leAt b 6 2, hg := leAt b 8 2, nq := leAt b 0xA 1, nh := leAt b 0xB 1,
    qfmt := leAt b 0xC 1 % 16, mask := leAt b 0xD 1, ten := leAt b 0xE 2, qpos := leAt b 0x10 4, afmt := f / 4 % 16,
    rot := bitOf f 1, app := bitOf f 0, qOff := leAt b 0x18 4, aOff := leAt b 0x1C 4, bmOff := leAt b 0x20 4,
    tau := leAt b 0x24 4, kvLen := leAt t (tktLenOff t + 4 * i) 4 }

def slots (t : Bytes) : List Slot := (List.range (tktNslot t)).map (slotOf t)

/-- Tenants of a ticket, ascending. -/
def tenantsOf (t : Bytes) : List Nat :=
  (slots t).foldl (fun l x => if l.contains x.ten then l else (l.filter (· < x.ten)) ++ [x.ten] ++ l.filter (x.ten < ·)) []

/-- Write an attempt's type 1 records with a status (R210). -/
def acctTenants (a : Att) (status : Nat) (s : State) : State :=
  (tenantsOf a.ticket).foldl (fun s t =>
    acctRecord { part := a.part, tenant := t, ream := a.ream, step := a.step, status := status, attempt := a.attempt,
                 slots := ((slots a.ticket).filter fun x => x.ten = t).length } ((KMap.find? a.charges t).getD {}) s) s

/-- The spill charges that a conversation's next type 2 record carries, and the state without them. -/
def takeSpill (o : OwedChunks) (s : State) : Charge × State :=
  if (s.conv o.row).conv = o.conv then ((KMap.find? s.rea.spill o.row).getD {}, { s with rea.spill := KMap.erase s.rea.spill o.row })
  else ({}, s)

/-- Write the type 2 records of what a ream changed, one for each storage tenant (R210). -/
def acctStorage (h : AcctHead) (os : List OwedChunks) (s : State) : State :=
  (os.map (·.tenant)).eraseDups.foldl (fun s t =>
    let mine := os.filter (·.tenant = t)
    let (owed, s) := mine.foldl (fun (r : Charge × State) o => let (c, s) := takeSpill o r.2; (r.1.plus c, s)) ({}, s)
    acctRecord { h with ty := 2, tenant := t, delta := (mine.map (·.delta)).foldl (· + ·) 0, conv := ((mine.head?).map (·.conv)).getD 0 }
      owed s) s

/-- What an attempt changed, by conversation. -/
def attOwed (s : State) (a : Att) : List OwedChunks :=
  List.map (fun e : Nat × Int => { row := e.1, conv := (s.conv e.1).conv, tenant := (s.conv e.1).tenant, delta := e.2 }) a.chunks

def owedKey (part ream : Nat) : Nat := part * 2 ^ 32 + ream

/-- Write the type 2 records that a ream is owed, with what its last attempt here changed. DESIGN CHOICE: at the end of the
attempt that is its last one by what this node knows. -/
def acctOwed (h : AcctHead) (more : List OwedChunks) (s : State) : State :=
  let k := owedKey h.part h.ream
  acctStorage h (KMap.get [] s.col.owed k ++ more) { s with col.owed := KMap.erase s.col.owed k }

/-- The records of an attempt that ends here with a status; its chunks are kept for the ream where that may go on. -/
def acctAttempt (a : Att) (status : Nat) (last : Bool) (s : State) : State :=
  let s := acctTenants a status s
  if last then acctOwed { part := a.part, ream := a.ream, step := a.step, status := status, attempt := a.attempt } (attOwed s a) s
  else if a.chunks.isEmpty then s
  else { s with col.owed := KMap.upd [] s.col.owed (owedKey a.part a.ream) (· ++ attOwed s a) }

/-! Block clocks (R412). -/
def blockLevel (s : State) (b : Nat) : Nat := s.rd (PCM_CLK_STS.LEVEL (b / 16))
/-- Cycles of a block's clock in `ns`, at 0.4 + 0.2 L GHz. -/
def blockCycles (s : State) (b ns : Nat) : Nat := ns * (4 + 2 * blockLevel s b) / 10
def boosted (s : State) (b : Nat) : Bool := blockLevel s b == 10

end Sys2Proof.Machine
end

