-- ==== Sys2Proof/Machine/Hold.lean ====
section
/-!
DEFINITION. The state that a gang holds between the phases of a press (R97, R98): whose it is, and how it is dropped
(Table 4.8).
-/
namespace Sys2Proof.Machine

def pltHold (s : State) (g : Nat) : PltHold := KMap.get {} s.plt.holds g
/-- A list or a hold leaves a gang. -/
def leaveGang (g : Nat) (s : State) : State := { s with plt.freeAt := KMap.put 0 s.plt.freeAt g s.now }

def State.setHold (s : State) (g : Nat) (h : PltHold) : State :=
  let s := { s with plt.holds := KMap.put {} s.plt.holds g h }
  let s := if h.held then s else leaveGang g s
  s.wr PLT_STS.HELD (g / 8) (setBits (s.rd PLT_STS.HELD (g / 8)) (g % 8) 1 (b2n h.held))

/-- The gang on whose units a list runs. -/
def PltList.gangOf (l : PltList) : Nat := l.target / (if l.gang then 1 else 8)

/-- Take the queued lists that satisfy `p` off every stack. -/
def dropQueued (p : PltList → Bool) (s : State) : State :=
  let gs := s.plt.queues.flatMap fun q : Nat × List PltList => (q.2.filter p).map fun l => 8 * q.1 + l.gangOf
  gs.foldl (fun s g => leaveGang g s) { s with plt.queues := s.plt.queues.map fun q => (q.1, q.2.filter fun l => !p l) }

/-- The log of a failed or refused list. -/
def pltLog (k status unit index part tag : Nat) (s : State) : State :=
  ((((s.wr PLT_ERR_LOG0.STATUS k status).wr PLT_ERR_LOG0.UNIT k unit).wr PLT_ERR_LOG0.CMD_INDEX k index).wr
    PLT_ERR_LOG1.PART k part).wr PLT_ERR_LOG1.TAG k tag

/-- Drop a hold between phases, counted in PLT_CNT4 and logged (R98). -/
def dropHold (k set : Nat) (s : State) : State :=
  let h := pltHold s (8 * k + set)
  if h.held then
    pltLog k ST.PHASE_LOST (8 * set) 255 h.part 0
      ((s.setHold (8 * k + set) { h with held := false, lost := some h.issuer, uncounted := false }).bump (PLT_CNT.COUNT 4) k)
  else s

/-- Every held state of a stack is dropped (Table 4.8). -/
def dropStack (k : Nat) (s : State) : State := (List.range 8).foldl (fun s i => dropHold k i s) s

/-- Forget that an issuer has lost the state of a gang: its next press is a new one. -/
def forgetLost (i : PltIssuer) (s : State) : State :=
  (s.plt.holds.filter fun e => e.2.lost == some i).foldl (fun s e => s.setHold e.1 { e.2 with lost := none, uncounted := false }) s

/-- Every state held for a press that a block issued is dropped (Table 4.8), and no command of that press follows. -/
def dropOf (b : Nat) (s : State) : State :=
  forgetLost (.block b)
    ((s.plt.holds.filter fun e => e.2.held && e.2.issuer == .block b).foldl (fun s e => dropHold (e.1 / 8) (e.1 % 8) s) s)

end Sys2Proof.Machine
end

