-- ==== Sys2Proof/Machine/Blocks.lean ====
section
/-!
DEFINITION. Compositor blocks as the scheduler and the collator see them (R112–R116, R176): clock gates, idle and
busy cycles, outstanding counts, and taking a composition off a block.
-/
namespace Sys2Proof.Machine

def State.blk (s : State) (b : Nat) : BlkSt := KMap.get {} s.cmp.blocks b
def State.setBlk (s : State) (b : Nat) (x : BlkSt) : State := { s with cmp.blocks := KMap.put {} s.cmp.blocks b x }

def blkFenced (s : State) (b : Nat) : Bool := s.rd CMP_SEQ_STS.STATE b == 4

/-- Charge the idle warm cycles of a block up to now (Table 9.2). -/
def settleWarm (b : Nat) (s : State) : State :=
  if s.flag CMP_SEQ_STS.CLK_ON b ∧ (s.blk b).cur = none then
    let n := blockCycles s b (s.now - KMap.get 0 s.rea.idleAt b)
    let s := { s with rea.idleAt := KMap.put 0 s.rea.idleAt b s.now }
    match blockOwner s b with
    | some p => if n = 0 then s else chargeOver p .warm n s
    | none => s
  else s

/-- Open a block's clock gate; each opening counts in CMP_CNT7 (R112, R201). -/
def gateOpen (b : Nat) (s : State) : State :=
  if s.flag CMP_SEQ_STS.CLK_ON b then s
  else
    let s := (s.wr CMP_SEQ_STS.CLK_ON b 1).bump (CMP_CNT.COUNT 7) b
    { s with rea.gateAt := KMap.put 0 s.rea.gateAt b s.now, rea.idleAt := KMap.put 0 s.rea.idleAt b s.now }

def gateShut (b : Nat) (s : State) : State := (settleWarm b s).wr CMP_SEQ_STS.CLK_ON b 0

def nodeRuns (s : State) : Bool := s.rd PCM_STATE.NODE == 0
/-- Whether the node admits work: neither in KEEP nor on the way to it or from it (R418, R419). -/
def nodeAdmits (s : State) : Bool := decide (s.rd PCM_STATE.NODE ≤ 1)
def regionDozes (s : State) (r : Nat) : Bool := bitOf (s.rd PCM_STATE.DOZE) r

/-- Whether a block has no composition: none runs, is queued, or is pending on it. -/
def blockFree (s : State) (b : Nat) : Bool := (s.blk b).cur.isNone && (s.blk b).queue.isEmpty && s.rea.pool.all fun x => x.block != b

/-- Close the gate of a free block under energy-first, of one without an owner (R112), or of any under cap step 12
(Table 18.4). -/
def gateRest (b : Nat) (s : State) : State :=
  if ¬ blockFree s b then s
  else
    let shut := match blockOwner s b with
      | some p => modeEnergy s p
      | none => true
    if shut || decide (12 ≤ s.rd PCM_CLK_STS.STEP) then gateShut b s else s

/-- The gate of a block as its owner's power mode asks: open under latency-first while the node is in RUN and the cap allows
it (R31), else as `gateRest` leaves it. -/
def gateSettle (b : Nat) (s : State) : State :=
  match blockOwner s b with
  | some p =>
    if ¬ modeEnergy s p ∧ nodeRuns s ∧ ¬ regionDozes s (b / 16) ∧ s.rd PCM_CLK_STS.STEP < 12 then gateOpen b s else gateRest b s
  | none => gateRest b s

def gatesSettle (s : State) : State := (List.range 64).foldl (fun s b => gateSettle b s) s

/-- A composition leaves a folio: its count on the extent it was dispatched on falls (R176). -/
def dropOutst (f : FSlot) (s : State) : State :=
  let e := s.folio f.folio
  if f.folio = 0 then s
  else if chunkOff e.chunk = f.base then s.setFolio f.folio { e with outst := e.outst - 1 }
  else s.setFolio f.folio { e with oldOutst := e.oldOutst - 1 }

/-- A composition or a press list is dispatched on an extent of a folio (R176). -/
def addOutst (f : FSlot) (s : State) : State :=
  if f.folio = 0 then s else s.setFolio f.folio { s.folio f.folio with outst := (s.folio f.folio).outst + 1 }

/-- Whether a folio's count is full, so that a dispatch on it waits (R176). -/
def outstFull (s : State) (f : FSlot) : Bool := f.folio != 0 && decide (65535 ≤ (s.folio f.folio).outst)

/-- The tenant of a composition's slot. -/
def compTenant (s : State) (c : Comp) : Nat := ((s.att? c.att).map fun a => (slotOf a.ticket c.slot).ten).getD 0

/-- Take the running composition off a block: its cycles are charged, its folios released, and the block idle. -/
def takeComp (b : Nat) (s : State) : State :=
  let x := s.blk b
  match x.cur with
  | none => s
  | some c =>
    let s := chargeAtt c.att (compTenant s c) .cmp x.cycles (boosted s b) s
    let s := s.addWrap CMP_BUSY_CYC.CYCLES b x.cycles
    let s := c.slots.foldl (fun s f => dropOutst f s) s
    let s := s.setBlk b { x with cur := none, lists := x.lists.map fun l => { l with live := false }, waited := false, stream := none, port := {}, press := [], emitted := [], cycles := 0, repeats := 0 }
    let s := if blkFenced s b ∨ s.rd CMP_SEQ_STS.STATE b = 5 then s else s.wr CMP_SEQ_STS.STATE b 0
    gateRest b (unstall (.fexp b {}) { s with rea.idleAt := KMap.put 0 s.rea.idleAt b s.now })

/-- A press list of a block has ended or is dropped: the oldest with its tag. -/
def listEnds (b tag : Nat) (s : State) : State :=
  match (s.blk b).lists.find? fun l => l.tag == tag with
  | none => s
  | some l => dropOutst { folio := l.folio, base := l.base } (s.setBlk b { s.blk b with lists := (s.blk b).lists.erase l })

/-- Drop the lists of a block that wait: at a stack controller, or for tokens (R303). -/
def dropLists (b : Nat) (s : State) : State :=
  let queued := s.plt.queues.flatMap fun q : Nat × List PltList => (q.2.filter fun l => l.issuer = .block b).map (·.tag)
  let held := s.rea.regWait.filterMap fun r => match r with
    | .list _ i hd _ _ => if i = .block b then some (leAt hd 6 2) else none
    | .gut _ _ _ _ => none
    | .stk _ => none
  let s := dropQueued (fun l => l.issuer == .block b) s
  let s := { s with rea.regWait := s.rea.regWait.filter fun r => match r with
                      | .list _ i _ _ _ => i ≠ .block b
                      | .gut _ _ _ _ => true
                      | .stk _ => true }
  (queued ++ held).foldl (fun s tag => listEnds b tag s) s

/-- Drop what an attempt has queued or running on a block (R303). Lists that the block issued and that still wait
are dropped with it; those that run end without a taker. -/
def clearBlock (k b : Nat) (s : State) : State :=
  let x := s.blk b
  let s := s.setBlk b { x with queue := x.queue.filter fun c => c.att ≠ k }
  let mine := match x.cur with
    | some c => c.att == k
    | none => false
  gateRest b (if mine then takeComp b (dropLists b s) else s)

end Sys2Proof.Machine
end

