-- ==== Sys2Proof/Machine/Frames.lean ====
section
/-!
DEFINITION. MFP frames (R240–R243): layout, route choice (R248–R251), class queues and their tags (R257, R258),
ingress occupancy and priority pause (R253), and the messages that this node originates (R241).
-/
namespace Sys2Proof.Machine

/-- The 32 bytes of a frame's header (Table 11.3). -/
def Frame.header (f : Frame) : Bytes :=
  natLe 1 f.ty ++
  natLe 1 (f.tc * 32 + b2n f.sr * 16 + b2n f.yellow * 8 + b2n f.first * 4 + b2n f.last * 2) ++
  natLe 1 (64 + f.hops % 64) ++ natLe 1 (f.part % 32) ++ natLe 2 f.dst ++ natLe 2 f.src ++
  natLe 2 f.pay.length ++ natLe 2 f.keyGen ++ natLe 2 (f.chan % 16 * 4096 + f.keySlot % 4096) ++ natLe 2 0 ++
  natLe 4 (f.seq % 2 ^ 24) ++ natLe 4 f.msg ++ natLe 4 f.off ++ natLe 4 f.arg

/-- The end-to-end CRC: HOPS and YELLOW count as zero (R242). -/
def Frame.crc (f : Frame) : Nat := crc32c (({ f with hops := 0, yellow := false } : Frame).header ++ f.ext ++ f.pay)

/-- A frame as it travels, without the link envelope. -/
def Frame.bytes (f : Frame) : Bytes := f.header ++ f.ext ++ f.pay ++ natLe 4 (f.crc ^^^ f.crcErr)

/-- Bytes of a frame in a buffer, and on a link (R245). -/
def Frame.size (f : Frame) : Nat := 36 + f.ext.length + f.pay.length
def linkBytes (s : State) (code : Nat) (f : Frame) : Nat := f.size + 4 + (if s.flag FAB_PORT_CFG.PROT code then 24 else 0)

/-- The classes a frame type may have (Table 11.4). -/
def typeClasses (ty : Nat) : List Nat :=
  if ty = 1 then [1] else if ty = 2 ∨ ty = 3 ∨ ty = 4 then [2] else if ty = 5 then [5] else if ty = 6 then [0]
  else if 0x10 ≤ ty ∧ ty ≤ 0x17 then [3, 4, 6, 7] else if ty = 0x20 then [0]
  else if 0x38 ≤ ty ∧ ty ≤ 0x3D then [0] else []

/-- Read a frame from its bytes; `none` where the header is not valid (R236, R241). -/
def parseFrame (b : Bytes) : Option Frame :=
  let b1 := leAt b 1 1
  let sr := bitOf b1 4
  let len := leAt b 8 2 % 8192
  let x := if sr then 64 else 0
  let f : Frame :=
    { ty := leAt b 0 1, tc := b1 / 32, sr := sr, yellow := bitOf b1 3, first := bitOf b1 2, last := bitOf b1 1,
      hops := leAt b 2 1 % 64, part := leAt b 3 1 % 32, dst := leAt b 4 2, src := leAt b 6 2,
      keyGen := leAt b 0xA 2, chan := leAt b 0xC 2 / 4096, keySlot := leAt b 0xC 2 % 4096,
      seq := leAt b 0x10 3, msg := leAt b 0x14 4, off := leAt b 0x18 4, arg := leAt b 0x1C 4,
      ext := slice b 32 x, pay := slice b (32 + x) len }
  if leAt b 2 1 / 64 = 1 ∧ len ≤ 4096 ∧ (typeClasses f.ty).contains f.tc ∧ b.length = 36 + x + len then some f else none

/-- What the end-to-end CRC of a frame's bytes differs by from the right one; 0 where it is right (R242). -/
def crcGap (b : Bytes) : Nat :=
  let h := leAt b 1 1
  let r := splice (b.take (b.length - 4)) 1 (natLe 1 (h - bits h 3 1 * 8) ++ natLe 1 (leAt b 2 1 / 64 * 64))
  crc32c r ^^^ leAt b (b.length - 4) 4

/-! Ports. -/
def State.port (s : State) (c : Nat) : PortSt := KMap.get {} s.fab.ports c
def State.setPort (s : State) (c : Nat) (p : PortSt) : State := { s with fab.ports := KMap.put {} s.fab.ports c p }

/-- An egress code names a logical port: an even code, or an odd one of a port in mode 2 (R237). -/
def codeNames (s : State) (c : Nat) : Bool := decide (c < 24) && (c % 2 == 0 || s.rd FAB_PORT_CFG.MODE (c - 1) == 2)
/-- A port that is up; in KEEP its link is in electrical idle (R238). -/
def portUp (s : State) (c : Nat) : Bool := codeNames s c && s.rd FAB_PORT_STS.STATE c == 4 && s.rd PCM_STATE.NODE != 3
def portProt (s : State) (c : Nat) : Bool := s.flag FAB_PORT_CFG.PROT c

/-- Where a frame goes next. -/
inductive Hop where
  | egress (code : Nat)
  | noRoute
  | protDrop
  deriving DecidableEq, Repr

/-- The egress of a frame on its `h`-th link of a source route, or by the active route table (R249–R251). -/
def nextHop (s : State) (f : Frame) (h : Nat) : Hop :=
  let prot := modeProt s f.part
  if f.sr then
    let code := leAt f.ext h 1
    if leAt f.ext 0 1 < h ∨ ¬ portUp s code then .noRoute
    else if prot ∧ ¬ portProt s code then .protDrop else .egress code
  else
    let e := s.rd (FAB_RT_ACTIVE.ENTRY f.dst)
    let main := bits e 0 5
    let alt := bits e 5 5
    if ¬ bitOf e 15 then .noRoute
    else if prot then
      if ¬ bitOf e 13 then .protDrop
      else if portProt s main ∧ portUp s main then .egress main
      else if bitOf e 14 ∧ portProt s alt ∧ portUp s alt then .egress alt
      else .protDrop
    else if portUp s main then .egress main
    else if bitOf e 14 ∧ portUp s alt then .egress alt
    else .noRoute

/-! Occupancy and pause (R253). -/
def pauseFrame (s : State) (cls time : Nat) : Frame :=
  let body := natLe 1 (2 ^ cls) ++ natLe 1 0 ++ (List.range 8).flatMap fun c => natLe 2 (if c = cls then time else 0)
  { ty := 0x39, dst := nodeId s, src := nodeId s, pay := body }

def sendPause (code cls time : Nat) (s : State) : State :=
  let p := s.port code
  (s.setPort code { p with urgent := p.urgent ++ [pauseFrame s cls time] }).bump FAB_PAUSE_TX_CNT.COUNT code

def kib (n : Nat) : Nat := (n + 1023) / 1024

/-- Add a frame to the occupancy of its class at an ingress; at XOFF the port sends PAUSE. -/
def occAdd (code cls n : Nat) (s : State) : State :=
  let p := s.port code
  let now := KMap.get 0 p.occ cls + n
  let s := s.setPort code { p with occ := KMap.put 0 p.occ cls now }
  let s := s.wr (FAB_OCC.MAX cls) code (max (s.rd (FAB_OCC.MAX cls) code) (min 65535 (kib now)))
  if s.rd FAB_PFC_CFG.XOFF code * 16384 ≤ now ∧ KMap.get 0 p.xoff cls = 0 then
    let p := s.port code
    sendPause code cls (s.rd FAB_PFC_CFG.PAUSE_NS code) (s.setPort code { p with xoff := KMap.put 0 p.xoff cls (s.now + 1) })
  else s

/-- Take a frame out of the occupancy; at XON the port sends PAUSE with time 0. -/
def occSub (f : Frame) (s : State) : State :=
  match f.from? with
  | none => s
  | some code =>
    let p := s.port code
    let now := KMap.get 0 p.occ f.tc - f.size
    let s := s.setPort code { p with occ := KMap.put 0 p.occ f.tc now }
    if now ≤ s.rd FAB_PFC_CFG.XON code * 16384 ∧ KMap.get 0 p.xoff f.tc ≠ 0 then
      let p := s.port code
      sendPause code f.tc 0 (s.setPort code { p with xoff := KMap.put 0 p.xoff f.tc 0 })
    else s

/-! Class queues (R257, R258). -/
def tagMod : Nat := 2 ^ 48
/-- Whether tag `a` stands at or before `b` modulo 2^48. -/
def tagLe (a b : Nat) : Bool := decide ((b + tagMod - a % tagMod) % tagMod < 2 ^ 47)
def tagMax (a b : Nat) : Nat := if tagLe a b then b else a

def PortSt.classQ (p : PortSt) (c : Nat) : List Frame := KMap.get [] p.green c ++ KMap.get [] p.yel c
/-- The head frame of a class: the yellow part only when the green part is empty. -/
def PortSt.headOf (p : PortSt) (c : Nat) : Option Frame := (p.classQ c).head?

/-- Tag the head of a class that has just become the head. -/
def tagHead (code c : Nat) (wasEmpty : Bool) (s : State) : State :=
  let p := s.port code
  match p.headOf c with
  | none => s
  | some f =>
    let w := s.rd (FAB_WFQ_CFG.W c) code
    let old := KMap.get 0 p.tag c
    let start :=
      if wasEmpty then tagMax old ((p.vtime + tagMod - ceilDiv (s.rd (FAB_WFQ_BURST.B c) code * 1024 * 256) w) % tagMod)
      else old
    s.setPort code { p with tag := KMap.put 0 p.tag c ((start + ceilDiv (linkBytes s code f * 256) w) % tagMod) }

/-- An access of a region is over: its outstanding count falls (R271). -/
def regionDone (ix : Nat) (s : State) : State :=
  let g := KMap.get {} s.rch.regs ix
  { s with rch.regs := KMap.put {} s.rch.regs ix { g with outst := g.outst - 1 } }

/-- A frame has left or is dropped: the access it ends is over. -/
def frameGone (f : Frame) (s : State) : State :=
  match f.tok? with
  | none => s
  | some ix => regionDone ix s

/-- Put a frame in its class queue of an egress; a class in drop mode drops it (R256). -/
def enqueue (code : Nat) (f : Frame) (s : State) : State :=
  if bitOf (s.rd FAB_PORT_STS.DROP_MODE code) f.tc then frameGone f (s.bump FAB_STORM_DROP_CNT.COUNT code)
  else
    let p := s.port code
    let empty := (p.classQ f.tc).isEmpty
    let p := if f.yellow then { p with yel := KMap.put [] p.yel f.tc (KMap.get [] p.yel f.tc ++ [f]) }
             else { p with green := KMap.put [] p.green f.tc (KMap.get [] p.green f.tc ++ [f]) }
    let s := s.setPort code p
    if empty then tagHead code f.tc true s else s

/-- Deliver a whole, right frame to this node's fabric core: one whose key generation is closed is dropped (R243), and
no RESULT or COLOPHON has a taker (R327). -/
def deliver (f : Frame) (s : State) : State :=
  if f.keySlot ≠ 0 ∧ ¬ keyOpen s f.keySlot f.keyGen then frameGone f (occSub f (s.bump FAB_KEYGEN_DROP_CNT.COUNT))
  else if f.ty = 3 ∨ f.ty = 4 then occSub f (s.bump FAB_HDR_DROP_CNT.COUNT)
  else frameGone f { s with fab.inbox := s.fab.inbox ++ [{ f with tok? := none, wr? := none }] }

/-- Send a frame that this node originates: `false` where no route takes it, which is ST_FAB_NO_ROUTE (R249, R251).
One addressed to this node is delivered here (R248). -/
def sendFrame (f : Frame) (s : State) : Bool × State :=
  let f := { f with hops := 1, src := nodeId s, from? := none }
  if f.dst = nodeId s then (true, deliver f s)
  else match nextHop s f 1 with
  | .egress c => (true, enqueue c f s)
  | .noRoute => (false, frameGone f s)
  | .protDrop => (false, frameGone f (s.bump FAB_PROT_DROP_CNT.COUNT))

/-- Send a frame ahead of every queue at the next frame boundary, as ABORT is (R302). -/
def sendUrgent (f : Frame) (s : State) : State :=
  let f := { f with hops := 1, src := nodeId s, from? := none }
  if f.dst = nodeId s then deliver f s
  else match nextHop s f 1 with
  | .egress c => let p := s.port c; s.setPort c { p with urgent := p.urgent ++ [f] }
  | .noRoute => s
  | .protDrop => s.bump FAB_PROT_DROP_CNT.COUNT

/-- Cut a message into frames of at most 4,096 bytes at consecutive offsets (R241). -/
def cutMsg (f : Frame) : Nat → Nat → Bytes → List Frame
  | 0, _, _ => []
  | n + 1, off, b =>
    let here := b.take 4096
    let rest := b.drop 4096
    { f with first := decide (off = 0), last := rest.isEmpty, off := off, pay := here } ::
      (if rest.isEmpty then [] else cutMsg f n (off + 4096) rest)

def msgFrames (f : Frame) (b : Bytes) : List Frame := cutMsg f (b.length / 4096 + 1) 0 b

/-- Send a message; `false` where a frame of it found no route. -/
def sendMsg (f : Frame) (b : Bytes) (s : State) : Bool × State :=
  (msgFrames f b).foldl (fun (r : Bool × State) g => let (ok, s) := sendFrame g r.2; (r.1 && ok, s)) (true, s)

/-! Frames delivered to this node. -/

/-- Take the oldest delivered frame that satisfies `p`. -/
def takeFrame (p : Frame → Bool) (s : State) : Option (Frame × State) :=
  match s.fab.inbox.find? p with
  | none => none
  | some f => some (f, occSub f { s with fab.inbox := s.fab.inbox.erase f })

/-- Whether two frames belong to one message. -/
def sameMsg (a b : Frame) : Bool := a.ty == b.ty && a.src == b.src && a.msg == b.msg && a.part == b.part

/-- The frames of the message that starts with the oldest frame of a kind, up to its LAST, if it is whole. -/
def wholeMsg (s : State) (p : Frame → Bool) : Option (List Frame) :=
  match s.fab.inbox.find? p with
  | none => none
  | some a =>
    let fs := s.fab.inbox.filter (sameMsg a)
    let (pre, post) := (fs.takeWhile fun f => !f.last, fs.dropWhile fun f => !f.last)
    match post with
    | [] => none
    | z :: _ => some (pre ++ [z])

/-- Take the oldest whole message of a kind. -/
def takeMsg (p : Frame → Bool) (s : State) : Option (List Frame × State) :=
  match wholeMsg s p with
  | none => none
  | some fs => some (fs, fs.foldl (fun s f => occSub f { s with fab.inbox := s.fab.inbox.erase f }) s)

/-- The payload of a message whose offsets run from 0 without gap or overlap. -/
def joinMsg (fs : List Frame) : Option Bytes :=
  let (ok, _, b) := fs.foldl (fun (r : Bool × Nat × Bytes) f =>
    (r.1 && decide (f.off = r.2.1), r.2.1 + f.pay.length, r.2.2 ++ f.pay)) (true, 0, [])
  if ok then some b else none

end Sys2Proof.Machine
end

