-- ==== Sys2Proof/Machine/Collate.lean ====
section
/-!
DEFINITION. Signatures and the ends of attempts (R292–R305, R327): descriptors, the signature word, ABORT, the stop of
an attempt, classes of fault, stand-ins, reissue, and the colophon of a ream.
-/
namespace Sys2Proof.Machine

/-! Descriptors (Table 13.1). -/
def sigOf? (s : State) (sig part : Nat) : Option SigDesc :=
  match KMap.find? s.col.sigs (sig / 256) with
  | some d => if d.sig = sig ∧ d.part = part then some d else none
  | none => none

def SigDesc.node (d : SigDesc) (m : Nat) : Nat := (d.memb.getD m (0xFFFF, 0xFFFF, 0xFF)).1
def SigDesc.mirror (d : SigDesc) (m : Nat) : Nat := (d.memb.getD m (0xFFFF, 0xFFFF, 0xFF)).2.1
def SigDesc.parent (d : SigDesc) (m : Nat) : Nat := (d.memb.getD m (0xFFFF, 0xFFFF, 0xFF)).2.2
/-- The children of a position, ascending. -/
def SigDesc.kids (d : SigDesc) (m : Nat) : List Nat :=
  (List.range d.memb.length).filter fun c => decide (c ≠ 0 ∧ d.parent c = m)
/-- The node that serves a position under the STANDIN mask (R148). -/
def SigDesc.server (d : SigDesc) (m : Nat) : Nat := if bitOf d.standin m then d.mirror m else d.node m

/-- The positions this node serves. -/
def myPositions (s : State) (d : SigDesc) : List Nat :=
  (List.range d.memb.length).filter fun m => decide (d.server m = nodeId s)

/-- The signature word (Table 13.3). -/
def sigWord (ack rootAbort : Bool) (epoch : Nat) (audit standin : Bool) (pos : Nat) : Nat :=
  b2n ack * 2 ^ 31 + b2n rootAbort * 2 ^ 16 + epoch % 256 * 256 + b2n audit * 128 + b2n standin * 64 + pos % 64

def wPos (w : Nat) : Nat := bits w 0 6
def wStandin (w : Nat) : Bool := bitOf w 6
def wAudit (w : Nat) : Bool := bitOf w 7
def wEpoch (w : Nat) : Nat := bits w 8 8
def wRoot (w : Nat) : Bool := bitOf w 16
def wAck (w : Nat) : Bool := bitOf w 31

/-! ABORT (Table 13.4, R302). -/
structure AbortMsg where
  ream    : Nat := 0
  step    : Nat := 0
  attempt : Nat := 0
  fault   : Nat := 0
  status  : Nat := 0
  standin : Nat := 0
  epoch   : Nat := 0
  sig     : Nat := 0
  deriving DecidableEq, Repr

def AbortMsg.bytes (m : AbortMsg) : Bytes :=
  natLe 4 m.ream ++ natLe 4 m.step ++ natLe 1 m.attempt ++ natLe 1 (m.fault % 64) ++ natLe 2 m.status ++
  natLe 8 m.standin ++ natLe 1 m.epoch ++ natLe 3 0 ++ natLe 4 m.sig

def abortOf (b : Bytes) : AbortMsg :=
  { ream := leAt b 0 4, step := leAt b 4 4, attempt := leAt b 8 1, fault := leAt b 9 1 % 64, status := leAt b 0xA 2,
    standin := leAt b 0xC 8, epoch := leAt b 0x14 1, sig := leAt b 0x18 4 }

/-- Send an ABORT to a node at once; its second copy is due in 250 ns. -/
def sendAbortTo (part word : Nat) (m : AbortMsg) (dst : Nat) (s : State) : State :=
  let f : Frame := { ty := 6, part := part, dst := dst, msg := m.ream, arg := word, pay := m.bytes }
  let s := sendUrgent f s
  { s with col.repeats := s.col.repeats ++ [(s.now + 250, f)] }

/-- The neighbours of a position: its parent, its children, and the mirrors that its appends await. -/
def abortNeighbors (s : State) (d : SigDesc) (pos : Nat) (a : Option Att) : List Nat :=
  let up := if pos = 0 then [] else [d.server (d.parent pos)]
  let mirrors := match a with
    | none => []
    | some a => if (a.apps.any fun x => x.state = 2) then [d.mirror pos] else []
  (up ++ (d.kids pos).map d.server ++ mirrors).eraseDups.filter fun n => decide (n ≠ nodeId s)

/-- Note that an ABORT has been sent or forwarded; `false` where it was before. -/
def noteAbort (part : Nat) (m : AbortMsg) (root : Bool) (s : State) : Bool × State :=
  let k := (part, m.ream, m.attempt, root)
  if s.col.aborts.contains k then (false, s) else (true, { s with col.aborts := k :: s.col.aborts })

def sendAborts (part pos : Nat) (root : Bool) (m : AbortMsg) (d : SigDesc) (a : Option Att) (except : Nat) (s : State) : State :=
  ((abortNeighbors s d pos a).filter (· ≠ except)).foldl (fun s n =>
    sendAbortTo part (sigWord false root d.epoch false false pos) m n s) s

/-! Classes of fault (Table 13.5). -/
inductive FaultClass where
  | same | standin | ends
  deriving DecidableEq, Repr

def endsCodes : List Nat :=
  [ST.TKT_FORMAT, ST.TKT_PART, ST.TKT_SIG, ST.TKT_SLOT, ST.TKT_MASK, ST.APPEND_FMT, ST.ACCESS_DENIED, ST.REAM_BUSY,
   ST.APPEND_POS, ST.TIER_LATE, ST.DIR_NO_CONV, ST.KEY_RETIRED, ST.CMP_ILLEGAL, ST.CMP_OPERAND, ST.CMP_PC,
   ST.CMP_STREAM, ST.CMP_EMIT, ST.CMP_NO_EMIT]

def standinCodes : List Nat :=
  [ST.POISON, ST.PHASE_LOST, ST.TIER_FAIL, ST.STK_FENCED, ST.REAM_NO_BLOCK, ST.FENCED]

def faultClass (status faultPos : Nat) (lastTmo : Option Nat) : FaultClass :=
  if endsCodes.contains status then .ends
  else if standinCodes.contains status then .standin
  else if status = ST.COL_TIMEOUT ∧ lastTmo = some faultPos then .standin
  else .same

/-- Whether a fault of an attempt ends its ream, by what any node knows (R304). -/
def endsReam (s : State) (status attempt : Nat) : Bool :=
  endsCodes.contains status || decide (s.rd COL_CFG.MAX_ATTEMPT ≤ attempt)

/-! Stopping an attempt (R303). -/

/-- The conversations a ticket names, once each. -/
def tktConvs (t : Bytes) : List Nat := ((slots t).map (·.conv)).eraseDups

/-- Move INFLIGHT of the conversations a ticket names (R184). -/
def moveInflight (part role : Nat) (t : Bytes) (up : Bool) (s : State) : State :=
  (tktConvs t).foldl (fun s h =>
    match List.find? (fun e : Nat × ConvRec => decide (e.2.conv = h ∧ e.2.part = part ∧ e.2.role = role ∧ e.2.state ≠ 0)) s.flo.convs with
    | some (c, r) => s.setConv c { r with inflight := if up then r.inflight + 1 else r.inflight - 1 }
    | none => s) s

/-- The ROLE of an attempt's lookups (R296, R308). -/
def attRole (a : Att) : Nat := if a.standin ∨ a.mirrorOf.isSome then 1 else 0

/-- End a node's part of an attempt with a status: its records are written and its work is gone (R210, R303). `last` says
that the ream has no attempt after it. -/
def endAttempt (k status : Nat) (last : Bool) (s : State) : State :=
  match s.att? k with
  | none => s
  | some a =>
    let s := { s with rea.pool := s.rea.pool.filter fun p => p.comp.att ≠ k }
    let s := (List.range 64).foldl (fun s b => clearBlock k b s) s
    let a := (s.att? k).getD a
    let s := acctAttempt a status last s
    (if a.flight then moveInflight a.part (attRole a) a.ticket false s else s).dropAtt k

def stopAttempt (k status faultPos : Nat) (last : Bool) (s : State) : State :=
  match s.att? k with
  | none => s
  | some a =>
    let s := endAttempt k status last s
    let s := (s.wr COL_ERR_LOG0.REAM_ID 0 a.ream).wr COL_ERR_LOG1.STATUS 0 status
    let s := (s.wr COL_ERR_LOG1.FAULT_POS 0 faultPos).wr COL_ERR_LOG1.ATTEMPT 0 a.attempt
    s.bump COL_ABORT_CNT.COUNT

/-! The colophon of a ream (Table 14.5, R327). -/

/-- Bytes 0x08 to 0x1F of the colophon of a ticket. -/
def tktColophon (t : Bytes) (attempt failSlot len : Nat) : Bytes :=
  natLe 4 (tktReam t) ++ natLe 4 (tktStep t) ++ natLe 2 (tktReqCtx t) ++ natLe 2 failSlot ++ natLe 1 attempt ++ natLe 3 0 ++
  natLe 4 len ++ natLe 4 0

def colophonFrame (part dst msg status : Nat) (tail : Bytes) : Frame :=
  { ty := 4, tc := 2, part := part, dst := dst, msg := msg, pay := natLe 2 status ++ natLe 6 0 ++ slice tail 0 24 }

def reamKey (part ream : Nat) : Nat := part * 2 ^ 32 + ream
def State.ream? (s : State) (p r : Nat) : Option Ream := KMap.find? s.col.reams (reamKey p r)

/-- The reams a partition holds at this root (R194). -/
def admitted (s : State) (p : Nat) : Nat := (s.col.reams.filter fun e => e.1 / 2 ^ 32 = p).length

/-- Charge the colophon of a ream to the tenant of slot 0 (Table 9.2). -/
def chargeColophon (k : Nat) (src : CmdSrc) (ticket : Bytes) (s : State) : State :=
  match src with
  | .host _ _ _ => chargeAtt k (slotOf ticket 0).ten .hst 32 false s
  | .reg => chargeAtt k (slotOf ticket 0).ten .fab 68 false s

/-- Complete a ream at the root: its colophon goes to the requester, and its admission ends. -/
def completeReam (r : Ream) (status failSlot len : Nat) (s : State) : State :=
  let tail := tktColophon r.ticket r.attempt failSlot len
  let s := if r.flight then moveInflight r.part 0 r.ticket false s else s
  let s := { s with col.reams := KMap.erase s.col.reams (reamKey r.part r.ream) }
  match r.src with
  | .host p ring q => jobDone p ring q status tail s
  | .reg => (sendFrame (colophonFrame r.part (tktReqNode r.ticket) r.ream status tail) s).2

/-- Whether a node is listed as fenced or lost (R381). -/
def markedDown (s : State) (n : Nat) : Bool :=
  n != 0xFFFF && (List.range 8).any fun k => s.rd (RAS_MDOWN.NODE_A k) == n || s.rd (RAS_MDOWN.NODE_B k) == n

/-- Whether a position can be served by its mirror (R305). -/
def standinPossible (s : State) (d : SigDesc) (pos : Nat) : Bool :=
  modeMirror s d.part && !bitOf d.standin pos && d.mirror pos != 0xFFFF && !markedDown s (d.mirror pos) && pos != 0

def putSig (d : SigDesc) (s : State) : State := { s with col.sigs := KMap.insert s.col.sigs (d.sig / 256) d }

/-- The root's attempt stops while the ream goes on: INFLIGHT stays raised until the reissue (R184). -/
def stopHeld (r : Ream) (status faultPos : Nat) (s : State) : Ream × State :=
  let k := attKey r.part r.ream 0 false
  match s.att? k with
  | none => ({ r with flight := true }, if r.flight then s else moveInflight r.part 0 r.ticket true s)
  | some a =>
    let s := if a.flight ∨ r.flight then s else moveInflight r.part 0 r.ticket true s
    ({ r with flight := true }, stopAttempt k status faultPos false (s.setAtt k { a with flight := false }))

/-- The root's steps on the first fault of an attempt (R304, R305). -/
def rootFault (part ream attempt status faultPos : Nat) (s : State) : State :=
  match s.ream? part ream with
  | none => s
  | some r =>
    if r.attempt ≠ attempt ∨ r.reissueAt.isSome then s
    else
      let k := attKey part ream 0 false
      let a := s.att? k
      let sig := tktSig r.ticket
      let cls := faultClass status faultPos r.lastTmo
      let ends := cls == .ends || decide (s.rd COL_CFG.MAX_ATTEMPT ≤ attempt) || (sigOf? s sig part).isNone
      let (r, s) := if ends then (r, stopAttempt k status faultPos true (chargeColophon k r.src r.ticket s)) else stopHeld r status faultPos s
      match sigOf? s sig part with
      | none => completeReam r status 0xFFFF 0 s
      | some d =>
        let want := cls == .standin
        let can := want && standinPossible s d faultPos
        let d := if can then { d with standin := setBit d.standin faultPos, epoch := (d.epoch + 1) % 256 } else d
        let s := if can then (putSig d s).bump COL_STANDIN_CNT.COUNT
                 else if want then s.bump COL_NO_STANDIN_CNT.COUNT else s
        let m : AbortMsg := { ream := ream, step := tktStep r.ticket, attempt := attempt, fault := faultPos, status := status,
                              standin := d.standin, epoch := d.epoch, sig := sig }
        let s := sendAborts part 0 true m d a 0x10000 (noteAbort part m true s).2
        -- DESIGN CHOICE: of R32 and R305, R32 holds where a mirrorless partition's node is fenced: the ream ends with that fault.
        let fenced := status == ST.FENCED && !modeMirror s part
        let no := (r.noStand || (want && !can)) && !fenced
        if ends then completeReam r (if cls ≠ .ends ∧ no then ST.COL_NO_STANDIN else status) 0xFFFF 0 s
        else
          let r := { r with reissueAt := some (s.now + 40000), noStand := no,
                            lastTmo := if status = ST.COL_TIMEOUT then some faultPos else none }
          { s with col.reams := KMap.insert s.col.reams (reamKey part ream) r }

/-- A node ends its part of an attempt with a fault (R301): the root takes its steps, any other node sends ABORT and
stops. A mirror's audit computation only stops. -/
def endPart (k status faultPos : Nat) (s : State) : State :=
  match s.att? k with
  | none => s
  | some a =>
    if a.mirrorOf.isSome then endAttempt k status (endsReam s status a.attempt) s
    else if a.pos = 0 then rootFault a.part a.ream a.attempt status faultPos s
    else
      let m : AbortMsg := { ream := a.ream, step := a.step, attempt := a.attempt, fault := faultPos, status := status, sig := a.sig }
      let s := match sigOf? s a.sig a.part with
        | some d => sendAborts a.part a.pos false m d (some a) 0x10000 (noteAbort a.part m false s).2
        | none => s
      stopAttempt k status faultPos (endsReam s status a.attempt) s

/-- The end of an attempt's part by a fault at this node's own position. -/
def failAtt (k status : Nat) (s : State) : State :=
  match s.att? k with
  | none => s
  | some a => endPart k status a.pos s

/-! Completions of compositions. -/

/-- A block completes its running composition with a status other than ST_OK (R114, R301), and loses what a gang holds
for it (Table 4.8). -/
def failComp (b status : Nat) (s : State) : State :=
  match (s.blk b).cur with
  | none => s
  | some c =>
    failAtt c.att status (takeComp b (dropOf b (if status = ST.KEY_RETIRED then s.bump (RSP_CNT.COUNT 3) else s)))

/-- Log a composition's failure. -/
def cmpLog (b status cell kind : Nat) (s : State) : State :=
  let part := ((s.blk b).cur.map (·.part)).getD 0
  ((((s.wr CMP_ERR_LOG0.STATUS b status).wr CMP_ERR_LOG0.PC b (s.blk b).pc).wr CMP_ERR_LOG1.KIND b kind).wr
    CMP_ERR_LOG1.PART b part).wr CMP_ERR_LOG1.CELL b cell

end Sys2Proof.Machine
end

