-- ==== Sys2Proof/Machine/Galley.lean ====
section
/-!
DEFINITION. The galley (R104–R111): probes, fills, replacement, line checks, and invalidation.
-/
namespace Sys2Proof.Machine

def galLine (s : State) (k : Nat) : GalLine := KMap.get {} s.gal.lines k
def State.setLine (s : State) (k : Nat) (l : GalLine) : State := { s with gal.lines := KMap.put {} s.gal.lines k l }

def wayEnabled (s : State) (r w : Nat) : Bool := bitOf (s.rd GAL_WAY_EN.EN r) w
def waySealed (s : State) (r w : Nat) : Bool := s.flag (GAL_WAY_OWNER.SEALED w) r
def wayOwner (s : State) (r w : Nat) : Option Nat :=
  if s.flag (GAL_WAY_OWNER.ASSIGNED w) r then some (s.rd (GAL_WAY_OWNER.OWNER w) r) else none

/-- The region that caches an offset (R104). -/
def galRegion (off : Nat) : Nat := offStack off / 2
/-- The bank of a line (Table 5.4). -/
def galBank (off : Nat) : Nat := galSet off % 32

/-- The cycles that a request loses to others of its cycle: those to its own bank (R107). -/
def galConflicts (off : Nat) (rivals : List Nat) : Nat :=
  rivals.countP fun r => galRegion r == galRegion off && galBank r == galBank off

/-- Whether a line answers a request (R105), its partition apart. -/
def lineMatches (q : GalReq) (l : GalLine) : Bool :=
  l.valid && l.tag == galTag q.off && l.slot == (if q.sealed then q.slot else 0) && l.gen == (if q.sealed then q.gen else 0)

/-- The way whose line a request hits. -/
def galProbe (s : State) (q : GalReq) : Option Nat :=
  let r := galRegion q.off
  (List.range 16).find? fun w =>
    let l := galLine s (galKey r (galSet q.off) w)
    lineMatches q l && (l.part == q.part || (q.part == 0 && !waySealed s r w))

/-- Whether partition 0 meets a line of another partition in a sealed way (R105). -/
def galRefused (s : State) (q : GalReq) : Bool :=
  let r := galRegion q.off
  q.part == 0 && (galProbe s q).isNone && (List.range 16).any fun w =>
    lineMatches q (galLine s (galKey r (galSet q.off) w)) && waySealed s r w

/-! Replacement (R106): a tree of 15 bits over 16 ways; a bit names the half used longer ago. -/
def wayPermitted (s : State) (r : Nat) (q : GalReq) (w : Nat) : Bool :=
  wayEnabled s r w &&
  (match wayOwner s r w with
   | some p => p == q.part
   | none => q.part == 0) &&
  (!q.sealed || waySealed s r w)

/-- Point the tree away from a way that was used. -/
def plruTouch (t w : Nat) : Nat :=
  ((List.range 4).foldl (fun (r : Nat × Nat) i =>
    let b := bits w (3 - i) 1
    (setBits r.1 r.2 1 (1 - b), 2 * r.2 + 1 + b)) (t, 0)).1

/-- The way the tree names among the permitted ones. -/
def plruPick (t : Nat) (ok : Nat → Bool) : Option Nat :=
  let any (lo n : Nat) : Bool := (List.range n).any fun i => ok (lo + i)
  let (lo, _) := (List.range 4).foldl (fun (r : Nat × Nat) i =>
    let half := 8 / 2 ^ i
    let b := bits t r.2 1
    let b := if any (r.1 + b * half) half then b else 1 - b
    (r.1 + b * half, 2 * r.2 + 1 + b)) (0, 0)
  if ok lo then some lo else none

def galTouch (r set w : Nat) (s : State) : State :=
  { s with gal.plru := KMap.upd 0 s.gal.plru (r * 16384 + set) fun t => plruTouch t w }

def galVictim (s : State) (q : GalReq) : Option Nat :=
  let r := galRegion q.off
  let set := galSet q.off
  let ok := wayPermitted s r q
  match (List.range 16).find? fun w => ok w && !(galLine s (galKey r set w)).valid with
  | some w => some w
  | none => plruPick (KMap.get 0 s.gal.plru (r * 16384 + set)) ok

/-- What a request delivers: the 128 bytes in the form of R51, or none for poison, and the status of the cause. -/
structure GalOut where
  data   : Option Bytes := none
  status : Nat := ST.OK
  deriving DecidableEq, Repr

def reqHdr (q : GalReq) : Hdr := { sealed := q.sealed, slot := q.slot, gen := q.gen, conv := q.conv, base := q.posBase }

/-- The line of a request as its stack controller delivers it, decrypted where the folio is sealed (R108). -/
def lineData (q : GalReq) (s : State) : Option Bytes × State :=
  let (d, s) := readUpper q.part q.off 128 s
  (d.map fun b => if q.sealed then openSectors s (reqHdr q) q.runIx 4 (q.off - q.base) b else b, s)

/-- Whether the key generation of a request is closed, so that no fill is made (R108, R348). -/
def keyShut (s : State) (q : GalReq) : Bool := q.sealed && !keyOpen s q.slot q.gen

/-- Fill a line (R106, R108): what is delivered, and the way that took it. -/
def galFill (q : GalReq) (s : State) : GalOut × Option Nat × State :=
  let r := galRegion q.off
  if keyShut s q then ({ status := ST.KEY_RETIRED }, none, s)
  else
    let st := readStatus s q.part q.off 128
    let (d, s) := lineData q s
    match d with
    | none => ({ status := st }, none, poisonUse (.region r) 4 r (some q.part) st q.off s)
    | some b =>
      match galVictim s q with
      | none => ({ data := some b }, none, s.bump (GAL_CNT.COUNT 3) r)
      | some w =>
        let l : GalLine := { valid := true, tag := galTag q.off, part := q.part, slot := if q.sealed then q.slot else 0,
                             gen := if q.sealed then q.gen else 0, data := b, crc := crc32c b }
        ({ data := some b }, some w, galTouch r (galSet q.off) w
          ((s.addWrap GAL_FILL.COUNT r 1).setLine (galKey r (galSet q.off) w) l))

/-- The line fails its check: it is invalidated and counted, and is filled again (R111). -/
def galSpoil (q : GalReq) (w : Nat) (s : State) : State :=
  let k := galKey (galRegion q.off) (galSet q.off) w
  (s.bump (GAL_CNT.COUNT 0) (galRegion q.off)).setLine k { galLine s k with valid := false }

/-- The refilled line in way `w` fails its check again: it is poison, counted, logged and reported (R111). -/
def galBad (q : GalReq) (w : Nat) (s : State) : State :=
  let r := galRegion q.off
  let k := galKey r (galSet q.off) w
  let s := (((s.bump (GAL_CNT.COUNT 1) r).wr GAL_ERR_LOG0.OFFSET_LO r q.off).wr GAL_ERR_LOG1.KIND r 1).wr GAL_ERR_LOG1.WAY r w
  let s := (s.wr GAL_ERR_LOG1.PART r q.part).wr GAL_ERR_LOG1.OFFSET_HI r (q.off / 2 ^ 32)
  report (.region r) { sev := 2, subsys := 4, cause := Config.causeCode 41, unit := r, part := some q.part, status := ST.GAL_CRC, addr := q.off }
    (s.setLine k { galLine s k with valid := false })

/-- A request probes the galley (R105): a hit is checked (R111). `fails` is how many
checks of its line fail in a row. A miss is `none` and 0; a hit whose check fails is `none` and the number of those checks. -/
def galHit (q : GalReq) (fails : Nat) (s : State) : Option GalOut × Nat × State :=
  let r := galRegion q.off
  if galRefused s q then (some { status := ST.POISON }, 0, s.bump GUT_XPART_CNT.COUNT)
  else
    match galProbe s q with
    | none => (none, 0, s.addWrap GAL_MISS.COUNT r 1)
    | some w =>
      let s := galTouch r (galSet q.off) w (s.addWrap GAL_HIT.COUNT r 1)
      let l := galLine s (galKey r (galSet q.off) w)
      if fails = 0 ∧ crc32c l.data = l.crc then (some { data := some l.data }, 0, s)
      else (none, max fails 1, galSpoil q w s)

/-- The line of a request arrives (R106, R108, R111): `fails` is 0 after a miss, else how many checks fail in a row, of which
the first has been met. A refill that no way took is delivered as it came. -/
def galArrive (q : GalReq) (fails : Nat) (s : State) : GalOut × State :=
  match galFill q s with
  | (o, some w, s) =>
    if fails < 2 then (o, if fails = 0 then s else corrected (.region (galRegion q.off)) 4 (galRegion q.off) (some q.part) 1 q.off s)
    else ({ status := ST.GAL_CRC }, galBad q w s)
  | (o, none, s) => (o, s)

/-- Whether a fill must wait at its stack controller, and what the wait changes. -/
def fillWaits (c : Instr) (q : GalReq) (s : State) : Option State := if keyShut s q then none else reqWaits c q.part q.off 128 s

/-- R105, R107, R111: a request reaches the galley. A line that must be filled waits for GALLEY_FILL. -/
def execGalleyRead (req : GalReq) (fails : Nat) (rivals : List Nat) (s : State) : Host.Outcome State Fault Refusal :=
  let req := { req with off := req.off - req.off % 128 }
  let s := s.bumpBy (GAL_CNT.COUNT 4) (galRegion req.off) (galConflicts req.off rivals)
  match galHit req fails s with
  | (some o, _, s) => .next (s.emit (.readData req.part req.off (o.data.getD []) o.data.isNone o.status))
  | (none, n, s) => .next { s with gal.fills := s.gal.fills ++ [(req, n)] }

/-- The command by which a fill waits. -/
def fillCmd (q : GalReq) : Instr := .galleyRead q 0 []

/-- R106, R108: the line of the oldest request that has not to wait at its stack controller arrives. -/
def execGalleyFill (s : State) : Host.Outcome State Fault Refusal :=
  match s.gal.fills.find? fun e => (fillWaits (fillCmd e.1) e.1 s).isNone with
  | none => .next (s.gal.fills.foldl (fun s e => (fillWaits (fillCmd e.1) e.1 s).getD s) s)
  | some (q, n) =>
    let (o, s) := galArrive q n (unstall (fillCmd q) { s with gal.fills := s.gal.fills.erase (q, n) })
    .next (s.emit (.readData q.part q.off (o.data.getD []) o.data.isNone o.status))

/-! Invalidation (R110). -/

/-- Clear the valid bit of the lines of a region that satisfy a condition on their way and content. -/
def galDrop (r : Nat) (p : Nat → GalLine → Bool) (s : State) : State :=
  { s with gal.lines := s.gal.lines.map fun e =>
      if e.1 / (16384 * 16) = r ∧ p (e.1 % 16) e.2 then (e.1, { e.2 with valid := false }) else e }

/-- A GAL_INV command: no selected line hits from the write on; BUSY stays until GAL_INV_DONE. -/
def galInv (r : Nat) (p : GalLine → Bool) (s : State) : State :=
  if s.flag GAL_INV_STS.BUSY r then s else galDrop r (fun _ l => p l) (s.wr GAL_INV_STS.BUSY r 1)

/-- R110: GAL_INV with OP 1. -/
def execGalInvAll (region : Nat) (s : State) : Host.Outcome State Fault Refusal := .next (galInv region (fun _ => true) s)

/-- R110: GAL_INV with OP 2. -/
def execGalInvPart (region part : Nat) (s : State) : Host.Outcome State Fault Refusal :=
  .next (galInv region (fun l => l.part == part) s)

/-- R110: GAL_INV with OP 3. -/
def execGalInvKeySlot (region slot : Nat) (s : State) : Host.Outcome State Fault Refusal :=
  .next (galInv region (fun l => l.slot == slot) s)

/-- R110: the invalidation is complete. -/
def execGalInvDone (region : Nat) (s : State) : Host.Outcome State Fault Refusal :=
  if s.flag GAL_INV_STS.BUSY region then .next ((s.wr GAL_INV_STS.BUSY region 0).wr GAL_INV_STS.DONE region 1) else .next s

def galWayOff (r w : Nat) (s : State) : State :=
  galDrop r (fun v _ => v == w) (s.wr GAL_WAY_EN.EN r (clrBit (s.rd GAL_WAY_EN.EN r) w))

/-- R110: a write of 0 to a bit of GAL_WAY_EN invalidates the way at once. -/
def execGalWayDisable (region way : Nat) (s : State) : Host.Outcome State Fault Refusal :=
  if way < 16 then .next (galWayOff region way s) else .next s

/-- Drop the lines of a key slot everywhere, as its drain asks (R110, R350). -/
def galDropSlot (slot : Nat) (s : State) : State := (List.range 4).foldl (fun s r => galDrop r (fun _ l => l.slot == slot) s) s

end Sys2Proof.Machine
end

