-- ==== Sys2Proof/Machine/Place.lean ====
section
/-!
DEFINITION. Placement (R155–R162, R176, R177, R196–R203): lookups, skipped folios, the mode choice, the cut into
compositions, the pool of pending compositions, and the flow tags.
-/
namespace Sys2Proof.Machine

/-! Lookup (R177, R374). -/

/-- Whether the conversation record, a run record, or the vector and table entries of a run are poisoned. -/
def convPoison (s : State) (c : Nat) : Bool := tblPoison s (tblConv s + 64 * c)
def runPoison (s : State) (i : Nat) : Bool :=
  tblPoison s (tblRun s + 64 * i) ||
  ((s.run i).vec.any fun e : Nat × Nat =>
    tblPoison s (32 * e.2) ||
    (match KMap.find? (s.run i).leaf (e.1 / 1024) with
     | some l => tblPoison s (tblLeaf s + 4096 * l + 4 * (e.1 % 1024))
     | none => false))

def slotQmin (x : Slot) : Nat := x.qpos
def slotQmax (x : Slot) : Nat := x.qpos + x.nq - 1

/-- Bit `j` of a slot's bitmap (R154). -/
def bitmapBit (t : Bytes) (x : Slot) (j : Nat) : Bool := bitOf (leAt t (x.bmOff + j / 8) 1) (j % 8)

/-- POS_END of a folio for a slot (R155). -/
def posEndOf (x : Slot) (h : Hdr) (span : Nat) : Nat := min (min (h.base + h.fill) (h.base + span)) x.kvLen

/-- Whether a slot skips a folio (R155). -/
def skipFolio (m : Mask) (t : Bytes) (x : Slot) (base stop : Nat) : Bool :=
  decide (stop ≤ base) ||
  (m.causal && decide (slotQmax x < base)) ||
  (m.windowed && decide (m.sinks ≤ base ∧ stop - 1 + m.window ≤ slotQmin x)) ||
  (m.bitmap && ((List.range ((stop - 1) / 2 ^ m.bmG - base / 2 ^ m.bmG + 1)).all fun k =>
    !(bitmapBit t x (base / 2 ^ m.bmG + k))))

/-- The folio slot of a table entry for a slot of a ticket (R121). -/
def fslotOf (s : State) (c : Nat) (x : Slot) (f : Nat) : FSlot :=
  let e := s.folio f
  let base := chunkOff e.chunk
  let h := hdrAt s base
  let g := geoOf s c
  { folio := f, base := base, posBase := h.base, posEnd := posEndOf x h g.span, desc := (s.conv c).desc, geo := g,
    kerned := e.kerned, sealed := e.sealed, slot := h.slot, gen := h.gen, conv := x.conv, runIx := rixOf s c x.layer x.hg }

/-- The folios of a slot on this node, ascending, before the skip. -/
def slotFolios (s : State) (c : Nat) (x : Slot) : List FSlot :=
  let r := s.conv c
  if x.hg < r.hgLo ∨ r.hgHi ≤ x.hg then []
  else
    let lim := min r.posHi x.kvLen
    (List.filter (fun e : Nat × Nat => decide (entPos s c e.1 < lim)) (s.run (runIx s c x.layer x.hg)).vec).map fun e => fslotOf s c x e.2

/-! Blocks and costs (R197, R202). -/
def regionFenced (s : State) (r : Nat) : Bool := bitOf (s.rd RAS_RFENCE_STS.FENCED) r

/-- B_r: the unfenced blocks of a region that a partition owns. -/
def regionBlocks (s : State) (p r : Nat) : List Nat :=
  ((List.range 16).map (16 * r + ·)).filter fun b => blockOwner s b == some p && !blkFenced s b

def folioCost (f : FSlot) : Nat :=
  let n := f.posEnd - f.posBase
  if f.press then ceilDiv n 8 else ceilDiv (n * (f.geo.keyRow + f.geo.valRow)) 64

def compCost (fs : List FSlot) : Nat := min 65535 (fs.foldl (fun a f => a + folioCost f) 16)

/-- The cost pending on a block. -/
def pendCost (s : State) (b : Nat) : Nat :=
  ((s.rea.pool.filter fun p => p.block = b).map (·.cost)).foldl (· + ·) 0

/-- The blocks of a list in ascending order of pending cost, the lower block first on a tie. -/
def byCost (s : State) (bs : List Nat) : List Nat :=
  bs.foldl (fun l b =>
    let c := pendCost s b
    (l.filter fun x => decide (pendCost s x < c ∨ (pendCost s x = c ∧ x < b))) ++ [b] ++
    l.filter fun x => !decide (pendCost s x < c ∨ (pendCost s x = c ∧ x < b))) []

/-- The region that takes the folios of a region without blocks (R198). -/
def otherRegion (s : State) (p r : Nat) : Option Nat :=
  ((List.range 4).filter fun x => decide (x ≠ r) && !(regionBlocks s p x).isEmpty).foldl (fun b x =>
    match b with
    | none => some x
    | some y => if (regionBlocks s p y).length < (regionBlocks s p x).length then some x else some y) none

/-- The block that takes one composition of a region: the least pending cost, with the fallback of R198, and whether
it lies in another region. -/
def blockFor (s : State) (p r : Nat) : Option (Nat × Bool) :=
  match byCost s (regionBlocks s p r) with
  | b :: _ => some (b, false)
  | [] => (otherRegion s p r).bind fun x => ((byCost s (regionBlocks s p x)).head?).map fun b => (b, true)

/-! Compositions (R121, R157). -/
def slotClass (x : Slot) : Nat := x.ten / 4096 % 16

/-- The composition of folios of one slot, as Table 6.1 lays it down. -/
def mkComp (s : State) (k : Nat) (a : Att) (i : Nat) (fs : List FSlot) : Comp :=
  let x := slotOf a.ticket i
  let m := (mask? s x.mask).getD {}
  let d := ((fs.head?).map fun f => f.geo.d).getD 32
  let desc := ((fs.head?).map (·.desc)).getD 0
  { att := k, ream := a.ream, slot := i, attempt := a.attempt, part := a.part,
    entry := if fs.any (·.press) then entryPress s desc else entryGalley s desc,
    nq := x.nq, nh := x.nh, qfmt := x.qfmt, layer := x.layer, tau := x.tau,
    window := if m.windowed then m.window else 0, sinks := if m.windowed then m.sinks else 0,
    qpos := (List.range x.nq).map (x.qpos + ·), staging := slice a.ticket x.qOff (elemBytes x.qfmt (d * x.nq * x.nh)), slots := fs }

/-! The pool (R199–R203). -/
def weightOf' (s : State) (p c : Nat) : Nat := s.rd (REAM_CW_ACT.W c) p
def flowKey (b p c : Nat) : Nat := 512 * b + 16 * p + c

/-- Make a composition pending on a block: its flow tag, and the clock start request (R201, R202). -/
def placeComp (x : PendComp) (s : State) : State :=
  let p := x.comp.part
  let v := KMap.get 0 s.rea.vb x.block
  let f := KMap.get 0 s.rea.fb (flowKey x.block p x.cls)
  let tag := (tagMax v f + ceilDiv (x.cost * 4096) (weightOf' s p x.cls)) % tagMod
  gateOpen x.block { s with
    rea.fb := KMap.put 0 s.rea.fb (flowKey x.block p x.cls) tag
    rea.pool := s.rea.pool ++ [{ x with tag := tag, since := s.now }] }

def poolOf (s : State) (p : Nat) : Nat := (s.rea.pool.filter fun x => x.comp.part = p).length

/-- How many more compositions of an attempt may become pending (R193, R203). -/
def poolRoom (s : State) (a : Att) : Nat := min (a.pol.poolMax - poolOf s a.part) (8192 - s.rea.pool.length)

/-! Replacement (R198, R199). -/

/-- A composition as a block of another region serves it: its press folios as if PRESS_EN were 0 (R198). -/
def galleyComp (s : State) (c : Comp) : Comp :=
  if c.slots.any (·.press) then
    { c with slots := c.slots.map fun f => { f with press := false }, entry := entryGalley s (((c.slots.head?).map (·.desc)).getD 0) }
  else c

/-- A composition that its block can no longer take goes to the least-loaded block of the region, or of another one; `none`
where the partition has no block. -/
def rehome (x : PendComp) (s : State) : Option (PendComp × State) :=
  (blockFor s x.comp.part (x.block / 16)).map fun n =>
    let s := s.bump REAM_REPLACE_CNT.COUNT
    if n.2 then ({ x with block := n.1, comp := galleyComp s x.comp }, s.bumpBy REAM_XREGION_CNT.COUNT 0 x.comp.slots.length)
    else ({ x with block := n.1 }, s)

/-- Place a block's pending compositions again, each with its tag (R199). -/
def replacePending (b : Nat) (s : State) : State :=
  (s.rea.pool.filter fun x => x.block = b).foldl (fun s x =>
    match rehome x s with
    | none => failAtt x.comp.att ST.REAM_NO_BLOCK s
    | some (y, s) => gateOpen y.block { s with rea.pool := s.rea.pool.map fun z => if z = x then y else z }) s

/-- A parked composition becomes pending, on the block chosen for it or, where that takes no work of the partition any more,
on another. An append composition's block is chosen now, in the region that it is parked with (R157). -/
def placeParked (x : PendComp) (s : State) : State :=
  if x.comp.append then
    match blockFor s x.comp.part (x.block / 16) with
    | none => failAtt x.comp.att ST.REAM_NO_BLOCK s
    | some (b, far) => placeComp { x with block := b } (if far then s.bump REAM_XREGION_CNT.COUNT else s)
  else if (regionBlocks s x.comp.part (x.block / 16)).contains x.block then placeComp x s
  else match rehome x s with
    | none => failAtt x.comp.att ST.REAM_NO_BLOCK s
    | some (y, s) => placeComp y s

/-- Let parked compositions of an attempt become pending, in order, while there is room (R203). -/
def unpark (k : Nat) (s : State) : State :=
  match s.att? k with
  | none => s
  | some a =>
    let n := poolRoom s a
    (a.parked.take n).foldl (fun s x => if (s.att? k).isSome then placeParked x s else s) (s.setAtt k { a with parked := a.parked.drop n })

def ownAnyBlock (s : State) (p : Nat) : Bool := (List.range 4).any fun r => !(regionBlocks s p r).isEmpty

/-! Pieces (R196–R198). -/

/-- Cut a piece into compositions wherever the slot changes and after every 16 folios. -/
def cutFront : Nat → List (Nat × FSlot) → List (Nat × List FSlot)
  | 0, _ => []
  | n + 1, l =>
    match l with
    | [] => []
    | (i, _) :: _ =>
      let mine := (l.takeWhile fun x => x.1 = i).take 16
      (i, mine.map (·.2)) :: cutFront n (l.drop mine.length)

/-- Cut a list into `n` contiguous pieces whose sizes differ by at most one, the larger first. -/
def cutPieces (n : Nat) (l : List (Nat × FSlot)) : List (List (Nat × FSlot)) :=
  let q := l.length / n
  let r := l.length % n
  (List.range n).map fun i => (l.drop (i * q + min i r)).take (if i < r then q + 1 else q)

def slotTenantClass (a : Att) (i : Nat) : Nat := slotClass (slotOf a.ticket i)

/-- The compositions of a region's list, with their blocks, in the order of R197. -/
def regionComps (s : State) (k : Nat) (a : Att) (bs : List Nat) (l : List (Nat × FSlot)) : List PendComp :=
  ((cutPieces bs.length l).zip (byCost s bs)).flatMap fun pb =>
    (cutFront pb.1.length pb.1).map fun x =>
      { comp := mkComp s k a x.1 x.2, block := pb.2, cls := slotTenantClass a x.1, cost := compCost x.2 }

/-- Which list of which region the folios of a batch go to, and how many move regions (R198). -/
def regionLists (s : State) (p : Nat) (l : List (Nat × FSlot)) : List (Nat × List (Nat × FSlot)) × Nat :=
  let own (r : Nat) := l.filter fun x => decide (offStack x.2.base / 2 = r)
  let empty := (List.range 4).filter fun r => (regionBlocks s p r).isEmpty
  let moved (r : Nat) := (empty.filter fun e => otherRegion s p e = some r).flatMap own
  (((List.range 4).filter fun r => !(regionBlocks s p r).isEmpty).map fun r => (r, own r ++ moved r),
   (empty.map fun e => (own e).length).foldl (· + ·) 0)

/-- The compositions of a batch's folios, and the folios moved between regions. -/
def batchComps (s : State) (k : Nat) (a : Att) (l : List (Nat × FSlot)) : List PendComp × Nat :=
  let (ls, n) := regionLists s a.part l
  (ls.flatMap fun r => regionComps s k a (regionBlocks s a.part r.1) r.2, n)

/-! The mode choice (R80, R162, R200). -/

/-- Whether the gang of a channel set is free: no list runs, waits or holds it, and its stack runs lists. -/
def gangFree (s : State) (set : Nat) : Bool :=
  let k := set / 8
  s.flag PLT_CFG.EN k && (List.range 8).all (fun i => (KMap.find? s.plt.runs (64 * k + 8 * (set % 8) + i)).isNone) &&
  (KMap.get [] s.plt.queues k).all (fun l => !(l.gangOf == set % 8)) &&
  !(KMap.get {} s.plt.holds set).held

inductive Mode where
  | galley | press | wait
  deriving DecidableEq, Repr

def folioSet (f : FSlot) : Nat := offStack f.base * 8 + offSet f.base

/-- The galley request for a line of a folio. -/
def folioReq (part : Nat) (f : FSlot) (rel : Nat) : GalReq :=
  { part := part, off := f.base + rel - (f.base + rel) % 128, sealed := f.sealed, slot := f.slot, gen := f.gen, conv := f.conv,
    runIx := f.runIx, posBase := f.posBase, base := f.base }

/-- The mode of a folio for a slot of an attempt (Table 7.5), under the attempt's policy (R193). -/
def modeOf (s : State) (a : Att) (x : Slot) (f : FSlot) : Mode :=
  let pol := a.pol
  let p := a.part
  let eligible := !f.kerned && !f.sealed && pressFormats f.geo && decide (f.base % 512 = 0)
  if ¬ eligible ∨ ¬ pol.press ∨ (regionBlocks s p (offStack f.base / 2)).isEmpty then .galley
  else if 16 < x.nq * x.nh then .galley
  else if (galProbe s (folioReq p f 0)).isSome then .galley
  else if f.posEnd - f.posBase < pol.thr then .galley
  else if gangFree s (folioSet f) then .press
  else if pol.gangWait = 0 then .galley else .wait

/-! Gang waits (R200). -/

/-- Place folios whose mode has been decided late: each joins the attempt's compositions. In a region where the partition has
no block, and has lost what it had, a folio goes to galley mode elsewhere; without any block the part ends (R198). -/
def placeLate (k : Nat) (press : Bool) (gs : List GangWait) (s : State) : State :=
  match s.att? k with
  | none => s
  | some a =>
    if ¬ ownAnyBlock s a.part then failAtt k ST.REAM_NO_BLOCK s
    else
      let fs := gs.map fun g => (g.slot, { g.fslot with press := press && !(regionBlocks s a.part (offStack g.fslot.base / 2)).isEmpty })
      let s := (s.bumpBy REAM_PRESS_CNT.COUNT 0 (fs.filter fun f => f.2.press).length).bumpBy REAM_GALLEY_CNT.COUNT 0
        (fs.filter fun f => !f.2.press).length
      let (comps, moved) := batchComps s k a fs
      let s := s.bumpBy REAM_XREGION_CNT.COUNT 0 moved
      unpark k (s.setAtt k { a with gangs := a.gangs.filter fun g => !gs.contains g, parked := a.parked ++ comps })

/-- Whether a gang that is free became so in time for a folio that waits for it. -/
def gangInTime (s : State) (a : Att) (g : GangWait) : Bool :=
  decide (KMap.get 0 s.plt.freeAt (folioSet g.fslot) ≤ g.since + a.pol.gangWait)

/-- Serve, in press mode, the folios that wait in time for the gang of a channel set, if it is free. -/
def gangServe (set : Nat) (s : State) : State :=
  if ¬ gangFree s set then s
  else List.foldl (fun s (e : Nat × Att) =>
    match e.2.gangs.filter fun g => decide (folioSet g.fslot = set) && gangInTime s e.2 g with
    | [] => s
    | gs => placeLate e.1 true gs s) s s.col.atts

/-- Serve the waiting folios of every gang that some attempt waits for: after anything by which a gang may have become free. -/
def gangsServe (s : State) : State :=
  ((s.col.atts.flatMap fun e : Nat × Att => e.2.gangs.map fun g => folioSet g.fslot).eraseDups).foldl (fun s set => gangServe set s) s

/-- A composition, or a node's part of an attempt, ends with a fault, and the gangs that it leaves serve others. -/
def failServe (b status : Nat) (s : State) : State := gangsServe (failComp b status s)
def endServe (k status faultPos : Nat) (s : State) : State := gangsServe (endPart k status faultPos s)
def failPart (k status : Nat) (s : State) : State := gangsServe (failAtt k status s)

/-! Fences of blocks (R116, R370, R376). -/

/-- A block fences itself or is fenced: the composition that runs, and those queued, complete with ST_CMP_FENCED, and those
pending on it are placed again (R199). -/
def fenceBlock (b : Nat) (s : State) : State :=
  let q := (s.blk b).queue
  let s := (s.setBlk b { s.blk b with queue := [] }).wr CMP_SEQ_STS.STATE b 4
  let s := if (s.blk b).cur.isSome then failServe b ST.CMP_FENCED (s.bump (CMP_CNT.COUNT 0) b) else s
  replacePending b (q.foldl (fun s c => failAtt c.att ST.CMP_FENCED (s.bump (CMP_CNT.COUNT 0) b)) s)

/-- One failure more in FAILS; at FENCE_THR the block fences itself (R116). -/
def blockFail (b : Nat) (s : State) : State :=
  let s := s.bump CMP_FENCE_CFG.FAILS b
  let thr := s.rd CMP_FENCE_CFG.FENCE_THR b
  if thr ≠ 0 ∧ thr ≤ s.rd CMP_FENCE_CFG.FAILS b ∧ ¬ blkFenced s b then
    let s := (fenceBlock b s).bump (CMP_CNT.COUNT 6) b
    report (.region (b / 16)) { sev := 2, subsys := 1, cause := Config.causeCode 30, unit := b, part := blockOwner s b } s
  else s

end Sys2Proof.Machine
end

