-- ==== Sys2Proof/Machine/Trig.lean ====
section
/-!
DEFINITION. EXP, COS and SIN correctly rounded to FP32 (R136, R144), by fixed-point series of far more bits than
any FP32 result needs to be decided.
-/
namespace Sys2Proof.Machine

/-- ln 2 × 2^256. -/
def ln2Fix : Int := 0xb17217f7d1cf79abc9e3b39803f2f6af40f343267298b62d8a0d175b8baafa2b
/-- π × 2^480. -/
def piFix : Int := 0x3243f6a8885a308d313198a2e03707344a4093822299f31d0082efa98ec4e6c89452821e638d01377be5466cf34e90c6cc0ac29b7c97c50dd3f84d5b5

/-- Σ r^k / k! for k ≤ n, with r and the sum at scale 2^f. -/
def expSeries (f : Nat) (r : Int) : Nat → Int → Int → Nat → Int
  | 0, _, acc, _ => acc
  | n + 1, term, acc, k => expSeries f r n (term * r / 2 ^ f / (k : Int)) (acc + term) (k + 1)

/-- e^x for a finite x: 2^q × e^r with r = x − q ln 2. -/
def expFin (neg : Bool) (m : Nat) (e : Int) : Num :=
  if 8 ≤ e + Nat.log2 m ∧ m ≠ 0 then (if neg then .fin false 1 (-400) else .fin false 1 400)
  else
    let x : Int := if 0 ≤ e + 256 then m * 2 ^ (e + 256).toNat else m / 2 ^ (-(e + 256)).toNat
    let x := if neg then -x else x
    let q := x / ln2Fix
    let r := x - q * ln2Fix
    .fin false (expSeries 256 r 60 (2 ^ 256) 0 1).toNat (q - 256)

/-- EXP of an FP32 pattern: e^x rounded to nearest even; EXP(−∞) = +0. -/
def exp32 (w : Nat) : Nat :=
  match of32 w with
  | .nan => fp32.qnan
  | .inf n => if n then posZero else fp32.top
  | .fin n m e => if m = 0 then 0x3F800000 else rn32 (expFin n m e)

/-- Alternating series Σ ± r^(2k+s) / (2k+s)! at scale 2^480. -/
def trigSeries (r2 : Int) : Nat → Int → Int → Nat → Int
  | 0, _, acc, _ => acc
  | n + 1, term, acc, k => trigSeries r2 n (-(term * r2 / 2 ^ 480 / ((k + 1 : Int) * (k + 2)))) (acc + term) (k + 2)

/-- SIN (`c` false) or COS (`c` true) of a finite value. -/
def trigFin (c : Bool) (neg : Bool) (m : Nat) (e : Int) : Num :=
  let x : Int := if 0 ≤ e + 480 then m * 2 ^ (e + 480).toNat else m / 2 ^ (-(e + 480)).toNat
  let x := if neg then -x else x
  -- quarter turns, rounded to the nearest, with 2^160 more bits for large angles
  let half := piFix / 2
  let q := (x + half / 2) / half
  let r := x - q * piFix / 2
  let r2 := r * r / 2 ^ 480
  let si := trigSeries r2 60 r 0 1
  let co := trigSeries r2 60 (2 ^ 480) 0 0
  let k := ((if c then q + 1 else q) % 4).toNat
  let v := if k = 0 then si else if k = 1 then co else if k = 2 then -si else -co
  ofSigned v (-480) false

def sin32 (w : Nat) : Nat :=
  match of32 w with
  | .fin n m e => if m = 0 then w else rn32 (trigFin false n m e)
  | _ => fp32.qnan

def cos32 (w : Nat) : Nat :=
  match of32 w with
  | .fin n m e => if m = 0 then 0x3F800000 else rn32 (trigFin true n m e)
  | _ => fp32.qnan

end Sys2Proof.Machine
end

