-- ==== Sys2Proof/Machine/Tensor.lean ====
section
/-!
DEFINITION. What a compositor block computes (chapter 6): instruction fields, reads and writes of scalars, tiles,
accumulators and predicates, and each computing instruction as a function of the block. `none` is a poisoned operand.
-/
namespace Sys2Proof.Machine

/-! Fields of the three formats (Tables 6.3–6.5). -/
def iOp (w : Nat) : Nat := bits w 56 8
def sRd (w : Nat) : Nat := bits w 51 5
def sRa (w : Nat) : Nat := bits w 46 5
def sRb (w : Nat) : Nat := bits w 41 5
def sFn (w : Nat) : Nat := bits w 32 9
def sImm (w : Nat) : Int := sInt 32 (bits w 0 32)
def mTd (w : Nat) : Nat := bits w 52 4
def mTs (w : Nat) : Nat := bits w 48 4
def mFslot (w : Nat) : Nat := bits w 44 4
def mSec (w : Nat) : Nat := bits w 42 2
def mRowl (w : Nat) : Nat := bits w 38 4
def mFmt (w : Nat) : Nat := bits w 34 4
def mFirst (w : Nat) : Nat := bits w 24 10
def mCount (w : Nat) : Nat := bits w 13 11
def mRa (w : Nat) : Nat := bits w 8 5
def mAd (w : Nat) : Nat := bits w 6 2
def mFlags (w : Nat) : Nat := bits w 0 6
def tAd (w : Nat) : Nat := bits w 54 2
def tTa (w : Nat) : Nat := bits w 50 4
def tTb (w : Nat) : Nat := bits w 46 4
def tTc (w : Nat) : Nat := bits w 42 4
def tTe (w : Nat) : Nat := bits w 38 4
def tFa (w : Nat) : Nat := bits w 34 4
def tFb (w : Nat) : Nat := bits w 30 4
def tPe (w : Nat) : Bool := bitOf w 29
def tPg (w : Nat) : Nat := bits w 26 3
def tC0 (w : Nat) : Nat := bits w 20 6
def tNc (w : Nat) : Nat := bits w 14 6 + 1
def tS (w : Nat) : Nat := 2 ^ bits w 11 3
def tRa (w : Nat) : Nat := bits w 6 5
def tRb (w : Nat) : Nat := bits w 1 5
def tInit (w : Nat) : Bool := bitOf w 0

/-- Opcodes of Table 6.7. -/
def insDefined (op : Nat) : Bool := decide (op ≤ 0x0A ∨ (0x10 ≤ op ∧ op ≤ 0x15) ∨ (0x20 ≤ op ∧ op ≤ 0x2B))

/-- Scalars: a0 reads zero and discards writes (Table 5.1). -/
def BlkSt.a (b : BlkSt) (r : Nat) : Nat := if r = 0 then 0 else KMap.get 0 b.scal r
def BlkSt.setA (b : BlkSt) (r v : Nat) : BlkSt :=
  if r = 0 then b else { b with scal := KMap.put 0 b.scal r (v % 2 ^ 64) }

def BlkSt.p (b : BlkSt) (i : Nat) : Nat := KMap.get 0 b.preds i
def BlkSt.setP (b : BlkSt) (i v : Nat) : BlkSt := { b with preds := KMap.put 0 b.preds i (v % 2 ^ 64) }

def BlkSt.row (b : BlkSt) (t r : Nat) : Nat := KMap.get 0 b.tiles (t * 64 + r)
def BlkSt.setRow (b : BlkSt) (t r v : Nat) (poison : Bool := false) : BlkSt :=
  { b with tiles := KMap.put 0 b.tiles (t * 64 + r) (v % 2 ^ 512), tpsn := KMap.put 0 b.tpsn (t * 64 + r) (b2n poison) }

/-- Whether any of the first `n` rows of a tile carries poison. -/
def BlkSt.tileBad (b : BlkSt) (t n : Nat) : Bool := (List.range n).any fun r => KMap.get 0 b.tpsn (t * 64 + r) ≠ 0

def BlkSt.acc (b : BlkSt) (x r c : Nat) : Nat := bits (KMap.get 0 b.accs (x * 64 + r)) (32 * c) 32
/-- Whether columns `[c0, c0 + nc)` of an accumulator carry poison in any row. -/
def BlkSt.accBad (b : BlkSt) (x c0 nc : Nat) : Bool :=
  (List.range 64).any fun r => bits (KMap.get 0 b.apsn (x * 64 + r)) c0 nc ≠ 0

/-- Whether one entry of an accumulator carries poison. -/
def BlkSt.entryBad (b : BlkSt) (x r c : Nat) : Bool := bitOf (KMap.get 0 b.apsn (x * 64 + r)) c

/-- Write columns `[c0, c0 + vs.length)` of an accumulator row. -/
def BlkSt.setAccs (b : BlkSt) (x r c0 : Nat) (vs : List Nat) (poison : Bool := false) : BlkSt :=
  let k := x * 64 + r
  let (w, _) := vs.foldl (fun (wc : Nat × Nat) v => (setBits wc.1 (32 * wc.2) 32 v, wc.2 + 1)) (KMap.get 0 b.accs k, c0)
  { b with
    accs := KMap.put 0 b.accs k w
    apsn := KMap.put 0 b.apsn k (setBits (KMap.get 0 b.apsn k) c0 vs.length (if poison then 2 ^ vs.length - 1 else 0)) }

/-- Zero an accumulator and its rank map. -/
def BlkSt.zeroAcc (b : BlkSt) (x : Nat) : BlkSt :=
  let b := (List.range 64).foldl (fun b r =>
    { b with accs := KMap.put 0 b.accs (x * 64 + r) 0, apsn := KMap.put 0 b.apsn (x * 64 + r) 0 }) b
  { b with rmap := KMap.put 0 b.rmap x 0 }

/-- Element `k` of a tile row in a format (R37). -/
def rowElem (code row k : Nat) : Nat := bits row (elemBits code * k) (elemBits code)
/-- Scale `i` of a tile row of scales. -/
def rowScale (code row i : Nat) : Nat := bits row (8 * scaleBytes code * i) (8 * scaleBytes code)
/-- Elements per 64-byte row (Table 6.6). -/
def rowElems (code : Nat) : Nat := 512 / elemBits code

/-! Scalar instructions (Table 6.8). -/

def aluOp (fn x y : Nat) : Nat :=
  match fn with
  | 0 => (x + y) % 2 ^ 64
  | 1 => (x + 2 ^ 64 - y % 2 ^ 64) % 2 ^ 64
  | 2 => x &&& y
  | 3 => x ||| y
  | 4 => x ^^^ y
  | 5 => (x * 2 ^ (y % 64)) % 2 ^ 64
  | 6 => x / 2 ^ (y % 64)
  | 7 => ofInt 64 (sInt 64 x / 2 ^ (y % 64))
  | 8 => if sInt 64 x ≤ sInt 64 y then x else y
  | 9 => if sInt 64 x ≤ sInt 64 y then y else x
  | _ => (x * y) % 2 ^ 64

def condOp (fn x y : Nat) : Bool :=
  match fn with
  | 0 => true
  | 1 => x == y
  | 2 => x != y
  | 3 => decide (sInt 64 x < sInt 64 y)
  | 4 => decide (sInt 64 y ≤ sInt 64 x)
  | 5 => decide (x < y)
  | 6 => decide (y ≤ x)
  | _ => decide (sInt 64 x ≤ sInt 64 y)

/-- a[r] + IMM, wrapping. -/
def addImm (a : Nat) (imm : Int) : Nat := ofInt 64 ((a : Int) + imm)

def plogOp (fn x y s : Nat) : Nat :=
  match fn with
  | 0 => x &&& y
  | 1 => x ||| y
  | 2 => andNot x y 64
  | 3 => x ^^^ y
  | 4 => andNot (2 ^ 64 - 1) x 64
  | 5 => 2 ^ 64 - 1
  | 6 => 0
  | _ => s % 2 ^ 64

def maskOf (f : Nat → Bool) : Nat := (List.range 64).foldl (fun m r => if f r then setBit m r else m) 0

/-! Tile and accumulator instructions. -/

/-- The exact sum of a group of products (R130). -/
def groupSum (fa fb ra rb g : Nat) : Num :=
  (List.range 8).foldl (fun u j =>
    let k := 8 * g + j
    let t := ((fmtOf fa).dec (rowElem fa ra k)).mul ((fmtOf fb).dec (rowElem fb rb k))
    if j = 0 then t else u.add t) (.fin false 0 0)

/-- R130 for one row and column. -/
def tmulAt (w : Nat) (b : BlkSt) (r c : Nat) : Nat :=
  let ra := b.row (tTa w) r
  let rb := b.row (tTb w) c
  (List.range (rowElems (tFa w) / 8)).foldl (fun acc g =>
    let u := rn32 (groupSum (tFa w) (tFb w) ra rb g)
    if tInit w ∧ g = 0 then u else fadd acc u) (b.acc (tAd w) r (tC0 w + c))

/-- Write NC columns from C0 of every row of an accumulator with a function of row and column. -/
def accMap (x c0 nc : Nat) (f : Nat → Nat → Nat) (b : BlkSt) : BlkSt :=
  (List.range 64).foldl (fun b' r => b'.setAccs x r c0 ((List.range nc).map fun c => f r c)) b

def tmul (w : Nat) (b : BlkSt) : Option BlkSt :=
  if b.tileBad (tTa w) 64 ∨ b.tileBad (tTb w) (tNc w) ∨ (¬ tInit w ∧ b.accBad (tAd w) (tC0 w) (tNc w)) then none
  else some (accMap (tAd w) (tC0 w) (tNc w) (tmulAt w b) b)

/-- R131 for one row and column: the blocks of the tile row, within the head dimension `d`. -/
def qkdotAt (w d : Nat) (b : BlkSt) (r c : Nat) : Nat :=
  let fa := tFa w
  let fb := tFb w
  let e := rowElems fa
  let b0 := b.a (tRa w) / 32
  let nb := min (e / 32) (d / 32 - b0)
  let split := elemBits fa = 4 ∧ elemBits fb = 8
  (List.range nb).foldl (fun acc j =>
    let sum := (List.range 32).foldl (fun (s : Int) i =>
      let k := 32 * j + i
      let q := if split ∧ 64 ≤ k then rowElem fb (b.row (tTb w + 1) c) (k - 64) else rowElem fb (b.row (tTb w) c) k
      s + ival fb q * ival fa (rowElem fa (b.row (tTa w) r) k)) 0
    let t := blockTerm fb fa (rowScale fb (b.row (tTe w) c) (b0 + j)) (rowScale fa (b.row (tTc w) r) (b0 + j)) sum
    if tInit w ∧ j = 0 then t else fadd acc t) (b.acc (tAd w) r (tC0 w + c))

def qkdot (w d : Nat) (b : BlkSt) : Option BlkSt :=
  let split := elemBits (tFa w) = 4 ∧ elemBits (tFb w) = 8
  if b.tileBad (tTa w) 64 ∨ b.tileBad (tTb w) (tNc w) ∨ (split ∧ b.tileBad (tTb w + 1) (tNc w)) ∨ b.tileBad (tTc w) 64 ∨
     b.tileBad (tTe w) (tNc w) ∨ (¬ tInit w ∧ b.accBad (tAd w) (tC0 w) (tNc w)) then none
  else some (accMap (tAd w) (tC0 w) (tNc w) (qkdotAt w d b) b)

/-- R132, DQ. -/
def dq (w : Nat) (b : BlkSt) : Option BlkSt :=
  let fa := tFa w
  if b.tileBad (tTa w) 64 ∨ (scaled fa ∧ b.tileBad (tTb w) 64) then none
  else some (accMap (tAd w) 0 (tNc w) (fun r c =>
    let k := tC0 w + c
    rn32 (elemVal fa (rowElem fa (b.row (tTa w) r) k) (rowScale fa (b.row (tTb w) r) ((b.a (tRa w) + k) / 32)))) b)

/-- One row of R132, QNT: elements and scales into TC and TE. -/
def qntRow (w : Nat) (b : BlkSt) (r : Nat) : BlkSt :=
  let fa := tFa w
  let xs := (List.range (tNc w)).map fun c => of32 (b.acc (tAd w) r c)
  let wd := elemBits fa
  if scaled fa then
    (List.range (tNc w / 32)).foldl (fun b j =>
      let (sc, es) := quantBlock fa ((xs.drop (32 * j)).take 32)
      let row := (List.range 32).foldl (fun row i => setBits row (wd * (tC0 w + 32 * j + i)) wd (es.getD i 0)) (b.row (tTc w) r)
      let sb := 8 * scaleBytes fa
      let i := (b.a (tRa w) + tC0 w) / 32 + j
      (b.setRow (tTc w) r row).setRow (tTe w) r (setBits (b.row (tTe w) r) (sb * i) sb sc)) b
  else
    let row := (List.range (tNc w)).foldl (fun row c =>
      setBits row (wd * (tC0 w + c)) wd ((fmtOf fa).enc .rne true (xs.getD c .nan))) (b.row (tTc w) r)
    b.setRow (tTc w) r row

def qnt (w : Nat) (b : BlkSt) : Option BlkSt :=
  if b.accBad (tAd w) 0 (tNc w) then none else some ((List.range 64).foldl (qntRow w) b)

/-- x·c ± y·s rounded once (R144). -/
def rotPair (x y : Num) (c s : Nat) : Nat × Nat :=
  (rn32 ((x.mul (of32 c)).add (y.mul (of32 s)).neg), rn32 ((x.mul (of32 s)).add (y.mul (of32 c))))

/-- Whether a row of TB that holds a frequency of ROT carries poison. -/
def rotBad (w n : Nat) (b : BlkSt) : Bool :=
  (List.range n).any fun k => KMap.get 0 b.tpsn (tTb w * 64 + (b.a (tRb w) + k) / 16) != 0

/-- R144, ROT. -/
def rot (w : Nat) (b : BlkSt) : Option BlkSt :=
  let halves := decide (tFb w = 0)
  let n := if halves then 32 else 16
  let f := fmtOf (tFa w)
  if b.tileBad (tTa w) 64 ∨ rotBad w n b ∨ (halves ∧ b.tileBad (tTc w) 64) then none
  else some ((List.range 64).foldl (fun b' r =>
    let kp := rn32 (Num.ofInt ((b.a (tRa w) + r : Nat) : Int))
    let ps := (List.range n).map fun k =>
      let j := b.a (tRb w) + k
      let th := fmul kp (bits (b.row (tTb w) (j / 16)) (32 * (j % 16)) 32)
      let x := f.dec (rowElem (tFa w) (b.row (tTa w) r) (if halves then k else 2 * k))
      let y := f.dec (if halves then rowElem (tFa w) (b.row (tTc w) r) k else rowElem (tFa w) (b.row (tTa w) r) (2 * k + 1))
      rotPair x y (cos32 th) (sin32 th)
    if halves then (b'.setAccs (tAd w) r 0 (ps.map (·.1))).setAccs (tAd w) r 32 (ps.map (·.2))
    else b'.setAccs (tAd w) r 0 (ps.flatMap fun q => [q.1, q.2])) b)

/-- Whether R133 masks a row and column. -/
def maskqAt (w : Nat) (c : Comp) (b : BlkSt) (r col : Nat) : Bool :=
  let kp := b.a (tRa w) + r
  let qp := c.qpos.getD (tTe w + col / tS w) 0
  (bitOf (tFa w) 0 && decide (qp < kp)) ||
  (bitOf (tFa w) 1 && decide (kp + b.a (tRb w) ≤ qp) && !(tPe w && bitOf (b.p (tPg w)) r))

def maskq (w : Nat) (c : Comp) (b : BlkSt) : BlkSt :=
  (List.range 64).foldl (fun b' r => (List.range (tNc w)).foldl (fun b' col =>
    if maskqAt w c b r col then b'.setAccs (tAd w) r (tC0 w + col) [minusInf32] else b') b') b

def maskp (w : Nat) (b : BlkSt) : BlkSt :=
  (List.range 64).foldl (fun b' r =>
    if bitOf (b.p (tPg w)) r then b' else b'.setAccs (tAd w) r (tC0 w) (List.replicate (tNc w) minusInf32)) b

/-- The larger of two FP32 patterns: NaN wins, and +0 wins over −0 (R135). -/
def fmax (x y : Nat) : Nat :=
  if (of32 x).isNan then fp32.qnan else if (of32 y).isNan then fp32.qnan
  else if (of32 x).lt (of32 y) then y else if (of32 y).lt (of32 x) then x
  else if x = 0x80000000 then y else x

/-- R135, RMAX. -/
def rmax (w : Nat) (b : BlkSt) : Option BlkSt :=
  if b.accBad (tAd w) (tC0 w) (tNc w) then none
  else some ((List.range (tS w)).foldl (fun b' j =>
    let v0 := if tInit w then minusInf32 else b.a (tRa w + j) % 2 ^ 32
    let v := (List.range (tNc w)).foldl (fun v c =>
      if c % tS w = j then (List.range 64).foldl (fun v r => fmax v (b.acc (tAd w) r (tC0 w + c))) v else v) v0
    b'.setA (tRa w + j) v) b)

/-- Round e × 65536 half to even, at most 65,535. -/
def weightOf (e : Nat) : Nat :=
  match (of32 e).mul (.pow2 16) with
  | .fin _ m g => min 65535 (rneInt false m g).toNat
  | .inf _ => 65535
  | .nan => 0

/-- The weight of a score under a maximum and τ (R136). -/
def expWeight (m s tau : Nat) : Nat :=
  if (of32 m).isNan ∨ m = 0x7F800000 ∨ s = minusInf32 ∨ (of32 s).isNan then 0
  else weightOf (exp32 (fmul (fsub s m) tau))

/-- R136, EXPW. -/
def expw (w tau : Nat) (b : BlkSt) : Option BlkSt :=
  if b.accBad (tAd w) (tC0 w) (tNc w) then none
  else
    let b0 := if tInit w then (List.range (tS w)).foldl (fun b j => b.setA (tRb w + j) 0) b else b
    some ((List.range 64).foldl (fun b' r =>
      (List.range (tNc w)).foldl (fun b' c =>
        let j := c % tS w
        let wt := expWeight (b'.a (tRa w + j) % 2 ^ 32) (b.acc (tAd w) r (tC0 w + c)) tau
        let b' := b'.setRow (tTc w) r (setBits (b'.row (tTc w) r) (16 * c) 16 wt)
        b'.setA (tRb w + j) (b'.a (tRb w + j) + wt)) b') b0)

def rankSet (b : BlkSt) (x kc : Nat) : Nat := bits (KMap.get 0 b.rmap x) (8 * kc) 8

/-- The value of R138's product of weight and element, exact, and +0 for a weight of 0. -/
def waccTerm (fa wt el sc : Nat) : Nat :=
  if wt = 0 then posZero
  else
    let v := if scaled fa then Num.ofInt (ival fa el) else (fmtOf fa).dec el
    let s := if scaled fa then (scaleVal fa sc).mul (fOf fa) else .pow2 0
    rn32 (((Num.ofInt (wt : Int)).mul v).mul (s.mul (.pow2 (-16))))

/-- The rank of element `k` of row `r` of a value tile (R138). -/
def waccRank (w d r k : Nat) (b : BlkSt) : Nat :=
  (b.a (tRa w) + (r * (d * elemBits (tFa w) / 8) + k * elemBits (tFa w) / 8) / 64) % 8

/-- Whether an accumulator entry that WACC adds to carries poison. -/
def waccBad (w d k0 n : Nat) (b : BlkSt) : Bool :=
  (List.range n).any fun kc => (((List.range 64).map fun r => waccRank w d r (k0 + kc) b).eraseDups).any fun u =>
    (List.range (tNc w)).any fun h => b.entryBad (tAd w) (8 * u + h) kc

/-- R138, WACC, with `d` the head dimension. -/
def wacc (w d : Nat) (b : BlkSt) : Option BlkSt :=
  let fa := tFa w
  let four := elemBits fa = 4
  let k0 := if four then 64 * (tFb w % 2) else 0
  let n := min 64 (rowElems fa)
  if b.tileBad (tTa w) 64 ∨ (scaled fa ∧ b.tileBad (tTb w) 64) ∨ b.tileBad (tTc w) 64 ∨ (¬ tInit w ∧ waccBad w d k0 n b) then none
  else
    let start := if tInit w then b.zeroAcc (tAd w) else b
    some ((List.range (tNc w)).foldl (fun b' h =>
      (List.range n).foldl (fun b' kc =>
        let k := k0 + kc
        let i := b.a (tRb w) + kc
        (List.range 64).foldl (fun b' r =>
          let u := waccRank w d r k b
          let t := waccTerm fa (bits (b.row (tTc w) r) (16 * (tC0 w + h)) 16) (rowElem fa (b.row (tTa w) r) k)
                    (rowScale fa (b.row (tTb w) r) (i / 32))
          let b' := b'.setAccs (tAd w) (8 * u + h) kc [fadd (b'.acc (tAd w) (8 * u + h) kc) t]
          { b' with rmap := KMap.put 0 b'.rmap (tAd w) (setBits (KMap.get 0 b'.rmap (tAd w)) (8 * kc + u) 1 1) }) b') b') start)

/-- Whether an accumulator entry that RKSUM adds carries poison. -/
def rksumBad (w : Nat) (b : BlkSt) : Bool :=
  (List.range 64).any fun kc => (bitList (rankSet b (tAd w) kc) 8).any fun u =>
    (List.range (tNc w)).any fun h => b.entryBad (tAd w) (8 * u + h) kc

/-- R139, RKSUM. -/
def rksum (w : Nat) (b : BlkSt) : Option BlkSt :=
  if rksumBad w b then none
  else
    let outs := (List.range (tNc w)).map fun h => (List.range 64).map fun kc =>
      orderedSum ((bitList (rankSet b (tAd w) kc) 8).map fun u => b.acc (tAd w) (8 * u + h) kc)
    some ((List.range (tNc w)).foldl (fun b' h => b'.setAccs (tAd w) h 0 (outs.getD h [])) (b.zeroAcc (tAd w)))

end Sys2Proof.Machine
end

