-- ==== Sys2Proof/Machine/Fold.lean ====
section
/-!
DEFINITION. Partials and the fold (R163–R170, R298–R300, R308): the merge, the two merge orders, partial records,
node partials, results, and audits.
-/
namespace Sys2Proof.Machine

/-! The merge (R164). -/
def Tri.empty (d : Nat) : Tri := { m := minusInf32, l := 0, o := List.replicate d 0 }

def merge (a b : Tri) : Tri :=
  if a.m = minusInf32 ∧ b.m = minusInf32 then Tri.empty a.o.length
  else
    let m := fmax a.m b.m
    let fa := exp32 (fsub a.m m)
    let fb := exp32 (fsub b.m m)
    { m := m, l := fadd (fmul fa a.l) (fmul fb b.l), o := (a.o.zip b.o).map fun x => fadd (fmul fa x.1) (fmul fb x.2) }

def roundBf16 (w : Nat) : Nat := bf16.enc .rne false (of32 w)
/-- A BF16 word widened exactly to FP32. -/
def widen (w : Nat) : Nat := w * 65536

/-! One vector's fold (R166, R167). -/

/-- The order code of a child position. -/
def childCode (c : Nat) : Nat := 2 ^ 32 + c

/-- What may be folded next. `audited` folds take local partials in order and hold the children while `hold`. -/
def VecFold.next? (fast audited hold : Bool) (v : VecFold) : Option (Nat × Tri) :=
  if fast && !audited then v.buf.head?
  else if ¬ v.placed then none
  else
    match v.left.filter (· < 2 ^ 32) with
    | c :: _ => v.buf.find? fun x => x.1 = c
    | [] =>
      if hold then none
      else if fast then v.buf.head?
      else v.left.head?.bind fun c => v.buf.find? fun x => x.1 = c

/-- Fold one partial in. In order (`seq`), the children are merged into the local fold, which is empty where the node
holds no unskipped folio (R165, R166); the first partial is otherwise the start. -/
def VecFold.take (seq : Bool) (x : Nat × Tri) (v : VecFold) : VecFold :=
  { v with
    acc := some (match v.acc with
      | none => if seq ∧ 2 ^ 32 ≤ x.1 then merge (Tri.empty x.2.o.length) x.2 else x.2
      | some a => merge a x.2)
    buf := v.buf.filter fun y => y.1 ≠ x.1
    left := v.left.erase x.1
    came := if v.placed then v.came else v.came ++ [x.1] }

/-- Fold as far as the order allows. -/
def VecFold.drain (fast audited hold : Bool) : Nat → VecFold → VecFold
  | 0, v => v
  | n + 1, v =>
    match v.next? fast audited hold with
    | none => v
    | some x => VecFold.drain fast audited hold n (v.take (!fast || audited) x)

/-- The codes of a vector become known. -/
def VecFold.know (codes : List Nat) (v : VecFold) : VecFold :=
  { v with placed := true, left := codes.filter fun c => !v.came.contains c, came := [] }

def VecFold.whole (v : VecFold) : Bool := v.placed && v.left.isEmpty
/-- The local part of the fold is complete. -/
def VecFold.localWhole (v : VecFold) : Bool := v.placed && v.left.all fun c => decide (2 ^ 32 ≤ c)

/-! The folds of an attempt. -/
def vecKey (slot v : Nat) : Nat := slot * 64 + v

/-- Whether an attempt folds deterministically as an audit asks (R308). -/
def attAudits (a : Att) : Bool := a.audit || a.mirrorOf.isSome

def Att.drainVec (fast : Bool) (a : Att) (v : VecFold) : VecFold :=
  v.drain fast (attAudits a) (a.audit && !a.audited) (v.buf.length + 1)

/-- Put a vector's partial into its fold. -/
def Att.offer (fast : Bool) (a : Att) (slot v code : Nat) (t : Tri) : Att :=
  let f := KMap.get {} a.folds (vecKey slot v)
  { a with folds := KMap.insert a.folds (vecKey slot v) (a.drainVec fast { f with buf := f.buf ++ [(code, t)] }) }

def Att.drainAll (fast : Bool) (a : Att) : Att := { a with folds := a.folds.map fun e => (e.1, a.drainVec fast e.2) }

/-- Codes of a slot's vectors are known: the unskipped folios, then the children. -/
def Att.know (fast : Bool) (a : Att) (slot nv : Nat) (codes : List Nat) : Att :=
  (List.range nv).foldl (fun a v =>
    let f := a.drainVec fast ((KMap.get {} a.folds (vecKey slot v)).know codes)
    { a with folds := KMap.insert a.folds (vecKey slot v) f }) a

/-- The head dimension of a slot, by the conversation record (R165). -/
def slotDim (s : State) (a : Att) (x : Slot) : Nat :=
  match List.find? (fun e : Nat × ConvRec => decide (e.2.conv = x.conv ∧ e.2.part = a.part ∧ e.2.role = attRole a ∧ e.2.state ≠ 0)) s.flo.convs with
  | some (c, _) => (geoOf s c).d
  | none => 32

def Att.vec (a : Att) (s : State) (i v : Nat) : Tri :=
  ((KMap.get {} a.folds (vecKey i v)).acc).getD (Tri.empty (slotDim s a (slotOf a.ticket i)))

def Att.vecs (a : Att) (s : State) (i : Nat) : List Tri :=
  let x := slotOf a.ticket i
  (List.range (x.nq * x.nh)).map (a.vec s i)

def Att.allVecs (a : Att) (p : VecFold → Bool) : Bool :=
  (List.range (tktNslot a.ticket)).all fun i =>
    let x := slotOf a.ticket i
    (List.range (x.nq * x.nh)).all fun v => p (KMap.get {} a.folds (vecKey i v))

def Att.folded (a : Att) : Bool := a.allVecs VecFold.whole
def Att.localFolded (a : Att) : Bool := a.allVecs VecFold.localWhole
/-- Every append that the node places in the attempt has completed (R161). -/
def Att.appended (a : Att) : Bool := a.apps.all fun x => x.state = 3

/-! The partial store (R300). -/
def VecFold.bytes (v : VecFold) : Nat := (v.buf.map fun x => 8 + 4 * x.2.o.length).foldl (· + ·) 0
def storeUsed (s : State) (p : Nat) : Nat :=
  ((List.filter (fun e : Nat × Att => e.2.part == p) s.col.atts).map fun e =>
    (e.2.folds.map fun f => f.2.bytes).foldl (· + ·) 0).foldl (· + ·) 0
def quota (s : State) (p : Nat) : Nat := s.rd COL_QUOTA.QUOTA_KIB p * 1024
/-- Bytes of the largest folio partial record: 16 vectors of 256 FP32 values. -/
def largestRecord : Nat := 32 + 16 * (8 + 4 * 256)
def ownBlocks (s : State) (p : Nat) : Nat := ((List.range 64).filter fun b => blockOwner s b == some p).length

/-! Records (Table 7.6). -/
structure PartRec where
  ream    : Nat := 0
  slot    : Nat := 0
  attempt : Nat := 0
  part    : Nat := 0
  step    : Nat := 0
  first   : Nat := 0
  level   : Nat := 0
  bf16    : Bool := false
  poison  : Bool := false
  d       : Nat := 32
  key     : Nat := 0
  src     : Nat := 0
  tris    : List Tri := []
  deriving DecidableEq, Repr

def triBytes (bf : Bool) (t : Tri) : Bytes :=
  natLe 4 t.m ++ natLe 4 t.l ++ t.o.flatMap fun w => if bf then natLe 2 (roundBf16 w) else natLe 4 w

def PartRec.bytes (r : PartRec) : Bytes :=
  natLe 4 r.ream ++ natLe 2 r.slot ++ natLe 1 r.attempt ++ natLe 1 (r.part % 32) ++ natLe 4 r.step ++ natLe 1 r.first ++
  natLe 1 r.tris.length ++
  natLe 1 (b2n (decide (r.level = 1)) * 32 + b2n r.bf16 * 16 + b2n r.poison * 8 + (r.d / 32 - 1) % 8) ++ natLe 1 0 ++
  natLe 4 r.key ++ natLe 2 r.src ++ natLe 10 0 ++ r.tris.flatMap (triBytes r.bf16)

def triOf (bf : Bool) (d : Nat) (b : Bytes) : Tri :=
  { m := leAt b 0 4, l := leAt b 4 4,
    o := (List.range d).map fun i => if bf then widen (leAt b (8 + 2 * i) 2) else leAt b (8 + 4 * i) 4 }

/-- Read the records of a message; `n` bounds them. -/
def recordsOf : Nat → Bytes → List PartRec
  | 0, _ => []
  | n + 1, b =>
    if b.length < 32 then []
    else
      let f := leAt b 0xE 1
      let d := 32 * (f % 8 + 1)
      let bf := bitOf f 4
      let w := 8 + d * (if bf then 2 else 4)
      let nv := leAt b 0xD 1
      { ream := leAt b 0 4, slot := leAt b 4 2, attempt := leAt b 6 1, part := leAt b 7 1 % 32, step := leAt b 8 4,
        first := leAt b 0xC 1, level := bits f 5 1, bf16 := bf, poison := bitOf f 3, d := d, key := leAt b 0x10 4,
        src := leAt b 0x14 2, tris := (List.range nv).map fun v => triOf bf d (slice b (32 + w * v) w) } ::
      recordsOf n (b.drop (32 + w * nv))

/-- The node partial record of a slot; its place and source are those of the position's own node (R296). -/
def nodeRec (s : State) (d : SigDesc) (a : Att) (i : Nat) : PartRec :=
  { ream := a.ream, slot := i, attempt := a.attempt, part := a.part, step := a.step, level := 1,
    bf16 := tktForm a.ticket = 1, d := slotDim s a (slotOf a.ticket i), key := a.pos, src := d.node a.pos, tris := a.vecs s i }

/-- Charge the bytes of a message of records: each record to its slot's tenant, the rest to that of slot 0. -/
def chargeRecs (k : Nat) (recs : List (Nat × Nat)) (total : Nat) (s : State) : State :=
  match s.att? k with
  | none => s
  | some a =>
    let s := recs.foldl (fun s r => chargeAtt k (slotOf a.ticket r.1).ten .fab r.2 false s) s
    let sum := (recs.map (·.2)).foldl (· + ·) 0
    chargeAtt k (slotOf a.ticket 0).ten .fab (total - sum) false s

def framesBytes (fs : List Frame) : Nat := (fs.map Frame.size).foldl (· + ·) 0

/-! Audits (R308). -/

/-- Compare the local fold with the mirror's, count it, and go on or end the part. -/
def auditCompare (k : Nat) (theirs : Bytes) (s : State) : State :=
  match s.att? k with
  | none => s
  | some a =>
    let s := s.bump COL_AUDIT_CNT.COUNT
    let rs := recordsOf (tktNslot a.ticket) theirs
    let same := decide (rs.length = tktNslot a.ticket) && (List.range (tktNslot a.ticket)).all fun i =>
      let r := rs.getD i {}
      r.slot == i && !r.poison && r.tris == (a.vecs s i).map fun t => if r.bf16 then { t with o := t.o.map fun w => widen (roundBf16 w) } else t
    if same then s.setAtt k ({ a with audited := true, auditIn := none }.drainAll (modeFast s a.part))
    else
      let s := s.bump COL_AUDIT_MISMATCH_CNT.COUNT
      let s := match sigOf? s a.sig a.part with
        | some d => (s.wr COL_AUDIT_LOG.NODE 0 (d.node a.pos)).wr COL_AUDIT_LOG.MIRROR 0 (d.mirror a.pos)
        | none => s
      failPart k ST.AUDIT_MISMATCH s

/-- An audit is not awaited: it is counted as skipped, and the children are merged. -/
def auditSkip (k : Nat) (s : State) : State :=
  match s.att? k with
  | none => s
  | some a => (s.bump COL_AUDIT_SKIP_CNT.COUNT).setAtt k ({ a with audited := true }.drainAll (modeFast s a.part))

/-- Note that the local fold of an audited attempt is complete. -/
def settleLocal (k : Nat) (s : State) : State :=
  match s.att? k with
  | none => s
  | some a =>
    if ¬ a.audit ∨ a.audited ∨ a.local?.isSome ∨ ¬ a.localFolded then s
    else
      let s := s.setAtt k { a with local? := some s.now }
      let mirror := (sigOf? s a.sig a.part).map fun d => d.mirror a.pos
      if a.standin ∨ mirror = some 0xFFFF ∨ mirror = none ∨ markedDown s (mirror.getD 0) then auditSkip k s
      else match a.auditIn with
        | some b => auditCompare k b s
        | none => s

/-! Folio partials (R299–R301). -/

/-- Whether a local record may be accepted now: its turn, or room in the partition's store. -/
def emitRoom (s : State) (a : Att) (e : Emit) : Bool :=
  (modeFast s a.part && !attAudits a) ||
  (List.range e.tris.length).all (fun v =>
    let f := KMap.get {} a.folds (vecKey e.slot (e.first + v))
    f.placed && f.left.head? == some e.key) ||
  decide (storeUsed s a.part + e.tris.length * (8 + 4 * e.d) ≤ quota s a.part)

/-- Accept the emit at the front of a block's port. -/
def acceptEmit (e : Emit) (s : State) : State :=
  let gone := { s with cmp.emits := s.cmp.emits.erase e }
  match s.att? e.att with
  | none => gone.bump COL_STALE_CNT.COUNT
  | some a =>
    if a.attempt ≠ e.attempt ∨ a.step ≠ e.step then gone.bump COL_STALE_CNT.COUNT
    else if a.seen.contains (e.slot, 0, e.key, e.first) then gone.bump COL_DUP_CNT.COUNT
    else if e.poison then failPart e.att ST.POISON (poisonUse .chip 12 0 (some a.part) ST.POISON 0 gone)
    else if ¬ emitRoom s a e then s
    else
      let a := { a with seen := (e.slot, 0, e.key, e.first) :: a.seen }
      let fast := modeFast s a.part
      let a := (List.range e.tris.length).foldl (fun a v =>
        let t := e.tris.getD v {}
        a.offer fast e.slot (e.first + v) e.key (if e.bf16 then { t with o := t.o.map widen } else t)) a
      settleLocal e.att (gone.setAtt e.att a)

/-- R163, R299, R300: the collator accepts the oldest folio partial at a block's emit port. -/
def execFolioPartialAccept (block : Nat) (s : State) : Host.Outcome State Fault Refusal :=
  match s.cmp.emits.find? fun e => e.block == block with
  | none => .next s
  | some e => .next (acceptEmit e s)

/-! PARTIAL messages (R299–R301). -/

/-- The attempt whose child a PARTIAL's sender is. -/
def parentAtt (s : State) (part ream child : Nat) : Option (Nat × Att) :=
  List.find? (fun e : Nat × Att => e.2.part == part && e.2.ream == ream && e.2.mirrorOf.isNone &&
    (match sigOf? s e.2.sig part with
     | some d => (d.kids e.2.pos).contains child
     | none => false)) s.col.atts

/-- Whether a child's record is folded at once, and takes no room in the store. -/
def foldsAtOnce (fast : Bool) (a : Att) (child : Nat) (r : PartRec) : Bool :=
  (List.range r.tris.length).all fun v =>
    let f := KMap.get {} a.folds (vecKey r.slot (r.first + v))
    (a.drainVec fast { f with buf := f.buf ++ [(childCode child, r.tris.getD v {})] }).buf.all fun x => x.1 != childCode child

/-- Whether the store has room for a child's record beside one record of each block that the partition owns (R300). -/
def recRoom (s : State) (a : Att) (child : Nat) (r : PartRec) : Bool :=
  foldsAtOnce (modeFast s a.part) a child r ||
  decide (storeUsed s a.part + ownBlocks s a.part * largestRecord + r.tris.length * (8 + 4 * r.d) ≤ quota s a.part)

/-- Whether a record names vectors that its slot has. -/
def recFits (a : Att) (r : PartRec) : Bool :=
  let x := slotOf a.ticket r.slot
  decide (r.slot < tktNslot a.ticket ∧ r.first + r.tris.length ≤ x.nq * x.nh)

/-- Take the records of a child into the fold, one by one; a poisoned one ends the part, and so does one that finds no
room. A record is known by its ORDER_KEY (R299), which is the child's index in the descriptor. -/
def takeRecords (k child : Nat) : List PartRec → State → State
  | [], s => s
  | r :: rest, s =>
    match s.att? k with
    | none => s
    | some a =>
      if r.ream ≠ a.ream ∨ r.part ≠ a.part ∨ r.attempt ≠ a.attempt ∨ r.step ≠ a.step ∨ r.level ≠ 1 ∨ ¬ recFits a r then
        takeRecords k child rest (s.bump COL_STALE_CNT.COUNT)
      else if a.seen.contains (r.slot, 1, r.key, r.first) then takeRecords k child rest (s.bump COL_DUP_CNT.COUNT)
      else if r.poison then endServe k ST.POISON child (poisonUse .chip 12 0 (some a.part) ST.POISON 0 s)
      else if ¬ recRoom s a child r then failPart k ST.COL_STORE_FULL s
      else
        let fast := modeFast s a.part
        let a := { a with seen := (r.slot, 1, r.key, r.first) :: a.seen }
        takeRecords k child rest (s.setAtt k ((List.range r.tris.length).foldl (fun a v =>
          a.offer fast r.slot (r.first + v) (childCode child) (r.tris.getD v {})) a))

/-- The records of a message that no attempt of this node takes (R299). DESIGN CHOICE: a message of which no whole record can
be read counts as one. -/
def staleRecords (fs : List Frame) : Nat :=
  match joinMsg fs with
  | some b => max 1 (recordsOf (b.length / 32 + 1) b).length
  | none => 1

/-- R299–R301: a PARTIAL message of a child has arrived. -/
def execPartialMsg (s : State) : Host.Outcome State Fault Refusal :=
  match takeMsg (fun f => f.ty == 2 && !(wAudit f.arg)) s with
  | none => .next s
  | some (fs, s) =>
    let f := fs.headD {}
    if partFenced s f.part then .next s
    else match parentAtt s f.part f.msg (wPos f.arg), joinMsg fs with
      | some (k, a), some b =>
        let recs := recordsOf (tktNslot a.ticket) b
        let s := chargeRecs k (recs.map fun r => (r.slot, r.bytes.length)) (framesBytes fs) s
        .next (takeRecords k (wPos f.arg) recs s)
      | _, _ => .next (s.bumpBy COL_STALE_CNT.COUNT 0 (staleRecords fs))

/-! Node partials and results. -/

/-- The part of an attempt is over with ST_OK. -/
def attDone (k : Nat) (s : State) : State := endAttempt k ST.OK true s

/-- R298: a node sends its node partials once its fold is complete and its appends have completed. A mirror's audit
computation returns its fold to the member instead (R308). -/
def execNodePartialSend (part ream pos : Nat) (audit : Bool) (s : State) : Host.Outcome State Fault Refusal :=
  let k := attKey part ream pos audit
  match s.att? k with
  | none => .next s
  | some a =>
    match sigOf? s a.sig part with
    | none => .next s
    | some d =>
      if ¬ a.folded ∨ ¬ a.appended ∨ (a.audit ∧ ¬ a.audited) ∨ (a.pos = 0 ∧ a.mirrorOf.isNone) then .next s
      else
        let recs := (List.range (tktNslot a.ticket)).map fun i => (nodeRec s d a i).bytes
        let dst := match a.mirrorOf with
          | some n => n
          | none => d.server (d.parent pos)
        let f : Frame := { ty := 2, tc := 2, part := part, dst := dst, msg := ream,
                           arg := sigWord false false d.epoch a.mirrorOf.isSome false pos }
        let b := recs.flatten
        let (ok, s) := sendMsg f b s
        if ¬ ok ∧ a.mirrorOf.isNone then .next (failPart k ST.FAB_NO_ROUTE s)
        else
          let s := chargeRecs k (((List.range recs.length).zip recs).map fun r => (r.1, r.2.length)) (framesBytes (msgFrames f b)) s
          .next (attDone k s)

/-- A quotient of two FP32 words, rounded once (R168). -/
def fdiv (a b : Nat) : Nat :=
  match of32 a, of32 b with
  | .fin n m e, .fin n' m' e' =>
    if m' = 0 then (if m = 0 then fp32.qnan else (if n ≠ n' then minusInf32 else 0x7F800000))
    else if m = 0 then (if n ≠ n' then 0x80000000 else 0)
    else
      let q := rn32 (ratio m m' (e - e'))
      if n ≠ n' then q + 0x80000000 else q
  | .fin n _ _, .inf n' => if n ≠ n' then 0x80000000 else 0
  | .inf n, .fin n' _ _ => if n ≠ n' then minusInf32 else 0x7F800000
  | _, _ => fp32.qnan

/-- How R168 finishes a vector. -/
inductive FinKind where
  | normal | empty | nonfinite
  deriving DecidableEq, Repr

def finKind (t : Tri) : FinKind :=
  if (of32 t.m).isNan ∨ t.m = 0x7F800000 ∨ (of32 t.l).isNan ∨ t.l = 0x7F800000 then .nonfinite
  else if (of32 t.l).isZero then .empty else .normal

def finish (t : Tri) : List Nat :=
  match finKind t with
  | .empty => t.o.map fun _ => 0
  | _ => t.o.map fun w => fdiv w t.l

/-- The record of a finished slot (Table 7.7). -/
def finishedRec (form i : Nat) (ts : List Tri) : Bytes :=
  let mask (k : FinKind) : Nat := maskOf fun v => decide (v < ts.length) && finKind (ts.getD v {}) == k
  natLe 2 i ++ natLe 1 ts.length ++ natLe 1 (if form = 3 then 1 else 0) ++ natLe 4 0 ++ natLe 8 (mask .empty) ++
  natLe 8 (mask .nonfinite) ++ natLe 8 0 ++
  ts.flatMap fun t => (finish t).flatMap fun w => if form = 2 then natLe 2 (roundBf16 w) else natLe 4 w

def resultRecs (s : State) (d : SigDesc) (a : Att) : List Bytes :=
  (List.range (tktNslot a.ticket)).map fun i =>
    if 2 ≤ tktForm a.ticket then finishedRec (tktForm a.ticket) i (a.vecs s i) else (nodeRec s d a i).bytes

def chargeHostRecs (k : Nat) (recs : List (Nat × Nat)) (s : State) : State :=
  match s.att? k with
  | none => s
  | some a => recs.foldl (fun s r => chargeAtt k (slotOf a.ticket r.1).ten .hst r.2 false s) s

/-- The descriptor of a host job. -/
def jobDesc (s : State) (part ring seq : Nat) : Bytes :=
  ((s.job.jobs.find? fun j => j.part == part && j.ring == ring && j.seq == seq).map (·.desc)).getD []

/-- R168–R170, R322, R327: the root delivers the result, and the ream completes. A host that does not take the result leaves the
descriptor with ST_HST_DMA (R321). -/
def execRootFinish (part : Nat) (ream : RootEnd) (s : State) : Host.Outcome State Fault Refusal :=
  let k := attKey part ream.id 0 false
  match s.att? k, s.ream? part ream.id with
  | some a, some r =>
    match sigOf? s a.sig part with
    | none => .next s
    | some d =>
      if ¬ a.folded ∨ ¬ a.appended ∨ (a.audit ∧ ¬ a.audited) then .next s
      else
        let recs := resultRecs s d a
        let b := recs.flatten
        let tagged := ((List.range recs.length).zip recs).map fun x => (x.1, x.2.length)
        match r.src with
        | .host p q n =>
          let s := chargeColophon k r.src r.ticket s
          if leAt (jobDesc s p q n) 0x20 4 < b.length then
            .next (completeReam r ST.HST_RES_SHORT 0xFFFF b.length (attDone k s))
          else if ¬ ream.taken then .next (completeReam r ST.HST_DMA 0xFFFF 0 (attDone k (s.bump HST_DMA_ERR_CNT.COUNT)))
          else
            .next (completeReam r ST.OK 0xFFFF b.length (hostOut p q n b (attDone k (chargeHostRecs k tagged s))))
        | .reg =>
          let f : Frame := { ty := 3, tc := 2, part := part, dst := tktReqNode r.ticket, msg := ream.id }
          let (ok, s) := sendMsg f b s
          if ¬ ok then .next (failPart k ST.FAB_NO_ROUTE s)
          else
            let s := chargeColophon k r.src r.ticket (chargeRecs k tagged (framesBytes (msgFrames f b)) s)
            .next (completeReam r ST.OK 0xFFFF b.length (attDone k s))
  | _, _ => .next s

/-- R308: the mirror's fold has arrived. -/
def execAuditPartial (s : State) : Host.Outcome State Fault Refusal :=
  match takeMsg (fun f => f.ty == 2 && wAudit f.arg) s with
  | none => .next s
  | some (fs, s) =>
    let f := fs.headD {}
    if partFenced s f.part then .next s
    else
      let k := attKey f.part f.msg (wPos f.arg) false
      match s.att? k, joinMsg fs with
      | some a, some b =>
        let r := (recordsOf 1 b).headD {}
        let recs := recordsOf (tktNslot a.ticket) b
        let s := chargeRecs k (recs.map fun r => (r.slot, r.bytes.length)) (framesBytes fs) s
        let a := (s.att? k).getD a
        if ¬ a.audit ∨ a.audited ∨ r.attempt ≠ a.attempt ∨ r.step ≠ a.step then .next (s.bump COL_STALE_CNT.COUNT)
        else if a.local?.isSome then .next (auditCompare k b s)
        else .next (s.setAtt k { a with auditIn := some b })
      | _, _ => .next (s.bump COL_STALE_CNT.COUNT)

/-- R308: the mirror's fold is not awaited past AUDIT_TMO_US. -/
def execAuditTimeout (part ream pos : Nat) (s : State) : Host.Outcome State Fault Refusal :=
  let k := attKey part ream pos false
  match s.att? k with
  | none => .next s
  | some a =>
    match a.local? with
    | some t => if a.audit ∧ ¬ a.audited ∧ t + s.rd COL_CFG2.AUDIT_TMO_US * 1000 < s.now then .next (auditSkip k s) else .next s
    | none => .next s

end Sys2Proof.Machine
end

