-- ==== Sys2Proof/Machine/Gutter.lean ====
section
/-!
DEFINITION. The gutter network and its arbiters (chapter 1, R13–R24).
-/
namespace Sys2Proof.Machine

/-- Requesters of an arbiter (Table 1.5). -/
def arbReqs (arb : Nat) : Nat :=
  if arb < 64 then 16 else if arb < 72 then 64 else if arb < 136 then 4 else if arb < 140 then 20
  else if arb < 148 then 8 else 0

/-- The handler at the arbiter's level for a requester's starvation (R19), and the unit of the record. -/
def arbHandler (arb req : Nat) : Handler :=
  if arb < 64 then .cell arb req else if arb < 72 then .platen (arb - 64) req
  else if arb < 136 then .block (arb - 72) else if arb < 140 then .region (arb - 136) else .chip

/-- The UNIT of a record of a handler's unit (Table 16.2). -/
def handlerUnit : Handler → Nat
  | .cell b c => 16 * b + c
  | .platen k u => 64 * k + u
  | .block g => g
  | .region r => r
  | .chip => 0

def State.arb (s : State) (a : Nat) : Arb := KMap.get {} s.gut.arbs a
def State.setArb (s : State) (a : Nat) (x : Arb) : State := { s with gut.arbs := KMap.put {} s.gut.arbs a x }

/-- Copy every shadow priority of an arbiter to its active set and clear COMMIT_PEND (R21). -/
def applyCommit (a : Nat) (s : State) : State :=
  if s.flag GUT_ARB_STS.COMMIT_PEND a then
    let s := (List.range (arbReqs a)).foldl (fun s r => s.wr (GUT_ARB_ACT.ACT r) a (s.rd (GUT_ARB_PRIO.PRIO r) a)) s
    s.wr GUT_ARB_STS.COMMIT_PEND a 0
  else s

/-- How far requester `r` stands behind the one of its priority that was granted last (R17). -/
def rrDist (n last1 r : Nat) : Nat := (r + n - last1 % n) % n

/-- The requester granted among `reqs`: the highest active priority, round-robin among equals (R17). -/
def arbPick (s : State) (a : Nat) (reqs : List Nat) : Option Nat :=
  let n := arbReqs a
  let x := s.arb a
  let key r := let p := s.rd (GUT_ARB_ACT.ACT r) a
               p * 128 + (127 - rrDist n (KMap.get 0 x.last p) r)
  (reqs.filter (· < n)).foldl (fun best r =>
    match best with
    | none => some r
    | some b => if key b < key r then some r else some b) none

/-- The cycles that count for a requester (R19): those since the last phase in which it requested and was not granted. The
owner was granted in all of them. -/
def waitRise (x : Arb) (cycles : Nat) (r : Nat × Nat) : Nat := if x.owner = some r.1 then 0 else min r.2 (min cycles 16)

/-- One arbitration, `cycles` after the last phase, among requesters with the cycles that each has requested of them (R17, R19): the counters of
those not granted rise, the granted one's clears. -/
def arbitrate (a cycles : Nat) (reqs : List (Nat × Nat)) (s : State) : State :=
  let s := applyCommit a s
  let reqs := reqs.filter fun r : Nat × Nat => decide (r.1 < arbReqs a)
  let x := s.arb a
  let waits := reqs.foldl (fun w r => KMap.put 0 w r.1 (min 65535 (KMap.get 0 w r.1 + waitRise x cycles r))) x.waits
  match arbPick s a (reqs.map (·.1)) with
  | none => s.setArb a { x with owner := none, first := false, asking := [], waits := waits }
  | some g =>
    let p := s.rd (GUT_ARB_ACT.ACT g) a
    s.setArb a { owner := some g, first := true, since := s.now, asking := (reqs.map (·.1)).filter (· ≠ g)
                 waits := KMap.put 0 waits g 0, last := KMap.put 0 x.last p (g + 1) }

/-- A transfer joins its pair's line, and the line moves while credits last (R13, R14). -/
def gutMove (src dst : Nat) : Nat → GutLink → State → State
  | 0, l, s => { s with gut.links := KMap.put {} s.gut.links (8 * src + dst) l }
  | n + 1, l, s =>
    match l.credits, l.waiting with
    | c + 1, x :: r => gutMove src dst n { credits := c, waiting := r } (s.emit (.gutter src dst x))
    | _, _ => { s with gut.links := KMap.put {} s.gut.links (8 * src + dst) l }

def gutterTransfer (src dst xfer credits : Nat) (s : State) : State :=
  let l := KMap.get {} s.gut.links (8 * src + dst)
  let l := { credits := l.credits + credits, waiting := l.waiting ++ [xfer] : GutLink }
  gutMove src dst l.waiting.length l s

/-- R13, R14: a sender sends only against credit, in order, and never drops. -/
def execGutterTransfer (src dst xfer credits : Nat) (s : State) : Host.Outcome State Fault Refusal :=
  .next (gutterTransfer src dst xfer credits s)

/-- The target serves a request, or refuses it and counts it in GUT_XPART_CNT (R15). -/
def serveGutter (part : Nat) (target : GutTarget) (write : Bool) (s : State) : State :=
  let ok := gutAllows s part target
  let s := if ok then s else s.bump GUT_XPART_CNT.COUNT
  s.emit (.gutAnswer part write ok)

/-- R15, R206: a gutter request passes its partition's bucket, or waits for tokens. -/
def execGutterRequest (part bytes : Nat) (target : GutTarget) (write : Bool) (s : State) : Host.Outcome State Fault Refusal :=
  match regulate true part bytes s with
  | some s => .next (serveGutter part target write s)
  | none => .next (regWait (.gut part bytes target write) s)

/-- R16, R17, R19: one arbitration phase; a tenure is at most 16 cycles, so no more lie between two phases. -/
def execArbitrationPhase (arb cycles : Nat) (reqs : List (Nat × Nat)) (s : State) : Host.Outcome State Fault Refusal :=
  .next (arbitrate arb cycles reqs s)

/-- Whether the owner's tenure is in its first cycle (R18): every arbiter cycle is shorter than 1 ns, so it is over when the
time has moved on. -/
def firstCycle (s : State) (x : Arb) : Bool := x.first && x.since == s.now

/-- R18: the owner withdraws in the first cycle of its tenure; the dead cycle arbitrates again among the others. -/
def execWithdraw (arb : Nat) (reqs : List Nat) (s : State) : Host.Outcome State Fault Refusal :=
  let x := s.arb arb
  match x.owner with
  | none => .next s
  | some o => if firstCycle s x then .next (arbitrate arb 1 ((reqs.filter (· ≠ o)).map fun r => (r, 1)) s) else .next s

/-- R19, R22: in a cycle in which a requester waits with its counter above STARVE_THR, its STARVE bit is set and one
informational record is raised at the arbiter's level. -/
def execStarvationReport (arb req : Nat) (s : State) : Host.Outcome State Fault Refusal :=
  let thr := s.rd GUT_ARB_CFG.STARVE_THR arb
  let f := GUT_ARB_STARVE_STS.STARVE (req / 32)
  if req < arbReqs arb ∧ req ∈ (s.arb arb).asking ∧ thr ≠ 0 ∧ thr < KMap.get 0 (s.arb arb).waits req ∧ ¬ bitOf (s.rd f arb) (req % 32) then
    let h := arbHandler arb req
    .next (report h { sev := 0, subsys := 14, cause := Config.causeCode 1, unit := (handlerUnit h) } (s.raise f arb (2 ^ (req % 32))))
  else .next s

/-- R21: a write of 1 to COMMIT marks the selected arbiter's shadow priorities for transfer. -/
def execArbCommit (who : Requester) (value : Nat) (s : State) : Host.Outcome State Fault Refusal :=
  if bitOf value 0 then .next (s.wr GUT_ARB_STS.COMMIT_PEND (s.rd GUT_ARB_SEL.ARB_ID (whoIx who)) 1) else .next s

/-- R21: before its next phase, or its first after wake, the arbiter applies a pending commit. -/
def execArbCommitApply (arb : Nat) (s : State) : Host.Outcome State Fault Refusal := .next (applyCommit arb s)

end Sys2Proof.Machine
end

