-- ==== Sys2Proof/Machine/Stack.lean ====
section
/-!
DEFINITION. The stack controllers (chapter 3, R55–R76): reads, writes, patrol scrub, remap, bulk fill, zeroizing
scrub and refresh.
-/
namespace Sys2Proof.Machine

/-- Fence a stack after the fourth replay has failed (R65); its held states are dropped (Table 4.8). -/
def stackFence (k part off : Nat) (s : State) : State :=
  let s := dropStack k ((s.wr STK_STS.FENCED k 1).bump (STK_CNT.COUNT 5) k)
  report (.region (k / 2)) { sev := 2, subsys := 3, cause := Config.causeCode 2, unit := k, action := 3, addr := off }
    (stkLog k 3 part off s)

/-- Carry out an access whose transfers passed and whose rows are free: each sector of a read is delivered or poison by its
own outcome (R61). -/
def serveAccess (x : Access) (s : State) : State :=
  if x.write then (writeSectors x.part (x.data.length / 32 + 2) x.off x.data x.poison s).emit (.writeDone x.part x.off ST.OK)
  else
    let (l, s) := readCover x.part x.off x.len s
    match joinMarks x.off x.len l with
    | some d => s.emit (.readData x.part x.off d false ST.OK)
    | none => s.emit (.readSectors x.part x.off l ST.POISON)

def refuseAccess (x : Access) (status : Nat) (s : State) : State :=
  if x.write then s.emit (.writeDone x.part x.off status) else s.emit (.readData x.part x.off [] true status)

def accessLen (x : Access) : Nat := if x.write then x.data.length else x.len

/-- Whether any row of an access is held. -/
def accessHeld (s : State) (x : Access) : Bool := rangeHeld s x.off (accessLen x)

/-- Whether two accesses of one source touch a sector in common: they keep their order (R64). -/
def sameSector (x y : Access) : Bool :=
  x.part == y.part && decide (x.off / 32 * 32 < y.off + accessLen y ∧ y.off / 32 * 32 < x.off + accessLen x)

/-- Whether an access has its turn behind those of `ahead` that wait. -/
def accessWaitsFor (s : State) (ahead : List Access) (x : Access) : Bool := accessHeld s x || ahead.any (sameSector x)

/-- Those that may go and those that still wait, each in order; a fenced stack keeps none waiting (R65). -/
def accessTurns (s : State) (l : List Access) : List Access × List Access :=
  l.foldl (fun (r : List Access × List Access) x =>
    if !stackShut s (offStack x.off) && accessWaitsFor s r.2 x then (r.1, r.2 ++ [x]) else (r.1 ++ [x], r.2)) ([], [])

/-- Serve, in order, the accesses of a stack that no longer wait, or refuse them at a fenced stack. -/
def serveWaiting (k : Nat) (s : State) : State :=
  let u := s.stkUnit k
  let (go, stay) := accessTurns s u.waiting
  go.foldl (fun s x => if stackShut s k then refuseAccess x ST.STK_FENCED s else serveAccess x s)
    (s.setStk k { u with waiting := stay })

/-- The replays of a transfer: counted, and a corrected record where they helped (R65, Table 16.1). -/
def replayed (k part off crcFails : Nat) (s : State) : State :=
  let s := s.bumpBy (STK_CNT.COUNT 4) k (min crcFails 4)
  if crcFails = 0 ∨ 5 ≤ crcFails then s else corrected (.region (k / 2)) 3 k (some part) 1 off s

/-- An access reaches its stack controller: refused by range, fence or owner (`accessRefusal`), replayed on link CRC failures
(R65), made to wait on a held row or behind an earlier access of its source to the same sector (R64), or carried out. -/
def access (x : Access) (s : State) : State :=
  let k := offStack x.off
  match accessRefusal s x.part x.off (accessLen x) with
  | some st => refuseAccess x st (countRefusal x.off st s)
  | none =>
    let s := replayed k x.part x.off x.crcFails s
    if 5 ≤ x.crcFails then refuseAccess x ST.STK_FENCED (serveWaiting k (stackFence k x.part x.off s))
    else if accessWaitsFor s (s.stkUnit k).waiting x then
      let u := s.stkUnit k
      s.setStk k { u with waiting := u.waiting ++ [{ x with since := s.now }] }
    else serveAccess x s

/-- An access passes its partition's stack bucket, or waits for tokens (R206). -/
def regAccess (x : Access) (s : State) : State :=
  match regulate false x.part (accessLen x) s with
  | some s => access x s
  | none => regWait (.stk x) s

def execStackRead (part off len crcFails : Nat) (upsets : SectorUpsets) (s : State) : Host.Outcome State Fault Refusal :=
  .next (regAccess { part := part, off := off, len := len, crcFails := crcFails } (upsetAll upsets s))

def execStackWrite (part off : Nat) (data : Bytes) (poison : Bool) (crcFails : Nat) (s : State) :
    Host.Outcome State Fault Refusal :=
  .next (regAccess { write := true, part := part, off := off, data := data, poison := poison, crcFails := crcFails } s)

/-- Rows of one stack. -/
def stackRows : Nat := 100663296

/-- The offset of sector `sct` (0–31) of row `ix` of stack `k`: layer, pseudo-channel, bank group, bank and row,
in that order of significance (the spec gives the order no meaning). -/
def patrolOff (k ix sct : Nat) : Nat :=
  let row := ix % 8192
  let bank := ix / 8192 % 4
  let bg := ix / 32768 % 4
  let pc := ix / 131072 % 64
  let layer := ix / 8388608
  layer * 2 ^ 36 + k * 2 ^ 33 + (pc / 8) * 2 ^ 30 + row * 2 ^ 17 + bank * 2 ^ 15 + (bg ^^^ bits row 0 2) * 2 ^ 13 +
    (sct / 2) * 2 ^ 9 + (pc % 8) * 2 ^ 6 + (sct % 2) * 32

/-- Patrol of one sector (R69): a corrected sector is written back, an uncorrectable one is written back with its poison bit
set and logged. One never written has an outcome that is open (R63), and what is written back is what it held. -/
def patrolSector (k off : Nat) (s : State) : State :=
  let loc := locOf s off
  let old := (cells s loc).getD (natLe 32 (Config.freeCell loc))
  let (r, s) := readAt s loc
  let s := countRead k 2 0 off r s
  match r with
  | .fixed d => putSector loc d false s
  | .bad => putSector loc old true s
  | .data _ => s
  | .poison => s

/-- R69, R70: the next row of the pass, unless patrol is off, suspended, its row is held, or its stack is fenced and refuses
the access (R65). -/
def execPatrolScrubRow (stack : Nat) (upsets : SectorUpsets) (s : State) : Host.Outcome State Fault Refusal :=
  let s := upsetAll upsets s
  let ix := s.rd STK_PATROL_POS.ROW_INDEX stack
  let s := if s.flag STK_PATROL_CFG.EN stack then claimWait (.patrolScrubRow stack []) (patrolOff stack ix 0) s else s
  if s.flag STK_PATROL_CFG.EN stack ∧ ¬ stackShut s stack ∧ ¬ rowHeld s (patrolOff stack ix 0) then
    let s := (List.range 32).foldl (fun s j => patrolSector stack (patrolOff stack ix j) s) s
    if ix + 1 < stackRows then .next (s.wr STK_PATROL_POS.ROW_INDEX stack (ix + 1))
    else .next ((s.wr STK_PATROL_POS.ROW_INDEX stack 0).addWrap STK_PATROL_PASS.COUNT stack 1)
  else .next s

/-- R67: install an entry unless the controller copies, the entry is in use, or its row is redirected already. -/
def execRemapInstall (stack value : Nat) (s : State) : Host.Outcome State Fault Refusal :=
  let n := s.rd STK_REMAP_SEL.INDEX stack
  let word := bits value 4 27 * 16
  if s.flag STK_REMAP_STS.BUSY stack ∨ 12 ≤ bits value 27 4 then .next (s.wr STK_REMAP_STS.BUSY_ERR stack 1)
  else if s.flag STK_REMAP_ENT.VALID (32 * stack + n) then .next (s.wr STK_REMAP_STS.INUSE stack 1)
  else if (List.range 32).any fun m => s.flag STK_REMAP_ENT.VALID (32 * stack + m) ∧ remapEntry s stack m = word then
    .next (s.wr STK_REMAP_STS.DUP stack 1)
  else
    let u := s.stkUnit stack
    .next ((s.wr STK_REMAP_STS.BUSY stack 1).setStk stack { u with remap := some (n, word) })

/-- The offset of sector `sct` of the row that a remap entry word names. -/
def remapOff (k word sct : Nat) : Nat :=
  let pc := bits word 21 6
  let row := bits word 4 13
  bits word 27 4 * 2 ^ 36 + k * 2 ^ 33 + (pc / 8) * 2 ^ 30 + row * 2 ^ 17 + bits word 17 2 * 2 ^ 15 +
    (bits word 19 2 ^^^ bits row 0 2) * 2 ^ 13 + (sct / 2) * 2 ^ 9 + (pc % 8) * 2 ^ 6 + (sct % 2) * 32

/-- Copy one sector, corrected and counted as any read is, to its spare; an uncorrectable or poisoned one goes with poison
(R61, R67). The spare of a sector never written is as one never written. -/
def copySector (k off dst : Nat) (s : State) : State :=
  match cells s off with
  | none => dropSector dst s
  | some d =>
    let (r, s) := readAt s off
    let s := countRead k 1 0 off r s
    match r.bytes with
    | some d' => putSector dst d' false s
    | none => putSector dst d true s

def setRemap (k n word valid : Nat) (s : State) : State :=
  let i := 32 * k + n
  let s := ((((s.wr STK_REMAP_ENT.LAYER i (bits word 27 4)).wr STK_REMAP_ENT.PC i (bits word 21 6)).wr
    STK_REMAP_ENT.BG i (bits word 19 2)).wr STK_REMAP_ENT.BANK i (bits word 17 2)).wr STK_REMAP_ENT.ROW i (bits word 4 13)
  let s := s.wr STK_REMAP_ENT.VALID i valid
  s.wr STK_REMAP_STS.USED k ((List.range 32).countP fun m => s.flag STK_REMAP_ENT.VALID (32 * k + m))

/-- R67: the row switches to its spare, BUSY clears and the waiting accesses proceed. A copy of a claimed row waits for the end
of the claim (R89). -/
def execRemapCopyDone (stack : Nat) (s : State) : Host.Outcome State Fault Refusal :=
  let u := s.stkUnit stack
  match u.remap with
  | none => .next s
  | some (n, word) =>
    if claimHeld s (remapOff stack word 0) then .next (claimWait (.remapCopyDone stack) (remapOff stack word 0) s)
    else
      let s := (List.range 32).foldl (fun s j => copySector stack (remapOff stack word j) (spareLoc stack n (32 * j)) s) s
      let s := (setRemap stack n word 1 s).wr STK_REMAP_STS.BUSY stack 0
      .next (serveWaiting stack (s.setStk stack { (s.stkUnit stack) with remap := none }))

/-- R68: remove the selected entry at once, without copying back. -/
def execRemapRemove (stack value : Nat) (s : State) : Host.Outcome State Fault Refusal :=
  if s.flag STK_REMAP_STS.BUSY stack then .next (s.wr STK_REMAP_STS.BUSY_ERR stack 1)
  else .next (setRemap stack (s.rd STK_REMAP_SEL.INDEX stack) (bits value 4 27 * 16) 0 s)

/-- The end of a stack command (R74). -/
def stkComplete (k status : Nat) (s : State) : State :=
  let u := s.stkUnit k
  let s := ((s.wr STK_CMD_STS.BUSY k 0).wr STK_CMD_STS.DONE k 1).wr STK_CMD_STS.STATUS k status
  signalNode (s.setStk k { u with cmd := none })

/-- Whether a range touches a sector of a stack: some 1 GiB range of it is the stack's. -/
def rangeTouches (k start stop : Nat) : Bool :=
  (List.range 768).any fun g =>
    decide (g / 8 % 8 = k ∧ start < (g + 1) * 2 ^ 30 ∧ g * 2 ^ 30 < stop)

/-- R71: the FILL command, refused while busy, checked for its range, and started. -/
def execFill (stack : Nat) (s : State) : Host.Outcome State Fault Refusal :=
  let start := s.rd STK_CMD_START.OFFSET stack * 4096
  let stop := s.rd STK_CMD_END.OFFSET stack * 4096
  if s.flag STK_CMD_STS.BUSY stack then .next (s.wr STK_CMD_STS.ERR stack 1)
  else if ¬ (start < stop ∧ stop ≤ upperSize) then .next (stkComplete stack ST.STK_CMD_RANGE s)
  else if ¬ rangeTouches stack start stop then .next (stkComplete stack ST.OK s)
  else
    let pat := (List.range 8).flatMap fun j => natLe 4 (s.rd (STK_CMD_PAT.PAT j) stack)
    let u := s.stkUnit stack
    .next (((s.wr STK_CMD_STS.BUSY stack 1).wr STK_CMD_PROG.PROGRESS stack start).setStk stack
      { u with cmd := some (.fill start stop pat) })

/-- R73: the ZEROIZE command, refused while busy, checked for owners, and started. -/
def execZeroize (stack setMask : Nat) (s : State) : Host.Outcome State Fault Refusal :=
  let sets := bitList setMask 8
  if s.flag STK_CMD_STS.BUSY stack then .next (s.wr STK_CMD_STS.ERR stack 1)
  else if sets.isEmpty then .next (stkComplete stack ST.OK s)
  else if sets.any fun j => (setOwner s stack j).isSome then .next (stkComplete stack ST.STK_CMD_OWNED s)
  else
    let u := s.stkUnit stack
    .next (((s.wr STK_CMD_STS.BUSY stack 1).wr STK_CMD_PROG.PROGRESS stack 0).setStk stack
      { u with cmd := some (.zero (setMask % 256)) })

/-- Where the part of a row that lies in a range from `start` begins: a row is the granules, 512 bytes apart, of one 8 KiB
block (Table 3.2). A fill writes rows in the order of these offsets (the spec gives none). -/
def rowStart (start off : Nat) : Nat := max start (off / 8192 * 8192) + 64 * bits off 6 3

/-- The offset below which every sector is written once the rows that begin below `reached` are (STK_CMD_PROG). -/
def fillProgress (start stop reached : Nat) : Nat :=
  let b := max start (reached / 8192 * 8192)
  if reached ≤ start then start
  else min stop (if reached ≤ b + 448 then b + (reached - b + 63) / 64 * 64 else (reached / 8192 + 1) * 8192)

/-- The rows that a fill or zeroize meets held, each by its offset: claimed (R89) or being copied (R67). -/
def heldRows (s : State) (k : Nat) : List Nat :=
  ((s.stk.claims.flatMap fun c => c.2).filter fun a => decide (offStack a = k)) ++
  (match (s.stkUnit k).remap with
   | some (_, w) => [remapOff k w 0]
   | none => [])

/-- Fill, row by row, the rows of a range that begin below `reached` (R71, R72). -/
def fillRows (k start stop : Nat) (pat : Bytes) (reached : Nat) (s : State) : State :=
  (List.range ((min stop ((reached / 8192 + 1) * 8192) - start) / 32)).foldl (fun s i =>
    let off := start + 32 * i
    if offStack off = k ∧ rowStart start off < reached then putSector (locOf s off) pat false (galInvalidate off s) else s) s

/-- Rows of one channel set of a stack. -/
def setRows : Nat := 12 * 8 * 16 * 8192

/-- The offset of sector `sct` of row `ix` of a channel set. -/
def setRowOff (k set ix sct : Nat) : Nat :=
  let row := ix % 8192
  let bb := ix / 8192 % 16
  let pc := ix / 131072 % 8
  let layer := ix / 1048576
  layer * 2 ^ 36 + k * 2 ^ 33 + set * 2 ^ 30 + row * 2 ^ 17 + bb * 2 ^ 13 + (sct / 2) * 2 ^ 9 + pc * 2 ^ 6 +
    (sct % 2) * 32

/-- Zero the first `n` rows of the named sets, in parallel, the original rows and the spares that serve them (R73). -/
def zeroRows (k mask n : Nat) (s : State) : State :=
  (bitList mask 8).foldl (fun s set =>
    (List.range n).foldl (fun s ix =>
      (List.range 32).foldl (fun s j =>
        let off := setRowOff k set ix j
        let zero : Bytes := List.replicate 32 0
        let s := putSector off zero false (galInvalidate off s)
        match remapOf s off with
        | some e => putSector (spareLoc k e (32 * j)) zero false s
        | none => s) s) s) s

/-- The index of a row of its channel set, in the order of `setRowOff`. -/
def setRowIx (a : Nat) : Nat := bits a 36 4 * 1048576 + bits a 6 3 * 131072 + bits a 13 4 * 8192 + bits a 17 13

/-- Whether a command is to write the row of an offset of its stack. -/
def cmdCovers (c : StkCmd) (a : Nat) : Bool :=
  match c with
  | .fill start stop _ => decide (start < (a / 8192 + 1) * 8192 ∧ a / 8192 * 8192 < stop)
  | .zero mask => bitOf mask (offSet a)

/-- The progress at which a command comes to the row of an offset. -/
def cmdMeets (c : StkCmd) (a : Nat) : Nat :=
  match c with
  | .fill start _ _ => rowStart start a
  | .zero _ => setRowIx a

/-- The progress at which a command has written its last row. -/
def stkEnd : StkCmd → Nat
  | .fill _ stop _ => stop
  | .zero _ => setRows

/-- How far a command has come when it stands at `reached`: it waits at the first row that is held (R67, R89). -/
def stkReach (s : State) (k reached : Nat) (c : StkCmd) : Nat :=
  ((heldRows s k).filter (cmdCovers c)).foldl (fun r a => min r (cmdMeets c a)) (min (stkEnd c) reached)

/-- Carry a running command up to a progress (R72, R73, R74): the rows that begin below it. -/
def stkRunTo (k reached : Nat) (c : StkCmd) (s : State) : State :=
  match c with
  | .fill start stop pat =>
    (fillRows k start stop pat reached s).wr STK_CMD_PROG.PROGRESS k (fillProgress start stop reached)
  | .zero mask => (zeroRows k mask reached s).wr STK_CMD_PROG.PROGRESS k (reached * popCount mask 8)

/-- R74: ABORT stops the running command after the row in progress, the one that begins below `reached`. -/
def execStkCmdAbort (stack reached : Nat) (s : State) : Host.Outcome State Fault Refusal :=
  match (s.stkUnit stack).cmd with
  | none => .next s
  | some c => .next (stkComplete stack ST.STK_CMD_ABORTED (stkRunTo stack (stkReach s stack reached c) c s))

/-- R74: FILL or ZEROIZE while busy, or an OP that is not defined, is ignored and sets ERR. -/
def execStkCmdInvalid (stack op : Nat) (s : State) : Host.Outcome State Fault Refusal :=
  if op = 15 then .next s
  else if op = 1 ∨ op = 2 then
    if s.flag STK_CMD_STS.BUSY stack then .next (s.wr STK_CMD_STS.ERR stack 1) else .next s
  else .next (s.wr STK_CMD_STS.ERR stack 1)

/-- R74: the running command has written its last row; while a row of it is held it cannot have. -/
def execStkCmdComplete (stack : Nat) (s : State) : Host.Outcome State Fault Refusal :=
  match (s.stkUnit stack).cmd with
  | none => .next s
  | some c =>
    if stkReach s stack (stkEnd c) c = stkEnd c then .next (stkComplete stack ST.OK (stkRunTo stack (stkEnd c) c s))
    else .next (((heldRows s stack).filter fun a => cmdCovers c a).foldl (fun s a => claimWait (.stkCmdComplete stack) a s) s)

/-- R75: a refresh falls due. An idle bank is refreshed; a busy one postpones up to POSTPONE_MAX refreshes, and
then the refresh preempts a platen operation. DESIGN CHOICE: with it the bank owes no refresh, as once it is idle. -/
def execRefresh (stack bank busy : Nat) (s : State) : Host.Outcome State Fault Refusal :=
  let u := s.stkUnit stack
  let n := KMap.get 0 u.postponed bank
  if busy = 0 then .next (s.setStk stack { u with postponed := KMap.put 0 u.postponed bank 0 })
  else if n < s.rd STK_REF_CFG.POSTPONE_MAX stack then
    .next (s.setStk stack { u with postponed := KMap.put 0 u.postponed bank (n + 1) })
  else
    let s := if busy = 1 then s.bump (STK_CNT.COUNT 6) stack else s
    .next (s.setStk stack { u with postponed := KMap.put 0 u.postponed bank 0 })

end Sys2Proof.Machine
end

