-- ==== Sys2Proof/Machine/Codec.lean ====
section
/-!
DEFINITION. The mover codecs at work (R48, R54): a closed folio is encoded into a new extent, and the folio unit
switches to it.
-/
namespace Sys2Proof.Machine

/-- The conversation record that a folio's header names: one whose run holds the folio, if there is one, for a handle may stand in
both roles. -/
def convOfHdr (s : State) (h : Hdr) : Option (Nat × ConvRec) :=
  let es := List.filter (fun e : Nat × ConvRec => decide (e.2.conv = h.conv ∧ e.2.part = h.part ∧ e.2.state ≠ 0)) s.flo.convs
  (es.find? fun e => (s.run (runIx s e.1 h.layer h.group)).vec.any fun x : Nat × Nat => x.2 == h.folio).or es.head?

/-- The run index of a folio's cipher tweak, from its header. DESIGN CHOICE: where no conversation record matches it, NHG is taken
as 1; the spec names no run index then. -/
def rixOfHdr (s : State) (h : Hdr) : Nat :=
  match convOfHdr s h with
  | some (_, r) => h.layer * r.nhg + h.group
  | none => h.layer + h.group

def pad32 (n : Nat) : Nat := (n + 31) / 32 * 32

/-- Stored body bytes of a folio: its solid payload, or KERN_LEN padded (R47, R178). -/
def storedBody (h : Hdr) : Nat := if h.kerned then pad32 h.kLen else h.blocks * 64

/-- The set of the tail of a folio's run. -/
def tailOfHdr (s : State) (h : Hdr) : Option Nat := (convOfHdr s h).bind fun e => tailSet s (runIx s e.1 h.layer h.group)

/-- Whether the header of a folio to encode agrees with the descriptor that its conversation record names (R49, condition 1). -/
def encodable (s : State) (h : Hdr) (hdr : Bytes) : Bool :=
  match convOfHdr s h with
  | some (_, r) => kernHeaderOk h hdr r.desc (descOf s r.desc).geo false
  | none => true

/-- Encode a folio into a new extent (R54): ST_OK, and the extent and its chunks, or none where it stays solid; or the status of a
codec that finds it malformed (R49). -/
def encodeFolio (f : Nat) (s : State) : Nat × Option (Nat × Nat) × State :=
  let e := s.folio f
  let base := chunkOff e.chunk
  let h := hdrAt s base
  if ¬ encodable s h (peek s base 64) then (ST.KERN_FORMAT_SVC, none, kernFault .chip 64 ST.KERN_FORMAT_SVC f 0 4 s)
  else
    let rix := rixOfHdr s h
    let (d, s) := folioRead e.part h rix base bodyOff (h.blocks * 64) s
    let (mx, s) := folioRead e.part h rix base 0x1C0 2048 s
    match d, mx with
    | some solid, some maxAbs =>
      let s := s.addWrap KRN_ENC_IN_BYTES.BYTES 0 solid.length
      let k := kernEncode solid
      if h.blocks * 64 < k.len + 64 then
        (ST.OK, none, (s.addWrap KRN_ENC_OUT_BYTES.BYTES 0 solid.length).bump KRN_ENC_SOLID_CNT.COUNT)
      else
        let n := chunksFor (pad32 k.len)
        match allocForFolio e.part n (tailOfHdr s h) s with
        | (none, s) => (ST.OK, none, s.bump KRN_ENC_DEFER_CNT.COUNT)
        | (some ch, s) =>
          let h' := { h with kerned := true, kLen := k.len }
          let img := h'.toBytes ++ k.index ++ k.flags ++ maxAbs ++ k.body ++ List.replicate (pad32 k.len - k.len) 0
          let (ok, s) := folioWrite h' rix (chunkOff ch) 0 img (s.addWrap KRN_ENC_OUT_BYTES.BYTES 0 k.len)
          if ok then (ST.OK, some (ch, n), s) else (ST.KEY_RETIRED, none, freeExtent ch (s.bump (RSP_CNT.COUNT 3)))
    | _, _ => (ST.OK, none, poisonUse .chip 5 0 (some e.part) ST.POISON base s)

/-- Switch a folio to its kerned extent in one step; the solid one is freed with its count (R54, R181). -/
def switchExtent (f ch n : Nat) (s : State) : State :=
  let e := s.folio f
  if e.state ≠ 1 then freeExtent ch s
  else
    let s := s.setFolio f { e with chunk := ch, nchunk := n, kerned := true, outst := 0, oldChunk := e.chunk, oldN := e.nchunk, oldOutst := e.outst }
    if e.outst = 0 then folioFree f s else s

/-- R54: a mover codec takes the oldest closed folio that waits, once its requests need not wait (R67, R89, R206). -/
def execKernEncode (s : State) : Host.Outcome State Fault Refusal :=
  match s.flo.toEncode with
  | [] => .next s
  | f :: rest =>
    let e := s.folio f
    let base := chunkOff e.chunk
    if e.state ≠ 1 ∨ e.kerned ∨ ¬ e.closed then .next { s with flo.toEncode := rest }
    else match reqWaits .kernEncode e.part base (bodyOff + (hdrAt s base).blocks * 64) s with
      | some s => .next s
      | none =>
        match encodeFolio f (unstall .kernEncode { s with flo.toEncode := rest }) with
        | (_, some x, s) => .next { s with flo.encodes := KMap.insert s.flo.encodes f x }
        | (_, none, s) => .next s

/-- R54: the encode of a folio is complete. -/
def execKernEncodeDone (folio : Nat) (s : State) : Host.Outcome State Fault Refusal :=
  match KMap.find? s.flo.encodes folio with
  | some (ch, n) => .next (switchExtent folio ch n { s with flo.encodes := KMap.erase s.flo.encodes folio })
  | none => .next s

end Sys2Proof.Machine
end

