-- ==== Sys2Proof/Machine/TierOps.lean ====
section
/-!
DEFINITION. Operations of the tier mover (R215–R233): pools and their chunks, runs, frames and ownership records,
the start, the end and the cancellation of a spill, and the fetch queue. The byte at device address D behind tier port n lies
at location 2^48 + n × 2^46 + D.
-/
namespace Sys2Proof.Machine

/-! Runs (R217). -/
def hgsOf (r : ConvRec) : List Nat := (List.range (r.hgHi - r.hgLo)).map (r.hgLo + ·)
/-- TIER_STATE of a run. -/
def tierState (s : State) (c l : Nat) : Nat := (s.run (runIx s c l (s.conv c).hgLo)).tier
def setTier (c l v : Nat) (s : State) : State :=
  (hgsOf (s.conv c)).foldl (fun s h =>
    let i := runIx s c l h
    s.setRunRec i { s.run i with tier := v }) s
/-- The folios of a run: head group, entry, folio, in the order of R219. -/
def runFolios (s : State) (c l : Nat) : List (Nat × Nat × Nat) :=
  (hgsOf (s.conv c)).flatMap fun h => List.map (fun e : Nat × Nat => (h, e.1, e.2)) (s.run (runIx s c l h)).vec

/-! Pools (R215, R216), in chunks of 4 KiB. -/
def poolOn (s : State) (p : Nat) : Bool := s.flag (TIER_POOL_CFG.EN p)
def poolShared (s : State) (p : Nat) : Bool := s.flag (TIER_POOL_CFG.SHARED p)
def poolBase (s : State) (p : Nat) : Nat := s.rd (TIER_POOL_CFG.BASE p) * 2 ^ 18
def poolSize (s : State) (p : Nat) : Nat := s.rd (TIER_POOL_CFG.SIZE_GIB p) * 2 ^ 18
def bayOf (s : State) (p : Nat) : Nat := s.rd (TIER_POOL_CFG.BAY p)
def bayCount (s : State) (p : Nat) : Nat := s.rd (TIER_POOL_CFG.NBAY_M1 p) + 1
def baySize (s : State) (p : Nat) : Nat := poolSize s p / bayCount s p
def recLog2 (s : State) (p : Nat) : Nat := s.rd (TIER_POOL_CFG.REC_LOG2 p)

/-- The chunks that this node allocates from: past the bitmap of a private pool, or past the record table and the
bitmap of its own bay. -/
def poolChunks (s : State) (p : Nat) : Nat × Nat :=
  if poolShared s p then
    let lo := poolBase s p + bayOf s p * baySize s p
    (lo + ceilDiv (64 * 2 ^ recLog2 s p) 4096 + ceilDiv (baySize s p) 32768, lo + baySize s p)
  else (poolBase s p + ceilDiv (poolSize s p) 32768, poolBase s p + poolSize s p)

/-- The ports that serve a pool, ascending (R215). -/
def servingPorts (s : State) (p : Nat) : List Nat :=
  (List.range 4).filter fun n => s.flag (TIER_PORT_CFG.EN n) && s.rd (TIER_PORT_CFG.POOL n) == p

/-- Whether every serving port of a pool is up. -/
def poolUp (s : State) (p : Nat) : Bool :=
  (servingPorts s p).all fun n => s.flag (TIER_PORT_STS.UP n) && !(KMap.get {} s.key.ide (1 + n)).stop

/-- The pool in which a tier offset lies. -/
def poolOfOffset (s : State) (t : Nat) : Option Nat :=
  (List.range 4).find? fun p => poolOn s p && decide (poolBase s p * 4096 ≤ t ∧ t < (poolBase s p + poolSize s p) * 4096)

/-- The port and the device address that a tier offset of a pool goes to (R215). -/
def tierPlace (s : State) (p t : Nat) : Option (Nat × Nat) :=
  let ports := servingPorts s p
  let c := (t - poolBase s p * 4096) / 4096
  (ports[c % ports.length]?).map fun n => (n, c / ports.length * 4096 + t % 4096)

/-- Where the byte at a tier offset lies. One of no pool, or of a pool that no port serves, lies nowhere else. -/
def tierLoc (s : State) (t : Nat) : Nat :=
  match (poolOfOffset s t).bind fun p => tierPlace s p t with
  | some (n, d) => 2 ^ 48 + n * 2 ^ 46 + d
  | none => 2 ^ 49 + t

def tierKey (p c : Nat) : Nat := p * 2 ^ 36 + c
def tierUsed (s : State) (p : Nat) : List (Nat × Nat) :=
  List.filterMap (fun e : Nat × Nat => if e.1 / 2 ^ 36 = p then some (e.1 % 2 ^ 36, e.2) else none) s.tier.used

/-- The first run of `n` free chunks that starts in `[lo, hi)` and ends by `hi`. -/
def tierFit (us : List (Nat × Nat)) (n lo hi : Nat) : Option Nat :=
  (([lo] ++ us.map fun u => u.1 + u.2).filter fun c =>
    decide (lo ≤ c ∧ c + n ≤ hi) && us.all fun u => decide (u.1 + u.2 ≤ c ∨ c + n ≤ u.1)).foldl (fun b c =>
      match b with
      | none => some c
      | some x => some (min x c)) none

/-- Take `n` chunks of a pool, next-fit. -/
def tierAlloc (p n : Nat) (s : State) : Option (Nat × State) :=
  let us := tierUsed s p
  let (lo, hi) := poolChunks s p
  let cur := max lo (KMap.get 0 s.tier.cursors p)
  ((tierFit us n cur hi).orElse fun _ => tierFit us n lo hi).map fun c =>
    (c, { s with tier.used := KMap.insert s.tier.used (tierKey p c) n, tier.cursors := KMap.put 0 s.tier.cursors p (c + n) })

def tierRelease (p c : Nat) (s : State) : State := { s with tier.used := KMap.erase s.tier.used (tierKey p c) }

/-! Bytes of a pool. -/

/-- Write sectors of a pool, one in poison where `none`. -/
def tierPut (t : Nat) (ds : List (Option Bytes)) (s : State) : State :=
  ((List.range ds.length).zip ds).foldl (fun s x =>
    putSector (tierLoc s (t + 32 * x.1)) (x.2.getD []) x.2.isNone s) s

def tierPutBytes (t : Nat) (b : Bytes) (s : State) : State :=
  tierPut t ((List.range (ceilDiv b.length 32)).map fun i => some (slice b (32 * i) 32)) s

/-- A sector of a pool as a read delivers it: none is CXL poison. -/
def tierSector (s : State) (t : Nat) : Option Bytes :=
  match cells s (tierLoc s t) with
  | some d => if poisonBit s (tierLoc s t) then none else some d
  | none => none

def tierPeek (s : State) (t n : Nat) : Bytes := (List.range n).map fun i => (KMap.find? s.mem (tierLoc s (t + i))).getD 0

/-- Sectors of the stored form of a folio in the upper case (R219): header and body. -/
def storedSectors (h : Hdr) : Nat := ceilDiv (2496 + storedBody h) 32

/-- Copy a folio's stored form to a pool, unchanged (R52), for its partition; a poisoned sector stays poisoned (Table 16.6). -/
def copyToTier (base t n : Nat) (part : Nat) (s : State) : State :=
  let (ds, s) := readCover part base (32 * n) (chargeBucket false part (32 * n) s)
  ds.zipIdx.foldl (fun s d =>
    let s := tierPut (t + 32 * d.2) [d.1] s
    if d.1.isNone then poisonUse .chip 9 0 (some part) ST.POISON (t + 32 * d.2) s else s) s

/-- Copy back, sector by sector. -/
def copyFromTier (base t n part : Nat) (s : State) : State :=
  (List.range n).foldl (fun s i =>
    let s := galInvalidate (base + 32 * i) s
    match tierSector s (t + 32 * i) with
    | some d => putSector (locOf s (base + 32 * i)) d false s
    | none => putSector (locOf s (base + 32 * i)) [] true s) (chargeBucket false part (32 * n) s)

/-! Records (Table 10.4, R225–R229). -/
def recKey (p n : Nat) : Nat := p * 2 ^ 24 + n
def State.own (s : State) (p n : Nat) : OwnRec := KMap.get {} s.tier.records (recKey p n)
def State.setOwn (s : State) (p n : Nat) (r : OwnRec) : State := { s with tier.records := KMap.put {} s.tier.records (recKey p n) r }

def leaseNs (s : State) : Nat := s.rd TIER_LEASE_CFG.LEASE_US * 1000
def guardNs (s : State) : Nat := s.rd TIER_LEASE_CFG.GUARD_US * 1000
def fabTime (s : State) : Nat := s.rd TIME_NOW.NS
def timeInBound (s : State) : Bool := !(s.flag TIME_STS.OOB) || s.flag TIME_CFG.GM

def leaseOf (s : State) (c l : Nat) : Option LeaseEnt := s.tier.leases.find? fun e => e.conv == c && e.layer == l
def dropLease (e : LeaseEnt) (s : State) : State := { s with tier.leases := s.tier.leases.erase e }

/-- Whether the node may act as owner of a run (R229). -/
def ownsRun (s : State) (e : LeaseEnt) : Bool :=
  let r := s.own e.pool e.record
  r.state == 1 && r.owner == nodeId s && r.epoch == e.epoch && decide (fabTime s + guardNs s < r.lease) && timeInBound s

/-- A free record of the node's bay (R216): the lowest from 1 on. -/
def freeRecord (s : State) (p : Nat) : Option Nat :=
  let b := bayOf s p * 2 ^ recLog2 s p
  ((List.range (s.tier.records.length + 1)).map (b + 1 + ·)).find? fun n =>
    decide (n < b + 2 ^ recLog2 s p) && (s.own p n).state == 0 && decide ((s.own p n).epoch < 0xFFFFFFFF)

/-- Free the extents that a fetch of a run has taken. -/
def undoPlaces (c l : Nat) (s : State) : State :=
  (s.tier.fetchq.filter fun e => e.conv == c && e.layer == l).foldl (fun s e => e.places.foldl (fun s y => freeExtent y.2.1 s) s) s

/-- What a spill has made in the upper case goes. -/
def undoEncs (x : SpillSt) (s : State) : State := x.encs.foldl (fun s y => freeExtent y.2.1 s) s

/-- The node drops a run that it no longer owns (R227): what a spill or a fetch of it has taken here goes, its vector entries are
cleared, and its folios freed as R181 frees them. -/
def dropRun (c l : Nat) (s : State) : State :=
  let s := undoPlaces c l s
  let s := match KMap.find? s.tier.spills (65536 * c + l) with
    | some x => undoEncs x { s with tier.spills := KMap.erase s.tier.spills (65536 * c + l) }
    | none => s
  let s := (runFolios s c l).foldl (fun s x => folioFree x.2.2 (dropRef x.2.2 s)) s
  let s := (hgsOf (s.conv c)).foldl (fun s h =>
    let i := runIx s c l h
    s.setRunRec i { s.run i with vec := [], tail := 0, tier := 0 }) s
  { s with tier.fetchq := s.tier.fetchq.filter fun e => !(e.conv == c && e.layer == l) }

/-- A compare that fails: ST_STALE_EPOCH, and the run it held is dropped (R227). -/
def casLost (held : Option LeaseEnt) (s : State) : State :=
  let s := s.bump (TIER_CNT.COUNT 6)
  match held with
  | some e => dropLease e (dropRun e.conv e.layer s)
  | none => s

/-- Whether a record stands as this node took it (R225, R229). -/
def recordHeld (s : State) (e : LeaseEnt) : Bool :=
  let r := s.own e.pool e.record
  r.state == 1 && r.owner == nodeId s && r.epoch == e.epoch

/-! Frames (Table 10.3). -/
def frameEntry (s : State) (c l : Nat) (x : Nat × Nat × Nat) (t n : Nat) : Bytes :=
  let e := s.folio x.2.2
  let tail := (s.run (runIx s c l x.1)).tail == x.2.2
  natLe 4 (entPos s c x.2.1) ++ natLe 2 x.1 ++ natLe 1 n ++ natLe 1 (4 * b2n tail + 2 * b2n e.closed + b2n e.kerned) ++ natLe 8 t

def frameBytes (s : State) (c l : Nat) (ents : List Bytes) : Bytes :=
  let r := s.conv c
  natLe 2 1 ++ natLe 1 r.part ++ natLe 1 r.desc ++ natLe 4 ents.length ++ natLe 6 r.conv ++ natLe 2 l ++ natLe 2 r.hgLo ++
  natLe 2 r.hgHi ++ natLe 2 r.keySlot ++ natLe 1 (b2n r.sealed) ++ natLe 41 0 ++ ents.flatten

structure RunFrame where
  part   : Nat := 0
  desc   : Nat := 0
  nent   : Nat := 0
  conv   : Nat := 0
  layer  : Nat := 0
  slot   : Nat := 0
  sealed : Bool := false
  deriving DecidableEq, Repr

def frameAt (s : State) (t : Nat) : RunFrame :=
  let b := tierPeek s t 64
  { part := leAt b 2 1 % 32, desc := leAt b 3 1, nent := leAt b 4 4, conv := leAt b 8 6, layer := leAt b 0xE 2,
    slot := leAt b 0x14 2, sealed := bitOf (leAt b 0x16 1) 0 }

/-- Entries of a frame: POS_BASE, head group, chunks, flags, tier offset. -/
def frameEnts (s : State) (t : Nat) : List (Nat × Nat × Nat × Nat × Nat) :=
  (List.range (frameAt s t).nent).map fun i =>
    let b := tierPeek s (t + 0x40 + 16 * i) 16
    (leAt b 0 4, leAt b 4 2, leAt b 6 1, leAt b 7 1, leAt b 8 8)

/-- Return the chunks of a frame and its entries to the bitmap (Table 10.5). -/
def freeFrame (p t : Nat) (s : State) : State :=
  tierRelease p (t / 4096) ((frameEnts s t).foldl (fun s e => tierRelease p (e.2.2.2.2 / 4096) s) s)

/-! Spills (R218–R220). -/
def spillKey (c l : Nat) : Nat := 65536 * c + l

/-- Return what a spill took and leave the run resident and unchanged. A record that another node has changed meanwhile is not
written: the compare fails (R225, R227). DESIGN CHOICE: the run, which is resident, stays then too. -/
def undoSpill (x : SpillSt) (s : State) : State :=
  let s := undoEncs x (x.places.foldl (fun s y => tierRelease x.pool y.2.1 s) s)
  let s := match leaseOf s x.conv x.layer with
    | none => s
    | some e =>
      if recordHeld s e then
        dropLease e ((tierRelease x.pool x.frame s).setOwn x.pool x.record { s.own x.pool x.record with state := 0 })
      else dropLease e (casLost none s)
  setTier x.conv x.layer 0 { s with tier.spills := KMap.erase s.tier.spills (spillKey x.conv x.layer) }

/-- End a tier command. -/
def tierDone (st : Nat) (s : State) : State :=
  { ((s.wr TIER_CMD_STS.BUSY 0 0).wr TIER_CMD_STS.DONE 0 1).wr TIER_CMD_STS.STATUS 0 st with tier.cmd := none }

/-- A dispatch, an append or a fetch reaches a run being spilled, and cancels the spill (R220). -/
def spillCancel (c l : Nat) (s : State) : State :=
  match KMap.find? s.tier.spills (spillKey c l) with
  | some x =>
    let s := (undoSpill x s).bump (TIER_CNT.COUNT 2)
    if x.byCmd then tierDone ST.TIER_BUSY s else s
  | none => s

/-- Whether a run may be spilled (R218). -/
def spillable (s : State) (c l : Nat) : Bool :=
  (s.conv c).state == 1 && tierState s c l == 0 && !(runFolios s c l).isEmpty &&
  (runFolios s c l).all (fun x => (s.folio x.2.2).outst == 0 && (s.folio x.2.2).oldOutst == 0 && (s.folio x.2.2).state == 1) &&
  !(s.tier.fetchq.any fun e => e.conv == c && e.layer == l)

/-- The kerned form of a folio that a spill stores under policy 2, or the folio as it stands (R54, R219). -/
def spillForm (f : Nat) (x : SpillSt) (s : State) : Nat × Nat × SpillSt × State :=
  let e := s.folio f
  let base := chunkOff e.chunk
  if (descOf s (hdrAt s base).desc).policy = 2 ∧ e.closed ∧ ¬ e.sealed ∧ ¬ e.kerned then
    match encodeFolio f s with
    | (st, some y, s) => (st, chunkOff y.1, { x with encs := x.encs ++ [(f, y.1, y.2)] }, s)
    | (st, none, s) => (st, base, x, s)
  else (ST.OK, base, x, s)

/-- Place the folios of a run in its pool, one by one: a status, ST_TIER_BUSY where the pool has no chunks. -/
def placeFolios (p part : Nat) : List (Nat × Nat × Nat) → SpillSt → State → Nat × SpillSt × State
  | [], x, s => (ST.OK, x, s)
  | (_, _, f) :: rest, x, s =>
    let (st, base, x, s) := spillForm f x s
    if st ≠ ST.OK then (st, x, s)
    else
      let h := hdrAt s base
      let n := ceilDiv (2496 + storedBody h) 4096
      match tierAlloc p n s with
      | none => (ST.TIER_BUSY, x, s)
      | some (ch, s) =>
        placeFolios p part rest { x with places := x.places ++ [(f, ch, n)] } (copyToTier base (ch * 4096) (storedSectors h) part s)

/-- The ranges of the upper case that a spill of a run reads. -/
def runRanges (s : State) (c l : Nat) : List (Nat × Nat) :=
  (runFolios s c l).map fun x =>
    let base := chunkOff (s.folio x.2.2).chunk
    (base, 2496 + storedBody (hdrAt s base))

/-- A run frame, with the records taken for it: the spill as it then stands, or none where no chunks, record or room in the lease
list is left (R219, step 3). -/
def spillRecord (fs : List (Nat × Nat × Nat)) (x : SpillSt) (s : State) : Option (SpillSt × State) :=
  let r := s.conv x.conv
  let ents := (fs.zip x.places).map fun y => frameEntry s x.conv x.layer y.1 (y.2.2.1 * 4096) y.2.2.2
  let b := frameBytes s x.conv x.layer ents
  match freeRecord s x.pool, tierAlloc x.pool (ceilDiv b.length 4096) s with
  | some n, some (ch, s) =>
    if 65536 ≤ s.tier.leases.length then none
    else
      let o : OwnRec := { state := 1, home := bayOf s x.pool, owner := nodeId s, succ := 0xFFFF, epoch := (s.own x.pool n).epoch + 1,
                          lease := fabTime s + leaseNs s, frame := ch * 4096, conv := r.conv, layer := x.layer, part := r.part }
      let s := (tierPutBytes (ch * 4096) b s).setOwn x.pool n o
      some ({ x with record := n, frame := ch },
        { s with tier.leases := s.tier.leases ++ [{ pool := x.pool, record := n, conv := x.conv, layer := x.layer, epoch := o.epoch, lease := o.lease }] })
  | _, _ => none

/-- Start the spill of a run (R219, steps 1 to 3): ST_OK, or the status that ends it before it is under way, which is ST_TIER_BUSY
where it finds no pool, chunks, record or room. -/
def spillBegin (c l : Nat) (byCmd : Bool) (s : State) : Nat × State :=
  let r := s.conv c
  let p := s.rd (TIER_PART_POOL.POOL r.part)
  if ¬ s.flag (TIER_PART_POOL.EN r.part) ∨ ¬ poolOn s p ∨ ¬ poolUp s p then (ST.TIER_BUSY, s.bump (TIER_CNT.COUNT 5))
  else match reqsRefusal s r.part (runRanges s c l) with
    | some st => (st, s)
    | none =>
      let fs := runFolios s c l
      let (st, x, s1) := placeFolios p r.part fs { conv := c, layer := l, pool := p, byCmd := byCmd } (setTier c l 1 s)
      let full := st == ST.TIER_BUSY
      if st ≠ ST.OK then (st, (if full then (undoSpill x s1).bump (TIER_CNT.COUNT 5) else undoSpill x s1))
      else if ¬ poolShared s1 p then (ST.OK, { s1 with tier.spills := KMap.insert s1.tier.spills (spillKey c l) x })
      else match spillRecord fs x s1 with
        | some (x, s) => (ST.OK, { s with tier.spills := KMap.insert s.tier.spills (spillKey c l) x })
        | none => (ST.TIER_BUSY, (undoSpill x s1).bump (TIER_CNT.COUNT 5))

/-- TIER_REF of a folio (Table 10.2). -/
def tierRefOf (pool record chunk : Nat) : Nat := pool * 2 ^ 62 + record * 2 ^ 34 + chunk

/-- Tier bytes of a conversation outside any ream, which its storage tenant's next type 2 record carries (Table 9.2, R210). -/
def chargeSpill (c part bytes : Nat) (s : State) : State :=
  let x := ((KMap.find? s.rea.spill c).getD {}).add .tier bytes (bytes * Item.tier.coef s false)
  chargePart part .tier bytes false { s with rea.spill := KMap.insert s.rea.spill c x }

/-- Every write of a spill has completed at the pool (R219, step 4). An entry whose folio was kerned on the way is switched to the
kerned extent first, and that extent is freed. -/
def spillEnd (x : SpillSt) (s : State) : State :=
  let part := (s.conv x.conv).part
  let s := x.places.foldl (fun s y =>
    let e := s.folio y.1
    let s := freeExtent e.chunk s
    let (e, s) := match x.encs.find? fun z => z.1 == y.1 with
      | some z => ({ e with chunk := z.2.1, nchunk := z.2.2, kerned := true }, freeExtent z.2.1 s)
      | none => (e, s)
    s.setFolio y.1 { e with state := 3, tierRef := tierRefOf x.pool x.record y.2.1 }) s
  let bytes := (x.places.map fun y => y.2.2 * 4096).foldl (· + ·) 0
  let s := chargeSpill x.conv part bytes s
  let s := (setTier x.conv x.layer 2 { s with tier.spills := KMap.erase s.tier.spills (spillKey x.conv x.layer),
                                              tier.starved := s.tier.starved.filter (· ≠ part) }).bump (TIER_CNT.COUNT 0)
  if x.byCmd then tierDone ST.OK s else s

/-! The fetch queue (R221). -/

/-- Queue a run once: a demand entry behind the demand entries, a scheduled one behind all. A scheduled entry that
becomes a demand entry takes the demand place. -/
def fetchAdd (e : FetchEnt) (s : State) : State :=
  let q := s.tier.fetchq
  let same (x : FetchEnt) : Bool := x.conv == e.conv && x.layer == e.layer
  match q.find? same with
  | some x =>
    if e.demand ∧ ¬ x.demand then
      let q := q.filter fun y => !same y
      { s with tier.fetchq := (q.filter (·.demand)) ++ [{ x with demand := true }] ++ q.filter fun y => !y.demand }
    else s
  | none =>
    { s with tier.fetchq := if e.demand then (q.filter (·.demand)) ++ [e] ++ q.filter fun y => !y.demand else q ++ [e] }

end Sys2Proof.Machine
end

