-- ==== Sys2Proof/Machine/Sched.lean ====
section
/-!
DEFINITION. The ream scheduler at work (R121, R176, R195–R207, R210): the slot pipeline, placement batches, gang
waits, admission into dispatch queues, dispatch, commits of weights, starvation, regulators, and overhead records.
-/
namespace Sys2Proof.Machine

/-! Weights (R204). -/

/-- The copy of every partition's shadow weights to the active set. -/
def applyReamCommit (s : State) : State :=
  if ¬ s.flag REAM_COMMIT_STS.PEND then s
  else
    let s := (List.range 32).foldl (fun s p =>
      (List.range 16).foldl (fun s c => s.wr (REAM_CW_ACT.W c) p (s.rd (REAM_CW.W c) p)) (s.wr REAM_PW_ACT.WEIGHT p (s.rd REAM_PW.WEIGHT p))) s
    s.wr REAM_COMMIT_STS.PEND 0 0

/-- R204: a write of 1 to COMMIT. -/
def execReamCommit (value : Nat) (s : State) : Host.Outcome State Fault Refusal :=
  .next (if bitOf value 0 then s.wr REAM_COMMIT_STS.PEND 0 1 else s)

/-! The slot pipeline (R195). -/

/-- Tag a ticket that arrives at the slot pipeline. -/
def slotTag (p n : Nat) (s : State) : Nat × State :=
  let f := max s.rea.v1 (KMap.get 0 s.rea.f1 p) + ceilDiv (n * 4096) (s.rd REAM_PW_ACT.WEIGHT p)
  (f, { s with rea.f1 := KMap.put 0 s.rea.f1 p f })

/-- Whether a partition has a batch that is served and not wholly pending (R203). -/
def batchHeld (s : State) (p : Nat) : Bool := s.col.atts.any fun e => e.2.part == p && (e.2.due || !e.2.parked.isEmpty)

/-- The queued ticket with the smallest tag, the lower partition on a tie. -/
def nextTicket (s : State) : Option (Nat × Att) :=
  (List.filter (fun e : Nat × Att => decide (e.2.next < tktNslot e.2.ticket) && !batchHeld s e.2.part) s.col.atts).foldl
    (fun (b : Option (Nat × Att)) e =>
      match b with
      | none => some e
      | some y => if e.2.tag < y.2.tag ∨ (e.2.tag = y.2.tag ∧ e.2.part < y.2.part) then some e else b) none

/-- R195: the slot pipeline serves one batch of the queued ticket with the smallest tag. -/
def execSlotPipelineServe (s : State) : Host.Outcome State Fault Refusal :=
  if ¬ nodeRuns s then .next s
  else
    let s := applyReamCommit s
    match nextTicket s with
    | none => .next s
    | some (k, a) => .next ({ s with rea.v1 := a.tag }.setAtt k { a with due := true })

/-! Placement batches (R196–R203). -/

/-- The conversation record that an attempt's slot names, in whichever state (R184). -/
def convRec? (s : State) (part role h : Nat) : Option (Nat × ConvRec) :=
  List.find? (fun e : Nat × ConvRec => decide (e.2.conv = h ∧ e.2.part = part ∧ e.2.role = role ∧ e.2.state ≠ 0)) s.flo.convs

def batchSlots (a : Att) : List Nat := (List.range (min 64 (tktNslot a.ticket - a.next))).map (a.next + ·)

/-- Whether an append of the attempt must be placed before a batch that reads its run (R159). -/
def batchAppends (a : Att) : Bool :=
  a.apps.any fun x => decide (x.state < 2) && (batchSlots a).any fun i =>
    let y := slotOf a.ticket x.slot
    let z := slotOf a.ticket i
    y.conv == z.conv && y.layer == z.layer && y.hg == z.hg

/-- The runs of a batch: conversation record, layer and slot. -/
def batchRuns (s : State) (a : Att) : List (Nat × Nat × Nat) :=
  (batchSlots a).filterMap fun i =>
    let x := slotOf a.ticket i
    (convRec? s a.part (attRole a) x.conv).map fun e => (e.1, x.layer, i)

/-- The runs of a batch that are not resident wait: a spill is cancelled, a spilled run is on demand (R220–R223). -/
def batchResident (k : Nat) (s : State) : Bool × State :=
  match s.att? k with
  | none => (false, s)
  | some a =>
    (batchRuns s a).foldl (fun (r : Bool × State) x =>
      let (ok, s) := r
      match tierState s x.1 x.2.1 with
      | 0 => (ok, s)
      | 1 => (ok, spillCancel x.1 x.2.1 s)
      | 2 => (false, fetchAdd { conv := x.1, layer := x.2.1, demand := true, att := k, tenant := (slotOf a.ticket x.2.2).ten } s)
      | _ => (false, s)) (true, s)

/-- Whether a run of a batch is being handed over, so that its fetch is refused (R230). -/
def batchHanding (s : State) (a : Att) : Bool := (batchRuns s a).any fun x => tierState s x.1 x.2.1 == 4

def waitLate (k : Nat) (s : State) : State :=
  match s.att? k with
  | some a => if a.lateAt.isNone then (s.setAtt k { a with lateAt := some s.now }).bump TIER_LATE_CNT.COUNT else s
  | none => s

/-- The unskipped folios of a batch's slot, and how many it skips. -/
def batchFolios (s : State) (a : Att) (i : Nat) : List FSlot × Nat :=
  let x := slotOf a.ticket i
  match convRec? s a.part (attRole a) x.conv with
  | none => ([], 0)
  | some (c, _) =>
    let m := (mask? s x.mask).getD {}
    let all := slotFolios s c x
    let keep := all.filter fun f => !skipFolio m a.ticket x f.posBase f.posEnd
    (keep, all.length - keep.length)

def batchPoison (s : State) (a : Att) (i : Nat) : Bool :=
  let x := slotOf a.ticket i
  match convRec? s a.part (attRole a) x.conv with
  | none => false
  | some (c, r) => convPoison s c || (decide (r.hgLo ≤ x.hg ∧ x.hg < r.hgHi) && runPoison s (runIx s c x.layer x.hg))

/-- The order codes of the children of an attempt's position. -/
def kidCodes (s : State) (a : Att) : List Nat :=
  if a.mirrorOf.isSome then []
  else match sigOf? s a.sig a.part with
    | some d => (d.kids a.pos).map childCode
    | none => []

/-- The batch is placed: folds know their folios, modes are chosen, compositions become pending or are parked. -/
def placeBatch (k : Nat) (a : Att) (s : State) : State :=
  let s0 := s
  let slots := batchSlots a
  let fs := slots.map fun i => (i, batchFolios s a i)
  let s := s.bumpBy (FLO_CNT.COUNT 4) 0 slots.length
  if slots.any fun i => batchPoison s a i then failAtt k ST.POISON s
  else if ¬ ownAnyBlock s a.part ∧ fs.any fun x => !x.2.1.isEmpty then failAtt k ST.REAM_NO_BLOCK s
  else
    let s := s.bumpBy REAM_SKIP_CNT.COUNT 0 ((fs.map fun x => x.2.2).foldl (· + ·) 0)
    let chosen := fs.flatMap fun x => x.2.1.map fun f => (x.1, f, modeOf s a (slotOf a.ticket x.1) f)
    let now := (chosen.filter fun x => x.2.2 ≠ .wait).map fun x => (x.1, { x.2.1 with press := decide (x.2.2 = .press) })
    let (comps, moved) := batchComps s k a now
    let n := comps.length
    let past := decide (a.pol.poolMax < n ∨ 8192 < n)
    if ¬ past ∧ poolRoom s a < n then s0
    else
      let s := ((s.bumpBy REAM_PRESS_CNT.COUNT 0 (now.filter fun x => x.2.press).length).bumpBy REAM_GALLEY_CNT.COUNT 0
        (now.filter fun x => !x.2.press).length).bumpBy REAM_XREGION_CNT.COUNT 0 moved
      let kids := kidCodes s a
      let fast := modeFast s a.part
      let a := fs.foldl (fun a x =>
        let y := slotOf a.ticket x.1
        a.know fast x.1 (y.nq * y.nh) (x.2.1.map (·.posBase) ++ kids)) a
      let a := { a with
        next := a.next + slots.length
        due := false
        parked := comps
        gangs := a.gangs ++ (chosen.filter fun x => x.2.2 = .wait).map fun x => { slot := x.1, fslot := x.2.1, since := s.now } }
      settleLocal k (unpark k (s.setAtt k a))

/-- R155, R159, R177, R196, R223: the served batch of an attempt is placed, once its appends are placed, its runs are
resident and the pool has room. -/
def execPlacementBatch (part ream pos : Nat) (audit : Bool) (s : State) : Host.Outcome State Fault Refusal :=
  let k := attKey part ream pos audit
  match s.att? k with
  | none => .next s
  | some a =>
    if ¬ nodeRuns s then .next s
    else if ¬ a.parked.isEmpty then .next (unpark k s)
    else if ¬ a.due ∨ batchAppends a then .next s
    else if batchHanding s a then .next (failPart k ST.TIER_NOT_OWNER s)
    else match batchResident k s with
      | (false, s) => .next (waitLate k s)
      | (true, s) => .next (placeBatch k ((s.att? k).getD a) s)

/-- R200: folios that found no free gang within GANG_WAIT go to galley mode. -/
def execGangWaitExpire (part ream pos : Nat) (audit : Bool) (s : State) : Host.Outcome State Fault Refusal :=
  let k := attKey part ream pos audit
  let s := gangsServe s
  match s.att? k with
  | none => .next s
  | some a =>
    match a.gangs.filter fun g => decide (g.since + a.pol.gangWait < s.now) with
    | [] => .next s
    | gs => .next (placeLate k false gs s)

/-! Dispatch queues (R201–R203). -/

/-- The pending composition of a block with the smallest tag. -/
def nextPending (s : State) (b : Nat) : Option PendComp :=
  (s.rea.pool.filter fun x => x.block = b).foldl (fun best x =>
    match best with
    | none => some x
    | some y =>
      if y.tag = x.tag then
        (if x.comp.part < y.comp.part ∨ (x.comp.part = y.comp.part ∧ x.cls < y.cls) then some x else best)
      else if tagLe x.tag y.tag then some x else best) none

/-- Whether a block accepts a composition of a partition now (R102, R116, R201, Table 18.4). -/
def blockAccepts (s : State) (b part : Nat) : Bool :=
  let x := s.blk b
  s.flag CMP_SEQ_CTL.RUN b && !blkFenced s b && s.rd CMP_SEQ_STS.STATE b != 5 && decide (x.queue.length < 4) && s.flag CMP_SEQ_STS.CLK_ON b &&
  decide (KMap.get 0 s.rea.gateAt b + 120 ≤ s.now ∨ x.cur.isSome ∨ ¬ x.queue.isEmpty) &&
  (nodeRuns s || s.rd PCM_STATE.NODE == 2) && !regionDozes s (b / 16) && s.rd PCM_CLK_STS.STEP != 13 && !(s.rd RAS_NODE_STS.STATE == 3) &&
  (match x.cur with
   | some c => c.part == part
   | none => true) && x.queue.all fun c => c.part == part

/-- R202, R203: the pending composition with the smallest tag enters a block's dispatch queue. -/
def execDispatchQueueAdmit (block : Nat) (s : State) : Host.Outcome State Fault Refusal :=
  let s := applyReamCommit s
  match nextPending s block with
  | none => .next s
  | some x =>
    if ¬ blockAccepts s block x.comp.part then .next s
    else
      let b := s.blk block
      .next (gateOpen block ({ s with rea.vb := KMap.put 0 s.rea.vb block x.tag, rea.pool := s.rea.pool.erase x }.setBlk block
        { b with queue := b.queue ++ [x.comp] }))

/-! Dispatch (R121, R155, R176, R220). -/

/-- The folio slot as it stands at dispatch: the extent and FILL of now. -/
def refreshSlot (s : State) (kv : Nat) (f : FSlot) : FSlot :=
  if f.folio = 0 then f
  else
    let e := s.folio f.folio
    let base := chunkOff e.chunk
    let h := hdrAt s base
    { f with base := base, kerned := e.kerned, posEnd := min (min (h.base + h.fill) (h.base + f.geo.span)) kv, slot := h.slot, gen := h.gen }

/-- The runs that a composition reads: conversation record and layer. -/
def compRun (s : State) (c : Comp) : Option (Nat × Nat × Nat) :=
  match s.att? c.att with
  | none => none
  | some a =>
    let x := slotOf a.ticket c.slot
    (convRec? s a.part (attRole a) x.conv).map fun e => (e.1, x.layer, runIx s e.1 x.layer x.hg)

/-- The composition at the front of a block's queue starts to run. -/
def startComp (b : Nat) (c : Comp) (rest : List Comp) (s : State) : State :=
  let kv := ((s.att? c.att).map fun a => (slotOf a.ticket c.slot).kvLen).getD 0
  let c := if c.append then c else { c with slots := c.slots.map (refreshSlot s kv) }
  let s := settleWarm b s
  let s := match compRun s c with
    | some (_, _, i) => if c.append then s else s.setRunRec i { s.run i with lastAccess := c.ream }
    | none => s
  let s := c.slots.foldl (fun s f => addOutst f s) s
  let x := s.blk b
  (s.setBlk b { x with cur := some c, queue := rest, pc := c.entry, start := s.now, cycles := 0, strict := false, repeats := 0,
                       emitted := [], press := [], waited := false }).wr CMP_SEQ_STS.STATE b 1

/-- R121, R176: a composition leaves its block's dispatch queue and starts at ENTRY. -/
def execDispatch (block : Nat) (s : State) : Host.Outcome State Fault Refusal :=
  let x := s.blk block
  match x.cur, x.queue with
  | none, c :: rest =>
    if blkFenced s block ∨ s.rd CMP_SEQ_STS.STATE block = 5 then .next s
    else
      let s := match compRun s c with
        | some (cv, l, _) => if tierState s cv l = 1 then spillCancel cv l s else s
        | none => s
      match compRun s c with
      | some (cv, l, _) =>
        if tierState s cv l = 4 then .next (failPart c.att ST.TIER_NOT_OWNER s)
        else if tierState s cv l ≠ 0 then
          .next (if tierState s cv l = 2 then fetchAdd { conv := cv, layer := l, demand := true, att := c.att, tenant := compTenant s c } s else s)
        else if c.slots.any (outstFull s) then
          .next (if x.waited then s else (s.setBlk block { s.blk block with waited := true }).bump (FLO_CNT.COUNT 5))
        else .next (startComp block c rest s)
      | none => .next (startComp block c rest s)
  | _, _ => .next s

/-! Starvation (R205). -/

/-- The age in ns of a partition's oldest pending composition or unserved batch. -/
def partAge (s : State) (p : Nat) : Nat :=
  let a := (s.rea.pool.filter fun x => x.comp.part = p).map fun x => s.now - x.since
  let b := (List.filter (fun e : Nat × Att => e.2.part == p && (decide (e.2.next < tktNslot e.2.ticket) || !e.2.parked.isEmpty)) s.col.atts).map
    fun e => s.now - e.2.start
  (a ++ b).foldl max 0

/-- R205: a partition's oldest work has passed STARVE_US. -/
def execPartitionStarvation (part : Nat) (s : State) : Host.Outcome State Fault Refusal :=
  let thr := s.rd REAM_CFG.STARVE_US
  if thr ≠ 0 ∧ part < 32 ∧ thr + 1 ≤ partAge s part / 1000 ∧ ¬ bitOf (s.rd REAM_STARVE_STS.STARVE) part then
    .next (report .chip { sev := 0, subsys := 8, cause := Config.causeCode 66, part := some part }
      (signalNode ((s.raise REAM_STARVE_STS.STARVE 0 (2 ^ part)).bump REAM_STARVE_CNT.COUNT)))
  else .next s

/-! Overhead records (R210). -/

/-- R210: every PERIOD_MS the node forms a type 3 record for each partition. -/
def execAcctPeriod (s : State) : Host.Outcome State Fault Refusal :=
  if s.now < s.rea.lastAcct + s.rd REAM_ACCT_CFG.PERIOD_MS * 1000000 then .next s
  else
    let s := (List.range 64).foldl (fun s b => settleWarm b s) { s with rea.lastAcct := s.now }
    .next ((List.range 32).foldl (fun s p =>
      let c := (KMap.find? s.rea.rest p).getD {}
      acctRecord { ty := 3, part := p } c { s with rea.rest := KMap.erase s.rea.rest p }) s)

end Sys2Proof.Machine
end

