-- ==== Sys2Proof/Machine/Append.lean ====
section
/-!
DEFINITION. Appends (R156–R161, R306, R307): stored-form rows, placement at the primary or stand-in with the rules of
R160, max-abs entries (R42), the closing of a full tail (R53), and the mirror commit.
-/
namespace Sys2Proof.Machine

/-! Rows (R156). -/

/-- Bytes of one token's record in stored form, and in an append format. -/
def Geo.rowLen (g : Geo) : Nat := g.keyRow + g.valRow
def appendRec (g : Geo) (afmt : Nat) : Nat := if afmt = 15 then g.rowLen else 4 * g.d

/-- Whether an append needs an append composition (R157). -/
def needsCompose (g : Geo) (x : Slot) : Bool := x.rot || !(x.afmt == 15 || (x.afmt == g.kf && x.afmt == g.vf))

/-- The record of token `t` in rows of stored form, with its four parts. -/
def rowParts (g : Geo) (rows : Bytes) (t : Nat) : Bytes × Bytes × Bytes × Bytes :=
  let b := slice rows (t * g.rowLen) g.rowLen
  let ke := elemBytes g.kf g.d
  let ks := g.d / 32 * scaleBytes g.kf
  let ve := elemBytes g.vf g.d
  (slice b 0 ke, slice b ke ks, slice b (ke + ks) ve, slice b (ke + ks + ve) (g.d / 32 * scaleBytes g.vf))

/-! Max-abs entries (R42). -/

/-- The entries that a row of a plane raises: block and value, ascending. -/
def rowMaxAbs (code d start : Nat) (elems scales : Bytes) : List (Nat × Nat) :=
  (List.range d).foldl (fun (l : List (Nat × Nat)) i =>
    let b := (start + i * elemBits code / 8) / 64
    let v := maxAbsOf code (elemAt code elems i) (scaleAt code scales (i / 32))
    match l.getLast? with
    | some (b', v') => if b' = b then l.dropLast ++ [(b, maxAbsMerge v' v)] else l ++ [(b, v)]
    | none => [(b, v)]) []

/-- Raise one entry of a folio's max-abs table; `false` where the key's generation is not open. -/
def raiseMaxAbs (h : Hdr) (rix base : Nat) (x : Nat × Nat) (s : State) : Bool × State :=
  let rel := 0x1C0 + 2 * x.1
  let (old, s) := folioRead h.part h rix base rel 2 s
  folioWrite h rix base rel (natLe 2 (maxAbsMerge (old.elim 0x7E00 leNat) x.2)) s

/-- Write pieces of a folio, each at a place of its extent, while every write is taken. -/
def writePieces (h : Hdr) (rix base : Nat) (ps : List (Nat × Bytes)) (s : State) : Bool × State :=
  ps.foldl (fun (r : Bool × State) p => if r.1 then folioWrite h rix base p.1 p.2 r.2 else r) (true, s)

/-- Write one token's row at index `j` of a folio, with its entries and the new FILL (R42). -/
def putRow (g : Geo) (h : Hdr) (rix base j : Nat) (row : Bytes × Bytes × Bytes × Bytes) (s : State) : Bool × State :=
  let (ke, ks, ve, vs) := row
  let (ok, s) := writePieces h rix base
    [(bodyOff + g.keyOff + j * ke.length, ke), (bodyOff + g.keyScaleOff + j * ks.length, ks),
     (bodyOff + g.valOff + j * ve.length, ve), (bodyOff + g.valScaleOff + j * vs.length, vs)] s
  if ¬ ok then (false, s)
  else
    let es := rowMaxAbs g.kf g.d (g.keyOff + j * ke.length) ke ks ++ rowMaxAbs g.vf g.d (g.valOff + j * ve.length) ve vs
    let s := es.foldl (fun s e => (raiseMaxAbs h rix base e s).2) s
    (true, writeHdr base { h with fill := h.fill + 1 } s)

/-! Placement (R160). -/

/-- Close a full folio; under policy 1 it waits for a codec (R53, R54). -/
def closeFolio (f : Nat) (h : Hdr) (s : State) : State :=
  let e := s.folio f
  let s := writeHdr (chunkOff e.chunk) { h with closed := true } (s.setFolio f { e with closed := true })
  if (descOf s h.desc).policy = 1 then { s with flo.toEncode := s.flo.toEncode ++ [f] } else s

/-- What an append places: the conversation record, layer, head group, step and first position. -/
structure AppArgs where
  c     : Nat := 0
  layer : Nat := 0
  hg    : Nat := 0
  step  : Nat := 0
  q0    : Nat := 0
  deriving DecidableEq, Repr

def AppArgs.run (x : AppArgs) (s : State) : Nat := runIx s x.c x.layer x.hg

/-- The next position of a run: past the tail's FILL, or POS_LO before the first append. -/
def nextPos (s : State) (c i : Nat) : Nat :=
  let t := (s.run i).tail
  if t = 0 then (s.conv c).posLo else let h := hdrAt s (folioBase s t); h.base + h.fill

/-- The requests by which `n` tokens are written from index `j` of the folio at `base`: its header, the parts of the rows, and
their max-abs entries (R35, R42). -/
def rowReqs (g : Geo) (base j n : Nat) : List (Nat × Nat) :=
  let parts := ([(g.keyOff, elemBytes g.kf g.d), (g.keyScaleOff, g.d / 32 * scaleBytes g.kf), (g.valOff, elemBytes g.vf g.d),
    (g.valScaleOff, g.d / 32 * scaleBytes g.vf)].map fun p => (p.1 + j * p.2, n * p.2)).filter fun p => decide (0 < p.2)
  (base, 64) :: parts.map (fun p => (base + bodyOff + p.1, p.2)) ++
    parts.map fun p => (base + 0x1C0 + 2 * (p.1 / 64), 2 * ((p.1 + p.2 - 1) / 64 + 1 - p.1 / 64))

/-- The requests of an append to the tail that its run has, for as many of its tokens as fit there. -/
def tailReqs (x : AppArgs) (n : Nat) (s : State) : List (Nat × Nat) :=
  let t := (s.run (x.run s)).tail
  if t = 0 then []
  else
    let g := geoOf s x.c
    let base := folioBase s t
    let h := hdrAt s base
    rowReqs g base h.fill (min n (g.span - h.fill))

/-- Whether the placement of an append waits: for tokens of its partition's bucket (R206), or for a held row of the tail (R67,
R76, R89); and what the wait changes. -/
def appendWaits (c : Instr) (part : Nat) (x : AppArgs) (n : Nat) (s : State) : Option State :=
  if bucketEmpty false part s then some (stallCmd c s) else reqsWait c part (tailReqs x n s) s

/-- Place one position, in a new tail folio where the last is full: a status, and the chunks taken. DESIGN CHOICE: a position whose
writes a stack controller refuses ends the append with the refusal's status (R15, R65). -/
def placeOne (x : AppArgs) (p : Nat) (row : Bytes × Bytes × Bytes × Bytes) (s : State) : Nat × Nat × State :=
  let i := x.run s
  let g := geoOf s x.c
  let t := (s.run i).tail
  let h := hdrAt s (folioBase s t)
  let fresh := decide (t = 0 ∨ h.fill ≥ g.span)
  let (st, f, s) := if fresh then newFolio x.c x.layer x.hg ((p - (s.conv x.c).posLo) / g.span) s else (ST.OK, t, s)
  if st ≠ ST.OK then (st, 0, s)
  else
    let n := if fresh then (s.folio f).nchunk else 0
    let s := if fresh then s.setRunRec i { s.run i with tail := f } else s
    let base := folioBase s f
    let h := hdrAt s base
    if h.closed then (ST.FOLIO_CLOSED, n, s)
    else match reqsRefusal s h.part (rowReqs g base (p - h.base) 1) with
    | some st => (st, n, countRefusal base st s)
    | none =>
      let (ok, s) := putRow g h (rixOf s x.c x.layer x.hg) base (p - h.base) row s
      if ¬ ok then (ST.KEY_RETIRED, n, s.bump (RSP_CNT.COUNT 3))
      else
        let s := s.setRunRec i { s.run i with lastStep := x.step }
        let h := hdrAt s base
        (ST.OK, n, if g.span ≤ h.fill then closeFolio f h s else s)

/-- Place positions in order until one fails. -/
def placeRows (x : AppArgs) (g : Geo) (rows : Bytes) : List Nat → Nat × Nat × State → Nat × Nat × State
  | [], r => r
  | t :: rest, (st, n, s) =>
    if st ≠ ST.OK then (st, n, s)
    else
      let (st, m, s) := placeOne x (x.q0 + t) (rowParts g rows t) s
      placeRows x g rows rest (st, n + m, s)

/-- Whether the tail that an append would write cannot be read without poison. -/
def tailPoison (s : State) (x : AppArgs) : Bool :=
  let t := (s.run (x.run s)).tail
  convPoison s x.c || tblPoison s (tblRun s + 64 * x.run s) ||
  (t != 0 && (tblPoison s (32 * t) || rangePoison s (folioBase s t) 64))

/-- The rows of R160 for `n` tokens: a status, the chunks taken, and the state. DESIGN CHOICE: a position below next that is no
replay is refused with R160's ST_APPEND_POS although R53 gives ST_FOLIO_CLOSED where it lies in a closed folio. -/
def appendRows (x : AppArgs) (n : Nat) (rows : Bytes) (s : State) : Nat × Nat × State :=
  let r := s.conv x.c
  let i := x.run s
  let next := nextPos s x.c i
  if x.hg < r.hgLo ∨ r.hgHi ≤ x.hg then (ST.APPEND_POS, 0, s)
  else if tailPoison s x then (ST.POISON, 0, poisonUse .chip 6 0 (some r.part) ST.POISON (32 * (s.run i).tail) s)
  else if r.posHi ≠ 0xFFFFFFFF ∧ r.posHi < x.q0 + n then (ST.APPEND_POS, 0, s)
  else if x.q0 = next then placeRows x (geoOf s x.c) rows (List.range n) (ST.OK, 0, s)
  else if x.q0 < next ∧ (s.run i).tail ≠ 0 ∧ (s.run i).lastStep = x.step then
    let skip := min n (next - x.q0)
    placeRows x (geoOf s x.c) rows ((List.range n).drop skip) (ST.OK, 0, s.bump REAM_APPEND_DUP_CNT.COUNT)
  else (ST.APPEND_POS, 0, s)

/-! Audits (R308): the ticket goes to the mirror once the position's appends have completed. -/

def setApp (k slot : Nat) (f : AppSt → AppSt) (s : State) : State :=
  match s.att? k with
  | none => s
  | some a => s.setAtt k { a with apps := a.apps.map fun x => if x.slot = slot then f x else x }

/-- Ask the mirror for its fold. -/
def askAudit (k : Nat) (s : State) : State :=
  match s.att? k with
  | none => s
  | some a =>
    match sigOf? s a.sig a.part with
    | none => s
    | some d =>
      let m := d.mirror a.pos
      if ¬ a.audit ∨ a.asked ∨ a.standin ∨ a.mirrorOf.isSome ∨ ¬ a.appended ∨ m = 0xFFFF ∨ markedDown s m then s
      else
        let f : Frame := { ty := 1, tc := 1, part := a.part, dst := m, msg := a.ream, arg := sigWord false false d.epoch true false a.pos }
        let (ok, s) := sendMsg f a.ticket (s.setAtt k { a with asked := true })
        if ok then chargeAtt k (slotOf a.ticket 0).ten .fab (framesBytes (msgFrames f a.ticket)) false s
        else failPart k ST.FAB_NO_ROUTE s

/-- An append has completed (R161). -/
def appDone (k slot : Nat) (s : State) : State := askAudit k (setApp k slot (fun x => { x with state := 3 }) s)

/-! The mirror's copy (R158, R306). -/

/-- MSG_OFF of an append's message: its attempt and slot. -/
def fwdOff (attempt slot : Nat) : Nat := (attempt % 16 * 4096 + slot) * 65536

/-- What an APPEND_FWD carries ahead of its rows. -/
def fwdHead (conv layer hg n q0 step : Nat) : Bytes :=
  natLe 6 conv ++ natLe 2 layer ++ natLe 2 hg ++ natLe 2 n ++ natLe 4 q0 ++ natLe 4 step ++ natLe 44 0

/-- The frames of an append's message, at offsets from the message's own start. -/
def fwdFrames (f : Frame) (start : Nat) (b : Bytes) : List Frame :=
  (msgFrames f b).map fun x => { x with off := start + x.off }

def sendFrames (fs : List Frame) (s : State) : Bool × State :=
  fs.foldl (fun (r : Bool × State) g => let (ok, s) := sendFrame g r.2; (r.1 && ok, s)) (true, s)

/-- Forward a placed append to the mirror, or complete it where there is none to wait for. -/
def forwardAppend (k slot : Nat) (a : Att) (x : AppArgs) (n : Nat) (rows : Bytes) (s : State) : State :=
  let r := s.conv x.c
  if ¬ modeMirror s a.part ∨ r.mirror = 0xFFFF then appDone k slot s
  else if a.standin ∨ markedDown s r.mirror then appDone k slot (s.bump COL_UNMIRRORED_CNT.COUNT)
  else
    let f : Frame := { ty := 5, tc := 5, part := a.part, dst := r.mirror, msg := a.ream, keySlot := if r.sealed then r.keySlot else 0,
                       keyGen := if r.sealed then (keySlot s r.keySlot).gen else 0 }
    let fs := fwdFrames f (fwdOff a.attempt slot) (fwdHead r.conv x.layer x.hg n x.q0 x.step ++ rows)
    let (ok, s) := sendFrames fs s
    if ¬ ok then failPart k ST.FAB_NO_ROUTE s
    else
      let s := chargeAtt k (slotOf a.ticket slot).ten .fab (framesBytes fs) false s
      setApp k slot (fun y => { y with state := 2, fwdAt := s.now }) s

/-- Whether an append of a lower slot for the same run is still to be placed (R153). -/
def appendBefore (a : Att) (slot : Nat) : Bool :=
  a.apps.any fun x => decide (x.slot < slot ∧ x.state < 2) &&
    (let y := slotOf a.ticket x.slot
     let z := slotOf a.ticket slot
     y.conv == z.conv && y.layer == z.layer && y.hg == z.hg)

/-- An append reaches its run: a spill is cancelled, and a run that is not resident is on demand. `true` when it is resident. -/
def appendResident (c l att ten : Nat) (s : State) : Bool × State :=
  match tierState s c l with
  | 0 => (true, s)
  | 1 => (true, spillCancel c l s)
  | 2 => (false, fetchAdd { conv := c, layer := l, demand := true, att := att, tenant := ten } s)
  | _ => (false, s)

/-- R159, R160: the primary, or the stand-in, places an append whose rows are ready. -/
def execAppendPlace (part ream pos slot : Nat) (s : State) : Host.Outcome State Fault Refusal :=
  let k := attKey part ream pos false
  match s.att? k with
  | none => .next s
  | some a =>
    match a.apps.find? fun x => x.slot == slot with
    | none => .next s
    | some ap =>
      let y := slotOf a.ticket slot
      if ap.state ≠ 1 ∨ appendBefore a slot then .next s
      else match convRec? s part (attRole a) y.conv with
        | none => .next (failPart k ST.DIR_NO_CONV s)
        | some (c, _) =>
          if tierState s c y.layer = 4 then .next (failPart k ST.TIER_NOT_OWNER s)
          else match appendResident c y.layer k y.ten s with
          | (false, s) => .next (waitLate k s)
          | (true, s) =>
            let x : AppArgs := { c := c, layer := y.layer, hg := y.hg, step := a.step, q0 := y.qpos }
            match appendWaits (.appendPlace part ream pos slot) a.part x y.nq s with
            | some s => .next s
            | none =>
              let (st, n, s) := appendRows x y.nq ap.rows (unstall (.appendPlace part ream pos slot) s)
              let s := if n = 0 then s
                else match s.att? k with
                  | some a => s.setAtt k { a with chunks := KMap.insert a.chunks c (((KMap.find? a.chunks c).getD 0) + n) }
                  | none => s
              if st ≠ ST.OK then .next (failPart k st s)
              else .next (forwardAppend k slot a x y.nq ap.rows (chargeAtt k y.ten .stk ap.rows.length false s))

/-- The bytes of a forwarded append's frames, which run from the first one's offset. -/
def joinFwd (fs : List Frame) : Option Bytes :=
  joinMsg (fs.map fun f => { f with off := f.off - (fs.headD {}).off })

/-- The storage record of the chunks that a forwarded append took (R210). DESIGN CHOICE: it joins those of the ream while this node
has a part of an attempt of it, else a record of its own is written. -/
def fwdStorage (f : Frame) (x : AppArgs) (n : Nat) (s : State) : State :=
  let o : OwedChunks := { row := x.c, conv := (s.conv x.c).conv, tenant := (s.conv x.c).tenant, delta := n }
  if n = 0 then s
  else if s.col.atts.any fun e : Nat × Att => e.2.part == f.part && e.2.ream == f.msg then
    { s with col.owed := KMap.upd [] s.col.owed (owedKey f.part f.msg) (· ++ [o]) }
  else acctStorage { part := f.part, ream := f.msg, step := x.step, attempt := f.off / 65536 / 4096 } [o] s

/-- What a forwarded append that arrives asks for: the conversation's record, and the positions. -/
def fwdArgs (b : Bytes) (c : Nat) : AppArgs :=
  { c := c, layer := leAt b 6 2, hg := leAt b 8 2, step := leAt b 0x10 4, q0 := leAt b 0xC 4 }

/-- The mirror places a forwarded append by its own tail, charges it, and acknowledges it (R208, R306). -/
def placeFwd (fs : List Frame) (x : AppArgs) (n : Nat) (rows : Bytes) (s : State) : State :=
  let f := fs.headD {}
  let s0 := chargeLost f.part .fab (framesBytes fs) false (unstall .appendFwd s)
  let (st, m, s) := appendRows x n rows s0
  if st ≠ ST.OK then s0.bump COL_MIRROR_REFUSE_CNT.COUNT
  else
    let g : Frame := { ty := 5, tc := 5, part := f.part, dst := f.src, msg := f.msg, off := f.off, arg := 2 ^ 31 }
    (sendFrame g (chargeLost f.part .fab g.size false (chargeLost f.part .stk rows.length false (fwdStorage f x m s)))).2

/-- R158, R306: the mirror takes a forwarded append, places it by its own tail, and acknowledges it. -/
def execAppendFwd (s : State) : Host.Outcome State Fault Refusal :=
  match takeMsg (fun f => f.ty == 5 && !(wAck f.arg)) s with
  | none => .next s
  | some (fs, s1) =>
    let f := fs.headD {}
    if partFenced s f.part then .next s1
    else match joinFwd fs with
      | none => .next (s1.bump COL_MIRROR_REFUSE_CNT.COUNT)
      | some b =>
        match convFind f.part 1 (leAt b 0 6) s1 with
        | (none, s1) => .next (s1.bump COL_MIRROR_REFUSE_CNT.COUNT)
        | (some c, s1) =>
          let x := fwdArgs b c
          let n := leAt b 0xA 2
          if (s1.conv c).nlayer ≤ x.layer ∨ tierState s c x.layer = 4 then .next (s1.bump COL_MIRROR_REFUSE_CNT.COUNT)
          else if 2 ≤ tierState s c x.layer then
            .next (if tierState s c x.layer = 2 then fetchAdd { conv := c, layer := x.layer, demand := true, att := 2 ^ 63 } s else s)
          else match appendWaits .appendFwd f.part x n s with
            | some s => .next s
            | none => .next (placeFwd fs x n (b.drop 0x40) (if tierState s1 c x.layer = 1 then spillCancel c x.layer s1 else s1))

/-- The attempt and slot that an acknowledgment names. -/
def ackTarget (s : State) (f : Frame) : Option (Nat × Nat) :=
  let slot := f.off / 65536 % 4096
  (List.find? (fun e : Nat × Att =>
    e.2.part == f.part && e.2.ream == f.msg && e.2.mirrorOf.isNone && e.2.attempt % 16 == f.off / 65536 / 4096 &&
    e.2.apps.any (fun x => x.slot == slot && x.state == 2) &&
    (match convRec? s e.2.part (attRole e.2) (slotOf e.2.ticket slot).conv with
     | some (_, r) => r.mirror == f.src
     | none => false)) s.col.atts).map fun e => (e.1, slot)

/-- R161, R306: an acknowledgment completes the append it names. One that comes after the limit is not accepted. -/
def execAppendFwdAck (s : State) : Host.Outcome State Fault Refusal :=
  match takeFrame (fun f => f.ty == 5 && wAck f.arg) s with
  | none => .next s
  | some (f, s) =>
    match ackTarget s f with
    | none => .next s
    | some (k, slot) =>
      let at0 := (((s.att? k).bind fun a => a.apps.find? fun x => x.slot == slot).map (·.fwdAt)).getD 0
      if at0 + s.rd COL_CFG2.MIRROR_TMO_US * 1000 < s.now then .next s
      else .next (appDone k slot (chargeAtt k (((s.att? k).map fun a => (slotOf a.ticket slot).ten).getD 0) .fab f.size false s))

/-- R306: an append has no acknowledgment MIRROR_TMO_US after it was forwarded. -/
def execMirrorCommitTimeout (part ream pos slot : Nat) (s : State) : Host.Outcome State Fault Refusal :=
  let k := attKey part ream pos false
  match (s.att? k).bind fun a => a.apps.find? fun x => x.slot == slot && x.state == 2 with
  | none => .next s
  | some x =>
    if x.fwdAt + s.rd COL_CFG2.MIRROR_TMO_US * 1000 < s.now then
      .next (failPart k ST.MIRROR_COMMIT (s.bump COL_MIRROR_TMO_CNT.COUNT))
    else .next s

end Sys2Proof.Machine
end

