-- ==== Sys2Proof/Machine/Ticket.lean ====
section
/-!
DEFINITION. Tickets (R148–R152, R186, R194, R221, R296, R297, R388): the grounds of the node's own state, the checks of
Table 7.3 in their order, lookups, admission, replication to the children, and the work that an accepted ticket starts.
-/
namespace Sys2Proof.Machine

/-- A ticket as it reaches the node: its carrier's partition, its source node and signature word on the fabric, or the
descriptor of a ring, and the bytes delivered, or none where its frames leave a gap. -/
structure TktIn where
  part : Nat := 0
  src  : Nat := 0
  word : Nat := 0
  from? : CmdSrc := .reg
  whole : Bool := true
  data : Bytes := []
  deriving DecidableEq, Repr

def TktIn.host (x : TktIn) : Bool := x.from? != .reg
def TktIn.root (x : TktIn) : Bool := x.host || (wPos x.word == 0 && !wAudit x.word)

/-- R152, R332: the grounds of the node's own state. -/
def stateRefuse (s : State) (part : Nat) (root : Bool) : Option Nat :=
  if s.rd RAS_NODE_STS.STATE = 3 ∨ partFenced s part then some ST.FENCED
  else if s.flag HST_PRT_STS.RST_BUSY part then some ST.PRT_RESET
  else if s.rd RAS_NODE_STS.STATE ≠ 2 then some ST.NOT_ADMITTED
  else if s.rd RAS_NBR_AHEAD.NBR ≠ 0 then some ST.EPOCH_BEHIND
  else if root ∧ (policyOf s part).maxReams ≤ admitted s part then some ST.REAM_BUSY
  else none

/-! Table 7.3. -/
def allZero (b : Bytes) (o n : Nat) : Bool := decide (leAt b o n = 0)

/-- Row 1 for the header, the length, and the places of the tables. -/
def badHeader (x : TktIn) : Bool :=
  let b := x.data
  !x.whole ||
  decide (leAt b 0 2 ≠ 1 ∨ 4 ≤ leAt b 2 1 ∨ 32 ≤ leAt b 0xE 1 ∨ tktNslot b = 0 ∨ 4096 < tktNslot b ∨ tktLen b < 640 ∨ 16777216 < tktLen b ∨
    b.length ≠ tktLen b ∨ tktLenOff b % 64 ≠ 0 ∨ tktLen b < 0x40 + 64 * tktNslot b ∨ tktLen b < tktLenOff b + 4 * tktNslot b) ||
  !allZero b 0xF 1 || !allZero b 0x20 32

/-- Bytes of a slot's bitmap (R154). -/
def bitmapLen (m : Mask) (x : Slot) : Nat := ceilDiv (ceilDiv x.kvLen (2 ^ m.bmG)) 8

/-- Row 1 for a slot. -/
def badSlotForm (s : State) (b : Bytes) (i : Nat) : Bool :=
  let e := slice b (0x40 + 64 * i) 64
  let x := slotOf b i
  decide (16 ≤ leAt e 0xC 1 ∨ 64 ≤ leAt e 0x14 1 ∨ x.qOff % 64 ≠ 0 ∨ x.aOff % 64 ≠ 0 ∨ x.bmOff % 64 ≠ 0) ||
  !allZero e 0x15 3 || !allZero e 0x28 24 ||
  (match mask? s x.mask with
   | some m => m.bitmap && decide (x.bmOff ≠ 0 ∧ tktLen b < x.bmOff + bitmapLen m x)
   | none => false)

/-- Row 4. -/
def badSlot (x : Slot) : Bool :=
  decide (x.nq = 0 ∨ 16 < x.nq ∨ x.nh = 0 ∨ 16 < x.nh ∨ 64 < x.nq * x.nh ∨ 3 < x.qfmt ∨ x.tau = 0 ∨ 0x7F800000 ≤ x.tau ∨
    2 ^ 32 ≤ x.qpos + x.nq - 1 ∨ x.kvLen = 0)

/-- Row 5. -/
def badMask (s : State) (x : Slot) : Bool :=
  match mask? s x.mask with
  | none => true
  | some m => m.bitmap && x.bmOff == 0

/-- Row 6. -/
def badAppend (x : Slot) : Bool :=
  decide ((x.afmt ≠ 0 ∧ x.afmt ≠ 1 ∧ x.afmt ≠ 15) ∨ (x.rot = true ∧ x.afmt = 15) ∨ (x.afmt = 15 ∧ x.app = false))

/-- The access check of a slot (R186): two searches, the query right in bit 0 and the append right in bit 1. -/
def aclFails (s : State) (part src : Nat) (x : Slot) : Bool :=
  let hit := (cwdSearch s (accessKey part src x.conv) (fullMask 1) 255 1 0).orElse fun _ =>
    cwdSearch s (accessKey part src (2 ^ 48 - 1)) (fullMask 1) 255 1 0
  match hit with
  | none => true
  | some (_, _, e) => !bitOf e.res 0 || (x.app && !bitOf e.res 1)

/-- The first slot that fails a check. -/
def firstBad (n : Nat) (p : Nat → Bool) : Option Nat := (List.range n).find? p

/-- Row 3: the signature is one of the partition, and the ticket came along its tree (R148). -/
def onTree (s : State) (x : TktIn) (d : SigDesc) : Bool :=
  let p := wPos x.word
  let me := nodeId s
  if x.root then d.server 0 == me
  else decide (p < d.memb.length) &&
    (((if wStandin x.word then d.mirror p else d.node p) == me && p != 0 && d.server (d.parent p) == x.src) ||
     (wAudit x.word && !wStandin x.word && d.node p != me && d.mirror p == me && d.node p == x.src))

/-- Whether the node receives the ticket as the mirror of an audited member (R308). -/
def asAuditor (s : State) (x : TktIn) (d : SigDesc) : Bool :=
  !x.host && wAudit x.word && !wStandin x.word && d.node (wPos x.word) != nodeId s && d.mirror (wPos x.word) == nodeId s

/-- The ROLE of a ticket's lookups (R177, R296, R308). -/
def tktRole (s : State) (x : TktIn) (d : SigDesc) : Nat :=
  if ¬ x.root ∧ (wStandin x.word ∨ asAuditor s x d) then 1 else 0

/-- Row 3 for a slot: its conversation, if the directory holds it, belongs to another signature (R148). -/
def otherSig (s : State) (part role sig : Nat) (x : Slot) : Bool :=
  floOn s && (match cwdSearch s (dirKey part role x.conv) (fullMask 1) 255 1 0 with
    | some (_, _, e) => (s.conv e.res).state == 1 && (s.conv e.res).sig != sig
    | none => false)

/-- Table 7.3 in its order: the code and FAIL_SLOT of the first condition that holds. -/
def tktCheck (s : State) (x : TktIn) : Option (Nat × Nat) :=
  let b := x.data
  let n := tktNslot b
  let at? (st : Nat) (o : Option Nat) : Option (Nat × Nat) := o.map fun i => (st, i)
  if badHeader x then some (ST.TKT_FORMAT, 0xFFFF)
  else
    (at? ST.TKT_FORMAT (firstBad n (badSlotForm s b))).orElse fun _ =>
    (if tktPart b ≠ x.part then some (ST.TKT_PART, 0xFFFF) else none).orElse fun _ =>
    (match sigOf? s (tktSig b) x.part with
     | none => some (ST.TKT_SIG, 0xFFFF)
     | some d =>
       if onTree s x d then at? ST.TKT_SIG (firstBad n fun i => otherSig s x.part (tktRole s x d) (tktSig b) (slotOf b i))
       else some (ST.TKT_SIG, 0xFFFF)).orElse fun _ =>
    (at? ST.TKT_SLOT (firstBad n fun i => badSlot (slotOf b i))).orElse fun _ =>
    (at? ST.TKT_MASK (firstBad n fun i => badMask s (slotOf b i))).orElse fun _ =>
    (at? ST.APPEND_FMT (firstBad n fun i => badAppend (slotOf b i))).orElse fun _ =>
    if x.root ∧ ¬ x.host ∧ (policyOf s x.part).acl then
      at? ST.ACCESS_DENIED (firstBad n fun i => aclFails s x.part x.src (slotOf b i))
    else none

/-- Steps 1 and 2 of the lookup of a slot and the checks that follow it (R152, R177). -/
def lookupSlot (role : Nat) (b : Bytes) (part i : Nat) (s : State) : Nat × State :=
  let x := slotOf b i
  match convFind part role x.conv s with
  | (none, s) => (ST.DIR_NO_CONV, s)
  | (some c, s) =>
    let r := s.conv c
    let g := geoOf s c
    if r.nlayer ≤ x.layer then (ST.DIR_NO_RUN, s)
    else if tktLen b < x.qOff + elemBytes x.qfmt (g.d * x.nq * x.nh) ∨ (x.app ∧ tktLen b < x.aOff + x.nq * appendRec g x.afmt) then
      (ST.TKT_FORMAT, s)
    else if x.rot ∧ (rotary? s r.desc).isNone then (ST.APPEND_FMT, s)
    else (ST.OK, s)

def lookupAll (role : Nat) (b : Bytes) (part : Nat) (s : State) : Option (Nat × Nat) × State :=
  (List.range (tktNslot b)).foldl (fun (r : Option (Nat × Nat) × State) i =>
    match r.1 with
    | some _ => r
    | none =>
      let (st, s) := lookupSlot role b part i r.2
      (if st = ST.OK then none else some (st, i), s)) (none, s)

/-! What an accepted ticket starts. -/

/-- The demand entry of one slot (R221); a spill of its run is cancelled (R220). -/
def demandEntry (k role : Nat) (b : Bytes) (part i : Nat) (s : State) : State :=
  let x := slotOf b i
  match convRec? s part role x.conv with
  | none => s
  | some (c, _) =>
    let s := if tierState s c x.layer = 1 then spillCancel c x.layer s else s
    if tierState s c x.layer = 2 then fetchAdd { conv := c, layer := x.layer, demand := true, att := k, tenant := x.ten } s else s

/-- The scheduled entry of one slot at a distance from its layer (R221). -/
def scheduledEntry (k role : Nat) (b : Bytes) (part dist i : Nat) (s : State) : State :=
  let x := slotOf b i
  match convRec? s part role x.conv with
  | none => s
  | some (c, r) =>
    let l := (x.layer + dist) % r.nlayer
    if tierState s c l = 2 then fetchAdd { conv := c, layer := l, dist := dist, att := k, tenant := x.ten } s else s

/-- Fetch-queue entries of a ticket (R221): those on demand, then the scheduled ones by ascending distance. -/
def fetchEntries (k role : Nat) (b : Bytes) (part : Nat) (s : State) : State :=
  let is := List.range (tktNslot b)
  let s := is.foldl (fun s i => demandEntry k role b part i s) s
  (List.range (s.rd TIER_PF_CFG.DEPTH)).foldl (fun s j => is.foldl (fun s i => scheduledEntry k role b part (j + 1) i s) s) s

/-- The staging of an append composition: for each token its key, its value and its rotary frequencies. -/
def appendStaging (s : State) (b : Bytes) (x : Slot) (desc : Nat) (d : Nat) : Bytes :=
  let freq := slice (((rotary? s desc).map (·.2)).getD []) 0 (2 * d)
  (List.range x.nq).flatMap fun t => slice b (x.aOff + 4 * d * t) (4 * d) ++ freq

/-- The append composition of a slot, parked for the region that R157 names; its block is chosen as it is placed. `none` where
the partition has no block. -/
def appendComp (s : State) (k : Nat) (a : Att) (i c : Nat) : Option PendComp :=
  let x := slotOf a.ticket i
  let g := geoOf s c
  let r := s.conv c
  let t := (s.run (runIx s c x.layer x.hg)).tail
  let e := s.folio t
  let stack :=
    if t ≠ 0 ∧ e.state = 1 then offStack (chunkOff e.chunk)
    else (((candidateSets s a.part none).head?).map (· / 8)).getD 0
  let base := if t = 0 then r.posLo else (hdrAt s (chunkOff e.chunk)).base
  let f : FSlot := { folio := 0, posBase := base, posEnd := base, desc := r.desc, geo := g, sealed := r.sealed, conv := x.conv }
  (blockFor s a.part (stack / 2)).map fun _ =>
    { comp := { att := k, ream := a.ream, slot := i, attempt := a.attempt, part := a.part, entry := entryAppend s r.desc,
                 nq := x.nq, nh := 3, qfmt := x.afmt, layer := x.layer, tau := x.tau, qpos := (List.range x.nq).map (x.qpos + ·),
                 staging := appendStaging s a.ticket x r.desc g.d, slots := [f], append := true }
      block := 16 * (stack / 2), cls := slotClass x, cost := compCost [] }

/-- Whether this node places the appends of a conversation in an attempt: as primary, or as its stand-in. -/
def placesAppends (s : State) (d : SigDesc) (a : Att) (r : ConvRec) : Bool :=
  a.mirrorOf.isNone && r.primary == (if a.standin then d.node a.pos else nodeId s)

/-- Start the append of a slot: its rows, where they need no composition, or its composition. -/
def startAppend (k : Nat) (d : SigDesc) (i : Nat) (s : State) : State :=
  match s.att? k with
  | none => s
  | some a =>
    let x := slotOf a.ticket i
    match convRec? s a.part (attRole a) x.conv with
    | none => s
    | some (c, r) =>
      if ¬ x.app ∨ ¬ placesAppends s d a r then s
      else
        let g := geoOf s c
        if ¬ needsCompose g x ∨ x.hg < r.hgLo ∨ r.hgHi ≤ x.hg then
          s.setAtt k { a with apps := a.apps ++ [{ slot := i, state := 1, rows := slice a.ticket x.aOff (x.nq * appendRec g x.afmt) }] }
        else match appendComp s k a i c with
          | none => failAtt k ST.REAM_NO_BLOCK s
          | some p =>
            s.setAtt k { a with apps := a.apps ++ [{ slot := i }], parked := a.parked ++ [p] }

/-- Charge a ticket's bytes: each slot's entry, queries and appends to its tenant, the rest to that of slot 0 (Table 9.2). A
ticket that is shorter than its slots say is charged whole to the tenant of slot 0 (DESIGN CHOICE), as is one without an attempt. -/
def chargeTicket (k : Nat) (t : Bytes) (i : Item) (total : Nat) (s : State) : State :=
  let first := (slotOf t 0).ten
  match s.att? k with
  | none => chargeAtt k first i total false s
  | some a =>
    let sizes := (List.range (tktNslot a.ticket)).map fun j =>
      let x := slotOf a.ticket j
      let (d, ar) := match convRec? s a.part (attRole a) x.conv with
        | some (c, _) => ((geoOf s c).d, if x.app then x.nq * appendRec (geoOf s c) x.afmt else 0)
        | none => (0, 0)
      (x.ten, 64 + elemBytes x.qfmt (d * x.nq * x.nh) + ar)
    let sum := (sizes.map (·.2)).foldl (· + ·) 0
    if total < sum then chargeAtt k first i total false s
    else chargeAtt k first i (total - sum) false (sizes.foldl (fun s y => chargeAtt k y.1 i y.2 false s) s)

/-- An attempt that does no work: what its ticket and a colophon cost is charged, and its records are formed (R208, R210). -/
def briefEnd (a : Att) (src : CmdSrc) (i : Item) (got status : Nat) (s : State) : State :=
  let k := attKey a.part a.ream a.pos a.mirrorOf.isSome
  endAttempt k status true (chargeColophon k src a.ticket (chargeTicket k a.ticket i got (s.setAtt k a)))

/-- Send the ticket to every child (R296). -/
def replicate (k : Nat) (d : SigDesc) (s : State) : State :=
  match s.att? k with
  | none => s
  | some a =>
    (d.kids a.pos).foldl (fun s c =>
      let f : Frame := { ty := 1, tc := 1, part := a.part, dst := d.server c, msg := a.ream,
                         arg := sigWord false false d.epoch a.audit (bitOf d.standin c) c }
      let (ok, s) := sendMsg f a.ticket s
      if ok then chargeTicket k a.ticket .fab (framesBytes (msgFrames f a.ticket)) s else failAtt k ST.FAB_NO_ROUTE s) s

/-- Begin an attempt at this node (R152, R184, R195, R221, R296, R308), under the policy of its ream at the root. DESIGN CHOICE:
any other node takes the policy in force when the ticket reaches it. -/
def beginAttempt (a : Att) (d : SigDesc) (got : Nat) (gotAs : Item) (s : State) : State :=
  let k := attKey a.part a.ream a.pos a.mirrorOf.isSome
  let root := a.pos == 0 && a.mirrorOf.isNone
  let pol := match s.ream? a.part a.ream with
    | some r => if root then r.pol else policyOf s a.part
    | none => policyOf s a.part
  let s := { s with col.aborts := s.col.aborts.filter fun x => !(x.1 == a.part && x.2.1 == a.ream && x.2.2.1 == a.attempt) }
  let (tag, s) := slotTag a.part (tktNslot a.ticket) s
  let s := moveInflight a.part (attRole a) a.ticket true (s.setAtt k { a with tag := tag, start := s.now, pol := pol, flight := true })
  let s := if got = 0 then s else chargeTicket k a.ticket gotAs got s
  let s := if a.mirrorOf.isSome then s else replicate k d s
  let s := fetchEntries k (attRole a) a.ticket a.part s
  askAudit k ((List.range (tktNslot a.ticket)).foldl (fun s i => unpark k (startAppend k d i s)) s)

/-- The attempt that a ticket asks for. A ticket whose header is not right has the tenant of slot 0 alone (DESIGN CHOICE). -/
def ticketAtt (s : State) (x : TktIn) (d : Option SigDesc) : Att :=
  let b := if badHeader x then splice x.data 0xC (natLe 2 1) else x.data
  let pos := wPos x.word
  let a : Att := { part := x.part, ream := tktReam b, step := tktStep b, attempt := tktAttempt b, sig := tktSig b, ticket := b }
  if x.root then a
  else if (d.map (asAuditor s x)).getD false || pos == 0 then { a with pos := pos, mirrorOf := some x.src }
  else { a with pos := pos, standin := wStandin x.word, audit := wAudit x.word }

def TktIn.item (x : TktIn) : Item := if x.host then .hst else .fab

/-! Refusals (R152, R327). -/

/-- The root refuses: its records are formed, and a colophon goes to the source of the ticket, or to its descriptor. -/
def refuseRoot (x : TktIn) (got st slot : Nat) (s : State) : State :=
  let s := s.bump REAM_TKT_REFUSE_CNT.COUNT
  let s := if st = ST.REAM_BUSY then s.bump REAM_BUSY_CNT.COUNT else s
  let s := briefEnd (ticketAtt s x none) x.from? x.item got st s
  let tail := tktColophon x.data (tktAttempt x.data) slot 0
  match x.from? with
  | .host p ring q => jobDone p ring q st tail s
  | .reg => (sendFrame (colophonFrame x.part x.src (tktReam x.data) st tail) s).2

/-- Any other node ends its part of an attempt that it does not begin, with ABORT to its neighbours (R297, R301–R303). -/
def endMember (x : TktIn) (got st : Nat) (s : State) : State :=
  let a := ticketAtt s x (sigOf? s (tktSig x.data) x.part)
  let k := attKey a.part a.ream a.pos a.mirrorOf.isSome
  failAtt k st (chargeTicket k a.ticket .fab got (s.setAtt k a))

def refuse (x : TktIn) (got st slot : Nat) (s : State) : State :=
  if x.root then refuseRoot x got st slot s else endMember x got st (s.bump REAM_TKT_REFUSE_CNT.COUNT)

/-! Acceptance. -/

/-- The root admits a ream (R193, R194); every Nth of its partition is audited (R308). -/
def admitTicket (x : TktIn) (s : State) : Bool × State :=
  let n := s.rd COL_AUDIT_CFG.N x.part
  let c := KMap.get 0 s.col.audits x.part + 1
  let audit := decide (n ≠ 0 ∧ c % n = 0)
  let r : Ream := { part := x.part, ream := tktReam x.data, attempt := tktAttempt x.data, ticket := x.data, src := x.from?, audit := audit,
                    pol := policyOf s x.part }
  (audit, { s with col.audits := KMap.put 0 s.col.audits x.part c, col.reams := KMap.insert s.col.reams (reamKey x.part r.ream) r })

/-- An accepted ticket begins its attempt. -/
def acceptTicket (x : TktIn) (d : SigDesc) (got : Nat) (s : State) : State :=
  let a := ticketAtt s x (some d)
  if x.root then
    let (audit, s) := admitTicket x s
    beginAttempt { a with audit := audit } d got x.item s
  else beginAttempt a d got x.item s

/-- The attempt that a node other than the root holds of a ticket's ream at the ticket's position. -/
def heldAttempt (s : State) (x : TktIn) : Option (Nat × Att) :=
  let b := x.data
  List.find? (fun e : Nat × Att => e.2.part == x.part && e.2.ream == tktReam b && !x.root && e.2.pos == wPos x.word &&
    e.2.mirrorOf.isSome == (match sigOf? s (tktSig b) x.part with
      | some d => asAuditor s x d
      | none => false)) s.col.atts

/-- The checks and the start of a ticket that is not a repeat. -/
def checkTicket (x : TktIn) (got : Nat) (s : State) : State :=
  match stateRefuse s x.part x.root with
  | some st => refuse x got st 0xFFFF s
  | none =>
    match tktCheck s x with
    | some (st, i) => refuse x got st i s
    | none =>
      match sigOf? s (tktSig x.data) x.part with
      | none => s
      | some d =>
        match lookupAll (tktRole s x d) x.data x.part s with
        | (some (st, i), s) => refuse x got st i s
        | (none, s) =>
          if ¬ x.host ∧ wEpoch x.word ≠ d.epoch then
            if x.root then
              let a := ticketAtt s x (some d)
              let k := attKey a.part a.ream 0 false
              let s := (admitTicket x s).2
              failAtt k ST.COL_STALE (chargeTicket k a.ticket x.item got (s.setAtt k a))
            else endMember x got ST.COL_STALE s
          else acceptTicket x d got s

/-- Charge a ticket that is dropped to the attempt that it repeats. -/
def chargeDropped (x : TktIn) (got : Nat) (s : State) : State :=
  chargeAtt (attKey x.part (tktReam x.data) (wPos x.word) false) (slotOf x.data 0).ten x.item got false s

/-- A ticket reaches the node (R152, R299, R303). -/
def receiveTicket (x : TktIn) (got : Nat) (s : State) : State :=
  if x.root ∧ (s.ream? x.part (tktReam x.data)).isSome then
    let s := chargeDropped x got (s.bump COL_DUP_CNT.COUNT)
    match x.from? with
    | .host p ring q => jobDone p ring q ST.REAM_BUSY (tktColophon x.data (tktAttempt x.data) 0xFFFF 0) s
    | .reg => s
  else match heldAttempt s x with
    | none => checkTicket x got s
    | some (k, a) =>
      if a.attempt < tktAttempt x.data then checkTicket x got (stopAttempt k ST.ABORTED_COLLECTIVE a.pos false s)
      else if a.attempt = tktAttempt x.data then chargeDropped x got (s.bump COL_DUP_CNT.COUNT)
      else chargeDropped x got (s.bump COL_STALE_CNT.COUNT)

/-- R148–R152: the oldest whole ticket message delivered to this node is taken. In Hold it waits (R405). -/
def execTicket (s : State) : Host.Outcome State Fault Refusal :=
  if s.rd RSP_FORME_STS.STATE = 4 ∨ ¬ nodeAdmits s then .next s
  else match takeMsg (fun f => f.ty == 1) s with
    | none => .next s
    | some (fs, s) =>
      let f := fs.headD {}
      let whole := joinMsg fs
      .next (receiveTicket { part := f.part, src := f.src, word := f.arg, whole := whole.isSome, data := fs.flatMap (·.pay) }
        (framesBytes fs) s)

end Sys2Proof.Machine
end

