-- ==== Sys2Proof/Machine/Collation.lean ====
section
/-!
DEFINITION. Collation at work (R292–R294, R301–R305): signature commands, timeouts, aborts, and reissue.
-/
namespace Sys2Proof.Machine

/-! Signature commands (R293, R294, R310). -/

/-- End a collator command: to COL_CMD_STS, or to its descriptor. -/
def colDone (src : CmdSrc) (st : Nat) (s : State) : State :=
  match src with
  | .reg => ((s.wr COL_CMD_STS.BUSY 0 0).wr COL_CMD_STS.DONE 0 1).wr COL_CMD_STS.STATUS 0 st
  | .host p r q => jobDone p r q st [] s

/-- Whether a collator command record is well formed. -/
def colFormOk (b : Bytes) : Bool :=
  decide ((leAt b 0 1 = 1 ∨ leAt b 0 1 = 2) ∧ leAt b 1 1 < 32 ∧ leAt b 2 22 = 0 ∧ leAt b 0x1C 36 = 0)

/-- A record reaches the collator: a malformed one ends at once, any other waits its turn. -/
def colSubmit (src : CmdSrc) (b desc : Bytes) (s : State) : State :=
  if colFormOk b then { s with col.waiting := s.col.waiting ++ [(src, b, desc)] } else colDone src ST.SIG_FORMAT s

def sigOfBytes (b : Bytes) : SigDesc :=
  { sig := leAt b 0 4, part := leAt b 4 1 % 32, standin := leAt b 8 8, epoch := leAt b 0x10 1,
    memb := (List.range (leAt b 5 1)).map fun m => (leAt b (0x40 + 8 * m) 2, leAt b (0x42 + 8 * m) 2, leAt b (0x44 + 8 * m) 1) }

/-- Steps from a position to the root; `n` bounds them. -/
def SigDesc.depth (d : SigDesc) : Nat → Nat → Nat
  | 0, _ => 0
  | n + 1, m => if m = 0 then 0 else 1 + d.depth n (d.parent m)

/-- Row 1 of Table 13.2. -/
def sigBad (s : State) (cmdSig : Nat) (b : Bytes) : Bool :=
  let d := sigOfBytes b
  let n := leAt b 5 1
  decide (32 ≤ leAt b 4 1 ∨ leAt b 6 2 ≠ 0 ∨ leAt b 0x11 47 ≠ 0 ∨ n = 0 ∨ 64 < n ∨ cmdSig ≠ d.sig) || bitOf d.standin 0 ||
  (List.range n).any (fun m => decide (leAt b (0x45 + 8 * m) 3 ≠ 0 ∨ (m = 0 ∧ d.parent 0 ≠ 0xFF) ∨ (m ≠ 0 ∧ m ≤ d.parent m))) ||
  (List.range n).any (fun m => decide (8 < d.depth 64 m)) ||
  decide (((List.range n).map d.node).eraseDups.length ≠ n) ||
  !(List.range n).any fun m => d.node m == nodeId s || d.mirror m == nodeId s

/-- Row 3 of Table 13.2. -/
def sigFdom (s : State) (d : SigDesc) : Bool :=
  (List.range d.memb.length).any fun m =>
    if d.mirror m = 0xFFFF then modeMirror s d.part
    else d.mirror m == d.node m || ((fdom s (d.mirror m)).isSome && fdom s (d.mirror m) == fdom s (d.node m))

/-- The status of a SIG_PUT before R294. -/
def sigPutStatus (s : State) (cmdSig : Nat) (b : Bytes) : Nat :=
  let d := sigOfBytes b
  if sigBad s cmdSig b then ST.SIG_FORMAT
  else if 2 ^ s.rd COL_SIG_CFG.SIG_LOG2 ≤ d.sig / 256 then ST.SIG_INDEX
  else if sigFdom s d then ST.SIG_FDOM
  else ST.OK

/-- Whether a ream that names a signature is admitted or under way here. -/
def sigInUse (s : State) (sig part : Nat) : Bool :=
  s.col.reams.any (fun e => e.2.part == part && tktSig e.2.ticket == sig) || s.col.atts.any fun e => e.2.part == part && e.2.sig == sig

/-- The entry that a command replaces or drops. -/
def sigTarget (s : State) (b : Bytes) : Option SigDesc := KMap.find? s.col.sigs (leAt b 0x18 4 / 256)

/-- Replace or drop the entry. -/
def sigApply (src : CmdSrc) (b desc : Bytes) (s : State) : State :=
  let s := { s with col.held := none }
  if leAt b 0 1 = 1 then colDone src ST.OK (putSig (sigOfBytes desc) s)
  else colDone src ST.OK { s with col.sigs := KMap.erase s.col.sigs (leAt b 0x18 4 / 256) }

/-- Apply a checked command, or hold it while reams name the entry. -/
def sigHold (src : CmdSrc) (b desc : Bytes) (s : State) : State :=
  match sigTarget s b with
  | some old => if sigInUse s old.sig old.part then { s with col.held := some (src, b, desc) } else sigApply src b desc s
  | none => sigApply src b desc s

/-- The oldest command when it is `op` and none is held. -/
def sigStep (op : Nat) (act : CmdSrc → Bytes → Bytes → State → State) (s : State) : State :=
  match s.col.waiting with
  | [] => s
  | (src, b, desc) :: rest =>
    if s.col.held.isSome ∨ leAt b 0 1 ≠ op then s
    else
      let s := { s with col.waiting := rest }
      if cmdFenced s (leAt b 1 1 % 32) then colDone src ST.FENCED s else act src b desc s

/-- R293: SIG_PUT. -/
def execSigPut (s : State) : Host.Outcome State Fault Refusal :=
  .next (sigStep 1 (fun src b desc s =>
    let st := sigPutStatus s (leAt b 0x18 4) desc
    if st = ST.OK then sigHold src b desc s else colDone src st s) s)

/-- R294: SIG_DROP. -/
def execSigDrop (s : State) : Host.Outcome State Fault Refusal :=
  .next (sigStep 2 (fun src b desc s =>
    match sigTarget s b with
    | some d => if d.sig = leAt b 0x18 4 ∧ d.part = leAt b 1 1 then sigHold src b desc s else colDone src ST.SIG_NOT_FOUND s
    | none => colDone src ST.SIG_NOT_FOUND s) s)

/-- R294: the last ream that names the old entry has completed, and the command that waits takes effect. -/
def execSigReplace (s : State) : Host.Outcome State Fault Refusal :=
  match s.col.held with
  | none => .next s
  | some (src, b, desc) =>
    match sigTarget s b with
    | some old => .next (if sigInUse s old.sig old.part then s else sigApply src b desc s)
    | none => .next (sigApply src b desc s)

/-! Timeouts (R301). -/

/-- The lowest child whose node partial is missing. -/
def missingKid (a : Att) (d : SigDesc) : Option Nat :=
  (d.kids a.pos).find? fun c => (List.range (tktNslot a.ticket)).any fun i => !a.seen.any fun x => x.1 == i && x.2.1 == 1 && x.2.2.1 == c

/-- R301: an attempt's node partial is not complete past REAM_TMO_US. -/
def execReamTimeout (part ream pos : Nat) (audit : Bool) (s : State) : Host.Outcome State Fault Refusal :=
  let k := attKey part ream pos audit
  match s.att? k with
  | none => .next s
  | some a =>
    if s.now ≤ a.start + s.rd COL_CFG.REAM_TMO_US * 1000 ∨ (a.folded = true ∧ a.appended = true) then .next s
    else
      let fp := if a.mirrorOf.isSome then pos else ((sigOf? s a.sig part).bind (missingKid a)).getD pos
      .next (endServe k ST.COL_TIMEOUT fp s)

/-! Aborts (R302–R304). -/

/-- Stop the attempts of a ream at this node up to an attempt number, the root's apart. -/
def stopHere (part : Nat) (m : AbortMsg) (upto : Bool) (s : State) : State :=
  let ks := (List.filter (fun e : Nat × Att => e.2.part == part && e.2.ream == m.ream &&
    (e.2.attempt == m.attempt || (upto && decide (e.2.attempt < m.attempt))) && !(e.2.pos == 0 && e.2.mirrorOf.isNone)) s.col.atts)
  gangsServe (List.foldl (fun s (e : Nat × Att) =>
    let last := endsReam s m.status m.attempt
    if e.2.mirrorOf.isSome then endAttempt e.1 ST.ABORTED_COLLECTIVE last s else stopAttempt e.1 ST.ABORTED_COLLECTIVE m.fault last s) s ks)

/-- A ROOT_ABORT that ends its ream: what the ream is still owed is recorded (R210). -/
def settleOwed (part : Nat) (m : AbortMsg) (s : State) : State :=
  if endsReam s m.status m.attempt then
    acctOwed { part := part, ream := m.ream, step := m.step, status := m.status, attempt := m.attempt } [] s
  else s

/-- Forward an ABORT from every position that this node serves, once. -/
def forwardAbort (part src : Nat) (root : Bool) (m : AbortMsg) (d : SigDesc) (s : State) : State :=
  let (first, s) := noteAbort part m root s
  if ¬ first then s
  else (myPositions s d).foldl (fun s pos => sendAborts part pos root m d (s.att? (attKey part m.ream pos false)) src s) s

/-- R302: an ABORT has arrived: the root takes its steps, any other member stops and forwards. -/
def execAbort (s : State) : Host.Outcome State Fault Refusal :=
  match takeFrame (fun f => f.ty == 6 && !(wRoot f.arg)) s with
  | none => .next s
  | some (f, s) =>
    let m := abortOf f.pay
    match sigOf? s m.sig f.part with
      | none => .next (stopHere f.part m false s)
      | some d =>
        if d.server 0 = nodeId s then .next (stopHere f.part m false (rootFault f.part m.ream m.attempt m.status m.fault s))
        else .next (stopHere f.part m false (forwardAbort f.part f.src false m d s))

/-- R302: the second copy of each ABORT, 250 ns after the first. -/
def execAbortRepeat (s : State) : Host.Outcome State Fault Refusal :=
  match s.col.repeats with
  | [] => .next s
  | (t, f) :: rest => if t ≤ s.now then .next (sendUrgent f { s with col.repeats := rest }) else .next s

/-- R304: a ROOT_ABORT has arrived: the new stand-ins are written, the attempt stops, and it is forwarded. -/
def execRootAbort (s : State) : Host.Outcome State Fault Refusal :=
  match takeFrame (fun f => f.ty == 6 && wRoot f.arg) s with
  | none => .next s
  | some (f, s) =>
    let m := abortOf f.pay
    match sigOf? s m.sig f.part with
    | none => .next (settleOwed f.part m (stopHere f.part m true s))
    | some d =>
      if d.server 0 = nodeId s then .next s
      else
        let d := { d with standin := m.standin, epoch := m.epoch }
        .next (settleOwed f.part m (stopHere f.part m true (forwardAbort f.part f.src true m d (putSig d s))))

/-- The ticket of the next attempt: unchanged but for ATTEMPT. -/
def retryTicket (t : Bytes) (attempt : Nat) : Bytes := splice t 3 (natLe 1 attempt)

/-- R304: the root reissues a ream 40 µs after its ROOT_ABORT. -/
def execReamReissue (part ream : Nat) (s : State) : Host.Outcome State Fault Refusal :=
  match s.ream? part ream with
  | none => .next s
  | some r =>
    match r.reissueAt with
    | none => .next s
    | some t =>
      if s.now < t ∨ s.rd RSP_FORME_STS.STATE = 4 then .next s
      else
        let n := r.attempt + 1
        let b := retryTicket r.ticket n
        let s := if r.flight then moveInflight part 0 r.ticket false s else s
        let r := { r with attempt := n, ticket := b, reissueAt := none, flight := false }
        let s := { s with col.reams := KMap.insert s.col.reams (reamKey part ream) r }.bump COL_REISSUE_CNT.COUNT
        let a : Att := { part := part, ream := ream, step := tktStep b, attempt := n, sig := tktSig b, ticket := b, audit := r.audit }
        if s.rd RAS_NODE_STS.STATE = 3 then .next (completeReam r ST.FENCED 0xFFFF 0 (briefEnd a r.src .fab 0 ST.FENCED s))
        else match sigOf? s (tktSig b) part with
        | none => .next (completeReam r ST.TKT_SIG 0xFFFF 0 (briefEnd a r.src .fab 0 ST.TKT_SIG s))
        | some d =>
          match lookupAll 0 b part s with
          | (some (st, i), s) => .next (completeReam r st i 0 (briefEnd a r.src .fab 0 st s))
          | (none, s) => .next (beginAttempt a d 0 .fab s)

end Sys2Proof.Machine
end

