-- ==== Sys2Proof/Machine/Keys.lean ====
section
/-!
DEFINITION. Data-key slots (R346–R351): the key messages, two-phase retirement, and the drain epoch.
-/
namespace Sys2Proof.Machine

def State.setKeySlot (s : State) (n : Nat) (k : KeySlot) : State := { s with key.slots := KMap.put {} s.key.slots n k }

/-- The first phase of retirement of an OPEN slot (R349); any other slot stays as it is. -/
def retireSlot (n : Nat) (s : State) : State :=
  let k := keySlot s n
  if k.state = 1 then
    let s := s.setKeySlot n { k with state := 2, floor := k.gen + 1, key1 := 0, key2 := 0 }
    { s with key.waiting := s.key.waiting ++ [n] }.bump (RSP_CNT.COUNT 1)
  else s

/-- Retire every open slot that satisfies a condition. -/
def retireAll (p : KeySlot → Bool) (s : State) : State :=
  ((s.key.slots.filter fun e => e.2.state == 1 && p e.2).map (·.1)).foldl (fun s n => retireSlot n s) s

/-- A slot leaves CLOSING (R350): FREE, or EXHAUSTED at a floor of 65,536. -/
def freeSlot (n : Nat) (s : State) : State :=
  let k := keySlot s n
  s.setKeySlot n { k with state := if k.floor = 65536 then 3 else 0 }

/-- The end of a drain: every slot it covers leaves CLOSING. -/
def drainEnd (s : State) : State :=
  let s := s.key.covered.foldl (fun s n => freeSlot n s) s
  ({ s with key.covered := [] }.wr RSP_DRAIN_STS.BUSY 0 0).bump (RSP_CNT.COUNT 2)

/-! What the participants have under way (Table 15.6). -/

def portQueued (p : PortSt) : List Frame := p.urgent ++ p.green.flatMap (·.2) ++ p.yel.flatMap (·.2)

def workNow (s : State) : DrainWork :=
  { writes := s.stk.units.flatMap fun e => e.2.waiting.filter (·.write)
    frames := s.fab.ports.flatMap fun e => (portQueued e.2).map fun f => (e.1, f)
    runs := ((s.tier.fetchq.filter (·.moving)).map fun e => 65536 * e.conv + e.layer) ++ s.tier.spills.map (·.1)
    recs := s.col.atts.flatMap fun a => a.2.folds.flatMap fun v => v.2.buf.map fun x => (a.1, v.1, x.1)
    jobs := (s.job.jobs.filter (·.state == 1)).map fun j => (j.part, j.ring, j.seq) }

/-- Whether the participant of a bit still has work that it had accepted before the advance. A galley slice has none of its
own, and a sealed reach access ends with its last frame. -/
def drainBusy (bit : Nat) (s : State) : Bool :=
  let o := s.key.drainOld
  let n := workNow s
  if bit < 8 then o.writes.any fun x => offStack x.off == bit && n.writes.contains x
  else if bit < 12 then false
  else if bit < 24 then o.frames.any fun f => f.1 / 2 == bit - 12 && n.frames.contains f
  else if bit = 24 then o.frames.any fun f => f.2.tok?.isSome && n.frames.contains f
  else if bit = 25 then o.runs.any n.runs.contains
  else if bit = 26 then o.recs.any n.recs.contains
  else o.jobs.any n.jobs.contains

/-- R350: the epoch advances over every retirement that waits. -/
def execDrainAdvance (s : State) : Host.Outcome State Fault Refusal :=
  if s.key.waiting.isEmpty ∨ s.flag RSP_DRAIN_STS.BUSY then .next s
  else
    let s := { s with key.covered := s.key.waiting, key.waiting := [], key.drainAt := s.now, key.lateSaid := false,
                      key.drainOld := workNow s }
    .next (((s.addWrap RSP_DRAIN_EPOCH.EPOCH 0 1).wr RSP_DRAIN_STS.BUSY 0 1).wr RSP_DRAIN_STS.PEND 0 (2 ^ 28 - 1))

/-- What a participant does before it acknowledges: a galley slice has dropped the lines of the covered slots. -/
def drainPart (bit : Nat) (s : State) : State :=
  if 8 ≤ bit ∧ bit < 12 then galDrop (bit - 8) (fun _ l => s.key.covered.contains l.slot) s else s

/-- R350, Table 15.6: the participant of a bit acknowledges the epoch, once it has ended what it accepted before. -/
def execDrainAck (bit : Nat) (s : State) : Host.Outcome State Fault Refusal :=
  if ¬ s.flag RSP_DRAIN_STS.BUSY ∨ ¬ bitOf (s.rd RSP_DRAIN_STS.PEND) bit ∨ drainBusy bit s then .next s
  else
    let s := drainPart bit s
    let s := s.wr RSP_DRAIN_STS.PEND 0 (clrBit (s.rd RSP_DRAIN_STS.PEND) bit)
    .next (if s.rd RSP_DRAIN_STS.PEND = 0 then drainEnd s else s)

/-- R351: a drain has run one microsecond past its limit. -/
def execDrainLate (s : State) : Host.Outcome State Fault Refusal :=
  if ¬ s.flag RSP_DRAIN_STS.BUSY ∨ s.key.lateSaid ∨ s.now < s.key.drainAt + (s.rd RSP_DRAIN_CFG.LIMIT_US + 1) * 1000 then .next s
  else
    let s := { s with key.lateSaid := true }.wr RSP_DRAIN_STS.LATE 0 1
    .next (report .chip { sev := 0, subsys := 17, cause := Config.causeCode 61 } s)

/-! Key messages (Tables 15.4 and 15.5). -/

structure KeyMsg where
  op   : Nat := 0
  part : Nat := 0
  slot : Nat := 0
  gen  : Nat := 0
  key1 : Nat := 0
  key2 : Nat := 0
  deriving DecidableEq, Repr

def keyMsg (b : Bytes) : KeyMsg :=
  { op := leAt b 0 1, part := leAt b 1 1 % 32, slot := leAt b 2 2, gen := leAt b 4 2, key1 := leAt b 8 32, key2 := leAt b 0x28 32 }

/-- The format row: a reserved OP, reserved fields, the keys of a KEY_LOAD, and GEN of the other two messages. -/
def badKeyForm (b : Bytes) : Bool :=
  let m := keyMsg b
  decide (m.op = 0 ∨ 3 < m.op ∨ 32 ≤ leAt b 1 1 ∨ leAt b 6 2 ≠ 0) ||
  (if m.op = 1 then decide (b.length ≠ 0x48 ∨ m.key1 = m.key2) else decide (b.length ≠ 8 ∨ m.gen ≠ 0))

/-- The answer to a key message. -/
def keyAnswer (op status slot : Nat) (s : State) : Bytes :=
  let k := keySlot s slot
  natLe 2 op ++ natLe 2 status ++ natLe 2 k.state ++ natLe 2 k.gen ++ natLe 4 k.floor

/-- A key broker's SubjectPublicKeyInfo digest, and the range of slots (KEYPOL of Table 17.7). -/
def brokerOf (s : State) (p : Nat) : Nat := leAt (secOf s 11 p) 0x10 48
def slotLo (s : State) (p : Nat) : Nat := leAt (secOf s 11 p) 0 2
def slotHi (s : State) (p : Nat) : Nat := leAt (secOf s 11 p) 2 2

/-- The first three rows of Table 15.5. -/
def keyRefuse (s : State) (x : Session) (b : Bytes) : Option Nat :=
  let m := keyMsg b
  if badKeyForm b then some ST.KEY_FORMAT
  else if secOf s 11 m.part = [] ∨ x.cert ≠ brokerOf s m.part then some ST.KEY_AUTH
  else if m.slot = 0 ∨ m.slot < slotLo s m.part ∨ slotHi s m.part < m.slot then some ST.KEY_SLOT
  else none

end Sys2Proof.Machine
end

