-- ==== Sys2Proof/Machine/Link.lean ====
section
/-!
DEFINITION. Logical ports as they come up and go down (R237–R239, R357): their states, what a fall counts, and the link
key that goes with them.
-/
namespace Sys2Proof.Machine

/-- The mode of the port that a code belongs to. -/
def portMode (s : State) (c : Nat) : Nat := s.rd FAB_PORT_CFG.MODE (c - c % 2)

def linkSlot (s : State) (c : Nat) : Nat := s.rd FAB_PORT_CFG.LINK_KEY_SLOT c
def linkKey? (s : State) (c : Nat) : Option LinkKey := KMap.find? s.key.links (linkSlot s c)
def setLinkKey (c : Nat) (k : LinkKey) (s : State) : State :=
  { s with key.links := KMap.insert s.key.links (linkSlot s c) k }

/-- The keys of a port's slot are erased when it goes down (R356). -/
def eraseLink (c : Nat) (s : State) : State :=
  if portProt s c then { s with key.links := KMap.erase s.key.links (linkSlot s c) } else s

/-- Put a port in a state of bring-up that is not up. -/
def portSet (c st reason : Nat) (s : State) : State :=
  let s := eraseLink c ((s.wr FAB_PORT_STS.STATE c st).wr FAB_PORT_STS.REASON c reason)
  s.setPort c { s.port c with heldAt := s.now, trainAt := s.now, hello := false, helloAck := false, ackSent := false,
                                    helloAt := none }

/-- A port that trains again without having gone down: its link keys are kept (R418, R419). -/
def portRetrain (c : Nat) (s : State) : State :=
  let s := (s.wr FAB_PORT_STS.STATE c 1).wr FAB_PORT_STS.REASON c 0
  s.setPort c { s.port c with trainAt := s.now, hello := false, helloAck := false, ackSent := false, helloAt := none }

/-- A port leaves up for a state: the fall is counted, and one fall too many within 1 s disables it (R239). -/
def portFall (c st reason : Nat) (s : State) : State :=
  if s.rd FAB_PORT_STS.STATE c ≠ 4 then portSet c st reason s
  else
    let s := s.bump FAB_FLAP_CNT.COUNT c
    let downs := ((s.port c).downs.filter fun t => decide (s.now < t + 1000000000)) ++ [s.now]
    let s := s.setPort c { s.port c with downs := downs }
    if s.rd FAB_PORT_CFG.FLAP_MAX c < downs.length then
      report .chip { sev := 2, subsys := 10, cause := Config.causeCode 60, unit := c, action := 3 }
        (portSet c 5 6 (s.wr FAB_PORT_STS.FLAP_DIS c 1))
    else portSet c st reason s

end Sys2Proof.Machine
end

