-- ==== Sys2Proof/Machine/Platen.lean ====
section
/-!
DEFINITION. The platen units and press mode (chapter 4, R78–R98): lists, commands, claims, holds.
-/
namespace Sys2Proof.Machine

def pltList (s : State) (k : Nat) : List PltList := KMap.get [] s.plt.queues k
def pltRun? (s : State) (key : Nat) : Option PltRun := KMap.find? s.plt.runs key
def State.setRun (s : State) (key : Nat) (r : PltRun) : State := { s with plt.runs := KMap.insert s.plt.runs key r }

/-- The first unit of a list's target, and its units. -/
def PltList.first (l : PltList) : Nat := if l.gang then 8 * l.target else l.target
def PltList.units (l : PltList) : List Nat := if l.gang then (List.range 8).map (8 * l.target + ·) else [l.target]

def cmdOp (w : Nat) : Nat := bits w 58 6
def cmdRd (w : Nat) : Nat := bits w 54 4
def cmdRs (w : Nat) : Nat := bits w 50 4
def cmdArg (w : Nat) : Nat := bits w 40 10
def cmdAddr (w : Nat) : Nat := bits w 6 34 * 64
def cmdFlags (w : Nat) : Nat := bits w 0 6

/-- Opcodes that Table 4.5 defines, and the gang-only ones among them. -/
def opDefined (op : Nat) : Bool := decide (op ≤ 0x0A ∨ op = 0x0E)
def opGang (op : Nat) : Bool := decide (0x07 ≤ op ∧ op ≤ 0x0A)

/-- The list that a header, words and a stream make (Table 4.2). -/
def parseList (issuer : PltIssuer) (hd : Bytes) (words : List Nat) (stream : Bytes) (now : Nat) : PltList :=
  let b1 := leAt hd 1 1
  { gang := bitOf b1 7, target := bits b1 0 6, part := leAt hd 2 1 % 32, tag := leAt hd 6 2, est := leAt hd 4 2,
    words := words, stream := stream, issuer := issuer, arrived := now }

/-- Whether the header and words of a list are well formed (R81). DESIGN CHOICE: a gang list whose TARGET is 8 to 63 names no
set and is malformed; the spec gives it no status of its own. -/
def listFormOk (hd : Bytes) (words : List Nat) (l : PltList) : Bool :=
  decide (1 ≤ leAt hd 0 1 ∧ leAt hd 0 1 ≤ 64 ∧ words.length = leAt hd 0 1 ∧ bits (leAt hd 1 1) 6 1 = 0 ∧
    leAt hd 2 1 < 32 ∧ leAt hd 3 1 = 0 ∧ leAt hd 8 8 = 0 ∧ (l.gang = true → l.target < 8)) &&
  words.all fun w => opDefined (cmdOp w) && (l.gang || !opGang (cmdOp w)) && (cmdOp w != 0x07 || bits w 0 18 == 0)

/-- Whether a partition owns a channel set (R57): an unassigned set is partition 0's alone. -/
def ownsSet (owner : Option Nat) (part : Nat) : Bool := owner.getD 0 == part

/-- The first refusal of R81 that applies to a list, or none; a fenced stack answers with its own code (R98). -/
def listRefusal (s : State) (k : Nat) (hd : Bytes) (words : List Nat) (l : PltList) : Option Nat :=
  let set := if l.gang then l.target else l.target / 8
  if stackShut s k then some ST.STK_FENCED
  else if ¬ s.flag PLT_CFG.EN k then some ST.PLT_DISABLED
  else if ¬ listFormOk hd words l then some ST.PLT_LIST_FORMAT
  else if l.est = 0 ∨ 4800 < l.est then some ST.PLT_TOO_LONG
  else if ¬ ownsSet (setOwner s k set) l.part then some ST.PLT_ADDR
  else if l.units.any fun u => decide (3 ≤ ((pltList s k).filter fun q => q.units.contains u).length) then
    some ST.PLT_QUEUE_FULL
  else none

/-- Check a list and queue it, or refuse it: the record of a refusal goes to the issuer (R81). -/
def submitList (k : Nat) (issuer : PltIssuer) (hd : Bytes) (words : List Nat) (stream : Bytes) (s : State) :
    Option PltDone × State :=
  let l := parseList issuer hd words stream s.now
  match listRefusal s k hd words l with
  | some st =>
    (some { issuer := issuer, tag := l.tag, status := st, cmdIndex := 255 },
      pltLog k st l.first 255 l.part l.tag (s.bump (PLT_CNT.COUNT 5) k))
  | none => (none, { s with plt.queues := KMap.put [] s.plt.queues k (pltList s k ++ [l]) })

/-- Rows that a list's STS and STX commands name, at most 64 on each unit of the list (R89). -/
def listRows (l : PltList) : List Nat :=
  ((l.words.filter fun w => cmdOp w = 0x02 ∨ cmdOp w = 0x05).flatMap fun w =>
    l.units.map fun u => offRow (cmdAddr w + (if l.gang then 64 * (u % 8) else 0))).eraseDups

/-- BUSY of PLT_STS and CLAIMED of PLT_CLAIM_STS from the lists that run. -/
def pltStatus (k : Nat) (s : State) : State :=
  let busy := (List.range 8).foldl (fun b g =>
    if s.plt.runs.any fun p => decide (p.1 / 64 = k ∧ p.1 % 64 / 8 = g) then setBit b g else b) 0
  let rows := (s.stk.claims.filter fun c => c.1 / 64 = k).foldl (fun n c => n + c.2.length) 0
  (s.wr PLT_STS.BUSY k busy).wr PLT_CLAIM_STS.CLAIMED k rows

/-- Whether an access waits on a claim. -/
def claimed (s : State) (x : Access) : Bool := (granulesOf x.off (accessLen x)).any (claimHeld s)

/-- Count the platen cycles since `since` that a wait on a claim of partition `part` has lasted (R92): in the unit's counter,
and as claim stall of the claiming partition (R208). -/
def countStall (k part since : Nat) (s : State) : State :=
  let c := (s.now - since) * 6 / 5
  chargeOver part .stall c (s.addWrap PLT_CLAIM_STALL.CYCLES k c)

/-- Change the rows that a list of partition `part` claims: what waited on them and waits no more is counted, and what begins
to wait does so from now (R92). -/
def setClaims (key part : Nat) (rows : List Nat) (s : State) : State :=
  let k := key / 64
  let t := { s with stk.claims := KMap.put [] s.stk.claims key rows }
  let done := ((s.stkUnit k).waiting.filter fun x => claimed s x && !claimed t x).map (·.since) ++
    ((s.stk.claimWaits.filter fun w => claimHeld s w.2.1 && !claimHeld t w.2.1).map fun w => w.2.2)
  let u := done.foldl (fun u since => countStall k part since u) t
  let x := t.stkUnit k
  { u.setStk k { x with waiting := x.waiting.map fun a => if claimed t a && !claimed s a then { a with since := s.now } else a }
    with stk.claimWaits := t.stk.claimWaits.filter fun w => !(claimHeld s w.2.1 && !claimHeld t w.2.1) }

/-- Whether a unit runs a list. -/
def unitBusy (s : State) (k u : Nat) : Bool :=
  s.plt.runs.any fun p => decide (p.1 / 64 = k) && p.2.list.units.contains u

/-- Whether a gang list waits because its set's gang holds another issuer's state (R97). -/
def holdWaits (s : State) (k : Nat) (l : PltList) : Bool :=
  let h := pltHold s (8 * k + l.target)
  l.gang && h.held && h.issuer != l.issuer

/-- Whether a write that the list's source sent to the stack before still waits, for tokens or for a row (R94). -/
def writeAhead (s : State) (k : Nat) (l : PltList) : Bool :=
  let mine (x : Access) : Bool := x.write && x.part == l.part && offStack x.off == k
  (s.stkUnit k).waiting.any mine || s.rea.regWait.any fun r => match r with
    | .stk x => mine x
    | _ => false

/-- Whether a queued list may start behind those of `ahead` (R82, R94, R97): its units are free, no list accepted before it
for one of them could go first, and no hold and no earlier write of its source stands in its way. -/
def canStart (s : State) (k : Nat) (ahead : List PltList) (l : PltList) : Bool :=
  (l.units.all fun v => !unitBusy s k v) && !holdWaits s k l && !writeAhead s k l &&
  ahead.all fun o => holdWaits s k o || o.units.all fun v => !l.units.contains v

/-- The oldest queued list of a target that may start. -/
def nextList (s : State) (k u : Nat) : List PltList → List PltList → Option PltList
  | _, [] => none
  | ahead, l :: r => if l.first = u ∧ canStart s k ahead l then some l else nextList s k u (ahead ++ [l]) r

/-- R82, R89, R97: the oldest queued list of the target that may start does, and claims the rows it writes. -/
def startList (k u : Nat) (s : State) : State :=
  match nextList s k u [] (pltList s k) with
  | none => s
  | some l =>
    let s := { s with plt.queues := KMap.put [] s.plt.queues k ((pltList s k).erase l) }
    let s := s.setRun (64 * k + u) { list := l, start := s.now, budget := s.now }
    pltStatus k (setClaims (64 * k + u) l.part (listRows l) s)

def execPlatenListStart (stack unit : Nat) (s : State) : Host.Outcome State Fault Refusal := .next (startList stack unit s)

/-- The result of one command: the state, the run, and the failing status, 0 for none. -/
structure CmdRes where
  s    : State
  run  : PltRun
  fail : Nat := 0

/-- Fields of the PARM word (Table 4.6). -/
def parmGeo (w : Nat) : Geo :=
  { kf := bits w 54 4, vf := bits w 50 4, d := 32 * 2 ^ bits w 48 2, span := 64 * 2 ^ bits w 45 3 }

/-- The bytes of an extent that press commands of a layout may read, its header included. -/
def pressSpan (g : Geo) : Nat := bodyOff + g.valScaleOff + g.span * (g.d / 32) * scaleBytes g.vf

/-- Whether a command reads or writes the arrays, or needs the state that a fence of the stack drops. -/
def opTouches (op : Nat) : Bool := [0x01, 0x02, 0x05, 0x08, 0x09, 0x0A].contains op

/-- The ranges of the arrays that a command of a list touches on one unit of it: its own granules. -/
def cmdRanges (l : PltList) (w u : Nat) : List Nat :=
  let n := if cmdOp w = 0x05 then 8 else if cmdOp w = 0x01 ∨ cmdOp w = 0x02 then 4 else 0
  (List.range n).map fun i => cmdAddr w + (if l.gang then 64 * (u % 8) else 0) + 512 * i

/-- Whether a command waits on a row that is being copied to a spare (R67). -/
def cmdWaits (s : State) (l : PltList) (w : Nat) : Bool :=
  (l.units.any fun u => (cmdRanges l w u).any (copyHeld s)) ||
  ((cmdOp w == 0x08 || cmdOp w == 0x09) && (s.stkUnit (offStack (cmdAddr w))).remap.isSome &&
   (granulesOf (cmdAddr w) (pressSpan (parmGeo (KMap.get 0 s.plt.parms (8 * offStack (cmdAddr w) + l.target))))).any (copyHeld s))

/-- Run the next command of a list when its opcode is `op` (R82, R83). A failing command stops the list; one that needs the
arrays of a fenced stack fails with its code (R65, R98). -/
def stepList (op k u : Nat) (f : Nat → PltRun → State → CmdRes) (s : State) : State :=
  match pltRun? s (64 * k + u) with
  | none => s
  | some r =>
    match r.list.words[r.pos]? with
    | none => s
    | some w =>
      if r.ended ∨ r.suspended ∨ cmdOp w ≠ op ∨ (cmdWaits s r.list w ∧ ¬ stackShut s k) then s
      else
        let c := if opTouches op ∧ stackShut s k then { s := s, run := r, fail := ST.STK_FENCED } else f w r s
        let r' := if c.fail = 0 then { c.run with pos := r.pos + 1, ended := decide (r.list.words.length ≤ r.pos + 1) }
                  else { c.run with status := c.fail, cmdIndex := r.pos, ended := true }
        c.s.setRun (64 * k + u) r'

/-- Lane `j` of a sort; an undefined sort holds free values. -/
def sortLane (s : State) (unit sort j : Nat) : Nat :=
  match KMap.get 0 s.plt.undef (unit * 16 + sort) with
  | 0 => KMap.get 0 s.plt.sorts ((unit * 16 + sort) * 128 + j)
  | v + 1 => Config.freeNat (v + j) % 65536

/-- The poisoned groups of 16 lanes of a sort and of an accumulator (R84). -/
def sortPoison (s : State) (unit sort : Nat) : Nat := KMap.get 0 s.plt.spsn (unit * 16 + sort)
def accPoison (s : State) (unit x : Nat) : Nat := KMap.get 0 s.plt.apsn (unit * 4 + x)

/-- Load a sort, with the groups of it that are poisoned. -/
def putSort (unit sort : Nat) (lanes : List Nat) (psn : Nat) (s : State) : State :=
  { s with
    plt.undef := KMap.put 0 s.plt.undef (unit * 16 + sort) 0
    plt.spsn := KMap.put 0 s.plt.spsn (unit * 16 + sort) psn
    plt.sorts := (List.range 128).foldl (fun m j => KMap.put 0 m ((unit * 16 + sort) * 128 + j) (lanes.getD j 0 % 65536)) s.plt.sorts }

/-- Leave a sort undefined: 128 free values. -/
def spoilSort (unit sort : Nat) (s : State) : State :=
  { s with plt.spsn := KMap.put 0 s.plt.spsn (unit * 16 + sort) 0, plt.undef := KMap.put 0 s.plt.undef (unit * 16 + sort) (s.freeIx + 1), freeIx := s.freeIx + 128 }

def accLane (s : State) (unit x j : Nat) : Nat := KMap.get 0 s.plt.accs ((unit * 4 + x) * 128 + j)
def putAcc (unit x : Nat) (lanes : List Nat) (mode psn : Nat) (s : State) : State :=
  { s with
    plt.apsn := KMap.put 0 s.plt.apsn (unit * 4 + x) psn
    plt.f32 := KMap.put 0 s.plt.f32 (unit * 4 + x) mode
    plt.accs := (List.range 128).foldl (fun m j => KMap.put 0 m ((unit * 4 + x) * 128 + j) (lanes.getD j 0 % 2 ^ 48)) s.plt.accs }

/-- Lanes of 16 bits from 256 bytes, or from 128 bytes sign-extended. -/
def lanes16 (bs : Bytes) : List Nat := (List.range 128).map fun j => leAt bs (2 * j) 2
def lanes8 (bs : Bytes) : List Nat := (List.range 128).map fun j => ofInt 16 (sInt 8 (leAt bs j 1))

/-- The address a unit of a list uses for an own-granule command, and whether it is its own (R84). -/
def ownAddr (l : PltList) (w u : Nat) : Nat := cmdAddr w + (if l.gang then 64 * (u % 8) else 0)
def ownOk (k : Nat) (l : PltList) (w u : Nat) : Bool :=
  decide (offStack (ownAddr l w u) = k ∧ offPc (ownAddr l w u) = u ∧ ownAddr l w u < upperSize ∧
    (l.gang = true → bits (cmdAddr w) 6 3 = 0))

/-- Read `n` own granules, 512 bytes apart: their sectors, two a granule, each delivered or poison. -/
def ownGranules (part a : Nat) : Nat → State → List (Option Bytes) × State
  | 0, s => ([], s)
  | n + 1, s =>
    let (d, s) := readCover part a 64 s
    let (r, s) := ownGranules part (a + 512) n s
    (d ++ r, s)

/-- Write own granules, 512 bytes apart, each sector with fresh check symbols (R60), sector i poisoned where bit i of `psn` is
set. Galley lines wait for the fence or the end of the list (R109). -/
def putGranules (a : Nat) (bs : Bytes) (n psn : Nat) (s : State) : State :=
  (List.range n).foldl (fun s k =>
    let s := putSector (locOf s (a + 512 * k)) (slice bs (64 * k) 32) (bitOf psn (2 * k)) s
    putSector (locOf s (a + 512 * k + 32)) (slice bs (64 * k + 32) 32) (bitOf psn (2 * k + 1)) s) s

/-- A number whose bit i is set where `p i` holds, for i below `n`. -/
def maskBits (n : Nat) (p : Nat → Bool) : Nat := (List.range n).foldl (fun m i => if p i then m + 2 ^ i else m) 0

def execPltNop (stack unit : Nat) (s : State) : Host.Outcome State Fault Refusal :=
  .next (stepList 0x00 stack unit (fun _ r s => { s := s, run := r }) s)

/-- Run a command on every unit of its list, unless an address of it fails (R84): its low bits from bit 9, `low` of them, are
0, and each unit's granules are its own. -/
def onUnits (k low w : Nat) (f : CmdRes → Nat → CmdRes) (r : PltRun) (s : State) : CmdRes :=
  if bits (cmdAddr w) 9 low ≠ 0 ∨ (r.list.units.any fun u => !ownOk k r.list w u) then { s := s, run := r, fail := ST.PLT_ADDR }
  else r.list.units.foldl f { s := s, run := r }

/-- LDS on one unit of the list: a poisoned sector poisons the lanes that come from it (R84). -/
def ldsOn (k w : Nat) (acc : CmdRes) (u : Nat) : CmdRes :=
  let l := acc.run.list
  let half := bitOf (cmdFlags w) 0
  let (d, s) := ownGranules l.part (ownAddr l w u) (if half then 2 else 4) acc.s
  let bs := (d.map fun d => d.getD []).flatMap fun d => slice d 0 32
  let psn := maskBits 8 fun i => (d.getD (if half then i / 2 else i) none).isNone
  let s := putSort (64 * k + u) (cmdRd w) (if half then lanes8 bs else lanes16 bs) psn s
  if psn = 0 then { acc with s := s } else { s := s, run := { acc.run with poison := true }, fail := ST.POISON }

def execLds (stack unit : Nat) (s : State) : Host.Outcome State Fault Refusal :=
  .next (stepList 0x01 stack unit (fun w r s => onUnits stack 2 w (ldsOn stack w) r s) s)

/-- STS on one unit: a poisoned group of lanes is written as a poisoned sector. -/
def stsOn (k w : Nat) (acc : CmdRes) (u : Nat) : CmdRes :=
  let a := ownAddr acc.run.list w u
  let bs := (List.range 128).flatMap fun j => natLe 2 (sortLane acc.s (64 * k + u) (cmdRs w) j)
  let psn := sortPoison acc.s (64 * k + u) (cmdRs w)
  { acc with s := putGranules a bs 4 psn acc.s
             run := { acc.run with poison := acc.run.poison || psn != 0, wrote := acc.run.wrote ++ (List.range 4).map fun i => a + 512 * i } }

def execSts (stack unit : Nat) (s : State) : Host.Outcome State Fault Refusal :=
  .next (stepList 0x02 stack unit (fun w r s => onUnits stack 2 w (stsOn stack w) r s) s)

/-- PUTS takes 256 or 128 bytes from the stream into every unit of the list. -/
def execPuts (stack unit : Nat) (s : State) : Host.Outcome State Fault Refusal :=
  .next (stepList 0x03 stack unit (fun w r s =>
    let half := bitOf (cmdFlags w) 0
    let n := if half then 128 else 256
    let bs := r.list.stream.take n
    if bs.length < n then { s := s, run := r, fail := ST.PLT_LIST_FORMAT }
    else
      { s := r.list.units.foldl (fun s u => putSort (64 * stack + u) (cmdRd w) (if half then lanes8 bs else lanes16 bs) 0 s) s
        run := { r with list := { r.list with stream := r.list.stream.drop n } } }) s)

/-- XCLR clears the flagged accumulators in INT mode. -/
def execXclr (stack unit : Nat) (s : State) : Host.Outcome State Fault Refusal :=
  .next (stepList 0x04 stack unit (fun w r s =>
    { s := r.list.units.foldl (fun s u =>
        (bitList (cmdFlags w) 4).foldl (fun s x => putAcc (64 * stack + u) x [] 0 0 s) s) s
      run := r }) s)

/-- The 32-bit word STX stores for a lane: F32 bits as they are, INT saturated to the signed 32-bit range. -/
def stxWord (mode v : Nat) : Nat :=
  if mode = 1 then v % 2 ^ 32
  else ofInt 32 (max (-(2 ^ 31)) (min (2 ^ 31 - 1) (sInt 48 v)))

/-- STX on one unit: a poisoned group of 16 lanes is written as two poisoned sectors. -/
def stxOn (k w : Nat) (acc : CmdRes) (u : Nat) : CmdRes :=
  let a := ownAddr acc.run.list w u
  let x := cmdRs w % 4
  let mode := KMap.get 0 acc.s.plt.f32 ((64 * k + u) * 4 + x)
  let bs := (List.range 128).flatMap fun j => natLe 4 (stxWord mode (accLane acc.s (64 * k + u) x j))
  let psn := accPoison acc.s (64 * k + u) x
  { acc with s := putGranules a bs 8 (maskBits 16 fun i => bitOf psn (i / 2)) acc.s
             run := { acc.run with poison := acc.run.poison || psn != 0, wrote := acc.run.wrote ++ (List.range 8).map fun i => a + 512 * i } }

def execStx (stack unit : Nat) (s : State) : Host.Outcome State Fault Refusal :=
  .next (stepList 0x05 stack unit (fun w r s => onUnits stack 3 w (stxOn stack w) r s) s)

/-- R88 on one unit: `mism` mismatches in a row, one more when one is injected: the lane operation is repeated once, which is a
corrected record, and a second mismatch poisons the output. Answers whether the output is poisoned. -/
def residue (k u mism : Nat) (r : PltRun) (s : State) : Bool × PltRun × State :=
  let inj := KMap.get 0 s.plt.inject (64 * k + u)
  let n := mism + inj
  let s := { s with plt.inject := KMap.put 0 s.plt.inject (64 * k + u) 0 }
  if n = 0 then (false, r, s)
  else
    let s := s.bump (PLT_CNT.COUNT 2) k
    if n = 1 then (false, { r with retried := true }, corrected (.platen k u) 2 (64 * k + u) (some r.list.part) 1 0 s)
    else
      let s := report (.platen k u) { sev := 2, subsys := 2, cause := Config.causeCode 3, unit := 64 * k + u,
                                      part := some r.list.part, status := ST.PLT_RESIDUE, action := 2 } (s.bump (PLT_CNT.COUNT 3) k)
      (true, { r with retried := true, poison := true }, s)

/-- R78: exact products and sums modulo 2^48 of sign-extended lanes. -/
def vmacLane (a x y : Nat) : Nat := ofInt 48 (sInt 48 a + sInt 16 x * sInt 16 y)

/-- R88 on every unit of a list, the mismatches that the command meets on its first: the units whose outputs are poisoned. -/
def residues (k mism : Nat) (r : PltRun) (s : State) : List Nat × PltRun × State :=
  r.list.units.foldl (fun (a : List Nat × PltRun × State) u =>
    let (bad, r', s) := residue k u (if u = r.list.first then mism else 0) a.2.1 a.2.2
    (if bad then a.1 ++ [u] else a.1, r', s)) ([], r, s)

/-- VMAC on one unit; the poison of either source, and a residue failure, poison what they reach. -/
def vmacOn (k w : Nat) (bad : List Nat) (s : State) (u : Nat) : State :=
  let un := 64 * k + u
  let x := cmdRd w % 4
  let psn := accPoison s un x ||| sortPoison s un (cmdRs w) ||| sortPoison s un (cmdArg w % 16)
  putAcc un x ((List.range 128).map fun j =>
    vmacLane (accLane s un x j) (sortLane s un (cmdRs w) j) (sortLane s un (cmdArg w % 16) j)) 0
    (if bad.contains u then 255 else psn) s

def execVmac (stack unit mism : Nat) (s : State) : Host.Outcome State Fault Refusal :=
  .next (stepList 0x06 stack unit (fun w r s =>
    let (bad, r, s) := residues stack mism r s
    { s := r.list.units.foldl (vmacOn stack w bad) s, run := r, fail := if bad.isEmpty then 0 else ST.PLT_RESIDUE }) s)

def parmH (w : Nat) : Nat := bits w 40 5
def parmHi (w : Nat) : Nat := bits w 29 11
def parmLo (w : Nat) : Nat := bits w 18 11

/-- Whether a PARM word is well formed. -/
def parmOk (w : Nat) : Bool :=
  decide (4 ≤ bits w 54 4 ∧ bits w 54 4 ≤ 6 ∧ 4 ≤ bits w 50 4 ∧ bits w 50 4 ≤ 6 ∧ bits w 45 3 ≤ 4 ∧
    parmH w ≤ 15 ∧ parmHi w ≤ 64 * 2 ^ bits w 45 3 ∧ parmLo w < parmHi w ∧ bits w 0 18 = 0)

/-- The chase leaves sorts 13–15 of its units undefined (R85). -/
def spoilChase (k set : Nat) (s : State) : State :=
  (List.range 8).foldl (fun s r =>
    spoilSort (64 * k + 8 * set + r) 15 (spoilSort (64 * k + 8 * set + r) 14 (spoilSort (64 * k + 8 * set + r) 13 s))) s

/-- A gang command, after which the chase's sorts are undefined whatever came of it (R85). -/
def chased (k : Nat) (f : Nat → PltRun → State → CmdRes) (w : Nat) (r : PltRun) (s : State) : CmdRes :=
  let c := f w r s
  { c with s := spoilChase k r.list.target c.s }

def parm (k : Nat) (w : Nat) (r : PltRun) (s : State) : CmdRes :=
  if parmOk w then { s := { s with plt.parms := KMap.put 0 s.plt.parms (8 * k + r.list.target) w }, run := r }
  else { s := s, run := r, fail := ST.PLT_LIST_FORMAT }

def execParm (stack unit : Nat) (s : State) : Host.Outcome State Fault Refusal :=
  .next (stepList 0x07 stack unit (chased stack (parm stack)) s)

/-- Heads per pass (Table 4.7), and sorts per head. -/
def sortsPerHead (g : Geo) : Nat := if g.d = 256 then 2 else 1
def scorePass (g : Geo) : Nat := if g.d = 256 then 6 else 12
/-- Value dimensions a unit holds. -/
def unitDims (g : Geo) : Nat := if g.vf = 4 then min g.d 64 else min g.d 128
def valuePass (g : Geo) : Nat := 512 / unitDims g

/-- Whether the address of a press command is an extent base in the gang's set (R84). -/
def extentOk (k set a : Nat) : Bool :=
  decide (offStack a = k ∧ offSet a = set ∧ bits a 6 3 = 0 ∧ a < upperSize)

/-- The rank of the unit that holds the key elements of a position's dimension block. -/
def keyRank (g : Geo) (p b : Nat) : Nat := (39 + elemBytes g.kf (p * g.d + 32 * b) / 64) % 8

/-- The score of one head at one position by R39, from the query lanes of the unit that holds the key granule. -/
def score (s : State) (k set : Nat) (g : Geo) (key ks : Bytes) (h' p : Nat) : Nat :=
  let c := sortsPerHead g
  orderedSum ((List.range (g.d / 32)).map fun b =>
    let i0 := p * g.d + 32 * b
    let unit := 64 * k + 8 * set + keyRank g p b
    let sum := (List.range 32).foldl (fun (acc : Int) j =>
      let i := 32 * b + j
      acc + sInt 16 (sortLane s unit (h' * c + i / 128) (i % 128)) * ival g.kf (elemAt g.kf key (i0 + j))) 0
    blockTerm 4 g.kf (sortLane s unit 12 (h' * (g.d / 32) + b)) (scaleAt g.kf ks (p * (g.d / 32) + b)) sum)

/-- Why a phase command of a list finds no hold (R97): the state was dropped, or was never this issuer's. -/
def holdFault (s : State) (k set : Nat) (l : PltList) : Nat :=
  let h := pltHold s (8 * k + set)
  if h.held ∧ h.issuer = l.issuer then
    if s.rd PLT_CFG.PHASE_TMO k * 1000 < l.arrived - h.since then ST.PHASE_LOST else 0
  else if h.lost = some l.issuer then ST.PHASE_LOST
  else ST.PLT_NO_HOLD

/-- A phase command of a former holder finds the state dropped (R97, R98, Table 4.8): a loss not counted yet is counted and
logged, and it is over. -/
def phaseLost (k set : Nat) (l : PltList) (s : State) : State :=
  let h := pltHold s (8 * k + set)
  let s := if h.held ∧ h.issuer = l.issuer then dropHold k set s else s
  let h := pltHold s (8 * k + set)
  let s := if h.uncounted then pltLog k ST.PHASE_LOST (8 * set) 255 l.part l.tag (s.bump (PLT_CNT.COUNT 4) k) else s
  s.setHold (8 * k + set) { h with lost := none, uncounted := false }

/-- Read a range of an extent for a press command: its bytes, zero in place of poison, and its poisoned sectors. -/
def pressRead (part off len : Nat) (s : State) : (Bytes × List Nat) × State :=
  let (l, s) := readCover part off len s
  (fillMarks off len l, s)

/-- Whether a range meets one of the sectors `bad`. -/
def meets (bad : List Nat) (off len : Nat) : Bool := bad.any fun b => decide (b < off + len ∧ off < b + 32)

/-- Elements and scales of positions `lo` to `n` − 1 of a plane of an extent, each at its place in the plane, with the
poisoned sectors. -/
def pressPlane (part base elemOff scaleOff fmt d lo n : Nat) (s : State) : (Bytes × Bytes × List Nat) × State :=
  let e := elemBytes fmt (lo * d)
  let c := lo * (d / 32) * scaleBytes fmt
  let (el, s) := pressRead part (base + elemOff + e) (elemBytes fmt (n * d) - e) s
  let (sc, s) := pressRead part (base + scaleOff + c) (n * (d / 32) * scaleBytes fmt - c) s
  ((List.replicate e 0 ++ el.1, List.replicate c 0 ++ sc.1, el.2 ++ sc.2), s)

/-- Whether a poisoned sector reaches the elements or scales of a position of a plane. -/
def planeBad (bad : List Nat) (base elemOff scaleOff fmt d p : Nat) : Bool :=
  meets bad (base + elemOff + elemBytes fmt (p * d)) (elemBytes fmt d) ||
  meets bad (base + scaleOff + p * (d / 32) * scaleBytes fmt) (d / 32 * scaleBytes fmt)

/-- Whether poison reaches a head's queries or query scales in some unit of a gang. -/
def queryBad (s : State) (k set : Nat) (g : Geo) (h' : Nat) : Bool :=
  (List.range 8).any fun r =>
    let un := 64 * k + 8 * set + r
    sortPoison s un 12 != 0 || (List.range (sortsPerHead g)).any fun i => sortPoison s un (h' * sortsPerHead g + i) != 0

/-- The scores of a pass in the order of R86, each with whether it is poisoned. -/
def scores (s : State) (k set : Nat) (g : Geo) (key ks : Bytes) (bad : Nat → Nat → Bool) (lo hi n np : Nat) : List (Nat × Bool) :=
  ((List.range hi).drop lo).flatMap fun p => (List.range np).map fun h' =>
    if n ≤ p then (minusInf32, false) else (score s k set g key ks h' p, bad h' p)

/-- Stream words out of a list, with those that are poisoned. -/
def PltRun.stream (r : PltRun) (ws : List (Nat × Bool)) : PltRun :=
  { r with outs := r.outs ++ ws.flatMap fun w => natLe 4 w.1
           outsBad := r.outsBad ++ (ws.zipIdx.filter fun w : (Nat × Bool) × Nat => w.1.2).map fun w => r.outs.length / 4 + w.2
           poison := r.poison || ws.any (·.2) }

/-- Why a PSCORE fails before it reads (R84, R85, R97). A late pass of a former holder after its first is no new press;
DEDUCED: one from head 0 on is, since the spec names no other mark of a new press. -/
def pscoreRefusal (s : State) (k w : Nat) (l : PltList) : Nat :=
  let pw := KMap.get 0 s.plt.parms (8 * k + l.target)
  let h := pltHold s (8 * k + l.target)
  if ¬ extentOk k l.target (cmdAddr w) then ST.PLT_ADDR
  else if pw = 0 ∨ parmH pw < cmdArg w % 32 then ST.PLT_LIST_FORMAT
  else if h.held ∧ h.issuer = l.issuer ∧ s.rd PLT_CFG.PHASE_TMO k * 1000 < l.arrived - h.since then ST.PHASE_LOST
  else if ¬ h.held ∧ h.lost = some l.issuer ∧ cmdArg w % 32 ≠ 0 then ST.PHASE_LOST
  else 0

/-- PSCORE (R86): a poisoned sector, or a residue failure, poisons the scores that come from it and the others stand (R84,
R88). -/
def pscore (k mism : Nat) (w : Nat) (r : PltRun) (s : State) : CmdRes :=
  let l := r.list
  let set := l.target
  let base := cmdAddr w
  let pw := KMap.get 0 s.plt.parms (8 * k + set)
  let g := parmGeo pw
  let hf := cmdArg w % 32
  let np := min (scorePass g) (parmH pw + 1 - hf)
  match pscoreRefusal s k w l with
  | st + 1 => { s := if st + 1 = ST.PHASE_LOST then phaseLost k set l s else s, run := r, fail := st + 1 }
  | 0 =>
    let (hb, s) := readArray l.part base 64 s
    match hb with
    | none => { s := s, run := { r with poison := true }, fail := ST.POISON }
    | some hb =>
      let hd := Hdr.ofBytes hb
      if hd.kerned ∨ hd.sealed then { s := s.bump (PLT_CNT.COUNT 4) k, run := r, fail := ST.PLT_NOT_OPEN }
      else
        let n := min (parmHi pw) hd.fill
        let ((key, ks, psn), s) := pressPlane l.part base bodyOff (bodyOff + g.keyScaleOff) g.kf g.d (parmLo pw) n s
        let (bad, r, s) := residues k mism r s
        let fails h' p := queryBad s k set g h' || planeBad psn base bodyOff (bodyOff + g.keyScaleOff) g.kf g.d p ||
          (List.range (g.d / 32)).any fun b => bad.contains (8 * set + keyRank g p b)
        let r := r.stream (scores s k set g key ks fails (parmLo pw) (parmHi pw) n np)
        let s := s.setHold (8 * k + set)
          { held := true, issuer := l.issuer, part := l.part, n := n, since := s.now, hFirst := hf, nPass := np }
        { s := s, run := r, fail := if ¬ bad.isEmpty then ST.PLT_RESIDUE else if ¬ psn.isEmpty then ST.POISON else 0 }

def execPscore (stack unit mism : Nat) (s : State) : Host.Outcome State Fault Refusal :=
  .next (stepList 0x08 stack unit (chased stack (pscore stack mism)) s)

/-- The accumulator and lane that hold head `h'` and dimension `i` on a unit. -/
def accPlace (g : Geo) (h' i : Nat) : Nat := h' * unitDims g + i % unitDims g

/-- The rank of the unit that holds the value element of a position and dimension. -/
def valRank (g : Geo) (p i : Nat) : Nat := (39 + (g.valOff + elemBytes g.vf (p * g.d + i)) / 64) % 8

/-- One step of R87 on an accumulator: a weight of 0 adds exactly +0. -/
def pwStep (g : Geo) (a wt sc : Nat) (iv : Int) : Nat :=
  if wt = 0 then fadd a posZero
  else
    let c := ((scaleVal g.vf sc).mul (fOf g.vf)).mul (.pow2 (-16))
    fadd a (rn32 (c.mul (Num.ofInt (wt * iv))))

/-- The new value of one accumulator lane of a unit (R87). -/
def pwLane (g : Geo) (rank lo n np : Nat) (val vs ws : Bytes) (h' i old : Nat) : Nat :=
  ((List.range n).drop lo).foldl (fun a p =>
    if valRank g p i = rank then
      pwStep g a (leAt ws (2 * ((p - lo) * np + h')) 2) (scaleAt g.vf vs (p * (g.d / 32) + i / 32))
        (ival g.vf (elemAt g.vf val (p * g.d + i)))
    else a) old

/-- Whether a unit holds the value elements of some position at a dimension. -/
def holdsDim (g : Geo) (rank i : Nat) : Bool := (List.range g.span).any fun p => decide (valRank g p i = rank)

/-- The dimension whose sum a lane of a unit holds, and its head within the pass: lane `q` of 512. -/
def laneDim (g : Geo) (rank q : Nat) : Option Nat :=
  ((List.range g.d).filter fun i => decide (i % unitDims g = q % unitDims g) && holdsDim g rank i).head?

/-- The groups of an accumulator of a unit that poisoned sectors reach (R84). -/
def pwPoison (g : Geo) (base rank lo n np x : Nat) (psn : List Nat) : Nat :=
  if psn.isEmpty then 0
  else maskBits 8 fun c => (List.range 16).any fun e =>
    let q := x * 128 + 16 * c + e
    decide (q / unitDims g < np) &&
    (match laneDim g rank q with
     | none => false
     | some i => ((List.range n).drop lo).any fun p => valRank g p i == rank &&
         planeBad psn base (bodyOff + g.valOff) (bodyOff + g.valScaleOff) g.vf g.d p)

/-- The new lanes of a unit's accumulators (R87). A lane that the pass does not use keeps its FP32 bits. -/
def pwUnit (s : State) (g : Geo) (un rank lo n np : Nat) (val vs ws : Bytes) (keep : Bool) (x j : Nat) : Nat :=
  let q := x * 128 + j
  let h' := q / unitDims g
  match laneDim g rank q with
  | some i =>
    if h' < np then pwLane g rank lo n np val vs ws h' i (if keep then accLane s un x j % 2 ^ 32 else posZero)
    else accLane s un x j % 2 ^ 32
  | none => accLane s un x j % 2 ^ 32

/-- PWACC (R87). The accumulators are left in F32 mode. DESIGN CHOICE: all four of every unit are, those the pass does not use
included. A poisoned sector, or a residue failure, poisons the sums that come from it (R84, R88). -/
def pwacc (k mism : Nat) (w : Nat) (r : PltRun) (s : State) : CmdRes :=
  let l := r.list
  let set := l.target
  let base := cmdAddr w
  let pw := KMap.get 0 s.plt.parms (8 * k + set)
  let g := parmGeo pw
  let hf := cmdArg w % 32
  let np := min (valuePass g) (parmH pw + 1 - hf)
  let lo := parmLo pw
  let h := pltHold s (8 * k + set)
  if ¬ extentOk k set base then { s := s, run := r, fail := ST.PLT_ADDR }
  else if holdFault s k set l ≠ 0 then
    let f := holdFault s k set l
    { s := if f = ST.PHASE_LOST then phaseLost k set l s else s, run := r, fail := f }
  else if pw = 0 ∨ parmH pw < hf ∨ l.stream.length < 2 * np * (parmHi pw - lo) then
    { s := s, run := r, fail := ST.PLT_LIST_FORMAT }
  else
    let ws := l.stream.take (2 * np * (parmHi pw - lo))
    let ((val, vs, psn), s) := pressPlane l.part base (bodyOff + g.valOff) (bodyOff + g.valScaleOff) g.vf g.d lo h.n s
    let r := { r with list := { l with stream := l.stream.drop (2 * np * (parmHi pw - lo)) } }
    let (bad, r, s) := residues k mism r s
    let keep := bitOf (cmdFlags w) 0
    let s := (List.range 8).foldl (fun s rank =>
      let un := 64 * k + 8 * set + rank
      let new := (List.range 4).map fun x => (List.range 128).map fun j => pwUnit s g un rank lo h.n np val vs ws keep x j
      let psns := (List.range 4).map fun x => if bad.contains (8 * set + rank) then 255
        else (if keep then accPoison s un x else 0) ||| pwPoison g base rank lo h.n np x psn
      (List.range 4).foldl (fun s x => putAcc un x (new.getD x []) 1 (psns.getD x 0) s) s) s
    { s := s.setHold (8 * k + set) { h with hFirst := hf, nPass := np }
      run := { r with poison := r.poison || !psn.isEmpty }
      fail := if ¬ bad.isEmpty then ST.PLT_RESIDUE else if ¬ psn.isEmpty then ST.POISON else 0 }

def execPwacc (stack unit mism : Nat) (s : State) : Host.Outcome State Fault Refusal :=
  .next (stepList 0x09 stack unit (chased stack (pwacc stack mism)) s)

/-- XOUT (R87): the ranks' accumulators in ascending rank, h ascending, i ascending within h; a word that a poisoned group
reaches is poisoned. DESIGN CHOICE: it streams the heads of the holder's last pass, of scores where no PWACC has come between; and
an issuer whose state was dropped meets ST_PHASE_LOST. -/
def xout (k : Nat) (w : Nat) (r : PltRun) (s : State) : CmdRes :=
  let set := r.list.target
  let h := pltHold s (8 * k + set)
  let g := parmGeo (KMap.get 0 s.plt.parms (8 * k + set))
  if ¬ (h.held ∧ h.issuer = r.list.issuer) then
    if h.lost = some r.list.issuer then { s := phaseLost k set r.list s, run := r, fail := ST.PHASE_LOST }
    else { s := s, run := r, fail := ST.PLT_NO_HOLD }
  else
    let words := (List.range h.nPass).flatMap fun h' => (List.range g.d).map fun i =>
      let q := accPlace g h' i
      let ranks := (List.range 8).filter fun rank => holdsDim g rank i
      (orderedSum (ranks.map fun rank => accLane s (64 * k + 8 * set + rank) (q / 128) (q % 128) % 2 ^ 32),
       ranks.any fun rank => bitOf (accPoison s (64 * k + 8 * set + rank) (q / 128)) (q % 128 / 16))
    let s := if bitOf (cmdFlags w) 0 then s.setHold (8 * k + set) {} else s.setHold (8 * k + set) { h with since := s.now }
    { s := s, run := r.stream words }

def execXout (stack unit : Nat) (s : State) : Host.Outcome State Fault Refusal :=
  .next (stepList 0x0A stack unit (chased stack (xout stack)) s)

/-- Invalidate the galley lines of the granules a list has written (R109). -/
def flushWrote (r : PltRun) (s : State) : PltRun × State :=
  ({ r with wrote := [] }, r.wrote.foldl (fun s a => galInvalidate a s) s)

/-- FENCE (R93): every earlier write is in the arrays, and the lines of their rows are invalid (R109). -/
def execFence (stack unit : Nat) (s : State) : Host.Outcome State Fault Refusal :=
  .next (stepList 0x0E stack unit (fun _ r s =>
    let (r, s) := flushWrote r s
    { s := s.bump (PLT_CNT.COUNT 6) stack, run := r }) s)

/-- R88: a write of GO forces one mismatch in the next lane operation of UNIT. -/
def execPltResInj (stack value : Nat) (s : State) : Host.Outcome State Fault Refusal :=
  if bitOf value 6 then .next { s with plt.inject := KMap.put 0 s.plt.inject (64 * stack + bits value 0 6) 1 } else .next s

/-- End the claim of a list and serve the accesses that waited on it. -/
def releaseClaims (k u part : Nat) (s : State) : State :=
  pltStatus k (serveWaiting k (setClaims (64 * k + u) part [] s))

/-- Retire a list whose commands are over (R83): its record, and the state without it. -/
def retireList (k u : Nat) (s : State) : Option PltDone × State :=
  match pltRun? s (64 * k + u) with
  | none => (none, s)
  | some r =>
    if ¬ r.ended then (none, s)
    else
      let l := r.list
      let (r, s) := flushWrote r s
      let s := { s with plt.runs := KMap.erase s.plt.runs (64 * k + u) }
      let s := leaveGang (8 * k + l.gangOf) s
      let s := s.bump (PLT_CNT.COUNT 0) k
      let s := if r.status = 0 then s else pltLog k r.status l.first r.cmdIndex l.part l.tag s
      (some { issuer := l.issuer, tag := l.tag, status := r.status, cmdIndex := r.cmdIndex, retried := r.retried,
              poison := r.poison, preempted := r.preempted, cycles := (s.now - r.start) * 6 / 5, outs := r.outs,
              outsBad := r.outsBad },
        releaseClaims k u l.part s)

/-- 4,800 platen cycles in ns. -/
def pltBudgetNs : Nat := 4000

/-- R91: a list still running 4,800 cycles after its start is suspended, and the accesses that wait on its claims are
served. -/
def execPlatenPreempt (stack unit : Nat) (s : State) : Host.Outcome State Fault Refusal :=
  match pltRun? s (64 * stack + unit) with
  | none => .next s
  | some r =>
    if r.ended ∨ r.suspended ∨ s.now < r.budget + pltBudgetNs then .next s
    else
      let s := (s.setRun (64 * stack + unit) { r with suspended := true, preempted := true }).bump (PLT_CNT.COUNT 1) stack
      .next (releaseClaims stack unit r.list.part s)

/-- R91: the unit claims the rows again and resumes with a new budget. -/
def execPlatenResume (stack unit : Nat) (s : State) : Host.Outcome State Fault Refusal :=
  match pltRun? s (64 * stack + unit) with
  | none => .next s
  | some r =>
    if ¬ r.suspended then .next s
    else
      let s := s.setRun (64 * stack + unit) { r with suspended := false, budget := s.now }
      .next (pltStatus stack (setClaims (64 * stack + unit) r.list.part (listRows r.list) s))

/-- Whether a list of the holder that carries a PSCORE or PWACC still to run has arrived within PHASE_TMO of the timer's start
(R97). -/
def inTime (s : State) (k set : Nat) : Bool :=
  let h := pltHold s (8 * k + set)
  let ok (l : PltList) (from_ : Nat) : Bool :=
    l.gang && l.target == set && l.issuer == h.issuer && decide (l.arrived - h.since ≤ s.rd PLT_CFG.PHASE_TMO k * 1000) &&
    (l.words.drop from_).any fun w => cmdOp w == 0x08 || cmdOp w == 0x09
  ((pltList s k).any fun l => ok l 0) || match pltRun? s (64 * k + 8 * set) with
    | some r => !r.ended && ok r.list r.pos
    | none => false

end Sys2Proof.Machine
end

