-- ==== Sys2Proof/Machine/Fence.lean ====
section
/-!
DEFINITION. Partition reset (R331–R333), the fences of R375–R380, zeroization (R362) and the alarms (R360–R363).
-/
namespace Sys2Proof.Machine

/-! Partition reset (R332). -/

/-- The root of a ream ends it without reissue: its attempt stops with an ABORT, and its colophon goes out. -/
def rootEnd (r : Ream) (status : Nat) (s : State) : State :=
  let k := attKey r.part r.ream 0 false
  let s := stopAttempt k status 0 true (chargeColophon k r.src r.ticket s)
  let s := match sigOf? s (tktSig r.ticket) r.part with
    | some d =>
      let m : AbortMsg := { ream := r.ream, step := tktStep r.ticket, attempt := r.attempt, status := status,
                            standin := d.standin, epoch := d.epoch, sig := d.sig }
      sendAborts r.part 0 true m d none 0x10000 (noteAbort r.part m true s).2
    | none => s
  completeReam r status 0xFFFF 0 s

/-- Step 2: the attempts, reams, press holds and queued platen lists of a partition. -/
def resetWork (p : Nat) (s : State) : State :=
  let s := (s.col.reams.filter fun e => e.2.part = p).foldl (fun s e => rootEnd e.2 ST.PRT_RESET s) s
  let s := (s.col.atts.filter fun e => e.2.part = p).foldl (fun s e => failAtt e.1 ST.PRT_RESET s) s
  let s := (s.plt.holds.filter fun e => e.2.held && e.2.part == p).foldl (fun s e => dropHold (e.1 / 8) (e.1 % 8) s) s
  gangsServe (dropQueued (fun l => l.part == p) s)

/-- Step 3: every active region entry of a partition becomes revoking (R272). -/
def revokePart (p : Nat) (s : State) : State :=
  { s with rch.regs := s.rch.regs.map fun e => if e.2.part = p ∧ e.2.state = 1 then (e.1, { e.2 with state := 2 }) else e }

def srcPart (p : Nat) : CmdSrc → Bool
  | .reg => false
  | .host q _ _ => q == p

/-- Step 4: the descriptors of a partition are ended, with what they wait for. -/
def dropJobs (p : Nat) (s : State) : State :=
  { s with job.jobs := s.job.jobs.filter (fun j => j.part ≠ p)
           flo.waiting := s.flo.waiting.filter (fun w => !srcPart p w.1)
           col.waiting := s.col.waiting.filter (fun w => !srcPart p w.1)
           col.held := s.col.held.filter (fun w => !srcPart p w.1)
           rch.cmds := s.rch.cmds.filter (fun w => !srcPart p w.1)
           rch.tx := s.rch.tx.map fun e => (e.1, { e.2 with waitq := e.2.waitq.filter fun q => q.part ≠ p ∨ q.owner = .none }) }

/-- Step 5: pending interrupts are dropped and counted. -/
def dropIrqs (p : Nat) (s : State) : State :=
  let n := popCount (KMap.get 0 s.hst.msixPend p) 64 + (s.hst.unsig.filter fun e => e.1 / 8 = p).length
  { s with hst.msixPend := KMap.erase s.hst.msixPend p, hst.unsig := s.hst.unsig.filter fun e => e.1 / 8 ≠ p }.bumpBy
    HST_PRT_IRQ.PRT_IRQ_DROP_CNT p n

/-- Step 6: the key slots of a partition enter the first phase of retirement. -/
def retirePart (p : Nat) (s : State) : State := retireAll (fun k => k.part == p) s

/-- Start a partition reset, or merge with the one that runs (R331); steps 1 to 6. -/
def resetStart (p : Nat) (retire own : Bool) (s : State) : State :=
  if s.flag HST_PRT_STS.RST_BUSY p then
    if retire ∧ ¬ s.hst.rstRetire.contains p then retirePart p { s with hst.rstRetire := p :: s.hst.rstRetire } else s
  else
    let s := s.wr HST_PRT_STS.RST_BUSY p 1
    let s := { s with hst.flrOwn := if own then p :: s.hst.flrOwn else s.hst.flrOwn,
                      hst.rstRetire := if retire then p :: s.hst.rstRetire else s.hst.rstRetire }
    let s := dropIrqs p (dropJobs p (revokePart p (resetWork p s)))
    if retire then retirePart p s else s

/-- A submission ring returns to disabled, with its head, tail and errors cleared. -/
def clearSq (p q : Nat) (s : State) : State :=
  let s := (((s.wr (HST_SQ_CFG.EN q) p 0).wr (HST_SQ_STS.HEAD q) p 0).wr (HST_SQ_STS.ERR q) p 0).wr (HST_SQ_STS.ERR_KIND q) p 0
  { s with hst.sqTail := KMap.erase s.hst.sqTail (8 * p + q), hst.waits := KMap.erase s.hst.waits (8 * p + q) }

def clearCq (p q : Nat) (s : State) : State :=
  let s := (((s.wr (HST_CQ_CFG.EN q) p 0).wr (HST_CQ_STS.TAIL q) p 0).wr (HST_CQ_STS.ERR q) p 0).wr (HST_CQ_STS.PHASE q) p 1
  { s with hst.cqHead := KMap.erase s.hst.cqHead (8 * p + q) }

/-- R332, step 7: the reset of a partition is complete. -/
def execPartitionResetComplete (part : Nat) (s : State) : Host.Outcome State Fault Refusal :=
  if ¬ s.flag HST_PRT_STS.RST_BUSY part then .next s
  else
    let own := s.hst.flrOwn.contains part
    let s := (List.range 8).foldl (fun s q => clearCq part q (clearSq part q s)) s
    let s := { s with hst.flrOwn := s.hst.flrOwn.filter (· ≠ part), hst.rstRetire := s.hst.rstRetire.filter (· ≠ part) }
    let s := s.wr HST_PRT_STS.RST_BUSY part 0
    .next (if own then s else signal part 63 s)

/-! Fences. -/

/-- A partition fence (R377): partition 0 cannot be fenced. -/
def fencePart (p : Nat) (s : State) : State :=
  if p = 0 ∨ 32 ≤ p ∨ partFenced s p then s
  else
    let s := (s.raise RAS_PFENCE_STS.FENCED 0 (2 ^ p)).bump (RAS_CNT.COUNT 6)
    let s := resetStart p false false s
    (List.range 64).foldl (fun s b => if blockOwner s b = some p then gateShut b s else s) s

/-- A region fence (R376). Accesses that wait at its stacks are refused with those that come (R65). -/
def fenceRegion (r : Nat) (s : State) : State :=
  if regionFenced s r then s
  else
    let s := (s.raise RAS_RFENCE_STS.FENCED 0 (2 ^ r)).bump (RAS_CNT.COUNT 6)
    let s := (List.range 16).foldl (fun s b => if blkFenced s (16 * r + b) then s else fenceBlock (16 * r + b) s) s
    let s := gangsServe (dropStack (2 * r + 1) (dropStack (2 * r) s))
    let s := serveWaiting (2 * r + 1) (serveWaiting (2 * r) s)
    galDrop r (fun _ _ => true) s

/-- An orderly node fence (R378). A node that is fenced stays as it is. -/
def fenceNode (cause : Nat) (s : State) : State :=
  if s.rd RAS_NODE_STS.STATE = 3 then s
  else
    let s := ((s.wr RAS_NODE_STS.STATE 0 3).wr RAS_NODE_STS.FENCE_CAUSE 0 cause).bump (RAS_CNT.COUNT 6)
    let s := s.col.atts.foldl (fun s e => failAtt e.1 ST.FENCED s) s
    let s := (List.range 64).foldl (fun s b => gateShut b s) s
    if s.flag RAS_CFG.FENCE_LINKS then (List.range 24).foldl (fun s c => portFall c 0 0 s) s else s

/-- R377: RAS_FENCE_CMD with KIND 1. -/
def execPartitionFence (part : Nat) (s : State) : Host.Outcome State Fault Refusal := .next (fencePart part s)

/-- R376: RAS_FENCE_CMD with KIND 2. -/
def execRegionFence (region : Nat) (s : State) : Host.Outcome State Fault Refusal :=
  if region < 4 then .next (fenceRegion region s) else .next s

/-- R378: RAS_FENCE_CMD with KIND 3. -/
def execNodeFence (s : State) : Host.Outcome State Fault Refusal := .next (fenceNode 4 s)

/-- R380: a write of ones to RAS_PFENCE_STS lifts the fences of partitions whose reset has ended. -/
def liftFences (mask : Nat) (s : State) : State :=
  (bitList mask 32).foldl (fun s p =>
    if s.flag HST_PRT_STS.RST_BUSY p then s
    else s.wr RAS_PFENCE_STS.FENCED 0 (clrBit (s.rd RAS_PFENCE_STS.FENCED) p)) s

def execPartitionUnfence (mask : Nat) (s : State) : Host.Outcome State Fault Refusal := .next (liftFences mask s)

/-! Zeroization and alarms. -/

/-- Zeroization (R362): every key is erased, protected links fall, IDE streams stop, and the latch is set. -/
def zeroize (s : State) : State :=
  let s := retireAll (fun _ => true) s
  let s := (List.range 24).foldl (fun s c =>
    if portProt s c ∧ (s.rd FAB_PORT_STS.STATE c = 4 ∨ s.rd FAB_PORT_STS.STATE c = 3) then portFall c 5 5 s else s) s
  let ide := List.filterMap (fun e : Nat × IdeSt => if e.2.go ∨ e.2.stop then some (e.1, { stop := true }) else none) s.key.ide
  { s.wr HST_LINK_STS.IDE 0 0 with key.links := [], key.ide := ide, key.aliasKey := none, key.zeroized := true }

/-- The level of a source under the alarm table. -/
def alarmLevel (s : State) (src : Nat) : Nat := s.rd (RSP_ALARM_LVL.LVL src)

/-- Log one source (R361): its bit, RSP_ALARM_LOG, the count, and the report. -/
def alarmLog (src lvl : Nat) (s : State) : State :=
  let s := (s.raise RSP_ALARM_STS.SRC 0 (2 ^ src)).wr RSP_ALARM_LOG.SRC 0 src
  let s := ((s.wr RSP_ALARM_LOG.LEVEL 0 lvl).bump RSP_ALARM_LOG.COUNT).bump (RSP_CNT.COUNT 7)
  report .chip { sev := if lvl = 0 then 0 else 2, subsys := 17, cause := Config.causeCode (100 + src),
                 action := if lvl = 0 then 0 else if lvl = 1 then 5 else 6 } s

/-- The response at a level. -/
def alarmAct (lvl : Nat) (part : Option Nat) (s : State) : State :=
  match lvl with
  | 0 => s
  | 1 => match part with
    | some p => fencePart p s
    | none => s
  | 2 => fenceNode 2 s
  | _ => fenceNode 2 (zeroize s)

/-- The level still to be carried out for a source: none where one as high was while its bit has been set. -/
def alarmOwed (s : State) (src lvl : Nat) : Nat :=
  if bitOf (s.rd RSP_ALARM_STS.SRC) src ∧ lvl + 1 ≤ KMap.get 0 s.key.carried src then 0 else lvl

/-- A source is logged, with the highest level carried out for it while its bit is set. -/
def alarmRaise (src lvl : Nat) (s : State) : State :=
  let was := if bitOf (s.rd RSP_ALARM_STS.SRC) src then KMap.get 0 s.key.carried src else 0
  let s := alarmLog src lvl s
  { s with key.carried := KMap.put 0 s.key.carried src (max was (lvl + 1)) }

/-- Sources are raised together (R361): each is logged, and the highest level among them is carried out. -/
def alarm (srcs : List Nat) (part : Option Nat) (s : State) : State :=
  let lvl := srcs.foldl (fun m i => max m (alarmOwed s i (alarmLevel s i))) 0
  alarmAct lvl part (srcs.foldl (fun s i => alarmRaise i lvl s) s)

/-- R361: sources of a mask are raised; AUTH_PART names a partition. -/
def execAlarm (mask part : Nat) (s : State) : Host.Outcome State Fault Refusal :=
  if mask % 256 = 0 then .next s else .next (alarm (bitList mask 8) (some part) s)

/-- R363: a write to RSP_ALARM_TEST: the named source is raised and answered at level 0. -/
def execAlarmTest (value : Nat) (s : State) : Host.Outcome State Fault Refusal :=
  if bitOf value 7 then .next (alarmRaise (bits value 0 3) 0 s) else .next s

/-- R362: a write to RSP_ZEROIZE: 0x5A zeroizes, and the node is fenced. -/
def execZeroizeConfirm (value : Nat) (s : State) : Host.Outcome State Fault Refusal :=
  if value % 256 = 0x5A then .next (fenceNode 4 (zeroize s)) else .next s

/-- The failures within the last second, this one included (R360). -/
def lastSecond (s : State) (l : List Nat) : List Nat := (l.filter fun t => decide (s.now < t + 1000000000)) ++ [s.now]

/-- An authentication failure of the node. -/
def authFailNode (s : State) : State :=
  let l := lastSecond s s.key.nodeFails
  let s := { s with key.nodeFails := l }.bump (RSP_CNT.COUNT 4)
  if s.rd RSP_AUTH_CFG.FAIL_MAX < l.length then alarm [6] none s else s

/-- An authentication failure of a session that claims a partition's key broker. -/
def authFailPart (p : Nat) (s : State) : State :=
  let l := lastSecond s (KMap.get [] s.key.partFails p)
  let s := { s with key.partFails := KMap.insert s.key.partFails p l }.bump (RSP_CNT.COUNT 5)
  if s.rd RSP_AUTH_CFG.FAIL_MAX < l.length then alarm [7] (some p) s else s

/-! Key messages. -/

/-- A key message is answered in its session, when that is established with mutual authentication (R342, R347). At debug
level 2 every KEY_LOAD is refused (R459). -/
def keyStep (session op : Nat) (msg : Bytes) (act : KeyMsg → State → Nat × State) (s : State) : State :=
  match KMap.find? s.key.sessions session with
  | none => s
  | some x =>
    if ¬ rspRuns s then s else
    let s := { s with key.sessions := KMap.insert s.key.sessions session { x with last := s.now } }
    if s.key.zeroized then s.emit (.spdmAns session (.error .unspecified))
    else if ¬ x.done ∨ ¬ x.mauth then s.emit (.spdmAns session (.error .unsupportedRequest))
    else if leAt msg 0 1 ≠ op then s
    else
      let m := keyMsg msg
      let (st, s) := if op = 1 ∧ s.rd MGT_STS.DEBUG_LVL = 2 then (ST.KEY_AUTH, s)
        else match keyRefuse s x msg with
        | some st => (st, if st = ST.KEY_AUTH then authFailPart m.part s else s)
        | none => act m s
      s.emit (.spdm session (keyAnswer op st m.slot s))

/-- The last rows of Table 15.5: the slot opens under the key. -/
def keyLoad (m : KeyMsg) (s : State) : Nat × State :=
  let k := keySlot s m.slot
  if k.state = 1 ∨ k.state = 2 then (ST.KEY_BUSY, s)
  else if m.gen < k.floor then (ST.KEY_GEN, s)
  else (ST.OK, (s.setKeySlot m.slot { k with state := 1, gen := m.gen, part := m.part, key1 := m.key1, key2 := m.key2 }).bump
    (RSP_CNT.COUNT 0))

def keyRetire (m : KeyMsg) (s : State) : Nat × State :=
  let k := keySlot s m.slot
  if k.state = 1 ∧ k.part ≠ m.part then (ST.KEY_SLOT, s) else (ST.OK, retireSlot m.slot s)

def keyQuery (_ : KeyMsg) (s : State) : Nat × State := (ST.OK, s)

/-- R347: KEY_LOAD. -/
def execKeyLoad (session : Nat) (msg : Bytes) (s : State) : Host.Outcome State Fault Refusal :=
  .next (keyStep session 1 msg keyLoad s)

/-- R349: KEY_RETIRE. -/
def execKeyRetire (session : Nat) (msg : Bytes) (s : State) : Host.Outcome State Fault Refusal :=
  .next (keyStep session 2 msg keyRetire s)

/-- R347: KEY_QUERY. -/
def execKeyQuery (session : Nat) (msg : Bytes) (s : State) : Host.Outcome State Fault Refusal :=
  .next (keyStep session 3 msg keyQuery s)

/-- R349: a write to RSP_KEY_CMD retires the slot that the writer has selected. -/
def execRspKeyRetire (who : Requester) (value : Nat) (s : State) : Host.Outcome State Fault Refusal :=
  if bitOf value 31 then .next (retireSlot (s.rd RSP_KEY_SEL.SLOT (whoIx who)) s) else .next s

end Sys2Proof.Machine
end

