-- ==== Sys2Proof/Machine/Fabric.lean ====
section
/-!
DEFINITION. The fabric ports and the router (R236–R264): bring-up, the link envelope, meters, routing, priority
pause, egress order, shapers and gate control lists.
-/
namespace Sys2Proof.Machine

/-! Bring-up (R238, R239). -/

/-- R238: training and FEC alignment of a port end. -/
def execPortTrainingDone (code : Nat) (s : State) : Host.Outcome State Fault Refusal :=
  if codeNames s code ∧ s.flag FAB_PORT_CFG.EN code ∧ s.rd FAB_PORT_STS.STATE code = 1 then
    .next (s.wr FAB_PORT_STS.STATE code 2)
  else .next s

/-- R238: a port has not reached HELLO within 400 ms. -/
def execTrainingTimeout (code : Nat) (s : State) : Host.Outcome State Fault Refusal :=
  if s.rd FAB_PORT_STS.STATE code = 1 ∧ (s.port code).trainAt + 400000000 ≤ s.now then .next (portSet code 5 1 s) else .next s

/-- R238: 1 s after a port was held down for reason 1 or 2. -/
def execTrainingRestart (code : Nat) (s : State) : Host.Outcome State Fault Refusal :=
  let r := s.rd FAB_PORT_STS.REASON code
  if s.rd FAB_PORT_STS.STATE code = 5 ∧ (r = 1 ∨ r = 2) ∧ (s.port code).heldAt + 1000000000 ≤ s.now then
    .next (portSet code 1 0 s)
  else .next s

/-- The HELLO of a port (Table 11.6). -/
def helloFrame (s : State) (c : Nat) : Frame :=
  let prot := portProt s c
  { ty := 0x38, dst := nodeId s, src := nodeId s,
    pay := natLe 2 (nodeId s) ++ natLe 1 (c % 2 * 16 + c / 2) ++
      natLe 1 (b2n (s.port c).hello * 16 + b2n prot * 4 + portMode s c) ++
      natLe 1 (if prot then linkSlot s c else 0) ++ natLe 3 0 ++ natLe 4 (s.rd RSP_ID.FW_VER) ++ natLe 20 0 }

/-! The link envelope (R245, R357). -/

def crc32Step (c : Nat) : Nat := if c % 2 = 1 then (c / 2) ^^^ 0xEDB88320 else c / 2

/-- CRC-32 with the IEEE 802.3 polynomial. -/
def crc32 (bs : Bytes) : Nat :=
  (bs.foldl (fun c b =>
    let c := c ^^^ b.toNat
    crc32Step (crc32Step (crc32Step (crc32Step (crc32Step (crc32Step (crc32Step (crc32Step c)))))))) 0xFFFFFFFF) ^^^ 0xFFFFFFFF

/-- The nonce of a sealed frame: the salt, then the counter. -/
def gcmIv (salt cnt : Nat) : Nat := salt * 2 ^ 64 + cnt

/-- A frame with its counter and tag on a protected link; the counter is the next of the sender's key. -/
def linkBody (s : State) (code : Nat) (f : Frame) : Bytes :=
  match portProt s code, linkKey? s code with
  | true, some k =>
    let cnt := k.txPhase * 2 ^ 63 + (k.txCount + 1)
    let aad := natLe 8 cnt ++ f.header ++ f.ext
    aad ++ Config.gcmSeal k.txKey (gcmIv k.txSalt cnt) aad (f.pay ++ natLe 4 (f.crc ^^^ f.crcErr))
  | _, _ => f.bytes

/-- A frame on the link, with its link CRC, or the complement of it when it is stomped (R247). -/
def linkWire (s : State) (code : Nat) (f : Frame) : Bytes :=
  let b := linkBody s code f
  b ++ natLe 4 (if f.stomp then crc32 b ^^^ 0xFFFFFFFF else crc32 b)

/-- Open a received envelope: the frame's bytes, and the link key as it stands after. `none` where the tag fails or the
count is not above the last of its phase (R357). -/
def openLink (s : State) (code : Nat) (body : Bytes) : Option (Bytes × State) :=
  if ¬ portProt s code then some (body, s)
  else match linkKey? s code with
  | none => none
  | some k =>
    let cnt := leAt body 0 8
    let n := 8 + 32 + (if bitOf (leAt body 9 1) 4 then 64 else 0)
    let aad := body.take n
    let phase := cnt / 2 ^ 63
    let num := cnt % 2 ^ 63
    let use : Option (Nat × Nat × Nat) := if phase = k.rxPhase then some (k.rxKey, k.rxSalt, k.rxLast) else k.old
    match use with
    | none => none
    | some (key, salt, last) =>
      if num ≤ last then none
      else match Config.gcmOpen key (gcmIv salt cnt) aad (body.drop n) with
      | none => none
      | some pt =>
        let k := if phase = k.rxPhase then { k with rxLast := num, old := none } else { k with old := some (key, salt, num) }
        some (aad.drop 8 ++ pt, setLinkKey code k s)

/-! Gate control lists (R262–R264). -/

/-- A list: base time, cycle, entries as (gates, interval). -/
structure Gcl where
  base  : Nat := 0
  cycle : Nat := 1
  ents  : List (Nat × Nat) := []
  deriving DecidableEq, Repr

def gclEnt (w : Nat) : Nat × Nat := (bits w 24 8, bits w 0 24)

def operGcl (s : State) (c : Nat) : Gcl :=
  let p := s.port c
  { base := p.gclBase, cycle := max 1 p.gclCycle,
    ents := (List.range p.gclN).map fun k => gclEnt (s.rd (FAB_GCL_OPER.ENTRY k) c) }

def adminGcl (s : State) (c : Nat) : Gcl :=
  { base := s.rd FAB_GCL_BASE.BASE c, cycle := max 1 (s.rd FAB_GCL_CYCLE.CYCLE_NS c),
    ents := (List.range (s.rd FAB_GCL_CFG.ADMIN_N c)).map fun k => gclEnt (s.rd (FAB_GCL_ADMIN.ENTRY k) c) }

/-- Place within the cycle of a fabric time. -/
def Gcl.pos (g : Gcl) (t : Nat) : Nat := ((((t : Int) - (g.base : Int)) % (g.cycle : Int))).toNat

/-- The entry at a place of the cycle: index, gates, and where it ends; the last entry extends to the cycle's end. -/
def gclAt (cycle pos : Nat) : List (Nat × Nat) → Nat → Nat → Nat × Nat × Nat
  | [], ix, _ => (ix, 255, cycle)
  | [e], ix, _ => (ix, e.1, cycle)
  | e :: r, ix, o => if pos < o + e.2 ∨ cycle ≤ o + e.2 then (ix, e.1, min cycle (o + e.2)) else gclAt cycle pos r (ix + 1) (o + e.2)

/-- Index, gates and end time of the entry that runs at a time. -/
def Gcl.at (g : Gcl) (t : Nat) : Nat × Nat × Nat :=
  let p := g.pos t
  let (ix, gates, stop) := gclAt g.cycle p g.ents 0 0
  (ix, gates, t + (stop - p))

/-- When class `c`, open at `t`, next closes; the list changes to another at a time. `none`: never. -/
def openUntil (c : Nat) : Nat → Gcl → Option (Nat × Gcl) → Nat → Option Nat
  | 0, _, _, _ => none
  | n + 1, g, sw, t =>
    match sw with
    | some (at', g') =>
      if at' ≤ t then openUntil c n g' none t
      else
        let (_, gates, stop) := g.at t
        if bitOf gates c then openUntil c n g sw (min stop at') else some t
    | none =>
      let (_, gates, stop) := g.at t
      if bitOf gates c then openUntil c n g none stop else some t

/-- Whether the gate lists of a port act: it has one, and they are not suspended (R266). -/
def gclActs (s : State) (c : Nat) : Bool := decide (0 < (s.port c).gclN) && !s.flag FAB_GCL_STS.SUSP c && timeInBound s

def gclSwitch (s : State) (c : Nat) : Option (Nat × Gcl) :=
  if s.flag FAB_GCL_STS.PEND c then some (s.rd FAB_GCL_SWITCH.T c, adminGcl s c) else none

def classClose (s : State) (code c : Nat) (t : Nat) : Option Nat := openUntil c 1100 (operGcl s code) (gclSwitch s code) t

/-- Picoseconds that bytes take on a port: 200 bytes a nanosecond in mode 0, 100 otherwise (Table 11.1). -/
def linePs (s : State) (code n : Nat) : Nat := if portMode s code = 0 then 5 * n else 10 * n

/-- A type that crosses one link (Table 11.4). -/
def linkLocal (ty : Nat) : Bool := decide (0x38 ≤ ty ∧ ty ≤ 0x3D)

/-- Whether a gate lets the head frame of a class start now; link-local frames are never gated. -/
def gateAllows (s : State) (code c : Nat) (f : Frame) : Bool :=
  if linkLocal f.ty ∨ ¬ gclActs s code ∨ ¬ bitOf (s.rd FAB_GCL_CFG.GATED code) c then true
  else
    let t := fabTime s
    if ¬ bitOf ((operGcl s code).at t).2.1 c then false
    else if c ≠ 4 then true
    else match classClose s code c t with
      | none => true
      | some close => decide (linePs s code (linkBytes s code f) ≤ (close - t) * 1000)

/-! Shapers (R259): tokens in eighths of a byte. -/
def tokensNow (s : State) (code c : Nat) : Int :=
  let p := s.port code
  let dt := s.now - KMap.get 0 p.tokAt c
  let tok := KMap.get 0 p.tokens c
  if dt = 0 then tok
  else min (tok + (s.rd (FAB_SHP.RATE c) code * dt : Nat)) ((s.rd (FAB_SHP.BURST c) code * 8192 : Nat) : Int)

/-- The tokens of a class as they stand, kept across a change of its shaper's configuration. -/
def settleShaper (code c : Nat) (s : State) : State :=
  let p := s.port code
  s.setPort code { p with tokens := KMap.put 0 p.tokens c (tokensNow s code c), tokAt := KMap.put 0 p.tokAt c s.now }

def shaped (s : State) (code c : Nat) : Bool := s.rd (FAB_SHP.RATE c) code == 0 || decide (0 ≤ tokensNow s code c)

/-! Egress (R257, R258). -/

def eligible (s : State) (code c : Nat) : Bool :=
  match (s.port code).headOf c with
  | none => false
  | some f =>
    !(bitOf (s.rd FAB_PORT_STS.PAUSED code) c) && !(bitOf (s.rd FAB_PORT_STS.DROP_MODE code) c) && shaped s code c && gateAllows s code c f

/-- The class that goes next. -/
def nextClass (s : State) (code : Nat) : Option Nat :=
  if eligible s code 0 then some 0
  else
    let p := s.port code
    ((List.range 8).filter fun c => eligible s code c).foldl (fun m c =>
      match m with
      | none => some c
      | some b => if tagLe (KMap.get 0 p.tag b) (KMap.get 0 p.tag c) then some b else some c) none

/-- What a frame carries of the moment it leaves, `frac`/65,536 ns into the nanosecond: T1 of a TIME_SYNC, TIME of a HEARTBEAT
(R244, R265). -/
def stampFrame (s : State) (frac : Nat) (f : Frame) : Frame :=
  if f.ty = 0x3B then { f with pay := splice f.pay 0 (natLe 8 (fabTime s) ++ natLe 2 frac) }
  else if f.ty = 0x3A then { f with pay := splice f.pay 0x38 (natLe 8 (fabTime s)) } else f

/-- A frame whose departure is captured to 1/65,536 ns (R265). -/
def timed (f : Frame) : Bool := f.ty == 0x3B || f.ty == 0x3C

/-- A frame goes onto the line. DESIGN CHOICE: the fraction of a nanosecond at which one leaves whose departure is captured is a
free value. -/
def transmit (code : Nat) (f : Frame) (s : State) : State :=
  let frac := s.draw % 65536
  let f := stampFrame s frac f
  let s := if timed f then s.drawn else s
  let n := linkBytes s code f
  let s := s.emit (.frame code f (linkWire s code f))
  let s := s.addWrap (FAB_TX_BYTES.VALUE f.tc) code n
  let s := if f.ty = 0x3C then { s with tim.t3 := fabTime s * 65536 + frac } else s
  let s := s.setPort code { s.port code with lineFree := s.now * 1000 + linePs s code n }
  let s := frameGone f (occSub f s)
  match portProt s code, linkKey? s code with
  | true, some k =>
    let s := setLinkKey code { k with txCount := k.txCount + 1 } s
    if k.txCount + 1 = 2 ^ 62 then portFall code 5 5 s else s
  | _, _ => s

/-- Take the head frame off a class queue; the next head gets its tag. -/
def popHead (code c : Nat) (s : State) : State :=
  let p := s.port code
  let g := KMap.get [] p.green c
  let p := if g.isEmpty then { p with yel := KMap.put [] p.yel c ((KMap.get [] p.yel c).drop 1) }
           else { p with green := KMap.put [] p.green c (g.drop 1) }
  tagHead code c false (s.setPort code p)

def startClass (code c : Nat) (s : State) : State :=
  let p := s.port code
  match p.headOf c with
  | none => s
  | some f =>
    let n := linkBytes s code f
    let past := !linkLocal f.ty && gclActs s code && bitOf (s.rd FAB_GCL_CFG.GATED code) c && c != 4 &&
      (match classClose s code c (fabTime s) with
       | none => false
       | some close => decide ((close - fabTime s) * 1000 < linePs s code n))
    let tok := tokensNow s code c - ((8 * n : Nat) : Int)
    let p := if s.rd (FAB_SHP.RATE c) code = 0 then p
             else { p with tokens := KMap.put 0 p.tokens c tok, tokAt := KMap.put 0 p.tokAt c s.now }
    let p := if c = 0 then p else { p with vtime := KMap.get 0 p.tag c }
    let s := s.setPort code p
    let s := if past then s.bump FAB_GATE_OVR_CNT.COUNT code else s
    transmit code f (popHead code c s)

/-- R238: a HELLO goes out, every 1 µs during bring-up; the port is up once both sides have the other's ACK. -/
def execHelloSend (code : Nat) (s : State) : Host.Outcome State Fault Refusal :=
  let st := s.rd FAB_PORT_STS.STATE code
  if ¬ codeNames s code ∨ (st ≠ 2 ∧ st ≠ 3) ∨ (s.port code).helloAt.any (fun t => decide (s.now < t + 1000)) then .next s
  else
    let f := helloFrame s code
    let s := s.emit (.frame code f (f.bytes ++ natLe 4 (crc32 f.bytes)))
    let p := s.port code
    let s := s.setPort code { p with ackSent := p.ackSent || p.hello, helloAt := some s.now }
    if p.hello ∧ p.helloAck then .next ((s.wr FAB_PORT_STS.STATE code 4).wr FAB_PORT_STS.REASON code 0) else .next s

/-- The link keys that two nodes derive from their session's secret (R356); the node with the lower ID is requester. -/
def linkKeys (requester : Bool) (secret : Nat) : LinkKey :=
  let key := fun l => Config.derive secret l % 2 ^ 256
  let salt := fun l => Config.derive secret l % 2 ^ 32
  if requester then { txKey := key 0, txSalt := salt 1, rxKey := key 2, rxSalt := salt 3 }
  else { txKey := key 2, txSalt := salt 3, rxKey := key 0, rxSalt := salt 1 }

/-- R238, R356: a HELLO has arrived. On a protected link the key agreement that follows gives its secret, or fails. -/
def execHello (code : Nat) (pay : Bytes) (agreed : Option Nat) (s : State) : Host.Outcome State Fault Refusal :=
  let st := s.rd FAB_PORT_STS.STATE code
  if ¬ codeNames s code ∨ (st ≠ 2 ∧ st ≠ 3) ∨ pay.length ≠ 32 then .next s
  else
    let b := leAt pay 3 1
    let prot := portProt s code
    if b % 4 ≠ portMode s code then .next (portSet code 5 3 s)
    else if bitOf b 2 ≠ prot then .next (portSet code 5 4 s)
    else if bitOf b 3 ≠ s.flag FAB_PORT_CFG.EDGE code then .next (portSet code 5 7 s)
    else
      let p := s.port code
      let peer := leAt pay 0 2
      let s := s.setPort code { p with peer := peer, peerFw := leAt pay 8 4, hello := true, helloAck := p.helloAck || bitOf b 4 }
      let keyed := !prot || (linkKey? s code).isSome
      match keyed, agreed with
      | false, none => .next (authFailNode (portSet code 5 5 s))
      | false, some secret =>
        .next (setLinkKey code (linkKeys (decide (nodeId s < peer)) secret) (s.wr FAB_PORT_STS.STATE code 3))
      | true, _ =>
        let p := s.port code
        if p.helloAck ∧ p.ackSent then .next ((s.wr FAB_PORT_STS.STATE code 4).wr FAB_PORT_STS.REASON code 0) else .next s

/-- R238, R239: a port goes down: its signal is lost (reason 0: it trains again), or its FEC lock (reason 2), which may also
be lost while it is brought up. -/
def execPortDown (code reason : Nat) (s : State) : Host.Outcome State Fault Refusal :=
  let st := s.rd FAB_PORT_STS.STATE code
  if 1 ≤ st ∧ st ≤ 3 ∧ reason = 2 then .next (portSet code 5 2 s)
  else if st ≠ 4 then .next s
  else if reason = 2 then .next (portFall code 5 2 s) else .next (portFall code 1 0 s)

/-- R239: a write of 1 to FLAP_DIS. -/
def execFlapDisClear (code : Nat) (s : State) : Host.Outcome State Fault Refusal :=
  if s.flag FAB_PORT_STS.FLAP_DIS code then
    .next (portSet code (if s.flag FAB_PORT_CFG.EN code then 1 else 0) 0 (s.wr FAB_PORT_STS.FLAP_DIS code 0))
  else .next s

/-- R358: a link is rekeyed: new keys of both directions, and the sender's phase inverts. -/
def execLinkRekey (code secret : Nat) (s : State) : Host.Outcome State Fault Refusal :=
  if ¬ portUp s code ∨ ¬ portProt s code then .next s
  else match linkKey? s code with
  | none => .next s
  | some k =>
    if k.txCount < 2 ^ 47 ∧ k.rxLast < 2 ^ 47 then .next s
    else
      let n := linkKeys (decide (nodeId s < (s.port code).peer)) secret
      let n := { n with txPhase := 1 - k.txPhase, rxPhase := 1 - k.rxPhase, old := some (k.rxKey, k.rxSalt, k.rxLast) }
      .next ((setLinkKey code n s).bump (RSP_CNT.COUNT 6))

/-! Meters (R260, R261): buckets in 1/80 byte, so that a rate of 100 Mb/s is one unit a nanosecond. -/

def meterOf (s : State) (p : Nat) : MeterSt :=
  let m := KMap.get {} s.fab.meters p
  let cbs : Int := (s.rd FAB_MTR_BURST.CBS p * 81920 : Nat)
  let pbs : Int := (s.rd FAB_MTR_BURST.PBS p * 81920 : Nat)
  let dt := s.now - m.since
  if m.full then { m with full := false, tc := cbs, tp := pbs, since := s.now }
  else if dt = 0 then m
  else { m with tc := min cbs (m.tc + (s.rd FAB_MTR_RATE.CIR p * dt : Nat)), tp := min pbs (m.tp + (s.rd FAB_MTR_RATE.PIR p * dt : Nat)),
                since := s.now }

/-- The buckets of a partition's meter as they stand, kept across a change of its configuration. -/
def settleMeter (p : Nat) (s : State) : State := { s with fab.meters := KMap.insert s.fab.meters p (meterOf s p) }

/-- The colour of a frame of `n` bytes: 0 green, 1 yellow, 2 red. -/
def meter (f : Frame) (n : Nat) (s : State) : Nat × State :=
  if ¬ s.flag FAB_MTR_CTL.EN f.part then (0, s)
  else
    let m := meterOf s f.part
    let b : Int := (80 * n : Nat)
    let key := (f.ty * 2 ^ 16 + f.src) * 2 ^ 32 + f.msg
    let pbs : Int := (s.rd FAB_MTR_BURST.PBS f.part * 81920 : Nat)
    let color :=
      if f.first then (if m.tp < b then 2 else if m.tc < b then 1 else 0) else KMap.get 0 m.msgs key
    let low := fun (x : Int) => max (-pbs) x
    let m := if color = 2 then m
             else if color = 1 then { m with tp := low (m.tp - b) } else { m with tp := low (m.tp - b), tc := low (m.tc - b) }
    let m := { m with msgs := if f.last then KMap.erase m.msgs key else if f.first then KMap.put 0 m.msgs key color else m.msgs }
    (color, { s with fab.meters := KMap.insert s.fab.meters f.part m })

/-- Act on a colour (Table 11.11): the frame as it goes on, or none where it is refused. -/
def meterAct (f : Frame) (color : Nat) (s : State) : Option Frame × State :=
  let count := fun (d : Fld) (s : State) => if f.first then s.bump d else s
  match color with
  | 0 => (some f, s)
  | 1 => (some { f with yellow := true }, count FAB_MTR_YELLOW_CNT.COUNT s)
  | _ =>
    if f.tc = 1 then
      let s := count FAB_MTR_RED_CNT.COUNT s
      (none, if f.first then (sendFrame (colophonFrame f.part f.src f.msg ST.METER_RED (natLe 24 0)) s).2 else s)
    else (some { f with yellow := true }, count FAB_MTR_DEMOTE_CNT.COUNT s)

/-! The router (R248–R251). -/

/-- Bytes in the ingress buffer. -/
def bufferUse (s : State) : Nat :=
  (s.fab.ports.map fun p => (p.2.occ.map (·.2)).foldl (· + ·) 0).foldl (· + ·) 0

/-- A whole, right frame of a routed type goes on: delivered here, or to its egress. -/
def route (code : Nat) (f : Frame) (s : State) : State :=
  if f.dst = nodeId s then
    if f.crcErr ≠ 0 then s.bump FAB_E2E_CRC_CNT.COUNT
    else deliver { f with from? := some code } (occAdd code f.tc f.size s)
  else if f.hops = 63 then s.bump FAB_HOP_DROP_CNT.COUNT
  else match nextHop s f (f.hops + 1) with
  | .noRoute => s.bump FAB_NOROUTE_CNT.COUNT
  | .protDrop => s.bump FAB_PROT_DROP_CNT.COUNT
  | .egress e =>
    let g := { f with hops := f.hops + 1, from? := some code }
    if bitOf (s.rd FAB_PORT_STS.DROP_MODE e) f.tc then enqueue e { g with from? := none } s
    else enqueue e g (occAdd code f.tc f.size s)

/-- A frame that its link has passed. One of a link-local type ends here: a right one is acted on by its type's own command. -/
def arrive (code n : Nat) (f : Frame) (s : State) : State :=
  if linkLocal f.ty then (if f.crcErr ≠ 0 then s.bump FAB_E2E_CRC_CNT.COUNT else s)
  else if modeProt s f.part ∧ ¬ portProt s code then s.bump FAB_PROT_DROP_CNT.COUNT
  else if 24 * 2 ^ 20 < bufferUse s + f.size then s.bump FAB_OVF_DROP_CNT.COUNT code
  else if s.flag FAB_PORT_CFG.EDGE code ∧ [1, 3, 4, 6, 7].contains f.tc then
    let (color, s) := meter f n s
    match meterAct f color s with
    | (none, s) => s
    | (some f, s) => route code f s
  else route code f s

def rateOf (s : State) (code : Nat) : Nat := if portMode s code = 0 then 200 else 100

/-- A frame joins an egress that it leaves by cut-through. -/
def cutJoin (e : Nat) (f : Frame) (s : State) : State := enqueue e { f with hops := f.hops + 1, from? := none } s

/-- The egress that a frame would have left by cut-through: it would be the next frame there, at once (R246). -/
def cutEgress (s : State) (code : Nat) (f : Frame) : Option Nat :=
  if portProt s code ∨ f.dst = nodeId s ∨ f.hops = 63 ∨ linkLocal f.ty ∨ (modeProt s f.part = true) then none
  else match nextHop s f (f.hops + 1) with
  | .egress e =>
    let p := s.port e
    if rateOf s e ≤ rateOf s code ∧ p.urgent.isEmpty ∧ p.lineFree ≤ s.now * 1000 ∧ (p.classQ f.tc).isEmpty ∧
        nextClass (cutJoin e f s) e = some f.tc then some e else none
  | _ => none

/-- A frame has arrived on a port: bytes as they stood on the link, with the link CRC. -/
def ingress (code : Nat) (wire : Bytes) (s : State) : State :=
  let n := wire.length
  let body := wire.take (n - 4)
  let crc := leAt wire (n - 4) 4
  let o := if portProt s code then 9 else 1
  let s := s.addWrap (FAB_RX_BYTES.VALUE (leAt wire o 1 / 32)) code n
  if crc ≠ crc32 body then
    let s := if crc = crc32 body ^^^ 0xFFFFFFFF then s else s.bump FAB_LCRC_CNT.COUNT code
    match parseFrame body with
    | none => s
    | some f =>
      match cutEgress s code f with
      | none => s
      | some e => (startClass e f.tc (cutJoin e { f with stomp := true } s)).bump FAB_STOMP_CNT.COUNT e
  else match openLink s code body with
  | none => s.bump FAB_LCRC_CNT.COUNT code
  | some (b, s) =>
    match parseFrame b with
    | none => s.bump FAB_HDR_DROP_CNT.COUNT
    | some f => arrive code n { f with crcErr := crcGap b } s

/-- A frame arrives while its port is brought up: its link CRC and tag are checked as on an up port, and none but a link-local
one is taken (R238, R245). -/
def helloIngress (code : Nat) (wire : Bytes) (s : State) : State :=
  let body := wire.take (wire.length - 4)
  if leAt wire (wire.length - 4) 4 ≠ crc32 body then s.bump FAB_LCRC_CNT.COUNT code
  else match parseFrame body with
  | some f => if linkLocal f.ty then arrive code wire.length { f with crcErr := crcGap body } s else s
  | none => s.bump FAB_HDR_DROP_CNT.COUNT

/-- R249: a received frame is checked, metered, and forwarded or delivered. -/
def execFrameForward (code : Nat) (wire : Bytes) (s : State) : Host.Outcome State Fault Refusal :=
  let st := s.rd FAB_PORT_STS.STATE code
  if portUp s code then .next (ingress code wire s)
  else if codeNames s code ∧ (st = 2 ∨ st = 3) then .next (helloIngress code wire s) else .next s

/-! Priority pause (R253–R256). -/

/-- R253: the PAUSE of a class is repeated while its occupancy is above XON. -/
def execPauseRepeat (code cls : Nat) (s : State) : Host.Outcome State Fault Refusal :=
  let p := s.port code
  let x := KMap.get 0 p.xoff cls
  if x = 0 ∨ KMap.get 0 p.occ cls ≤ s.rd FAB_PFC_CFG.XON code * 16384 ∨ s.now + 1 < x + s.rd FAB_PFC_CFG.PAUSE_NS code / 2 then .next s
  else
    .next (sendPause code cls (s.rd FAB_PFC_CFG.PAUSE_NS code) (s.setPort code { p with xoff := KMap.put 0 p.xoff cls (s.now + 1) }))

/-- The pause of a class ends, and its nanoseconds are counted (R254). -/
def pauseEnds (code c : Nat) (s : State) : State :=
  if ¬ bitOf (s.rd FAB_PORT_STS.PAUSED code) c then s
  else
    let s := s.addWrap (FAB_PAUSED_NS.VALUE c) code (s.now - KMap.get 0 (s.port code).pauseFrom c)
    s.wr FAB_PORT_STS.PAUSED code (clrBit (s.rd FAB_PORT_STS.PAUSED code) c)

/-- R254: a PAUSE for one class. -/
def pauseClass (code c time : Nat) (s : State) : State :=
  let p := s.port code
  let s := s.setPort code { p with pauseLast := KMap.put 0 p.pauseLast c s.now }
  if time = 0 then pauseEnds code c s
  else
    let p := s.port code
    let p := { p with pauseEnd := KMap.put 0 p.pauseEnd c (s.now + time) }
    let p := if bitOf (s.rd FAB_PORT_STS.PAUSED code) c then p else { p with pauseFrom := KMap.put 0 p.pauseFrom c s.now }
    (s.setPort code p).raise FAB_PORT_STS.PAUSED code (2 ^ c)

/-- R254: a PAUSE has arrived. -/
def execPause (code : Nat) (pay : Bytes) (s : State) : Host.Outcome State Fault Refusal :=
  if ¬ portUp s code ∨ pay.length ≠ 18 then .next s
  else .next ((bitList (leAt pay 0 1) 8).foldl (fun s c => pauseClass code c (leAt pay (2 + 2 * c) 2) s)
    (s.bump FAB_PAUSE_RX_CNT.COUNT code))

/-- R254: the time of a pause has run out. -/
def execPauseExpire (code cls : Nat) (s : State) : Host.Outcome State Fault Refusal :=
  if KMap.get 0 (s.port code).pauseEnd cls ≤ s.now then .next (pauseEnds code cls s) else .next s

/-- R256: a class has been paused without a break for longer than the limit: it enters drop mode. -/
def execStormDetect (code cls : Nat) (s : State) : Host.Outcome State Fault Refusal :=
  let p := s.port code
  if ¬ bitOf (s.rd FAB_PORT_STS.PAUSED code) cls ∨ bitOf (s.rd FAB_PORT_STS.DROP_MODE code) cls ∨
      s.now ≤ KMap.get 0 p.pauseFrom cls + s.rd FAB_STORM_CFG.LIMIT_MS code * 1000000 then .next s
  else
    let q := p.classQ cls
    let s := s.setPort code { p with green := KMap.erase p.green cls, yel := KMap.erase p.yel cls }
    let s := (s.raise FAB_PORT_STS.DROP_MODE code (2 ^ cls)).bump FAB_STORM_CNT.COUNT code
    let s := q.foldl (fun s f => frameGone f (occSub f (s.bump FAB_STORM_DROP_CNT.COUNT code))) s
    .next (report .chip { sev := 2, subsys := 10, cause := Config.causeCode 62, unit := code } s)

/-- R256: no PAUSE for a class in drop mode has come for RECOVER_MS. -/
def execStormRecover (code cls : Nat) (s : State) : Host.Outcome State Fault Refusal :=
  if bitOf (s.rd FAB_PORT_STS.DROP_MODE code) cls ∧
      KMap.get 0 (s.port code).pauseLast cls + s.rd FAB_STORM_CFG.RECOVER_MS code * 1000000 ≤ s.now then
    .next (s.wr FAB_PORT_STS.DROP_MODE code (clrBit (s.rd FAB_PORT_STS.DROP_MODE code) cls))
  else .next s

/-! Gate lists: commands (R262–R264). -/

/-- Whether a class 4 frame fits some window of a list. -/
def fitsList (s : State) (code : Nat) (g : Gcl) (f : Frame) : Bool :=
  let need := linePs s code (linkBytes s code f)
  let starts := (g.ents.foldl (fun (r : List Nat × Nat) e => (r.1 ++ [r.2], r.2 + e.2)) ([], 0)).1
  starts.any fun o =>
    decide (o < g.cycle) && bitOf ((g.at (g.base + o)).2.1) 4 &&
    (match openUntil 4 600 g none (g.base + o) with
     | none => true
     | some close => decide (need ≤ (close - (g.base + o)) * 1000))

/-- Head frames of class 4 that fit no window are dropped (R263). -/
def dropNoFit (code : Nat) : Nat → State → State
  | 0, s => s
  | n + 1, s =>
    match (s.port code).headOf 4 with
    | none => s
    | some f =>
      if fitsList s code (operGcl s code) f then s
      else dropNoFit code n (frameGone f (occSub f ((popHead code 4 s).bump FAB_GATE_NOFIT_CNT.COUNT code)))

/-- R262: a gate-list interval ends: the next entry sets the gates, suspended lists resume at a cycle's start once time
is within bound, and a class 4 frame that fits no window is dropped as the window opens. -/
def execGateEntryAdvance (code : Nat) (s : State) : Host.Outcome State Fault Refusal :=
  let p := s.port code
  if p.gclN = 0 then .next s
  else
    let (ix, gates, _) := (operGcl s code).at (fabTime s)
    let s := if ix = 0 ∧ timeInBound s then s.wr FAB_GCL_STS.SUSP code 0 else s
    let s := s.setPort code { p with gateIx := ix }
    if gclActs s code ∧ bitOf (s.rd FAB_GCL_CFG.GATED code) 4 ∧ bitOf gates 4 then
      .next (dropNoFit code ((p.classQ 4).length) s)
    else .next s

/-- R264, Table 11.12: a write of 1 to GO. -/
def gclGo (code : Nat) (s : State) : State :=
  let t := s.rd FAB_GCL_SWITCH.T code
  let g := adminGcl s code
  if timeInBound s ∧ fabTime s + 10000 ≤ t ∧ g.base ≤ t ∧ (t - g.base) % g.cycle = 0 ∧ (g.ents.all fun e => e.2 != 0) then
    (s.wr FAB_GCL_STS.PEND code 1)
  else (s.wr FAB_GCL_STS.ERR code 1)

/-- R264: a write of 1 to GO. -/
def execGclGo (code : Nat) (s : State) : Host.Outcome State Fault Refusal := .next (gclGo code s)

/-- R264: a write of 1 to CANCEL before T. -/
def execGclCancel (code : Nat) (s : State) : Host.Outcome State Fault Refusal :=
  if s.flag FAB_GCL_STS.PEND code ∧ fabTime s < s.rd FAB_GCL_SWITCH.T code then .next (s.wr FAB_GCL_STS.PEND code 0) else .next s

/-- The administrative list of a port becomes its operational one; it is suspended while the node is out of bound (R266). -/
def gclLoad (code : Nat) (s : State) : State :=
  let n := s.rd FAB_GCL_CFG.ADMIN_N code
  let s := if timeInBound s then s else s.wr FAB_GCL_STS.SUSP code 1
  let s := (List.range n).foldl (fun s k => s.wr (FAB_GCL_OPER.ENTRY k) code (s.rd (FAB_GCL_ADMIN.ENTRY k) code)) s
  s.setPort code { s.port code with gclN := n, gclBase := s.rd FAB_GCL_BASE.BASE code,
                                    gclCycle := s.rd FAB_GCL_CYCLE.CYCLE_NS code, gateIx := 0 }

/-- R264: at T the administrative list becomes operational. -/
def execGclSwitchover (code : Nat) (s : State) : Host.Outcome State Fault Refusal :=
  if ¬ s.flag FAB_GCL_STS.PEND code ∨ fabTime s < s.rd FAB_GCL_SWITCH.T code then .next s
  else .next (((gclLoad code s).wr FAB_GCL_STS.PEND code 0).wr FAB_GCL_STS.DONE code 1)

/-! The route table (R252). -/

/-- R252: a write of 1 to COMMIT. -/
def execRtCommit (s : State) : Host.Outcome State Fault Refusal := .next (s.wr FAB_RT_CTL.PEND 0 1)

/-- The shadow copy becomes the active one: the two tables have one layout, 0x2_0000 apart. -/
def copyRoutes (s : State) : State :=
  let lo := (FAB_RT_SHADOW.ENTRY 0).key 0
  let hi := (FAB_RT_ACTIVE.ENTRY 0).key 0
  let d := hi - lo
  let kept := s.regs.filter fun e => decide (e.1 < hi ∨ hi + d ≤ e.1)
  { s with regs := (s.regs.filter fun e => decide (lo ≤ e.1 ∧ e.1 < hi)).foldl (fun m e => KMap.insert m (e.1 + d) e.2) kept }

/-- R252: between two lookups the shadow table is copied. -/
def execRtCommitApply (s : State) : Host.Outcome State Fault Refusal :=
  if s.flag FAB_RT_CTL.PEND then .next ((copyRoutes s).wr FAB_RT_CTL.PEND 0 0) else .next s

end Sys2Proof.Machine
end

