-- ==== Sys2Proof/Machine/Ranges.lean ====
section
/-!
DEFINITION. The values each register field takes (the descriptions of the register tables), register images, and
which bits of a register an image may set.
-/
namespace Sys2Proof.Machine

/-- The least and greatest value of a field, where its description narrows them. -/
def fldRanges : List (Fld × Nat × Nat) :=
  [(GUT_ARB_SEL.ARB_ID, 0, 147), (GUT_ARB_CFG.STARVE_THR, 0, 65534), (STK_PATROL_CFG.PERIOD_H, 1, 168),
   (STK_REF_CFG.POSTPONE_MAX, 1, 8), (PLT_CFG.PHASE_TMO, 1, 255), (CMP_WDOG.LIMIT_US, 1, 65535),
   (FLO_CFG.SEARCH_MAX, 1, 255), (FLO_CFG.MAXRUN_LOG2, 6, 12), (FLO_CFG.NCONV_LOG2, 8, 16), (FLO_CFG.NFOLIO_LOG2, 16, 24),
   (REAM_PW.WEIGHT, 1, 255), (REAM_ACCT_CFG.PERIOD_MS, 1, 32767), (REAM_ACCT_CFG.SIZE_LOG2, 6, 20),
   (TIER_PF_CFG.MOVE_MAX, 1, 8), (TIER_LEASE_CFG.LEASE_US, 100, 65535), (TIER_LEASE_CFG.GUARD_US, 1, 255),
   (TIER_LATE_CFG.CPL_TMO_US, 1, 255), (TIER_LATE_CFG.LIMIT_US, 1, 65535)] ++
  [(FAB_PSEL.PORT, 0, 11), (FAB_PORT_CFG.MODE, 0, 2), (FAB_PORT_CFG.FLAP_MAX, 1, 255), (FAB_PFC_CFG.PAUSE_NS, 1, 65535),
   (FAB_STORM_CFG.LIMIT_MS, 1, 255), (FAB_STORM_CFG.RECOVER_MS, 1, 65535), (FAB_GCL_CFG.ADMIN_N, 1, 256),
   (FAB_GCL_CYCLE.CYCLE_NS, 1, 4294967295), (TIME_CFG.INTERVAL_US, 125, 16000), (TIME_HB_CFG.HB_US, 10, 10000)] ++
  [(RCH_CFG.RETRY_MAX, 1, 255), (RCH_CFG.RTO_US, 1, 255), (RCH_RTX_CFG.SLOTS_LOG2, 10, 16), (COL_CFG.REAM_TMO_US, 10, 65535),
   (COL_CFG2.MIRROR_TMO_US, 1, 255), (COL_CFG2.AUDIT_TMO_US, 1, 255), (COL_SIG_CFG.SIG_LOG2, 8, 16),
   (COL_QUOTA.QUOTA_KIB, 64, 16384), (HST_PRT_CFG.FETCH_W, 1, 15), (RSP_MEAS_SEL.INDEX, 1, 5), (RSP_DRAIN_CFG.LIMIT_US, 1, 65535),
   (RSP_AUTH_CFG.FAIL_MAX, 1, 255), (RSP_COMMIT_CFG.DRAIN_US, 10, 1800), (RAS_HB_CFG.LOSS_N, 1, 255),
   (RAS_HB_CFG.DISAGREE_N, 1, 255), (RAS_IN_CFG.HOLD_MS, 1, 65535), (PCM_POL.CAP_W, 350, 700)] ++
  (List.range 8).map (fun k => (FAB_WFQ_CFG.W k, 1, 255)) ++
  (List.range 8).map (fun k => (FAB_SHP.RATE k, 0, 1600)) ++
  (List.range 16).map (fun k => (REAM_CW.W k, 1, 255)) ++
  (List.range 8).map (fun k => (HST_SQ_CFG.SIZE_LOG2 k, 4, 16)) ++
  (List.range 8).map (fun k => (HST_CQ_CFG.SIZE_LOG2 k, 4, 16)) ++
  (List.range 8).map (fun k => (HST_CQ_CFG.VECTOR k, 0, 61)) ++
  (List.range 4).map (fun k => (TIER_PORT_CFG.MODE k, 0, 1)) ++
  (List.range 8).map (fun k => (CWD_BANK_CFG.TYPE k, 0, 4))

/-- The levels that Table 15.9 allows a source. -/
def alarmLevels (src : Nat) : List Nat :=
  if src = 4 ∨ src = 5 then [2, 3] else if src = 7 then [0, 1, 2, 3] else [0, 2, 3]

/-- Whether a field takes a value. -/
def fldOk (f : Fld) (v : Nat) : Bool :=
  match (List.range 8).find? fun k => f = RSP_ALARM_LVL.LVL k with
  | some k => (alarmLevels k).contains v
  | none =>
    match fldRanges.find? fun r => r.1 = f with
    | some (_, lo, hi) => decide (lo ≤ v ∧ v ≤ hi)
    | none => true

/-! Register images (Table 17.4). -/

/-- Where a section holds the image of a register: the byte offset, the register and its bytes. -/
structure Img where
  at_  : Nat
  win  : Win
  off  : Nat
  size : Nat := 4
  deriving DecidableEq, Repr

/-- The fields of a register. -/
def regFields (w : Win) (off : Nat) : List Fld := (windowFields w).filter fun f => f.off = off

/-- A field's value in an image. -/
def imgVal (v : Nat) (f : Fld) : Nat := bits v f.lo f.wd

def Img.val (m : Img) (b : Bytes) : Nat := leAt b m.at_ m.size

/-- The fields that an image gives: those that lie in its bytes. -/
def Img.fields (m : Img) : List Fld := (regFields m.win m.off).filter fun f => f.lo + f.wd ≤ 8 * m.size

/-- Bits of an image that the register defines. -/
def Img.bitsOf (m : Img) : List (Nat × Nat) := m.fields.map fun f => (8 * m.at_ + f.lo, f.wd)

/-- Whether every field of an image is in its range. -/
def Img.ok (b : Bytes) (m : Img) : Bool := m.fields.all fun f => fldOk f (imgVal (m.val b) f)

/-- Write the fields that an image gives, ranges being checked before; the others keep their values (R402). -/
def Img.write (b : Bytes) (i : Nat) (s : State) (m : Img) : State := m.fields.foldl (fun s f => s.wr f i (imgVal (m.val b) f)) s

/-- The mask of some bits, each given by its place and width. -/
def fieldMask (fs : List (Nat × Nat)) : Nat := fs.foldl (fun a f => a ||| (2 ^ f.2 - 1) * 2 ^ f.1) 0

/-- Whether bytes are zero outside some bits. -/
def onlyBits (b : Bytes) (fs : List (Nat × Nat)) : Bool :=
  let v := leNat b
  v &&& fieldMask fs == v

end Sys2Proof.Machine
end

