-- ==== Sys2Proof/Machine/Container.lean ====
section
/-!
DEFINITION. The forme container (R395–R398): its header, directory, sections and signature block, the canonical image
and its digest, and the form of every section (Tables 17.1–17.7).
-/
namespace Sys2Proof.Machine

def align64 (n : Nat) : Nat := ceilDiv n 64 * 64

/-- Bytes with zeros up to the next multiple of 64. -/
def pad64 (b : Bytes) : Bytes := b ++ List.replicate (align64 b.length - b.length) 0

/-! The canonical image (R397). -/

/-- Directory entries and bodies of sections placed one after another from `o`. -/
def layoutSecs : Nat → List (Nat × Bytes) → Bytes × Bytes
  | _, [] => ([], [])
  | o, (k, b) :: r =>
    let (d, x) := layoutSecs (o + align64 b.length) r
    (natLe 1 (k / 256) ++ natLe 1 k ++ natLe 2 0 ++ natLe 4 o ++ natLe 4 b.length ++ natLe 4 0 ++ d, pad64 b ++ x)

/-- The bytes of a full forme in canonical form, with NEW_EPOCH and COMMIT_TIME zero. -/
def FormeImg.bytes (f : FormeImg) : Bytes :=
  let start := align64 (0xC0 + 16 * f.secs.length)
  let (dir, body) := layoutSecs start f.secs
  natLe 4 0x4D524F46 ++ natLe 2 1 ++ natLe 1 0 ++ natLe 1 f.alg ++ natLe 4 (start + body.length) ++ natLe 2 f.secs.length ++
  natLe 2 0 ++ natLe 4 f.id ++ natLe 4 f.ver ++ natLe 8 0 ++ natLe 8 0 ++ natLe 152 0 ++
  slice dir 0 (start - 0xC0) ++ body

/-- The forme digest, as the number its 48 little-endian bytes spell. -/
def FormeImg.digest (f : FormeImg) : Nat := Config.sha384 f.bytes

/-! Parsing. -/

structure Container where
  part   : Bool := false
  img    : FormeImg := {}
  base   : Nat := 0
  result : Nat := 0
  body   : Bytes := []
  key    : Bytes := []
  sig    : Bytes := []
  deriving DecidableEq, Repr

def dirEntry (b : Bytes) (k : Nat) : Bytes := slice b (0xC0 + 16 * k) 16
def bodyLen (b : Bytes) : Nat := leAt b 8 4
def nSect (b : Bytes) : Nat := leAt b 0xC 2
def keyLenOf (alg : Nat) : Nat := if alg = 0 then 97 else 2592
def sigLenOf (alg : Nat) : Nat := if alg = 0 then 96 else 4627

/-- The header and the signature block (Tables 17.1, 17.3). -/
def headOk (b : Bytes) : Bool :=
  let alg := leAt b 7 1
  let n := bodyLen b
  decide (0xC0 ≤ b.length ∧ b.length ≤ 2097152 ∧ leAt b 0 4 = 0x4D524F46 ∧ leAt b 4 2 = 1 ∧ leAt b 6 1 < 2 ∧ alg < 2 ∧
    leAt b 0xE 2 = 0 ∧ leAt b 0x1C 4 = 0 ∧ leAt b 0x88 56 = 0 ∧ n % 64 = 0 ∧ 1 ≤ nSect b ∧ nSect b ≤ 96 ∧ 0xC0 + 16 * nSect b ≤ n ∧
    b.length = n + 8 + keyLenOf alg + sigLenOf alg ∧ leAt b n 2 = keyLenOf alg ∧ leAt b (n + 2) 2 = sigLenOf alg ∧ leAt b (n + 4) 4 = 0) &&
  (leAt b 6 1 == 1 || decide (leAt b 0x28 96 = 0))

/-- A directory entry (Table 17.2). -/
def dirOk (b e : Bytes) : Bool :=
  let ty := leAt e 0 1
  let i := leAt e 1 1
  decide (1 ≤ ty ∧ ty ≤ 14 ∧ leAt e 2 2 = 0 ∧ leAt e 0xC 4 = 0 ∧ leAt e 4 4 % 64 = 0 ∧ 0xC0 + 16 * nSect b ≤ leAt e 4 4 ∧
    leAt e 4 4 + leAt e 8 4 ≤ bodyLen b) &&
  (if ty = 2 then decide (i < 32) else if ty = 11 then decide (1 ≤ i ∧ i < 32) else i == 0)

/-- Whether the sections of a container neither repeat nor overlap. -/
def dirApart (es : List Bytes) : Bool :=
  es.Pairwise (fun x y => leAt x 0 2 ≠ leAt y 0 2 ∧ (leAt x 4 4 + leAt x 8 4 ≤ leAt y 4 4 ∨ leAt y 4 4 + leAt y 8 4 ≤ leAt x 4 4))

/-! The form of each section: its length, and zero in every reserved bit (Tables 17.4–17.7). -/

def imgAt (o : Nat) (f : Fld) (size : Nat := 4) : Img := { at_ := o, win := f.win, off := f.off, size := size }

def nodeImgs : List Img :=
  [imgAt 0x08 FLO_CFG.EN, imgAt 0x10 FLO_TBL_BASE.OFFSET 8, imgAt 0x18 FLO_TBL_LIMIT.OFFSET 8, imgAt 0x20 FLO_LEAF_CFG.NLEAF,
   imgAt 0x24 (CWD_BANK_CFG.TYPE 0), imgAt 0x28 CMP_RES_CFG.EXP_EN, imgAt 0x2C RCH_RTX_CFG.SLOTS_LOG2, imgAt 0x30 RCH_RTX_BASE.OFFSET 8,
   imgAt 0x38 COL_SIG_BASE.OFFSET 8, imgAt 0x40 COL_SIG_CFG.SIG_LOG2, imgAt 0x58 TIER_LEASE_CFG.LEASE_US] ++
  (List.range 4).map (fun n => imgAt (0x48 + 4 * n) (TIER_PORT_CFG.EN n)) ++
  (List.range 4).map (fun n => imgAt (0x60 + 8 * n) (TIER_POOL_CFG.EN n) 8)

def fabricImgs : List Img :=
  (List.range 24).map (fun e => imgAt (4 * e) FAB_PORT_CFG.EN) ++
  [imgAt 0x60 TIME_CFG.GM, imgAt 0x64 TIME_HB_CFG.HB_US, imgAt 0x68 RAS_HB_CFG.LOSS_N, imgAt 0x6C RAS_CFG.IRQ_SEV,
   imgAt 0x70 RCH_CFG.EN, imgAt 0x74 RCH_HOLD_CFG.HOLD_MS, imgAt 0x78 COL_CFG.EN, imgAt 0x7C COL_CFG2.MIRROR_TMO_US,
   imgAt 0x80 TIER_LATE_CFG.LIMIT_US]

/-- One egress code's part of a TRAFFIC section. -/
def trafficImgs : List Img :=
  [imgAt 0x00 FAB_PFC_CFG.XOFF, imgAt 0x04 FAB_STORM_CFG.LIMIT_MS, imgAt 0x08 (FAB_WFQ_CFG.W 0), imgAt 0x0C (FAB_WFQ_CFG.W 4),
   imgAt 0x10 (FAB_WFQ_BURST.B 0), imgAt 0x14 (FAB_WFQ_BURST.B 4), imgAt 0x40 FAB_GCL_CFG.ADMIN_N, imgAt 0x48 FAB_GCL_BASE.BASE 8,
   imgAt 0x50 FAB_GCL_CYCLE.CYCLE_NS, imgAt 0x58 FAB_GCL_SWITCH.T 8] ++
  (List.range 8).map fun c => imgAt (0x20 + 4 * c) (FAB_SHP.RATE c)

def emodelImgs : List Img := (List.range 8).map fun k => imgAt (0x20 + 4 * k) (REAM_EMODEL.COEF k)
def partImgs : List Img := [imgAt 0x28 FAB_MTR_RATE.CIR, imgAt 0x2C FAB_MTR_BURST.CBS, imgAt 0x34 REAM_REG_CFG.STK_RATE]
def alarmImgs : List Img := [imgAt 0x00 (RSP_ALARM_LVL.LVL 0), imgAt 0x04 RSP_AUTH_CFG.FAIL_MAX]

/-- Bits at a byte offset. -/
def bitsAt (o lo wd : Nat) : Nat × Nat := (8 * o + lo, wd)

def nodeBits : List (Nat × Nat) := [bitsAt 0 0 16, bitsAt 4 0 32, bitsAt 0x44 0 3, bitsAt 0x44 4 4] ++ nodeImgs.flatMap Img.bitsOf

def partBits : List (Nat × Nat) :=
  [bitsAt 0 0 7, bitsAt 1 0 5, bitsAt 2 0 3, bitsAt 3 0 4, bitsAt 4 0 32, bitsAt 8 0 256, bitsAt 0x30 0 1] ++ partImgs.flatMap Img.bitsOf ++
  (List.range 8).flatMap fun k => [bitsAt (0x40 + 8 * k) 0 5, bitsAt (0x40 + 8 * k) 7 1, bitsAt (0x42 + 8 * k) 0 12, bitsAt (0x44 + 8 * k) 0 12]

/-- The records of a table section. -/
def recs (b : Bytes) (n base size : Nat) : List Bytes := (List.range n).map fun k => slice b (base + size * k) size

def ascending (l : List Nat) : Bool := l.Pairwise (· < ·)

def descForm (b : Bytes) : Bool :=
  let rs := recs b (leAt b 0 2) 0x40 8
  decide (leAt b 0 2 ≤ 256 ∧ b.length = 64 + 8 * leAt b 0 2 ∧ leAt b 2 62 = 0) && ascending (rs.map fun r => leAt r 0 1) &&
  rs.all fun r => onlyBits r [bitsAt 0 0 28, bitsAt 4 0 2]

def maskForm (f : FormeImg) (b : Bytes) : Bool :=
  let nm := leAt b 0 2
  let rs := recs b nm 0x40 16
  let rots := rotaries f (leAt b 2 2) (round64 (0x40 + 16 * nm))
  let stop := rots.foldl (fun o r => round64 o + 0x40 + r.2.2.length) (0x40 + 16 * nm)
  decide (nm ≤ 256 ∧ leAt b 2 2 ≤ 256 ∧ b.length = stop ∧ leAt b 4 60 = 0) && ascending (rs.map fun r => leAt r 0 1) &&
  rs.all fun r => onlyBits r [bitsAt 0 0 11, bitsAt 2 0 4, bitsAt 4 0 64]

def progForm (b : Bytes) : Bool :=
  let ne := leAt b 0 2
  let np := leAt b 2 2
  let ps := recs b np 0x11000 8
  let words := (ps.map fun p => leAt p 2 1).foldl (· + ·) 0
  decide (ne ≤ 256 ∧ np ≤ 4096 ∧ b.length = align64 (0x11000 + 8 * np + 8 * words) ∧ leAt b 4 60 = 0) &&
  ((recs b ne 0x40 8).all fun r => leAt r 1 1 == 0) &&
  ps.all fun p => leAt p 3 1 == 0 && decide (0x11000 + 8 * np ≤ leAt p 4 4 ∧ leAt p 4 4 + 8 * leAt p 2 1 ≤ b.length ∧ leAt p 4 4 % 8 = 0)

def policyForm (b : Bytes) : Bool :=
  let n := leAt b 0 1
  decide (b.length = 64 + 32 * n) && onlyBits (slice b 0 64) (bitsAt 0 0 8 :: emodelImgs.flatMap Img.bitsOf) &&
  (recs b n 0x40 32).all fun r => decide (leAt r 1 1 < 4 ∧ leAt r 3 1 = 0 ∧ leAt r 0xC 4 = 0)

def arbForm (b : Bytes) (reqs : Nat → Nat) : Bool :=
  decide (b.length = 7168 ∧ leAt b 0 64 = 0) &&
  (List.range 148).all fun n =>
    let r := slice b (0x40 + 48 * n) 48
    onlyBits r [bitsAt 0 0 16, (8 * 0x10, 4 * reqs n)]

def fabricForm (b : Bytes) : Bool :=
  let n := leAt b 0x84 2
  decide (b.length = 192 + 8 * n ∧ n ≤ 4096) && onlyBits (slice b 0 192) (bitsAt 0x84 0 16 :: fabricImgs.flatMap Img.bitsOf) &&
  (recs b n 0xC0 8).all fun r => leAt r 6 2 == 0

def routeForm (b : Bytes) : Bool :=
  b.length == 131072 && (List.range 65536).all fun n => bits (leAt b (2 * n) 2) 10 3 == 0

/-- One egress code's bytes of a TRAFFIC section. -/
def trafficPart (b : Bytes) (e : Nat) : Bytes := slice b (0x480 * e) 0x480

def trafficForm (b : Bytes) : Bool :=
  b.length == 27648 && (List.range 24).all fun e =>
    let c := trafficPart b e
    onlyBits c ((8 * 0x80, 32 * bits (leAt c 0x40 4) 0 9) :: trafficImgs.flatMap Img.bitsOf)

def secForm (f : FormeImg) (reqs : Nat → Nat) (ty : Nat) (b : Bytes) : Bool :=
  match ty with
  | 1 => b.length == 128 && onlyBits b nodeBits && decide (bits (leAt b 8 4) 31 1 = 0) &&
         (List.range 4).all fun n => decide (bits (leAt b (0x60 + 8 * n) 8) 63 1 = 0)
  | 2 => b.length == 128 && onlyBits b partBits
  | 3 => descForm b
  | 4 => maskForm f b
  | 5 => progForm b
  | 6 => policyForm b
  | 7 => arbForm b reqs
  | 8 => fabricForm b && decide (bits (leAt b 0x70 4) 31 1 = 0 ∧ bits (leAt b 0x78 4) 31 1 = 0)
  | 9 => routeForm b
  | 10 => trafficForm b
  | 11 => b.length == 64 && onlyBits b [bitsAt 0 0 32, bitsAt 0x10 0 384]
  | 12 => b.length == 64 && onlyBits b (alarmImgs.flatMap Img.bitsOf)
  | 13 => b.length == 64 && onlyBits b [bitsAt 0 0 16, bitsAt 2 0 1, bitsAt 4 0 64, bitsAt 0xC 0 1]
  | _ => decide (leAt b 0 2 ≤ 256 ∧ b.length = 64 + 4 * leAt b 0 2 ∧ leAt b 2 2 = 0 ∧ leAt b 8 56 = 0)

/-- The sections of a container. -/
def secsOf (b : Bytes) (es : List Bytes) : KMap Bytes :=
  es.foldl (fun m e => KMap.insert m (256 * leAt e 0 1 + leAt e 1 1) (slice b (leAt e 4 4) (leAt e 8 4))) []

/-- Whether a full forme holds what R398 asks: one section of every type, PART 0 defined, PART sections that define, and
KEYPOL sections of defined partitions only. -/
def FormeImg.whole (f : FormeImg) : Bool :=
  ([1, 3, 4, 5, 6, 7, 8, 9, 10, 12, 13, 14].all fun t => (KMap.find? f.secs (256 * t)).isSome) && f.defined 0 &&
  f.secs.all fun e => (e.1 / 256 != 2 || f.defined (e.1 % 256)) && (e.1 / 256 != 11 || f.defined (e.1 % 256))

/-- The image that a container carries. -/
def imgOf (b : Bytes) (es : List Bytes) : FormeImg :=
  { alg := leAt b 7 1, id := leAt b 0x10 4, ver := leAt b 0x14 4, epoch := leAt b 0x18 4, time := leAt b 0x20 8, secs := secsOf b es }

/-- Replace or remove sections of an image by those of a partial forme (R398). -/
def mergeForme (act p : FormeImg) : FormeImg :=
  let all := p.secs.foldl (fun m e => KMap.insert m e.1 e.2) act.secs
  let gone := (List.range 32).filter fun i => (KMap.find? p.secs (512 + i)).isSome && !p.defined i
  { act with id := p.id, ver := p.ver, epoch := p.epoch, time := p.time,
             secs := all.filter fun e => !(gone.contains (e.1 % 256) && (e.1 / 256 == 2 || e.1 / 256 == 11)) }

/-- Row 1 of Table 17.8: the container, or none where it is malformed. `act` lends a partial MASK section its
descriptors. -/
def parseForme (act : FormeImg) (reqs : Nat → Nat) (b : Bytes) : Option Container :=
  if ¬ headOk b then none
  else
    let es := (List.range (nSect b)).map (dirEntry b)
    if ¬ (es.all (dirOk b)) ∨ ¬ dirApart es then none
    else
      let f := imgOf b es
      let p := leAt b 6 1 == 1
      let n := bodyLen b
      let m := if p then mergeForme act f else f
      let body := b.take n
      if ¬ f.secs.all (fun e => secForm m reqs (e.1 / 256) e.2) then none
      else if ¬ p ∧ (¬ f.whole ∨ splice body 0x18 (natLe 4 0 ++ natLe 4 0 ++ natLe 8 0) ≠ f.bytes) then none
      else some { part := p, img := f, base := leAt b 0x28 48, result := leAt b 0x58 48, body := body,
                  key := slice b (n + 8) (keyLenOf f.alg), sig := slice b (n + 8 + keyLenOf f.alg) (sigLenOf f.alg) }

end Sys2Proof.Machine
end

