-- ==== Sys2Proof/Machine/FabTime.lean ====
section
/-!
DEFINITION. Heartbeats and what the node makes of them (R244, R386–R388, R390), and fabric time (R265, R266).
-/
namespace Sys2Proof.Machine

/-! Heartbeats (Table 11.8). -/

/-- The digest of the active forme, as its registers show it. -/
def formeDigest (s : State) : Nat :=
  leNat ((List.range 12).flatMap fun k => natLe 4 (s.rd (RSP_FORME_DIGEST.DIGEST k)))

def fwVer (s : State) : Nat := s.rd RSP_ID.FW_VER
def epochOf (s : State) : Nat := s.rd FAB_EPOCH.EPOCH

def heartbeatPay (s : State) : Bytes :=
  natLe 48 (formeDigest s) ++ natLe 4 (fwVer s) ++ natLe 4 (epochOf s) ++ natLe 8 (fabTime s) ++ natLe 2 (nodeId s) ++ natLe 6 0

/-- A link-local frame of this node. -/
def linkFrame (s : State) (ty : Nat) (pay : Bytes) : Frame := { ty := ty, dst := nodeId s, src := nodeId s, pay := pay }

def upPorts (s : State) : List Nat := (List.range 24).filter fun c => portUp s c

def hbNs (s : State) : Nat := s.rd TIME_HB_CFG.HB_US * 1000

/-- R244: every up port sends a HEARTBEAT, HB_US after the last. -/
def execHeartbeatSend (s : State) : Host.Outcome State Fault Refusal :=
  if s.tim.hbAt.any fun t => decide (s.now < t + hbNs s) then .next s
  else .next ((upPorts s).foldl (fun s c => enqueue c (linkFrame s 0x3A (heartbeatPay s)) s) { s with tim.hbAt := some s.now })

/-- R386: a HEARTBEAT has arrived. -/
def execHeartbeat (code : Nat) (pay : Bytes) (s : State) : Host.Outcome State Fault Refusal :=
  if ¬ portUp s code ∨ pay.length ≠ 72 then .next s
  else
    let n : Neighbor := { node := leAt pay 0x40 2, digest := leAt pay 0 48, fw := leAt pay 0x30 4, epoch := leAt pay 0x34 4, last := s.now }
    let s := { s with ras.nbrs := KMap.insert s.ras.nbrs code n }
    .next (s.wr RAS_NBR_LOST.NBR 0 (clrBit (s.rd RAS_NBR_LOST.NBR) code))

/-- The present neighbors, by egress code. -/
def presentNbrs (s : State) : List (Nat × Neighbor) :=
  s.ras.nbrs.filter fun e => portUp s e.1 && !(bitOf (s.rd RAS_NBR_LOST.NBR) e.1) &&
    decide (s.now ≤ e.2.last + s.rd RAS_HB_CFG.LOSS_N * hbNs s)

/-- Whether epoch `a` is later than `b` as serial numbers. -/
def laterEpoch (a b : Nat) : Bool :=
  let d := (a + 2 ^ 32 - b) % 2 ^ 32
  decide (0 < d ∧ d < 2 ^ 31)

def nbrCompared (s : State) (n : Neighbor) : Bool := n.epoch == epochOf s
def nbrDisagrees (s : State) (n : Neighbor) : Bool := nbrCompared s n && (n.digest != formeDigest s || n.fw != fwVer s)
def nbrAhead (s : State) (n : Neighbor) : Bool := laterEpoch n.epoch (epochOf s)

/-- Why a neighbor keeps a joining node out: 0 where it does not. -/
def nbrReason (s : State) (n : Neighbor) : Nat :=
  if nbrCompared s n ∧ n.digest ≠ formeDigest s then 1
  else if nbrCompared s n ∧ n.fw ≠ fwVer s then 2
  else if nbrAhead s n then 3
  else if n.epoch ≠ epochOf s then 4 else 0

/-- RAS_JOIN_STS while the node is joining (R390). -/
def joinReason (s : State) : State :=
  if s.rd RAS_NODE_STS.STATE ≠ 1 then s
  else match (presentNbrs s).find? fun e => nbrReason s e.2 != 0 with
  | some e => (s.wr RAS_JOIN_STS.REASON 0 (nbrReason s e.2)).wr RAS_JOIN_STS.EGRESS 0 e.1
  | none => (s.wr RAS_JOIN_STS.REASON 0 (if timeInBound s then 0 else 5)).wr RAS_JOIN_STS.EGRESS 0 0

def codeMask (l : List (Nat × Neighbor)) : Nat := (l.map fun e => 2 ^ e.1).foldl (· ||| ·) 0

/-- R387: the majority of the compared neighbors has disagreed often enough. -/
def disagreeFence (bad : List (Nat × Neighbor)) (s : State) : State :=
  if s.rd RAS_NODE_STS.STATE ≠ 2 ∨ s.ras.disagree < s.rd RAS_HB_CFG.DISAGREE_N then s
  else
    let s := { s with ras.disagree := 0 }
    if bad.any fun e => e.2.digest != formeDigest s then alarm [4] none s else fenceNode 3 s

/-- The present neighbors are compared (R386–R388). -/
def compareNbrs (s : State) : State :=
  let ns := presentNbrs s
  let bad := ns.filter fun e => nbrDisagrees s e.2
  let compared := (ns.filter fun e => nbrCompared s e.2).length
  let s := (s.wr RAS_NBR_DISAGREE.NBR 0 (codeMask bad)).wr RAS_NBR_AHEAD.NBR 0 (codeMask (ns.filter fun e => nbrAhead s e.2))
  let s := s.bumpBy (RAS_CNT.COUNT 7) 0 bad.length
  let s := { s with ras.disagree := if compared < 2 * bad.length then s.ras.disagree + 1 else 0 }
  joinReason (disagreeFence bad s)

/-- R386: the neighbors are compared once every HB_US. -/
def execHeartbeatEvaluate (s : State) : Host.Outcome State Fault Refusal := .next (s.atPeriod .evaluate (hbNs s) compareNbrs)

/-- R386: a neighbor has sent no valid HEARTBEAT for LOSS_N + 1 intervals. -/
def execNeighborLost (code : Nat) (s : State) : Host.Outcome State Fault Refusal :=
  match KMap.find? s.ras.nbrs code with
  | none => .next s
  | some n =>
    if ¬ portUp s code ∨ bitOf (s.rd RAS_NBR_LOST.NBR) code ∨ s.now < n.last + (s.rd RAS_HB_CFG.LOSS_N + 1) * hbNs s then .next s
    else .next (report .chip { sev := 0, subsys := 10, cause := Config.causeCode 63, unit := code } (s.raise RAS_NBR_LOST.NBR 0 (2 ^ code)))

/-! Fabric time. -/

/-- One nanosecond passes: fabric time follows, with the rate correction. -/
def tick (s : State) : State :=
  let f := s.tim.frac + s.tim.rate
  let (n, f) := if 1000000 ≤ f then (2, f - 1000000) else if f ≤ -1000000 then (0, f + 1000000) else (1, f)
  { s.addWrap TIME_NOW.NS 0 n with now := s.now + 1, tim.frac := f }

def parentCode (s : State) : Nat := 2 * s.rd TIME_CFG.PARENT + s.rd TIME_CFG.PARENT_HALF
def isGm (s : State) : Bool := s.flag TIME_CFG.GM

/-- R265: TIME_SYNC goes to every up port but the parent's, INTERVAL_US after the last. -/
def execTimeSyncSend (s : State) : Host.Outcome State Fault Refusal :=
  if s.tim.syncAt.any fun t => decide (s.now < t + s.rd TIME_CFG.INTERVAL_US * 1000) then .next s
  else
  let pay := natLe 10 0 ++ natLe 2 s.tim.txSeq ++ natLe 2 (if isGm s then nodeId s else s.tim.gm) ++
    natLe 1 (if isGm s then 0 else s.tim.steps + 1) ++ natLe 1 0
  let codes := (upPorts s).filter fun c => isGm s || c != parentCode s
  .next (codes.foldl (fun s c => enqueue c (linkFrame s 0x3B pay) s) { s with tim.txSeq := (s.tim.txSeq + 1) % 65536, tim.syncAt := some s.now })

/-- R265: a TIME_SYNC has arrived from the parent, `frac`/65,536 ns into the nanosecond. -/
def execTimeSync (code : Nat) (pay : Bytes) (frac : Nat) (s : State) : Host.Outcome State Fault Refusal :=
  if isGm s ∨ code ≠ parentCode s ∨ ¬ portUp s code ∨ pay.length ≠ 16 then .next s
  else
    let s := { s with tim.t1 := leAt pay 0 8 * 65536 + leAt pay 8 2, tim.t2 := fabTime s * 65536 + frac % 65536,
                      tim.seq := leAt pay 0xA 2, tim.gm := leAt pay 0xC 2, tim.steps := leAt pay 0xE 1,
                      tim.asked := true, tim.lastSync := s.now }
    let s := (s.wr TIME_STS.LOST 0 0).bump (TIME_CNT.COUNT 0)
    .next (enqueue code (linkFrame s 0x3C (natLe 10 0 ++ natLe 2 s.tim.seq ++ natLe 4 0)) s)

/-- R265: a TIME_DREQ has arrived; the parent answers with its arrival time. -/
def execTimeDreq (code : Nat) (pay : Bytes) (frac : Nat) (s : State) : Host.Outcome State Fault Refusal :=
  if ¬ portUp s code ∨ pay.length ≠ 16 then .next s
  else .next (enqueue code (linkFrame s 0x3D (natLe 8 (fabTime s) ++ natLe 2 (frac % 65536) ++ natLe 2 (leAt pay 0xA 2) ++ natLe 4 0)) s)

/-- The node goes out of bound (R266): counted and reported, and the gate lists are suspended. -/
def outOfBound (s : State) : State :=
  if s.flag TIME_STS.OOB then s
  else
    let s := ((s.wr TIME_STS.OOB 0 1).wr TIME_STS.LOCKED 0 0).bump (TIME_CNT.COUNT 2)
    let s := (List.range 24).foldl (fun s c => if codeNames s c then s.wr FAB_GCL_STS.SUSP c 1 else s) s
    report .chip { sev := 0, subsys := 13, cause := Config.causeCode 64 } s

/-- An interval's offset, in halves of 1/65,536 ns, counts toward the bound (R266). -/
def boundStep (off : Int) (s : State) : State :=
  let good := decide (-(2 * 250 * 65536) ≤ off ∧ off ≤ 2 * 250 * 65536)
  let s := { s with tim.good := if good then s.tim.good + 1 else 0 }
  if off < -(2 * 500 * 65536) ∨ 2 * 500 * 65536 < off then outOfBound s
  else if s.flag TIME_STS.OOB ∧ 16 ≤ s.tim.good then
    let s := (s.wr TIME_STS.OOB 0 0).wr TIME_STS.LOCKED 0 1
    (List.range 24).foldl (fun s c => if (s.port c).gclN = 0 then s.wr FAB_GCL_STS.SUSP c 0 else s) s
  else s

/-- Saturate to 32 bits, two's complement. -/
def satOff (n : Int) : Nat := ofInt 32 (max (-2147483648) (min 2147483647 n))

/-- R265: T4 has come back: the offset is formed, and the child steers, steps forward, or slews. -/
def execTimeDresp (code : Nat) (pay : Bytes) (s : State) : Host.Outcome State Fault Refusal :=
  if isGm s ∨ code ≠ parentCode s ∨ ¬ portUp s code ∨ pay.length ≠ 16 ∨ ¬ s.tim.asked ∨ leAt pay 0xA 2 ≠ s.tim.seq then .next s
  else
    let t4 : Int := (leAt pay 0 8 * 65536 + leAt pay 8 2 : Nat)
    let off : Int := ((s.tim.t2 : Int) - s.tim.t1) - (t4 - s.tim.t3)
    let ns := off.tdiv 131072
    let s := { s with tim.asked := false }.wr TIME_OFFSET.OFFSET 0 (satOff ns)
    let s :=
      if off < -(2 * 1000 * 65536) then
        { (s.addWrap TIME_NOW.NS 0 (-ns).toNat).bump (TIME_CNT.COUNT 1) with tim.rate := 0 }
      else if 0 < off then { s with tim.rate := -100 }
      else if off = 0 then { s with tim.rate := 0 }
      else { s.drawn with tim.rate := (s.draw % 101 : Nat) }
    .next (boundStep off s)

/-- R266: intervals pass without a TIME_SYNC: after four LOST is set, and at the fifth the node goes out of bound. -/
def execTimeSyncLoss (s : State) : Host.Outcome State Fault Refusal :=
  let n := s.rd TIME_CFG.INTERVAL_US * 1000
  if isGm s ∨ s.now < s.tim.lastSync + 4 * n then .next s
  else
    let s := { s with tim.good := 0 }
    let s := if s.flag TIME_STS.LOST then s else (s.wr TIME_STS.LOST 0 1).bump (TIME_CNT.COUNT 3)
    .next (if s.now < s.tim.lastSync + 5 * n then s else outOfBound s)

/-- R265: a write of TIME_SET. -/
def execTimeSet (value : Nat) (s : State) : Host.Outcome State Fault Refusal :=
  if isGm s then .next (s.wr TIME_NOW.NS 0 value) else .next s

end Sys2Proof.Machine
end

