-- ==== Sys2Proof/Machine/FormeCheck.lean ====
section
/-!
DEFINITION. The checks of a forme (R400, Table 17.8), in the order of the table, on the image as it would stand after
the commit.
-/
namespace Sys2Proof.Machine

/-! The counter catalogue (R458). -/

/-- The offsets of counters in a register window. -/
def catalogue : Win → List Nat
  | .gut => [0x80]
  | .krn => [0x00, 0x10, 0x18, 0x20, 0x24]
  | .flo => (List.range 8).map (0xA0 + 4 * ·)
  | .cwd => (List.range 4).map (0x90 + 4 * ·)
  | .ream => (List.range 11).map (0x90 + 4 * ·) ++ (List.range 10).map (0x100 + 8 * ·) ++ (List.range 10).map (0x180 + 8 * ·)
  | .tier => (List.range 9).map (0xD0 + 4 * ·)
  | .rch => (List.range 11).map (0xC0 + 4 * ·)
  | .col => (List.range 12).map (0xC0 + 4 * ·)
  | .time => (List.range 4).map (0x30 + 4 * ·)
  | .hst => [0x30, 0x38, 0x40]
  | .prt => (List.range 4).map (0x10 + 4 * ·)
  | .rsp => (List.range 8).map (0xC0 + 4 * ·) ++ [0x124] ++ (List.range 4).map (0x180 + 4 * ·)
  | .pcm => [0x0C, 0x10, 0x60] ++ (List.range 8).map (0x40 + 4 * ·)
  | .mgt => (List.range 11).map (0x40 + 8 * ·) ++ [0xA4] ++ (List.range 4).map (0xB0 + 4 * ·)
  | .ras => (List.range 8).map (0x80 + 4 * ·) ++ [0xF0]
  | .fab => (List.range 18).map (0x100 + 4 * ·) ++ (List.range 24).map (0x200 + 8 * ·) ++ (List.range 8).map (0x2C0 + 4 * ·)
  | .cmp => [0x40] ++ (List.range 8).map (0x20 + 4 * ·)
  | .gal => [0x20, 0x28, 0x30] ++ (List.range 5).map (0x40 + 4 * ·)
  | .stk => (List.range 8).map (0x10 + 4 * ·)
  | .plt => [0x30] ++ (List.range 8).map (0x10 + 4 * ·)

/-- The window of a subsystem of Table 1.2, where it has one. -/
def subsysWin : Nat → Option Win
  | 1 => some .cmp | 2 => some .plt | 3 => some .stk | 4 => some .gal | 5 => some .krn | 6 => some .flo | 7 => some .cwd
  | 8 => some .ream | 9 => some .tier | 10 => some .fab | 11 => some .rch | 12 => some .col | 13 => some .time
  | 14 => some .gut | 15 => some .hst | 17 => some .rsp | 18 => some .mgt | 19 => some .pcm | 20 => some .ras
  | _ => none

/-- The units of a per-unit window; 1 for a single window. -/
def winUnits : Win → Nat
  | .cmp => 64
  | .plt => 8
  | .stk => 8
  | .gal => 4
  | _ => 1

/-- The sensors of Table 20.6. -/
def sensorIds : List Nat :=
  ([0x100, 0x200, 0x300].flatMap fun b => (List.range 10).map (b + ·)) ++ (List.range 32).map (0x400 + ·) ++
  (List.range 8).map (0x500 + ·) ++ [0x600, 0x601]

/-- Where a counter identifier reads: the window, the offset and the instance. -/
def telReg? (id : Nat) : Option (Win × Nat × Nat) :=
  let inst := bits id 21 6
  let sel := bits id 16 5
  let off := bits id 0 16
  match subsysWin (bits id 27 5) with
  | none => none
  | some w =>
    if w = .hst ∧ (catalogue .prt).contains off then if inst = 0 then some (.prt, off, sel) else none
    else if ¬ (catalogue w).contains off ∨ winUnits w ≤ inst then none
    else match w with
    | .fab =>
      if off < 0x124 then if inst = 0 ∧ sel = 0 then some (w, off, 0) else none
      else if inst = 0 ∧ bits sel 0 4 < 12 then some (w, off, 2 * bits sel 0 4 + bits sel 4 1) else none
    | .ream => if 0x100 ≤ off then if inst = 0 then some (w, off, sel) else none
               else if inst = 0 ∧ sel = 0 then some (w, off, 0) else none
    | _ => if sel = 0 then some (w, off, inst) else none

/-- R458: whether an identifier names a counter of the catalogue or a sensor. -/
def telOk (id : Nat) : Bool :=
  if bits id 27 5 = 0 then bits id 16 11 == 0 && sensorIds.contains (bits id 0 16) else (telReg? id).isSome

/-! Row 5: fields in their ranges. -/

def descOk (r : Bytes) : Bool :=
  let x := descOfBytes r
  decide (x.geo.kf ≤ 6 ∧ x.geo.vf ≤ 6 ∧ 1 ≤ leAt r 2 1 ∧ leAt r 2 1 ≤ 8 ∧ 6 ≤ leAt r 3 1 % 16 ∧ leAt r 3 1 % 16 ≤ 10 ∧
    x.policy ≠ 3 ∧ x.geo.solid ≤ 65536)

def maskOk (r : Bytes) : Bool :=
  let m := maskOfBytes r
  (!m.bitmap || decide (6 ≤ m.bmG ∧ m.bmG ≤ 10)) && (!m.windowed || decide (1 ≤ m.window))

def policyOk (r : Bytes) : Bool :=
  let p := polOfBytes r
  decide (leAt r 0 1 < 32 ∧ 1 ≤ p.weight ∧ 1 ≤ p.thr ∧ p.thr ≤ 1024 ∧ 1 ≤ p.maxReams ∧ p.maxReams ≤ 1024 ∧ 1 ≤ p.poolMax ∧
    p.poolMax ≤ 8192) && p.classes.all fun w => decide (1 ≤ w)

def bankOk (t w : Nat) : Bool := decide (w = 0 ∨ ((t = 1 ∨ t = 2) ∧ w = 1) ∨ (t = 3 ∧ w = 2) ∨ (t = 4 ∧ w = 3))

def poolEn (b : Bytes) (n : Nat) : Bool := bitOf (leAt b 0x44 1) (4 + n)
def poolImg (b : Bytes) (n : Nat) : Nat := leAt b (0x60 + 8 * n) 8

def nodeOk (b : Bytes) : Bool :=
  nodeImgs.all (Img.ok b) &&
  ((List.range 4).all fun k => bankOk (bits (leAt b 0x24 4) (8 * k + 4) 4) (bits (leAt b 0x24 4) (8 * k) 2)) &&
  (List.range 4).all fun n =>
    let v := poolImg b n
    !poolEn b n || (decide (1 ≤ bits v 34 17 ∧ bits v 34 17 ≤ 65536) &&
      (!bitOf v 62 || decide (8 ≤ bits v 29 5 ∧ bits v 29 5 ≤ 20 ∧ bits v 58 4 ≤ bits v 54 4)))

def partOk (b : Bytes) : Bool :=
  partImgs.all (Img.ok b) &&
  decide (1 ≤ leAt b 3 1 % 16 ∧ 64 ≤ leAt b 6 2 ∧ leAt b 6 2 ≤ 16384 ∧ leAt b 0x28 2 ≤ leAt b 0x2A 2 ∧
    leAt b 0x20 8 &&& leAt b 0x18 8 = leAt b 0x20 8)

def fabricOk (b : Bytes) : Bool :=
  let es := recs b (leAt b 0x84 2) 0xC0 8
  fabricImgs.all (Img.ok b) && decide (bits (leAt b 0x74 4) 0 16 < bits (leAt b 0x74 4) 16 16) &&
  (es.all fun e => decide (leAt e 0 2 ≤ leAt e 2 2)) &&
  decide (es.Pairwise fun x y => leAt x 2 2 < leAt y 0 2 ∨ leAt y 2 2 < leAt x 0 2)

def trafficOk (b : Bytes) : Bool :=
  (List.range 24).all fun e =>
    let c := trafficPart b e
    trafficImgs.all (Img.ok c) && decide (bits (leAt c 0 4) 16 8 < bits (leAt c 0 4) 24 8)

/-- Whether every field of a section is in its range. -/
def secOk (m : FormeImg) (ty inst : Nat) (b : Bytes) : Bool :=
  match ty with
  | 1 => nodeOk b
  | 2 => !bitOf (leAt b 0 1) 0 || partOk b
  | 3 => (recs b (leAt b 0 2) 0x40 8).all descOk
  | 4 => (recs b (leAt b 0 2) 0x40 16).all maskOk
  | 5 => ((recs b (leAt b 0 2) 0x40 8).all fun r => decide (leAt r 2 2 < 8192 ∧ leAt r 4 2 < 8192 ∧ leAt r 6 2 < 8192)) &&
         (recs b (leAt b 2 2) 0x11000 8).all fun r => decide (1 ≤ leAt r 2 1 ∧ leAt r 2 1 ≤ 64)
  | 6 => decide (1 ≤ leAt b 0 1 ∧ leAt b 0 1 ≤ 32) && emodelImgs.all (Img.ok b) && (recs b (leAt b 0 1) 0x40 32).all policyOk
  | 7 => (List.range 148).all fun n => fldOk GUT_ARB_CFG.STARVE_THR (leAt b (0x40 + 48 * n) 2)
  | 8 => fabricOk b
  | 10 => trafficOk b
  | 11 => decide (1 ≤ leAt b 0 2 ∧ leAt b 0 2 ≤ leAt b 2 2 ∧ leAt b 2 2 ≤ 4095) && m.defined inst
  | 12 => alarmImgs.all (Img.ok b)
  | 13 => fldOk PCM_POL.CAP_W (leAt b 0 2)
  | 14 => (recs b (leAt b 0 2) 0x40 4).all fun r => telOk (leNat r)
  | _ => true

def fieldsOk (m : FormeImg) : Bool := m.secs.all fun e => secOk m (e.1 / 256) (e.1 % 256) e.2

/-! Row 6: resources given twice, and link-key slots (R355). -/

def FormeImg.parts (m : FormeImg) : List Nat := (List.range 32).filter m.defined
def FormeImg.blocks (m : FormeImg) (p : Nat) : Nat := leAt (m.sec 2 p) 8 8
def FormeImg.sets (m : FormeImg) (p : Nat) : Nat := leAt (m.sec 2 p) 0x10 8
def FormeImg.ways (m : FormeImg) (p : Nat) : Nat := leAt (m.sec 2 p) 0x18 8

/-- The windows of a partition that are valid: window, base and size in units of 256 MiB. -/
def FormeImg.wins (m : FormeImg) (p : Nat) : List (Nat × Nat × Nat) :=
  ((List.range 8).filter fun k => bitOf (leAt (m.sec 2 p) (0x40 + 8 * k) 1) 7).map fun k =>
    let b := slice (m.sec 2 p) (0x40 + 8 * k) 8
    (leAt b 0 1 % 32, leAt b 2 2 % 4096, leAt b 4 2 % 4096)

/-- The key-slot range of a partition under a KEYPOL section. -/
def FormeImg.keyRange (m : FormeImg) (p : Nat) : Option (Nat × Nat) :=
  (KMap.find? m.secs (256 * 11 + p)).map fun b => (leAt b 0 2, leAt b 2 2)

def disjoint (l : List Nat) : Bool := l.Pairwise fun x y => x &&& y = 0

/-- The port image of an egress code. -/
def FormeImg.port (m : FormeImg) (c : Nat) : Nat := leAt (m.sec 8 0) (4 * c) 4
def FormeImg.logical (m : FormeImg) (c : Nat) : Bool := decide (c < 24) && (c % 2 == 0 || bits (m.port (c - 1)) 29 2 == 2)
def FormeImg.protectedPort (m : FormeImg) (c : Nat) : Bool := m.logical c && bitOf (m.port c) 28

def linkSlotsOk (m : FormeImg) : Bool :=
  let l := ((List.range 24).filter m.protectedPort).map fun c => bits (m.port c) 16 8
  decide (l.Nodup ∧ 0 ∉ l)

def apart (m : FormeImg) : Bool :=
  let ps := m.parts
  disjoint (ps.map m.blocks) && disjoint (ps.map m.sets) && disjoint (ps.map m.ways) &&
  decide ((ps.flatMap fun p => (m.wins p).map (·.1)).Nodup) &&
  decide ((ps.filterMap m.keyRange).Pairwise fun x y => x.2 < y.1 ∨ y.2 < x.1) && linkSlotsOk m

/-! Row 7: rules across sections. -/

/-- The partition that a channel set, numbered 8 × stack + set, is given to. -/
def FormeImg.setOwner (m : FormeImg) (n : Nat) : Option Nat := m.parts.find? fun p => bitOf (m.sets p) n

/-- R29: a valid entry marked PROT names a protected egress. -/
def routesOk (m : FormeImg) : Bool :=
  let b := m.sec 9 0
  (List.range 65536).all fun n =>
    let e := leAt b (2 * n) 2
    !bitOf e 15 || !bitOf e 13 || m.protectedPort (bits e 0 5) || (bitOf e 14 && m.protectedPort (bits e 5 5))

/-- The bytes of the table area of Table 8.1 under a NODE section (R171). -/
def tableArea (b : Bytes) : Nat :=
  let c := leAt b 8 4
  let nf := 2 ^ bits c 0 5
  let nc := 2 ^ bits c 8 4
  round4k (32 * nf) + round4k (4 * nf) + round4k (64 * nc) + round4k (64 * nc * 2 ^ bits c 12 4) +
  round4k (4100 * bits (leAt b 0x20 4) 0 24) + round4k (64 * 393216)

def tableOk (m : FormeImg) : Bool :=
  let b := m.sec 1 0
  let base := bits (leAt b 0x10 8) 12 28 * 4096
  let lim := bits (leAt b 0x18 8) 12 28 * 4096
  decide (base + tableArea b ≤ lim) &&
  (List.range (min 64 (ceilDiv lim (2 ^ 30) - base / 2 ^ 30))).all fun k => m.setOwner ((base / 2 ^ 30 + k) % 64) == none

/-- R192: press mode asks a block in every region where the partition has a channel set. -/
def pressOk (m : FormeImg) (p : Nat) (pol : Policy) : Bool :=
  !pol.press || (List.range 4).all fun r => bits (m.sets p) (16 * r) 16 == 0 || bits (m.blocks p) (16 * r) 16 != 0

/-- R313: the windows of a partition. -/
def winsOk (m : FormeImg) (p : Nat) : Bool :=
  (m.wins p).all fun w =>
    let (_, base, size) := w
    decide (1 ≤ size ∧ base + size ≤ 3072) &&
    (List.range (ceilDiv (base + size) 4 - base / 4)).all fun k =>
      let o := m.setOwner ((base / 4 + k) % 64)
      o == some p || (p == 0 && o == none)

/-- R215: the enabled pools. -/
def poolsOk (m : FormeImg) : Bool :=
  let b := m.sec 1 0
  let ns := (List.range 4).filter (poolEn b)
  let span := fun n => (bits (poolImg b n) 0 16, bits (poolImg b n) 0 16 + bits (poolImg b n) 34 17)
  decide (ns.Pairwise fun x y => (span x).2 ≤ (span y).1 ∨ (span y).2 ≤ (span x).1) &&
  ns.all fun n =>
    let ports := (List.range 4).filter fun k => bitOf (leAt b (0x48 + 4 * k) 4) 31 && bits (leAt b (0x48 + 4 * k) 4) 0 2 == n
    decide ((span n).2 ≤ 65536 ∧ ports.length ≠ 0 ∧ ports.length ≠ 3) &&
    (!bitOf (poolImg b n) 62 || ports.all fun k => bits (leAt b (0x48 + 4 * k) 4) 26 2 != 1)

/-- R30, R192, R300, R313 for one partition. -/
def partRules (m : FormeImg) (p : Nat) : Bool :=
  let b := m.sec 2 p
  match m.policy? (leAt b 1 1 % 32) with
  | none => false
  | some pol =>
    pressOk m p pol && (leAt b 4 2 == 0 || bitOf (leAt b 0 1) 2) &&
    decide (65536 + 16544 * popCount (m.blocks p) 64 ≤ 1024 * leAt b 6 2) && winsOk m p

def rulesOk (m : FormeImg) : Bool :=
  routesOk m && tableOk m && poolsOk m && m.parts.all (partRules m) &&
  decide ((m.parts.map fun p => leAt (m.sec 2 p) 6 2).foldl (· + ·) 0 ≤ 16384)

/-! Row 8: what runs under the active forme. -/

def inUse (s : State) (m : FormeImg) : Bool :=
  !m.defined 0 ||
  (s.flo.convs.any fun e => e.2.state != 0 && m.desc? e.2.desc != desc? s e.2.desc) ||
  s.key.slots.any fun e => (e.2.state == 1 || e.2.state == 2) &&
    match m.keyRange e.2.part with
    | some (lo, hi) => !decide (lo ≤ e.1 ∧ e.1 ≤ hi)
    | none => true

/-! The checks in order. -/

/-- R344: the key matches a programmed, unrevoked owner slot, and the signature verifies. -/
def sigOk (s : State) (c : Container) : Bool :=
  ((List.range 4).any fun n => KMap.find? s.fus.owners n == some (c.img.alg, Config.sha384 c.key) && !bitOf s.fus.revoked n) &&
  Config.verify c.key c.sig (natLe 48 (Config.sha384 c.body))

/-- Rows 1 to 3 of Table 17.8: the container, or the status that refuses it. -/
def checkOuter (s : State) (act : FormeImg) (b : Bytes) : Except Nat Container :=
  match parseForme act arbReqs b with
  | none => .error ST.FORME_FORMAT
  | some c =>
    if ¬ sigOk s c then .error ST.FORME_SIG
    else match KMap.find? c.img.secs 256 with
      | some n => if fwVer s < leAt n 4 4 then .error ST.FORME_FW else .ok c
      | none => .ok c

/-- Row 4: `none` where it does not apply. -/
def checkBase (s : State) (boot : Bool) (c : Container) : Option Nat :=
  if boot then if c.part then some ST.FORME_BASE else none
  else
    let node := KMap.find? c.img.secs 256
    if c.part ∧ c.base ≠ s.fme.active.digest then some ST.FORME_BASE
    else if node.isSome ∧ node ≠ KMap.find? s.fme.active.secs 256 then some ST.FORME_BOOT_ONLY
    else if c.img.epoch = 0 ∨ ¬ laterEpoch c.img.epoch (epochOf s) then some ST.FORME_EPOCH
    else none

/-- Table 17.8: the image that the commit would make active, or the status of the first row that applies. -/
def checkForme (s : State) (boot : Bool) (b : Bytes) : Except Nat FormeImg :=
  match checkOuter s (if boot then {} else s.fme.active) b with
  | .error e => .error e
  | .ok c =>
    match checkBase s boot c with
    | some e => .error e
    | none =>
      let m := if c.part then mergeForme s.fme.active c.img else c.img
      if ¬ fieldsOk m then .error ST.FORME_FIELD
      else if ¬ apart m then .error ST.FORME_OVERLAP
      else if ¬ rulesOk m then .error ST.FORME_CONSTRAINT
      else if ¬ boot ∧ inUse s m then .error ST.FORME_IN_USE
      else if c.part ∧ m.digest ≠ c.result then .error ST.FORME_BASE
      else .ok m

/-- Verify a container (R400): a refusal is counted, a signature refusal also toward AUTH_NODE. -/
def verifyForme (boot : Bool) (b : Bytes) (s : State) : Except Nat FormeImg × State :=
  let r := checkForme s boot b
  match r with
  | .ok _ => (r, s.bump (RSP_FORME_CNT.COUNT 0))
  | .error e =>
    let s := s.bump (RSP_FORME_CNT.COUNT 1)
    (r, if e = ST.FORME_SIG then authFailNode s else s)

end Sys2Proof.Machine
end

