-- ==== Sys2Proof/Machine/FormeApply.lean ====
section
/-!
DEFINITION. Applying a forme (R402, R404, Table 17.10, step 8 of Table 17.12): what each section writes, the shadows it
writes before the swap, and the image made active. At start-up every section is applied; at run time the changed ones.
-/
namespace Sys2Proof.Machine

/-- Whether a section of an image differs from that of another. -/
def secDiffers (m act : FormeImg) (k : Nat) : Bool := KMap.find? m.secs k != KMap.find? act.secs k

/-! NODE and PART. -/

def applyNode (m : FormeImg) (s : State) : State :=
  let b := m.sec 1 0
  let s := nodeImgs.foldl (fun s i =>
    if i.win = .cmp then (List.range 64).foldl (fun s g => i.write b g s) s else i.write b 0 s) s
  s.wr FAB_NODE_ID.NODE_ID 0 (leAt b 0 2)

/-- The owner that an image gives block `g` or way `w` of a region. -/
def FormeImg.blockOwner (m : FormeImg) (g : Nat) : Option Nat := m.parts.find? fun p => bitOf (m.blocks p) g
def FormeImg.wayOwner (m : FormeImg) (n : Nat) : Option Nat := m.parts.find? fun p => bitOf (m.ways p) n

def setBlockOwner (m : FormeImg) (g : Nat) (s : State) : State :=
  let o := m.blockOwner g
  (s.wr CMP_OWNER.ASSIGNED g (b2n o.isSome)).wr CMP_OWNER.OWNER g (o.getD 0)

def setSetOwner (m : FormeImg) (n : Nat) (s : State) : State :=
  let o := m.setOwner n
  (s.wr (STK_SET_OWNER.ASSIGNED (n % 8)) (n / 8) (b2n o.isSome)).wr (STK_SET_OWNER.OWNER (n % 8)) (n / 8) (o.getD 0)

/-- A way whose owner or SEALED bit changes loses its lines (R110). -/
def setWayOwner (m : FormeImg) (n : Nat) (s : State) : State :=
  let (r, w) := (n / 16, n % 16)
  let o := m.wayOwner n
  let sealed := o.any fun p => bitOf (leAt (m.sec 2 p) 0x20 8) n
  let same := decide (wayOwner s r w = o) && waySealed s r w == sealed
  let s := (s.wr (GAL_WAY_OWNER.ASSIGNED w) r (b2n o.isSome)).wr (GAL_WAY_OWNER.OWNER w) r (o.getD 0)
  let s := s.wr (GAL_WAY_OWNER.SEALED w) r (b2n sealed)
  if same then s else galDrop r (fun v _ => v == w) s

/-- The owners of a region's blocks, channel sets and ways (R58, R102, R110). -/
def applyOwners (m : FormeImg) (r : Nat) (s : State) : State :=
  let moved := (List.range 16).filter fun i => decide (blockOwner s (16 * r + i) ≠ m.blockOwner (16 * r + i))
  let s := (List.range 16).foldl (fun s i => setWayOwner m (16 * r + i) (setSetOwner m (16 * r + i) (setBlockOwner m (16 * r + i) s))) s
  moved.foldl (fun s i => replacePending (16 * r + i) s) s

/-- The windows of R313. -/
def applyWins (m : FormeImg) (s : State) : State :=
  let ws := m.parts.flatMap fun p => (m.wins p).map fun w => (p, w)
  (List.range 32).foldl (fun s k =>
    let x := ws.find? fun w => w.2.1 = k
    let s := (s.wr HST_WIN_CFG.EN k (b2n x.isSome)).wr HST_WIN_CFG.PART k ((x.map (·.1)).getD 0)
    (s.wr HST_WIN_BASE.VALUE k ((x.map (·.2.2.1)).getD 0)).wr HST_WIN_SIZE.VALUE k ((x.map (·.2.2.2)).getD 0)) s

/-- The registers of one partition. -/
def applyPart (m : FormeImg) (p : Nat) (s : State) : State :=
  if ¬ m.defined p then s.wr HST_PRT_CFG.EN p 0
  else
    let b := m.sec 2 p
    let s := (s.wr HST_PRT_CFG.EN p (bits (leAt b 0 1) 6 1)).wr HST_PRT_CFG.FETCH_W p (leAt b 3 1)
    let s := (s.wr (TIER_PART_POOL.EN p) 0 (bits (leAt b 2 1) 2 1)).wr (TIER_PART_POOL.POOL p) 0 (leAt b 2 1)
    let s := (s.wr COL_AUDIT_CFG.N p (leAt b 4 2)).wr COL_QUOTA.QUOTA_KIB p (leAt b 6 2)
    (partImgs.foldl (fun s i => i.write b p s) (settleMeter p s)).wr FAB_MTR_CTL.EN p (leAt b 0x30 1)

/-! Shadows (R404). -/

def shadowWeights (m : FormeImg) (p : Nat) (s : State) : State :=
  match m.policy? (leAt (m.sec 2 p) 1 1 % 32) with
  | none => s
  | some pol => (List.range 16).foldl (fun s c => s.wr (REAM_CW.W c) p (pol.classes.getD c 0)) (s.wr REAM_PW.WEIGHT p pol.weight)

def shadowArb (m : FormeImg) (s : State) : State :=
  let b := m.sec 7 0
  (List.range 148).foldl (fun s n => (List.range (arbReqs n)).foldl (fun s j =>
    s.wr (GUT_ARB_PRIO.PRIO j) n (bits (leAt b (0x40 + 48 * n + 0x10 + j / 2) 1) (4 * (j % 2)) 4)) s) s

def shadowRoutes (m : FormeImg) (s : State) : State :=
  let b := m.sec 9 0
  (List.range 65536).foldl (fun s n =>
    if s.rd (FAB_RT_SHADOW.ENTRY n) = leAt b (2 * n) 2 then s else s.wr (FAB_RT_SHADOW.ENTRY n) 0 (leAt b (2 * n) 2)) s

/-- Write the shadows of the sections `ch` names from an image. -/
def writeShadows (m : FormeImg) (ch : Nat → Bool) (s : State) : State :=
  let s := (m.parts.filter fun p => ch (256 * 6) || ch (512 + p)).foldl (fun s p => shadowWeights m p s) s
  let s := if ch (256 * 7) then shadowArb m s else s
  if ch (256 * 9) then shadowRoutes m s else s

/-! The other sections. -/

def applyArb (m : FormeImg) (boot : Bool) (s : State) : State :=
  let b := m.sec 7 0
  (List.range 148).foldl (fun s n =>
    let s := (s.wr GUT_ARB_CFG.STARVE_THR n (leAt b (0x40 + 48 * n) 2)).wr GUT_ARB_STS.COMMIT_PEND n 1
    if boot then applyCommit n s else s) s

/-- Whether a port's image, or whether its code names a logical port, changes. -/
def portChanges (m : FormeImg) (s : State) (c : Nat) : Bool :=
  (regFields .fab 0x8).any (fun f => s.rd f c != imgVal (m.port c) f) || codeNames s c != m.logical c

/-- A changed port image is written and brings the port up again (Table 11.2), not counted under R239. A port that
R239 disabled stays so. -/
def applyPort (m : FormeImg) (c : Nat) (s : State) : State :=
  let v := m.port c
  let s := (regFields .fab 0x8).foldl (fun s f => s.wr f c (imgVal v f)) (eraseLink c s)
  if s.flag FAB_PORT_STS.FLAP_DIS c then s else portSet c (if bitOf v 31 && m.logical c then 1 else 0) 0 s

/-- The images of the FABRIC section; the EN bits of RCH_CFG and COL_CFG are the NODE section's (R409). -/
def applyFabric (m : FormeImg) (boot : Bool) (s : State) : State :=
  let b := m.sec 8 0
  let s := ((List.range 24).filter fun c => boot || portChanges m s c).foldl (fun s c => applyPort m c s) s
  (fabricImgs.drop 24).foldl (fun s i => (regFields i.win i.off).foldl (fun s f =>
    if f = RCH_CFG.EN ∨ f = COL_CFG.EN then s else s.wr f 0 (imgVal (i.val b) f)) s) s

/-- A gate list of the TRAFFIC section goes to the administrative bank. -/
def loadGates (c : Bytes) (e : Nat) (s : State) : State :=
  let n := bits (leAt c 0x40 4) 0 9
  let s := (((s.wr FAB_GCL_CFG.GATED e (leAt c 0x43 1)).wr FAB_GCL_CFG.ADMIN_N e n).wr FAB_GCL_BASE.BASE e (leAt c 0x48 8)).wr FAB_GCL_CYCLE.CYCLE_NS e (leAt c 0x50 4)
  (List.range n).foldl (fun s k => s.wr (FAB_GCL_ADMIN.ENTRY k) e (leAt c (0x80 + 4 * k) 4)) (s.wr FAB_GCL_SWITCH.T e (leAt c 0x58 8))

/-- Whether a gate list is the operational one. -/
def gatesRun (c : Bytes) (e : Nat) (s : State) : Bool :=
  let n := bits (leAt c 0x40 4) 0 9
  let p := s.port e
  decide (p.gclN = n ∧ p.gclBase = leAt c 0x48 8 ∧ p.gclCycle = leAt c 0x50 4) &&
  (List.range n).all fun k => s.rd (FAB_GCL_OPER.ENTRY k) e == leAt c (0x80 + 4 * k) 4

/-- The registers, and the gate list that differs from the operational one. DESIGN CHOICE: while a switchover is armed the
administrative bank takes no write (R264), so the new list is not loaded; this counts as an arm that is refused. -/
def applyTraffic (m : FormeImg) (boot : Bool) (s : State) : State :=
  (List.range 24).foldl (fun s e =>
    let c := trafficPart (m.sec 10 0) e
    let regs := trafficImgs.filter fun i => !([0x40, 0x48, 0x50, 0x58].contains i.at_)
    let s := (List.range 8).foldl (fun s k => settleShaper e k s) s
    let s := regs.foldl (fun s i => i.write c e s) s
    if boot then gclLoad e (loadGates c e s)
    else if s.flag FAB_GCL_STS.PEND e then (if gatesRun c e s then s else s.wr FAB_GCL_STS.ERR e 1)
    else if gatesRun c e s then s.wr FAB_GCL_CFG.GATED e (leAt c 0x43 1) else gclGo e (loadGates c e s)) s

def applyAlarm (m : FormeImg) (s : State) : State := alarmImgs.foldl (fun s i => i.write (m.sec 12 0) 0 s) s

def applyPower (m : FormeImg) (s : State) : State :=
  let b := m.sec 13 0
  let s := ((s.wr PCM_POL.CAP_W 0 (leAt b 0 2)).wr PCM_POL.BOOST_EN 0 (leAt b 2 1)).wr PCM_POL.KEEP_EN 0 (leAt b 0xC 1)
  (s.wr PCM_IDLE_US.US 0 (leAt b 4 4)).wr PCM_DOZE_US.US 0 (leAt b 8 4)

/-- The program stores of a region hold the active PROG section (R399). -/
def loadProg (m : FormeImg) (r : Nat) (s : State) : State :=
  let img := slice (m.sec 5 0) 0x1000 65536
  (List.range 16).foldl (fun s i => { s with cmp.prog := KMap.insert s.cmp.prog (16 * r + i) img }) s

/-! The whole. -/

/-- The registers and measurement that show the active forme (R397). -/
def showForme (m : FormeImg) (s : State) : State :=
  let d := m.digest
  let s := (s.wr RSP_FORME_ID.VALUE 0 m.id).wr RSP_FORME_VER.VALUE 0 m.ver
  (List.range 12).foldl (fun s k => (s.wr (RSP_FORME_DIGEST.DIGEST k) 0 (bits d (32 * k) 32)).wr (RSP_MEAS.DIGEST k) 4 (bits d (32 * k) 32)) s

/-- The registers of the sections that `ch` names are written from an image, and its shadows committed. -/
def applySecs (m : FormeImg) (boot : Bool) (ch : Nat → Bool) (s : State) : State :=
  let s := if ch 256 then applyNode m s else s
  let ps := (List.range 32).filter fun p => ch (512 + p)
  let s := if ps.isEmpty then s else applyWins m ((List.range 4).foldl (fun s r => applyOwners m r s) s)
  let s := ps.foldl (fun s p => applyPart m p s) s
  let s := if ch (256 * 5) then
      ((List.range 4).filter fun r => !regionDozes s r).foldl (fun s r => loadProg m r s) s else s
  let s := if ch (256 * 6) then emodelImgs.foldl (fun s i => i.write (m.sec 6 0) 0 s) s else s
  let s := if ch (256 * 6) || !ps.isEmpty then applyReamCommit (s.wr REAM_COMMIT_STS.PEND 0 1) else s
  let s := if ch (256 * 7) then applyArb m boot s else s
  let s := if ch (256 * 8) then applyFabric m boot s else s
  let s := if ch (256 * 9) then (copyRoutes s).wr FAB_RT_CTL.PEND 0 0 else s
  let s := if ch (256 * 10) then applyTraffic m boot s else s
  let s := if ch (256 * 12) then applyAlarm m s else s
  gatesSettle (if ch (256 * 13) then applyPower m s else s)

/-- Make an image active: sections, epoch, identity and digest. -/
def applyForme (boot : Bool) (m : FormeImg) (s : State) : State :=
  let act := if boot then {} else s.fme.active
  let ch := fun k => boot || secDiffers m act k
  let s := if boot then writeShadows m ch s else s
  let gone := act.parts.filter fun p => !m.defined p
  let s := { s with fme.active := { m with epoch := 0, time := 0 } }
  let s := showForme m (applySecs m boot ch s)
  let s := if m.epoch = 0 then s else s.wr FAB_EPOCH.EPOCH 0 m.epoch
  gone.foldl (fun s p => resetStart p false false s) s

end Sys2Proof.Machine
end

