-- ==== Sys2Proof/Machine/CmpCore.lean ====
section
/-!
DEFINITION. How a compositor block runs one instruction (R122–R125): fetch, illegal words, program faults (R147),
poison and check failures (R113, R114), and the press lists that a block has out (R142, R143).
-/
namespace Sys2Proof.Machine

/-! Stops. -/

/-- A program fault (R147): the code and PC are logged, LOG1 and FAILS stay, and the composition completes. -/
def progFault (b status : Nat) (s : State) : State :=
  let part := (s.blk b).cur.map (·.part)
  let s := (s.wr CMP_ERR_LOG0.STATUS b status).wr CMP_ERR_LOG0.PC b (s.blk b).pc
  let s := report (.block b) { sev := 2, subsys := 1, cause := Config.causeCode 20, unit := b, part := part, status := status } s
  failServe b status (s.bump (CMP_CNT.COUNT 0) b)

/-- The composition of a block meets poisoned data (R114, R125). -/
def poisonStop (b : Nat) (s : State) : State :=
  let part := (s.blk b).cur.map (·.part)
  let s := poisonUse (.block b) 1 b part ST.POISON 0 s
  failServe b ST.POISON ((cmpLog b ST.POISON 0 5 s).bump (CMP_CNT.COUNT 0) b)

/-- The composition of a block ends with a status of another unit: the galley's, a codec's, a platen's (R111, R143). -/
def unitStop (b status : Nat) (s : State) : State :=
  let s := if status = ST.GAL_CRC then cmpLog b status 0 4 s
    else if status = ST.POISON then cmpLog b status 0 5 s
    else (s.wr CMP_ERR_LOG0.STATUS b status).wr CMP_ERR_LOG0.PC b (s.blk b).pc
  failServe b status (s.bump (CMP_CNT.COUNT 0) b)

/-! Fields an instruction does not use (R124, Table 6.7). -/

def fRD : Nat × Nat := (51, 5)
def fRA : Nat × Nat := (46, 5)
def fRB : Nat × Nat := (41, 5)
def fFN : Nat × Nat := (32, 9)
def fIMM : Nat × Nat := (0, 32)

/-- The bit fields that must be zero, as lowest bit and width, by opcode. -/
def insZero (op : Nat) : List (Nat × Nat) :=
  match op with
  | 0x00 => [(0, 56)]
  | 0x02 => [fRA, fRB, (33, 8)]
  | 0x03 => [fRA, fRB, (34, 7)]
  | 0x04 => [fRD, (35, 6)]
  | 0x05 => [(54, 2), (35, 6), fIMM]
  | 0x06 => [(54, 2), (35, 6)]
  | 0x07 => [fRB, fFN, fIMM]
  | 0x08 => [fRD, fRA, fRB, (33, 8), fIMM]
  | 0x09 => [fRA, fRB, (34, 7), fIMM]
  | 0x0A => [(0, 56)]
  | 0x10 => [(48, 4), (34, 4), (0, 8)]
  | 0x11 => [(42, 6), (0, 8)]
  | 0x12 => [(34, 10), (48, 8), (1, 5)]
  | 0x13 => [(38, 4), (0, 13)]
  | 0x14 => [(38, 6), (4, 2)]
  | 0x15 => [(34, 10), (48, 4), (5, 1)]
  | 0x20 => [(0, 54)]
  | 0x21 => [(38, 8), (26, 4), (1, 13)]
  | 0x22 => [(26, 4), (11, 3), (1, 5)]
  | 0x23 => [(38, 8), (26, 8), (11, 3), (0, 6)]
  | 0x24 => [(46, 8), (26, 8), (11, 3), (0, 6)]
  | 0x25 => [(38, 4), (31, 3), (11, 19), (0, 1)]
  | 0x26 => [(42, 12), (36, 2), (30, 4), (0, 1)]
  | 0x27 => [(30, 24), (0, 14)]
  | 0x28 => [(26, 28), (1, 5)]
  | 0x29 => [(46, 8), (26, 16)]
  | 0x2A => [(38, 4), (31, 3), (26, 4), (11, 3)]
  | 0x2B => [(20, 34), (0, 14)]
  | _ => []

/-- Whether a format field holds a reserved code (R36, R124). -/
def fmtReserved (c : Nat) : Bool := decide (7 ≤ c)

/-- Reserved values of fields that an instruction uses. -/
def insReserved (op w : Nat) : Bool :=
  match op with
  | 0x01 => decide (10 < sFn w)
  | 0x10 => decide (mCount w = 0)
  | 0x11 => decide (mCount w = 0) || fmtReserved (mFmt w)
  | 0x12 => decide (mCount w = 0)
  | 0x13 => decide (mCount w = 0) || fmtReserved (mFmt w)
  | 0x14 => decide (mCount w = 0) || fmtReserved (mFmt w)
  | 0x15 => decide (mCount w = 0)
  | 0x21 => fmtReserved (tFa w) || fmtReserved (tFb w)
  | 0x22 => fmtReserved (tFa w) || fmtReserved (tFb w)
  | 0x23 => fmtReserved (tFa w)
  | 0x24 => fmtReserved (tFa w)
  | 0x25 => fmtReserved (tFa w)
  | 0x2A => fmtReserved (tFa w)
  | _ => false

def insLegal (w : Nat) : Bool :=
  insDefined (iOp w) && (insZero (iOp w)).all (fun f => bits w f.1 f.2 == 0) && !insReserved (iOp w) w

/-! One instruction. -/

/-- What an instruction does: it waits, stops the composition, or takes cycles and leaves a block. -/
inductive Ins where
  | wait
  | fault (status : Nat)
  | poison
  | ends (s : State)
  | ok (cyc : Nat) (x : BlkSt) (s : State)
  | jump (cyc : Nat) (pc : Nat) (s : State)

def BlkSt.took (x : BlkSt) (cyc : Nat) : BlkSt := { x with pc := x.pc + 1, cycles := x.cycles + cyc }

/-- The instruction word in a block's stage F. -/
def insWord (s : State) (b : Nat) : Nat := leAt (KMap.get [] s.cmp.prog b) (8 * (s.blk b).pc) 8

/-- Whether a block executes: a composition runs, its state is running, and its clock is on. -/
def blockRuns (s : State) (b : Nat) : Bool :=
  (s.blk b).cur.isSome && s.rd CMP_SEQ_STS.STATE b == 1 && s.flag CMP_SEQ_STS.CLK_ON b

/-- The composition that a block runs. -/
def BlkSt.comp (x : BlkSt) : Comp := x.cur.getD {}

/-- Apply what an instruction does. -/
def insApply (b : Nat) (r : Ins) (s : State) : State :=
  match r with
  | .wait => s
  | .fault st => progFault b st s
  | .poison => poisonStop b s
  | .ends s => s
  | .ok cyc x s => s.setBlk b (x.took cyc)
  | .jump cyc pc s => s.setBlk b { s.blk b with pc := pc, cycles := (s.blk b).cycles + cyc }

/-- Run the instruction in stage F when its opcode is `op` (R122–R124). -/
def runIns (op b : Nat) (f : Nat → BlkSt → State → Ins) (s : State) : State :=
  if ¬ blockRuns s b then s
  else if 8191 < (s.blk b).pc then progFault b ST.CMP_PC s
  else
    let w := insWord s b
    if ¬ insDefined (iOp w) then progFault b ST.CMP_ILLEGAL s
    else if iOp w ≠ op then s
    else if ¬ insLegal w then progFault b ST.CMP_ILLEGAL s
    else insApply b (f w (s.blk b) s) s

/-! Press lists out (R142). -/

/-- The accumulators that a list out still writes. -/
def PressOut.accs (p : PressOut) : List Nat :=
  let last := if p.two then (p.count - 1) / 64 else (ceilDiv p.count 64 * p.np - 1) / 64
  (List.range (last + 1)).map (p.ad + ·)

/-- Whether an accumulator waits for a list (R122). -/
def BlkSt.awaits (x : BlkSt) (ad : Nat) : Bool := x.press.any fun p => p.accs.contains ad

/-! Checks (R113, R118). -/

/-- The kinds of check an instruction makes: residue, exponential. -/
def insChecks (op : Nat) : Bool × Bool :=
  match op with
  | 0x21 => (true, false)
  | 0x22 => (true, false)
  | 0x23 => (true, false)
  | 0x24 => (true, false)
  | 0x25 => (true, true)
  | 0x29 => (true, true)
  | 0x2A => (true, false)
  | 0x2B => (true, false)
  | _ => (false, false)

/-- The failures of a checked operation: cell, whether of the exponential kind, and how many in a row. -/
def failures (b op : Nat) (miss : Mismatch) (x : BlkSt) (s : State) : List (Nat × Bool × Nat) :=
  let (r, e) := insChecks op
  let r := r && s.flag CMP_RES_CFG.MAC_EN b
  let e := e && s.flag CMP_RES_CFG.EXP_EN b
  (List.range 16).flatMap fun c =>
    let n (k : Bool) : Nat := KMap.get 0 x.inject (2 * c + b2n k) + (if miss.cell = c ∧ miss.exp = k then miss.times else 0)
    (if r ∧ n false ≠ 0 then [(c, false, n false)] else []) ++ (if e ∧ n true ≠ 0 then [(c, true, n true)] else [])

/-- Injections that a checked operation has taken (R118). -/
def spent (fs : List (Nat × Bool × Nat)) (x : BlkSt) : BlkSt :=
  { x with inject := fs.foldl (fun m f => KMap.put 0 m (2 * f.1 + b2n f.2.1) 0) x.inject }

/-- The first failure of each cell: reported to the cell's handler, and counted where the operation repeats. -/
def firstFailures (b : Nat) (strict : Bool) (fs : List (Nat × Bool × Nat)) (s : State) : State :=
  fs.foldl (fun s f =>
    let s := report (.cell b f.1) { sev := 1, subsys := 1, cause := Config.causeCode 21, unit := 16 * b + f.1, part := (s.blk b).cur.map (·.part) } s
    if strict then s else s.bump (CMP_CNT.COUNT (if f.2.1 then 3 else 1)) b) s

/-- A second failure, or a first in strict mode: the result is written poisoned and the composition stops (R113, R114). -/
def residueStop (b cell : Nat) (exp : Bool) (x : BlkSt) (s : State) : State :=
  let part := (s.blk b).cur.map (·.part)
  let s := s.setBlk b x
  let s := report (.block b) { poison := true, sev := 2, subsys := 1, cause := Config.causeCode 22, unit := b, part := part,
                               status := ST.CMP_RESIDUE } (s.bump (CMP_CNT.COUNT 2) b)
  let s := cmpLog b ST.CMP_RESIDUE cell (if exp then 2 else 1) s
  blockFail b (failServe b ST.CMP_RESIDUE (s.bump (CMP_CNT.COUNT 0) b))

/-- Let a checked operation of `cyc` cycles that would leave `x` pass its checks: outside strict mode one that fails is made again, in as
many cycles more (R113). `spoil` marks its result poisoned. -/
def checked (op b cyc : Nat) (miss : Mismatch) (spoil : BlkSt → BlkSt) (x : BlkSt) (s : State) : Ins :=
  let fs := failures b op miss x s
  match fs with
  | [] => .ok cyc x s
  | _ =>
    let s := firstFailures b x.strict fs s
    let spun := if x.strict then cyc else 2 * cyc
    match fs.find? fun f => x.strict || decide (2 ≤ f.2.2) with
    | some f => .ends (residueStop b f.1 f.2.1 (spent fs (spoil { x with cycles := x.cycles + spun })) s)
    | none => .ok (2 * cyc) { spent fs x with repeats := x.repeats + fs.length } s

/-- Mark columns of every row of an accumulator poisoned. -/
def BlkSt.spoilAcc (ad c0 nc : Nat) (x : BlkSt) : BlkSt :=
  { x with apsn := (List.range 64).foldl (fun m r =>
      KMap.upd 0 m (ad * 64 + r) fun v => setBits v c0 nc (2 ^ nc - 1)) x.apsn }

/-- Mark every row of a tile poisoned. -/
def BlkSt.spoilTile (t : Nat) (x : BlkSt) : BlkSt :=
  { x with tpsn := (List.range 64).foldl (fun m r => KMap.put 0 m (t * 64 + r) 1) x.tpsn }

/-! Completion of lists (R83, R142, R143). -/

/-- Where the words of a list's data land: accumulator, row, column and value. -/
def landWords (p : PressOut) (outs : Bytes) : List (Nat × Nat × Nat × Nat) :=
  (List.range (outs.length / 4)).map fun i =>
    let v := leAt outs (4 * i) 4
    if p.two then (p.ad + i % p.count / 64, i / p.count, i % p.count % 64, v)
    else
      let g := i / p.np / 64 * p.np + i % p.np
      (p.ad + g / 64, i / p.np % 64, g % 64, v)

/-- Land a list's words, poisoned where its units marked them (R84, R125). -/
def land (p : PressOut) (outs : Bytes) (bad : List Nat) (x : BlkSt) : BlkSt :=
  (landWords p outs).zipIdx.foldl (fun x w => x.setAccs w.1.1 w.1.2.1 w.1.2.2.1 [w.1.2.2.2] (bad.contains w.2)) x

/-- A block receives the completion of a list it issued: its folio's count falls (R176), and its data lands unless its
composition is gone (R303). -/
def blockPltDone (b : Nat) (r : PltDone) (s : State) : State :=
  let live := ((s.blk b).lists.find? fun l => l.tag == r.tag).any (·.live)
  let s := listEnds b r.tag s
  let x := s.blk b
  match x.cur, x.press.find? fun p => p.tag == r.tag with
  | some c, some p =>
    if ¬ live then s
    else
      let s := chargeAtt c.att (compTenant s c) .plt (8 * r.cycles) false s
      let s := chargeAtt c.att (compTenant s c) .stk (16 + r.outs.length) false s
      let x := { x with press := x.press.erase p }
      if r.status = ST.OK then s.setBlk b (land p r.outs r.outsBad x)
      else
        let s := if r.status = ST.POISON then poisonUse (.block b) 1 b (some c.part) ST.POISON 0 s else s
        unitStop b r.status (s.setBlk b x)
  | _, _ => s

/-- Result bytes of a PLATEN descriptor's colophon, from offset 0x08 (Table 14.4). -/
def pltResult (r : PltDone) : Bytes :=
  natLe 4 (r.cmdIndex + 256 * (b2n r.retried + 2 * b2n r.poison + 4 * b2n r.preempted)) ++ natLe 4 r.cycles

/-- Return a completion record to its issuer (R83). -/
def pltDeliver (r : PltDone) (s : State) : State :=
  let s := s.emit (.pltDone r)
  match r.issuer with
  | .block b => blockPltDone b r s
  | .host p ring seq => jobDone p ring seq r.status (pltResult r) s

/-- A list reaches its stack controller: refused at once, or queued (R81). -/
def pltArrive (k : Nat) (issuer : PltIssuer) (hd : Bytes) (words : List Nat) (stream : Bytes) (s : State) : State :=
  match submitList k issuer hd words stream s with
  | (some r, s) => pltDeliver r s
  | (none, s) => s

/-- Bytes of a list as a request to its stack controller: header, words and stream (R79, R206). -/
def listBytes (words : List Nat) (stream : Bytes) : Nat := 16 + 8 * words.length + stream.length

/-- A list is charged to its partition's stack bucket, or waits for tokens, and then reaches its stack controller (R206). -/
def pltSubmit (k : Nat) (issuer : PltIssuer) (hd : Bytes) (words : List Nat) (stream : Bytes) (s : State) : State :=
  match regulate false (leAt hd 2 1) (listBytes words stream) s with
  | some s => pltArrive k issuer hd words stream s
  | none => regWait (.list k issuer hd words stream) s

/-! Regulators (R206). -/

/-- A waiting request passes, or goes on waiting. -/
def regRetry (r : RegReq) (s : State) : State :=
  let stay : State := { s with rea.regWait := s.rea.regWait ++ [r] }
  match r with
  | .gut p n t w => ((regulate true p n s).map (serveGutter p t w)).getD stay
  | .stk x => ((regulate false x.part (accessLen x) s).map (access x)).getD stay
  | .list k i hd ws st => ((regulate false (leAt hd 2 1) (listBytes ws st) s).map (pltArrive k i hd ws st)).getD stay

/-- Try, in order, the requests that wait. -/
def regServe (s : State) : State := s.rea.regWait.foldl (fun s r => regRetry r s) { s with rea.regWait := [] }

/-- R206: each microsecond the buckets gain tokens, and waiting requests may pass. -/
def execRegulatorRefill (s : State) : Host.Outcome State Fault Refusal :=
  .next (s.atPeriod .refill 1000 fun s => regServe ((List.range 32).foldl (fun s p => regAdd true p (regAdd false p s)) s))

/-- R81: a list reaches a stack controller. -/
def execPlatenListSubmit (stack : Nat) (issuer : PltIssuer) (header : Bytes) (words : List Nat) (stream : Bytes) (s : State) :
    Host.Outcome State Fault Refusal := .next (pltSubmit stack issuer header words stream s)

/-- R83, R200: a list retires; folios that wait for its gang are served. -/
def execPlatenListRetire (stack unit : Nat) (s : State) : Host.Outcome State Fault Refusal :=
  match retireList stack unit s with
  | (none, s) => .next s
  | (some r, s) => .next (gangsServe (pltDeliver r s))

/-- R97, R98: the hold timer passes PHASE_TMO with no phase command of the holder arrived, and the held state is dropped. -/
def execPhaseTmoExpire (stack set : Nat) (s : State) : Host.Outcome State Fault Refusal :=
  let h := pltHold s (8 * stack + set)
  if h.held ∧ ¬ inTime s stack set ∧ s.rd PLT_CFG.PHASE_TMO stack * 1000 < s.now - h.since then .next (gangsServe (dropHold stack set s))
  else .next s

/-! The watchdog, the fence and injection (R115, R116, R118). -/

/-- R115: a composition that has run past LIMIT_US is stopped. -/
def execCmpWatchdogExpire (block : Nat) (s : State) : Host.Outcome State Fault Refusal :=
  let x := s.blk block
  if x.cur.isSome ∧ s.rd CMP_SEQ_STS.STATE block ≠ 5 ∧ s.rd CMP_WDOG.LIMIT_US block * 1000 < s.now - x.start then
    let s := (cmpLog block ST.CMP_WATCHDOG 0 3 s).bump (CMP_CNT.COUNT 4) block
    let s := report (.block block) { sev := 2, subsys := 1, cause := Config.causeCode 23, unit := block, part := x.cur.map (·.part),
                                     status := ST.CMP_WATCHDOG } s
    .next (failServe block ST.CMP_WATCHDOG (s.bump (CMP_CNT.COUNT 0) block))
  else .next s

/-- R116: a write of 1 to UNFENCE lifts the fence of a fenced, idle block and clears FAILS. -/
def unfence (b : Nat) (s : State) : State :=
  if blkFenced s b ∧ (s.blk b).cur = none ∧ (s.blk b).queue = [] then (s.wr CMP_SEQ_STS.STATE b 0).wr CMP_FENCE_CFG.FAILS b 0
  else s

def execUnfence (block : Nat) (s : State) : Host.Outcome State Fault Refusal := .next (unfence block s)

/-- R118: a write of CMP_RES_INJ with GO forces a mismatch in the next checked operation of a cell. -/
def cmpInject (b value : Nat) (s : State) : State :=
  if bitOf value 7 then
    let x := s.blk b
    s.setBlk b { x with inject := KMap.put 0 x.inject (2 * bits value 0 4 + bits value 6 1) 1 }
  else s

def execCmpResInj (block value : Nat) (s : State) : Host.Outcome State Fault Refusal := .next (cmpInject block value s)

end Sys2Proof.Machine
end

