-- ==== Sys2Proof/Machine/Compositor.lean ====
section
/-!
DEFINITION. The instructions of composition programs (chapter 6): scalar and control, streams and staging, emits and
press, tiles and accumulators.
-/
namespace Sys2Proof.Machine

/-! The composition context (Tables 6.1 and 6.2). -/

def FSlot.bytes (f : FSlot) : Bytes :=
  natLe 4 f.folio ++ natLe 4 f.posBase ++ natLe 4 f.posEnd ++ natLe 1 f.desc ++
  natLe 1 (16 * Nat.log2 f.geo.span + 8 * b2n f.kerned + 4 * b2n f.sealed) ++ natLe 2 (b2n f.press)

def Comp.context (c : Comp) : Bytes :=
  let head := natLe 4 c.ream ++ natLe 2 c.slot ++ natLe 1 c.attempt ++ natLe 1 c.part ++ natLe 2 c.entry ++ natLe 1 c.nq ++
    natLe 1 c.nh ++ natLe 1 c.slots.length ++ natLe 1 c.qfmt ++ natLe 2 c.layer ++ natLe 4 c.tau ++ natLe 4 c.window ++
    natLe 4 c.sinks
  slice head 0 64 ++ slice (c.qpos.flatMap (natLe 4)) 0 64 ++ slice (c.slots.flatMap FSlot.bytes) 0 256

/-! Scalar and control. -/

def execCmpNop (block : Nat) (s : State) : Host.Outcome State Fault Refusal :=
  .next (runIns 0x00 block (fun _ x s => .ok 1 x s) s)

def execAlu (block : Nat) (s : State) : Host.Outcome State Fault Refusal :=
  .next (runIns 0x01 block (fun w x s =>
    .ok (if sFn w = 10 then 3 else 1) (x.setA (sRd w) (aluOp (sFn w) (x.a (sRa w)) (addImm (x.a (sRb w)) (sImm w)))) s) s)

def execLi (block : Nat) (s : State) : Host.Outcome State Fault Refusal :=
  .next (runIns 0x02 block (fun w x s =>
    let v := if sFn w = 0 then ofInt 64 (sImm w) else x.a (sRd w) % 2 ^ 32 + bits w 0 32 * 2 ^ 32
    .ok 1 (x.setA (sRd w) v) s) s)

def execLdc (block : Nat) (s : State) : Host.Outcome State Fault Refusal :=
  .next (runIns 0x03 block (fun w x s =>
    let n := 2 ^ sFn w
    let o := bits w 0 32
    if o % n ≠ 0 ∨ 384 ≤ o then .fault ST.CMP_OPERAND
    else .ok 1 (x.setA (sRd w) (leAt x.comp.context o n)) s) s)

def execBr (block : Nat) (s : State) : Host.Outcome State Fault Refusal :=
  .next (runIns 0x04 block (fun w x s =>
    if condOp (sFn w) (x.a (sRa w)) (x.a (sRb w)) then
      let t := (x.pc : Int) + sImm w
      if t < 0 ∨ 8191 < t then .fault ST.CMP_PC else .jump 3 t.toNat s
    else .ok 1 x s) s)

def execPlog (block : Nat) (s : State) : Host.Outcome State Fault Refusal :=
  .next (runIns 0x05 block (fun w x s =>
    if (sFn w ≠ 7 ∧ 7 < sRa w) ∨ 7 < sRb w then .fault ST.CMP_OPERAND
    else .ok 1 (x.setP (sRd w) (plogOp (sFn w) (x.p (sRa w)) (x.p (sRb w)) (x.a (sRa w)))) s) s)

def execMpos (block : Nat) (s : State) : Host.Outcome State Fault Refusal :=
  .next (runIns 0x06 block (fun w x s =>
    .ok 1 (x.setP (sRd w) (maskOf fun r => condOp (sFn w) (addImm (x.a (sRa w) + r) (sImm w)) (x.a (sRb w)))) s) s)

def execPcnt (block : Nat) (s : State) : Host.Outcome State Fault Refusal :=
  .next (runIns 0x07 block (fun w x s =>
    if 7 < sRa w then .fault ST.CMP_OPERAND else .ok 1 (x.setA (sRd w) (popCount (x.p (sRa w)) 64)) s) s)

/-- Whether emits of a block's composition still wait for the collator (R145). -/
def emitsWait (s : State) (b : Nat) (c : Comp) : Bool :=
  s.cmp.emits.any fun e => e.block == b && e.att == c.att && e.attempt == c.attempt

def execSync (block : Nat) (s : State) : Host.Outcome State Fault Refusal :=
  .next (runIns 0x08 block (fun w x s =>
    if sFn w = 0 then if x.press.isEmpty && !emitsWait s block x.comp then .ok 1 x s else .wait
    else if emitsWait s block x.comp then .wait else .ok 1 x s) s)

/-- R146: checks complete with their instruction here, so FN 0 has nothing to wait for. -/
def execRchk (block : Nat) (s : State) : Host.Outcome State Fault Refusal :=
  .next (runIns 0x09 block (fun w x s =>
    match sFn w with
    | 0 => .ok 1 x s
    | 1 => .ok 1 (x.setA (sRd w) x.repeats) s
    | 2 => .ok 1 { x with strict := true } s
    | _ => .ok 1 { x with strict := false } s) s)

/-- Whether a composition has handed on all that it must (R141, R157). -/
def compWhole (c : Comp) (x : BlkSt) : Bool :=
  if c.append then
    (List.range c.nq).all fun t => x.emitted.contains (32, t) && x.emitted.contains (34, t)
  else
    (List.range c.slots.length).all fun f => (List.range (c.nq * c.nh)).all fun v => x.emitted.contains (f, v)

/-- R141: the composition completes. An append composition's rows are then ready (R157). -/
def endComp (b : Nat) (x : BlkSt) (s : State) : State :=
  let c := x.comp
  let s := takeComp b ((s.setBlk b (x.took 1)).bump (CMP_CNT.COUNT 0) b)
  if c.append then setApp c.att c.slot (fun y => { y with state := 1 }) s else s

def execEndIns (block : Nat) (s : State) : Host.Outcome State Fault Refusal :=
  .next (runIns 0x0A block (fun _ x s =>
    if emitsWait s block x.comp then .wait
    else if ¬ compWhole x.comp x then .fault ST.CMP_NO_EMIT
    else .ends (endComp block x s)) s)

/-! Streams (R127, R128). -/

/-- What an operand port reads: the bytes of its last read, or the status that ends the composition, or a stall on a line
that is not there yet. `left` holds the lines that an earlier try of the same stream has read and that stand ready. -/
structure PortGet where
  data   : Bytes := []
  status : Nat := 0
  held   : Bool := false
  live   : Bool := false
  lost   : Nat := 0
  left   : List Bytes := []
  run    : PortRun := {}
  s      : State

def PortGet.stopped (r : PortGet) : Bool := r.held || r.status != 0

/-- A line arrives at the port. -/
def PortGet.line (r : PortGet) (o : GalOut) (s : State) : PortGet :=
  match o.data with
  | some d => { r with data := r.data ++ d, live := true, run := { lines := r.run.lines ++ [d] }, s := s }
  | none => { r with status := o.status, s := s }

/-- What a stream's operands name for a line: by offset, the values of the pairs of the same line. -/
def lineArgs (l : List (Nat × Nat)) (off : Nat) : List Nat := (l.filter fun e => e.1 / 128 = off / 128).map (·.2)

/-- The port requests a line: a miss is counted and filled, or stalls the port (R103, R107, R111). -/
def portLine (b : Nat) (fails rivals : List (Nat × Nat)) (ten : Nat) (c : Comp) (q : GalReq) (r : PortGet) : PortGet :=
  match r.left with
  | d :: left => { r with data := r.data ++ d, left := left }
  | [] =>
    let lost := galConflicts q.off (lineArgs rivals q.off)
    let (o, n, s) := match r.run.miss with
      | some n => (none, n, r.s)
      | none =>
        let (o, n, s) := galHit q ((lineArgs fails q.off).headD 0) (r.s.bumpBy (GAL_CNT.COUNT 4) (galRegion q.off) lost)
        (o, n, if o.isNone then s.bump (CMP_CNT.COUNT 5) b else s)
    let r := if r.run.miss.isSome then r else { r with lost := r.lost + lost }
    match o with
    | some o => r.line o s
    | none =>
      match fillWaits (.fexp b {}) q s with
      | some s => { r with held := true, run := { r.run with miss := some n }, s := s }
      | none =>
        let (o, s) := galArrive q n (unstall (.fexp b {}) s)
        r.line o (if keyShut s q then s else chargeAtt c.att ten .stk 128 false s)

/-- Read `64 n` bytes of a folio's extent from byte `lo` through the galley, line by line, up to the first failure or stall; the
bytes read are charged (Table 9.2). -/
def portRead (b : Nat) (fails rivals : List (Nat × Nat)) (c : Comp) (f : FSlot) (lo n : Nat) (r : PortGet) : PortGet :=
  let first := lo / 128
  let ten := compTenant r.s c
  let r := (List.range (ceilDiv (lo + 64 * n) 128 - first)).foldl (fun (r : PortGet) i =>
    if r.stopped then r else portLine b fails rivals ten c (folioReq c.part f (128 * (first + i))) r) { r with data := [], live := false }
  let s := if r.held ∨ ¬ r.live then r.s else chargeAtt c.att ten .gal (64 * n) false r.s
  { r with data := slice r.data (lo - 128 * first) (64 * n), s := s }

/-- The outcome of a stream: its blocks, how it stands, and its port. -/
structure StreamOut where
  blocks : List Bytes := []
  st     : StreamSt := {}
  port   : PortGet

/-- Let the walk hold the body up to offset `hi`. -/
def walkTo (b : Nat) (fails rivals : List (Nat × Nat)) (c : Comp) (f : FSlot) (hi : Nat) (o : StreamOut) : StreamOut :=
  let w := o.st.walk
  let at_ := w.lo + w.data.length
  if o.port.stopped || decide (hi ≤ at_) then o
  else
    let r := portRead b fails rivals c f (bodyOff + at_) (ceilDiv (hi - at_) 64) o.port
    { o with port := r, st := if r.stopped then o.st else { o.st with walk := { w with data := w.data ++ r.data } } }

/-- The bytes of a body of a flag, of which the first ones are given (R44, R45). -/
def kernBodyLen (flag : Nat) (d : Bytes) : Nat :=
  match flag with
  | 0 => 64
  | 1 => 0
  | 2 => 2 + 8 * (8 - popCount (leAt d 0 1) 8)
  | _ => 4 + 4 * (16 - popCount (leAt d 0 2) 16)

/-- A malformed block ends the stream (R49). -/
def StreamOut.bad (b : Nat) (f : FSlot) (blk reason : Nat) (o : StreamOut) : StreamOut :=
  { o with port := { o.port with status := ST.KERN_FORMAT, s := kernFault (.block b) b ST.KERN_FORMAT f.folio blk reason o.port.s } }

/-- Walk block `i` of a kerned folio and deliver it if it is not before `j` (R49, R50). -/
def kernBlock (b : Nat) (fails rivals : List (Nat × Nat)) (c : Comp) (f : FSlot) (sb j i : Nat) (o : StreamOut) : StreamOut :=
  if o.port.stopped then o
  else
    let hdr := o.st.hdr
    let klen := (Hdr.ofBytes hdr).kLen
    let flag := kernFlag hdr i
    let w := o.st.walk
    let w : Walk := if i % 16 ≠ 0 then w
      else
        let off := kernIndex hdr (i / 16)
        let lo := min klen off / 64 * 64
        { off := off, lo := lo, data := if w.lo ≤ lo then w.data.drop (lo - w.lo) else [] }
    let o := walkTo b fails rivals c f (min klen (w.off + (if flag = 2 then 1 else if flag = 3 then 2 else 0)))
      { o with st := { o.st with walk := w } }
    let w := o.st.walk
    let o := walkTo b fails rivals c f (min klen (w.off + kernBodyLen flag (w.data.drop (w.off - w.lo)))) o
    if o.port.stopped then o
    else
      let w := o.st.walk
      match decodeBlock flag w.data (klen - w.lo) (w.off - w.lo) with
      | .error e => o.bad b f i e
      | .ok (d, len) =>
        let o := { o with blocks := if i < j then o.blocks else o.blocks ++ [d]
                          st := { o.st with next := i + 1, walk := { w with off := w.off + len } } }
        if (i % 16 = 15 ∨ i + 1 = sb) ∧ w.off + len ≠ groupEnd hdr klen sb (i / 16) then o.bad b f i 3 else o

/-- Deliver solid blocks `[j, j + n)` of folio slot `fs` (R50, R128): a stream that goes on from the one before neither reads the
header nor walks its group again. DESIGN CHOICE: for a header fault KRN_FMT_ERR_LOG1 names block `j` (R49 names none). -/
def stream (b fs : Nat) (c : Comp) (f : FSlot) (fails rivals : List (Nat × Nat)) (j n : Nat) (s : State) : StreamOut :=
  let x := s.blk b
  let sb := f.geo.solid / 64
  let port : PortGet := { left := x.port.lines, run := x.port, s := s }
  let start : StreamOut := match x.stream with
    | some st => if st.fslot = fs ∧ st.next = j then { st := st, port := port } else { st := { fslot := fs }, port := portRead b fails rivals c f 0 7 port }
    | none => { st := { fslot := fs }, port := portRead b fails rivals c f 0 7 port }
  let hdr := if start.st.hdr.isEmpty then start.port.data else start.st.hdr
  let start := { start with st := { start.st with hdr := hdr } }
  if start.port.stopped then start
  else if ¬ kernHeaderOk (Hdr.ofBytes hdr) hdr f.desc f.geo f.kerned then start.bad b f j 4
  else if f.kerned then
    let i := if start.st.next = j then j else j / 16 * 16
    (List.range (j + n - i)).foldl (fun o d => kernBlock b fails rivals c f sb j (i + d) o) start
  else
    let r := portRead b fails rivals c f (bodyOff + 64 * j) n start.port
    { blocks := (List.range n).map (fun i => slice r.data (64 * i) 64), st := { start.st with next := j + n }, port := r }

/-- First payload block of a section, and its length in blocks (R37). -/
def secBase (g : Geo) (sec : Nat) : Nat :=
  (match sec with | 0 => g.keyOff | 1 => g.keyScaleOff | 2 => g.valOff | _ => g.valScaleOff) / 64
def secBlocks (g : Geo) (sec : Nat) : Nat :=
  (match sec with | 0 => g.keyLen | 1 => g.keyScaleLen | 2 => g.valLen | _ => g.valScaleLen) / 64

/-- Place delivered block `n` into tiles (R127). -/
def placeBlock (td rowl n : Nat) (blk : Bytes) (x : BlkSt) : BlkSt :=
  if 6 ≤ rowl then
    let nt := 2 ^ rowl / 64
    x.setRow (td + n % nt) (n / nt) (leNat blk)
  else
    let m := 64 / 2 ^ rowl
    (List.range m).foldl (fun x q => x.setRow td (n * m + q) (leAt blk (q * 2 ^ rowl) (2 ^ rowl))) x

/-- Whether a stream stays within `t15` and row 63. -/
def tilesFit (td rowl n : Nat) : Bool :=
  if 6 ≤ rowl then
    let nt := 2 ^ rowl / 64
    decide (td + min n nt ≤ 16 ∧ (n - 1) / nt ≤ 63)
  else decide (n * (64 / 2 ^ rowl) ≤ 64)

/-- A folio slot that an instruction may name (R124). -/
def slotOk (x : BlkSt) (w : Nat) : Bool := decide (mFslot w < x.comp.slots.length)
def slotAt (x : BlkSt) (w : Nat) : FSlot := x.comp.slots.getD (mFslot w) {}

/-- R127, R103: while a line is missing, FEXP keeps what its port has read and waits. -/
def execFexp (block : Nat) (port : PortEvents) (s : State) : Host.Outcome State Fault Refusal :=
  .next (runIns 0x10 block (fun w x s =>
    let f := slotAt x w
    let n := mCount w
    let j := mFirst w + x.a (mRa w)
    if 9 < mRowl w ∨ 1024 < n ∨ ¬ slotOk x w ∨ ¬ tilesFit (mTd w) (mRowl w) n then .fault ST.CMP_OPERAND
    else if secBlocks f.geo (mSec w) < j + n then .fault ST.CMP_STREAM
    else
      let o := stream block (mFslot w) x.comp f port.fails port.rivals (secBase f.geo (mSec w) + j) n s
      let x := { x with cycles := x.cycles + o.port.lost }
      if o.port.held then .ends (o.port.s.setBlk block { x with port := o.port.run })
      else if o.port.status ≠ 0 then .ends (unitStop block o.port.status o.port.s)
      else
        let x := (o.blocks.foldl (fun (r : BlkSt × Nat) blk => (placeBlock (mTd w) (mRowl w) r.2 blk r.1, r.2 + 1)) (x, 0)).1
        .ok 1 { x with stream := some o.st, port := {} } o.port.s) s)

/-! Staged queries (R129). -/

/-- A staged vector's elements, converted: the element row and the scales. -/
def convertVec (qf fmt d : Nat) (v : Bytes) : Bytes × Bytes :=
  let xs := (List.range d).map fun i => elemAt qf v i
  if fmt = qf then (slice v 0 (elemBytes qf d), [])
  else if scaled fmt then
    let bs := (List.range (d / 32)).map fun b => quantBlock fmt (((xs.drop (32 * b)).take 32).map (fmtOf qf).dec)
    (packElems fmt (bs.flatMap (·.2)), bs.flatMap fun q => natLe (scaleBytes fmt) q.1)
  else (packElems fmt (xs.map fun e => (fmtOf fmt).enc .rne true ((fmtOf qf).dec e)), [])

/-- Vector `n` into row `n` of consecutive tiles, its scales into row `n` of TS. -/
def putVec (w n : Nat) (r : Bytes × Bytes) (x : BlkSt) : BlkSt :=
  let x := (List.range (ceilDiv r.1.length 64)).foldl (fun x i => x.setRow (mTd w + i) n (leNat (slice r.1 (64 * i) 64))) x
  if r.2.isEmpty then x else x.setRow (mTs w) n (leNat r.2)

def execLdq (block : Nat) (s : State) : Host.Outcome State Fault Refusal :=
  .next (runIns 0x11 block (fun w x s =>
    let c := x.comp
    let d := ((c.slots.head?).map (·.geo.d)).getD 32
    let v0 := mFirst w + x.a (mRa w)
    let n := mCount w
    let row := elemBytes (mFmt w) d
    let staged := elemBytes c.qfmt d
    if 6 < mFmt w ∨ 9 < mRowl w ∨ 2 ^ mRowl w ≠ row ∨ 64 < n ∨ 16 < mTd w + ceilDiv row 64 ∨ c.nq * c.nh < v0 + n then
      .fault ST.CMP_OPERAND
    else
      let x := (List.range n).foldl (fun x i =>
        putVec w i (convertVec c.qfmt (mFmt w) d (slice c.staging (staged * (v0 + i)) staged)) x) x
      .ok (8 + ceilDiv (staged * n) 64) x s) s)

/-! Emits (R140, R141, R144). -/

/-- Whether the o of an emit or its rows carry poison. -/
def accRowsBad (x : BlkSt) (ad rows d : Nat) : Bool :=
  (List.range rows).any fun h => (List.range (ceilDiv d 64)).any fun i =>
    bits (KMap.get 0 x.apsn ((ad + i) * 64 + h)) 0 (min 64 (d - 64 * i)) ≠ 0

/-- The triple of vector `h` of an emit. -/
def emitTri (w : Nat) (d : Nat) (x : BlkSt) (h : Nat) : Tri :=
  let l := rn32 (Num.ofInt ((x.a (mRa w + mCount w + h) : Nat) : Int))
  { m := fmul (x.a (mRa w + h) % 2 ^ 32) x.comp.tau
    l := rn32 ((of32 l).mul (.pow2 (-16)))
    o := (List.range d).map fun i =>
      let v := x.acc (mAd w + i / 64) h (i % 64)
      if bitOf (mFlags w) 0 then roundBf16 v else v }

def execPemit (block : Nat) (s : State) : Host.Outcome State Fault Refusal :=
  .next (runIns 0x12 block (fun w x s =>
    let c := x.comp
    let f := slotAt x w
    let d := f.geo.d
    let n := mCount w
    if 16 < n ∨ ¬ slotOk x w ∨ c.nq * c.nh < mFirst w + n ∨ 32 < mRa w + 2 * n ∨ 3 < mAd w + (d - 1) / 64 then
      .fault ST.CMP_OPERAND
    else if (List.range (ceilDiv d 64)).any fun i => x.awaits (mAd w + i) then .wait
    else if (List.range n).any fun h => x.emitted.contains (mFslot w, mFirst w + h) then .fault ST.CMP_EMIT
    else if accRowsBad x (mAd w) n d then .poison
    else
      let bf := bitOf (mFlags w) 0
      let step := ((s.att? c.att).map (·.step)).getD 0
      let e : Emit := { block := block, att := c.att, attempt := c.attempt, step := step, slot := c.slot, key := f.posBase,
                        first := mFirst w, d := d, bf16 := bf, tris := (List.range n).map (emitTri w d x) }
      let x := { x with emitted := x.emitted ++ (List.range n).map fun h => (mFslot w, mFirst w + h) }
      .ok (2 + ceilDiv (n * (8 + (if bf then 2 else 4) * d)) 32) x { s with cmp.emits := s.cmp.emits ++ [e] }) s)

/-- Row `r` of tiles TD onward, and its scales in TS. -/
def tileRow (w fmt d : Nat) (x : BlkSt) (r : Nat) : Bytes × Bytes :=
  let n := elemBytes fmt d
  (slice ((List.range (ceilDiv n 64)).flatMap fun i => natLe 64 (x.row (mTd w + i) r)) 0 n,
   natLe (d / 32 * scaleBytes fmt) (x.row (mTs w) r))

/-- R144: rows go to the append path, in order of their tokens; the rows handed on before come first. -/
def execAemit (block : Nat) (s : State) : Host.Outcome State Fault Refusal :=
  .next (runIns 0x13 block (fun w x s =>
    let c := x.comp
    let g := (slotAt x w).geo
    let n := mCount w
    let key := decide (mSec w = 0)
    let fmt := if key then g.kf else g.vf
    let done := (x.emitted.filter fun e => e.1 = 32 + mSec w).length
    let tiles := ceilDiv (elemBytes fmt g.d) 64
    if ¬ c.append ∨ c.slots.length ≤ mFslot w ∨ mSec w % 2 = 1 ∨ mFmt w ≠ fmt ∨ 64 < mFirst w + n ∨ c.nq < done + n ∨
       16 < mTd w + tiles then .fault ST.CMP_OPERAND
    else if (List.range n).any fun i => (List.range tiles).any (fun t => KMap.get 0 x.tpsn ((mTd w + t) * 64 + mFirst w + i) ≠ 0) ||
        (scaled fmt && decide (KMap.get 0 x.tpsn (mTs w * 64 + mFirst w + i) ≠ 0)) then .poison
    else
      let start := if key then 0 else g.keyRow
      let s := setApp c.att c.slot (fun y => { y with rows := (List.range n).foldl (fun rows i =>
        let (es, sc) := tileRow w fmt g.d x (mFirst w + i)
        splice rows ((done + i) * g.rowLen + start) (es ++ sc)) y.rows }) s
      let x := { x with emitted := x.emitted ++ (List.range n).map fun i => (32 + mSec w, done + i) }
      .ok (2 + ceilDiv (n * (if key then g.keyRow else g.valRow)) 32) x s) s)

/-! Press (R142). -/

/-- A command word (Table 4.4). -/
def cmdWord (op rd rs arg addr flags : Nat) : Nat :=
  op * 2 ^ 58 + rd * 2 ^ 54 + rs * 2 ^ 50 + arg * 2 ^ 40 + addr / 64 * 2 ^ 6 + flags

/-- PARM (Table 4.6). -/
def parmWord (g : Geo) (h hi lo : Nat) : Nat :=
  0x07 * 2 ^ 58 + g.kf * 2 ^ 54 + g.vf * 2 ^ 50 + Nat.log2 (g.d / 32) * 2 ^ 48 + Nat.log2 (g.span / 64) * 2 ^ 45 + h * 2 ^ 40 +
  hi * 2 ^ 29 + lo * 2 ^ 18

/-- The header of a press list (Table 4.2): the gang of the extent's channel set, the composition's partition, and TAG. -/
def pressHead (count : Nat) (c : Comp) (f : FSlot) (tag : Nat) : Bytes :=
  natLe 1 count ++ natLe 1 (128 + offSet f.base) ++ natLe 1 c.part ++ natLe 1 0 ++ natLe 2 4800 ++ natLe 2 tag ++ natLe 8 0

def pressTag (b fs : Nat) : Nat := b + 64 * fs

/-- Issue a list for a block: its folio counts it (R176), the block waits for its data as `p` says, and its bytes are charged. -/
def pressIssue (b : Nat) (f : FSlot) (p : PressOut) (words : List Nat) (data : Bytes) (cyc : Nat) (x : BlkSt) (s : State) : State :=
  let c := x.comp
  let s := addOutst f (s.setBlk b { x.took cyc with press := x.press ++ [p], waited := false
                                                    lists := x.lists ++ [{ tag := p.tag, folio := f.folio, base := f.base }] })
  let s := chargeAtt c.att (compTenant s c) .stk (16 + 8 * words.length + data.length) false s
  pltSubmit (offStack f.base) (.block b) (pressHead words.length c f p.tag) words data s

/-- A list waits for its folio's count, which is counted once (R176). -/
def pressWait (b : Nat) (x : BlkSt) (s : State) : Ins :=
  if x.waited then .wait else .ends ((s.setBlk b { x with waited := true }).bump (FLO_CNT.COUNT 5))

/-- The PUTS data of a phase-1 list: query sorts of 128 bytes, then the scale sort. -/
def pressQueries (w np : Nat) (g : Geo) (x : BlkSt) : Bytes × List Nat :=
  let per := sortsPerHead g
  let rows := (List.range np).map fun h => tileRow w 4 g.d x h
  let data := rows.flatMap fun r => slice r.1 0 (128 * per)
  let scales := slice (rows.flatMap fun r => slice r.2 0 (2 * (g.d / 32))) 0 256
  (data ++ scales, (List.range (np * per)).map (fun i => cmdWord 0x03 i 0 0 0 1) ++ [cmdWord 0x03 12 0 0 0 0])

/-- Position bounds of a press instruction, if they fit PARM. -/
def parmSpan (w : Nat) (x : BlkSt) (f : FSlot) : Option (Nat × Nat) :=
  let lo := x.a (mRa w) - f.posBase
  if x.a (mRa w) < f.posBase ∨ 2047 < lo + mCount w then none else some (lo, lo + mCount w)

def execPsc (block : Nat) (s : State) : Host.Outcome State Fault Refusal :=
  .next (runIns 0x14 block (fun w x s =>
    let f := slotAt x w
    let g := f.geo
    let last := mFirst w + mFlags w % 16
    let np := min (scorePass g) (mFlags w % 16 + 1)
    let p : PressOut := { tag := pressTag block (mFslot w), fslot := mFslot w, ad := mAd w, np := np, count := mCount w, first := mFirst w }
    match parmSpan w x f with
    | none => .fault ST.CMP_OPERAND
    | some (lo, hi) =>
      if ¬ slotOk x w ∨ ¬ f.press ∨ mFmt w ≠ 4 ∨ 1024 < mCount w ∨ 15 < last ∨ 16 < mTd w + ceilDiv g.d 64 ∨
         p.accs.any (fun a => decide (3 < a)) then .fault ST.CMP_OPERAND
      else if p.accs.any x.awaits then .wait
      else if (List.range (ceilDiv g.d 64)).any (fun t => x.tileBad (mTd w + t) np) || x.tileBad (mTs w) np then .poison
      else if outstFull s f then pressWait block x s
      else
        let (data, puts) := pressQueries w np g x
        let words := parmWord g last hi lo :: puts ++ [cmdWord 0x08 0 0 (mFirst w) f.base 0]
        .ends (pressIssue block f p words data (4 + ceilDiv (16 + 8 * words.length + data.length) 512) x s)) s)

/-- The weights of a phase-2 list: per position, per head. -/
def pressWeights (w np : Nat) (x : BlkSt) : Bytes :=
  (List.range (mCount w)).flatMap fun p => (List.range np).flatMap fun h =>
    let g := p / 64 * np + h
    natLe 2 (bits (x.row (mTd w + g / 32) (p % 64)) (16 * (g % 32)) 16)

def execPwv (block : Nat) (s : State) : Host.Outcome State Fault Refusal :=
  .next (runIns 0x15 block (fun w x s =>
    let f := slotAt x w
    let g := f.geo
    let np := min (valuePass g) (mFlags w % 16 + 1)
    let p : PressOut := { two := true, tag := pressTag block (mFslot w), fslot := mFslot w, ad := mAd w, np := np, count := g.d,
                          first := mFirst w }
    let tiles := ceilDiv (ceilDiv (mCount w) 64 * np) 32
    if ¬ slotOk x w ∨ 1024 < mCount w ∨ 15 < mFirst w + mFlags w % 16 ∨ 16 < mTd w + tiles ∨ p.accs.any (fun a => decide (3 < a)) then
      .fault ST.CMP_OPERAND
    else if p.accs.any x.awaits then .wait
    else if (List.range tiles).any fun t => x.tileBad (mTd w + t) (min 64 (mCount w)) then .poison
    else if outstFull s f then pressWait block x s
    else
      let data := pressWeights w np x
      let words := [cmdWord 0x09 0 0 (mFirst w) f.base 0, cmdWord 0x0A 0 0 0 0 (bits (mFlags w) 4 1)]
      .ends (pressIssue block f p words data (4 + ceilDiv (16 + 16 + data.length) 512) x s)) s)

/-! Tiles and accumulators. -/

def execAzero (block : Nat) (s : State) : Host.Outcome State Fault Refusal :=
  .next (runIns 0x20 block (fun w x s => if x.awaits (tAd w) then .wait else .ok 4 (x.zeroAcc (tAd w)) s) s)

/-- Whether a column range ends by column 63. -/
def colsOk (w : Nat) : Bool := decide (tC0 w + tNc w ≤ 64)

/-- Run a computing instruction: operands in range, accumulator free, no poison; then its checks. -/
def compute (op block : Nat) (miss : Mismatch) (ok : Nat → BlkSt → Bool) (cyc : Nat → Nat) (f : Nat → BlkSt → Option BlkSt)
    (spoil : Nat → BlkSt → BlkSt) (s : State) : State :=
  runIns op block (fun w x s =>
    if ¬ ok w x then .fault ST.CMP_OPERAND
    else if x.awaits (tAd w) then .wait
    else match f w x with
      | none => .poison
      | some x => checked op block (cyc w) miss (spoil w) x s) s

/-- FP8 class or 16-bit class of two formats (R130). -/
def fpClasses (a b : Nat) : Bool := decide ((a ≤ 1 ∧ b ≤ 1) ∨ (2 ≤ a ∧ a ≤ 3 ∧ 2 ≤ b ∧ b ≤ 3))

def execTmul (block : Nat) (miss : Mismatch) (s : State) : Host.Outcome State Fault Refusal :=
  .next (compute 0x21 block miss (fun w _ => fpClasses (tFa w) (tFb w) && colsOk w) (fun w => max 4 (4 * tNc w)) tmul
    (fun w => BlkSt.spoilAcc (tAd w) (tC0 w) (tNc w)) s)

/-- The head dimension of a composition's folios. -/
def BlkSt.dim (x : BlkSt) : Nat := ((x.comp.slots.head?).map (·.geo.d)).getD 32

def execQkdot (block : Nat) (miss : Mismatch) (s : State) : Host.Outcome State Fault Refusal :=
  .next (compute 0x22 block miss (fun w x =>
      scaled (tFa w) && scaled (tFb w) && colsOk w && decide (x.a (tRa w) % 32 = 0 ∧ x.a (tRa w) < x.dim ∧
        (elemBits (tFa w) = 4 ∧ elemBits (tFb w) = 8 → tTb w < 15)))
    (fun w => 4 * tNc w + 4) (fun w x => qkdot w x.dim x) (fun w => BlkSt.spoilAcc (tAd w) (tC0 w) (tNc w)) s)

def execDq (block : Nat) (miss : Mismatch) (s : State) : Host.Outcome State Fault Refusal :=
  .next (compute 0x23 block miss (fun w x => decide (tFa w ≤ 6 ∧ tNc w ≤ 64 ∧ tC0 w + tNc w ≤ rowElems (tFa w) ∧
      (scaled (tFa w) = true → x.a (tRa w) % 32 = 0)))
    (fun w => 4 + ceilDiv (tNc w) 16) dq (fun w => BlkSt.spoilAcc (tAd w) 0 (tNc w)) s)

def execQnt (block : Nat) (miss : Mismatch) (s : State) : Host.Outcome State Fault Refusal :=
  .next (compute 0x24 block miss (fun w x => decide (tFa w ≤ 6 ∧ tC0 w + tNc w ≤ rowElems (tFa w) ∧
      (scaled (tFa w) = true → x.a (tRa w) % 32 = 0 ∧ tC0 w % 32 = 0 ∧ tNc w % 32 = 0)))
    (fun _ => 8) qnt (fun w x => (x.spoilTile (tTc w)).spoilTile (tTe w)) s)

def execRot (block : Nat) (miss : Mismatch) (s : State) : Host.Outcome State Fault Refusal :=
  .next (compute 0x25 block miss (fun w x => decide (tFa w ≤ 1 ∧ x.a (tRb w) + (if tFb w = 0 then 32 else 16) ≤ 1024))
    (fun w => if tFb w = 0 then 36 else 20) rot (fun w => BlkSt.spoilAcc (tAd w) 0 64) s)

def execMaskq (block : Nat) (s : State) : Host.Outcome State Fault Refusal :=
  .next (runIns 0x26 block (fun w x s =>
    if ¬ colsOk w ∨ x.comp.nq ≤ tTe w + (tNc w - 1) / tS w then .fault ST.CMP_OPERAND
    else if x.awaits (tAd w) then .wait
    else .ok 2 (maskq w x.comp x) s) s)

def execMaskp (block : Nat) (s : State) : Host.Outcome State Fault Refusal :=
  .next (runIns 0x27 block (fun w x s =>
    if ¬ colsOk w ∨ ¬ tPe w then .fault ST.CMP_OPERAND
    else if x.awaits (tAd w) then .wait
    else .ok 2 (maskp w x) s) s)

def execRmax (block : Nat) (s : State) : Host.Outcome State Fault Refusal :=
  .next (compute 0x28 block {} (fun w _ => colsOk w && decide (tNc w % tS w = 0 ∧ tRa w + tS w ≤ 32))
    (fun w => 4 + ceilDiv (tNc w) 2) rmax (fun _ x => x) s)

/-- Whether τ is positive and finite (R136). -/
def tauOk (t : Nat) : Bool := !(of32 t).isNan && !(of32 t).isInf && !(of32 t).isZero && !(of32 t).negative

def execExpw (block : Nat) (miss : Mismatch) (s : State) : Host.Outcome State Fault Refusal :=
  .next (compute 0x29 block miss (fun w x => colsOk w && tauOk x.comp.tau &&
      decide (tNc w ≤ 32 ∧ tRa w + tS w ≤ 32 ∧ tRb w + tS w ≤ 32))
    (fun w => 2 + max 4 (ceilDiv (tNc w) 2)) (fun w x => expw w x.comp.tau x) (fun w => BlkSt.spoilTile (tTc w)) s)

def execWacc (block : Nat) (miss : Mismatch) (s : State) : Host.Outcome State Fault Refusal :=
  .next (compute 0x2A block miss (fun w x => decide (tFa w ≤ 6 ∧ tNc w ≤ 8 ∧ tC0 w + tNc w ≤ 32 ∧ x.a (tRa w) ≤ 7))
    (fun w => 4 * tNc w) (fun w x => wacc w x.dim x) (fun w => BlkSt.spoilAcc (tAd w) 0 64) s)

def execRksum (block : Nat) (miss : Mismatch) (s : State) : Host.Outcome State Fault Refusal :=
  .next (compute 0x2B block miss (fun w _ => decide (tNc w ≤ 8)) (fun _ => 116) rksum (fun w => BlkSt.spoilAcc (tAd w) 0 64) s)

end Sys2Proof.Machine
end

