-- ==== Sys2Proof/Machine/ReachCore.lean ====
section
/-!
DEFINITION. The issuing side of the reach engine (R277, R283–R286): channels, their retransmit slots, and what a
completion gives; and FOLIO_LOAD (R391), which issues reads of its own.
-/
namespace Sys2Proof.Machine

def seqMod : Nat := 2 ^ 24
/-- `a − b` modulo 2^24. -/
def seqSub (a b : Nat) : Nat := (a + seqMod - b % seqMod) % seqMod

/-! The request header (Table 12.3). -/
structure ReqHdr where
  aop   : Nat := 0
  query : Bool := false
  key   : Nat := 0
  off   : Nat := 0
  inc   : Nat := 0
  len   : Nat := 0
  deriving DecidableEq, Repr

def reqHdrOf (b : Bytes) : ReqHdr :=
  { aop := leAt b 0 1 / 16, query := bitOf (leAt b 0 1) 0, key := leAt b 4 4, off := leAt b 8 5, inc := leAt b 0x10 4, len := leAt b 0x14 4 }

def ReqHdr.bytes (h : ReqHdr) : Bytes :=
  natLe 1 (h.aop * 16 + b2n h.query) ++ natLe 3 0 ++ natLe 4 h.key ++ natLe 5 h.off ++ natLe 3 0 ++ natLe 4 h.inc ++
  natLe 4 h.len ++ natLe 8 0

/-! Send contexts. -/
def chKey (node chan : Nat) : Nat := node * 16 + chan
def State.txc (s : State) (k : Nat) : RchTx := KMap.get {} s.rch.tx k
def State.setTxc (s : State) (k : Nat) (x : RchTx) : State := { s with rch.tx := KMap.put {} s.rch.tx k x }

def txInUse (s : State) : Nat := (s.rch.tx.filter fun e => e.2.state ≠ 0).length
/-- Slots of the retransmit store in use (R284). -/
def slotsInUse (s : State) : Nat := (s.rch.tx.map fun e => e.2.held.length).foldl (· + ·) 0
/-- Unacknowledged ATOMIC requests toward a node. -/
def atomicsTo (s : State) (dst : Nat) : Nat :=
  ((s.rch.tx.filter fun e => e.1 / 16 = dst).map fun e => (e.2.held.filter fun q => q.ty = 0x12).length).foldl (· + ·) 0

def slotFree (s : State) : Bool := decide (slotsInUse s < 2 ^ s.rd RCH_RTX_CFG.SLOTS_LOG2)

def canSend (s : State) (k : Nat) (q : TxReq) : Bool :=
  let t := s.txc k
  decide (t.state = 1 ∧ t.held.length < 256) && slotFree s && (q.ty != 0x12 || decide (atomicsTo s (k / 16) < 64))

def reqFrame (k : Nat) (t : RchTx) (q : TxReq) : Frame :=
  { ty := q.ty, tc := t.cls, part := q.part, dst := k / 16, chan := k % 16, seq := q.seq, msg := q.msg, pay := q.pay,
    wr? := if q.ty = 0x10 then some (k, q.seq) else none }

/-- A request completes at the issuer (R277): the job's data goes to the host before its colophon, and a FOLIO_LOAD
takes its read up. A host that does not take the data leaves the job with ST_HST_DMA (R321). -/
def finishReq (ok : Bool) (q : TxReq) (status result : Nat) (s : State) : State :=
  match q.owner with
  | .none => s
  | .job p r n =>
    let here := s.job.jobs.any fun j => j.part == p && j.ring == r && j.seq == n
    let out := here && q.ty == 0x11 && !q.got.isEmpty
    if out ∧ ¬ ok then jobDone p r n ST.HST_DMA [] (s.bump HST_DMA_ERR_CNT.COUNT)
    else jobDone p r n status (natLe 8 result ++ natLe 16 0) (if out then hostOut p r n q.got s else s)
  | .load e st =>
    match s.ras.load with
    | none => s
    | some l => { s with ras.load := some { l with came := l.came ++ [(e, st, status, q.got)] } }

/-- Mark a held request complete and give its completion. -/
def complete (ok : Bool) (k : Nat) (q : TxReq) (st result : Nat) (s : State) : State :=
  let t := s.txc k
  let s := s.setTxc k { t with held := t.held.map fun x => if x.seq = q.seq then { x with done := true, owner := .none, got := [] } else x }
  finishReq ok q st result s

/-- The frame of a WRITE has left: the WRITE is complete (R277). -/
def writeLeft (k sq : Nat) (s : State) : State :=
  match (s.txc k).held.find? fun q => q.seq == sq && q.ty == 0x10 && !q.done with
  | none => s
  | some q => complete true k q ST.OK 0 s

/-- Send the frame of a held request. One to this node itself leaves for no egress, and a WRITE is complete with it. -/
def sendHeld (k : Nat) (q : TxReq) (s : State) : Bool × State :=
  let (ok, s) := sendFrame (reqFrame k (s.txc k) q) s
  (ok, if ok ∧ k / 16 = nodeId s then writeLeft k q.seq s else s)

/-- Send a request on its open channel; one that no route takes is not sent (R249). -/
def sendReq (k : Nat) (q : TxReq) (s : State) : State :=
  let t := s.txc k
  let q := { q with seq := t.next, sentAt := s.now }
  let (ok, s') := sendHeld k q (s.setTxc k { t with next := (t.next + 1) % seqMod, held := t.held ++ [q] })
  if ok then s' else finishReq true q ST.FAB_NO_ROUTE 0 (s'.setTxc k t)

/-- The oldest waiting request of an open channel has met a full retransmit store: it is counted once (R284). -/
def storeFull (k : Nat) (q : TxReq) (rest : List TxReq) (s : State) : State :=
  let t := s.txc k
  if t.state = 1 ∧ t.held.length < 256 ∧ ¬ slotFree s ∧ ¬ q.waited then
    (s.setTxc k { t with waitq := { q with waited := true } :: rest }).bump RCH_RTX_WAIT_CNT.COUNT
  else s

/-- Send what waits on a channel, in order, while it may go. -/
def pump (k : Nat) : Nat → State → State
  | 0, s => s
  | n + 1, s =>
    match (s.txc k).waitq with
    | [] => s
    | q :: rest =>
      if canSend s k q then pump k n (sendReq k q (s.setTxc k { s.txc k with waitq := rest })) else storeFull k q rest s

def pumpCh (k : Nat) (s : State) : State := pump k ((s.txc k).waitq.length) s
/-- Freed slots may let any channel go on. -/
def pumpAll (s : State) : State := s.rch.tx.foldl (fun s e => pumpCh e.1 s) s

/-- Send OPEN (Table 12.6): `false` where no route takes it. -/
def sendOpen (k : Nat) (s : State) : Bool × State :=
  let t := s.txc k
  let sq := (t.held.head?.map (·.seq)).getD t.next
  let s := s.setTxc k { t with openAt := s.now }
  sendFrame { ty := 0x16, tc := t.cls, dst := k / 16, chan := k % 16,
              pay := natLe 3 sq ++ natLe 1 0 ++ natLe 4 (t.known.getD 0) ++ natLe 8 0 } s

/-- Complete every request of a list that has not completed. -/
def failReqs (l : List TxReq) (status : Nat) (s : State) : State :=
  l.foldl (fun s q => if q.done then s else finishReq true q status 0 s) s

/-- Issue a request on a channel of a class: it opens a closed channel, and waits for its turn (R284, R285). -/
def rchIssue (dst chan cls : Nat) (q : TxReq) (s : State) : State :=
  let k := chKey dst chan
  let t := s.txc k
  let s := s.setTxc k { t with waitq := t.waitq ++ [q] }
  if t.state = 0 then
    if 8192 ≤ txInUse s then s
    else
      let (ok, s) := sendOpen k (s.setTxc k { s.txc k with state := 2, cls := cls, brokenAt := s.now })
      if ok then s else failReqs (t.waitq ++ [q]) ST.FAB_NO_ROUTE (s.setTxc k {})
  else pumpCh k s

/-! Frames leave (R257, R277). -/

/-- A frame leaves an egress: a WRITE that it carries is complete. DESIGN CHOICE: it is so as its transmission starts; the time on
the line is the port's alone. -/
def frameLeaves (f : Frame) (s : State) : State :=
  match f.wr? with
  | none => s
  | some (k, sq) => writeLeft k sq s

/-- R257: at a frame boundary, the egress starts the next frame. -/
def execEgressFrameStart (code : Nat) (s : State) : Host.Outcome State Fault Refusal :=
  let p := s.port code
  if ¬ portUp s code ∨ s.now * 1000 < p.lineFree then .next s
  else match p.urgent with
  | f :: rest => .next (frameLeaves f (transmit code f (s.setPort code { p with urgent := rest })))
  | [] =>
    match nextClass s code with
    | none => .next s
    | some c =>
      match p.headOf c with
      | none => .next s
      | some f => .next (frameLeaves f (startClass code c s))

/-! FOLIO_LOAD (R391). -/

def rasDone (st : Nat) (s : State) : State :=
  ((s.wr RAS_CMD_STS.BUSY 0 0).wr RAS_CMD_STS.DONE 0 1).wr RAS_CMD_STS.STATUS 0 st

def rasRecord (s : State) : Bytes := (List.range 16).flatMap fun k => natLe 4 (s.rd (RAS_CMD_DATA.DATA k))

structure LoadCmd where
  part : Nat := 0
  conv : Nat := 0
  src  : Nat := 0
  chan : Nat := 0
  role : Nat := 0
  list : Nat := 0
  n    : Nat := 0
  inc  : Nat := 0
  deriving DecidableEq, Repr

def loadCmd (b : Bytes) : LoadCmd :=
  let arg := leAt b 0x18 4
  { part := leAt b 1 1, conv := leAt b 8 6, src := bits arg 16 16, chan := bits arg 12 4, role := bits arg 0 1,
    list := leAt b 0x20 5, n := leAt b 0x28 2, inc := leAt b 0x2C 4 }

/-- Whether the record is malformed, or its list lies outside an unassigned channel set. -/
def badLoad (s : State) (b : Bytes) : Bool :=
  let c := loadCmd b
  decide (leAt b 0 1 ≠ 1 ∨ 32 ≤ c.part ∨ leAt b 2 6 ≠ 0 ∨ leAt b 0xE 10 ≠ 0 ∨ bits (leAt b 0x18 4) 1 11 ≠ 0 ∨ leAt b 0x1C 4 ≠ 0 ∨
    leAt b 0x25 3 ≠ 0 ∨ leAt b 0x2A 2 ≠ 0 ∨ leAt b 0x30 16 ≠ 0 ∨ c.n = 0 ∨ 4096 < c.n ∨ upperSize < c.list + 16 * c.n) ||
  (setOwner s (offStack c.list) (offSet c.list)).isSome ||
  (setOwner s (offStack (c.list + 16 * c.n - 1)) (offSet (c.list + 16 * c.n - 1))).isSome

def loadEnt (l : LoadSt) (e : Nat) : Bytes := slice l.list (16 * e) 16

/-- Issue a read for an entry: its header in stage 0, the rest in stage 1. -/
def loadRead (l : LoadSt) (e stage off len : Nat) (s : State) : State :=
  let c := loadCmd l.cmd
  let h : ReqHdr := { key := leAt (loadEnt l e) 0 4, off := off, inc := c.inc, len := len }
  rchIssue c.src c.chan 6 { ty := 0x11, part := c.part, msg := 2 * e + stage, pay := h.bytes, owner := .load e stage } s

def setLoad (l : LoadSt) (s : State) : State := { s with ras.load := some l }

/-- An entry ends with a status; the first failing one is kept. -/
def loadEnd (st : Nat) (l : LoadSt) : LoadSt :=
  { l with done := l.done + 1, status := if l.status = ST.OK then st else l.status }

/-- Start entries while fewer than 32 are in progress. -/
def loadStart : Nat → State → State
  | 0, s => s
  | n + 1, s =>
    match s.ras.load with
    | none => s
    | some l =>
      if (loadCmd l.cmd).n ≤ l.next ∨ 32 ≤ l.next - l.done then s
      else loadStart n (loadRead l l.next 0 0 2496 (setLoad { l with next := l.next + 1 } s))

/-- The vector entry of a POS_BASE in a conversation record. -/
def loadVec (s : State) (c base : Nat) : Nat := (base - (s.conv c).posLo) / spanOf s c

/-- An entry's header has come: it is checked and an extent is taken; the status where either fails. -/
def loadHeader (l : LoadSt) (e : Nat) (hdr : Bytes) (s : State) : Nat × State :=
  let x := loadEnt l e
  let cmd := loadCmd l.cmd
  let h := Hdr.ofBytes hdr
  match convFind cmd.part cmd.role cmd.conv s with
  | (none, s) => (ST.DIR_NO_CONV, s)
  | (some c, s) =>
    let r := s.conv c
    let same := decide (h.conv = cmd.conv ∧ h.layer = leAt x 0xA 2 ∧ h.group = leAt x 8 2 ∧ h.base = leAt x 4 4 ∧ h.desc = r.desc ∧
      h.sealed = r.sealed ∧ (r.sealed = true → h.slot = r.keySlot) ∧ h.layer < r.nlayer ∧ h.group < r.nhg ∧ r.posLo ≤ h.base ∧ h.base < r.posHi)
    if ¬ same then (ST.LOAD_MISMATCH, s)
    else if ¬ floOn s then (ST.FLO_DISABLED, s)
    else
      let i := runIx s c h.layer h.group
      let old := KMap.get 0 (s.run i).vec (loadVec s c h.base)
      let s := tableFatal ((old == 0 && idPoison s) || mapPoison s cmd.part (chunksFor (storedBody h)) (tailSet s i)) (s.bump (FLO_CNT.COUNT 0))
      match (if old ≠ 0 then some (old, s) else takeFolioId s) with
      | none => (ST.FOLIO_TBL_FULL, s)
      | some (f, s) =>
        match allocExtent cmd.part (chunksFor (storedBody h)) (tailSet s i) s with
        | none => (ST.FOLIO_NOSPACE, (if old ≠ 0 then s else pushFolioId f s).nospace)
        | some (ch, s) =>
          let l := { l with ents := KMap.insert l.ents e (f, ch, hdr) }
          (ST.OK, loadRead l e 1 2496 (storedBody h) (setLoad l s))

/-- The rest of an entry has come: the folio is written and entered. -/
def loadBody (l : LoadSt) (e : Nat) (body : Bytes) (s : State) : Nat × State :=
  match KMap.find? l.ents e with
  | none => (ST.LOAD_MISMATCH, s)
  | some (f, ch, hdr) =>
    let cmd := loadCmd l.cmd
    let h := Hdr.ofBytes hdr
    let n := chunksFor (storedBody h)
    match convFind cmd.part cmd.role cmd.conv s with
    | (none, s) => (ST.DIR_NO_CONV, freeExtent ch s)
    | (some c, s) =>
      let s := writeUpper cmd.part (chunkOff ch) (hdr ++ body) s
      let i := runIx s c h.layer h.group
      let ent := loadVec s c h.base
      let old := s.folio f
      if KMap.get 0 (s.run i).vec ent = f ∧ old.state = 1 then
        let s := s.setFolio f { old with chunk := ch, nchunk := n, closed := h.closed, kerned := h.kerned, sealed := h.sealed, outst := 0,
                                         oldChunk := old.chunk, oldN := old.nchunk, oldOutst := old.outst }
        (ST.OK, if old.outst = 0 then folioFree f s else s)
      else
        let (st, s) := vecPut i ent f s
        if st ≠ ST.OK then (st, pushFolioId f (freeExtent ch s))
        else
          let s := s.setFolio f { chunk := ch, nchunk := n, closed := h.closed, kerned := h.kerned, sealed := h.sealed, state := 1, refs := 1, part := cmd.part }
          (ST.OK, if h.closed then s else s.setRunRec i { s.run i with tail := f })

/-- Take up one read that has ended. -/
def loadTake (x : Nat × Nat × Nat × Bytes) (l : LoadSt) (s : State) : State :=
  let (e, stage, status, data) := x
  let fin := fun (st : Nat) (s : State) =>
    match s.ras.load with
    | none => s
    | some l => setLoad (loadEnd st { l with ents := KMap.erase l.ents e }) s
  if status ≠ ST.OK then
    match KMap.find? l.ents e with
    | some (f, ch, _) =>
      let s := freeExtent ch s
      fin status (if (s.folio f).state = 1 then s else pushFolioId f s)
    | none => fin status s
  else if stage = 0 then
    let (st, s) := loadHeader l e data s
    if st = ST.OK then s else fin st s
  else
    let (st, s) := loadBody l e data s
    fin st s

/-- Take up the reads that have ended, and start entries; `n` bounds the work. -/
def loadPump : Nat → State → State
  | 0, s => s
  | n + 1, s =>
    match s.ras.load with
    | none => s
    | some l =>
      match l.came with
      | [] => s
      | x :: rest =>
        let l := { l with came := rest }
        loadPump n (loadStart 32 (loadTake x l (setLoad l s)))

def loadGo (s : State) : State :=
  match s.ras.load with
  | none => s
  | some l => if l.came.isEmpty then s else loadPump 8200 s

/-- R391: FOLIO_LOAD starts from the record in RAS_CMD_DATA. -/
def execFolioLoad (s : State) : Host.Outcome State Fault Refusal :=
  if ¬ s.flag RAS_CMD_STS.BUSY ∨ s.ras.load.isSome then .next s
  else
    let b := rasRecord s
    let c := loadCmd b
    let s := s.wr RAS_CMD_STS.DONE_N 0 0
    if s.rd RAS_NODE_STS.STATE = 3 then .next (rasDone ST.FENCED s)
    else if s.rd RAS_NODE_STS.STATE ≠ 1 then .next (rasDone ST.RAS_STATE s)
    else if badLoad s b then .next (rasDone ST.RAS_CMD_FORMAT s)
    else if ¬ floOn s then .next (rasDone ST.FLO_DISABLED s)
    else match convFind c.part c.role c.conv s with
    | (none, s) => .next (rasDone ST.DIR_NO_CONV s)
    | (some _, s) =>
      match readUpper 0 c.list (16 * c.n) s with
      | (none, s) => .next (rasDone ST.POISON (poisonUse .chip 6 0 (some c.part) ST.POISON c.list s))
      | (some list, s) => .next (loadGo (loadStart 32 (setLoad { cmd := b, list := list } s)))

/-- R391: the last entry of the list has completed. -/
def execFolioLoadComplete (s : State) : Host.Outcome State Fault Refusal :=
  match s.ras.load with
  | none => .next s
  | some l =>
    let s := s.wr RAS_CMD_STS.DONE_N 0 l.done
    if l.done < (loadCmd l.cmd).n then .next s else .next (rasDone l.status { s with ras.load := none })

end Sys2Proof.Machine
end

