-- ==== Sys2Proof/Machine/Reach.lean ====
section
/-!
DEFINITION. The reach engine (chapter 12): regions and their commands, the checks of Table 12.2, the operations at the
target, and what comes back to the issuer.
-/
namespace Sys2Proof.Machine

def State.region (s : State) (i : Nat) : RchReg := KMap.get {} s.rch.regs i
def State.setRegion (s : State) (i : Nat) (g : RchReg) : State := { s with rch.regs := KMap.put {} s.rch.regs i g }

/-! Commands (Table 12.1). -/

def rchDone (src : CmdSrc) (st : Nat) (res : Bytes) (s : State) : State :=
  match src with
  | .reg => ((s.wr RCH_CMD_STS.BUSY 0 0).wr RCH_CMD_STS.DONE 0 1).wr RCH_CMD_STS.STATUS 0 st
  | .host p r q => jobDone p r q st res s

/-- A record reaches the engine: one of no command ends at once, any other waits its turn. -/
def rchSubmit (src : CmdSrc) (b : Bytes) (s : State) : State :=
  if leAt b 0 1 = 1 ∨ leAt b 0 1 = 2 then { s with rch.cmds := s.rch.cmds ++ [(src, b)] } else rchDone src ST.RCH_REG_FORMAT [] s

/-- The registration that a record asks for. -/
def regOf (b : Bytes) : RchReg :=
  { state := 1, part := leAt b 1 1 % 32, kind := leAt b 2 1 % 2, rights := leAt b 3 1 % 16, src := leAt b 4 2,
    any := bitOf (leAt b 6 1) 0, base := leAt b 8 5, len := leAt b 0x10 5 }

/-- Row 1 of R270. -/
def badReg (b : Bytes) : Bool :=
  let g := regOf b
  decide (32 ≤ leAt b 1 1 ∨ 2 ≤ leAt b 2 1 ∨ 16 ≤ leAt b 3 1 ∨ 2 ≤ leAt b 6 1 ∨ leAt b 7 1 ≠ 0 ∨ leAt b 0xD 3 ≠ 0 ∨ leAt b 0x15 3 ≠ 0 ∨
    leAt b 0x18 40 ≠ 0 ∨ g.rights = 0 ∨ (g.kind = 1 ∧ (bitOf g.rights 1 = true ∨ bitOf g.rights 2 = true ∨ 2 ^ 32 ≤ g.base ∨ g.len ≠ 0)) ∨
    (g.kind = 0 ∧ g.len = 0))

/-- Whether a range touches a channel set that a partition does not own (R57); a set is 1 GiB of offsets. -/
def rangeForeign (s : State) (part lo len : Nat) : Bool :=
  (List.range ((lo + len + 2 ^ 30 - 1) / 2 ^ 30 - lo / 2 ^ 30)).any fun i =>
    let a := (lo / 2 ^ 30 + i) * 2 ^ 30
    !ownerAllows (setOwner s (offStack a) (offSet a)) part

/-- The next free entry after the cursor; `n` bounds the search. -/
def nextFreeReg (s : State) : Nat → Nat → Option Nat
  | 0, _ => none
  | n + 1, i => if (s.region (i % 65536)).state = 0 then some (i % 65536) else nextFreeReg s n (i + 1)

/-- Whether the folio of an ID is there for a partition. -/
def folioHere (s : State) (part f : Nat) : Bool := decide ((s.folio f).state = 1 ∧ (s.folio f).part = part)

def incarnation (s : State) : Nat := s.rd RCH_INCARNATION.VALUE

def regCmd (src : CmdSrc) (b : Bytes) (s : State) : State :=
  let g := regOf b
  if badReg b then rchDone src ST.RCH_REG_FORMAT [] s
  else if g.kind = 0 ∧ (upperSize < g.base + g.len ∨ (g.part ≠ 0 ∧ rangeForeign s g.part g.base g.len = true)) then rchDone src ST.RCH_BOUNDS [] s
  else if g.kind = 1 ∧ ¬ folioHere s g.part g.base then rchDone src ST.RCH_NOT_RESIDENT [] s
  else match nextFreeReg s 65536 (s.rch.cursor + 1) with
  | none => rchDone src ST.RCH_REG_FULL [] s
  | some i =>
    let h := hdrAt s (folioBase s g.base)
    let gen := (s.region i).gen
    let g := if g.kind = 1 then { g with conv := h.conv, layer := h.layer, hg := h.group, posBase := h.base, sealed := h.sealed } else g
    let key := i * 256 + gen
    let s := { s.setRegion i { g with gen := gen } with rch.cursor := i }
    let s := if src = .reg then s.wr RCH_CMD_KEY.KEY 0 key else s
    rchDone src ST.OK (natLe 4 key ++ natLe 4 (incarnation s) ++ natLe 16 0) s

/-- Steps 3 to 7 of Table 12.2 for a key and a partition. -/
def keyStatus (s : State) (key part : Nat) : Nat :=
  let i := key / 256
  let g := s.region i
  if 65535 < i then ST.RCH_KEY
  else if key % 256 ≠ g.gen then ST.GEN_MISMATCH
  else if g.state = 0 then ST.RCH_KEY
  else if g.part ≠ part then ST.RCH_KEY
  else if g.state = 2 then ST.REVOKED
  else ST.OK

def revokeCmd (src : CmdSrc) (b : Bytes) (s : State) : State :=
  let key := leAt b 0x18 4
  let st := keyStatus s key (leAt b 1 1 % 32)
  if st ≠ ST.OK then rchDone src st [] s
  else
    let g := s.region (key / 256)
    s.setRegion (key / 256) { g with state := 2, waiter := some src }

/-- Run the oldest record when it is `op`. -/
def rchStep (op : Nat) (act : CmdSrc → Bytes → State → State) (s : State) : State :=
  match s.rch.cmds with
  | [] => s
  | (src, b) :: rest =>
    if leAt b 0 1 ≠ op then s
    else
      let s := { s with rch.cmds := rest }
      if cmdFenced s (leAt b 1 1 % 32) then rchDone src ST.FENCED [] s else act src b s

/-- R270: REG. -/
def execReg (s : State) : Host.Outcome State Fault Refusal := .next (rchStep 1 regCmd s)

/-- R272: REVOKE. -/
def execRevoke (s : State) : Host.Outcome State Fault Refusal := .next (rchStep 2 revokeCmd s)

/-- R272, step 3: the entry's outstanding count has reached 0. -/
def execRevokeComplete (index : Nat) (s : State) : Host.Outcome State Fault Refusal :=
  let g := s.region index
  if g.state ≠ 2 ∨ g.outst ≠ 0 then .next s
  else
    let s := s.setRegion index { g with state := 0, gen := if g.gen = 255 then 1 else g.gen + 1, waiter := none }
    match g.waiter with
    | some src => .next (rchDone src ST.OK [] s)
    | none => .next s

/-! Receive contexts and responses. -/

def State.rxc? (s : State) (k : Nat) : Option RchRx := KMap.find? s.rch.rx k
def State.setRxc (s : State) (k : Nat) (x : RchRx) : State := { s with rch.rx := KMap.insert s.rch.rx k x }

/-- ACK_SEQ as it stands: up to the request before the oldest FLUSH not answered, else before E (R283). -/
def ackSeq (x : RchRx) : Nat :=
  match x.flush with
  | f :: _ => seqSub f.1 1
  | [] => seqSub x.e 1

/-- What a response says (Table 12.5). -/
structure Resp where
  status : Nat := 0
  req    : Nat := 0
  poison : Bool := false
  nak    : Bool := false
  ack    : Nat := 0
  seq    : Nat := 0
  off    : Nat := 0
  result : Nat := 0
  deriving DecidableEq, Repr

def Resp.bytes (r : Resp) (inc : Nat) : Bytes :=
  natLe 2 r.status ++ natLe 1 r.req ++ natLe 1 (b2n r.poison * 2 + b2n r.nak) ++ natLe 3 r.ack ++ natLe 1 0 ++ natLe 3 r.seq ++
  natLe 1 0 ++ natLe 4 inc ++ natLe 4 r.off ++ natLe 4 0 ++ natLe 8 r.result

def respOf (b : Bytes) : Resp :=
  { status := leAt b 0 2, req := leAt b 2 1, poison := bitOf (leAt b 3 1) 1, nak := bitOf (leAt b 3 1) 0, ack := leAt b 4 3,
    seq := leAt b 8 3, off := leAt b 0x10 4, result := leAt b 0x18 8 }

/-- A response to a frame, in the channel's class. -/
def respFrame (s : State) (f : Frame) (cls ty : Nat) (r : Resp) (data : Bytes) : Frame :=
  { ty := ty, tc := cls, part := f.part, dst := f.src, chan := f.chan, msg := f.msg, pay := r.bytes (incarnation s) ++ data }

/-- Send a response; it carries the acknowledgment, so none alone is owed. -/
def sendResp (k : Nat) (g : Frame) (s : State) : State :=
  let s := (sendFrame g s).2
  match s.rxc? k with
  | some x => s.setRxc k { x with unack := 0 }
  | none => s

def sendStatus (k : Nat) (f : Frame) (r : Resp) (s : State) : State :=
  match s.rxc? k with
  | none => s
  | some x => sendResp k (respFrame s f x.cls 0x15 { r with ack := ackSeq x, seq := if r.req = 0 then 0 else f.seq } []) s

/-- Send a STATUS that ends the access of region entry `i`: the entry's count falls when the frame has left (R271). -/
def sendEnd (i k : Nat) (f : Frame) (r : Resp) (s : State) : State :=
  match s.rxc? k with
  | none => s
  | some x =>
    sendResp k { respFrame s f x.cls 0x15 { r with ack := ackSeq x, seq := f.seq } [] with tok? := some i } s

/-- An acknowledgment alone. -/
def sendAck (k : Nat) (f : Frame) (nak : Bool) (s : State) : State := sendStatus k f { nak := nak } s

/-! The checks of Table 12.2. -/

/-- R274. -/
def badReq (f : Frame) : Bool :=
  let b := f.pay
  let h := reqHdrOf b
  let data := b.length - 32
  decide (b.length < 32 ∨ bits (leAt b 0 1) 1 3 ≠ 0 ∨ leAt b 1 3 ≠ 0 ∨ leAt b 0xD 3 ≠ 0 ∨ leAt b 0x18 8 ≠ 0 ∨
    (f.ty ≠ 0x12 ∧ h.aop ≠ 0) ∨ (f.ty ≠ 0x11 ∧ h.query = true)) ||
  (if f.ty = 0x10 then decide (h.len = 0 ∨ 4064 < h.len ∨ data ≠ h.len)
   else if f.ty = 0x11 then decide (h.len = 0 ∨ 65536 < h.len ∨ data ≠ 0)
   else if f.ty = 0x12 then decide (h.len ≠ 8 ∨ data ≠ 16 ∨ h.off % 8 ≠ 0 ∨ 2 < h.aop)
   else decide (h.len ≠ 0 ∨ data ≠ 0 ∨ h.key ≠ 0 ∨ h.off ≠ 0))

/-- The right an operation takes, as a bit of RIGHTS. -/
def rightBit (f : Frame) : Nat := if f.ty = 0x10 then 1 else if f.ty = 0x12 then 2 else if (reqHdrOf f.pay).query then 3 else 0

/-- The bound of an access (R275). -/
def accessBound (s : State) (g : RchReg) (query : Bool) : Nat :=
  if g.kind = 0 then g.len
  else
    let h := hdrAt s (folioBase s g.base)
    if query then h.blocks * 64 else 2496 + storedBody h

/-- The status of an access: the first row that applies; a fenced node or partition refuses every one. -/
def accessStatus (s : State) (f : Frame) : Nat :=
  let h := reqHdrOf f.pay
  let g := s.region (h.key / 256)
  let hd := hdrAt s (folioBase s g.base)
  if cmdFenced s f.part then ST.FENCED
  else if badReq f then ST.RCH_FORMAT
  else if h.inc ≠ incarnation s then ST.RCH_PEER_RESET
  else if f.ty = 0x13 then ST.OK
  else
    let st := keyStatus s h.key f.part
    if st ≠ ST.OK then st
    else if ¬ g.any ∧ f.src ≠ g.src then ST.RCH_RIGHTS
    else if ¬ bitOf g.rights (rightBit f) ∨ (g.kind = 1 ∧ (f.ty = 0x10 ∨ f.ty = 0x12)) ∨ (g.kind = 0 ∧ h.query = true) then ST.RCH_RIGHTS
    else if accessBound s g h.query < h.off + h.len then ST.RCH_BOUNDS
    else if g.kind = 1 ∧ (¬ folioHere s f.part g.base ∨ hd.conv ≠ g.conv ∨ hd.layer ≠ g.layer ∨ hd.group ≠ g.hg ∨ hd.base ≠ g.posBase) then
      ST.RCH_NOT_RESIDENT
    else if h.query ∧ hd.sealed then ST.RCH_SEALED
    else ST.OK

/-- The upper-case offset where an access begins: a QUERY counts from the payload (R275). -/
def accessAt (s : State) (f : Frame) : Nat :=
  let h := reqHdrOf f.pay
  let g := s.region (h.key / 256)
  if g.kind = 0 then g.base + h.off else folioBase s g.base + (if h.query then bodyOff else 0) + h.off

/-- The range of the arrays that an access reads or writes; a QUERY of a kerned folio reads what its codec needs of the extent. -/
def accessRange (s : State) (f : Frame) : Nat × Nat :=
  let h := reqHdrOf f.pay
  let g := s.region (h.key / 256)
  let hd := hdrAt s (folioBase s g.base)
  if g.kind = 1 ∧ h.query = true ∧ hd.kerned = true then (folioBase s g.base, bodyOff + storedBody hd) else (accessAt s f, h.len)

/-- Whether an access must wait, and what the wait changes: its entry's count is full (R271), its partition's bucket is empty
(R206), or its rows are held (R89). -/
def accessWaits (c : Instr) (s : State) (f : Frame) : Option State :=
  if f.ty = 0x13 ∨ accessStatus s f ≠ ST.OK then none
  else if (s.region ((reqHdrOf f.pay).key / 256)).outst = 65535 then some s
  else reqWaits c f.part (accessRange s f).1 (accessRange s f).2 s

/-- A refused access is counted and logged (R282). -/
def refuseReach (f : Frame) (st : Nat) (s : State) : State :=
  let s := (s.bump RCH_REFUSE_CNT.COUNT).wr RCH_ERR_LOG0.STATUS 0 st
  let s := (s.wr RCH_ERR_LOG0.SRC_NODE 0 f.src).wr RCH_ERR_LOG1.KEY 0 (reqHdrOf f.pay).key
  if st = ST.KEY_RETIRED then s.bump (RSP_CNT.COUNT 3) else s

/-- What the stacks and the gutter say of a range: refused by R15 or R57, or by a fence. -/
def rangeStatus (s : State) (part off len : Nat) : Nat :=
  if rangeForeign s part off len then ST.RCH_XPART
  else if stackShut s (offStack off) ∨ stackShut s (offStack (off + len - 1)) then ST.STK_FENCED
  else ST.OK

/-! Reads (R275, R280). -/

/-- The request by which a reach read probes the galley: key slot 0, so that it meets lines of open folios alone. -/
def probeOf (part off : Nat) : GalReq := { part := part, off := off - off % 128 }

/-- The parts of a range, line by line. -/
def linePieces (off len : Nat) : List (Nat × Nat) :=
  (List.range ((off + len + 127) / 128 - off / 128)).map fun i =>
    let lo := max off (off - off % 128 + 128 * i)
    (lo, min (off + len) (off - off % 128 + 128 * i + 128) - lo)

/-- Bytes of one line: from the galley of the stack's region where it holds the line, else from the arrays. DESIGN CHOICE: the
probe of a reach read fills no line. -/
def readLine (part off len : Nat) (s : State) : Option Bytes × State :=
  match galHit (probeOf part off) 0 s with
  | (some o, _, s) => (o.data.map fun b => slice b (off % 128) len, s)
  | (none, _, s) => readUpper part off len s

/-- Bytes of a range, none where some of it is poison. -/
def readRange (part off len : Nat) (s : State) : Option Bytes × State :=
  (linePieces off len).foldl (fun (r : Option Bytes × State) p =>
    let (d, s) := readLine part p.1 p.2 r.2
    (r.1.bind fun a => d.map (a ++ ·), s)) (some [], s)

/-- The chunks of 4,064 bytes of a range of the arrays, `none` where one is poisoned. -/
def readChunks (part : Nat) : Nat → Nat → Nat → State → List (Option Bytes) × State
  | 0, _, _, s => ([], s)
  | n + 1, off, len, s =>
    let (d, s) := readRange part off (min 4064 len) s
    if len ≤ 4064 then ([d], s)
    else
      let (r, s) := readChunks part n (off + 4064) (len - 4064) s
      (d :: r, s)

/-- Chunks of `len` bytes from `off` on, out of blocks of 1,024 bytes of which the first holds `off`; one that meets a block not
read is `none`. -/
def cutBlocks (off len : Nat) (bs : List (Option Bytes)) : List (Option Bytes) :=
  (List.range (ceilDiv len 4064)).map fun i =>
    let lo := off % 1024 + 4064 * i
    let n := min 4064 (len - 4064 * i)
    (((bs.drop (lo / 1024)).take ((lo + n + 1023) / 1024 - lo / 1024)).mapM id).map fun b => (b.flatten.drop (lo % 1024)).take n

/-- How far the codec reads the body to decode `n` blocks of group `g`: to the end of the last, or past the fault it meets. -/
def groupReach (hdr body : Bytes) (klen g n : Nat) : Nat :=
  ((List.range n).foldl (fun (r : Nat × Bool) i =>
    if r.2 then r
    else match decodeBlock (kernFlag hdr (16 * g + i)) body klen r.1 with
      | .ok (_, len) => (r.1 + len, false)
      | .error _ => (min klen (r.1 + 64), true)) (kernIndex hdr g, false)).1

/-- Decode the groups of a kerned folio at `base` that cover `len` solid bytes from `off`: each read as far as the codec goes,
`none` where that meets poison; or the first fault as block and REASON. -/
def kernGroups (part base : Nat) (hdr : Bytes) (h : Hdr) (off len : Nat) : List Nat → State →
    Except (Nat × Nat) (List (Option Bytes)) × State
  | [], s => (.ok [], s)
  | g :: rest, s =>
    let n := min (min 16 (h.blocks - 16 * g)) ((off + len + 63) / 64 - 16 * g)
    let lo := kernIndex hdr g
    let hi := groupReach hdr (peek s (base + bodyOff) (pad32 h.kLen)) h.kLen g n
    let (d, s) := readRange part (base + bodyOff + lo) (hi - lo) s
    match d with
    | none =>
      let (r, s) := kernGroups part base hdr h off len rest s
      (r.map (none :: ·), s)
    | some b =>
      match decodeGroup hdr (List.replicate lo 0 ++ b) h.kLen h.blocks g n with
      | (_, some e) => (.error e, s)
      | (bs, none) =>
        let (r, s) := kernGroups part base hdr h off len rest s
        (r.map (some bs.flatten :: ·), s)

/-- The descriptor that a folio's header must name: that of its conversation's record (R49, condition 1). -/
def descOfHdr (s : State) (h : Hdr) : Nat := ((convOfHdr s h).map fun e => e.2.desc).getD h.desc

/-- What a QUERY of a kerned folio returns (R49, R275). DESIGN CHOICE: BLOCK of KRN_FMT_ERR_LOG1 is 0 for a fault of the header,
for which R49 names none. -/
def readKerned (part f base : Nat) (hd : Hdr) (off len : Nat) (s : State) : Nat × List (Option Bytes) × State :=
  let fault := fun (e : Nat × Nat) (s : State) => (ST.KERN_FORMAT_RCH, [], kernFault .chip 65 ST.KERN_FORMAT_RCH f e.1 e.2 s)
  match readRange part base bodyOff s with
  | (none, s) => (ST.OK, List.replicate (ceilDiv len 4064) none, s)
  | (some hdr, s) =>
    let desc := descOfHdr s hd
    if ¬ kernHeaderOk hd hdr desc (descOf s desc).geo true then fault (0, 4) s
    else
      let gs := (List.range ((off + len + 1023) / 1024 - off / 1024)).map fun i => off / 1024 + i
      match kernGroups part base hdr hd off len gs s with
      | (.error e, s) => fault e s
      | (.ok bs, s) => (ST.OK, cutBlocks off len bs, s)

/-- What a READ or QUERY returns: a status, and its chunks; none where the codec has found a fault. A range that the stacks refuse
is poison throughout (R15, R65). -/
def readData (f : Frame) (s : State) : Nat × List (Option Bytes) × State :=
  let h := reqHdrOf f.pay
  let g := s.region (h.key / 256)
  let base := folioBase s g.base
  let hd := hdrAt s base
  let (off, len) := accessRange s f
  let st := rangeStatus s f.part off len
  if st ≠ ST.OK then
    (st, List.replicate (ceilDiv h.len 4064) none, if st = ST.RCH_XPART then s.bump GUT_XPART_CNT.COUNT else s)
  else if g.kind = 1 ∧ h.query = true ∧ hd.kerned = true then readKerned f.part g.base base hd h.off h.len s
  else
    let (d, s) := readChunks f.part 17 off len s
    (ST.OK, d, s)

/-- The DATA frames of a read, one per chunk; a poisoned chunk has its frame marked, with the status `bad`. The acknowledgment
moves over the read with its last frame, which also ends the access of region entry `tok`; the others carry `ack`, the one that
stood before it (R283). -/
def dataFrames (s : State) (f : Frame) (x : RchRx) (gen slot tok bad ack : Nat) (ds : List (Option Bytes)) : List Frame :=
  let len := (reqHdrOf f.pay).len
  let n := ds.length
  ds.zipIdx.map fun (d, i) =>
    let r : Resp := { status := if d.isNone then bad else ST.OK, req := 0x11, poison := d.isNone,
                      ack := if i + 1 = n then ackSeq x else ack, seq := f.seq, off := 4064 * i }
    { respFrame s f x.cls 0x14 r (d.getD (List.replicate (min 4064 (len - 4064 * i)) 0)) with
      keySlot := slot, keyGen := gen, tok? := if i + 1 = n then some tok else none }

/-- An access of region entry `i` has passed its checks: its count is up until its last response frame has left (R271). -/
def raise1 (i : Nat) (s : State) : State := s.setRegion i { s.region i with outst := (s.region i).outst + 1 }

/-- Carry a read out and send its frames. `ack` is the acknowledgment as it stood before the read. -/
def doRead (ack k : Nat) (f : Frame) (x : RchRx) (s : State) : State :=
  let i := (reqHdrOf f.pay).key / 256
  let g := s.region i
  let st := accessStatus s f
  let hd := hdrAt s (folioBase s g.base)
  let sealed := g.kind = 1 ∧ hd.sealed
  if st ≠ ST.OK then sendStatus k f { status := st, req := 0x11 } (refuseReach f st s)
  else if sealed ∧ ¬ keyOpen s hd.slot hd.gen then
    sendEnd i k f { status := ST.KEY_RETIRED, req := 0x11 } (refuseReach f ST.KEY_RETIRED (raise1 i s))
  else
    let (st, ds, s) := readData f (raise1 i s)
    if ds.isEmpty then sendEnd i k f { status := st, req := 0x11 } s
    else
      let s := if st = ST.OK ∧ ds.any Option.isNone then poisonUse .chip 11 0 (some f.part) ST.POISON (accessAt s f) s else s
      (dataFrames s f x (if sealed then hd.gen else 0) (if sealed then hd.slot else 0) i (if st = ST.OK then ST.POISON else st) ack ds).foldl
        (fun s g => sendResp k g s) s

/-- A READ or QUERY taken in turn, and one that comes again (R283). -/
def newRead (k : Nat) (f : Frame) (x : RchRx) (s : State) : State := doRead (ackSeq { x with e := f.seq }) k f x s
def dupRead (k : Nat) (f : Frame) (x : RchRx) (s : State) : State := doRead (ackSeq x) k f x s

/-! Writes and atomics (R276, R278). -/

/-- Note a WRITE's status for the channel's next FLUSH. -/
def noteFault (k st : Nat) (s : State) : State :=
  match s.rxc? k with
  | some x => if x.fault = 0 then s.setRxc k { x with fault := st } else s
  | none => s

def doWrite (k : Nat) (f : Frame) (s : State) : State :=
  let st := accessStatus s f
  if st ≠ ST.OK then noteFault k st (refuseReach f st s)
  else
    let off := accessAt s f
    let data := f.pay.drop 32
    let st := rangeStatus s f.part off data.length
    if st = ST.OK then writeUpper f.part off data s
    else noteFault k st (if st = ST.RCH_XPART then s.bump GUT_XPART_CNT.COUNT else s)

/-- The new word of an ATOMIC. -/
def atomicNew (aop w a b : Nat) : Nat := if aop = 0 then (w + a) % 2 ^ 64 else if aop = 1 then a else if w = a then b else w

/-- Carry an ATOMIC out: status, old value, and the state after. -/
def doAtomic (f : Frame) (s : State) : Nat × Nat × State :=
  let st := accessStatus s f
  if st ≠ ST.OK then (st, 0, refuseReach f st s)
  else
    let off := accessAt s f
    let st := rangeStatus s f.part off 8
    if st ≠ ST.OK then (st, 0, if st = ST.RCH_XPART then s.bump GUT_XPART_CNT.COUNT else s)
    else match readUpper f.part off 8 s with
    | (none, s) => (ST.POISON, 0, poisonUse .chip 11 0 (some f.part) ST.POISON off s)
    | (some d, s) =>
      let w := leNat d
      (ST.OK, w, writeUpper f.part off (natLe 8 (atomicNew (reqHdrOf f.pay).aop w (leAt f.pay 32 8) (leAt f.pay 40 8))) s)

def cachePut (src : Nat) (r : Replay) (s : State) : State :=
  let l := KMap.get [] s.rch.replay src ++ [r]
  { s with rch.replay := KMap.insert s.rch.replay src (l.drop (l.length - 64)) }

/-! Sequencing (R281, R289). -/

/-- Requests and OPENs of one channel are taken in their order of arrival; the first in line of kind `ty`. -/
def firstOfChannel (tys : List Nat) (p : Frame → Bool) : List (Nat × Nat) → List Frame → Option Frame
  | _, [] => none
  | seen, f :: r =>
    if ¬ tys.contains f.ty then firstOfChannel tys p seen r
    else if ¬ seen.contains (f.src, f.chan) ∧ p f then some f
    else firstOfChannel tys p ((f.src, f.chan) :: seen) r

def reqTypes : List Nat := [0x10, 0x11, 0x12, 0x13, 0x16]
def respTypes : List Nat := [0x14, 0x15, 0x17]

def removeFrame (f : Frame) (s : State) : State := occSub f { s with fab.inbox := s.fab.inbox.erase f }

/-- A request without a context (R286). -/
def noContext (f : Frame) (s : State) : State :=
  let s := s.bump RCH_NOCTX_CNT.COUNT
  (sendFrame (respFrame s f f.tc 0x15 { status := ST.RCH_NO_CONTEXT, req := f.ty, seq := f.seq } []) s).2

/-- Sequence the first request of a kind: `new` carries an accepted one out, `dup` answers a duplicate. A READ or QUERY that comes
again is carried out again (R289), and waits as a new one does; `c` is the command by which a request waits. -/
def reachReq (c : Instr) (p : Frame → Bool) (new dup : Nat → Frame → RchRx → State → State) (s : State) : State :=
  if ¬ s.flag RCH_CFG.EN then s
  else match firstOfChannel reqTypes p [] s.fab.inbox with
  | none => s
  | some f =>
    let k := chKey f.src f.chan
    match s.rxc? k with
    | none => noContext f (removeFrame f s)
    | some x =>
      if x.cls ≠ f.tc then noContext f (removeFrame f s)
      else
        let d := seqSub x.e f.seq
        let x := { x with last := s.now }
        let waits := if d = 0 ∨ (d ≤ 256 ∧ f.ty = 0x11) then accessWaits c s f else none
        if let some s := waits then s
        else if d = 0 then
          let x := { x with e := (x.e + 1) % seqMod }
          new k f x ((removeFrame f (unstall c s)).setRxc k x)
        else if d ≤ 256 then dup k f x (((removeFrame f (unstall c s)).setRxc k x).bump RCH_DUP_CNT.COUNT)
        else
          let s := ((removeFrame f s).setRxc k x).bump RCH_OOS_CNT.COUNT
          if x.nakAt = some x.e then s else sendAck k f true (s.setRxc k { x with nakAt := some x.e })

/-- R271, R283: WRITE. -/
def execWrite (s : State) : Host.Outcome State Fault Refusal :=
  .next (reachReq .write (fun f => f.ty == 0x10)
    (fun k f x s =>
      let x := { x with unack := x.unack + 1, since := if x.unack = 0 then s.now else x.since }
      let s := doWrite k f (s.setRxc k x)
      if 16 ≤ x.unack then sendAck k f false s else s)
    (fun k f _ s => sendAck k f false s) s)

/-- R275: READ. -/
def execRead (s : State) : Host.Outcome State Fault Refusal :=
  .next (reachReq .read (fun f => f.ty == 0x11 && !(reqHdrOf f.pay).query) newRead dupRead s)

/-- R275: QUERY. -/
def execQuery (s : State) : Host.Outcome State Fault Refusal :=
  .next (reachReq .query (fun f => f.ty == 0x11 && (reqHdrOf f.pay).query) newRead dupRead s)

/-- R276, R290: ATOMIC. -/
def execAtomic (s : State) : Host.Outcome State Fault Refusal :=
  .next (reachReq .atomic (fun f => f.ty == 0x12)
    (fun k f _ s =>
      let (st, w, s) := doAtomic f s
      sendStatus k f { status := st, req := 0x12, result := w } (cachePut f.src { chan := f.chan, seq := f.seq, status := st, result := w } s))
    (fun k f _ s =>
      match (KMap.get [] s.rch.replay f.src).find? fun r => r.chan == f.chan && r.seq == f.seq with
      | some r => sendStatus k f { status := r.status, req := 0x12, result := r.result } (s.bump RCH_REPLAY_HIT_CNT.COUNT)
      | none => s.bump RCH_REPLAY_MISS_CNT.COUNT) s)

/-- R278: FLUSH: it waits for its answer, with the channel's first failing WRITE status, which clears. -/
def execFlush (s : State) : Host.Outcome State Fault Refusal :=
  .next (reachReq .flush (fun f => f.ty == 0x13)
    (fun k f x s =>
      let st := accessStatus s f
      if st ≠ ST.OK then
        let s := refuseReach f st s
        s.setRxc k { x with flush := x.flush ++ [(f.seq, f.msg, f.part, st)] }
      else s.setRxc k { x with flush := x.flush ++ [(f.seq, f.msg, f.part, x.fault)], fault := 0 })
    (fun k f x s =>
      match x.done.find? fun d => d.1 == f.seq with
      | some d => sendStatus k f { status := d.2, req := 0x13 } s
      | none => sendAck k f false s) s)

/-- R278: the writes accepted before the oldest FLUSH of a channel are placed: it is answered. -/
def execFlushAnswer (src chan : Nat) (s : State) : Host.Outcome State Fault Refusal :=
  let k := chKey src chan
  match s.rxc? k with
  | none => .next s
  | some x =>
    match x.flush with
    | [] => .next s
    | (sq, msg, part, st) :: rest =>
      let done := x.done ++ [(sq, st)]
      let s := s.setRxc k { x with flush := rest, done := done.drop (done.length - 256) }
      .next (sendStatus k { src := src, chan := chan, seq := sq, msg := msg, part := part } { status := st, req := 0x13 } s)

/-- R283: 1 µs after the first accepted write not yet acknowledged. -/
def execAckTimer (src chan : Nat) (s : State) : Host.Outcome State Fault Refusal :=
  let k := chKey src chan
  match s.rxc? k with
  | none => .next s
  | some x => if x.unack = 0 ∨ s.now < x.since + 1000 then .next s else .next (sendAck k { src := src, chan := chan } false s)

/-- R286: OPEN. -/
def execOpenCh (s : State) : Host.Outcome State Fault Refusal :=
  if ¬ s.flag RCH_CFG.EN then .next s
  else match firstOfChannel reqTypes (fun f => f.ty == 0x16) [] s.fab.inbox with
  | none => .next s
  | some f =>
    let s := removeFrame f s
    let k := chKey f.src f.chan
    let answer := fun (e st : Nat) (s : State) =>
      (sendFrame { ty := 0x17, tc := f.tc, part := f.part, dst := f.src, chan := f.chan, msg := f.msg,
                   pay := natLe 3 e ++ natLe 1 0 ++ natLe 4 (incarnation s) ++ natLe 2 st ++ natLe 6 0 } s).2
    match s.rxc? k with
    | some x => .next (answer x.e ST.OK (s.setRxc k { x with last := s.now }))
    | none =>
      if 8192 ≤ s.rch.rx.length then .next (answer 0 ST.RCH_NO_CONTEXT (s.bump RCH_NOCTX_CNT.COUNT))
      else
        let e := leAt f.pay 0 3
        .next (answer e ST.OK (s.setRxc k { cls := f.tc, e := e, last := s.now }))

/-- R287: a receive context has seen no frame for IDLE_MS; the source's replay cache goes with its last context. -/
def execContextIdleExpire (src chan : Nat) (s : State) : Host.Outcome State Fault Refusal :=
  let k := chKey src chan
  match s.rxc? k with
  | none => .next s
  | some x =>
    if s.now < x.last + s.rd RCH_HOLD_CFG.IDLE_MS * 1000000 then .next s
    else
      let s := { s with rch.rx := KMap.erase s.rch.rx k }
      if s.rch.rx.any fun e => e.1 / 16 == src then .next s else .next { s with rch.replay := KMap.erase s.rch.replay src }

/-! The issuer (R277, R283–R286). -/

/-- Take acknowledgments up to ACK_SEQ: slots free in order, up to the first request that still awaits its answer. -/
def takeAck (k ack : Nat) (s : State) : State :=
  let t := s.txc k
  let gone := t.held.takeWhile fun q => decide (seqSub ack q.seq < 2 ^ 23) && q.done
  if gone.isEmpty then s
  else pumpAll (s.setTxc k { t with held := t.held.drop gone.length, tmos := 0 })

/-- Resend every unacknowledged request, in order (R284). -/
def resendAll (k : Nat) (s : State) : State :=
  let t := s.txc k
  let s := s.setTxc k { t with held := t.held.map fun q => { q with sentAt := s.now } }
  t.held.foldl (fun s q => (sendHeld k q s).2.bump RCH_RTX_CNT.COUNT) s

/-- The held request that a response answers. -/
def answered (t : RchTx) (r : Resp) : Option TxReq := t.held.find? fun q => q.seq == r.seq && q.ty == r.req && !q.done

/-- Whether a host takes the data of a request that a descriptor issued. DESIGN CHOICE: as no operand of the frame's arrival says so,
it is a free value. -/
def hostTakes (q : TxReq) (s : State) : Bool × State :=
  match q.owner with
  | .job _ _ _ => (s.draw % 2 == 0, s.drawn)
  | _ => (true, s)

/-- R277: DATA. -/
def execData (s : State) : Host.Outcome State Fault Refusal :=
  match firstOfChannel respTypes (fun f => f.ty == 0x14) [] s.fab.inbox with
  | none => .next s
  | some f =>
    let s := removeFrame f s
    let k := chKey f.src f.chan
    let r := respOf f.pay
    let t := s.txc k
    let s := match answered t r with
      | none => s
      | some q =>
        if r.off ≠ q.got.length then s
        else
          let st := if q.status = ST.OK then r.status else q.status
          let q := { q with got := q.got ++ f.pay.drop 32, status := st }
          if (reqHdrOf q.pay).len ≤ q.got.length then
            let (ok, s) := hostTakes q s
            complete ok k q st 0 s
          else s.setTxc k { t with held := t.held.map fun x => if x.seq = q.seq then q else x }
    .next (loadGo (takeAck k r.ack s))

/-- R283, R284: STATUS, or an acknowledgment alone. -/
def execStatus (s : State) : Host.Outcome State Fault Refusal :=
  match firstOfChannel respTypes (fun f => f.ty == 0x15) [] s.fab.inbox with
  | none => .next s
  | some f =>
    let s := removeFrame f s
    let k := chKey f.src f.chan
    let r := respOf f.pay
    if r.status = ST.RCH_NO_CONTEXT then
      if (s.txc k).state = 1 then .next (sendOpen k (s.setTxc k { s.txc k with state := 2, brokenAt := s.now })).2 else .next s
    else
      let s := match (if r.req = 0 then none else answered (s.txc k) r) with
        | none => s
        | some q => complete true k q r.status r.result s
      let s := takeAck k r.ack s
      let s := if r.nak ∧ (s.txc k).state = 1 then resendAll k s else s
      .next (loadGo s)

/-- R286: OPEN_RSP. -/
def execOpenRsp (s : State) : Host.Outcome State Fault Refusal :=
  match firstOfChannel respTypes (fun f => f.ty == 0x17) [] s.fab.inbox with
  | none => .next s
  | some f =>
    let s := removeFrame f s
    let k := chKey f.src f.chan
    let t := s.txc k
    let e := leAt f.pay 0 3
    let inc := leAt f.pay 4 4
    if (t.state ≠ 2 ∧ t.state ≠ 3) ∨ leAt f.pay 8 2 ≠ ST.OK then .next s
    else if t.known = none ∨ t.known = some inc then
      let old := t.held.filter fun q => decide (0 < seqSub e q.seq ∧ seqSub e q.seq < 2 ^ 23)
      let rest := t.held.filter fun q => !old.contains q
      let s := s.setTxc k { t with state := 1, known := some inc, tmos := 0, held := rest, next := if t.held.isEmpty then e else t.next }
      let s := failReqs old ST.RCH_UNREACHABLE s
      let s := if rest.isEmpty then s else resendAll k s
      .next (loadGo (pumpAll s))
    else
      let lost := (t.held.filter fun q => q.ty = 0x10).length
      let s := s.setTxc k { t with state := 1, known := some inc, tmos := 0, held := [], next := e }
      let s := failReqs t.held ST.RCH_PEER_RESET (s.bumpBy RCH_LOST_WR_CNT.COUNT 0 lost)
      .next (loadGo (pumpAll s))

/-- R284, R285: the oldest unacknowledged request of a channel has waited RTO_US. -/
def execRtxTimeout (dst chan : Nat) (s : State) : Host.Outcome State Fault Refusal :=
  let k := chKey dst chan
  let t := s.txc k
  match t.held with
  | [] => .next s
  | q :: _ =>
    if t.state ≠ 1 ∨ s.now < q.sentAt + s.rd RCH_CFG.RTO_US * 1000 then .next s
    else
      let s := (s.bump RCH_TMO_CNT.COUNT).setTxc k { t with tmos := t.tmos + 1 }
      if t.tmos + 1 < s.rd RCH_CFG.RETRY_MAX then .next (resendAll k s)
      else
        let kept := t.held.map fun q => if q.ty = 0x10 then q else { q with done := true, owner := .none, got := [] }
        let s := (s.bump RCH_BROKEN_CNT.COUNT).setTxc k { t with state := 3, tmos := 0, brokenAt := s.now, openAt := s.now, held := kept }
        let s := report .chip { sev := 0, subsys := 11, cause := Config.causeCode 65 } s
        .next (loadGo (failReqs (t.held.filter fun q => q.ty != 0x10) ST.RCH_UNREACHABLE s))

/-- R285: 1 ms has passed since the last OPEN of a channel that is not open. -/
def execOpenRetry (dst chan : Nat) (s : State) : Host.Outcome State Fault Refusal :=
  let k := chKey dst chan
  let t := s.txc k
  if (t.state ≠ 3 ∧ t.state ≠ 2) ∨ s.now < t.openAt + 1000000 ∨ t.brokenAt + s.rd RCH_HOLD_CFG.HOLD_MS * 1000000 ≤ s.now then .next s
  else .next (sendOpen k s).2

/-- R285: the hold of a channel has ended without a response. -/
def execChannelHoldExpire (dst chan : Nat) (s : State) : Host.Outcome State Fault Refusal :=
  let k := chKey dst chan
  let t := s.txc k
  if (t.state ≠ 3 ∧ t.state ≠ 2) ∨ s.now < t.brokenAt + s.rd RCH_HOLD_CFG.HOLD_MS * 1000000 then .next s
  else
    let lost := (t.held.filter fun q => q.ty = 0x10).length
    let s := (s.bumpBy RCH_LOST_WR_CNT.COUNT 0 lost).setTxc k {}
    .next (loadGo (pumpAll (failReqs (t.held ++ t.waitq) ST.RCH_UNREACHABLE s)))

end Sys2Proof.Machine
end

