-- ==== Sys2Proof/Machine/Host.lean ====
section
/-!
DEFINITION. The host interface (chapter 14, R311–R331): rings and doorbells, descriptors, colophons, vectors, resets
from the host, and the CXL memory windows.
-/
namespace Sys2Proof.Machine

/-! Rings (R317–R320). -/

def ringKey (p q : Nat) : Nat := 8 * p + q
def sqSize (s : State) (p q : Nat) : Nat := 2 ^ s.rd (HST_SQ_CFG.SIZE_LOG2 q) p
def cqSize (s : State) (p c : Nat) : Nat := 2 ^ s.rd (HST_CQ_CFG.SIZE_LOG2 c) p
def sqTail (s : State) (p q : Nat) : Nat := KMap.get 0 s.hst.sqTail (ringKey p q)
def cqHead (s : State) (p c : Nat) : Nat := KMap.get 0 s.hst.cqHead (ringKey p c)
/-- Entries of a colophon ring that are written and not yet read. -/
def cqUsed (s : State) (p c : Nat) : Nat := (s.rd (HST_CQ_STS.TAIL c) p + cqSize s p c - cqHead s p c) % cqSize s p c
/-- Entries that fetched descriptors have reserved. -/
def cqReserved (s : State) (p c : Nat) : Nat := (s.job.jobs.filter fun j => j.part == p && j.cq == c).length

/-- A ring goes into error, and vector 63 is signaled (R318). -/
def sqError (p q kind : Nat) (s : State) : State := signal p 63 ((s.wr (HST_SQ_STS.ERR q) p 1).wr (HST_SQ_STS.ERR_KIND q) p kind)
def cqError (p c : Nat) (s : State) : State := signal p 63 (s.wr (HST_CQ_STS.ERR c) p 1)

/-- A doorbell of a ring that is off, in error, or in reset is counted and ignored. -/
def doorbellIgnored (s : State) (p : Nat) (en err : Bool) : Bool := s.flag HST_PRT_STS.RST_BUSY p || !en || err

def sqDoorbell (p q value : Nat) (s : State) : State :=
  let v := bits value 0 16
  if doorbellIgnored s p (s.flag (HST_SQ_CFG.EN q) p) (s.flag (HST_SQ_STS.ERR q) p) then s.bump (HST_PRT_CNT.COUNT 2) p
  else if sqSize s p q ≤ v then sqError p q 1 (s.bump (HST_PRT_CNT.COUNT 2) p)
  else { s with hst.sqTail := KMap.put 0 s.hst.sqTail (ringKey p q) v }

def cqDoorbell (p c value : Nat) (s : State) : State :=
  let v := bits value 0 16
  let n := cqSize s p c
  if doorbellIgnored s p (s.flag (HST_CQ_CFG.EN c) p) (s.flag (HST_CQ_STS.ERR c) p) then s.bump (HST_PRT_CNT.COUNT 2) p
  else if n ≤ v ∨ cqUsed s p c < (v + n - cqHead s p c) % n then cqError p c (s.bump (HST_PRT_CNT.COUNT 2) p)
  else { s with hst.cqHead := KMap.put 0 s.hst.cqHead (ringKey p c) v }

def execSqDoorbell (part ring value : Nat) (s : State) : Host.Outcome State Fault Refusal := .next (sqDoorbell part ring value s)
def execCqDoorbell (part ring value : Nat) (s : State) : Host.Outcome State Fault Refusal := .next (cqDoorbell part ring value s)

/-- A size that a configuration register takes (R317). -/
def sizeOk (v : Nat) : Bool := decide (4 ≤ v ∧ v ≤ 16)

def sqConfig (p q value : Nat) (s : State) : State :=
  let was := s.flag (HST_SQ_CFG.EN q) p
  let s := if was then s
           else
             let s := s.wr (HST_SQ_CFG.CQ q) p (bits value 16 3)
             if sizeOk (bits value 0 5) then s.wr (HST_SQ_CFG.SIZE_LOG2 q) p (bits value 0 5) else s
  let s := if bitOf value 31 ∧ ¬ was then clearSq p q s else s
  s.wr (HST_SQ_CFG.EN q) p (bits value 31 1)

def cqConfig (p c value : Nat) (s : State) : State :=
  let was := s.flag (HST_CQ_CFG.EN c) p
  let s := if ¬ was ∧ sizeOk (bits value 0 5) then s.wr (HST_CQ_CFG.SIZE_LOG2 c) p (bits value 0 5) else s
  let s := if bits value 24 6 < 62 then s.wr (HST_CQ_CFG.VECTOR c) p (bits value 24 6) else s
  let s := (s.wr (HST_CQ_CFG.COAL_CNT c) p (bits value 16 8)).wr (HST_CQ_CFG.COAL_US c) p (bits value 8 8)
  let s := if bitOf value 31 ∧ ¬ was then
             let s := clearCq p c s
             { s with hst.unsig := KMap.erase s.hst.unsig (ringKey p c) }
           else s
  s.wr (HST_CQ_CFG.EN c) p (bits value 31 1)

/-- R317: a write of a ring's configuration register; EN from 0 to 1 resets the ring. -/
def execRingEnable (part ring : Nat) (colophon : Bool) (value : Nat) (s : State) : Host.Outcome State Fault Refusal :=
  .next (if colophon then cqConfig part ring value s else sqConfig part ring value s)

/-! Fetching (R319, R320). -/

def sqReady (s : State) (p q : Nat) : Bool :=
  s.flag (HST_SQ_CFG.EN q) p && !s.flag (HST_SQ_STS.ERR q) p && !s.flag HST_PRT_STS.RST_BUSY p && s.rd (HST_SQ_STS.HEAD q) p != sqTail s p q

/-- Whether an entry of the ring that a submission ring names can be reserved. -/
def cqFree (s : State) (p q : Nat) : Bool :=
  let c := s.rd (HST_SQ_CFG.CQ q) p
  s.flag (HST_CQ_CFG.EN c) p && !s.flag (HST_CQ_STS.ERR c) p && decide (cqUsed s p c + cqReserved s p c + 1 < cqSize s p c)

/-- The host link's IDE stream was stopped by zeroization: the link carries no TLP (R362). -/
def hostStopped (s : State) : Bool := (KMap.get {} s.key.ide 0).stop

/-- Whether a partition's function is enabled (R330). -/
def functionOn (s : State) (p : Nat) : Bool := p == 0 || (s.hst.vfEnable && decide (p ≤ s.hst.numVfs))

def canFetch (s : State) (p q : Nat) : Bool :=
  sqReady s p q && cqFree s p q && s.flag HST_LINK_STS.UP && !hostStopped s && functionOn s p && nodeAdmits s

/-- Rings that find no free entry are counted once for each wait. -/
def noteWaits (s : State) : State :=
  (List.range 256).foldl (fun s i =>
    if sqReady s (i / 8) (i % 8) ∧ ¬ cqFree s (i / 8) (i % 8) ∧ KMap.get 0 s.hst.waits i = 0 then
      { s with hst.waits := KMap.put 0 s.hst.waits i 1 }.bump (HST_PRT_CNT.COUNT 3) (i / 8)
    else s) s

def partFetches (s : State) (p : Nat) : Bool := (List.range 8).any fun q => canFetch s p q

/-- The partition that takes the next turn: the lowest with turns left in this round, a new round starting when none has. -/
def turnOf (s : State) : Option (Nat × State) :=
  let ready := (List.range 32).filter (partFetches s)
  match ready.find? fun p => decide (KMap.get 0 s.hst.turns p < s.rd HST_PRT_CFG.FETCH_W p) with
  | some p => some (p, s)
  | none =>
    match ready with
    | [] => none
    | p :: _ => some (p, { s with hst.turns := [] })

/-- The next ring of a partition, ascending after the one that took the last turn. -/
def ringTurn (s : State) (p : Nat) : Option Nat :=
  let start := KMap.get 0 s.hst.lastRing p
  ((List.range 8).map fun i => (start + i) % 8).find? (canFetch s p)

/-- R319, R320: one turn fetches one descriptor, with an entry for its colophon reserved. -/
def execDescriptorFetch (desc : Bytes) (ok : Bool) (s : State) : Host.Outcome State Fault Refusal :=
  let s := noteWaits s
  match turnOf s with
  | none => .next s
  | some (p, s) =>
    match ringTurn s p with
    | none => .next s
    | some q =>
      let k := ringKey p q
      let s := { s with hst.turns := KMap.put 0 s.hst.turns p (KMap.get 0 s.hst.turns p + 1),
                        hst.lastRing := KMap.put 0 s.hst.lastRing p (q + 1), hst.waits := KMap.erase s.hst.waits k }
      if ¬ ok then .next (sqError p q 2 (s.bump HST_DMA_ERR_CNT.COUNT))
      else
        let n := KMap.get 0 s.hst.seqs k
        let j : HostJob := { part := p, ring := q, seq := n, cq := s.rd (HST_SQ_CFG.CQ q) p, desc := slice desc 0 64 }
        let s := { s with hst.seqs := KMap.put 0 s.hst.seqs k (n + 1), job.jobs := s.job.jobs ++ [j] }
        let s := s.wr (HST_SQ_STS.HEAD q) p ((s.rd (HST_SQ_STS.HEAD q) p + 1) % sqSize s p q)
        .next ((s.bump (HST_PRT_CNT.COUNT 0) p).addWrap HST_RX_BYTES.BYTES 0 64)

/-! Descriptors (R321–R325). -/

def HostJob.opc (j : HostJob) : Nat := leAt j.desc 0 1
def HostJob.fence (j : HostJob) : Bool := bitOf (leAt j.desc 1 1) 1

def job? (s : State) (p q n : Nat) : Option HostJob := s.job.jobs.find? fun j => j.part == p && j.ring == q && j.seq == n

def setJob (j : HostJob) (s : State) : State :=
  { s with job.jobs := s.job.jobs.map fun i => if i.part = j.part ∧ i.ring = j.ring ∧ i.seq = j.seq then j else i }

/-- FENCE: a descriptor waits for every earlier one of its ring, or for an earlier FENCE (R321). -/
def mayStart (s : State) (j : HostJob) : Bool :=
  s.job.jobs.all fun i => !(i.part == j.part && i.ring == j.ring && decide (i.seq < j.seq)) || !(j.fence || i.fence)

/-- Bytes that Table 14.4 does not list, by operation. -/
def descReserved (opc : Nat) : List (Nat × Nat) :=
  match opc with
  | 0 => [(4, 60)]
  | 1 => [(4, 4), (0x14, 4), (0x24, 28)]
  | 2 => [(5, 3), (0x18, 40)]
  | 3 => [(4, 4), (0x10, 48)]
  | 4 => [(7, 1), (0xA, 2), (0x15, 3), (0x38, 8)]
  | _ => [(0xD, 3), (0x1C, 36)]

/-- Lengths that Table 12.4 allows for a request. -/
def reachLenOk (ty len : Nat) : Bool :=
  match ty with
  | 0x10 => decide (1 ≤ len ∧ len ≤ 4064)
  | 0x11 => decide (1 ≤ len ∧ len ≤ 65536)
  | 0x12 => decide (len = 8)
  | _ => decide (len = 0)

/-- What a malformed descriptor is (Tables 14.3, 14.4). -/
def descBad (d : Bytes) : Bool :=
  let opc := leAt d 0 1
  decide (5 < opc ∨ 4 ≤ leAt d 1 1) || (descReserved opc).any (fun r => leAt d r.1 r.2 != 0) ||
  (match opc with
   | 1 => decide (leAt d 8 8 % 64 ≠ 0 ∨ leAt d 0x18 8 % 64 ≠ 0)
   | 2 => decide (2 ≤ leAt d 4 1)
   | 4 =>
     let ty := leAt d 4 1
     let c := bits (leAt d 6 1) 4 3
     decide (ty < 0x10 ∨ 0x13 < ty ∨ bits (leAt d 5 1) 1 3 ≠ 0 ∨ 128 ≤ leAt d 6 1) ||
       !([3, 4, 6, 7].contains c) || (ty == 0x12 && decide (3 ≤ leAt d 5 1 / 16)) || !reachLenOk ty (leAt d 0x1C 4)
   | 5 => decide (8 ≤ leAt d 6 1 ∨ bits (leAt d 7 1) 6 1 ≠ 0 ∨ leAt d 8 5 % 512 ≠ 0)
   | _ => false)

/-- R312, R321, R377: a descriptor starts, or completes at once with why it does not. -/
def execDescriptorStart (part ring seq : Nat) (s : State) : Host.Outcome State Fault Refusal :=
  match job? s part ring seq with
  | none => .next s
  | some j =>
    if j.started ∨ ¬ mayStart s j ∨ ¬ nodeAdmits s then .next s
    else
      let s := setJob { j with started := true } s
      let done st := Host.Outcome.next (jobDone part ring seq st [] s)
      if cmdFenced s part then done ST.FENCED
      else if ¬ partDefined s part ∨ ¬ s.flag HST_PRT_CFG.EN part then done ST.HST_NO_PART
      else if descBad j.desc then done ST.HST_DESC_FORMAT
      else .next s

/-- Act on a started descriptor of one operation, once; a failed host read completes it. -/
def hostRun (opc p q n : Nat) (ok : Bool) (act : HostJob → State → State) (s : State) : State :=
  match job? s p q n with
  | none => s
  | some j =>
    if ¬ j.started ∨ j.state ≠ 0 ∨ j.opc ≠ opc then s
    else
      let s := setJob { j with state := 1 } s
      if ok then act j s else jobDone p q n ST.HST_DMA [] (s.bump HST_DMA_ERR_CNT.COUNT)

/-- Bytes read from the host are counted. -/
def hostIn (n : Nat) (s : State) : State := s.addWrap HST_RX_BYTES.BYTES 0 n

/-- R321: NOP completes when it is started. -/
def execHostNop (part ring seq : Nat) (s : State) : Host.Outcome State Fault Refusal :=
  .next (hostRun 0 part ring seq true (fun _ s => jobDone part ring seq ST.OK [] s) s)

/-- R322: the ticket at TKT_ADDR arrives whole at its root. In Hold it stays unstarted (R405). -/
def execHostTicket (part ring seq : Nat) (data : Bytes) (ok : Bool) (s : State) : Host.Outcome State Fault Refusal :=
  if s.rd RSP_FORME_STS.STATE = 4 then .next s
  else .next (hostRun 1 part ring seq ok (fun j s =>
    let b := slice data 0 (leAt j.desc 0x10 4)
    receiveTicket { part := part, from? := .host part ring seq, data := b } b.length (hostIn b.length s)) s)

/-- A record with its partition forced (R323). -/
def forcePart (p : Nat) (b : Bytes) : Bytes := splice b 1 (natLe 1 (setBits (leAt b 1 1) 0 5 p))

/-- R323: a record goes to the folio unit or the collator. -/
def execHostCommand (part ring seq : Nat) (record data : Bytes) (ok : Bool) (s : State) : Host.Outcome State Fault Refusal :=
  .next (hostRun 2 part ring seq ok (fun j s =>
    let s := hostIn 64 s
    let rec64 := slice record 0 64
    let unit := bitOf (leAt j.desc 4 1) 0
    let put := unit && leAt rec64 0 1 == 1
    if ¬ put ∧ leAt j.desc 0x10 8 ≠ 0 then jobDone part ring seq ST.HST_DESC_FORMAT [] s
    else if unit then
      let d := slice data 0 1024
      let d := splice d 4 (natLe 1 (setBits (leAt d 4 1) 0 5 part))
      colSubmit (.host part ring seq) (forcePart part rec64) (if put then d else []) (if put then hostIn 1024 s else s)
    else floSubmit (.host part ring seq) (forcePart part rec64) s) s)

/-- R323: a REG or REVOKE record goes to the reach engine. -/
def execHostReachCmd (part ring seq : Nat) (record : Bytes) (ok : Bool) (s : State) : Host.Outcome State Fault Refusal :=
  .next (hostRun 3 part ring seq ok (fun _ s =>
    rchSubmit (.host part ring seq) (forcePart part (slice record 0 64)) (hostIn 64 s)) s)

/-- R324: one reach request. -/
def execHostReach (part ring seq : Nat) (data : Bytes) (ok : Bool) (s : State) : Host.Outcome State Fault Refusal :=
  .next (hostRun 4 part ring seq ok (fun j s =>
    let d := j.desc
    let ty := leAt d 4 1
    let h : ReqHdr := { aop := leAt d 5 1 / 16, query := bitOf (leAt d 5 1) 0, key := leAt d 0xC 4, off := leAt d 0x10 5,
                        inc := leAt d 0x18 4, len := leAt d 0x1C 4 }
    let body := if ty = 0x10 then slice data 0 h.len else if ty = 0x12 then slice d 0x28 16 else []
    let s := if ty = 0x10 then hostIn h.len s else s
    rchIssue (leAt d 8 2) (leAt d 6 1 % 16) (bits (leAt d 6 1) 4 3)
      { ty := ty, part := part, msg := seq % 2 ^ 32, pay := h.bytes ++ body, owner := .job part ring seq } s) s)

/-- Bytes that the PUTS commands of a program take (Table 4.5). -/
def putsBytes (words : List Nat) : Nat :=
  (words.map fun w => if cmdOp w = 0x03 then (if bitOf (cmdFlags w) 0 then 128 else 256) else 0).foldl (· + ·) 0

/-- ADDR_ADD, on the commands that name an address. -/
def addAddr (add w : Nat) : Nat :=
  if cmdOp w = 0x01 ∨ cmdOp w = 0x02 ∨ cmdOp w = 0x05 then setBits w 6 34 ((cmdAddr w + add) / 64) else w

/-- The list header of a PLATEN descriptor (Table 4.2), of the longest length that a list may declare. -/
def platenHeader (d : Bytes) (part count : Nat) : Bytes :=
  natLe 1 count ++ natLe 1 (leAt d 7 1) ++ natLe 1 part ++ natLe 1 0 ++ natLe 2 4800 ++ natLe 2 (leAt d 2 2) ++ natLe 8 0

/-- R325: a platen program of the forme goes to a stack as one list. -/
def execHostPlaten (part ring seq : Nat) (data : Bytes) (ok : Bool) (s : State) : Host.Outcome State Fault Refusal :=
  .next (hostRun 5 part ring seq ok (fun j s =>
    let d := j.desc
    match platenProg? s (leAt d 4 2) with
    | none => jobDone part ring seq ST.HST_PROG [] s
    | some words =>
      let n := leAt d 0x18 4
      if (words.any fun w => opGang (cmdOp w)) ∨ putsBytes words ≠ n then
        jobDone part ring seq ST.PLT_LIST_FORMAT (pltResult { cmdIndex := 255 }) s
      else
        pltSubmit (leAt d 6 1) (.host part ring seq) (platenHeader d part words.length) (words.map (addAddr (leAt d 8 5)))
          (slice data 0 n) (hostIn n s)) s)

/-! Colophons and vectors (R326–R329). -/

/-- A colophon has been written: the ring's vector is signaled now, or later (R328). -/
def coalesce (p c : Nat) (irq : Bool) (s : State) : State :=
  let k := ringKey p c
  let (n, since) := (KMap.find? s.hst.unsig k).getD (0, s.now)
  if irq ∨ s.rd (HST_CQ_CFG.COAL_CNT c) p ≤ n + 1 then
    signal p (s.rd (HST_CQ_CFG.VECTOR c) p) { s with hst.unsig := KMap.erase s.hst.unsig k }
  else { s with hst.unsig := KMap.insert s.hst.unsig k (n + 1, since) }

/-- The 32 bytes of Table 14.5. -/
def colophonBytes (s : State) (j : HostJob) : Bytes :=
  natLe 2 (leAt j.desc 2 2) ++ natLe 2 j.status ++ natLe 2 (s.rd (HST_SQ_STS.HEAD j.ring) j.part) ++
  natLe 1 (2 * j.ring + s.rd (HST_CQ_STS.PHASE j.cq) j.part) ++ natLe 1 j.opc ++ slice j.res 0 24

/-- R326: a completed descriptor's colophon is written at the tail, unless its ring is off or in error (R318). -/
def execColophonWrite (part ring seq : Nat) (s : State) : Host.Outcome State Fault Refusal :=
  match job? s part ring seq with
  | none => .next s
  | some j =>
    let c := j.cq
    if j.state ≠ 2 ∨ hostStopped s ∨ ¬ s.flag (HST_CQ_CFG.EN c) part ∨ s.flag (HST_CQ_STS.ERR c) part ∨ cqSize s part c ≤ cqUsed s part c + 1 then .next s
    else
      let t := s.rd (HST_CQ_STS.TAIL c) part
      let b := colophonBytes s j
      let s := { s with job.jobs := s.job.jobs.erase j }
      let s := s.emit (.colophon part c t b)
      let s := s.wr (HST_CQ_STS.TAIL c) part ((t + 1) % cqSize s part c)
      let s := if t + 1 = cqSize s part c then s.wr (HST_CQ_STS.PHASE c) part (1 - s.rd (HST_CQ_STS.PHASE c) part) else s
      .next (coalesce part c (bitOf (leAt j.desc 1 1) 0) ((s.bump (HST_PRT_CNT.COUNT 1) part).addWrap HST_TX_BYTES.BYTES 0 32))

/-- R328: the coalescing time of a ring has passed. -/
def execCoalTimeout (part cq : Nat) (s : State) : Host.Outcome State Fault Refusal :=
  match KMap.find? s.hst.unsig (ringKey part cq) with
  | none => .next s
  | some (_, since) =>
    let us := s.rd (HST_CQ_CFG.COAL_US cq) part
    if us = 0 ∨ s.now < since + us * 1000 then .next s
    else .next (signal part (s.rd (HST_CQ_CFG.VECTOR cq) part) { s with hst.unsig := KMap.erase s.hst.unsig (ringKey part cq) })

/-- R329: a vector is unmasked; its pending bit is delivered once. -/
def execVectorUnmask (part vec : Nat) (s : State) : Host.Outcome State Fault Refusal :=
  if 64 ≤ vec then .next s
  else
    let s := { s with hst.msixOpen := KMap.put 0 s.hst.msixOpen part (setBit (KMap.get 0 s.hst.msixOpen part) vec) }
    if bitOf (KMap.get 0 s.hst.msixPend part) vec then
      .next ({ s with hst.msixPend := KMap.put 0 s.hst.msixPend part (clrBit (KMap.get 0 s.hst.msixPend part) vec) }.emit (.msix part vec))
    else .next s

/-! Resets from the host (R331). -/

/-- A function returns to its reset configuration, with its vectors masked. -/
def functionClear (p : Nat) (s : State) : State :=
  { s with hst.msixOpen := KMap.erase s.hst.msixOpen p, hst.cfg := s.hst.cfg.filter fun e => e.1 / 4096 ≠ p }

/-- VF Enable is clear, which resets every partition 1 to 31. -/
def resetVfs (clearNum : Bool) (s : State) : State :=
  let s := { s with hst.vfEnable := false, hst.numVfs := if clearNum then 0 else s.hst.numVfs }
  (List.range 31).foldl (fun s p => functionClear (p + 1) (resetStart (p + 1) false false s)) s

/-- Partition 0 and every other partition are reset; VF Enable is clear. -/
def resetEvery (own0 : Bool) (s : State) : State :=
  resetVfs true (functionClear 0 (resetStart 0 false own0 s))

/-- R331: the physical function's reset clears VF Enable and so resets every partition. -/
def execFunctionLevelReset (part : Nat) (s : State) : Host.Outcome State Fault Refusal :=
  if part = 0 then .next (resetEvery true s)
  else if part < 32 then .next (functionClear part (resetStart part false true s))
  else .next s

def prtRst (value : Nat) (s : State) : State :=
  if bitOf value 31 then resetStart (bits value 0 5) (bitOf value 30) false s else s

def execHstPrtRst (value : Nat) (s : State) : Host.Outcome State Fault Refusal := .next (prtRst value s)

/-- R331: a hot reset or a loss of the host link. -/
def hostLinkDown (s : State) : State :=
  let s := (((s.wr HST_LINK_STS.UP 0 0).wr HST_LINK_STS.CXL 0 0).wr HST_LINK_STS.WIDTH 0 0).wr HST_LINK_STS.SPEED 0 0
  let s := { s with key.ide := KMap.put ({} : IdeSt) s.key.ide 0 { (KMap.get ({} : IdeSt) s.key.ide 0) with go := false } }
  resetEvery false ((s.wr HST_LINK_STS.IDE 0 0).wr HST_LINK_STS.FLIT 0 0)

def execHostLinkLoss (s : State) : Host.Outcome State Fault Refusal := .next (hostLinkDown s)

/-! CXL memory windows (R313–R315). -/

def State.hdm (s : State) (w : Nat) : Hdm := KMap.get {} s.hst.hdm w

/-- The size of a window, in bytes. -/
def winSize (s : State) (w : Nat) : Nat := s.rd HST_WIN_SIZE.VALUE w * 2 ^ 28
def winBase (s : State) (w : Nat) : Nat := s.rd HST_WIN_BASE.VALUE w * 2 ^ 28

/-- R313: a decoder is committed, or takes its error status and decodes nothing. Under CXL 1.1 there is decoder 0 alone. -/
def execHdmDecoderCommit (win base size : Nat) (s : State) : Host.Outcome State Fault Refusal :=
  let v := s.rd HST_LINK_STS.CXL
  if v = 0 ∨ 32 ≤ win ∨ (v = 1 ∧ win ≠ 0) then .next s
  else
    let ok := s.flag HST_WIN_CFG.EN win && size == winSize s win
    .next { s with hst.hdm := KMap.put {} s.hst.hdm win { base := base, size := size, committed := ok, error := !ok } }

/-- The window and upper-case offset that a host address decodes to. -/
def decodeHpa (s : State) (hpa : Nat) : Option (Nat × Nat) :=
  if s.rd HST_LINK_STS.CXL = 0 then none
  else
    ((List.range 32).find? fun w =>
      let d := s.hdm w
      d.committed && s.flag HST_WIN_CFG.EN w && decide (d.base ≤ hpa ∧ hpa < d.base + d.size)).map fun w =>
      (w, winBase s w + (hpa - (s.hdm w).base))

/-- A request through a window, as one of the window's partition (R314); a fenced partition's is refused (R377). -/
def cxlAccess (hpa : Nat) (x : Access) (s : State) : State :=
  match decodeHpa s hpa with
  | none => s
  | some (w, off) =>
    let p := s.rd HST_WIN_CFG.PART w
    let x := { x with part := p, off := off }
    if partFenced s p then refuseAccess x ST.POISON (s.bump GUT_XPART_CNT.COUNT)
    else
      let s := if x.write then hostIn x.data.length s else s.addWrap HST_TX_BYTES.BYTES 0 x.len
      access x s

/-- R314, R315: the stored form returns; poison is indicated and counted, with no record (R373). -/
def execCxlMemRead (hpa crcFails : Nat) (s : State) : Host.Outcome State Fault Refusal :=
  let x : Access := { len := 64, crcFails := crcFails }
  let t := cxlAccess (hpa - hpa % 64) x s
  match t.out, decodeHpa s hpa with
  | .readData p _ _ true st :: _, some (_, off) =>
    if st = ST.POISON ∧ s.out.length < t.out.length ∧ rangePoison s (off - off % 64) 64 ∧ ¬ partFenced s p ∧
        ownerAllows (setOwner s (offStack off) (offSet off)) p then .next (t.bump (RAS_CNT.COUNT 5))
    else .next t
  | _, _ => .next t

/-- R315: a write completes once its galley lines are invalid and it stands in the write queue. -/
def execCxlMemWrite (hpa : Nat) (data : Bytes) (crcFails : Nat) (s : State) : Host.Outcome State Fault Refusal :=
  .next (cxlAccess hpa { write := true, data := data, crcFails := crcFails } s)

end Sys2Proof.Machine
end

