-- ==== Sys2Proof/Machine/Forme.lean ====
section
/-!
DEFINITION. The forme commands and the commit of a forme at run time (R403–R405, R409), its rehash (R345), and step 8 of
start-up (R408).
-/
namespace Sys2Proof.Machine

def formeState (s : State) : Nat := s.rd RSP_FORME_STS.STATE

/-- A command that the state does not allow is ignored and sets ERR (R403). -/
def formeErr (s : State) : State := s.wr RSP_FORME_STS.ERR 0 1

/-- A load or a commit ends with a status in a state. -/
def formeEnd (st state : Nat) (s : State) : State :=
  ((s.wr RSP_FORME_STS.STATUS 0 st).wr RSP_FORME_STS.STATE 0 state).wr RSP_FORME_STS.DONE 0 1

/-- Measurement 5, the security state (Table 15.1): the owner slots, the fused SVN, the debug level and the alarm
latches. -/
def recordSecurity (s : State) : State :=
  let own := (List.range 4).flatMap fun n =>
    match KMap.find? s.fus.owners n with
    | some (a, h) => [1, a, h, bits s.fus.revoked n 1]
    | none => [0, 0, 0, bits s.fus.revoked n 1]
  let d := Config.secDigest (own ++ [s.fus.svn, s.rd MGT_STS.DEBUG_LVL, s.rd RSP_ALARM_STS.SRC, b2n s.key.zeroized])
  (List.range 12).foldl (fun s k => s.wr (RSP_MEAS.DIGEST k) 5 (bits d (32 * k) 32)) s

/-- Step 8 of Table 17.12: every section is applied, and measurements 4 and 5 are recorded. -/
def startForme (m : FormeImg) (s : State) : State :=
  recordSecurity { applyForme true m s with fme.applied := true }

/-- The container that LOAD has placed is taken up (R403). -/
def formeTake (b : Bytes) (s : State) : State :=
  { s.wr RSP_FORME_STS.STATE 0 1 with fme.loading := some b, fme.staged := none }

/-- Whether LOAD is taken up now; else what it does (Table 17.9). With BOOT_SEL 7 the node takes no forme. -/
def loadGate (take : State → State) (s : State) : State :=
  if 3 ≤ formeState s then s.wr RSP_FORME_STS.STATUS 0 ST.FORME_BUSY
  else if formeState s = 1 ∨ s.rd PCM_STRAP.BOOT_SEL = 7 then formeErr s
  else take s

/-- R403: LOAD reads the container from the host. -/
def execLoad (data : Bytes) (ok : Bool) (s : State) : Host.Outcome State Fault Refusal :=
  .next (loadGate (fun s =>
    let b := slice data 0 (s.rd RSP_FORME_LEN.LEN)
    if ok then formeTake b (hostIn b.length s)
    else formeEnd ST.HST_DMA 0 { s.bump HST_DMA_ERR_CNT.COUNT with fme.staged := none }) s)

/-- R400: the container is staged or refused; at start-up an accepted one is applied at once (R407). -/
def execFormeVerified (s : State) : Host.Outcome State Fault Refusal :=
  match s.fme.loading with
  | none => .next s
  | some b =>
    let (r, s) := verifyForme (!s.fme.applied) b { s with fme.loading := none }
    match r with
    | .error e => .next (formeEnd e 0 s)
    | .ok m =>
      if s.fme.applied then .next (formeEnd 0 2 { s with fme.staged := some m })
      else .next (formeEnd 0 0 (startForme m s))

/-- R404: GO arms the staged forme and writes its shadows. -/
def formeGo (s : State) : State :=
  match s.fme.staged with
  | none => formeErr s
  | some m =>
    if formeState s ≠ 2 then formeErr s
    else if ¬ timeInBound s ∨ (m.time ≠ 0 ∧ m.time ≤ fabTime s) then s.wr RSP_FORME_STS.STATUS 0 ST.FORME_LATE
    else writeShadows m (secDiffers m s.fme.active) (s.wr RSP_FORME_STS.STATE 0 3)

def execGo (s : State) : Host.Outcome State Fault Refusal := .next (formeGo s)

/-- R403: CANCEL discards a staged forme; of an armed one it rewrites the shadows from the active forme. -/
def formeCancel (s : State) : State :=
  if formeState s = 2 then { s.wr RSP_FORME_STS.STATE 0 0 with fme.staged := none }
  else if formeState s = 3 then
    let m := s.fme.staged.getD {}
    let s := writeShadows s.fme.active (secDiffers m s.fme.active) s
    { s.wr RSP_FORME_STS.STATE 0 0 with fme.staged := none }
  else formeErr s

def execCancel (s : State) : Host.Outcome State Fault Refusal := .next (formeCancel s)

/-- R409: ENABLE sets the deferred EN bits, once after each reset. -/
def execEnable (s : State) : Host.Outcome State Fault Refusal :=
  if s.flag RSP_FORME_STS.ENABLED ∨ ¬ s.fme.applied then .next (formeErr s)
  else
    let b := secOf s 1
    let u := leAt b 0x44 1
    let s := if bitOf u 0 then floAdopt s else s
    let s := ((s.wr FLO_CFG.EN 0 (bits u 0 1)).wr RCH_CFG.EN 0 (bits u 1 1)).wr COL_CFG.EN 0 (bits u 2 1)
    let s := (List.range 4).foldl (fun s n => s.wr (TIER_POOL_CFG.EN n) 0 (bits u (4 + n) 1)) s
    .next (s.wr RSP_FORME_STS.ENABLED 0 1)

/-- R405, step 1: with fabric time at COMMIT_TIME the hold begins. -/
def execFormeHold (s : State) : Host.Outcome State Fault Refusal :=
  if formeState s = 3 ∧ (s.fme.staged.getD {}).time ≤ fabTime s then
    .next { s.wr RSP_FORME_STS.STATE 0 4 with fme.holdAt := s.now }
  else .next s

/-- R405: attempts that run after DRAIN_US are stopped, and counted. -/
def execFormeDrainTimeout (s : State) : Host.Outcome State Fault Refusal :=
  if formeState s = 4 ∧ s.fme.holdAt + 1000 * s.rd RSP_COMMIT_CFG.DRAIN_US ≤ s.now then
    .next (s.col.atts.foldl (fun s e => failAtt e.1 ST.FORME_COMMIT (s.bump (RSP_FORME_CNT.COUNT 3))) s)
  else .next s

/-- R405, step 2: the changed sections are written and committed, and the merged image becomes active. -/
def execFormeSwap (s : State) : Host.Outcome State Fault Refusal :=
  match s.fme.staged with
  | none => .next s
  | some m =>
    if formeState s = 4 ∧ s.col.atts = [] then
      let s := { applyForme false m s with fme.staged := none }
      let s := s.wr RSP_COMMIT_LAST.TIME 0 (fabTime s)
      .next (formeEnd 0 0 (s.bump (RSP_FORME_CNT.COUNT 2)))
    else .next s

/-- Bytes with some of them changed. -/
def upsetBytes (b : Bytes) (us : List (Nat × Nat)) : Bytes :=
  us.foldl (fun b u => b.set u.1 (b.getD u.1 0 ^^^ BitVec.ofNat 8 u.2)) b

/-- R345: the stored copy is hashed and compared with the digest that was verified. -/
def execFormeRehash (upsets : List (Nat × Nat)) (s : State) : Host.Outcome State Fault Refusal :=
  if ¬ rspRuns s then .next s
  else .next (s.atPeriod .rehash 100000000 fun s =>
    if s.fme.active.secs ≠ [] ∧ Config.sha384 (upsetBytes s.fme.active.bytes upsets) ≠ formeDigest s then alarm [4] none s else s)

end Sys2Proof.Machine
end

