-- ==== Sys2Proof/Machine/Power.lean ====
section
/-!
DEFINITION. Power states, clock levels and the power cap (R411–R422, R399).
-/
namespace Sys2Proof.Machine

/-! IDLE and DOZE (R415–R417). -/

def blockIdle (x : BlkSt) : Bool := x.cur.isNone && x.queue.isEmpty

/-- Whether the node holds none of what R415 lists. -/
def quiet (s : State) : Bool :=
  s.col.reams.isEmpty && s.col.atts.isEmpty && s.rea.pool.isEmpty && (s.cmp.blocks.all fun e => blockIdle e.2) &&
  (s.plt.queues.all fun e => e.2.isEmpty) && s.plt.runs.isEmpty && s.flo.waiting.isEmpty && s.flo.closing.isNone &&
  s.tier.cmd.isNone && s.col.waiting.isEmpty && s.col.held.isNone && (formeState s == 0 || formeState s == 2) &&
  s.job.jobs.all fun j => !(j.started && decide (j.state < 2))

/-- Whether the active forme gives a block of a region to a latency-first partition (R417). -/
def latencyHeld (s : State) (r : Nat) : Bool :=
  (List.range 16).any fun i => (s.fme.active.blockOwner (16 * r + i)).any fun p => !modeEnergy s p

/-- Whether the blocks of a region rest: every gate is closed, and no fill of the region runs (R416). -/
def regionRests (s : State) (r : Nat) : Bool :=
  (List.range 16).all (fun i => s.rd CMP_SEQ_STS.CLK_ON (16 * r + i) == 0) && s.gal.fills.all fun q => galRegion q.1.off != r

/-- The times of R415, R416 and R439 go on, or begin, or end, as a nanosecond passes. DESIGN CHOICE: a break that takes no time
is none. -/
def watch (s : State) : State :=
  let keep := fun (on : Bool) (m : KMap Nat) (k : Nat) =>
    if on then KMap.insert m k ((KMap.find? m k).getD s.now) else KMap.erase m k
  let tierOn := fun (n : Nat) => s.flag (TIER_PORT_CFG.EN n) && !nodeHeld s
  { s with pcm.quietAt := if quiet s then some (s.pcm.quietAt.getD s.now) else none
           pcm.restAt := (List.range 4).foldl (fun m r => keep (regionRests s r) m r) s.pcm.restAt
           pcm.tierOnAt := (List.range 4).foldl (fun m n => keep (tierOn n) m n) s.pcm.tierOnAt }

/-- Whether a time that began at `t` has lasted `us` microseconds. -/
def lasted (s : State) (t : Option Nat) (us : Nat) : Bool := t.any fun t => decide (t + us * 1000 ≤ s.now)

/-- R415. -/
def execIdleEntry (s : State) : Host.Outcome State Fault Refusal :=
  if nodeRuns s ∧ s.rd PCM_IDLE_US.US ≠ 0 ∧ quiet s ∧ lasted s s.pcm.quietAt (s.rd PCM_IDLE_US.US) ∧ ¬ (List.range 4).any (latencyHeld s) then
    .next ((s.wr PCM_STATE.NODE 0 1).bump (PCM_CNT.COUNT 0))
  else .next s

def execIdleWake (s : State) : Host.Outcome State Fault Refusal :=
  if s.rd PCM_STATE.NODE = 1 then .next (s.wr PCM_STATE.NODE 0 0) else .next s

/-- R416: the region's islands are gated, and its program stores lose their contents. -/
def execDozeEntry (region : Nat) (s : State) : Host.Outcome State Fault Refusal :=
  if region < 4 ∧ s.rd PCM_STATE.NODE ≤ 1 ∧ ¬ regionDozes s region ∧ s.rd PCM_DOZE_US.US ≠ 0 ∧
      regionRests s region ∧ lasted s (KMap.find? s.pcm.restAt region) (s.rd PCM_DOZE_US.US) ∧ ¬ latencyHeld s region then
    let s := { s.raise PCM_STATE.DOZE 0 (2 ^ region) with cmp.prog := s.cmp.prog.filter fun e => decide (e.1 / 16 ≠ region) }
    .next (s.bump (PCM_CNT.COUNT 1))
  else .next s

/-- The registers of a block after DOZE: every row holds a free value, from the `n`-th on. -/
def junkBlk (n : Nat) (x : BlkSt) : BlkSt :=
  let fill := fun (base k wd : Nat) => (List.range k).foldl (fun m i => KMap.put 0 m i (Config.freeNat (n + base + i) % 2 ^ wd)) []
  { x with scal := (fill 0 32 64).filter (fun e => decide (e.1 ≠ 0)), preds := fill 32 8 64, tiles := fill 40 1024 512,
           tpsn := fill 1064 1024 1, accs := fill 2088 512 2048, apsn := fill 2600 512 64, rmap := [] }

/-- A dozing region wakes: its program stores are rewritten (R399), and its blocks' registers hold unspecified values. -/
def regionUp (r : Nat) (s : State) : State :=
  let s := loadProg s.fme.active r (s.wr PCM_STATE.DOZE 0 (clrBit (s.rd PCM_STATE.DOZE) r))
  (List.range 16).foldl (fun s i =>
    { s.setBlk (16 * r + i) (junkBlk s.freeIx (s.blk (16 * r + i))) with freeIx := s.freeIx + 3112 }) s

def execRegionWake (region : Nat) (s : State) : Host.Outcome State Fault Refusal :=
  if region < 4 ∧ regionDozes s region then .next (regionUp region s) else .next s

/-! KEEP (R418, R419). -/

def keepErr (reason : Nat) (s : State) : State :=
  ((s.wr PCM_STATE.ERR 0 1).wr PCM_STATE.ERR_REASON 0 reason).bump (PCM_CNT.COUNT 7)

/-- Whether a hold may still be kept: its timer has not passed PHASE_TMO. -/
def holdRuns (s : State) (g : Nat) (h : PltHold) : Bool := h.held && decide (s.now - h.since ≤ s.rd PLT_CFG.PHASE_TMO (g / 8) * 1000)

/-- Whether entry to KEEP may go on: the node is quiet, the press holds have ended or passed PHASE_TMO (Table 4.8), and the stack
controllers hold no request that waits (R76). -/
def keepReady (s : State) : Bool :=
  quiet s && (s.plt.holds.all fun e => !holdRuns s e.1 e.2) && (s.stk.units.all fun e => e.2.waiting.isEmpty) && s.rea.regWait.isEmpty

/-- Steps 2 to 6: press holds end, the stacks are in self-refresh, the links are in electrical idle, and every domain but D0
stops. -/
def keepEnter (s : State) : State :=
  let s := (List.range 64).foldl (fun s i => dropHold (i / 8) (i % 8) s) s
  let s := (List.range 8).foldl (fun s k => s.wr STK_STS.SELF_REFRESH k 1) s
  { (s.wr PCM_STATE.NODE 0 3).bump (PCM_CNT.COUNT 2) with pcm.keepAt := s.now }

/-- A step on an empty queue: one nanosecond passes, and an entry to KEEP ends once the node is ready for it (R418). -/
def idle (s : State) : State :=
  let s := watch (tick s)
  if s.rd PCM_STATE.NODE = 2 ∧ keepReady s then keepEnter s else s

/-- The KEEP command: refused, or entry begins, and ends at once when the node is quiet. -/
def keepCmd (s : State) : State :=
  if 2 ≤ s.rd PCM_STATE.NODE then s
  else if ¬ s.flag PCM_POL.KEEP_EN then keepErr 1 s
  else if s.tier.leases ≠ [] then keepErr 3 s
  else
    let s := { s.wr PCM_STATE.NODE 0 2 with pcm.keepAt := s.now }
    if keepReady s then keepEnter s else s

def execKeep (s : State) : Host.Outcome State Fault Refusal := .next (keepCmd s)

/-- R418, step 1: not quiet within 1 ms. A node that is quiet waits on for its holds, which end by themselves. -/
def execKeepAbandon (s : State) : Host.Outcome State Fault Refusal :=
  if s.rd PCM_STATE.NODE = 2 ∧ ¬ quiet s ∧ s.pcm.keepAt + 1000000 ≤ s.now then .next (keepErr 2 (s.wr PCM_STATE.NODE 0 0))
  else .next s

/-- The wake sequence begins (R419): time is restored from the count of D0, in units of 40 ns, and is out of bound; every
region wakes running, and the links train again. A wake during entry abandons it. -/
def wakeUp (s : State) : State :=
  let n := s.rd PCM_STATE.NODE
  if n ≠ 2 ∧ n ≠ 3 then s
  else
    let s := if n = 2 then keepErr 4 s
      else
        let s := s.wr TIME_NOW.NS 0 (s.rd TIME_NOW.NS - (s.now - s.pcm.keepAt) % 40)
        (List.range 24).foldl (fun s c => if 2 ≤ s.rd FAB_PORT_STS.STATE c ∧ s.rd FAB_PORT_STS.STATE c ≤ 4 then portRetrain c s else s) s
    let s := outOfBound { s.wr PCM_STATE.NODE 0 4 with tim.good := 0 }
    ((List.range 4).filter fun r => regionDozes s r).foldl (fun s r => regionUp r s) s

def execWake (s : State) : Host.Outcome State Fault Refusal := .next (wakeUp s)

/-- R419: signal detect on the host link, or on an enabled fabric port. -/
def execSignalDetectWake (link : Option Nat) (s : State) : Host.Outcome State Fault Refusal :=
  match link with
  | none => .next (wakeUp s)
  | some c => if codeNames s c ∧ s.flag FAB_PORT_CFG.EN c then .next (wakeUp s) else .next s

/-- A stack leaves self-refresh and has retrained: it issues the refreshes that it owes, and then serves the accesses that wait
(R76). -/
def stackWakes (k : Nat) (s : State) : State :=
  let s := (s.wr STK_STS.SELF_REFRESH k 0).wr STK_STS.TRAINED k 1
  serveWaiting k (s.setStk k { s.stkUnit k with postponed := [] })

/-- R419, steps 4 and 5. -/
def execWakeComplete (s : State) : Host.Outcome State Fault Refusal :=
  if s.rd PCM_STATE.NODE = 4 then .next (gatesSettle ((List.range 8).foldl (fun s k => stackWakes k s) (s.wr PCM_STATE.NODE 0 0)))
  else .next s

/-! Clock levels and the steps of Table 18.4 (R412, R413, R420–R422). -/

/-- The level that the policy and the steps in force give a region. -/
def levelTarget (s : State) : Nat :=
  let st := s.rd PCM_CLK_STS.STEP
  if st = 0 ∧ s.flag PCM_POL.BOOST_EN then 10 else if st ≤ 1 then 8 else 9 - min 9 st

/-- R412: one level toward the target; arriving at level 10 is a boost grant. -/
def execClockLevelStep (region : Nat) (s : State) : Host.Outcome State Fault Refusal :=
  if 4 ≤ region ∨ regionDozes s region then .next s
  else
    let l := s.rd (PCM_CLK_STS.LEVEL region)
    let t := levelTarget s
    if l = t then .next s
    else
      let n := if l < t then l + 1 else l - 1
      let s := s.wr (PCM_CLK_STS.LEVEL region) 0 n
      .next (if n = 10 then s.bump (PCM_CNT.COUNT 5) else s)

/-- The next step of Table 18.4 is taken and counted in PCM_CNT of index `k`. Step 12 closes the gates of idle blocks. -/
def takeStep (k : Nat) (s : State) : State :=
  let st := s.rd PCM_CLK_STS.STEP
  if 13 ≤ st then s
  else
    let s := { (s.wr PCM_CLK_STS.STEP 0 (st + 1)).bump (PCM_CNT.COUNT k) with pcm.stepAt := s.now }
    if st + 1 = 12 then (List.range 64).foldl (fun s b => gateRest b s) s else s

/-- Whether the next step is due: the first at once, a later one 50 µs after the one before. -/
def stepDue (s : State) : Bool := s.rd PCM_CLK_STS.STEP == 0 || decide (s.pcm.stepAt + 50000 ≤ s.now)

/-- R420. -/
def execCapStep (s : State) : Host.Outcome State Fault Refusal :=
  if s.rd PCM_POL.CAP_W < s.rd PCM_PWR.AVG_W ∧ stepDue s then .next (takeStep 3 s) else .next s

/-- The filtered level of a sideband input as its consumers see it: a masked input reads inactive (R384). -/
def inputActive (s : State) (n : Nat) : Bool := bitOf (s.rd RAS_IN_STS.LEVEL) n && !bitOf (s.rd RAS_STUCK_STS.STUCK) n

/-- R421, R422, R435, R436: the last step is undone, unless the brake or the heat still requires it. -/
def execCapUndo (s : State) : Host.Outcome State Fault Refusal :=
  let st := s.rd PCM_CLK_STS.STEP
  match s.pcm.lowFrom with
  | none => .next s
  | some t =>
    if st = 0 ∨ s.now < t + 1000000 ∨ s.pcm.heat ∨ inputActive s 9 ∨ (inputActive s 3 ∧ st ≤ 11) then .next s
    else .next (gatesSettle { s.wr PCM_CLK_STS.STEP 0 (st - 1) with pcm.lowFrom := some s.now })

end Sys2Proof.Machine
end

