-- ==== Sys2Proof/Machine/Reset.lean ====
section
/-!
DEFINITION. Resets and start-up (R337–R340, R346, R390, R393, R407, R408, R423–R428, R440): what each kind of reset keeps
(Table 18.6), the boot chain, and the node's way to JOINING and SERVING. A reset clears and takes every step of start-up
that needs no further event, at once.
-/
namespace Sys2Proof.Machine

/-! What a reset keeps (Table 18.6). -/

def allWins : List Win :=
  [.gut, .krn, .flo, .cwd, .ream, .tier, .rch, .col, .time, .hst, .rsp, .pcm, .mgt, .ras, .fab, .cmp, .gal, .stk, .plt, .prt]

/-- The window, offset, place and instance of a key of the register store. -/
def keyWin (k : Nat) : Option Win := allWins.find? fun w => w.ix = k / 2 ^ 46
def keyOff (k : Nat) : Nat := k / 2 ^ 26 % 2 ^ 20
def keyLo (k : Nat) : Nat := k / 2 ^ 20 % 64
def keyInst (k : Nat) : Nat := k % 2 ^ 20

/-- Whether a key is of an ROS field. -/
def keyRos (w : Win) (k : Nat) : Bool := (windowFields w).any fun f => f.ty == .ros && f.key (keyInst k) == k

/-- The remap table with the count of its entries, and the sampled straps, outlive every reset. -/
def keptAlways (w : Win) (off lo : Nat) : Bool :=
  (w == .stk && (off == 0x44 || (off == 0x48 && lo == 8))) || (w == .pcm && off == 0x70)

/-- The D0 part of the RAS window: the fence cause, the log, and the inputs. -/
def rasD0 (off lo : Nat) : Bool :=
  (off == 4 && lo == 16) || decide ((0x40 ≤ off ∧ off < 0x50) ∨ (0x60 ≤ off ∧ off < 0x80) ∨ (0xE0 ≤ off ∧ off < 0xF4))

/-- Whether a register field outlives a reset of a kind: 1 cold, 2 warm, 3 node. -/
def keptReg (kind k : Nat) : Bool :=
  match keyWin k with
  | none => false
  | some w =>
    let off := keyOff k
    keptAlways w off (keyLo k) ||
    (decide (2 ≤ kind) && (w == .pcm || keyRos w k || (w == .ras && rasD0 off (keyLo k)) || (w == .rsp && off == 0xA4) ||
      (w == .mgt && off == 4 && keyLo k == 4))) ||
    (decide (3 ≤ kind) && (w == .rsp || w == .mgt))

/-- A cold or a warm reset erases the key store: the floor of an open slot moves past its generation, and every slot
that was open or closing is free or exhausted (R346). -/
def eraseSlot (k : KeySlot) : KeySlot :=
  let fl := if k.state = 1 then k.gen + 1 else k.floor
  if k.state = 1 ∨ k.state = 2 then { k with state := if fl = 65536 then 3 else 0, floor := fl, key1 := 0, key2 := 0 } else k

/-- The keys after a reset of a kind. Link keys and IDE keys go in all; a drain that runs ends at once. -/
def resetKeys (kind : Nat) (x : KeySt) : KeySt :=
  if kind = 3 then
    let done := fun (k : KeySlot) => if k.state = 2 then { k with state := if k.floor = 65536 then 3 else 0 } else k
    { x with slots := x.slots.map (fun e => (e.1, done e.2)), waiting := [], covered := [], links := [], ide := [] }
  else
    let d0 : KeySt := if kind = 2 then { x with lateSaid := false } else {}
    { d0 with slots := x.slots.map (fun e => (e.1, eraseSlot e.2)), waiting := [], covered := [], sessions := [], links := [],
              ide := [], aliasKey := none }

/-- The state after a reset of a kind has cleared what Table 18.6 names. -/
def clearFor (kind : Nat) (s : State) : State :=
  let n : State := { now := s.now, freeIx := s.freeIx, out := s.out, mem := s.mem, chk := s.chk, psn := s.psn, pending := s.pending }
  let ras : RasSt := if 2 ≤ kind then { errLog := s.ras.errLog, inputs := s.ras.inputs } else {}
  let fme : FmeSt := if kind = 3 then { active := s.fme.active } else {}
  let pcm : PcmSt := if 2 ≤ kind then { s.pcm with tierPerst := 0, quietAt := none, restAt := [], tierOnAt := [] }
    else { pwrGood := s.pcm.pwrGood, rstHeld := s.pcm.rstHeld, tapHeld := s.pcm.tapHeld, thermtrip := s.pcm.thermtrip,
           tapIr := s.pcm.tapIr, boundary := s.pcm.boundary }
  let mgt : MgtSt := if kind = 3 then s.mgt else { flash := s.mgt.flash, dbgNext := if kind = 2 then s.mgt.dbgNext else 0 }
  let rea : ReaSt := if 2 ≤ kind then { pj := s.rea.pj } else {}
  let tier : TierSt := { records := s.tier.records, used := s.tier.used }
  { n with regs := s.regs.filter (fun e => keptReg kind e.1), ras := ras, fme := fme, pcm := pcm, mgt := mgt, rea := rea, tier := tier,
           fus := s.fus, key := resetKeys kind s.key }

/-! The boot chain (R337–R340). -/

/-- A flash slot, as written or as shipped. -/
def flashSlot (s : State) (n : Nat) : Bytes := (KMap.find? s.mgt.flash n).getD (Config.flashImage n)

/-- Why an image of a flash slot is not run (RSP_BOOT_STS.REASON), or 0. -/
def imageBad (s : State) (failed : List Nat) (n : Nat) : Nat :=
  if failed.contains n then 4
  else if ¬ Config.fwVerified (flashSlot s n) then 2
  else if Config.fwSvn (flashSlot s n) < s.fus.svn then 3 else 0

/-- The slot of a firmware pair that boots, or the reason of the second slot's failure (R338). -/
def bootSlot (s : State) (failed : List Nat) (n : Nat) : Except Nat Nat :=
  if imageBad s failed n = 0 then .ok n
  else if imageBad s failed (n + 1) = 0 then .ok (n + 1)
  else .error (imageBad s failed (n + 1))

def setMeas (ix d : Nat) (s : State) : State :=
  (List.range 12).foldl (fun s k => s.wr (RSP_MEAS.DIGEST k) ix (bits d (32 * k) 32)) s

def bootFail (step reason : Nat) (s : State) : State :=
  ((s.wr RSP_BOOT_STS.FAIL 0 1).wr RSP_BOOT_STS.STEP 0 step).wr RSP_BOOT_STS.REASON 0 reason

/-- RSP_OWNER_STS shows the owner slots. -/
def showOwners (s : State) : State :=
  (List.range 4).foldl (fun s n =>
    let o := KMap.find? s.fus.owners n
    let s := (s.wr (RSP_OWNER_STS.PROG n) 0 (b2n o.isSome)).wr (RSP_OWNER_STS.ALG n) 0 ((o.map (·.1)).getD 0)
    s.wr (RSP_OWNER_STS.REVOKED n) 0 (bits s.fus.revoked n 1)) s

/-- Steps 2 and 3: the RSP firmware and the Alias key. A set zeroization latch leaves the node without one (R362). -/
def bootRsp (n : Nat) (s : State) : State :=
  let b := flashSlot s n
  let m2 := Config.sha384 b
  let s := setMeas 2 m2 (setMeas 1 Config.romDigest s)
  let s := ((s.wr RSP_ID.FW_VER 0 (Config.fwVersion b)).wr RSP_BOOT_STS.SLOT_B 0 (n % 2)).wr RSP_BOOT_STS.STEP 0 3
  let s := showOwners ((s.wr RSP_FW_SVN.RUN 0 (Config.fwSvn b)).wr RSP_FW_SVN.MIN 0 s.fus.svn)
  { s with key.aliasKey := if s.key.zeroized then none else some (Config.aliasKey m2 (Config.fwSvn b) (s.rd MGT_STS.DEBUG_LVL)) }

/-- Step 4: the management controller's firmware, and D2 runs. -/
def bootMgt (n : Nat) (s : State) : State :=
  let b := flashSlot s n
  let s := (setMeas 3 (Config.sha384 b) s).wr MGT_ID.FW_VER 0 (Config.fwVersion b)
  ((s.wr MGT_STS.SLOT_B 0 (n % 2)).wr MGT_STS.READY 0 1).wr RSP_BOOT_STS.STEP 0 4

/-- The container at the start of a flash slot. -/
def containerOf (b : Bytes) : Bytes :=
  let alg := leAt b 7 1 % 2
  b.take (bodyLen b + 8 + keyLenOf alg + sigLenOf alg)

/-- Steps 6 to 8: the first forme slot whose forme is accepted is applied; a refused one is passed over (R407). -/
def bootForme (failed : List Nat) : List Nat → State → State
  | [], s => s
  | n :: r, s =>
    if failed.contains n then bootForme failed r s
    else
      let (x, s) := verifyForme true (containerOf (flashSlot s n)) s
      match x with
      | .ok m => (startForme m s).wr RSP_BOOT_STS.STEP 0 6
      | .error e => bootForme failed r (s.wr RSP_FORME_STS.STATUS 0 e)

/-- Images that fail verification count toward AUTH_NODE (R360); one that could not be read does not. -/
def imageFails (failed : List Nat) (n : Nat) (s : State) : State :=
  let bad := fun (s : State) (m : Nat) => decide (imageBad s failed m = 2 ∨ imageBad s failed m = 3)
  let s1 := if bad s n then authFailNode s else s
  if imageBad s failed n ≠ 0 ∧ bad s (n + 1) then authFailNode s1 else s1

/-- The boot chain of Table 15.1, from step 1 (`cold`) or step 2, and the forme from its source (Table 17.11). -/
def boot (cold fuses : Bool) (failed : List Nat) (s : State) : State :=
  if cold ∧ ¬ fuses then bootFail 1 1 s
  else
  let s := imageFails failed 0 s
  match bootSlot s failed 0 with
  | .error e => bootFail 2 e s
  | .ok n =>
    let s := imageFails failed 2 (bootRsp n s)
    match bootSlot s failed 2 with
    | .error e => bootFail 4 e s
    | .ok n =>
      let s := recordSecurity (bootMgt n s)
      let src := s.rd PCM_STRAP.BOOT_SEL
      if src = 2 ∨ src = 7 then s else bootForme failed [4, 5] s

/-! Resets (R423). -/

/-- PCM_RST_STS, and the count of resets other than cold. -/
def noteReset (kind cause : Nat) (s : State) : State :=
  let s := (s.wr PCM_RST_STS.LAST_KIND 0 kind).wr PCM_RST_STS.CAUSE 0 cause
  if kind = 1 then s else s.bump (PCM_CNT.COUNT 6)

/-- A fence that follows zeroization outlives a warm and a node reset (R362). -/
def nodeProof (s : State) : State := if s.key.zeroized then s.wr RAS_NODE_STS.STATE 0 3 else s

/-- What every reset of the whole node ends: KEEP, and the dozing of regions; the reach engine takes a new incarnation, which is
not zero (R288). -/
def wholeReset (kind cause : Nat) (s : State) : State :=
  let s := noteReset kind cause (clearFor kind s)
  let s := ((s.wr PCM_STATE.NODE 0 0).wr PCM_STATE.DOZE 0 0).wr PCM_RST_STS.RBUSY 0 0
  nodeProof (s.wr RCH_INCARNATION.VALUE 0 (s.draw % (2 ^ 32 - 1) + 1)).drawn

/-- A cold reset: D0 is cleared with the rest. -/
def coldReset (cause : Nat) (fuses : Bool) (failed : List Nat) (s : State) : State :=
  let s := wholeReset 1 cause s
  if nodeHeld s then s else boot true fuses failed s

/-- A warm reset; a debug level that waits for it takes effect (R459). -/
def warmReset (cause : Nat) (failed : List Nat) (s : State) : State :=
  let s := wholeReset 2 cause s
  let s := if s.mgt.dbgNext = 0 then s else { s.wr MGT_STS.DEBUG_LVL 0 s.mgt.dbgNext with mgt.dbgNext := 0 }
  if nodeHeld s then s else boot false true failed s

/-- A node reset: step 8 with the active image (R428). -/
def nodeReset (cause : Nat) (s : State) : State :=
  let s := wholeReset 3 cause s
  let s := (((s.wr RSP_FORME_STS.STATE 0 0).wr RSP_FORME_STS.ENABLED 0 0).wr RSP_DRAIN_STS.BUSY 0 0).wr RSP_DRAIN_STS.PEND 0 0
  if s.fme.active.secs = [] then s else startForme s.fme.active s

/-- Whether a register field is of the units of a region, and neither ROS nor of the remap table. -/
def regionReg (r k : Nat) : Bool :=
  match keyWin k with
  | none => false
  | some w =>
    let i := keyInst k
    let mine := match w with
      | .cmp => i / 16 == r
      | .gal => i == r
      | .stk => i / 2 == r
      | .plt => i / 2 == r
      | _ => false
    mine && !keyRos w k && !keptAlways w (keyOff k) (keyLo k)

/-- The platen state of a region's stacks; a block whose press lost its state learns it in phase 2 (Table 4.8). -/
def clearPlt (r : Nat) (x : PltSt) : PltSt :=
  let out := fun (d : Nat) (k : Nat) => decide (k / d / 2 ≠ r)
  { sorts := x.sorts.filter fun e => out (64 * 16 * 128) e.1
    undef := x.undef.filter fun e => out (64 * 16) e.1
    spsn := x.spsn.filter fun e => out (64 * 16) e.1
    apsn := x.apsn.filter fun e => out (64 * 4) e.1
    freeAt := x.freeAt
    accs := x.accs.filter fun e => out (64 * 4 * 128) e.1
    f32 := x.f32.filter fun e => out (64 * 4) e.1
    parms := x.parms.filter fun e => out 8 e.1
    holds := x.holds.filterMap fun e =>
      if out 8 e.1 then some e else if e.2.lost = none then none else some (e.1, { lost := e.2.lost, uncounted := e.2.uncounted })
    queues := x.queues.filter fun e => out 1 e.1
    runs := x.runs.filter fun e => out 64 e.1
    inject := x.inject.filter fun e => out 64 e.1 }

/-- Step 3 of R426: the units of a region are cleared, and loaded from the active image. -/
def regionUnits (r : Nat) (s : State) : State :=
  let m := s.fme.active
  let mine := fun (h : Nat) => (decide (h < 1024) && h / 16 / 16 == r) || (decide (1024 ≤ h ∧ h < 1536) && (h - 1024) / 64 / 2 == r) ||
    (decide (1536 ≤ h ∧ h < 1600) && (h - 1536) / 16 == r)
  let s := { s with regs := s.regs.filter (fun e => !regionReg r e.1)
                    ras.handlers := s.ras.handlers.filter (fun e => !mine e.1)
                    cmp.blocks := s.cmp.blocks.filter (fun e => decide (e.1 / 16 ≠ r))
                    cmp.prog := s.cmp.prog.filter (fun e => decide (e.1 / 16 ≠ r))
                    stk.units := s.stk.units.filter (fun e => decide (e.1 / 2 ≠ r))
                    stk.claims := s.stk.claims.filter (fun e => decide (e.1 / 64 / 2 ≠ r))
                    stk.claimWaits := s.stk.claimWaits.filter (fun w => decide (offStack w.2.1 / 2 ≠ r))
                    gal.lines := s.gal.lines.map (fun e => if e.1 / (16384 * 16) = r then (e.1, { e.2 with valid := false }) else e)
                    gal.fills := s.gal.fills.filter (fun q => decide (galRegion q.1.off ≠ r))
                    plt := clearPlt r s.plt }
  if m.secs = [] then s
  else
    let cfg := nodeImgs.filter fun i => decide (i.win = .cmp)
    let s := (List.range 16).foldl (fun s g => cfg.foldl (fun s i => i.write (m.sec 1 0) (16 * r + g) s) s) s
    loadProg m r (applyOwners m r s)

/-- The lists of a stack that is fenced end: those that run at their next command, and those queued before any (R65, R76). -/
def endLists (k : Nat) (s : State) : State :=
  let s := (s.plt.runs.filter fun e => decide (e.1 / 64 = k)).foldl (fun s e =>
    let r := if e.2.ended then e.2 else { e.2 with ended := true, status := ST.STK_FENCED, cmdIndex := e.2.pos }
    match retireList k (e.1 % 64) (s.setRun e.1 r) with
    | (some d, s) => pltDeliver d s
    | (none, s) => s) s
  (pltList s k).foldl (fun s l => pltDeliver { issuer := l.issuer, tag := l.tag, status := ST.STK_FENCED, cmdIndex := 255 } s)
    { s with plt.queues := KMap.erase s.plt.queues k }

/-- Steps 1 to 3 of R426: the region's lists retire before its stacks enter self-refresh (R76). One that is running merges with another of the same region (R427). -/
def regionReset (r cause : Nat) (s : State) : State :=
  if bitOf (s.rd PCM_RST_STS.RBUSY) r then s
  else
    let s := endLists (2 * r + 1) (endLists (2 * r) (fenceRegion r (noteReset 4 cause (wakeUp s))))
    let s := regionUnits r (s.raise PCM_RST_STS.RBUSY 0 (2 ^ r))
    let s := s.wr PCM_STATE.DOZE 0 (clrBit (s.rd PCM_STATE.DOZE) r)
    [2 * r, 2 * r + 1].foldl (fun s k => s.wr STK_STS.SELF_REFRESH k 1) s

/-- A write of PCM_RST_CMD takes effect only with CONFIRM 0xA5 and the kind of its row. -/
def rstCmd (kind value : Nat) : Bool := decide (bits value 28 4 = kind ∧ bits value 20 8 = 0xA5)

def execColdReset (value : Nat) (failed : List Nat) (s : State) : Host.Outcome State Fault Refusal :=
  if rstCmd 1 value then .next (coldReset 1 true failed s) else .next s

def execWarmReset (value : Nat) (failed : List Nat) (s : State) : Host.Outcome State Fault Refusal :=
  if rstCmd 2 value then .next (warmReset 1 failed s) else .next s

def execNodeReset (value : Nat) (s : State) : Host.Outcome State Fault Refusal :=
  if rstCmd 3 value then .next (nodeReset 1 s) else .next s

def execRegionReset (value : Nat) (s : State) : Host.Outcome State Fault Refusal :=
  if rstCmd 4 value then .next (regionReset (bits value 0 2) 1 s) else .next s

/-- R426, steps 4 and 5: the stacks have retrained, and the region fence is lifted. -/
def execRegionResetComplete (region : Nat) (s : State) : Host.Outcome State Fault Refusal :=
  if region < 4 ∧ bitOf (s.rd PCM_RST_STS.RBUSY) region then
    let s := s.wr RAS_RFENCE_STS.FENCED 0 (clrBit (s.rd RAS_RFENCE_STS.FENCED) region)
    let s := [2 * region, 2 * region + 1].foldl (fun s k => stackWakes k s) s
    .next (s.wr PCM_RST_STS.RBUSY 0 (clrBit (s.rd PCM_RST_STS.RBUSY) region))
  else .next s

/-! Power good, RESET_N and VDD_AON. -/

/-- R431, R440: the straps are sampled, and a cold reset and start-up run. -/
def execPowerGoodRise (straps : Nat) (fuses : Bool) (failed : List Nat) (s : State) : Host.Outcome State Fault Refusal :=
  if s.pcm.pwrGood then .next s
  else
    let s := { s with pcm.pwrGood := true, pcm.thermtrip := false }
    let s := (s.wr PCM_STRAP.BOOT_SEL 0 straps).wr PCM_STRAP.REFCLK_SEL 0 (straps / 8)
    .next (coldReset 0 fuses failed (s.wr PCM_STRAP.MGT_ADDR 0 (straps / 16)))

/-- R440, R438: the node is held in cold reset, and the stacks are in self-refresh. -/
def execPowerGoodFall (s : State) : Host.Outcome State Fault Refusal :=
  if ¬ s.pcm.pwrGood then .next s
  else
    let s := wholeReset 1 0 { s with pcm.pwrGood := false, pcm.thermtrip := false }
    .next ((List.range 8).foldl (fun s k => s.wr STK_STS.SELF_REFRESH k 1) s)

/-- R423, R385: the node is in warm reset while the input is held; it starts when INPUT_LEVEL releases it. -/
def execResetN (s : State) : Host.Outcome State Fault Refusal :=
  if bitOf (s.rd RAS_IN_STS.LEVEL) 0 ∧ ¬ s.pcm.rstHeld then .next (warmReset 3 [] { s with pcm.rstHeld := true }) else .next s

/-- R346: every data-key slot is free with generation and floor 1, and what the other rails kept is gone with them (R443):
the fuses, the flash and the pools outside the node stay. A rail out of tolerance while PWR_GOOD is high leaves the node
unspecified (R443). -/
def execVddAonRise (s : State) : Host.Outcome State Fault Refusal :=
  if s.pcm.pwrGood then .fault .unspecifiedPower
  else
    let n : State := { now := s.now, freeIx := s.freeIx, out := s.out, pending := s.pending, fus := s.fus }
    .next { n with mem := s.mem.filter (fun c => decide (2 ^ 46 ≤ c.1)), chk := s.chk.filter (fun e => decide (2 ^ 46 ≤ 32 * e.1)),
                   psn := s.psn.filter (fun e => decide (2 ^ 46 ≤ 32 * e.1)), mgt.flash := s.mgt.flash,
                   tier.records := s.tier.records, tier.used := s.tier.used }

/-! Node states (R390, R393). -/

/-- Whether every enabled port is up or held down. -/
def portsSettled (s : State) : Bool :=
  (List.range 24).all fun c => !codeNames s c || !s.flag FAB_PORT_CFG.EN c || s.rd FAB_PORT_STS.STATE c == 4 || s.rd FAB_PORT_STS.STATE c == 5

/-- R390: proof passes, its stack training among it, and the enabled ports are settled. -/
def execProofPass (s : State) : Host.Outcome State Fault Refusal :=
  if s.rd RAS_NODE_STS.STATE = 0 ∧ s.fme.applied ∧ ¬ nodeHeld s ∧ portsSettled s then
    let s := (List.range 8).foldl (fun s k => s.wr STK_STS.TRAINED k 1) s
    .next (joinReason (s.wr RAS_NODE_STS.STATE 0 1))
  else .next s

/-- R393: a joining node with REASON 0 serves. -/
def execAdmit (s : State) : Host.Outcome State Fault Refusal :=
  if s.rd RAS_NODE_STS.STATE = 1 ∧ s.rd RAS_JOIN_STS.REASON = 0 then .next (s.wr RAS_NODE_STS.STATE 0 2)
  else .next (s.wr RAS_ADMIT.ERR 0 1)

end Sys2Proof.Machine
end

