-- ==== Sys2Proof/Machine/Ras.lean ====
section
/-!
DEFINITION. Error handling, the log and notification (R367–R372, R457).
-/
namespace Sys2Proof.Machine

/-! The log (R371, R372, R457). -/

/-- The oldest queued event goes to the receiver, when one is set (R457). -/
def sendEvent (s : State) : State :=
  match s.mgt.events with
  | [] => s
  | r :: _ => if s.mgt.receiver = 0 then s else s.emit (.eventMsg r)

/-- The management controller queues a record, or drops a 65th; the oldest unacknowledged event is the one sent (R457). -/
def eventForward (r : ErrRec) (s : State) : State :=
  if ¬ s.flag MGT_STS.READY then s
  else if 64 ≤ s.mgt.events.length then s.bump (MGT_CNT.COUNT 2)
  else
    let first := s.mgt.events.isEmpty
    let s := { s with mgt.events := s.mgt.events ++ [r] }
    if first then sendEvent s else s

/-- A record is appended to the log, or lost when 512 are unread; at IRQ_SEV it is signaled and passed on (R371, R372). -/
def logAppend (r : ErrRec) (s : State) : State :=
  let s := s.bump (RAS_CNT.COUNT r.sev)
  let prod := s.rd RAS_LOG_PROD.INDEX
  if (prod + 2 ^ 32 - s.rd RAS_LOG_CONS.INDEX) % 2 ^ 32 = 512 then (s.wr RAS_LOG_STS.OVF 0 1).bump RAS_LOG_STS.LOST
  else
    let s := { s.addWrap RAS_LOG_PROD.INDEX 0 1 with ras.errLog := KMap.insert s.ras.errLog (prod % 512) r }
    if s.rd RAS_CFG.IRQ_SEV ≤ r.sev then eventForward r (signalNode s) else s

/-! Containment (R370, R377, R378). -/

/-- ACTION of a record that the reporting unit has dealt with: what it says, else 1 of a corrected one of a block or the
galley, 2 of a contained one whose work has ended with a status. -/
def ownAction (r : ErrRec) : Nat :=
  if r.action ≠ 0 then r.action
  else if r.sev = 1 ∧ (r.subsys = 1 ∨ r.subsys = 4) then 1
  else if r.sev = 2 ∧ r.status ≠ 0 then 2 else 0

/-- The block and the region of a record, from its UNIT (Table 16.2): a record that a cell detected names the cell. -/
def recBlock (r : ErrRec) : Nat := (if r.level = 0 then r.unit / 16 else r.unit) % 64
def recRegion (r : ErrRec) : Nat :=
  (if r.subsys = 3 then r.unit / 2 else if r.subsys = 2 then r.unit / 128 else if r.subsys = 1 ∨ r.subsys = 5 then recBlock r / 16 else r.unit) % 4

/-- What a handler does with the entry it retires: ACTION, and the state after. -/
def contain (h : Handler) (wide : Bool) (r : ErrRec) (s : State) : Nat × State :=
  if r.sev = 3 then (6, fenceNode 1 s)
  else match h with
  | .cell _ _ => (ownAction r, s)
  | .platen _ _ => (ownAction r, s)
  | .block g => if r.sev = 2 ∧ (r.escalated ∨ r.level = 0) then (2, blockFail g (failServe g r.status s)) else (ownAction r, s)
  | .region _ =>
    if ¬ r.escalated then (ownAction r, s)
    else if r.subsys = 2 then (3, s.wr PLT_CFG.EN (r.unit / 64) 0)
    else if blkFenced s (recBlock r) then (3, s)
    else (3, (fenceBlock (recBlock r) s).bump (CMP_CNT.COUNT 6) (recBlock r))
  | .chip =>
    if r.escalated then (4, fenceRegion (recRegion r) s)
    else match r.part with
    | some p => if wide ∧ r.sev = 2 then (5, fencePart p s) else (ownAction r, s)
    | none => (ownAction r, s)

/-- Whether a handler passes an entry up instead of logging it: a contained record of a cell goes to its block, and every
record of a platen unit to its region (R369). -/
def passesUp (h : Handler) (r : ErrRec) : Bool :=
  match h with
  | .cell _ _ => r.sev == 2
  | .platen _ _ => true
  | _ => false

/-- The next entry of a handler: a fatal one first, then the oldest (R367). -/
def nextEntry (q : List ErrRec) : Option (ErrRec × List ErrRec) :=
  match q.find? (fun r => r.sev = 3) with
  | some r => some (r, q.erase r)
  | none => match q with
    | [] => none
    | r :: q => some (r, q)

/-- R367: the entry is contained and appended to the log, and the handler takes the next. -/
def execErrorRetire (h : Handler) (wide : Bool) (s : State) : Host.Outcome State Fault Refusal :=
  match (s.hand h).cur with
  | none => .next s
  | some r =>
    let s := if passesUp h r then enter 5 (handlerUp h) r s
      else
        let (act, s) := contain h wide r s
        logAppend { r with level := handlerLevel h, action := act } s
    let x := s.hand h
    match nextEntry x.queue with
    | none => .next (s.setHand h {})
    | some (n, q) => .next (s.setHand h { queue := q, cur := some n, since := s.now })

/-- R367–R369: a unit detects an error and reports it. -/
def execErrorReport (h : Handler) (r : ErrRec) (s : State) : Host.Outcome State Fault Refusal := .next (report h r s)

/-- The bound of Table 16.3 in ns; the repeat of a cell ends when its command says so. -/
def handleBound (h : Handler) (r : ErrRec) : Nat :=
  match h with
  | .cell _ _ => 0
  | .platen _ _ => 0
  | .block _ => 2000
  | .region _ => 10000
  | .chip => if r.sev = 3 then 200000 else 50000

/-- R367: a handler past its bound raises a fatal record; a chip handler past the fatal bound fences the node at once. -/
def execHandlerTimeout (h : Handler) (s : State) : Host.Outcome State Fault Refusal :=
  let x := s.hand h
  match x.cur with
  | none => .next s
  | some r =>
    if x.late ∨ s.now ≤ x.since + handleBound h r then .next s
    else
      let s := s.setHand h { x with late := true }
      if h = .chip ∧ r.sev = 3 then .next (fenceNow 5 s)
      else .next (report .chip { sev := 3, subsys := 20, cause := Config.causeCode 110 } s)

end Sys2Proof.Machine
end

