-- ==== Sys2Proof/Machine/Pins.lean ====
section
/-!
DEFINITION. The sideband inputs and outputs, the host link's configuration, and the sensors (R382–R385, R419, R422,
R433–R439, R455, R456, R460, R75).
-/
namespace Sys2Proof.Machine

/-! The input filters (R382–R384). -/

/-- The inputs that have a ball and a function (Table 19.4). -/
def realInputs : List Nat := [0, 1, 2, 3, 4, 9]
def eventInputs : List Nat := [2, 4]

def State.inp (s : State) (n : Nat) : InputSt := KMap.get {} s.ras.inputs n
def State.setInp (s : State) (n : Nat) (x : InputSt) : State := { s with ras.inputs := KMap.put {} s.ras.inputs n x }

/-- R382: the filtered level changes. A release of RESET_N lets the warm reset complete (R385). -/
def execInputLevel (input : Nat) (active : Bool) (s : State) : Host.Outcome State Fault Refusal :=
  let l := s.rd RAS_IN_STS.LEVEL
  if ¬ realInputs.contains input ∨ bitOf l input = active then .next s
  else if active then
    .next ((s.wr RAS_IN_STS.LEVEL 0 (setBit l input)).setInp input { s.inp input with actAt := s.now, taken := false })
  else
    let s := s.wr RAS_IN_STS.LEVEL 0 (clrBit l input)
    if input = 0 ∧ s.pcm.rstHeld then
      let s := { s with pcm.rstHeld := false }
      .next (if nodeHeld s then s else boot false true [] s)
    else .next s

/-- R383: an assertion yields an event, accepted 10 µs or more after the last accepted one, else dropped and counted. -/
def execInputEvent (input : Nat) (s : State) : Host.Outcome State Fault Refusal :=
  let x := s.inp input
  if ¬ eventInputs.contains input ∨ ¬ inputActive s input ∨ x.taken then .next s
  else
    let early := match x.event with
      | some t => decide (s.now < t + 10000)
      | none => false
    if early then .next ((s.setInp input { x with taken := true }).bump RAS_IN_DROP_CNT.COUNT)
    else .next (s.setInp input { x with taken := true, event := some s.now, fresh := true })

/-- R384: an input active past HOLD_MS is masked and reported; RESET_N never is (R385). -/
def execInputStuck (input : Nat) (s : State) : Host.Outcome State Fault Refusal :=
  if input ≠ 0 ∧ realInputs.contains input ∧ inputActive s input ∧
      (s.inp input).actAt + (s.rd RAS_IN_CFG.HOLD_MS input + 1) * 1000000 ≤ s.now then
    .next (report .chip { sev := 0, subsys := 20, cause := Config.causeCode 111 } (s.raise RAS_STUCK_STS.STUCK 0 (2 ^ input)))
  else .next s

/-- R384: a write of RAS_STUCK_STS unmasks the inputs it names whose level is inactive. -/
def unmaskInputs (value : Nat) (s : State) : State :=
  (bitList value 16).foldl (fun s n =>
    if bitOf (s.rd RAS_IN_STS.LEVEL) n then s else s.wr RAS_STUCK_STS.STUCK 0 (clrBit (s.rd RAS_STUCK_STS.STUCK) n)) s

def execInputUnmask (value : Nat) (s : State) : Host.Outcome State Fault Refusal := .next (unmaskInputs value s)

/-! What the inputs do (R433–R436, R460). -/

/-- R434: assertion is a loss of the host link; released, the link trains. -/
def execPerstN (s : State) : Host.Outcome State Fault Refusal :=
  if inputActive s 1 = s.hst.perst then .next s
  else if s.hst.perst then .next { s with hst.perst := false }
  else .next (hostLinkDown { s with hst.perst := true })

/-- R419: an event on WAKE_N ends KEEP, and is ignored in every other state. -/
def execWakeN (s : State) : Host.Outcome State Fault Refusal :=
  if (s.inp 2).fresh then .next (wakeUp (s.setInp 2 { s.inp 2 with fresh := false })) else .next s

/-- R435: steps 1 to 11 are in force while PWR_BRAKE_N is active; an assertion is counted once. -/
def execPwrBrakeN (s : State) : Host.Outcome State Fault Refusal :=
  if ¬ inputActive s 3 then .next { s with pcm.brake := false }
  else if s.pcm.brake then .next s
  else
    let s := (s.wr PCM_CLK_STS.STEP 0 (max 11 (s.rd PCM_CLK_STS.STEP))).bump (PCM_CNT.COUNT 3)
    .next { s with pcm.brake := true, pcm.stepAt := s.now }

/-- R436: a step as for a die above 105 °C. -/
def execVrHotN (s : State) : Host.Outcome State Fault Refusal :=
  if inputActive s 9 ∧ stepDue s then .next (takeStep 4 s) else .next s

/-- R460: at debug level 2 every block halts; at levels 0 and 1 the event is counted. -/
def execDebugReqN (s : State) : Host.Outcome State Fault Refusal :=
  if ¬ (s.inp 4).fresh then .next s
  else
    let s := s.setInp 4 { s.inp 4 with fresh := false }
    if s.rd MGT_STS.DEBUG_LVL = 2 then
      .next ((List.range 64).foldl (fun s b => if blkFenced s b then s else s.wr CMP_SEQ_STS.STATE b 5) s)
    else .next (s.bump (MGT_CNT.COUNT 3))

/-- R439. -/
def execTierPerstRise (port : Nat) (s : State) : Host.Outcome State Fault Refusal :=
  if port < 4 ∧ s.flag (TIER_PORT_CFG.EN port) ∧ ¬ nodeHeld s ∧ lasted s (KMap.find? s.pcm.tierOnAt port) 100000 then .next { s with pcm.tierPerst := setBit s.pcm.tierPerst port }
  else .next s

/-! The outputs (Table 19.5). -/

def outFault (s : State) : Bool := s.rd RAS_NODE_STS.STATE == 3 || s.pcm.thermtrip
def outReady (s : State) : Bool := s.rd RAS_NODE_STS.STATE == 2
def outAlert (s : State) : Bool := !s.mgt.events.isEmpty

/-! The host link (R311, R330, R434). -/

/-- The modes of Table 14.1: rate, the CXL version on top (0 for none), and FLIT mode. -/
def linkMode (speed cxl : Nat) (flit : Bool) : Bool :=
  match speed with
  | 64 => flit && (cxl == 0 || cxl == 3)
  | 32 => !flit && decide (cxl ≤ 2)
  | 16 => !flit && decide (cxl ≤ 1)
  | _ => false

/-- R311, R434: the link has trained in a mode of Table 14.1. -/
def execHostLinkUp (speed width cxl : Nat) (flit : Bool) (s : State) : Host.Outcome State Fault Refusal :=
  if s.hst.perst ∨ nodeHeld s ∨ s.flag HST_LINK_STS.UP ∨ ¬ [4, 8, 16].contains width ∨ ¬ linkMode speed cxl flit then .next s
  else
    let s := ((s.wr HST_LINK_STS.SPEED 0 speed).wr HST_LINK_STS.WIDTH 0 width).wr HST_LINK_STS.CXL 0 cxl
    .next ((s.wr HST_LINK_STS.FLIT 0 (b2n flit)).wr HST_LINK_STS.UP 0 1)

/-- A dword of a function's configuration space; dword 2 holds the physical function's class code (R311). -/
def cfgRead (func dword : Nat) (s : State) : Nat :=
  let v := Config.cfgRead func dword (KMap.find? s.hst.cfg (4096 * func + dword)) % 2 ^ 32
  if func = 0 ∧ dword = 2 then bits v 0 8 + 256 * (if s.rd HST_LINK_STS.CXL = 0 then 0x120000 else 0x050210) else v

/-- R434: before step 8 every request is retried. -/
def execConfigurationRequest (func : Nat) (req : CfgReq) (s : State) : Host.Outcome State Fault Refusal :=
  if ¬ s.flag HST_LINK_STS.UP ∨ hostStopped s ∨ 32 ≤ func then .next s
  else if ¬ s.fme.applied then .next (s.emit (.cfg func true 0))
  else match req with
  | .read d => .next (s.emit (.cfg func false (cfgRead func (d % 1024) s)))
  | .write d v => .next ({ s with hst.cfg := KMap.insert s.hst.cfg (4096 * func + d % 1024) (v % 2 ^ 32) }.emit (.cfg func false 0))
  | .numVfs n =>
    if func = 0 ∧ ¬ s.hst.vfEnable ∧ n ≤ 31 then .next ({ s with hst.numVfs := n }.emit (.cfg func false 0))
    else .next (s.emit (.cfg func false 0))
  | .vfEnable on =>
    -- DEDUCED from R331: clearing VF Enable resets every partition 1 to 31.
    let t := if func ≠ 0 then s else if s.hst.vfEnable ∧ ¬ on then resetVfs false s else { s with hst.vfEnable := on }
    .next (t.emit (.cfg func false 0))

/-! Sensors (R455, R456, R75, R422, R438). -/

/-- The action of Table 3.5 at a temperature: a threshold is left 2 °C below its value. -/
def dramLevel (was t : Nat) : Nat :=
  if 105 < t ∨ (3 ≤ was ∧ 103 < t) then 3
  else if 95 < t ∨ (2 ≤ was ∧ 93 < t) then 2
  else if 85 < t ∨ (1 ≤ was ∧ 83 < t) then 1 else 0

/-- R75: a stack's temperature, its refresh and throttling; the second part says whether the TEMP alarm is due.
DESIGN CHOICE: the action in force is not what a reset clears, so a stack that is still hot after one that has cleared REF_2X and
THROTTLED sets them again with no further count in STK_CNT7. -/
def dramTemp (k t base : Nat) (s : State) : Bool × State :=
  let was := KMap.get 0 s.pcm.stkTemp k
  let l := dramLevel was t
  let s := (s.wr STK_TEMP.TEMP_MAX k t).wr STK_TEMP.TEMP_BASE k base
  let s := (s.wr STK_STS.REF_2X k (b2n (decide (1 ≤ l)))).wr STK_STS.THROTTLED k (b2n (decide (2 ≤ l)))
  let s := if was < 2 ∧ 2 ≤ l then s.bump (STK_CNT.COUNT 7) k else s
  (decide (was < 3 ∧ l = 3), { s with pcm.stkTemp := KMap.put 0 s.pcm.stkTemp k l })

def drams (dram base : List Nat) (s : State) : Bool × State :=
  (List.range 8).foldl (fun a k =>
    let (hot, s) := dramTemp k (dram.getD k 0) (base.getD k 0) a.2
    (a.1 || hot, s)) (false, s)

/-- R456: a rail's energy, in 1/100,000 µJ, is added to its count and the module's. -/
def railEnergy (r e : Nat) (s : State) : State :=
  let x := KMap.get 0 s.pcm.rest r + e
  let s := { s with pcm.rest := KMap.put 0 s.pcm.rest r (x % 100000) }
  (s.addWrap (MGT_ENERGY.UJ r) 0 (x / 100000)).addWrap MGT_ENERGY_TOT.UJ 0 (x / 100000)

/-- The values of Table 20.6 by sensor ID: mV, mA, µW, °C and W. -/
def sensorValues (mv ma die dram : List Nat) (s : State) : List (Nat × Nat) :=
  (List.range 10).flatMap (fun r => [(0x100 + r, mv.getD r 0), (0x200 + r, ma.getD r 0), (0x300 + r, mv.getD r 0 * ma.getD r 0)]) ++
  (List.range 32).map (fun i => (0x400 + i, die.getD i 0)) ++ (List.range 8).map (fun k => (0x500 + k, dram.getD k 0)) ++
  [(0x600, s.rd PCM_PWR.AVG_W), (0x601, bits (s.rd RSP_ALARM_STS.SRC) 3 1)]

/-- A sensor takes a value; a threshold it crosses is reported to the receiver. -/
def sensorTake (x : Nat × Nat) (s : State) : State :=
  let o := KMap.get 0 s.mgt.sens x.1
  let s := { s with mgt.sens := KMap.put 0 s.mgt.sens x.1 x.2 }
  let crosses := fun (t : Nat) => decide (t < o) != decide (t < x.2)
  if s.flag MGT_STS.READY ∧ s.mgt.receiver ≠ 0 then
    [Config.sensorWarn x.1, Config.sensorCrit x.1].foldl (fun s t => if crosses t then s.emit (.sensorEvent x.1 x.2) else s) s
  else s

/-- R420, R421: the module's power, its average over the last 100 samples, and the time spent below 0.95 × CAP_W. -/
def powerTake (uw : Nat) (s : State) : State :=
  let l := (uw :: s.pcm.samples).take 100
  let sum := l.foldl (· + ·) 0
  let s := (s.wr PCM_PWR.INST_W 0 (uw / 1000000)).wr PCM_PWR.AVG_W 0 (sum / (1000000 * l.length))
  let low := decide (100 * sum ≤ 95 * 1000000 * s.rd PCM_POL.CAP_W * l.length)
  let s := if s.rd PCM_CLK_STS.STEP = 0 then s else s.addWrap PCM_THROTTLE_US.US 0 10
  { s with pcm.samples := l, pcm.lowFrom := if low then some (s.pcm.lowFrom.getD s.now) else none }

/-- R422: the hottest die sensor. Above 105 °C a step of Table 18.4 is taken when due. -/
def dieTake (t : Nat) (s : State) : State :=
  let s := s.wr PCM_DIE_TEMP.TEMP 0 (min 255 t)
  if 105 < t then
    let s := { s with pcm.heat := true }
    if stepDue s then takeStep 4 s else s
  else if t ≤ 100 then { s with pcm.heat := false } else s

/-- The samples of D0, and what follows from them. Two samples in a row at 125 °C or more trip the node (R438). -/
def sampleTake (mv ma die dram base : List Nat) (s : State) : State :=
  let uw := fun r => mv.getD r 0 * ma.getD r 0
  let hottest := die.foldl max 0
  let was := s.rd PCM_DIE_TEMP.TEMP
  let s := dieTake hottest (powerTake ((List.range 10).foldl (fun a r => a + uw r) 0) s)
  let (hotDram, s) := drams dram base s
  let s := if s.flag MGT_STS.READY ∧ s.rd PCM_STATE.NODE ≠ 3 then (List.range 10).foldl (fun s r => railEnergy r (uw r) s) s else s
  let s := (sensorValues mv ma die dram s).foldl (fun s x => sensorTake x s) s
  let s := if hotDram ∨ (was ≤ 115 ∧ 115 < hottest) then alarm [2] none s else s
  let s := { s with pcm.hot := if 125 ≤ hottest then s.pcm.hot + 1 else 0 }
  if 2 ≤ s.pcm.hot then wholeReset 1 0 { s with pcm.thermtrip := true } else s

/-- R455: D0 samples every 10 µs. -/
def execSensorSample (mv ma die dram base : List Nat) (s : State) : Host.Outcome State Fault Refusal :=
  .next (s.atPeriod .sample 10000 (sampleTake mv ma die dram base))

end Sys2Proof.Machine
end

