-- ==== Sys2Proof/Machine/Spdm.lean ====
section
/-!
DEFINITION. The root security processor as an SPDM responder (R341, R342), and IDE key management (R359).
-/
namespace Sys2Proof.Machine

/-! Who can be reached, and by what. -/

/-- The management controller runs; while it does not, the D0 responder answers in its place (R450). -/
def mgtRuns (s : State) : Bool := s.flag MGT_STS.READY && !nodeHeld s && decide (s.rd PCM_STATE.NODE ≠ 3)

def spdmReach (bus : SpdmBus) (s : State) : Bool :=
  rspRuns s && match bus with
    | .doe => s.flag HST_LINK_STS.UP && !hostStopped s
    | .mctp => mgtRuns s

/-- A session's last message is now (R342). -/
def touch (n : Nat) (s : State) : State :=
  match KMap.find? s.key.sessions n with
  | none => s
  | some x => { s with key.sessions := KMap.insert s.key.sessions n { x with last := s.now } }

def sessionOpen (s : State) (n : Nat) : Bool :=
  match KMap.find? s.key.sessions n with
  | none => false
  | some x => x.done

/-- A zeroized node answers with the error Unspecified alone (R362). -/
def spdmAnswer (n : Nat) (act : State → SpdmAns × State) (s : State) : State :=
  if s.key.zeroized then s.emit (.spdmAns n (.error .unspecified))
  else
    let (a, s) := act s
    s.emit (.spdmAns n a)

/-- A request is answered outside a session, or in an established one. -/
def spdmStep (bus : SpdmBus) (session : Option Nat) (act : State → SpdmAns × State) (s : State) : State :=
  if ¬ spdmReach bus s then s
  else match session with
    | none => spdmAnswer 0 act s
    | some n =>
      if sessionOpen s n then spdmAnswer n act (touch n s)
      else spdmAnswer n (fun s => (.error .unexpectedRequest, s)) s

/-! What the answers hold (Table 15.2). -/

def spdmCaps : List SpdmCap := [.cert, .chal, .measSig, .keyEx, .mutAuth, .encrypt, .mac, .hbeat, .keyUpd]
def spdmAlgs : List SpdmAlg := [.ecdsaP384, .sha384, .secp384r1, .aes256Gcm, .measSha384]

/-- The measurement of an index: the digest that RSP_MEAS shows. -/
def measOf (s : State) (ix : Nat) : Nat :=
  (List.range 12).foldl (fun a k => a + s.rd (RSP_MEAS.DIGEST k) ix * 2 ^ (32 * k)) 0

/-- The chain of slot 0 (R340). -/
def certChain (s : State) : Bytes :=
  Config.certChain (s.key.aliasKey.getD 0) (measOf s 1) (measOf s 2) (s.rd RSP_FW_SVN.RUN)

def chainDigest (s : State) : Nat := Config.sha384 (certChain s)

/-- A signature by the Alias key over a nonce of each side and digests. -/
def aliasSign (s : State) (peer own : Nat) (ds : List Nat) : Bytes :=
  Config.sign (s.key.aliasKey.getD 0) (natLe 32 peer ++ natLe 32 own ++ ds.flatMap (natLe 48))

/-! The requests (R341). -/

def execGetVersion (bus : SpdmBus) (s : State) : Host.Outcome State Fault Refusal :=
  .next (spdmStep bus none (fun s => (.version [0x13, 0x12], s)) s)

def execGetCapabilities (bus : SpdmBus) (s : State) : Host.Outcome State Fault Refusal :=
  .next (spdmStep bus none (fun s => (.capabilities spdmCaps, s)) s)

def execNegotiateAlgorithms (bus : SpdmBus) (offered : List SpdmAlg) (s : State) : Host.Outcome State Fault Refusal :=
  .next (spdmStep bus none (fun s => (.algorithms (spdmAlgs.filter offered.contains), s)) s)

def execGetDigests (bus : SpdmBus) (session : Option Nat) (s : State) : Host.Outcome State Fault Refusal :=
  .next (spdmStep bus session (fun s => (.digests (chainDigest s), s)) s)

def execGetCertificate (bus : SpdmBus) (session : Option Nat) (slot off len : Nat) (s : State) : Host.Outcome State Fault Refusal :=
  .next (spdmStep bus session (fun s =>
    if slot ≠ 0 then (.error .unsupportedRequest, s)
    else
      let b := (certChain s).drop off
      (.certificate (b.take len) (b.length - len), s)) s)

def execChallenge (bus : SpdmBus) (slot nonce : Nat) (s : State) : Host.Outcome State Fault Refusal :=
  .next (spdmStep bus none (fun s =>
    if slot ≠ 0 then (.error .unsupportedRequest, s)
    else (.challengeAuth (chainDigest s) s.draw (aliasSign s nonce s.draw [chainDigest s]), s.drawn)) s)

def execGetMeasurements (bus : SpdmBus) (session : Option Nat) (index : Nat) (signed : Bool) (nonce : Nat) (s : State) :
    Host.Outcome State Fault Refusal :=
  .next (spdmStep bus session (fun s =>
    let ixs := if index = 255 then [1, 2, 3, 4, 5] else if index = 0 then [] else [index]
    if ¬ ixs.all (fun i => decide (i ≤ 5)) then (.error .unsupportedRequest, s)
    else
      let l := ixs.map fun i => (i, measOf s i)
      (.measurements 5 l s.draw (if signed then some (aliasSign s nonce s.draw (l.map (·.2))) else none), s.drawn)) s)

/-! Sessions (R342). -/

/-- The lowest of the eight session numbers that is free. -/
def freeSession (s : State) : Option Nat := [1, 2, 3, 4, 5, 6, 7, 8].find? fun n => (KMap.find? s.key.sessions n).isNone

/-- R342: a session opens, and a ninth is refused. -/
def execKeyExchange (bus : SpdmBus) (slot share : Nat) (s : State) : Host.Outcome State Fault Refusal :=
  if ¬ spdmReach bus s then .next s
  else if s.key.zeroized ∨ slot ≠ 0 then
    .next (spdmAnswer 0 (fun s => (.error .unsupportedRequest, s)) s)
  else match freeSession s with
  | none => .next (s.emit (.spdmAns 0 (.error .sessionLimitExceeded)))
  | some n =>
    let own := s.draw
    let x : Session := { last := s.now, secret := Config.derive own share }
    let sig := aliasSign s share own [chainDigest s]
    .next (({ s with key.sessions := KMap.insert s.key.sessions n x }.drawn).emit (.spdmAns n (.keyExchange own sig)))

def dropSession (n : Nat) (s : State) : State := { s with key.sessions := KMap.erase s.key.sessions n }

/-- A failure of a requester's authentication counts against the partition whose key broker it claims to be, or else
against the node (R360). -/
def sessionFail (part : Option Nat) (s : State) : State :=
  match part with
  | some p => authFailPart (p % 32) s
  | none => authFailNode s

/-- The handshake ends: the session is established, or it is dropped. -/
def execFinish (bus : SpdmBus) (session : Nat) (ok : Bool) (auth : Option (Nat × Bool)) (part : Option Nat) (s : State) :
    Host.Outcome State Fault Refusal :=
  if ¬ spdmReach bus s then .next s
  else match KMap.find? s.key.sessions session with
  | none => .next (spdmAnswer session (fun s => (.error .unexpectedRequest, s)) s)
  | some x =>
    .next (spdmAnswer session (fun s =>
      if x.done then (.error .unexpectedRequest, touch session s)
      else if ¬ ok then (.error .decryptError, dropSession session s)
      else match auth with
      | some (_, false) => (.error .decryptError, sessionFail part (dropSession session s))
      | _ =>
        let y := { x with done := true, mauth := auth.isSome, cert := (auth.map (·.1)).getD 0, part := part, last := s.now }
        (.finish, { s with key.sessions := KMap.insert s.key.sessions session y })) s)

def execSpdmHeartbeat (bus : SpdmBus) (session : Nat) (s : State) : Host.Outcome State Fault Refusal :=
  .next (spdmStep bus (some session) (fun s => (.heartbeat, s)) s)

/-- The session's secret is replaced by one derived from it. -/
def execKeyUpdate (bus : SpdmBus) (session : Nat) (s : State) : Host.Outcome State Fault Refusal :=
  .next (spdmStep bus (some session) (fun s =>
    match KMap.find? s.key.sessions session with
    | none => (.error .unexpectedRequest, s)
    | some x => (.keyUpdate, { s with key.sessions := KMap.insert s.key.sessions session { x with secret := Config.derive x.secret 0 } })) s)

def execEndSession (bus : SpdmBus) (session : Nat) (s : State) : Host.Outcome State Fault Refusal :=
  .next (spdmStep bus (some session) (fun s => (.endSession, dropSession session s)) s)

/-- R342: a session without a message for 60 s is ended. -/
def execSpdmSessionTimeout (session : Nat) (s : State) : Host.Outcome State Fault Refusal :=
  match KMap.find? s.key.sessions session with
  | none => .next s
  | some x => if x.last + 60000000000 ≤ s.now then .next (dropSession session s) else .next s

/-! IDE_KM (R359). -/

def State.ide (s : State) (n : Nat) : IdeSt := KMap.get {} s.key.ide n
def State.setIde (s : State) (n : Nat) (x : IdeSt) : State := { s with key.ide := KMap.put {} s.key.ide n x }

/-- HST_LINK_STS.IDE shows the stream of the host link. -/
def showIde (s : State) : State := s.wr HST_LINK_STS.IDE 0 (b2n (s.ide 0).go)

/-- What an IDE_KM message does to the stream of a port, and its answer. A stream is set going once it has keys. -/
def ideAct (n : Nat) (m : IdeMsg) (s : State) : SpdmAns × State :=
  let x := s.ide n
  match m with
  | .query => (.ideQuery n x.go, s)
  | .keyProg sub key => (.keyProg, s.setIde n { x with keys := KMap.insert x.keys sub key, stop := false })
  | .kSetGo => (.setGo, showIde (s.setIde n { x with go := x.go || !x.keys.isEmpty }))
  | .kSetStop => (.setStop, showIde (s.setIde n { x with go := false }))

/-- An IDE_KM message: as responder in a session over the DOE mailbox, or as requester to the device of a tier port whose
link is up and takes IDE. -/
def ideStep (via : IdeVia) (m : IdeMsg) (s : State) : State :=
  match via with
  | .host n => spdmStep .doe (some n) (ideAct 0 m) s
  | .tier p =>
    if p < 4 ∧ rspRuns s ∧ ¬ s.key.zeroized ∧ s.flag (TIER_PORT_CFG.IDE_EN p) ∧ s.flag (TIER_PORT_STS.UP p) then
      (ideAct (1 + p) m s).2
    else s

def execIdeKmQuery (via : IdeVia) (s : State) : Host.Outcome State Fault Refusal := .next (ideStep via .query s)
def execKeyProg (via : IdeVia) (sub key : Nat) (s : State) : Host.Outcome State Fault Refusal :=
  .next (ideStep via (.keyProg sub key) s)
def execKSetGo (via : IdeVia) (s : State) : Host.Outcome State Fault Refusal := .next (ideStep via .kSetGo s)
def execKSetStop (via : IdeVia) (s : State) : Host.Outcome State Fault Refusal := .next (ideStep via .kSetStop s)

/-! Vendor-defined requests (R342, R347, R359). -/

/-- The key message of an OP; a reserved OP is a format error. -/
def keyMessage (session : Nat) (msg : Bytes) (s : State) : State :=
  let op := leAt msg 0 1
  if op = 1 then keyStep session 1 msg keyLoad s
  else if op = 2 then keyStep session 2 msg keyRetire s
  else if op = 3 then keyStep session 3 msg keyQuery s
  else keyStep session op msg (fun _ s => (ST.KEY_FORMAT, s)) s

/-- R342: key messages and IDE_KM are taken inside a session only, and IDE_KM over the DOE mailbox only. -/
def execVendorDefinedRequest (bus : SpdmBus) (session : Option Nat) (msg : VendorMsg) (s : State) : Host.Outcome State Fault Refusal :=
  match session, msg with
  | some n, .beygar b =>
    if ¬ spdmReach bus s then .next s
    else if s.key.zeroized ∨ ¬ sessionOpen s n then .next (spdmStep bus (some n) (fun s => (.error .unsupportedRequest, s)) s)
    else .next (keyMessage n b s)
  | some n, .ideKm m =>
    match bus with
    | .doe => .next (ideStep (.host n) m s)
    | .mctp => .next (spdmStep bus (some n) (fun s => (.error .unsupportedRequest, s)) s)
  | x, _ => .next (spdmStep bus x (fun s => (.error .unsupportedRequest, s)) s)

end Sys2Proof.Machine
end

