-- ==== Sys2Proof/Machine/Views.lean ====
section
/-!
DEFINITION. What a register reads as: the fields that show other state of the node, the instance that a select register
picks, and the value of a register at an address (R2, R6, R464–R468).
-/
namespace Sys2Proof.Machine

/-! Where a register is. -/

/-- The instance of a field that an access from a requester meets in a unit's window (R364, R471). -/
def instOf (s : State) (who : Nat) (unit : Nat) (f : Fld) : Nat :=
  match f.sel with
  | .one => 0
  | .unit => unit
  | .arb => s.rd GUT_ARB_SEL.ARB_ID who
  | .remap => 32 * unit + s.rd STK_REMAP_SEL.INDEX unit
  | .reamPart => s.rd REAM_PSEL.PART who
  | .egress => 2 * s.rd FAB_PSEL.PORT who + s.rd FAB_PSEL.HALF who
  | .fabPart => s.rd FAB_MPSEL.PART who
  | .colPart => s.rd COL_PSEL.PART who
  | .hstPart => s.rd HST_PSEL.PART who
  | .hstWin => s.rd HST_WIN_SEL.WIN who
  | .rasIn => s.rd RAS_IN_SEL.INPUT who
  | .measIx => s.rd RSP_MEAS_SEL.INDEX who
  | .req => who

/-- The single windows in the order of Table 21.2, 4 KiB apart. -/
def lowWindows : List Win := [.gut, .krn, .flo, .cwd, .ream, .tier, .rch, .col, .time, .hst, .rsp, .pcm, .mgt, .mgt, .ras]

/-- The window, unit and offset of an address of the register space (Table 21.2). -/
def windowAt (a : Nat) : Option (Win × Nat × Nat) :=
  if a < 0xF000 then (lowWindows[a / 0x1000]?).map fun w => (w, 0, if w = .mgt then a - 0xC000 else a % 0x1000)
  else if 0x100000 ≤ a ∧ a < 0x180000 then some (.fab, 0, a - 0x100000)
  else if 0x200000 ≤ a ∧ a < 0x300000 then
    let r := (a - 0x200000) / 0x40000
    let o := (a - 0x200000) % 0x40000
    if o < 0x10000 then some (.cmp, 16 * r + o / 0x1000, o % 0x1000)
    else if o < 0x11000 then some (.gal, r, o - 0x10000)
    else if o < 0x13000 then some (.stk, 2 * r + (o - 0x11000) / 0x1000, o % 0x1000)
    else if o < 0x15000 then some (.plt, 2 * r + (o - 0x13000) / 0x1000, o % 0x1000)
    else none
  else if 0x400000 ≤ a ∧ a < 0x600000 then some (.prt, (a - 0x400000) / 0x10000, a % 0x10000)
  else none

/-- The address that a requester's offset names: a virtual function reaches its function window alone (R465). -/
def reachAddr : Requester → Nat → Option Nat
  | .vf n, off => if off < 0x10000 ∧ 1 ≤ n ∧ n < 32 then some (0x400000 + 0x10000 * n + off) else none
  | _, off => if off < 0x4000000 then some off else none

/-! The fields that show other state. -/

/-- What an arbiter's waiting requesters have reached, at most. -/
def waitMax (s : State) (a : Nat) : Nat := min 65535 ((List.map (fun e : Nat × Nat => e.2) (s.arb a).waits).foldl max 0)

def arbStarved (s : State) (a : Nat) : Bool := s.flag (GUT_ARB_STARVE_STS.STARVE 0) a || s.flag (GUT_ARB_STARVE_STS.STARVE 1) a

def rasHandler (k : Nat) : Handler := if k < 4 then .region k else .chip

def allUsed (s : State) : Nat := ((List.range 32).map (storeUsed s)).foldl (· + ·) 0

/-- The channel key that RCH_CH_SEL names. -/
def chSel (s : State) (who : Nat) : Nat := s.rd RCH_CH_SEL.NODE who * 16 + s.rd RCH_CH_SEL.CHAN who

def rchSel (s : State) (who : Nat) : RchReg := KMap.get {} s.rch.regs (s.rd RCH_REG_SEL.INDEX who)

def keySel (s : State) (who : Nat) : KeySlot := keySlot s (s.rd RSP_KEY_SEL.SLOT who)

/-- The bytes of an error record (Table 16.2). -/
def errBytes (r : ErrRec) : Bytes :=
  natLe 1 (32 * b2n r.poison + 16 * b2n r.escalated + 4 * (r.level % 4) + r.sev % 4) ++ natLe 1 r.subsys ++ natLe 2 r.cause ++ natLe 2 r.unit ++
  natLe 1 (match r.part with
    | some p => 128 + p % 32
    | none => 0) ++ natLe 1 0 ++ natLe 2 r.status ++ natLe 2 r.action ++ natLe 4 r.ream ++ natLe 8 r.addr ++ natLe 8 r.time

/-- The bytes of a telemetry record (R458). -/
def telBytes (r : TelRec) : Bytes :=
  natLe 4 r.seq ++ natLe 2 r.n ++ natLe 2 (b2n r.gap + 2 * b2n r.oob) ++ natLe 8 r.tStart ++ natLe 8 r.tEnd ++ natLe 8 0 ++
  r.values.flatMap (natLe 8)

/-- The word `k` of bytes, zero past the end. -/
def recWord (b : Bytes) (k : Nat) : Nat := leAt b (4 * k) 4

/-- Accesses and unit commands that wait on claims of a stack (R92, R99). -/
def claimWaiters (s : State) (k : Nat) : Nat :=
  ((s.stkUnit k).waiting.filter (claimed s)).length + (s.stk.claimWaits.filter fun w => offStack w.2.1 == k).length

/-- STATE of a block: one that runs and waits for a line of its operand port is stalled (R103). -/
def blockState (s : State) (b : Nat) : Nat :=
  if s.rd CMP_SEQ_STS.STATE b = 1 ∧ (s.blk b).port.miss.isSome then 2 else s.rd CMP_SEQ_STS.STATE b

/-- Block cycles with a composition running, the present one's among them. -/
def busyCycles (s : State) (b : Nat) : Nat := s.rd CMP_BUSY_CYC.CYCLES b + (if (s.blk b).cur.isSome then (s.blk b).cycles else 0)

/-- Nanoseconds that a class of an egress has been paused, those of a present pause among them (R254). -/
def pausedNs (s : State) (c k : Nat) : Nat :=
  s.rd (FAB_PAUSED_NS.VALUE k) c + (if bitOf (s.rd FAB_PORT_STS.PAUSED c) k then s.now - KMap.get 0 (s.port c).pauseFrom k else 0)

/-- Fields of single registers whose value is other state: the instance, the requester, the state. -/
def views : List (Fld × (Nat → Nat → State → Nat)) :=
  [(GUT_ARB_CFG.NREQ, fun i _ _ => arbReqs i),
   (GUT_ARB_STS.WAIT_MAX, fun i _ s => waitMax s i),
   (STK_ID.STACK, fun i _ _ => i),
   (CMP_ID.REGION, fun i _ _ => i / 16),
   (CMP_ID.BLOCK, fun i _ _ => i % 16),
   (CMP_SEQ_STS.PC, fun i _ s => (s.blk i).pc),
   (CMP_SEQ_STS.STATE, fun i _ s => blockState s i),
   (CMP_BUSY_CYC.CYCLES, fun i _ s => busyCycles s i),
   (PLT_CLAIM_STS.WAITERS, fun i _ s => claimWaiters s i),
   (CMP_ERRQ_STS.BLK_DEPTH, fun i _ s => (s.hand (.block i)).queue.length),
   (CMP_ERRQ_STS.CELL_DEPTH, fun i _ s => ((List.range 16).map fun c => (s.hand (.cell i c)).queue.length).foldl max 0),
   (GAL_ID.REGION, fun i _ _ => i),
   (REAM_STS.POOL_USED, fun _ _ s => s.rea.pool.length),
   (REAM_STS.ADMITTED, fun _ _ s => s.col.reams.length),
   (REAM_STARVE_AGE.AGE_US, fun i _ s => min 0xFFFFFFFF (partAge s i / 1000)),
   (RCH_STS.TX_CTX, fun _ _ s => txInUse s),
   (RCH_STS.RX_CTX, fun _ _ s => s.rch.rx.length),
   (RCH_REG_STS.STATE, fun _ w s => (rchSel s w).state),
   (RCH_REG_STS.PART, fun _ w s => (rchSel s w).part),
   (RCH_REG_STS.GEN, fun _ w s => (rchSel s w).gen),
   (RCH_REG_STS.OUTSTANDING, fun _ w s => (rchSel s w).outst),
   (RCH_CH_STS.STATE, fun _ w s => if s.flag RCH_CH_SEL.RX w then b2n (KMap.find? s.rch.rx (chSel s w)).isSome else (s.txc (chSel s w)).state),
   (RCH_CH_STS.CLASS, fun _ w s =>
     if s.flag RCH_CH_SEL.RX w then (KMap.get {} s.rch.rx (chSel s w)).cls else (s.txc (chSel s w)).cls),
   (RCH_CH_STS.UNACK, fun _ w s =>
     if s.flag RCH_CH_SEL.RX w then (KMap.get {} s.rch.rx (chSel s w)).unack else (s.txc (chSel s w)).held.length),
   (RCH_CH_SEQ.SEQ, fun _ w s => if s.flag RCH_CH_SEL.RX w then (KMap.get {} s.rch.rx (chSel s w)).e else (s.txc (chSel s w)).next),
   (COL_STORE_STS.USED_KIB, fun _ _ s => kib (allUsed s)),
   (COL_STORE_STS.PART_KIB, fun _ w s => kib (storeUsed s (s.rd COL_PSEL.PART w))),
   (TIME_STS.OOB, fun _ _ s => b2n (!timeInBound s)),
   (TIME_STS.LOCKED, fun _ _ s => if s.flag TIME_CFG.GM then 1 else s.rd TIME_STS.LOCKED),
   (RSP_KEY_FLOOR.FLOOR, fun _ w s => (keySel s w).floor),
   (RSP_KEY_STS.STATE, fun _ w s => (keySel s w).state),
   (RSP_KEY_STS.PART, fun _ w s => if (keySel s w).state = 1 ∨ (keySel s w).state = 2 then (keySel s w).part else 0),
   (RSP_KEY_STS.GEN, fun _ w s => (keySel s w).gen),
   (FLO_SET_FREE.VALUE, fun _ w s => if floOn s then setFree s (s.rd FLO_SET_SEL.VALUE w % 64) else 0),
   (HST_PRT_ID.DEFINED, fun i _ s => b2n (partDefined s i)),
   (HST_PRT_ID.PART, fun i _ _ => i),
   (HST_PRT_STS.READY, fun i _ s => b2n (partDefined s i && s.flag HST_PRT_CFG.EN i && !s.flag HST_PRT_STS.RST_BUSY i)),
   (RAS_IN_CFG.CLASS, fun i _ _ => b2n (eventInputs.contains i)),
   (MGT_TEL_STS.SEQ, fun _ _ s => (s.mgt.tel.map (·.seq)).getD 0)]

/-- What a field reads as where it shows other state; a field of a numbered family by its offset. -/
def viewOf (f : Fld) (i who : Nat) (s : State) : Option Nat :=
  match views.find? fun v => v.1 == f with
  | some v => some (v.2 i who s)
  | none =>
    match f.win with
    | .gut => if 0x10 ≤ f.off ∧ f.off < 0x30 ∧ arbReqs i ≤ (f.off - 0x10) / 4 * 8 + f.lo / 4 then some 0
              else if 0x60 ≤ f.off ∧ f.off < 0x74 then
                let k := (f.off - 0x60) / 4
                some (((List.range 32).filter fun j => decide (32 * k + j < 148) && arbStarved s (32 * k + j)).foldl (fun a j => a + 2 ^ j) 0)
              else none
    | .fab => if 0x2C0 ≤ f.off ∧ f.off < 0x2E0 ∧ f.lo = 0 then
                some (min 65535 (kib (KMap.get 0 (s.port i).occ ((f.off - 0x2C0) / 4))))
              else if 0x280 ≤ f.off ∧ f.off < 0x2C0 then some (pausedNs s i ((f.off - 0x280) / 8))
              else none
    | .ras => if 0x20 ≤ f.off ∧ f.off < 0x34 then
                let h := s.hand (rasHandler ((f.off - 0x20) / 4))
                if f.lo = 8 then some h.queue.length else if f.lo = 0 then some (b2n h.cur.isSome) else none
              else if 0x60 ≤ f.off ∧ f.off < 0x80 then
                some (((KMap.find? s.ras.errLog (s.rd RAS_LOG_SEL.ENTRY who)).map fun r => recWord (errBytes r) ((f.off - 0x60) / 4)).getD 0)
              else none
    | .mgt => if 0x1000 ≤ f.off then some ((s.mgt.tel.map fun r => recWord (telBytes r) ((f.off - 0x1000) / 4)).getD 0) else none
    | _ => none

/-! What a register reads as. -/

/-- The value of a field; a write-only field reads zero. -/
def fieldRead (s : State) (who unit : Nat) (f : Fld) : Nat :=
  if f.ty = .wo then 0
  else
    let i := instOf s who unit f
    (viewOf f i who s).getD (s.rd f i) % 2 ^ f.wd

/-- The offset of the register that covers the aligned word at an offset, and whether it has 64 bits. -/
def regAt (w : Win) (off : Nat) : Option (Nat × Bool) :=
  match fieldsAt w off with
  | [] => none
  | l => some ((l.map (·.off)).foldl min off, l.any fun f => decide (32 < f.lo + f.wd))

/-- The value of the register at a word, all of its bits. -/
def regValue (s : State) (who unit : Nat) (w : Win) (off : Nat) : Nat :=
  match regAt w off with
  | none => 0
  | some (base, _) => ((fieldsAt w base).filter fun f => f.off == base).foldl (fun a f => a + fieldRead s who unit f * 2 ^ f.lo) 0

/-- The word at an aligned offset of a window. -/
def wordRead (s : State) (who unit : Nat) (w : Win) (off : Nat) : Nat :=
  match regAt w off with
  | none => 0
  | some (base, _) => bits (regValue s who unit w off) (8 * (off - base)) 32

/-- The region whose windows a register reset in progress closes (Table 21.3). -/
def winRegion (w : Win) (unit : Nat) : Option Nat :=
  match w with
  | .cmp => some (unit / 16)
  | .gal => some unit
  | .stk => some (unit / 2)
  | .plt => some (unit / 2)
  | _ => none

def winBusy (s : State) (w : Win) (unit : Nat) : Bool :=
  match winRegion w unit with
  | some r => bitOf (s.rd PCM_RST_STS.RBUSY) r
  | none => false

/-- A counter's value as telemetry reads it (R458): an instance without a select register. -/
def counterValue (s : State) (id : Nat) : Nat :=
  if bits id 27 5 = 0 then KMap.get 0 s.mgt.sens (bits id 0 16)
  else match telReg? id with
  | none => 0
  | some (w, off, i) =>
    match (fieldsAt w off).filter fun f => f.off == off && decide (f.ty ≠ .wo) with
    | [] => 0
    | l => l.foldl (fun a f => a + ((viewOf f i 2 s).getD (s.rd f i) % 2 ^ f.wd) * 2 ^ f.lo) 0

end Sys2Proof.Machine
end

