-- ==== Sys2Proof/Machine/Mgt.lean ====
section
/-!
DEFINITION. The management controller and the D0 responder (R448–R454, R457–R459): MCTP and PLDM, the Beygar commands,
firmware update, events and telemetry. A command with a row of its own is one message received.
-/
namespace Sys2Proof.Machine

/-! Receiving (R448, R450). -/

/-- A transport that can bring a message now: PCIe needs the host link. -/
def busUp (s : State) (b : MctpBus) : Bool :=
  match b with
  | .pcie => s.flag HST_LINK_STS.UP && !hostStopped s
  | _ => true

def lowBus (b : MctpBus) : Bool := b == .i3c || b == .smbus

/-- A message is received by the management controller and counted, or while D2 does not run by the D0 responder, when it
is one of Table 20.3 (`d0`); else it is discarded. -/
def mgtStep (src : MgtSrc) (d0 : Bool) (act : State → State) (s : State) : State :=
  if mgtRuns s then
    if ¬ busUp s src.bus then s
    else
      let s := s.bump (MGT_CNT.COUNT 0)
      act (match src.session with
        | some n => touch n s
        | none => s)
  else if d0 ∧ lowBus src.bus then act s else s

def pldmAns (src : MgtSrc) (code : PldmCode) (status : Nat) (data : Bytes) (s : State) : State := s.emit (.pldm src.eid code status data)

def pldmDone (src : MgtSrc) (s : State) : State := pldmAns src .success ST.OK [] s
def pldmRefuse (src : MgtSrc) (s : State) : State := pldmAns src .notReady ST.OK [] s

/-- An owner session: a secured session with mutual authentication, whose requester's key is that of a programmed,
unrevoked ECDSA P-384 owner slot. -/
def ownerSession (s : State) (src : MgtSrc) : Bool :=
  match src.session.bind fun n => KMap.find? s.key.sessions n with
  | none => false
  | some x => x.done && x.mauth &&
      (List.range 4).any fun n => KMap.find? s.fus.owners n == some (0, x.cert) && !bitOf s.fus.revoked n

/-! MCTP control, and messages without a row of their own. -/

/-- The PLDM types of R449. -/
def pldmTypes : List Nat := [0, 2, 5, 63]

/-- R448, R449: an SPDM request outside Table 15.2 is relayed and answered so; a PLDM command outside the supported
types, or outside the commands that have rows, is refused; any other message type is discarded and counted. -/
def execMctpMessage (src : MgtSrc) (msg : MctpMsg) (s : State) : Host.Outcome State Fault Refusal :=
  .next (mgtStep src false (fun s =>
    match msg with
    | .control => s.emit (.mctp src.eid [5])
    | .pldm ty => pldmAns src (if pldmTypes.contains ty then .unsupportedCmd else .invalidType) ST.OK [] s
    | .readSensor id =>
      if sensorIds.contains id then pldmAns src .success ST.OK (natLe 4 (KMap.get 0 s.mgt.sens id)) s
      else pldmAns src .invalidData ST.OK [] s
    | .cancelUpdate =>
      if s.mgt.updater = some src.eid then pldmDone src ({ s with mgt.updater := none }.wr MGT_STS.UPDATE 0 0)
      else pldmAns src .notInUpdateMode ST.OK [] s
    | .spdm _ => spdmStep .mctp src.session (fun s => (.error .unsupportedRequest, s)) s
    | .other ty => if [0, 1, 5, 6].contains ty then s else s.bump (MGT_CNT.COUNT 1)) s)

/-- One ID serves every transport. -/
def execSetEndpointId (src : MgtSrc) (eid : Nat) (s : State) : Host.Outcome State Fault Refusal :=
  .next (mgtStep src false (fun s =>
    if eid % 256 = 0 ∨ eid % 256 = 255 then s.emit (.mctp src.eid [2])
    else (s.wr MGT_STS.EID 0 eid).emit (.mctp src.eid (0 :: natLe 1 eid))) s)

def execGetEndpointId (src : MgtSrc) (s : State) : Host.Outcome State Fault Refusal :=
  .next (mgtStep src true (fun s => s.emit (.mctp src.eid (0 :: natLe 1 (s.rd MGT_STS.EID)))) s)

/-- The versions of MCTP that the node supports are its firmware's. -/
def execGetMctpVersionSupport (src : MgtSrc) (s : State) : Host.Outcome State Fault Refusal :=
  .next (mgtStep src true (fun s => s.emit (.mctp src.eid (0 :: natLe 4 Config.mctpVersion))) s)

/-- R448: while an event is pending, the management controller answers with its address. -/
def execSmbusAlertResponse (s : State) : Host.Outcome State Fault Refusal :=
  .next (if mgtRuns s ∧ outAlert s then s.emit (.alertAddr (0x60 + s.rd PCM_STRAP.MGT_ADDR)) else s)

/-! Formes (Table 20.4). -/

/-- What LOAD, GO and CANCEL answer: the completion code and status. -/
def loadStatus (s : State) : PldmCode × Nat :=
  if 3 ≤ formeState s then (.error, ST.FORME_BUSY)
  else if formeState s = 1 ∨ s.rd PCM_STRAP.BOOT_SEL = 7 then (.error, ST.OK) else (.success, ST.OK)

def goStatus (s : State) : PldmCode × Nat :=
  match s.fme.staged with
  | none => (.error, ST.OK)
  | some m =>
    if formeState s ≠ 2 then (.error, ST.OK)
    else if ¬ timeInBound s ∨ (m.time ≠ 0 ∧ m.time ≤ fabTime s) then (.error, ST.FORME_LATE) else (.success, ST.OK)

def cancelStatus (s : State) : PldmCode × Nat :=
  if formeState s = 2 ∨ formeState s = 3 then (.success, ST.OK) else (.error, ST.OK)

/-- A chunk is at most 1,024 bytes and the container 2,097,152; the last one acts as LOAD. -/
def execFormeLoad (src : MgtSrc) (first last : Bool) (data : Bytes) (s : State) : Host.Outcome State Fault Refusal :=
  .next (mgtStep src false (fun s =>
    let b := (if first then [] else s.mgt.load) ++ data
    if 1024 < data.length ∨ 2097152 < b.length then pldmAns src .invalidData ST.OK [] s
    else if ¬ last then pldmDone src { s with mgt.load := b }
    else
      let (c, st) := loadStatus s
      pldmAns src c st [] (loadGate (formeTake b) { s with mgt.load := [] })) s)

def execFormeGo (src : MgtSrc) (s : State) : Host.Outcome State Fault Refusal :=
  .next (mgtStep src false (fun s => pldmAns src (goStatus s).1 (goStatus s).2 [] (formeGo s)) s)

def execFormeCancel (src : MgtSrc) (s : State) : Host.Outcome State Fault Refusal :=
  .next (mgtStep src false (fun s => pldmAns src (cancelStatus s).1 (cancelStatus s).2 [] (formeCancel s)) s)

/-! Fuses and debug (R338, R343, R452, R459). -/

/-- R452: an unprogrammed slot, while none is programmed and the node is in PROOF, or in an owner session. -/
def execOwnerProg (src : MgtSrc) (slot alg hash : Nat) (s : State) : Host.Outcome State Fault Refusal :=
  .next (mgtStep src false (fun s =>
    let blank := (List.range 4).all fun n => (KMap.find? s.fus.owners n).isNone
    if 4 ≤ slot ∨ 2 ≤ alg then pldmAns src .invalidData ST.OK [] s
    else if (KMap.find? s.fus.owners slot).isSome ∨ ¬ ((blank ∧ s.rd RAS_NODE_STS.STATE = 0) ∨ ownerSession s src) then pldmRefuse src s
    else pldmDone src (showOwners { s with fus.owners := KMap.insert s.fus.owners slot (alg, hash % 2 ^ 384) })) s)

def execOwnerRevoke (src : MgtSrc) (slot : Nat) (s : State) : Host.Outcome State Fault Refusal :=
  .next (mgtStep src false (fun s =>
    if 4 ≤ slot then pldmAns src .invalidData ST.OK [] s
    else if ¬ ownerSession s src then pldmRefuse src s
    else pldmDone src (showOwners { s with fus.revoked := setBit s.fus.revoked slot })) s)

def execSvnCommit (src : MgtSrc) (s : State) : Host.Outcome State Fault Refusal :=
  .next (mgtStep src false (fun s =>
    if ¬ ownerSession s src then pldmRefuse src s
    else
      let n := max s.fus.svn (min 64 (s.rd RSP_FW_SVN.RUN))
      pldmDone src ({ s with fus.svn := n }.wr RSP_FW_SVN.MIN 0 n)) s)

/-- R459: level 1 takes effect at once, and level 2 at the next warm reset. -/
def execDebugUnlock (src : MgtSrc) (level : Nat) (s : State) : Host.Outcome State Fault Refusal :=
  .next (mgtStep src false (fun s =>
    if level ≠ 1 ∧ level ≠ 2 then pldmAns src .invalidData ST.OK [] s
    else if ¬ ownerSession s src then pldmRefuse src s
    else if level = 1 then pldmDone src { s.wr MGT_STS.DEBUG_LVL 0 1 with mgt.dbgNext := 0 }
    else pldmDone src { s with mgt.dbgNext := 2 }) s)

/-! Resets and power (R418, R419, R423). -/

/-- R423: as a write of PCM_RST_CMD, with management as the cause. The answer goes out first. -/
def execPldmReset (src : MgtSrc) (value : Nat) (failed : List Nat) (s : State) : Host.Outcome State Fault Refusal :=
  .next (mgtStep src true (fun s =>
    let s := pldmDone src s
    if rstCmd 1 value then coldReset 2 true failed s
    else if rstCmd 2 value then warmReset 2 failed s
    else if rstCmd 3 value then nodeReset 2 s
    else if rstCmd 4 value then regionReset (bits value 0 2) 2 s
    else s) s)

def execPldmWake (src : MgtSrc) (s : State) : Host.Outcome State Fault Refusal :=
  .next (mgtStep src true (fun s => wakeUp (pldmDone src s)) s)

def execPldmKeep (src : MgtSrc) (s : State) : Host.Outcome State Fault Refusal :=
  .next (mgtStep src false (fun s => keepCmd (pldmDone src s)) s)

/-- The word at a field's register. -/
def statusWord (s : State) (f : Fld) : Bytes := natLe 4 (wordRead s 2 0 f.win f.off)

def execStatusQuery (src : MgtSrc) (s : State) : Host.Outcome State Fault Refusal :=
  .next (mgtStep src true (fun s =>
    pldmAns src .success ST.OK (statusWord s PCM_STATE.NODE ++ statusWord s PCM_RST_STS.CAUSE ++ statusWord s RAS_NODE_STS.STATE ++
      statusWord s RSP_BOOT_STS.FAIL) s) s)

/-! Flash (R451, R453, R454). -/

/-- The size of a flash slot (Table 20.5). -/
def slotSize (n : Nat) : Nat := if n < 2 then 0x400000 else if n < 4 then 0x800000 else 0x200000

def setFlash (n : Nat) (b : Bytes) (s : State) : State := { s with mgt.flash := KMap.insert s.mgt.flash n b }

/-- R451: a chunk into slot A of an image, by the D0 responder alone, while boot has failed. The first chunk, at offset 0,
erases the slot; erased flash reads as ones. -/
def execRecoveryWrite (src : MgtSrc) (mgt : Bool) (off : Nat) (data : Bytes) (s : State) : Host.Outcome State Fault Refusal :=
  let n := if mgt then 2 else 0
  if mgtRuns s then .next (mgtStep src false (pldmRefuse src) s)
  else if ¬ s.flag RSP_BOOT_STS.FAIL then .next s
  else .next (mgtStep src true (fun s =>
    if 1024 < data.length ∨ slotSize n < off + data.length then pldmAns src .invalidData ST.OK [] s
    else
      let old := if off = 0 then [] else flashSlot s n
      pldmDone src (setFlash n (old.take off ++ List.replicate (off - old.length) 0xFF ++ data ++ old.drop (off + data.length)) s)) s)

/-- R453: one update agent is served at a time. -/
def execRequestUpdate (src : MgtSrc) (s : State) : Host.Outcome State Fault Refusal :=
  .next (mgtStep src false (fun s =>
    match s.mgt.updater with
    | some e => if e = src.eid then pldmDone src s else pldmAns src .alreadyInUpdateMode ST.OK [] s
    | none => pldmDone src ({ s with mgt.updater := some src.eid }.wr MGT_STS.UPDATE 0 1)) s)

/-- Whether slot A of a component verifies (R338, or rows 1 to 3 of Table 17.8), and the state with a failure counted. -/
def slotVerify (n : Nat) (s : State) : Bool × State :=
  if n < 4 then if imageBad s [] n = 0 then (true, s) else (false, authFailNode s)
  else match checkOuter s {} (containerOf (flashSlot s n)) with
    | .ok _ => (true, s)
    | .error e => (false, if e = ST.FORME_SIG then authFailNode s else s)

/-- R454: slot B takes slot A, slot A takes the component, and a component that fails verification is put back. -/
def writeComponent (n : Nat) (data : Bytes) (s : State) : Bool × State :=
  let s := if flashSlot s (n + 1) = flashSlot s n then s else setFlash (n + 1) (flashSlot s n) s
  let (ok, s) := slotVerify n (setFlash n data s)
  (ok, if ok then s else setFlash n (flashSlot s (n + 1)) s)

/-- A component of the agent's update; the last one ends it. -/
def execUpdateComponent (src : MgtSrc) (comp : Nat) (data : Bytes) (last : Bool) (s : State) : Host.Outcome State Fault Refusal :=
  .next (mgtStep src false (fun s =>
    let n := 2 * (comp - 1)
    if s.mgt.updater ≠ some src.eid then pldmAns src .notInUpdateMode ST.OK [] s
    else if comp = 0 ∨ 3 < comp ∨ slotSize n < data.length then pldmAns src .invalidData ST.OK [] s
    else
      let (ok, s) := writeComponent n data s
      let s := if last then { s with mgt.updater := none }.wr MGT_STS.UPDATE 0 0 else s
      pldmAns src (if ok then .success else .verifyErrorImageIncomplete) ST.OK [] s) s)

/-! Events (R457). -/

def execSetEventReceiver (src : MgtSrc) (eid : Nat) (s : State) : Host.Outcome State Fault Refusal :=
  .next (mgtStep src false (fun s => sendEvent (pldmDone src { s with mgt.receiver := eid % 256 })) s)

/-- The acknowledged event leaves the queue, and the next one goes out. -/
def execEventAck (src : MgtSrc) (s : State) : Host.Outcome State Fault Refusal :=
  .next (mgtStep src false (fun s =>
    if src.eid = s.mgt.receiver ∧ s.mgt.receiver ≠ 0 then sendEvent { s with mgt.events := s.mgt.events.tail } else s) s)

/-! Telemetry (R458). -/

def execTelReceiver (src : MgtSrc) (eid : Nat) (s : State) : Host.Outcome State Fault Refusal :=
  .next (mgtStep src false (fun s => pldmDone src { s with mgt.telTo := eid % 256 }) s)

def execTelRead (src : MgtSrc) (s : State) : Host.Outcome State Fault Refusal :=
  .next (mgtStep src false (fun s => pldmAns src .success ST.OK ((s.mgt.tel.map telBytes).getD []) s) s)

/-- The identifiers and the period of the active forme. -/
def telIds (s : State) : List Nat := (recs (secOf s 14) (leAt (secOf s 14) 0 2) 0x40 4).map leNat
def telPeriod (s : State) : Nat := leAt (secOf s 14) 4 4

/-- The record of a pass that starts now; its end is at most 20 µs later. -/
def telRecord (s : State) : TelRec :=
  let t := fabTime s
  { seq := ((s.mgt.tel.map (·.seq)).getD 0 + 1) % 2 ^ 32, n := (telIds s).length, gap := s.mgt.telGap, oob := !timeInBound s,
    tStart := t, tEnd := t + s.draw % 20001, values := (telIds s).map (counterValue s) }

/-- A record falls due every PERIOD_MS: it is formed, or skipped while the one before is unsent. -/
def execTelemetryPeriod (unsent : Bool) (s : State) : Host.Outcome State Fault Refusal :=
  if ¬ mgtRuns s ∨ telPeriod s = 0 ∨ s.now < s.mgt.telAt + telPeriod s * 1000000 then .next s
  else
    let s := { s with mgt.telAt := s.now }
    if unsent ∧ s.mgt.tel.isSome ∧ s.mgt.telTo ≠ 0 then .next ({ s with mgt.telGap := true }.bump MGT_TEL_SKIP_CNT.COUNT)
    else
      let r := telRecord s
      let s : State := { s.drawn with mgt.tel := some r, mgt.telGap := false }
      .next (if s.mgt.telTo = 0 then s else s.emit (.telemetry s.mgt.telTo r))

end Sys2Proof.Machine
end

