-- ==== Sys2Proof/Machine/Tap.lean ====
section
/-!
DEFINITION. The test access port (R461).
-/
namespace Sys2Proof.Machine

/-- An instruction is selected, and what its register captures goes out. -/
def tapSelect (ir : TapIr) (v : Nat) (s : State) : State := { s with pcm.tapIr := ir }.emit (.tap v)

/-- An instruction that takes the pins holds every domain but D0 in warm reset. The spec gives that reset no cause. -/
def tapPins (ir : TapIr) (s : State) : State :=
  let was := s.pcm.tapHeld || !s.pcm.pwrGood
  let s := { s with pcm.tapIr := ir, pcm.tapHeld := true }
  if was then s else warmReset s.draw [] s.drawn

/-- The boundary register captures the pins. -/
def tapHold (ir : TapIr) (s : State) : State :=
  let s := tapPins ir s
  (s.emit (.tap s.draw)).drawn

def execBypass (s : State) : Host.Outcome State Fault Refusal := .next (tapSelect .bypass 0 s)
def execIdcode (s : State) : Host.Outcome State Fault Refusal := .next (tapSelect .idcode 0x171604C9 s)

/-- The pins are sampled, and the boundary cells take what is shifted in. -/
def execSamplePreload (cells : Nat) (s : State) : Host.Outcome State Fault Refusal :=
  .next { (tapSelect .samplePreload s.draw s).drawn with pcm.boundary := cells }

def execExtest (s : State) : Host.Outcome State Fault Refusal := .next (tapHold .extest s)
def execExtestPulse (s : State) : Host.Outcome State Fault Refusal := .next (tapHold .extestPulse s)
def execExtestTrain (s : State) : Host.Outcome State Fault Refusal := .next (tapHold .extestTrain s)

/-- CLAMP and HIGHZ select the bypass register between TDI and TDO. -/
def tapClamp (ir : TapIr) (s : State) : State := (tapPins ir s).emit (.tap 0)

def execClamp (s : State) : Host.Outcome State Fault Refusal := .next (tapClamp .clamp s)
def execHighz (s : State) : Host.Outcome State Fault Refusal := .next (tapClamp .highz s)

/-- A private instruction behaves as BYPASS below debug level 2; at level 2 the spec gives it no effect. -/
def execTapPrivate (s : State) : Host.Outcome State Fault Refusal :=
  if s.rd MGT_STS.DEBUG_LVL = 2 then .refused .privateTest else .next (tapSelect .bypass 0 s)

/-- A held node completes its warm reset. The port's own reset selects IDCODE. -/
def execTestLogicReset (failed : List Nat) (s : State) : Host.Outcome State Fault Refusal :=
  let s := { s with pcm.tapIr := .idcode }
  if s.pcm.tapHeld then
    let s := { s with pcm.tapHeld := false }
    .next (if nodeHeld s then s else boot false true failed s)
  else .next s

end Sys2Proof.Machine
end

