-- ==== Sys2Proof/Machine/Tier.lean ====
section
/-!
DEFINITION. The lower case at work (R184, R218–R234): spills by watermark and by command, the fetch queue, failed and
late fetches, hand-over of runs in shared pools, leases, and the end of a closed conversation.
-/
namespace Sys2Proof.Machine

/-! Spills (R218–R220). -/

/-- Free chunks and all chunks of a partition's channel sets. -/
def partChunks (s : State) (p : Nat) : Nat × Nat :=
  let own := (List.range 64).filter fun x => setOwner s (x / 8) (x % 8) == some p
  ((own.map (setFree s)).foldl (· + ·) 0, own.length * setChunks)

/-- Whether the mover spills runs of a partition now: below LO, on its way to HI, or because a fetch finds no space (R218, R222). -/
def spillDue (s : State) (p : Nat) : Bool :=
  let (free, all) := partChunks s p
  s.flag (TIER_PART_POOL.EN p) && s.flag TIER_SPILL_CFG.EN &&
  (decide (free * 256 < s.rd TIER_SPILL_CFG.LO * all) || s.tier.starved.contains p ||
   (s.tier.needy.contains p && decide (free * 256 < s.rd TIER_SPILL_CFG.HI * all)))

/-- `a` is later than `b` as serial numbers (R218). -/
def serialLater (a b : Nat) : Bool := decide ((a + 2 ^ 32 - b) % 2 ^ 32 ≠ 0 ∧ (a + 2 ^ 32 - b) % 2 ^ 32 < 2 ^ 31)

/-- A run's age: the latest LAST_ACCESS among its run records. -/
def runAge (s : State) (c l : Nat) : Nat :=
  ((hgsOf (s.conv c)).map fun h => (s.run (runIx s c l h)).lastAccess).foldl (fun m a => if serialLater a m then a else m)
    ((s.run (runIx s c l (s.conv c).hgLo)).lastAccess)

/-- The oldest candidate of a partition; ties go to the lower record, then to the lower layer. -/
def oldestRun (s : State) (p : Nat) : Option (Nat × Nat) :=
  let runs := (List.filter (fun e : Nat × ConvRec => e.2.part == p && e.2.state == 1) s.flo.convs).flatMap fun e =>
    (List.range e.2.nlayer).map fun l => (e.1, l)
  (runs.filter fun x => spillable s x.1 x.2).foldl (fun best x =>
    match best with
    | none => some x
    | some y => if serialLater (runAge s y.1 y.2) (runAge s x.1 x.2) then some x else best) none

/-- R218, R219: the mover starts to spill the oldest candidate of a partition, once its reads need not wait. -/
def execSpillStart (part : Nat) (s : State) : Host.Outcome State Fault Refusal :=
  if ¬ spillDue s part then
    .next { s with tier.needy := s.tier.needy.filter (· ≠ part) }
  else
    let (free, all) := partChunks s part
    let low := decide (free * 256 < s.rd TIER_SPILL_CFG.LO * all)
    let s := { s with tier.needy := if ¬ low ∨ s.tier.needy.contains part then s.tier.needy else s.tier.needy ++ [part] }
    match oldestRun s part with
    | none => .next s
    | some (c, l) =>
      match reqsWait (.spillStart part) part (runRanges s c l) s with
      | some s => .next s
      | none => .next (spillBegin c l false (unstall (.spillStart part) s)).2

/-! Command records (R234). -/

/-- Whether a tier command record is well formed. -/
def tierFormOk (b : Bytes) : Bool :=
  let op := leAt b 0 1
  let arg := leAt b 0x18 4
  decide (1 ≤ op ∧ op ≤ 5 ∧ leAt b 1 1 < 32 ∧ leAt b 2 6 = 0 ∧ leAt b 0xE 10 = 0 ∧ leAt b 0x1C 4 = 0 ∧ leAt b 0x20 32 = 0) &&
  (op != 1 || decide (arg < 65536)) && (op < 4 || decide (arg < 2 ^ 26))

/-- A record reaches the mover: a malformed one ends at once (R234). -/
def tierSubmit (b : Bytes) (s : State) : State :=
  if s.rd RAS_NODE_STS.STATE = 3 then tierDone ST.FENCED s
  else if tierFormOk b then { s.wr TIER_CMD_STS.BUSY 0 1 with tier.cmd := some b } else tierDone ST.TIER_CMD_FORMAT s

/-- The conversation record that a tier command names: role 0, else role 1. -/
def tierConv (b : Bytes) (s : State) : Option Nat × State :=
  match convFind (leAt b 1 1) 0 (leAt b 8 6) s with
  | (some c, s) => (some c, s)
  | (none, s) => convFind (leAt b 1 1) 1 (leAt b 8 6) s

/-- Run a command of one kind when it is the one that waits, with its conversation record. -/
def tierStep (op : Nat) (act : Bytes → Nat → State → State) (s : State) : State :=
  match s.tier.cmd with
  | none => s
  | some b =>
    if leAt b 0 1 ≠ op then s
    else match tierConv b s with
      | (none, s) => tierDone ST.DIR_NO_CONV s
      | (some c, s) => act b c s

def cmdLayer (b : Bytes) : Nat := leAt b 0x18 2
def cmdHigh (b : Bytes) : Nat := leAt b 0x1A 2

/-- R234: SPILL of one run. -/
def execSpill (s : State) : Host.Outcome State Fault Refusal :=
  .next (tierStep 1 (fun b c s =>
    let l := cmdLayer b
    if (s.conv c).nlayer ≤ l then tierDone ST.DIR_NO_RUN s
    else if (KMap.find? s.tier.spills (spillKey c l)).isSome then s
    else if ¬ spillable s c l then tierDone ST.TIER_BUSY s
    else match reqsWait .spill (s.conv c).part (runRanges s c l) s with
      | some s => s
      | none =>
        let (st, s) := spillBegin c l true (unstall .spill s)
        if st = ST.OK then s else tierDone st s) s)

/-- Log a transfer failure (R224). -/
def tierLog (kind pool off : Nat) (s : State) : State :=
  (((s.wr TIER_ERR_LOG0.OFFSET_LO 0 off).wr TIER_ERR_LOG1.OFFSET_HI 0 (off / 2 ^ 32)).wr TIER_ERR_LOG1.POOL 0 pool).wr TIER_ERR_LOG1.KIND 0 kind

/-- R219, R220: every write of a spill has completed at the pool, or one has failed at a tier offset. -/
def execSpillComplete (conv layer : Nat) (ok : Bool) (off : Nat) (s : State) : Host.Outcome State Fault Refusal :=
  match KMap.find? s.tier.spills (spillKey conv layer) with
  | none => .next s
  | some x =>
    if ok then .next (spillEnd x s)
    else
      let s := tierLog 5 x.pool off ((undoSpill x s).bump (TIER_CNT.COUNT 4))
      .next (if x.byCmd then tierDone ST.TIER_FAIL s else s)

/-! Fetches (R221–R224). -/

/-- R234: FETCH makes scheduled entries for a range of layers. One that is being handed over is refused (R230). -/
def execFetch (s : State) : Host.Outcome State Fault Refusal :=
  .next (tierStep 2 (fun b c s =>
    let lo := cmdLayer b
    let n := min (cmdHigh b + 1) (s.conv c).nlayer - lo
    if (s.conv c).nlayer ≤ lo ∨ (s.conv c).nlayer ≤ cmdHigh b then tierDone ST.DIR_NO_RUN s
    else
      let handing := (List.range n).any fun j => tierState s c (lo + j) == 4
      let s := (List.range n).foldl (fun s j =>
        let s := spillCancel c (lo + j) s
        if tierState s c (lo + j) = 2 then
          fetchAdd { conv := c, layer := lo + j, dist := j, att := 2 ^ 63, tenant := (s.conv c).tenant } s else s) s
      tierDone (if handing then ST.TIER_NOT_OWNER else ST.OK) s) s)

def refPool (r : Nat) : Nat := r / 2 ^ 62
def refRecord (r : Nat) : Nat := r / 2 ^ 34 % 2 ^ 24
def refChunk (r : Nat) : Nat := r % 2 ^ 34

/-- What other heads of shared pools have written, as this node finds it. -/
def otherHeads (ws : List (Nat × Bytes)) (s : State) : State :=
  ws.foldl (fun s w =>
    if (List.range 4).any fun p => poolOn s p && poolShared s p && decide (poolBase s p * 4096 ≤ w.1 ∧ w.1 + w.2.length ≤ (poolBase s p + poolSize s p) * 4096 ∧ w.1 % 32 = 0)
    then tierPutBytes w.1 w.2 s else s) s

/-- The header of a folio in the lower case. -/
def tierHdr (s : State) (r : Nat) : Hdr := Hdr.ofBytes (tierPeek s (refChunk r * 4096) 64)

/-- The folios of a run that are in the lower case. -/
def runSpilled (s : State) (c l : Nat) : List Nat := ((runFolios s c l).map (·.2.2)).filter fun f => (s.folio f).state == 3

/-- The pool and record of a spilled run. -/
def runRef (s : State) (c l : Nat) : Nat := (((runSpilled s c l).head?).map fun f => (s.folio f).tierRef).getD 0

/-- Attempts that wait on a run: to place a batch or an append, or with a composition that would be dispatched on it. -/
def waitersOf (s : State) (c l : Nat) : List Nat :=
  let queued := (s.cmp.blocks.flatMap fun e : Nat × BlkSt => e.2.queue).filter fun x =>
    match compRun s x with
    | some (c', l', _) => c' == c && l' == l
    | none => false
  (List.filter (fun e : Nat × Att => (queued.any fun x => x.att == e.1) || (e.2.lateAt.isSome &&
    (List.range (tktNslot e.2.ticket)).any fun i =>
      let x := slotOf e.2.ticket i
      decide (x.layer = l ∧ (e.2.next ≤ i ∨ e.2.apps.any fun y => y.slot = i ∧ y.state < 2)) &&
      ((convRec? s e.2.part (attRole e.2) x.conv).map (·.1)) == some c)) s.col.atts).map (·.1)

def endWaiters (c l st : Nat) (s : State) : State := (waitersOf s c l).foldl (fun s k => failPart k st s) s

def fetchDrop (c l : Nat) (s : State) : State :=
  { s with tier.fetchq := s.tier.fetchq.filter fun e => !(e.conv == c && e.layer == l) }

def fetchMark (c l : Nat) (on : Bool) (places : List (Nat × Nat × Nat)) (s : State) : State :=
  { s with tier.fetchq := s.tier.fetchq.map fun e => if e.conv = c ∧ e.layer = l then { e with moving := on, places := places } else e }

/-- The set of the tail of a run of which a fetch places folios: it stands where the fetch has placed it, if it has. -/
def fetchTail (s : State) (c l f : Nat) (ps : List (Nat × Nat × Nat)) : Option Nat :=
  let run := (hgsOf (s.conv c)).map fun h => s.run (runIx s c l h)
  (run.find? fun r => r.vec.any fun e : Nat × Nat => e.2 == f).bind fun r =>
    (ps.find? fun y => y.1 == r.tail).map fun y => y.2.1 / 2 ^ 22

/-- Take an extent for each folio of a run and copy its stored form; `false` where one finds no space. -/
def placeFetched (part c l : Nat) : List Nat → List (Nat × Nat × Nat) → State → Bool × List (Nat × Nat × Nat) × State
  | [], ps, s => (true, ps, s)
  | f :: rest, ps, s =>
    let e := s.folio f
    let h := tierHdr s e.tierRef
    let n := chunksFor (storedBody h)
    match allocForFolio part n (fetchTail s c l f ps) s with
    | (none, s) => (false, ps, s)
    | (some ch, s) =>
      placeFetched part c l rest (ps ++ [(f, ch, n)]) (copyFromTier (chunkOff ch) (refChunk e.tierRef * 4096) (storedSectors h) part s)

/-- R222, R229: the mover starts the first queued run that is not in transfer. `others` is what other heads of a
shared pool have written there. -/
def execFetchStart (others : List (Nat × Bytes)) (s : State) : Host.Outcome State Fault Refusal :=
  let s := otherHeads others s
  match s.tier.fetchq.find? fun e => !e.moving with
  | none => .next s
  | some e =>
    let r := runRef s e.conv e.layer
    let part := (s.conv e.conv).part
    if s.rd TIER_PF_CFG.MOVE_MAX ≤ (s.tier.fetchq.filter (·.moving)).length then .next s
    else if tierState s e.conv e.layer = 4 then .next (endWaiters e.conv e.layer ST.TIER_NOT_OWNER (fetchDrop e.conv e.layer s))
    else if tierState s e.conv e.layer ≠ 2 then .next (fetchDrop e.conv e.layer s)
    else if ¬ poolUp s (refPool r) then .next s
    else if refRecord r ≠ 0 ∧ ((leaseOf s e.conv e.layer).map (ownsRun s)) ≠ some true then
      .next (endWaiters e.conv e.layer ST.TIER_NOT_OWNER (fetchDrop e.conv e.layer s))
    else if bucketEmpty false part s then .next (stallCmd (.fetchStart []) s)
    else match placeFetched part e.conv e.layer (runSpilled s e.conv e.layer) [] (unstall (.fetchStart []) s) with
      | (true, ps, s) => .next (fetchMark e.conv e.layer true ps (setTier e.conv e.layer 3 s))
      | (false, ps, s) =>
        let s := ps.foldl (fun s y => freeExtent y.2.1 s) s
        .next { s with tier.starved := if s.tier.starved.contains part then s.tier.starved else s.tier.starved ++ [part] }

/-- Tier bytes of a run's stored chunks. -/
def runTierBytes (e : FetchEnt) : Nat := (e.places.map fun y => y.2.2 * 4096).foldl (· + ·) 0

/-- Whether any sector of a run's stored form reads as CXL poison. -/
def runTierPoison (s : State) (fs : List Nat) : Bool :=
  fs.any fun f =>
    let r := (s.folio f).tierRef
    (List.range (storedSectors (tierHdr s r))).any fun i => (tierSector s (refChunk r * 4096 + 32 * i)).isNone

/-- The record of a run is released, or another node has changed it, or this node may not act on it now (R229). -/
inductive Release where
  | done | lost | wait
  deriving DecidableEq, Repr

/-- Give back what a run held in its pool: the chunks of a private pool, or the record of a shared one (R233). -/
def releaseTier (c l : Nat) (refs : List Nat) (s : State) : Release × State :=
  match leaseOf s c l with
  | some e =>
    if ownsRun s e then (.done, dropLease e (s.setOwn e.pool e.record { s.own e.pool e.record with state := 3 }))
    else if recordHeld s e ∨ ¬ timeInBound s then (.wait, s)
    else (.lost, s)
  | none => (.done, refs.foldl (fun s r => tierRelease (refPool r) (refChunk r) s) s)

/-- Charge the bytes of a fetch: to the slot's tenant of the ream it was made for, or, for a FETCH command, with the
conversation's spills (DESIGN CHOICE). -/
def chargeFetch (e : FetchEnt) (s : State) : State :=
  let n := runTierBytes e
  if e.att = 2 ^ 63 then chargeSpill e.conv (s.conv e.conv).part n s else chargeAtt e.att e.tenant .tier n false s

/-- R222: every folio of a run in transfer has been placed. A read that returned poison is FETCH_FAIL's. The release of a record
waits while this node may not act as owner, and a node that has lost the run drops it (R227, R229). -/
def execFetchComplete (conv layer : Nat) (s : State) : Host.Outcome State Fault Refusal :=
  match s.tier.fetchq.find? fun e => e.moving && e.conv == conv && e.layer == layer with
  | none => .next s
  | some e =>
    let fs := runSpilled s conv layer
    if runTierPoison s fs then .next s
    else match releaseTier conv layer (fs.map fun f => (s.folio f).tierRef) s with
      | (.wait, s) => .next s
      | (.lost, s) => .next (casLost (leaseOf s conv layer) (endWaiters conv layer ST.TIER_NOT_OWNER s))
      | (.done, s) =>
        let s := e.places.foldl (fun s y => s.setFolio y.1 { s.folio y.1 with chunk := y.2.1, nchunk := y.2.2, state := 1, tierRef := 0 }) s
        .next ((chargeFetch e (setTier conv layer 0 (fetchDrop conv layer s))).bump (TIER_CNT.COUNT 1))

/-- Free the extents that a fetch had taken. -/
def undoFetch (c l : Nat) (s : State) : State := fetchMark c l false [] (setTier c l 2 (undoPlaces c l s))

/-- The tier offset at which a run in a pool first meets a port. -/
def runOffsetAt (s : State) (c l port : Nat) : Nat :=
  let offs := (runSpilled s c l).flatMap fun f =>
    let r := (s.folio f).tierRef
    (List.range (ceilDiv (32 * storedSectors (tierHdr s r)) 4096)).map fun i => (refPool r, refChunk r * 4096 + 4096 * i)
  ((offs.find? fun o => ((tierPlace s o.1 o.2).map (·.1)) == some port).map (·.2)).getD 0

/-- A fetch of a run stops, and is retried (R224). -/
def stopFetch (c l : Nat) (s : State) : State :=
  endWaiters c l ST.TIER_FAIL ((undoFetch c l s).bump (TIER_CNT.COUNT 4))

/-- R224: a fetch fails with a kind of TIER_ERR_LOG1 at a tier offset, which stops every fetch of its pool that is under way. -/
def failFetch (conv layer kind off : Nat) (s : State) : State :=
  match s.tier.fetchq.find? fun e => e.conv == conv && e.layer == layer with
  | none => s
  | some e =>
    if kind = 0 ∨ 4 < kind ∨ (¬ e.moving ∧ kind < 3) then s
    else
      let pool := refPool (runRef s conv layer)
      let others := s.tier.fetchq.filter fun x => x.moving && !(x.conv == conv && x.layer == layer) && refPool (runRef s x.conv x.layer) == pool
      let s := tierLog kind pool off s
      let s := if e.moving then stopFetch conv layer s else endWaiters conv layer ST.TIER_FAIL (s.bump (TIER_CNT.COUNT 4))
      others.foldl (fun s x => stopFetch x.conv x.layer s) s

def execFetchFail (conv layer kind off : Nat) (s : State) : Host.Outcome State Fault Refusal := .next (failFetch conv layer kind off s)

/-- Whether an attempt still waits on a run that is not resident. -/
def stillLate (s : State) (k : Nat) : Bool :=
  s.col.atts.any fun e => e.1 == k && (List.range (tktNslot e.2.ticket)).any fun i =>
    let x := slotOf e.2.ticket i
    decide (e.2.next ≤ i ∨ e.2.apps.any fun y => y.slot = i ∧ y.state < 2) &&
    (match convRec? s e.2.part (attRole e.2) x.conv with
     | some (c, _) => decide (2 ≤ tierState s c x.layer)
     | none => false)

/-- R223: a ream has waited one microsecond past LIMIT_US. -/
def execTierLateExpire (part ream pos : Nat) (audit : Bool) (s : State) : Host.Outcome State Fault Refusal :=
  let k := attKey part ream pos audit
  match (s.att? k).bind (·.lateAt) with
  | none => .next s
  | some t =>
    if stillLate s k ∧ t + (s.rd TIER_LATE_CFG.LIMIT_US + 1) * 1000 ≤ s.now then
      .next (failPart k ST.TIER_LATE (s.bump (TIER_CNT.COUNT 3)))
    else .next s

/-! Ownership (R225–R233). `reach` says whether the pool answers. -/

/-- R230: HAND_OFF. -/
def execHandOff (reach : Bool) (s : State) : Host.Outcome State Fault Refusal :=
  .next (tierStep 3 (fun b c s =>
    let l := cmdLayer b
    if (s.conv c).nlayer ≤ l then tierDone ST.DIR_NO_RUN s
    else if tierState s c l ≠ 2 ∨ s.tier.fetchq.any fun e => e.conv == c && e.layer == l then tierDone ST.TIER_BUSY s
    else match leaseOf s c l with
      | none => tierDone ST.TIER_NOT_OWNER s
      | some e =>
        if ¬ reach then tierDone ST.TIER_FAIL s
        else if ¬ ownsRun s e then tierDone ST.TIER_NOT_OWNER s
        else tierDone ST.OK (setTier c l 4 (s.setOwn e.pool e.record { s.own e.pool e.record with state := 2, succ := cmdHigh b }))) s)

/-- Build a run from its frame (R230, step 4): `none` where folio IDs or leaf blocks run out. -/
def buildRun (c pool record t : Nat) (s : State) : Option State :=
  let r := s.conv c
  let l := (frameAt s t).layer
  let s := (hgsOf r).foldl (fun s h =>
    let i := runIx s c l h
    s.setRunRec i { s.run i with tier := 2, lastStep := 0, lastAccess := 0 }) s
  (frameEnts s t).foldl (fun (o : Option State) e =>
    o.bind fun s =>
      (takeFolioId s).bind fun (f, s) =>
        let i := runIx s c l e.2.1
        let fl := e.2.2.2.1
        let s := s.setFolio f { state := 3, refs := 1, part := r.part, sealed := r.sealed, closed := bitOf fl 1, kerned := bitOf fl 0,
                                tierRef := tierRefOf pool record (e.2.2.2.2 / 4096) }
        let (st, s) := vecPut i ((e.1 - r.posLo) / spanOf s c) f s
        if st ≠ ST.OK then none
        else some (if bitOf fl 2 then s.setRunRec i { s.run i with tail := f } else s)) (some s)

/-- A record changes hands to this node, which builds the run (R226, R230, R232). -/
def takeRecord (b : Bytes) (c : Nat) (may : OwnRec → Bool) (reach : Bool) (s : State) : State :=
  let arg := leAt b 0x18 4
  let pool := arg / 2 ^ 24
  let n := arg % 2 ^ 24
  let o := s.own pool n
  let fr := frameAt s o.frame
  let r := s.conv c
  if ¬ reach ∨ ¬ poolOn s pool ∨ ¬ poolShared s pool then tierDone ST.TIER_FAIL s
  else if ¬ (fr.conv = r.conv ∧ fr.part = r.part ∧ fr.desc = r.desc ∧ fr.sealed = r.sealed ∧ fr.slot = r.keySlot ∧ fr.layer < r.nlayer) then
    tierDone ST.SHARE_MISMATCH s
  else if 65536 ≤ s.tier.leases.length then tierDone ST.TIER_BUSY s
  else if ¬ may o ∨ o.epoch = 0xFFFFFFFF then tierDone ST.STALE_EPOCH (casLost none s)
  else match buildRun c pool n o.frame s with
    | none => tierDone ST.FOLIO_TBL_FULL (tableFatal (idPoison s || leafPoison s) s)
    | some s =>
      let o := { o with state := 1, owner := nodeId s, succ := 0xFFFF, epoch := o.epoch + 1, lease := fabTime s + leaseNs s }
      tierDone ST.OK { s.setOwn pool n o with
        tier.leases := s.tier.leases ++ [{ pool := pool, record := n, conv := c, layer := fr.layer, epoch := o.epoch, lease := o.lease }] }

/-- R230: CLAIM by the named successor. A node whose time is out of bound attempts none (R229). -/
def execClaim (reach : Bool) (others : List (Nat × Bytes)) (s : State) : Host.Outcome State Fault Refusal :=
  let s := otherHeads others s
  if ¬ timeInBound s then .next s
  else .next (tierStep 4 (fun b c s => takeRecord b c (fun o => o.state == 2 && o.succ == nodeId s) reach s) s)

/-- R232: TAKEOVER of a held record whose lease ran out one lease ago. -/
def execTakeover (reach : Bool) (others : List (Nat × Bytes)) (s : State) : Host.Outcome State Fault Refusal :=
  let s := otherHeads others s
  if ¬ timeInBound s then .next s
  else .next (tierStep 5 (fun b c s =>
    let s' := takeRecord b c (fun o => o.state == 1 && decide (o.lease + leaseNs s ≤ fabTime s)) reach s
    if s'.rd TIER_CMD_STS.STATUS = ST.OK then s'.bump (TIER_CNT.COUNT 7) else s') s)

/-- The next try after one that found the pool out of reach comes 100 µs later (R228, R231). -/
def retryDue (s : State) (e : LeaseEnt) : Bool :=
  match e.tried with
  | some t => decide (t + 100000 ≤ fabTime s)
  | none => true

def leaseTried (e : LeaseEnt) (s : State) : State :=
  { s with tier.leases := s.tier.leases.map fun x => if x = e then { x with tried := some (fabTime s) } else x }

/-- R228: the owner renews the record of a run at LEASE_END − lease ÷ 2; a failed renewal is tried again. -/
def execLeaseRenew (conv layer : Nat) (reach : Bool) (s : State) : Host.Outcome State Fault Refusal :=
  match leaseOf s conv layer with
  | none => .next s
  | some e =>
    let o := s.own e.pool e.record
    if fabTime s + leaseNs s / 2 < e.lease ∨ ¬ retryDue s e ∨ (o.state = 2 ∧ o.owner = nodeId s ∧ o.epoch = e.epoch) then .next s
    else if ¬ reach then .next (leaseTried e s)
    else if o.state = 1 ∧ o.owner = nodeId s ∧ o.epoch = e.epoch then
      let till := fabTime s + leaseNs s
      .next { s.setOwn e.pool e.record { o with lease := till } with
        tier.leases := s.tier.leases.map fun x => if x = e then { x with lease := till, tried := none } else x }
    else .next (casLost (some e) s)

/-- R231: the previous owner reverts a record that is still handing at LEASE_END. Of a record whose EPOCH is at its last value the
revert fails, and nothing else changes (R226). -/
def execLeaseRevert (conv layer : Nat) (reach : Bool) (s : State) : Host.Outcome State Fault Refusal :=
  match leaseOf s conv layer with
  | none => .next s
  | some e =>
    let o := s.own e.pool e.record
    if ¬ timeInBound s ∨ tierState s conv layer ≠ 4 ∨ fabTime s < e.lease ∨ ¬ retryDue s e then .next s
    else if ¬ reach then .next (leaseTried e s)
    else if o.state = 2 ∧ o.owner = nodeId s ∧ o.epoch = e.epoch ∧ o.epoch = 0xFFFFFFFF then .next (casLost none (leaseTried e s))
    else if o.state = 2 ∧ o.owner = nodeId s ∧ o.epoch = e.epoch then
      let till := fabTime s + leaseNs s
      let s := s.setOwn e.pool e.record { o with state := 1, succ := 0xFFFF, epoch := o.epoch + 1, lease := till }
      let s := { s with tier.leases := s.tier.leases.map fun x => if x = e then { x with lease := till, epoch := e.epoch + 1, tried := none } else x }
      .next ((setTier conv layer 2 s).bump (TIER_CNT.COUNT 7))
    else .next (casLost (some e) s)

/-- R233: the home-bay node sweeps its record tables every 10 ms. -/
def execRecordSweep (s : State) : Host.Outcome State Fault Refusal :=
  if s.now < s.tier.sweptAt + 10000000 then .next s
  else
    let mine := List.filter (fun e : Nat × OwnRec =>
      let p := e.1 / 2 ^ 24
      e.2.state == 3 && poolOn s p && poolShared s p && poolUp s p && e.2.home == bayOf s p &&
      e.1 % 2 ^ 24 / 2 ^ recLog2 s p == bayOf s p) s.tier.records
    .next (mine.foldl (fun s e =>
      (freeFrame (e.1 / 2 ^ 24) e.2.frame s).setOwn (e.1 / 2 ^ 24) (e.1 % 2 ^ 24) { e.2 with state := 0 }) { s with tier.sweptAt := s.now })

/-- R225: another head of a shared pool has taken a record's line exclusive and changed the record; the snoop filter
back-invalidates this head's copy, and the next look finds the record as it is now. -/
def execBackInvalidateSnoop (pool record : Nat) (now : OwnRec) (s : State) : Host.Outcome State Fault Refusal :=
  if pool < 4 ∧ poolOn s pool ∧ poolShared s pool ∧ record < 2 ^ 24 then .next (s.setOwn pool record now) else .next s

/-! The end of CONV_CLOSE (R184). -/

/-- Let go of a run that is spilled, being spilled or being fetched: the chunks of the folios that the close frees, or, where it
frees all of them, the record (R233). DESIGN CHOICE: a record whose run still holds a folio of another conversation stays held. -/
def closeTier (c l : Nat) (s : State) : State :=
  let s := spillCancel c l s
  let s := fetchDrop c l (if tierState s c l = 3 then undoFetch c l s else s)
  let fs := runSpilled s c l
  let freed := fs.filter fun f => decide ((s.folio f).refs ≤ 1)
  match leaseOf s c l with
  | some e =>
    if freed.length < fs.length then s
    else match releaseTier c l [] s with
      | (.done, s) => s
      | (.lost, s) => dropLease e (s.bump (TIER_CNT.COUNT 6))
      | (.wait, s) => dropLease e s
  | none => (releaseTier c l (freed.map fun f => (s.folio f).tierRef) s).2

/-- Free the leaf blocks of a run record; they keep what they hold (R182). -/
def freeLeaves (i : Nat) (s : State) : State :=
  { s with flo.leafFreed := (s.run i).leaf.map (·.2) ++ s.flo.leafFreed }

/-- Chunks of the upper case that a conversation's last references hold. -/
def convChunks (s : State) (c : Nat) : Nat :=
  (((runsOf s c).flatMap fun i => (s.run i).vec.map (·.2)).map fun f =>
    if (s.folio f).refs ≤ 1 ∧ (s.folio f).tierRef = 0 then (s.folio f).nchunk else 0).foldl (· + ·) 0

/-- R184: INFLIGHT has reached 0, and the closed conversation's folios, leaf blocks and record are let go. -/
def execConvCloseComplete (s : State) : Host.Outcome State Fault Refusal :=
  match s.flo.closing with
  | none => .next s
  | some (src, c) =>
    let r := s.conv c
    if r.inflight ≠ 0 then .next s
    else
      let s := (List.range r.nlayer).foldl (fun s l => closeTier c l s) s
      let n := convChunks s c
      let s := (runsOf s c).foldl (fun s i =>
        let s := List.foldl (fun s (e : Nat × Nat) => dropRef e.2 s) s (s.run i).vec
        freeLeaves i s) s
      let s := acctRecord { ty := 2, part := r.part, tenant := r.tenant, delta := -(n : Int), conv := r.conv }
        ((KMap.find? s.rea.spill c).getD {}) s
      let s := { s.setConv c { r with state := 0 } with flo.closing := none, rea.spill := KMap.erase s.rea.spill c }
      .next (floNext (floDone src ST.OK [] s))

end Sys2Proof.Machine
end

