-- ==== Sys2Proof/Machine/Access.lean ====
section
/-!
DEFINITION. Accesses to the register space (R6, R401, R465–R472): a read with its latch, and a write that acts on each field
by its type. A write that starts a command does what the command's own row does.
-/
namespace Sys2Proof.Machine

def after (o : Host.Outcome State Fault Refusal) (s : State) : State :=
  match o with
  | .next t => t
  | _ => s

/-- A requester on the host link. -/
def isHost : Requester → Bool
  | .pf => true
  | .vf _ => true
  | _ => false

/-- Whether a requester can reach the register space now: none while the node is held in reset (Table 21.3). -/
def canAccess (who : Requester) (s : State) : Bool :=
  !nodeHeld s && match who with
    | .rsp => rspRuns s
    | .mgt => mgtRuns s
    | _ => true

/-- A host access wakes a node in KEEP (Table 21.3). -/
def accessWake (who : Requester) (s : State) : State := if isHost who ∧ s.rd PCM_STATE.NODE = 3 then wakeUp s else s

/-! Reads (R466, R467, R470). -/

/-- The latch of a requester for the high word of the register at an address. -/
def latchKey (who : Requester) (a : Nat) : Nat := whoIx who * 2 ^ 26 + a

/-- A 4-byte read: a low word of a 64-bit register latches the high word, and the next read of the high word gives it. -/
def read4 (who : Requester) (a : Nat) (w : Win) (unit off : Nat) (s : State) : Nat × State :=
  let v := wordRead s (whoIx who) unit w off
  match regAt w off with
  | some (base, true) =>
    if off = base then (v, { s with latch := KMap.insert s.latch (latchKey who (a + 4)) (wordRead s (whoIx who) unit w (off + 4)) })
    else match KMap.find? s.latch (latchKey who a) with
      | some x => (x, { s with latch := KMap.erase s.latch (latchKey who a) })
      | none => (v, s)
  | _ => (v, s)

/-- A read of a width at an address; one that is not carried out gives zero. -/
def regRead (who : Requester) (a len : Nat) (s : State) : Nat × State :=
  match windowAt a with
  | none => (0, s)
  | some (w, unit, off) =>
    if winBusy s w unit ∨ ¬ [1, 2, 4, 8].contains len ∨ a % len ≠ 0 then (0, s)
    else if len = 8 then
      match regAt w off with
      | some (base, true) => if off = base then (regValue s (whoIx who) unit w off, s) else (0, s)
      | _ => (0, s)
    else if len = 4 then read4 who a w unit off s
    else (bits (wordRead s (whoIx who) unit w (off / 4 * 4)) (8 * (off % 4)) (8 * len), s)

/-- R467: a read, by which a low word latches its high word. A read of a region in DOZE does not wake it. -/
def execLowWordRead (who : Requester) (off len : Nat) (s : State) : Host.Outcome State Fault Refusal :=
  match reachAddr who off with
  | none => .next s
  | some a =>
    if ¬ canAccess who s ∧ ¬ (isHost who ∧ s.rd PCM_STATE.NODE = 3) then .next s
    else
      let (v, s) := regRead who a len (accessWake who s)
      .next (s.emit (.regRead who off v))

/-! Writes that start a command. -/

/-- The record in a unit's data registers. -/
def dataRecord (f : Nat → Fld) (n : Nat) (s : State) : Bytes := (List.range n).flatMap fun k => natLe 4 (s.rd (f k))

/-- A write of GO: a record is submitted, and while one runs the write is ignored and sets ERR. -/
def goWrite (busy err : Fld) (v : Nat) (go : State → State) (s : State) : State :=
  if ¬ bitOf v 0 then s else if s.flag busy then s.wr err 0 1 else go (s.wr busy 0 1)

/-- A write of STK_CMD. DESIGN CHOICE: where ABORT meets the running command is a free value. -/
def stkCmdWrite (k v : Nat) (s : State) : State :=
  let op := bits v 0 4
  if op = 1 then after (execFill k s) s
  else if op = 2 then after (execZeroize k (bits v 8 8) s) s
  else if op = 15 then after (execStkCmdAbort k s.draw s.drawn) s
  else after (execStkCmdInvalid k op s) s

def galInvWrite (r v : Nat) (s : State) : State :=
  let op := bits v 28 4
  if s.flag GAL_INV_STS.BUSY r then s
  else if op = 1 then after (execGalInvAll r s) s
  else if op = 2 then after (execGalInvPart r (bits v 12 5) s) s
  else if op = 3 then after (execGalInvKeySlot r (bits v 0 12) s) s else s

def galWayWrite (r v : Nat) (s : State) : State :=
  let s := (List.range 16).foldl (fun s w => if bitOf (s.rd GAL_WAY_EN.EN r) w ∧ ¬ bitOf v w then galWayOff r w s else s) s
  s.wr GAL_WAY_EN.EN r v

def cwdWrite (v : Nat) (s : State) : State :=
  let op := bits v 28 4
  let width := bits v 26 2
  let banks := bits v 18 8
  let pos := bits v 0 15
  if op = 1 then after (execCwdSearch width banks pos [] s) s
  else if op = 2 then after (execCwdInsert width (banks % 8) s) s
  else if op = 3 then after (execCwdInsertOrdered width (banks % 8) pos s) s
  else if op = 4 then after (execCwdDelete (banks % 8) pos s) s
  else if op = 5 then after (execCwdRead (banks % 8) pos false s) s else s

def gclWrite (code v : Nat) (s : State) : State :=
  let s := if bitOf v 0 then gclGo code s else s
  if bitOf v 1 then after (execGclCancel code s) s else s

/-- LOAD takes the container from host memory, and has a row of its own that brings it. -/
def formeCtlWrite (v : Nat) (s : State) : State :=
  let op := bits v 28 4
  if op = 2 then formeGo s else if op = 3 then formeCancel s else if op = 4 then after (execEnable s) s else s

def fenceWrite (v : Nat) (s : State) : State :=
  let k := bits v 30 2
  let t := bits v 0 5
  if k = 1 then fencePart t s else if k = 2 then after (execRegionFence t s) s else if k = 3 then fenceNode 4 s else s

def rstWrite (v : Nat) (s : State) : State :=
  if rstCmd 1 v then coldReset 1 true [] s
  else if rstCmd 2 v then warmReset 1 [] s
  else if rstCmd 3 v then nodeReset 1 s
  else if rstCmd 4 v then regionReset (bits v 0 2) 1 s else s

def stateWrite (v : Nat) (s : State) : State :=
  if bits v 0 4 = 1 then keepCmd s else if bits v 0 4 = 2 then wakeUp s else s

/-- A write to a register that starts a command; `none` for any other register. -/
def commandWrite (who : Requester) (w : Win) (unit off v : Nat) (s : State) : Option State :=
  let code := 2 * s.rd FAB_PSEL.PORT (whoIx who) + s.rd FAB_PSEL.HALF (whoIx who)
  match w, off with
  | .gut, 0xC => some (after (execArbCommit who v s) s)
  | .stk, 0x44 => some (if bitOf v 31 then after (execRemapInstall unit v s) s else after (execRemapRemove unit v s) s)
  | .stk, 0x60 => some (stkCmdWrite unit v s)
  | .plt, 0x48 => some (after (execPltResInj unit v s) s)
  | .cmp, 0x1C => some (cmpInject unit v s)
  | .gal, 0x14 => some (galWayWrite unit v s)
  | .gal, 0x18 => some (galInvWrite unit v s)
  | .flo, 0x80 => some (goWrite FLO_CMD_STS.BUSY FLO_CMD_STS.ERR v (fun s => floSubmit .reg (dataRecord FLO_CMD_DATA.DATA 16 s) s) s)
  | .cwd, 0x70 => some (cwdWrite v s)
  | .ream, 0x34 => some (after (execReamCommit v s) s)
  | .tier, 0xC0 => some (goWrite TIER_CMD_STS.BUSY TIER_CMD_STS.ERR v (fun s => tierSubmit (dataRecord TIER_CMD_DATA.DATA 16 s) s) s)
  | .fab, 0xC => some (if bitOf v 3 then after (execFlapDisClear code s) s else s)
  | .fab, 0x50 => some (if bitOf v 0 then after (execRtCommit s) s else s)
  | .fab, 0x84 => some (gclWrite code v s)
  | .rch, 0x80 => some (goWrite RCH_CMD_STS.BUSY RCH_CMD_STS.ERR v (fun s => rchSubmit .reg (dataRecord RCH_CMD_DATA.DATA 16 s) s) s)
  | .col, 0x80 => some (goWrite COL_CMD_STS.BUSY COL_CMD_STS.ERR v
      (fun s => colSubmit .reg (dataRecord COL_CMD_DATA.DATA 16 s) (dataRecord COL_SIG_STAGE.DATA 144 s) s) s)
  | .hst, 0xC => some (prtRst v s)
  | .rsp, 0x88 => some (after (execRspKeyRetire who v s) s)
  | .rsp, 0xAC => some (after (execAlarmTest v s) s)
  | .rsp, 0xB4 => some (after (execZeroizeConfirm v s) s)
  | .rsp, 0x100 => some (formeCtlWrite v s)
  | .ras, 0xC => some (fenceWrite v s)
  | .ras, 0x10 => some (liftFences v s)
  | .ras, 0xE8 => some (unmaskInputs v s)
  | .ras, 0x140 => some (goWrite RAS_CMD_STS.BUSY RAS_CMD_STS.ERR v id s)
  | .pcm, 0x4 => some (stateWrite v s)
  | .pcm, 0x20 => some (rstWrite v s)
  | .prt, o =>
    if 0x1000 ≤ o ∧ o < 0x1040 then
      some (if o % 8 = 0 then sqDoorbell unit ((o - 0x1000) / 8) v s else cqDoorbell unit ((o - 0x1000) / 8) v s)
    else if 0x100 ≤ o ∧ o < 0x200 ∧ o % 0x20 = 8 then some (sqConfig unit ((o - 0x100) / 0x20) v s)
    else if 0x100 ≤ o ∧ o < 0x200 ∧ o % 0x20 = 0x18 then some (cqConfig unit ((o - 0x100) / 0x20) v s)
    else none
  | _, _ => none

/-! Writes to fields (R6, R469). -/

/-- Pairs of fields that a write may not put in the wrong order: window, offset, and the lowest bits and width of both.
The first must stay below the second, or at most reach it. -/
def pairRules : List (Win × Nat × Nat × Nat × Nat × Bool) :=
  [(.tier, 0x50, 8, 16, 8, true), (.fab, 0x10, 16, 24, 8, true), (.fab, 0x64, 0, 16, 16, false), (.rch, 0x4, 0, 16, 16, true)]

/-- A field of a pair that the written value would put in the wrong order. -/
def pairBad (f : Fld) (v : Nat) : Bool :=
  pairRules.any fun r =>
    let (w, off, lo, hi, wd, strict) := r
    f.win == w && f.off == off && (f.lo == lo || f.lo == hi) &&
      (if strict then decide (bits v hi wd ≤ bits v lo wd) else decide (bits v hi wd < bits v lo wd))

/-- A field that takes no write in the present state: an absent requester's priority, a ring's base while it is enabled, the
size of the accounting ring while it is enabled, and the administrative gate list while a switchover is armed. -/
def fieldLocked (f : Fld) (i : Nat) (s : State) : Bool :=
  match f.win with
  | .gut => decide (0x10 ≤ f.off ∧ f.off < 0x30 ∧ arbReqs i ≤ (f.off - 0x10) / 4 * 8 + f.lo / 4)
  | .ream => f.off == 0x58 && f.lo == 0 && s.flag REAM_ACCT_CFG.EN
  | .fab => decide (f.off = 0x80 ∨ (0x90 ≤ f.off ∧ f.off < 0xA8) ∨ (0x400 ≤ f.off ∧ f.off < 0x800)) && s.flag FAB_GCL_STS.PEND i
  | .prt =>
    if 0x100 ≤ f.off ∧ f.off < 0x200 then
      if f.off % 0x20 = 0 then s.flag (HST_SQ_CFG.EN ((f.off - 0x100) / 0x20)) i
      else if f.off % 0x20 = 0x10 then s.flag (HST_CQ_CFG.EN ((f.off - 0x100) / 0x20)) i else false
    else false
  | _ => false

/-- What a write does to a field: `v` is the register as written, `m` says which of its bits the write covers. -/
def fieldWrite (v m i : Nat) (f : Fld) (s : State) : State :=
  let old := s.rd f i
  let mine := bits m f.lo f.wd
  let nv := (old &&& ((2 ^ f.wd - 1) ^^^ mine)) ||| (bits v f.lo f.wd &&& mine)
  match f.ty with
  | .rw => if mine = 0 ∨ ¬ fldOk f nv ∨ pairBad f v then s else s.wr f i nv
  | .w1c => s.wr f i (andNot old (bits v f.lo f.wd &&& mine) f.wd)
  | .w1cCount => if mine = 2 ^ f.wd - 1 ∧ bits v f.lo f.wd = 2 ^ f.wd - 1 then s.wr f i 0 else s
  | _ => s

/-- Whether a write would change an RWL field (R401, R469). -/
def quoinHit (v m i : Nat) (f : Fld) (s : State) : Bool :=
  let mine := bits m f.lo f.wd
  f.ty == .rwl && decide ((s.rd f i &&& mine) ≠ (bits v f.lo f.wd &&& mine))

/-- R401: the violation is counted and logged, and an informational record is raised. -/
def quoinViolation (a : Nat) (s : State) : State :=
  report .chip { sev := 0, subsys := 17, cause := Config.causeCode 112 }
    ((s.bump RSP_QUOIN_VIOL_CNT.COUNT).wr RSP_QUOIN_VIOL_LOG.ADDR 0 a)

/-- What stands before a write to some registers takes effect: the tokens of a shaper, and the buckets of a meter, as they are when
its configuration changes (R259, R260). -/
def beforeWrite (w : Win) (base i : Nat) (s : State) : State :=
  match w with
  | .fab =>
    if 0x30 ≤ base ∧ base < 0x50 then settleShaper i ((base - 0x30) / 4) s
    else if base = 0x64 ∨ base = 0x68 then settleMeter i s else s
  | _ => s

/-- What follows from a write to some registers: counts of lost records clear with their flags, a fence is lifted, a port held down
starts again when its configuration is written, a word of TIME_SET is loaded, and requests that a regulator held may pass. -/
def afterWrite (w : Win) (unit base i v m : Nat) (s : State) : State :=
  match w with
  | .cmp =>
    if base = 0x50 then
      let s := if bitOf v 0 then s.wr CMP_ERRQ_STS.CELL_LOST unit 0 else s
      if bitOf v 1 then s.wr CMP_ERRQ_STS.BLK_LOST unit 0 else s
    else if base = 0x8 ∧ bitOf v 1 then unfence unit s else s
  | .ras =>
    if 0x20 ≤ base ∧ base < 0x34 ∧ bitOf v 1 then s.wr (RAS_QSTS.LOST ((base - 0x20) / 4)) 0 0
    else if base = 0x48 ∧ bitOf v 31 then s.wr RAS_LOG_STS.LOST 0 0
    else if base = 0x8 ∧ bitOf v 0 then after (execAdmit s) s else s
  | .fab =>
    if base = 0x8 ∧ s.rd FAB_PORT_STS.STATE i = 5 ∧ s.flag FAB_PORT_CFG.EN i ∧ ¬ s.flag FAB_PORT_STS.FLAP_DIS i then portSet i 1 0 s else s
  | .time => if base = 0x18 then after (execTimeSet (andNot (s.rd TIME_NOW.NS) m 64 ||| v) s) s else s
  | .ream => if base = 0x48 ∨ base = 0x4C then regServe s else s
  | _ => s

/-- A write of `len` bytes at a register of a window: command registers do what they command, FLO_CFG ignores whole a write
with a field out of range, and in any other register each field acts by its type. -/
def regWrite (who : Requester) (a : Nat) (w : Win) (unit off len value : Nat) (s : State) : State :=
  match regAt w off with
  | none => s
  | some (base, wide) =>
    if len = 8 ∧ ¬ (wide ∧ off = base) then s
    else match commandWrite who w unit off (value % 2 ^ 32) s with
    | some t => t
    | none =>
      let v := value % 2 ^ (8 * len) * 2 ^ (8 * (off - base))
      let m := (2 ^ (8 * len) - 1) * 2 ^ (8 * (off - base))
      let fs := (fieldsAt w base).filter fun f => f.off == base
      let inst := fun f => instOf s (whoIx who) unit f
      let s1 := if who ≠ .rsp ∧ (fs.any fun f => quoinHit v m (inst f) f s) then quoinViolation a s else s
      if w = .flo ∧ base = 0 ∧ ¬ (fs.all fun f => fldOk f (bits v f.lo f.wd)) then s1
      else
        let i := (fs.head?.map inst).getD 0
        let free := fs.filter fun f => f.ty != .rw || !fieldLocked f (inst f) s
        afterWrite w unit base i v m (free.foldl (fun s f => fieldWrite v m (inst f) f s) (beforeWrite w base i s1))

/-- A write to the windows of a region in DOZE wakes it first (Table 21.3). -/
def dozeWake (w : Win) (unit : Nat) (s : State) : State :=
  let r := (winRegion w unit).getD 0
  if (w = .cmp ∨ w = .gal) ∧ regionDozes s r then regionUp r s else s

/-- R465–R472: a write of 4 or 8 bytes. The management controller writes no register. -/
def execRegisterWrite (who : Requester) (off len value : Nat) (s : State) : Host.Outcome State Fault Refusal :=
  match reachAddr who off with
  | none => .next s
  | some a =>
    if who = .mgt ∨ (¬ canAccess who s ∧ ¬ (isHost who ∧ s.rd PCM_STATE.NODE = 3)) then .next s
    else
      let s := accessWake who s
      match windowAt a with
      | none => .next s
      | some (w, unit, o) =>
        if (len ≠ 4 ∧ len ≠ 8) ∨ a % len ≠ 0 ∨ winBusy s w unit then .next s
        else .next (regWrite who a w unit o len value (dozeWake w unit s))

end Sys2Proof.Machine
end

