-- ==== Sys2Proof/Machine/Devices.lean ====
section
/-!
DEFINITION. The links of the tier ports (R214, R224), and the CXL device mailbox of the host link (R311).
-/
namespace Sys2Proof.Machine

/-- The rate of a tier port's mode, in GT/s (Table 10.1). -/
def tierRate (s : State) (p : Nat) : Nat := if s.rd (TIER_PORT_CFG.MODE p) = 0 then 64 else 32

/-- R214: a link trains on an enabled port out of reset; one narrower or slower than its mode is degraded. -/
def execTierLinkUp (port speed width : Nat) (s : State) : Host.Outcome State Fault Refusal :=
  if 4 ≤ port ∨ nodeHeld s ∨ ¬ s.flag (TIER_PORT_CFG.EN port) ∨ ¬ bitOf s.pcm.tierPerst port ∨ s.flag (TIER_PORT_STS.UP port) ∨
      width = 0 ∨ 16 < width ∨ speed = 0 ∨ tierRate s port < speed then .next s
  else
    let s := (s.wr (TIER_PORT_STS.SPEED port) 0 speed).wr (TIER_PORT_STS.WIDTH port) 0 width
    .next ((s.wr (TIER_PORT_STS.DEGRADED port) 0 (b2n (decide (width < 16 ∨ speed < tierRate s port)))).wr (TIER_PORT_STS.UP port) 0 1)

/-- R224: every transfer from the pool that the port serves fails. -/
def execTierLinkDown (port : Nat) (s : State) : Host.Outcome State Fault Refusal :=
  if 4 ≤ port ∨ ¬ s.flag (TIER_PORT_STS.UP port) then .next s
  else
    let s := ((s.wr (TIER_PORT_STS.UP port) 0 0).wr (TIER_PORT_STS.SPEED port) 0 0).wr (TIER_PORT_STS.WIDTH port) 0 0
    let s := (s.wr (TIER_PORT_STS.DEGRADED port) 0 0).setIde (1 + port) { s.ide (1 + port) with go := false }
    let pool := s.rd (TIER_PORT_CFG.POOL port)
    match s.tier.fetchq.find? fun e => e.moving && refPool (runRef s e.conv e.layer) == pool with
    | none => .next s
    | some e => .next (failFetch e.conv e.layer 3 (runOffsetAt s e.conv e.layer port) s)

/-- R311: the identify and health-information commands are answered, and no other. -/
def execCxlMailboxCommand (opcode : Nat) (s : State) : Host.Outcome State Fault Refusal :=
  if ¬ s.flag HST_LINK_STS.UP ∨ hostStopped s ∨ s.rd HST_LINK_STS.CXL = 0 then .next s
  else
    let b := if opcode = 0x4000 then natLe 2 0 ++ Config.cxlIdentify else if opcode = 0x4200 then natLe 2 0 ++ Config.cxlHealth s.draw else natLe 2 0x15
    .next ({ s.drawn with hst.mbox := b }.emit (.mboxAnswer b))

end Sys2Proof.Machine
end

