-- ==== Sys2Proof/Machine/Dispatch.lean ====
section
/-!
DEFINITION. The dispatch: one arm for each command.
-/
namespace Sys2Proof.Machine

def exec (i : Instr) (s : State) : Host.Outcome State Fault Refusal :=
  match i with
  | .gutterTransfer src dst xfer credits => Sys2Proof.Machine.execGutterTransfer src dst xfer credits s
  | .gutterRequest part bytes target write => Sys2Proof.Machine.execGutterRequest part bytes target write s
  | .arbitrationPhase arb cycles reqs => Sys2Proof.Machine.execArbitrationPhase arb cycles reqs s
  | .withdraw arb reqs => Sys2Proof.Machine.execWithdraw arb reqs s
  | .starvationReport arb req => Sys2Proof.Machine.execStarvationReport arb req s
  | .arbCommit who value => Sys2Proof.Machine.execArbCommit who value s
  | .arbCommitApply arb => Sys2Proof.Machine.execArbCommitApply arb s
  | .kernEncode => Sys2Proof.Machine.execKernEncode s
  | .kernEncodeDone folio => Sys2Proof.Machine.execKernEncodeDone folio s
  | .stackRead part off len crcFails upsets => Sys2Proof.Machine.execStackRead part off len crcFails upsets s
  | .stackWrite part off data poison crcFails => Sys2Proof.Machine.execStackWrite part off data poison crcFails s
  | .patrolScrubRow stack upsets => Sys2Proof.Machine.execPatrolScrubRow stack upsets s
  | .remapInstall stack value => Sys2Proof.Machine.execRemapInstall stack value s
  | .remapCopyDone stack => Sys2Proof.Machine.execRemapCopyDone stack s
  | .remapRemove stack value => Sys2Proof.Machine.execRemapRemove stack value s
  | .fill stack => Sys2Proof.Machine.execFill stack s
  | .zeroize stack setMask => Sys2Proof.Machine.execZeroize stack setMask s
  | .stkCmdAbort stack reached => Sys2Proof.Machine.execStkCmdAbort stack reached s
  | .stkCmdInvalid stack op => Sys2Proof.Machine.execStkCmdInvalid stack op s
  | .stkCmdComplete stack => Sys2Proof.Machine.execStkCmdComplete stack s
  | .refresh stack bank busy => Sys2Proof.Machine.execRefresh stack bank busy s
  | .platenListSubmit stack issuer header words stream => Sys2Proof.Machine.execPlatenListSubmit stack issuer header words stream s
  | .platenListStart stack unit => Sys2Proof.Machine.execPlatenListStart stack unit s
  | .pltNop stack unit => Sys2Proof.Machine.execPltNop stack unit s
  | .lds stack unit => Sys2Proof.Machine.execLds stack unit s
  | .sts stack unit => Sys2Proof.Machine.execSts stack unit s
  | .puts stack unit => Sys2Proof.Machine.execPuts stack unit s
  | .xclr stack unit => Sys2Proof.Machine.execXclr stack unit s
  | .stx stack unit => Sys2Proof.Machine.execStx stack unit s
  | .vmac stack unit mism => Sys2Proof.Machine.execVmac stack unit mism s
  | .parm stack unit => Sys2Proof.Machine.execParm stack unit s
  | .pscore stack unit mism => Sys2Proof.Machine.execPscore stack unit mism s
  | .pwacc stack unit mism => Sys2Proof.Machine.execPwacc stack unit mism s
  | .xout stack unit => Sys2Proof.Machine.execXout stack unit s
  | .fence stack unit => Sys2Proof.Machine.execFence stack unit s
  | .pltResInj stack value => Sys2Proof.Machine.execPltResInj stack value s
  | .platenListRetire stack unit => Sys2Proof.Machine.execPlatenListRetire stack unit s
  | .platenPreempt stack unit => Sys2Proof.Machine.execPlatenPreempt stack unit s
  | .platenResume stack unit => Sys2Proof.Machine.execPlatenResume stack unit s
  | .phaseTmoExpire stack set => Sys2Proof.Machine.execPhaseTmoExpire stack set s
  | .dispatch block => Sys2Proof.Machine.execDispatch block s
  | .galleyRead req fails rivals => Sys2Proof.Machine.execGalleyRead req fails rivals s
  | .galleyFill => Sys2Proof.Machine.execGalleyFill s
  | .galInvAll region => Sys2Proof.Machine.execGalInvAll region s
  | .galInvPart region part => Sys2Proof.Machine.execGalInvPart region part s
  | .galInvKeySlot region slot => Sys2Proof.Machine.execGalInvKeySlot region slot s
  | .galInvDone region => Sys2Proof.Machine.execGalInvDone region s
  | .galWayDisable region way => Sys2Proof.Machine.execGalWayDisable region way s
  | .cmpWatchdogExpire block => Sys2Proof.Machine.execCmpWatchdogExpire block s
  | .unfence block => Sys2Proof.Machine.execUnfence block s
  | .cmpResInj block value => Sys2Proof.Machine.execCmpResInj block value s
  | .cmpNop block => Sys2Proof.Machine.execCmpNop block s
  | .alu block => Sys2Proof.Machine.execAlu block s
  | .li block => Sys2Proof.Machine.execLi block s
  | .ldc block => Sys2Proof.Machine.execLdc block s
  | .br block => Sys2Proof.Machine.execBr block s
  | .plog block => Sys2Proof.Machine.execPlog block s
  | .mpos block => Sys2Proof.Machine.execMpos block s
  | .pcnt block => Sys2Proof.Machine.execPcnt block s
  | .sync block => Sys2Proof.Machine.execSync block s
  | .rchk block => Sys2Proof.Machine.execRchk block s
  | .endIns block => Sys2Proof.Machine.execEndIns block s
  | .fexp block port => Sys2Proof.Machine.execFexp block port s
  | .ldq block => Sys2Proof.Machine.execLdq block s
  | .pemit block => Sys2Proof.Machine.execPemit block s
  | .aemit block => Sys2Proof.Machine.execAemit block s
  | .psc block => Sys2Proof.Machine.execPsc block s
  | .pwv block => Sys2Proof.Machine.execPwv block s
  | .azero block => Sys2Proof.Machine.execAzero block s
  | .tmul block miss => Sys2Proof.Machine.execTmul block miss s
  | .qkdot block miss => Sys2Proof.Machine.execQkdot block miss s
  | .dq block miss => Sys2Proof.Machine.execDq block miss s
  | .qnt block miss => Sys2Proof.Machine.execQnt block miss s
  | .rot block miss => Sys2Proof.Machine.execRot block miss s
  | .maskq block => Sys2Proof.Machine.execMaskq block s
  | .maskp block => Sys2Proof.Machine.execMaskp block s
  | .rmax block => Sys2Proof.Machine.execRmax block s
  | .expw block miss => Sys2Proof.Machine.execExpw block miss s
  | .wacc block miss => Sys2Proof.Machine.execWacc block miss s
  | .rksum block miss => Sys2Proof.Machine.execRksum block miss s
  | .ticket => Sys2Proof.Machine.execTicket s
  | .appendPlace part ream pos slot => Sys2Proof.Machine.execAppendPlace part ream pos slot s
  | .appendFwd => Sys2Proof.Machine.execAppendFwd s
  | .appendFwdAck => Sys2Proof.Machine.execAppendFwdAck s
  | .mirrorCommitTimeout part ream pos slot => Sys2Proof.Machine.execMirrorCommitTimeout part ream pos slot s
  | .folioPartialAccept block => Sys2Proof.Machine.execFolioPartialAccept block s
  | .partialMsg => Sys2Proof.Machine.execPartialMsg s
  | .nodePartialSend part ream pos audit => Sys2Proof.Machine.execNodePartialSend part ream pos audit s
  | .rootFinish part ream => Sys2Proof.Machine.execRootFinish part ream s
  | .slotPipelineServe => Sys2Proof.Machine.execSlotPipelineServe s
  | .placementBatch part ream pos audit => Sys2Proof.Machine.execPlacementBatch part ream pos audit s
  | .gangWaitExpire part ream pos audit => Sys2Proof.Machine.execGangWaitExpire part ream pos audit s
  | .dispatchQueueAdmit block => Sys2Proof.Machine.execDispatchQueueAdmit block s
  | .reamCommit value => Sys2Proof.Machine.execReamCommit value s
  | .partitionStarvation part => Sys2Proof.Machine.execPartitionStarvation part s
  | .regulatorRefill => Sys2Proof.Machine.execRegulatorRefill s
  | .acctPeriod => Sys2Proof.Machine.execAcctPeriod s
  | .convOpen => Sys2Proof.Machine.execConvOpen s
  | .convClose => Sys2Proof.Machine.execConvClose s
  | .convCloseComplete => Sys2Proof.Machine.execConvCloseComplete s
  | .convShare => Sys2Proof.Machine.execConvShare s
  | .convImpose => Sys2Proof.Machine.execConvImpose s
  | .aclGrant => Sys2Proof.Machine.execAclGrant s
  | .aclDrop => Sys2Proof.Machine.execAclDrop s
  | .prefixPut => Sys2Proof.Machine.execPrefixPut s
  | .prefixDrop => Sys2Proof.Machine.execPrefixDrop s
  | .prefixFind => Sys2Proof.Machine.execPrefixFind s
  | .folioFree folio => Sys2Proof.Machine.execFolioFree folio s
  | .cwdSearch width banks pos bad => Sys2Proof.Machine.execCwdSearch width banks pos bad s
  | .cwdInsert width bank => Sys2Proof.Machine.execCwdInsert width bank s
  | .cwdInsertOrdered width bank pos => Sys2Proof.Machine.execCwdInsertOrdered width bank pos s
  | .cwdDelete bank pos => Sys2Proof.Machine.execCwdDelete bank pos s
  | .cwdRead bank pos bad => Sys2Proof.Machine.execCwdRead bank pos bad s
  | .cwdParitySweep bad => Sys2Proof.Machine.execCwdParitySweep bad s
  | .cwdReinsert conv => Sys2Proof.Machine.execCwdReinsert conv s
  | .spillStart part => Sys2Proof.Machine.execSpillStart part s
  | .spill => Sys2Proof.Machine.execSpill s
  | .spillComplete conv layer ok off => Sys2Proof.Machine.execSpillComplete conv layer ok off s
  | .fetch => Sys2Proof.Machine.execFetch s
  | .fetchStart others => Sys2Proof.Machine.execFetchStart others s
  | .fetchComplete conv layer => Sys2Proof.Machine.execFetchComplete conv layer s
  | .fetchFail conv layer kind off => Sys2Proof.Machine.execFetchFail conv layer kind off s
  | .tierLateExpire part ream pos audit => Sys2Proof.Machine.execTierLateExpire part ream pos audit s
  | .handOff reach => Sys2Proof.Machine.execHandOff reach s
  | .claim reach others => Sys2Proof.Machine.execClaim reach others s
  | .takeover reach others => Sys2Proof.Machine.execTakeover reach others s
  | .leaseRenew conv layer reach => Sys2Proof.Machine.execLeaseRenew conv layer reach s
  | .leaseRevert conv layer reach => Sys2Proof.Machine.execLeaseRevert conv layer reach s
  | .recordSweep => Sys2Proof.Machine.execRecordSweep s
  | .portTrainingDone code => Sys2Proof.Machine.execPortTrainingDone code s
  | .trainingTimeout code => Sys2Proof.Machine.execTrainingTimeout code s
  | .trainingRestart code => Sys2Proof.Machine.execTrainingRestart code s
  | .helloSend code => Sys2Proof.Machine.execHelloSend code s
  | .hello code pay agreed => Sys2Proof.Machine.execHello code pay agreed s
  | .portDown code reason => Sys2Proof.Machine.execPortDown code reason s
  | .flapDisClear code => Sys2Proof.Machine.execFlapDisClear code s
  | .frameForward code wire => Sys2Proof.Machine.execFrameForward code wire s
  | .pauseRepeat code cls => Sys2Proof.Machine.execPauseRepeat code cls s
  | .pause code pay => Sys2Proof.Machine.execPause code pay s
  | .pauseExpire code cls => Sys2Proof.Machine.execPauseExpire code cls s
  | .stormDetect code cls => Sys2Proof.Machine.execStormDetect code cls s
  | .stormRecover code cls => Sys2Proof.Machine.execStormRecover code cls s
  | .egressFrameStart code => Sys2Proof.Machine.execEgressFrameStart code s
  | .gateEntryAdvance code => Sys2Proof.Machine.execGateEntryAdvance code s
  | .gclGo code => Sys2Proof.Machine.execGclGo code s
  | .gclCancel code => Sys2Proof.Machine.execGclCancel code s
  | .gclSwitchover code => Sys2Proof.Machine.execGclSwitchover code s
  | .rtCommit => Sys2Proof.Machine.execRtCommit s
  | .rtCommitApply => Sys2Proof.Machine.execRtCommitApply s
  | .heartbeatSend => Sys2Proof.Machine.execHeartbeatSend s
  | .heartbeat code pay => Sys2Proof.Machine.execHeartbeat code pay s
  | .timeSyncSend => Sys2Proof.Machine.execTimeSyncSend s
  | .timeSync code pay frac => Sys2Proof.Machine.execTimeSync code pay frac s
  | .timeDreq code pay frac => Sys2Proof.Machine.execTimeDreq code pay frac s
  | .timeDresp code pay => Sys2Proof.Machine.execTimeDresp code pay s
  | .timeSyncLoss => Sys2Proof.Machine.execTimeSyncLoss s
  | .timeSet value => Sys2Proof.Machine.execTimeSet value s
  | .reg => Sys2Proof.Machine.execReg s
  | .revoke => Sys2Proof.Machine.execRevoke s
  | .revokeComplete index => Sys2Proof.Machine.execRevokeComplete index s
  | .write => Sys2Proof.Machine.execWrite s
  | .read => Sys2Proof.Machine.execRead s
  | .query => Sys2Proof.Machine.execQuery s
  | .atomic => Sys2Proof.Machine.execAtomic s
  | .flush => Sys2Proof.Machine.execFlush s
  | .flushAnswer src chan => Sys2Proof.Machine.execFlushAnswer src chan s
  | .data => Sys2Proof.Machine.execData s
  | .status => Sys2Proof.Machine.execStatus s
  | .openCh => Sys2Proof.Machine.execOpenCh s
  | .openRsp => Sys2Proof.Machine.execOpenRsp s
  | .ackTimer src chan => Sys2Proof.Machine.execAckTimer src chan s
  | .rtxTimeout dst chan => Sys2Proof.Machine.execRtxTimeout dst chan s
  | .openRetry dst chan => Sys2Proof.Machine.execOpenRetry dst chan s
  | .channelHoldExpire dst chan => Sys2Proof.Machine.execChannelHoldExpire dst chan s
  | .contextIdleExpire src chan => Sys2Proof.Machine.execContextIdleExpire src chan s
  | .sigPut => Sys2Proof.Machine.execSigPut s
  | .sigDrop => Sys2Proof.Machine.execSigDrop s
  | .sigReplace => Sys2Proof.Machine.execSigReplace s
  | .reamTimeout part ream pos audit => Sys2Proof.Machine.execReamTimeout part ream pos audit s
  | .abort => Sys2Proof.Machine.execAbort s
  | .abortRepeat => Sys2Proof.Machine.execAbortRepeat s
  | .rootAbort => Sys2Proof.Machine.execRootAbort s
  | .reamReissue part ream => Sys2Proof.Machine.execReamReissue part ream s
  | .auditPartial => Sys2Proof.Machine.execAuditPartial s
  | .auditTimeout part ream pos => Sys2Proof.Machine.execAuditTimeout part ream pos s
  | .sqDoorbell part ring value => Sys2Proof.Machine.execSqDoorbell part ring value s
  | .cqDoorbell part ring value => Sys2Proof.Machine.execCqDoorbell part ring value s
  | .ringEnable part ring colophon value => Sys2Proof.Machine.execRingEnable part ring colophon value s
  | .descriptorFetch desc ok => Sys2Proof.Machine.execDescriptorFetch desc ok s
  | .descriptorStart part ring seq => Sys2Proof.Machine.execDescriptorStart part ring seq s
  | .hostNop part ring seq => Sys2Proof.Machine.execHostNop part ring seq s
  | .hostTicket part ring seq data ok => Sys2Proof.Machine.execHostTicket part ring seq data ok s
  | .hostCommand part ring seq record data ok => Sys2Proof.Machine.execHostCommand part ring seq record data ok s
  | .hostReachCmd part ring seq record ok => Sys2Proof.Machine.execHostReachCmd part ring seq record ok s
  | .hostReach part ring seq data ok => Sys2Proof.Machine.execHostReach part ring seq data ok s
  | .hostPlaten part ring seq data ok => Sys2Proof.Machine.execHostPlaten part ring seq data ok s
  | .colophonWrite part ring seq => Sys2Proof.Machine.execColophonWrite part ring seq s
  | .coalTimeout part cq => Sys2Proof.Machine.execCoalTimeout part cq s
  | .vectorUnmask part vec => Sys2Proof.Machine.execVectorUnmask part vec s
  | .functionLevelReset part => Sys2Proof.Machine.execFunctionLevelReset part s
  | .hstPrtRst value => Sys2Proof.Machine.execHstPrtRst value s
  | .hostLinkLoss => Sys2Proof.Machine.execHostLinkLoss s
  | .hdmDecoderCommit win base size => Sys2Proof.Machine.execHdmDecoderCommit win base size s
  | .cxlMemRead hpa crcFails => Sys2Proof.Machine.execCxlMemRead hpa crcFails s
  | .cxlMemWrite hpa data crcFails => Sys2Proof.Machine.execCxlMemWrite hpa data crcFails s
  | .keyLoad session msg => Sys2Proof.Machine.execKeyLoad session msg s
  | .keyRetire session msg => Sys2Proof.Machine.execKeyRetire session msg s
  | .keyQuery session msg => Sys2Proof.Machine.execKeyQuery session msg s
  | .rspKeyRetire who value => Sys2Proof.Machine.execRspKeyRetire who value s
  | .drainAdvance => Sys2Proof.Machine.execDrainAdvance s
  | .drainAck bit => Sys2Proof.Machine.execDrainAck bit s
  | .drainLate => Sys2Proof.Machine.execDrainLate s
  | .formeRehash upsets => Sys2Proof.Machine.execFormeRehash upsets s
  | .linkRekey code secret => Sys2Proof.Machine.execLinkRekey code secret s
  | .alarm mask part => Sys2Proof.Machine.execAlarm mask part s
  | .alarmTest value => Sys2Proof.Machine.execAlarmTest value s
  | .zeroizeConfirm value => Sys2Proof.Machine.execZeroizeConfirm value s
  | .getVersion bus => Sys2Proof.Machine.execGetVersion bus s
  | .getCapabilities bus => Sys2Proof.Machine.execGetCapabilities bus s
  | .negotiateAlgorithms bus offered => Sys2Proof.Machine.execNegotiateAlgorithms bus offered s
  | .getDigests bus session => Sys2Proof.Machine.execGetDigests bus session s
  | .getCertificate bus session slot off len => Sys2Proof.Machine.execGetCertificate bus session slot off len s
  | .challenge bus slot nonce => Sys2Proof.Machine.execChallenge bus slot nonce s
  | .getMeasurements bus session index signed nonce => Sys2Proof.Machine.execGetMeasurements bus session index signed nonce s
  | .keyExchange bus slot share => Sys2Proof.Machine.execKeyExchange bus slot share s
  | .finish bus session ok auth part => Sys2Proof.Machine.execFinish bus session ok auth part s
  | .spdmHeartbeat bus session => Sys2Proof.Machine.execSpdmHeartbeat bus session s
  | .keyUpdate bus session => Sys2Proof.Machine.execKeyUpdate bus session s
  | .endSession bus session => Sys2Proof.Machine.execEndSession bus session s
  | .vendorDefinedRequest bus session msg => Sys2Proof.Machine.execVendorDefinedRequest bus session msg s
  | .spdmSessionTimeout session => Sys2Proof.Machine.execSpdmSessionTimeout session s
  | .ideKmQuery via => Sys2Proof.Machine.execIdeKmQuery via s
  | .keyProg via sub key => Sys2Proof.Machine.execKeyProg via sub key s
  | .kSetGo via => Sys2Proof.Machine.execKSetGo via s
  | .kSetStop via => Sys2Proof.Machine.execKSetStop via s
  | .errorReport h r => Sys2Proof.Machine.execErrorReport h r s
  | .errorRetire h wide => Sys2Proof.Machine.execErrorRetire h wide s
  | .handlerTimeout h => Sys2Proof.Machine.execHandlerTimeout h s
  | .partitionFence part => Sys2Proof.Machine.execPartitionFence part s
  | .regionFence region => Sys2Proof.Machine.execRegionFence region s
  | .nodeFence => Sys2Proof.Machine.execNodeFence s
  | .partitionUnfence mask => Sys2Proof.Machine.execPartitionUnfence mask s
  | .inputLevel input active => Sys2Proof.Machine.execInputLevel input active s
  | .inputEvent input => Sys2Proof.Machine.execInputEvent input s
  | .inputStuck input => Sys2Proof.Machine.execInputStuck input s
  | .inputUnmask value => Sys2Proof.Machine.execInputUnmask value s
  | .heartbeatEvaluate => Sys2Proof.Machine.execHeartbeatEvaluate s
  | .neighborLost code => Sys2Proof.Machine.execNeighborLost code s
  | .folioLoad => Sys2Proof.Machine.execFolioLoad s
  | .folioLoadComplete => Sys2Proof.Machine.execFolioLoadComplete s
  | .admitNode => Sys2Proof.Machine.execAdmit s
  | .proofPass => Sys2Proof.Machine.execProofPass s
  | .load data ok => Sys2Proof.Machine.execLoad data ok s
  | .formeVerified => Sys2Proof.Machine.execFormeVerified s
  | .go => Sys2Proof.Machine.execGo s
  | .cancel => Sys2Proof.Machine.execCancel s
  | .enable => Sys2Proof.Machine.execEnable s
  | .formeHold => Sys2Proof.Machine.execFormeHold s
  | .formeDrainTimeout => Sys2Proof.Machine.execFormeDrainTimeout s
  | .formeSwap => Sys2Proof.Machine.execFormeSwap s
  | .idleEntry => Sys2Proof.Machine.execIdleEntry s
  | .idleWake => Sys2Proof.Machine.execIdleWake s
  | .dozeEntry region => Sys2Proof.Machine.execDozeEntry region s
  | .regionWake region => Sys2Proof.Machine.execRegionWake region s
  | .keep => Sys2Proof.Machine.execKeep s
  | .keepAbandon => Sys2Proof.Machine.execKeepAbandon s
  | .wake => Sys2Proof.Machine.execWake s
  | .signalDetectWake link => Sys2Proof.Machine.execSignalDetectWake link s
  | .wakeComplete => Sys2Proof.Machine.execWakeComplete s
  | .clockLevelStep region => Sys2Proof.Machine.execClockLevelStep region s
  | .sensorSample mv ma die dram base => Sys2Proof.Machine.execSensorSample mv ma die dram base s
  | .capStep => Sys2Proof.Machine.execCapStep s
  | .capUndo => Sys2Proof.Machine.execCapUndo s
  | .coldReset value failed => Sys2Proof.Machine.execColdReset value failed s
  | .warmReset value failed => Sys2Proof.Machine.execWarmReset value failed s
  | .nodeReset value => Sys2Proof.Machine.execNodeReset value s
  | .regionReset value => Sys2Proof.Machine.execRegionReset value s
  | .regionResetComplete region => Sys2Proof.Machine.execRegionResetComplete region s
  | .powerGoodRise straps fuses failed => Sys2Proof.Machine.execPowerGoodRise straps fuses failed s
  | .powerGoodFall => Sys2Proof.Machine.execPowerGoodFall s
  | .resetN => Sys2Proof.Machine.execResetN s
  | .perstN => Sys2Proof.Machine.execPerstN s
  | .wakeN => Sys2Proof.Machine.execWakeN s
  | .pwrBrakeN => Sys2Proof.Machine.execPwrBrakeN s
  | .vrHotN => Sys2Proof.Machine.execVrHotN s
  | .debugReqN => Sys2Proof.Machine.execDebugReqN s
  | .tierPerstRise port => Sys2Proof.Machine.execTierPerstRise port s
  | .mctpMessage src msg => Sys2Proof.Machine.execMctpMessage src msg s
  | .setEndpointId src eid => Sys2Proof.Machine.execSetEndpointId src eid s
  | .getEndpointId src => Sys2Proof.Machine.execGetEndpointId src s
  | .getMctpVersionSupport src => Sys2Proof.Machine.execGetMctpVersionSupport src s
  | .formeLoad src first last data => Sys2Proof.Machine.execFormeLoad src first last data s
  | .formeGo src => Sys2Proof.Machine.execFormeGo src s
  | .formeCancel src => Sys2Proof.Machine.execFormeCancel src s
  | .ownerProg src slot alg hash => Sys2Proof.Machine.execOwnerProg src slot alg hash s
  | .ownerRevoke src slot => Sys2Proof.Machine.execOwnerRevoke src slot s
  | .svnCommit src => Sys2Proof.Machine.execSvnCommit src s
  | .debugUnlock src level => Sys2Proof.Machine.execDebugUnlock src level s
  | .telReceiver src eid => Sys2Proof.Machine.execTelReceiver src eid s
  | .telRead src => Sys2Proof.Machine.execTelRead src s
  | .pldmReset src value failed => Sys2Proof.Machine.execPldmReset src value failed s
  | .pldmWake src => Sys2Proof.Machine.execPldmWake src s
  | .pldmKeep src => Sys2Proof.Machine.execPldmKeep src s
  | .recoveryWrite src mgt off data => Sys2Proof.Machine.execRecoveryWrite src mgt off data s
  | .statusQuery src => Sys2Proof.Machine.execStatusQuery src s
  | .requestUpdate src => Sys2Proof.Machine.execRequestUpdate src s
  | .updateComponent src comp data last => Sys2Proof.Machine.execUpdateComponent src comp data last s
  | .setEventReceiver src eid => Sys2Proof.Machine.execSetEventReceiver src eid s
  | .eventAck src => Sys2Proof.Machine.execEventAck src s
  | .telemetryPeriod unsent => Sys2Proof.Machine.execTelemetryPeriod unsent s
  | .bypass => Sys2Proof.Machine.execBypass s
  | .idcode => Sys2Proof.Machine.execIdcode s
  | .samplePreload cells => Sys2Proof.Machine.execSamplePreload cells s
  | .extest => Sys2Proof.Machine.execExtest s
  | .extestPulse => Sys2Proof.Machine.execExtestPulse s
  | .extestTrain => Sys2Proof.Machine.execExtestTrain s
  | .clamp => Sys2Proof.Machine.execClamp s
  | .highz => Sys2Proof.Machine.execHighz s
  | .tapPrivate => Sys2Proof.Machine.execTapPrivate s
  | .testLogicReset failed => Sys2Proof.Machine.execTestLogicReset failed s
  | .lowWordRead who off len => Sys2Proof.Machine.execLowWordRead who off len s
  | .registerWrite who off len value => Sys2Proof.Machine.execRegisterWrite who off len value s
  | .vddAonRise => Sys2Proof.Machine.execVddAonRise s
  | .partitionResetComplete part => Sys2Proof.Machine.execPartitionResetComplete part s
  | .tierLinkUp port speed width => Sys2Proof.Machine.execTierLinkUp port speed width s
  | .tierLinkDown port => Sys2Proof.Machine.execTierLinkDown port s
  | .hostLinkUp speed width cxl flit => Sys2Proof.Machine.execHostLinkUp speed width cxl flit s
  | .backInvalidateSnoop pool record now => Sys2Proof.Machine.execBackInvalidateSnoop pool record now s
  | .configurationRequest func req => Sys2Proof.Machine.execConfigurationRequest func req s
  | .cxlMailboxCommand opcode => Sys2Proof.Machine.execCxlMailboxCommand opcode s
  | .smbusAlertResponse => Sys2Proof.Machine.execSmbusAlertResponse s

end Sys2Proof.Machine
end

