-- ==== Sys2Proof/WellFormed.lean ====
section
/-!
DEFINITION. Which commands are well formed: every operand that names a part of the node names one that exists, and
every operand of a fixed length has it. An ill-formed command names nothing, and changes nothing the part would hold.
-/
namespace Sys2Proof

/-- A block: 64, in four regions of 16 (Table 1.1). -/
def okBlock (b : Nat) : Bool := decide (b < 64)
/-- A stack: eight (Table 1.1). -/
def okStack (k : Nat) : Bool := decide (k < 8)
/-- A platen unit of a stack: 64 (Table 1.1). -/
def okUnit (u : Nat) : Bool := decide (u < 64)
/-- A channel set of a stack: eight (Table 3.2). -/
def okSet (c : Nat) : Bool := decide (c < 8)
def okRegion (r : Nat) : Bool := decide (r < 4)
/-- A partition: 0 to 31. -/
def okPart (p : Nat) : Bool := decide (p < 32)
def okPartOpt (p : Option Nat) : Bool := p.all okPart
/-- An egress code that can name a transmitter: 24 to 31 name nothing (R237). -/
def okCode (c : Nat) : Bool := decide (c < 24)
def okClass (c : Nat) : Bool := decide (c < 8)
/-- A ring of a partition: eight of each kind (R317). -/
def okRing (q : Nat) : Bool := decide (q < 8)
/-- An MSI-X vector of a partition: 64 (R328). -/
def okVector (v : Nat) : Bool := decide (v < 64)
/-- An arbiter: 148 (Table 1.5). -/
def okArb (a : Nat) : Bool := decide (a < 148)
/-- A secured session: 1 to 8 (R342). -/
def okSession (n : Nat) : Bool := decide (1 ≤ n ∧ n ≤ 8)
def okSessionOpt (n : Option Nat) : Bool := n.all okSession
/-- A tier port: four (R214). -/
def okTierPort (p : Nat) : Bool := decide (p < 4)
/-- A sideband input (Table 16.6). -/
def okInput (i : Nat) : Bool := decide (i < 16)
def okReam (r : Nat) : Bool := decide (r < 2 ^ 32)
/-- A position of a signature: 64. -/
def okPos (p : Nat) : Bool := decide (p < 64)
def okLayer (l : Nat) : Bool := decide (l < 65536)
def okPool (p : Nat) : Bool := decide (p < 4)
/-- A record of a pool's ownership table. -/
def okRecord (r : Nat) : Bool := decide (r < 2 ^ 24)
/-- A PCIe function: the physical one and 31 virtual ones. -/
def okFunc (f : Nat) : Bool := decide (f < 32)
/-- A host window: 32 (R313). -/
def okWin (w : Nat) : Bool := decide (w < 32)
def okByte (v : Nat) : Bool := decide (v < 256)
def okNat16 (v : Nat) : Bool := decide (v < 65536)
/-- A PLDM component identifier: 16 bits; R453 offers 1 to 3, and another is refused. -/
def okComp (c : Nat) : Bool := decide (c < 65536)
/-- Flash slots: six (Table 20.5). -/
def okFlash (l : List Nat) : Bool := l.all fun i => decide (i < 6)
def okChan (c : Nat) : Bool := decide (c < 16)
def okWho : Requester → Bool
  | .vf n => decide (1 ≤ n ∧ n ≤ 31)
  | _ => true
def okHandler : Handler → Bool
  | .cell b c => okBlock b && decide (c < 16)
  | .platen k u => okStack k && okUnit u
  | .block g => okBlock g
  | .region r => okRegion r
  | .chip => true
def okVia : IdeVia → Bool
  | .host n => okSession n
  | .tier p => okTierPort p
def okIssuer : PltIssuer → Bool
  | .block g => okBlock g
  | .host p q _ => okPart p && okRing q
def okTarget : GutTarget → Bool
  | .upper off => decide (off < 2 ^ 40)
  | .galleyWay r w => okRegion r && decide (w < 16)
  | .block g => okBlock g
  | .keySlots => true
def okCfg : CfgReq → Bool
  | .read d => decide (d < 1024)
  | .write d v => decide (d < 1024 ∧ v < 2 ^ 32)
  | .numVfs n => decide (n < 65536)
  | .vfEnable _ => true
/-- A link width: up to 16 lanes (R214, R311). -/
def okWidth (w : Nat) : Bool := decide (1 ≤ w ∧ w ≤ 16)
/-- A bank of the catchword unit: eight (Table 8.7). -/
def okCwd (b : Nat) : Bool := decide (b < 8)
def okCwdPos (p : Nat) : Bool := decide (p < 32768)
def okLen (n : Nat) (b : Bytes) : Bool := decide (b.length = n)
/-- Bytes at offsets of 40 bits (Table 3.2); those at 768 GiB or more address nothing, and are refused (R56). -/
def okRange (off len : Nat) : Bool := decide (off + len ≤ 2 ^ 40)
/-- Samples of the ten rails (R455). -/
def okRails (mv ma : List Nat) : Bool := decide (mv.length = 10 ∧ ma.length = 10)
/-- Samples of the eight stacks (R455). -/
def okDies (dram base : List Nat) : Bool := decide (dram.length = 8 ∧ base.length = 8)

/-- Whether every operand of a command names something the node has. -/
def wellFormed (i : Instr) : Bool :=
  match i with
  | .gutterTransfer _ _ _ _ => true
  | .gutterRequest part _ target _ => okPart part && okTarget target
  | .arbitrationPhase arb _ _ => okArb arb
  | .withdraw arb _ => okArb arb
  | .starvationReport arb _ => okArb arb
  | .arbCommit who _ => okWho who
  | .arbCommitApply arb => okArb arb
  | .stackRead part off len _ _ => okPart part && okRange off len
  | .stackWrite part off data _ _ => okPart part && okRange off (data.length)
  | .patrolScrubRow stack _ => okStack stack
  | .remapInstall stack _ => okStack stack
  | .remapCopyDone stack => okStack stack
  | .remapRemove stack _ => okStack stack
  | .fill stack => okStack stack
  | .zeroize stack setMask => okStack stack && okByte setMask
  | .stkCmdAbort stack _ => okStack stack
  | .stkCmdInvalid stack _ => okStack stack
  | .stkCmdComplete stack => okStack stack
  | .refresh stack _ _ => okStack stack
  | .platenListSubmit stack issuer _ _ _ => okStack stack && okIssuer issuer
  | .platenListStart stack unit => okStack stack && okUnit unit
  | .pltNop stack unit => okStack stack && okUnit unit
  | .lds stack unit => okStack stack && okUnit unit
  | .sts stack unit => okStack stack && okUnit unit
  | .puts stack unit => okStack stack && okUnit unit
  | .xclr stack unit => okStack stack && okUnit unit
  | .stx stack unit => okStack stack && okUnit unit
  | .vmac stack unit _ => okStack stack && okUnit unit
  | .parm stack unit => okStack stack && okUnit unit
  | .pscore stack unit _ => okStack stack && okUnit unit
  | .pwacc stack unit _ => okStack stack && okUnit unit
  | .xout stack unit => okStack stack && okUnit unit
  | .fence stack unit => okStack stack && okUnit unit
  | .pltResInj stack _ => okStack stack
  | .platenListRetire stack unit => okStack stack && okUnit unit
  | .platenPreempt stack unit => okStack stack && okUnit unit
  | .platenResume stack unit => okStack stack && okUnit unit
  | .phaseTmoExpire stack set => okStack stack && okSet set
  | .cwdSearch _ _ pos _ => okCwdPos pos
  | .cwdInsert _ bank => okCwd bank
  | .cwdInsertOrdered _ bank pos => okCwd bank && okCwdPos pos
  | .cwdDelete bank pos => okCwd bank && okCwdPos pos
  | .cwdRead bank pos _ => okCwd bank && okCwdPos pos
  | .cwdParitySweep _ => true
  | .convOpen => true
  | .convClose => true
  | .convShare => true
  | .convImpose => true
  | .aclGrant => true
  | .aclDrop => true
  | .prefixPut => true
  | .prefixDrop => true
  | .prefixFind => true
  | .folioFree _ => true
  | .cwdReinsert _ => true
  | .galleyRead _ _ _ => true
  | .galleyFill => true
  | .galInvAll region => okRegion region
  | .galInvPart region part => okRegion region && okPart part
  | .galInvKeySlot region _ => okRegion region
  | .galInvDone region => okRegion region
  | .galWayDisable region _ => okRegion region
  | .folioPartialAccept block => okBlock block
  | .partialMsg => true
  | .nodePartialSend part ream pos _ => okPart part && okReam ream && okPos pos
  | .rootFinish part r => okPart part && okReam r.id
  | .auditPartial => true
  | .auditTimeout part ream pos => okPart part && okReam ream && okPos pos
  | .kernEncode => true
  | .kernEncodeDone _ => true
  | .dispatch block => okBlock block
  | .slotPipelineServe => true
  | .placementBatch part ream pos _ => okPart part && okReam ream && okPos pos
  | .gangWaitExpire part ream pos _ => okPart part && okReam ream && okPos pos
  | .dispatchQueueAdmit block => okBlock block
  | .reamCommit _ => true
  | .partitionStarvation part => okPart part
  | .regulatorRefill => true
  | .acctPeriod => true
  | .ticket => true
  | .appendPlace part ream pos _ => okPart part && okReam ream && okPos pos
  | .appendFwd => true
  | .appendFwdAck => true
  | .mirrorCommitTimeout part ream pos _ => okPart part && okReam ream && okPos pos
  | .convCloseComplete => true
  | .spillStart part => okPart part
  | .spill => true
  | .spillComplete _ layer _ _ => okLayer layer
  | .fetch => true
  | .fetchStart _ => true
  | .fetchComplete _ layer => okLayer layer
  | .fetchFail _ layer _ _ => okLayer layer
  | .tierLateExpire part ream pos _ => okPart part && okReam ream && okPos pos
  | .handOff _ => true
  | .claim _ _ => true
  | .takeover _ _ => true
  | .leaseRenew _ layer _ => okLayer layer
  | .leaseRevert _ layer _ => okLayer layer
  | .recordSweep => true
  | .backInvalidateSnoop pool record _ => okPool pool && okRecord record
  | .sigPut => true
  | .sigDrop => true
  | .sigReplace => true
  | .reamTimeout part ream pos _ => okPart part && okReam ream && okPos pos
  | .abort => true
  | .abortRepeat => true
  | .rootAbort => true
  | .reamReissue part ream => okPart part && okReam ream
  | .cmpWatchdogExpire block => okBlock block
  | .unfence block => okBlock block
  | .cmpResInj block _ => okBlock block
  | .cmpNop block => okBlock block
  | .alu block => okBlock block
  | .li block => okBlock block
  | .ldc block => okBlock block
  | .br block => okBlock block
  | .plog block => okBlock block
  | .mpos block => okBlock block
  | .pcnt block => okBlock block
  | .sync block => okBlock block
  | .rchk block => okBlock block
  | .endIns block => okBlock block
  | .fexp block _ => okBlock block
  | .ldq block => okBlock block
  | .pemit block => okBlock block
  | .aemit block => okBlock block
  | .psc block => okBlock block
  | .pwv block => okBlock block
  | .azero block => okBlock block
  | .tmul block _ => okBlock block
  | .qkdot block _ => okBlock block
  | .dq block _ => okBlock block
  | .qnt block _ => okBlock block
  | .rot block _ => okBlock block
  | .maskq block => okBlock block
  | .maskp block => okBlock block
  | .rmax block => okBlock block
  | .expw block _ => okBlock block
  | .wacc block _ => okBlock block
  | .rksum block _ => okBlock block
  | .keyLoad session _ => okSession session
  | .keyRetire session _ => okSession session
  | .keyQuery session _ => okSession session
  | .rspKeyRetire who _ => okWho who
  | .drainAdvance => true
  | .drainAck _ => true
  | .drainLate => true
  | .alarm _ part => okPart part
  | .alarmTest _ => true
  | .zeroizeConfirm _ => true
  | .partitionFence part => okPart part
  | .regionFence region => okRegion region
  | .nodeFence => true
  | .partitionUnfence _ => true
  | .partitionResetComplete part => okPart part
  | .portTrainingDone code => okCode code
  | .trainingTimeout code => okCode code
  | .trainingRestart code => okCode code
  | .helloSend code => okCode code
  | .hello code pay _ => okCode code && okLen 32 pay
  | .portDown code _ => okCode code
  | .flapDisClear code => okCode code
  | .frameForward code _ => okCode code
  | .pauseRepeat code cls => okCode code && okClass cls
  | .pause code pay => okCode code && okLen 18 pay
  | .pauseExpire code cls => okCode code && okClass cls
  | .stormDetect code cls => okCode code && okClass cls
  | .stormRecover code cls => okCode code && okClass cls
  | .egressFrameStart code => okCode code
  | .gateEntryAdvance code => okCode code
  | .gclGo code => okCode code
  | .gclCancel code => okCode code
  | .gclSwitchover code => okCode code
  | .rtCommit => true
  | .rtCommitApply => true
  | .linkRekey code _ => okCode code
  | .heartbeatSend => true
  | .heartbeat code pay => okCode code && okLen 72 pay
  | .timeSyncSend => true
  | .timeSync code pay _ => okCode code && okLen 16 pay
  | .timeDreq code pay _ => okCode code && okLen 16 pay
  | .timeDresp code pay => okCode code && okLen 16 pay
  | .timeSyncLoss => true
  | .timeSet _ => true
  | .heartbeatEvaluate => true
  | .neighborLost code => okCode code
  | .reg => true
  | .revoke => true
  | .revokeComplete _ => true
  | .write => true
  | .read => true
  | .query => true
  | .atomic => true
  | .flush => true
  | .flushAnswer _ chan => okChan chan
  | .data => true
  | .status => true
  | .openCh => true
  | .openRsp => true
  | .ackTimer _ chan => okChan chan
  | .rtxTimeout _ chan => okChan chan
  | .openRetry _ chan => okChan chan
  | .channelHoldExpire _ chan => okChan chan
  | .contextIdleExpire _ chan => okChan chan
  | .folioLoad => true
  | .folioLoadComplete => true
  | .sqDoorbell part ring _ => okPart part && okRing ring
  | .cqDoorbell part ring _ => okPart part && okRing ring
  | .ringEnable part ring _ _ => okPart part && okRing ring
  | .descriptorFetch desc _ => okLen 64 desc
  | .descriptorStart part ring _ => okPart part && okRing ring
  | .hostNop part ring _ => okPart part && okRing ring
  | .hostTicket part ring _ _ _ => okPart part && okRing ring
  | .hostCommand part ring _ record _ _ => okPart part && okRing ring && okLen 64 record
  | .hostReachCmd part ring _ record _ => okPart part && okRing ring && okLen 64 record
  | .hostReach part ring _ _ _ => okPart part && okRing ring
  | .hostPlaten part ring _ _ _ => okPart part && okRing ring
  | .colophonWrite part ring _ => okPart part && okRing ring
  | .coalTimeout part cq => okPart part && okRing cq
  | .vectorUnmask part vec => okPart part && okVector vec
  | .functionLevelReset part => okPart part
  | .hstPrtRst _ => true
  | .hostLinkLoss => true
  | .hdmDecoderCommit win _ _ => okWin win
  | .cxlMemRead _ _ => true
  | .cxlMemWrite _ data _ => okLen 64 data
  | .formeRehash _ => true
  | .load _ _ => true
  | .formeVerified => true
  | .go => true
  | .cancel => true
  | .enable => true
  | .formeHold => true
  | .formeDrainTimeout => true
  | .formeSwap => true
  | .admitNode => true
  | .proofPass => true
  | .coldReset _ failed => okFlash failed
  | .warmReset _ failed => okFlash failed
  | .nodeReset _ => true
  | .regionReset _ => true
  | .regionResetComplete region => okRegion region
  | .powerGoodRise _ _ failed => okFlash failed
  | .powerGoodFall => true
  | .resetN => true
  | .vddAonRise => true
  | .idleEntry => true
  | .idleWake => true
  | .dozeEntry region => okRegion region
  | .regionWake region => okRegion region
  | .keep => true
  | .keepAbandon => true
  | .wake => true
  | .signalDetectWake _ => true
  | .wakeComplete => true
  | .clockLevelStep region => okRegion region
  | .capStep => true
  | .capUndo => true
  | .errorReport h _ => okHandler h
  | .errorRetire h _ => okHandler h
  | .handlerTimeout h => okHandler h
  | .inputLevel input _ => okInput input
  | .inputEvent input => okInput input
  | .inputStuck input => okInput input
  | .inputUnmask _ => true
  | .perstN => true
  | .wakeN => true
  | .pwrBrakeN => true
  | .vrHotN => true
  | .debugReqN => true
  | .tierPerstRise port => okTierPort port
  | .hostLinkUp _ width _ _ => okWidth width
  | .configurationRequest func req => okFunc func && okCfg req
  | .sensorSample mv ma _ dram base => okRails mv ma && okDies dram base
  | .getVersion _ => true
  | .getCapabilities _ => true
  | .negotiateAlgorithms _ _ => true
  | .getDigests _ session => okSessionOpt session
  | .getCertificate _ session _ _ _ => okSessionOpt session
  | .challenge _ _ _ => true
  | .getMeasurements _ session _ _ _ => okSessionOpt session
  | .keyExchange _ _ _ => true
  | .finish _ session _ _ part => okSession session && okPartOpt part
  | .spdmHeartbeat _ session => okSession session
  | .keyUpdate _ session => okSession session
  | .endSession _ session => okSession session
  | .vendorDefinedRequest _ session _ => okSessionOpt session
  | .spdmSessionTimeout session => okSession session
  | .ideKmQuery via => okVia via
  | .keyProg via _ _ => okVia via
  | .kSetGo via => okVia via
  | .kSetStop via => okVia via
  | .mctpMessage _ _ => true
  | .setEndpointId _ eid => okByte eid
  | .getEndpointId _ => true
  | .getMctpVersionSupport _ => true
  | .formeLoad _ _ _ _ => true
  | .formeGo _ => true
  | .formeCancel _ => true
  | .ownerProg _ _ _ _ => true
  | .ownerRevoke _ _ => true
  | .svnCommit _ => true
  | .debugUnlock _ _ => true
  | .telReceiver _ eid => okByte eid
  | .telRead _ => true
  | .pldmReset _ _ failed => okFlash failed
  | .pldmWake _ => true
  | .pldmKeep _ => true
  | .recoveryWrite _ _ _ _ => true
  | .statusQuery _ => true
  | .requestUpdate _ => true
  | .updateComponent _ comp _ _ => okComp comp
  | .setEventReceiver _ eid => okByte eid
  | .eventAck _ => true
  | .telemetryPeriod _ => true
  | .bypass => true
  | .idcode => true
  | .samplePreload _ => true
  | .extest => true
  | .extestPulse => true
  | .extestTrain => true
  | .clamp => true
  | .highz => true
  | .tapPrivate => true
  | .testLogicReset failed => okFlash failed
  | .smbusAlertResponse => true
  | .lowWordRead who _ _ => okWho who
  | .registerWrite who _ _ _ => okWho who
  | .tierLinkUp port _ width => okTierPort port && okWidth width
  | .tierLinkDown port => okTierPort port
  | .cxlMailboxCommand opcode => okNat16 opcode

end Sys2Proof
end

