-- ==== Sys2Proof/Safety.lean ====
section
/-!
DEFINITION. The terms that claims use: the canonical form of the state's data, and what it means that a step changed
only some register fields.
-/
namespace Sys2Proof.Machine

/-- The canonical form of memory: addresses strictly rising. An unlisted address was never written and has no value
(R63), so no entry can equal what an unlisted address reads as. -/
def Memory.wf (m : List Host.Cell) : Bool := KMap.sorted m

/-- The canonical form of the sector data (bytes, check symbols, poison marks) and of the register store. -/
def State.wf (s : State) : Bool := Memory.wf s.mem && KMap.sorted s.chk && KMap.sorted s.psn && KMap.sorted s.regs

/-- Every register field instance but those of the keys `ks` holds in `t` what it holds in `s`. -/
def SameRegs (s t : State) (ks : List Nat) : Prop := ∀ k, k ∉ ks → KMap.find? t.regs k = KMap.find? s.regs k

/-- `t` is `s` but for the register field instances of the keys `ks`. -/
def RegsOnly (s t : State) (ks : List Nat) : Prop := { t with regs := s.regs } = s ∧ SameRegs s t ks

/-- `t` is `s` but for what was sent, and the register field instances of the keys `ks`. -/
def OutOnly (s t : State) (ks : List Nat) : Prop := { t with regs := s.regs, out := s.out } = s ∧ SameRegs s t ks

/-- `n` and `m` agree at every key but `k`. -/
def SameBut {α : Type} (m n : KMap α) (k : Nat) : Prop := ∀ j, j ≠ k → KMap.find? n j = KMap.find? m j

/-- Byte `a` of the arrays and pools: none where nothing has written it (R63). -/
def State.byteAt (s : State) (a : Nat) : Option (BitVec 8) := KMap.find? s.mem a

/-! The upper case. -/

/-- Whether the stack bucket of a partition lets a request pass: it does not act, or holds a token (R206). -/
def bucketPasses (s : State) (part : Nat) : Bool := !regActs s false part || decide (1 ≤ tokens s false part)

/-- The state in which a passing request of `n` bytes has been charged to its stack bucket. -/
def charged (part n : Nat) (s : State) : State := (regulate false part n s).getD s

/-- An access is served where it stands: its range, its stacks and the owners of its sets do not refuse it (R15, R56, R57,
R65), its transfers pass within four replays, none of its rows is held and no earlier access of its source to a sector of
its own waits (R64, R67, R76, R89), and its bucket is not empty (R206). -/
abbrev Served (s : State) (x : Access) : Prop :=
  accessRefusal s x.part x.off (accessLen x) = none ∧ x.crcFails ≤ 4 ∧
  accessWaitsFor s (s.stkUnit (offStack x.off)).waiting x = false ∧ bucketPasses s x.part = true

/-- The sectors that a range of the upper case covers, by offset. -/
def sectorsOf (off len : Nat) : List Nat := (List.range ((off + len + 31) / 32 - off / 32)).map fun i => off - off % 32 + 32 * i

/-- A sector that reads clean: no record of a unit, written, not poisoned, with its check symbols right
(Table 3.3). -/
def CleanSector (s : State) (off : Nat) : Prop :=
  recordAt s off = none ∧ ∃ d, cells s (locOf s off) = some d ∧ poisonBit s (locOf s off) = false ∧ decodeWord (wordOf s (locOf s off) d) = .clean

/-- The count registers that accesses to the upper case may change. -/
def accessCounts : List Nat :=
  (List.range 8).flatMap (fun k => [(STK_CNT.COUNT 0).key k, (STK_CNT.COUNT 1).key k, (STK_CNT.COUNT 2).key k, (STK_CNT.COUNT 4).key k]) ++
  (List.range 4).map fun r => (GAL_CNT.COUNT 2).key r

/-- The fields that reports of a consumption of poison by the stacks may change: its count and log, the flags and counts of the
handlers' queues (R117, R369), the count of escalations, and what a fence at once writes (R379). -/
def reportKeys : List Nat :=
  [(RAS_CNT.COUNT 4).key 0, (RAS_CNT.COUNT 5).key 0, (RAS_CNT.COUNT 6).key 0, RAS_NODE_STS.STATE.key 0, RAS_NODE_STS.FENCE_CAUSE.key 0] ++
  (List.range 5).flatMap (fun q => [(RAS_QSTS.OVF q).key 0, (RAS_QSTS.LOST q).key 0]) ++ (List.range 64).map (fun b => CMP_SEQ_STS.CLK_ON.key b) ++
  (List.range 8).flatMap fun k => [STK_ERR_LOG0.OFFSET_LO.key k, STK_ERR_LOG1.OFFSET_HI.key k, STK_ERR_LOG1.KIND.key k, STK_ERR_LOG1.PART.key k]

/-! The platen units. -/

/-- The list that unit `u` of stack `k` (or the gang whose first unit it is) runs, neither ended nor suspended, and its next
command word, of opcode `op` (R82). -/
abbrev NextCmd (s : State) (k u op : Nat) (r : PltRun) (w : Nat) : Prop :=
  pltRun? s (64 * k + u) = some r ∧ r.list.words[r.pos]? = some w ∧ r.ended = false ∧ r.suspended = false ∧ cmdOp w = op

/-- The list after one more command. -/
def PltRun.advanced (r : PltRun) : PltRun := { r with pos := r.pos + 1, ended := decide (r.list.words.length ≤ r.pos + 1) }

/-- The list after a command that failed (R83). -/
def PltRun.failed (r : PltRun) (status : Nat) : PltRun := { r with status := status, cmdIndex := r.pos, ended := true }

/-- The sectors of `n` own granules from `a`, 512 bytes apart (R84). -/
def granuleSectors (a n : Nat) : List Nat := (List.range n).flatMap fun i => [a + 512 * i, a + 512 * i + 32]

/-- No mismatch is injected in a unit of a list (R88). -/
abbrev NoMismatch (s : State) (k : Nat) (r : PltRun) : Prop := ∀ v ∈ r.list.units, KMap.get 0 s.plt.inject (64 * k + v) = 0

/-- A command reaches the arrays: no row that it touches is being copied, and the stack is not fenced (R65, R67). -/
abbrev Reachable (s : State) (k : Nat) (r : PltRun) (w : Nat) : Prop := cmdWaits s r.list w = false ∧ stackShut s k = false

/-- A list has gone on by one command, without failing. -/
abbrev WentOn (t : State) (k u : Nat) (r r' : PltRun) : Prop :=
  pltRun? t (64 * k + u) = some r' ∧ r'.pos = r.pos + 1 ∧ r'.ended = decide (r.list.words.length ≤ r.pos + 1) ∧ r'.status = r.status

/-! The compositor blocks. -/

/-- Block `b` runs and the legal instruction word `w`, of opcode `op`, stands in its stage F (R122–R124). -/
abbrev AtIns (s : State) (b op w : Nat) : Prop :=
  blockRuns s b = true ∧ (s.blk b).pc ≤ 8191 ∧ insWord s b = w ∧ iOp w = op ∧ insLegal w = true

/-- The galley holds the line of a request, with the 128 bytes `d` and its check right (R105, R111). -/
abbrev LineHeld (s : State) (q : GalReq) (d : Bytes) : Prop :=
  d.length = 128 ∧ ∃ w, galProbe s q = some w ∧ (galLine s (galKey (galRegion q.off) (galSet q.off) w)).data = d ∧
    crc32c d = (galLine s (galKey (galRegion q.off) (galSet q.off) w)).crc

/-- Two states of a block that agree but for the accumulators and their poison marks. -/
abbrev AccsOnly (x y : BlkSt) : Prop := { y with accs := x.accs, apsn := x.apsn } = x

/-- The frequencies of ROT by its pairing (R144): element `k` with `k + 32`, or `2 k` with `2 k + 1`. -/
def rotPairs (w : Nat) : Nat := if tFb w = 0 then 32 else 16

/-- The two results of ROT for row `r` and frequency `k`: the pair turned by the angle of position a[RA] + r and of frequency
a[RB] + k of TB (R144). -/
def rotOut (w : Nat) (x : BlkSt) (r k : Nat) : Nat × Nat :=
  let el (t j : Nat) : Num := (fmtOf (tFa w)).dec (rowElem (tFa w) (x.row t r) j)
  let j := x.a (tRb w) + k
  let th := fmul (rn32 (Num.ofInt ((x.a (tRa w) + r : Nat) : Int))) (bits (x.row (tTb w) (j / 16)) (32 * (j % 16)) 32)
  if tFb w = 0 then rotPair (el (tTa w) k) (el (tTc w) k) (cos32 th) (sin32 th)
  else rotPair (el (tTa w) (2 * k)) (el (tTa w) (2 * k + 1)) (cos32 th) (sin32 th)

/-- The 32 accumulator columns of block `j` that QNT quantizes together in row `r` (R132). -/
def qntBlock (w : Nat) (x : BlkSt) (r j : Nat) : Nat × List Nat :=
  quantBlock (tFa w) ((List.range 32).map fun i => of32 (x.acc (tAd w) r (32 * j + i)))

/-- The term that WACC adds for row `r`, head `h` and column `kc` of the value tile, whose element is `k0 + kc` (R138). -/
def waccAt (w : Nat) (x : BlkSt) (k0 r h kc : Nat) : Nat :=
  waccTerm (tFa w) (bits (x.row (tTc w) r) (16 * (tC0 w + h)) 16) (rowElem (tFa w) (x.row (tTa w) r) (k0 + kc))
    (rowScale (tFa w) (x.row (tTb w) r) ((x.a (tRb w) + kc) / 32))

/-! Attempts. -/

/-- An attempt that has taken `n` chunks for a conversation record (R210). -/
def noteChunks (k c n : Nat) (s : State) : State :=
  if n = 0 then s
  else match s.att? k with
    | some a => s.setAtt k { a with chunks := KMap.insert a.chunks c (((KMap.find? a.chunks c).getD 0) + n) }
    | none => s

/-! The directory. -/

/-- The oldest directory command is the record `b`, of operation `op`, and the folio unit takes it up: no close runs, the
unit is enabled, nothing is fenced and the record's form is right (R183). -/
abbrev NextDir (s : State) (op : Nat) (src : CmdSrc) (b : Bytes) (rest : List (CmdSrc × Bytes)) : Prop :=
  s.flo.waiting = (src, b) :: rest ∧ s.flo.closing = none ∧ leAt b 0 1 = op ∧ floOn s = true ∧ cmdFenced s (dirCmd b).part = false ∧
  dirFormOk b = true

/-- A directory command ends with a status and result bytes, and records of no command that then stand at the front of the queue
end after it (R183). -/
def dirEnds (src : CmdSrc) (status : Nat) (res : Bytes) (s : State) : State := floNext (floDone src status res s)

/-- The state once the oldest directory command has been taken. -/
def dirTaken (s : State) (rest : List (CmdSrc × Bytes)) : State := { s with flo.waiting := rest }

/-! The fabric. -/

/-- A port has been put in a state of bring-up that is not up: its own registers, what it knew of its peer's HELLO and the key
of its link are all that changed (R238, R239, R356). -/
abbrev PortMoved (s t : State) (c st reason : Nat) : Prop :=
  t.rd FAB_PORT_STS.STATE c = st ∧ t.rd FAB_PORT_STS.REASON c = reason ∧
  ((t.port c).hello = false ∧ (t.port c).helloAck = false ∧ (t.port c).ackSent = false) ∧
  ((t.port c).trainAt = s.now ∧ (t.port c).heldAt = s.now) ∧ (portProt s c = true → linkKey? t c = none) ∧
  SameRegs s t [FAB_PORT_STS.STATE.key c, FAB_PORT_STS.REASON.key c] ∧
  { t with regs := s.regs, fab.ports := s.fab.ports, key.links := s.key.links } = s ∧
  SameBut s.fab.ports t.fab.ports c ∧ SameBut s.key.links t.key.links (linkSlot s c)

/-- A frame that a link can carry (R236, R240, R241): every field fits its place, the class is one of its type's, a source
route stands in the extension when SR says so, and the payload is at most 4,096 bytes. -/
abbrev WireFrame (f : Frame) : Prop :=
  (f.ty < 256 ∧ (typeClasses f.ty).contains f.tc = true ∧ f.hops < 64 ∧ f.part < 32) ∧
  (f.dst < 2 ^ 16 ∧ f.src < 2 ^ 16 ∧ f.keyGen < 2 ^ 16 ∧ f.chan < 16 ∧ f.keySlot < 4096 ∧ f.seq < 2 ^ 24) ∧
  (f.msg < 2 ^ 32 ∧ f.off < 2 ^ 32 ∧ f.arg < 2 ^ 32 ∧ f.crcErr < 2 ^ 32) ∧
  f.ext.length = (if f.sr then 64 else 0) ∧ f.pay.length ≤ 4096

/-! The reach engine. -/

/-- The oldest command of the reach engine is the record `b`, of operation `op`, and nothing is fenced that it acts for. -/
abbrev NextRch (s : State) (op : Nat) (src : CmdSrc) (b : Bytes) (rest : List (CmdSrc × Bytes)) : Prop :=
  s.rch.cmds = (src, b) :: rest ∧ leAt b 0 1 = op ∧ cmdFenced s (leAt b 1 1 % 32) = false

/-- The request that the target sequences next among those of a kind: the engine is enabled, the request is the first of its
channel, and its context is the one that its class names (R281, R286). -/
abbrev NextReq (s : State) (p : Frame → Bool) (f : Frame) (x : RchRx) : Prop :=
  s.flag RCH_CFG.EN = true ∧ firstOfChannel reqTypes p [] s.fab.inbox = some f ∧ s.rxc? (chKey f.src f.chan) = some x ∧ x.cls = f.tc

/-- The kinds of request. -/
def isWrite (f : Frame) : Bool := f.ty == 0x10
def isRead (f : Frame) : Bool := f.ty == 0x11 && !(reqHdrOf f.pay).query
def isQuery (f : Frame) : Bool := f.ty == 0x11 && (reqHdrOf f.pay).query
def isAtomic (f : Frame) : Bool := f.ty == 0x12
def isFlush (f : Frame) : Bool := f.ty == 0x13

/-- The state once request `f` has been taken in turn: its channel expects the next one (R281). -/
def reqTaken (s : State) (f : Frame) (x : RchRx) : State :=
  (removeFrame f s).setRxc (chKey f.src f.chan) { x with last := s.now, e := (x.e + 1) % seqMod }

/-- The state once a frame that answers a request has been taken from those delivered. -/
def respTaken (s : State) (f : Frame) : State := removeFrame f s

/-! Keys, alarms and fences. -/

/-- A key message of an operation in session `n` is taken up: the root processor runs, the session is established with mutual
authentication, the node is not zeroized, and debug does not refuse it (R342, R347, R459). -/
abbrev KeyHeard (s : State) (n op : Nat) (msg : Bytes) (x : Session) : Prop :=
  KMap.find? s.key.sessions n = some x ∧ rspRuns s = true ∧ s.key.zeroized = false ∧ x.done = true ∧ x.mauth = true ∧
  leAt msg 0 1 = op ∧ (op = 1 → s.rd MGT_STS.DEBUG_LVL ≠ 2)

/-- A key message is taken up and passes the first three rows of Table 15.5. -/
abbrev KeyTalk (s : State) (n op : Nat) (msg : Bytes) (x : Session) : Prop :=
  KeyHeard s n op msg x ∧ keyRefuse s x msg = none

/-- Nothing runs that a fence or a reset would have to end: no ream, attempt, press hold or platen list, and no pending, queued
or running composition. -/
abbrev NothingRuns (s : State) : Prop :=
  s.col.reams = [] ∧ s.col.atts = [] ∧ s.plt.holds = [] ∧ s.plt.runs = [] ∧ s.plt.queues = [] ∧ s.rea.pool = [] ∧ (∀ b, (s.blk b).queue = [] ∧ (s.blk b).cur = none) ∧ ∀ b p, blockOwner s b = some p → p < 32

/-! Errors and the log. -/

/-- A record as a handler receives it: with the handler's level and the fabric time (R366, R367). -/
def received (s : State) (h : Handler) (r : ErrRec) : ErrRec := { r with level := handlerLevel h, time := s.rd TIME_NOW.NS }

/-- Table 16.4 escalates or fences: both records are fatal, or both are contained and of the same unit. -/
def collides (h : Handler) (c r : ErrRec) : Bool :=
  decide (r.sev = 3 ∧ c.sev = 3) || decide (r.sev = 2 ∧ c.sev = 2 ∧ recWho h r = recWho h c)

/-- Fewer than 512 records of the log are unread (R371). -/
abbrev LogRoom (s : State) : Prop := (s.rd RAS_LOG_PROD.INDEX + 2 ^ 32 - s.rd RAS_LOG_CONS.INDEX) % 2 ^ 32 ≠ 512

/-- A record has been written to the log, and counted by its severity (R371, R372). -/
abbrev Logged (s t : State) (r : ErrRec) : Prop :=
  t.rd RAS_LOG_PROD.INDEX = (s.rd RAS_LOG_PROD.INDEX + 1) % 2 ^ 32 ∧ t.ras.errLog = KMap.insert s.ras.errLog (s.rd RAS_LOG_PROD.INDEX % 512) r ∧
  t.rd (RAS_CNT.COUNT r.sev) = min (2 ^ 32 - 1) (s.rd (RAS_CNT.COUNT r.sev) + 1)

/-- A handler that has retired its entry: idle, or handling the next one, a fatal one first (R367). -/
def retiredHand (s : State) (h : Handler) : HandlerSt :=
  match nextEntry (s.hand h).queue with
  | none => {}
  | some (n, q) => { queue := q, cur := some n, since := s.now }

/-! Attestation and sessions. -/

/-- The root security processor answers requests of a bus: it runs, the bus reaches it, and it is not zeroized (R341, R362). -/
abbrev SpdmOn (bus : SpdmBus) (s : State) : Prop := spdmReach bus s = true ∧ s.key.zeroized = false

/-- Session `n` is established (R342). -/
abbrev InSession (s : State) (n : Nat) (x : Session) : Prop := KMap.find? s.key.sessions n = some x ∧ x.done = true

/-- The state once a message in session `n` has been taken up and answered. -/
def spdmSaid (n : Nat) (a : SpdmAns) (s : State) : State := s.emit (.spdmAns n a)
def sessionHeard (n : Nat) (x : Session) (s : State) : State := { s with key.sessions := KMap.insert s.key.sessions n { x with last := s.now } }

/-! Management. -/

/-- A management message is received by the management controller, and the state once it has been counted and its session
heard (R448, R342). -/
abbrev MgtOn (src : MgtSrc) (s : State) : Prop := mgtRuns s = true ∧ busUp s src.bus = true
def mgtHeard (src : MgtSrc) (s : State) : State :=
  match src.session with
  | none => s.bump (MGT_CNT.COUNT 0)
  | some n => touch n (s.bump (MGT_CNT.COUNT 0))

/-- A message that the responder of the always-on domain takes: the management controller does not run, and the transport
is I3C or SMBus (R450). -/
abbrev D0On (src : MgtSrc) (s : State) : Prop := mgtRuns s = false ∧ lowBus src.bus = true

/-! Register accesses. -/

/-- A requester's offset names the address `a`, and the node takes its accesses as it stands (R465, Table 21.3). -/
abbrev Reaches (s : State) (who : Requester) (off a : Nat) : Prop :=
  reachAddr who off = some a ∧ canAccess who s = true ∧ (isHost who = true → s.rd PCM_STATE.NODE ≠ 3)

/-- The register of a window that covers an offset: where it stands, and whether it has 64 bits; its region is not in reset. -/
abbrev RegAt (s : State) (a : Nat) (w : Win) (u o base : Nat) (wide : Bool) : Prop :=
  windowAt a = some (w, u, o) ∧ winBusy s w u = false ∧ regAt w o = some (base, wide)

/-- Registers whose writes act beyond their fields: loss flags with the counts they clear, fences, admission, a port's
restart, the setting of time, and the configurations of shapers, meters and regulators, which settle what stands. -/
def actsBeyond : Win → Nat → Bool
  | .cmp, b => b == 0x50 || b == 8
  | .ras, b => (decide (0x20 ≤ b ∧ b < 0x34)) || b == 0x48 || b == 8
  | .fab, b => b == 8 || decide (0x30 ≤ b ∧ b < 0x50) || b == 0x64 || b == 0x68
  | .ream, b => b == 0x48 || b == 0x4C
  | .time, b => b == 0x18
  | _, _ => false

/-- The bits of a register that a write of `len` bytes at `o` covers, in a register that stands at `base`. -/
abbrev Covers (base o len j : Nat) : Prop := 8 * (o - base) ≤ j ∧ j < 8 * (o - base) + 8 * len

/-- What a field holds after a write has covered some of its bits, bit by bit: the written ones there, the old ones elsewhere. -/
abbrev Mixed (f : Fld) (base o len value old n : Nat) : Prop :=
  n < 2 ^ f.wd ∧ ∀ j < f.wd, bitOf n j = if Covers base o len (f.lo + j) then bitOf value (f.lo + j - 8 * (o - base)) else bitOf old j

end Sys2Proof.Machine
end

