-- ==== Sys2Proof/Certificates/Slice0/Obligations.lean ====
section
/-!
DEFINITION. The statements for the provers. Each says, for a family of commands, in which states and with which operands
they complete, what they write, and that they change nothing else.
-/
open Sys2Proof Sys2Proof.Machine

/-- For every state, command and queue, a step of the state whose queue is that command followed by the queue is exec of the
command on the state with the queue; and no table word puts a command into the queue, since no row of the table gives
bits. With an empty queue and no entry to KEEP in progress a step answers a next state in which time since reset is one
more, fabric time has moved on by 0, 1 or 2 ns, by exactly 1 while the rate correction is 0, the times for which the
node has been quiet, a region has rested and a tier port has been enabled have gone on, and nothing else has changed: no
register field but TIME_NOW.NS, no memory and no unit's state. That an idle step is one nanosecond is the model's choice
(assumption log).
Rests on 95_what_each_step_holds, 18_clocks_power_reset, 11_fabric_ports_traffic. -/
def Obligations.StepRunsTheFrontCommand : Prop :=
  (∀ (s : State) (c : Instr) (q : List Instr), step { s with pending := c :: q } = exec c { s with pending := q }) ∧
  (∀ (s : State) (n w : Nat), s.withFetchWord n w = s) ∧
  (∀ s : State, s.pending = [] → s.rd PCM_STATE.NODE ≠ 2 →
     ∃ t, step s = .next t ∧ t.now = s.now + 1 ∧ { t with now := s.now, regs := s.regs, tim.frac := s.tim.frac, pcm := s.pcm } = s ∧
       t.pcm = (watch { s with now := s.now + 1 }).pcm ∧ t.pcm.quietAt = (if quiet s then some (s.pcm.quietAt.getD (s.now + 1)) else none) ∧
       SameRegs s t [TIME_NOW.NS.key 0] ∧
       (∃ d, d ≤ 2 ∧ t.rd TIME_NOW.NS = (s.rd TIME_NOW.NS + d) % 2 ^ 64) ∧
       (s.tim.rate = 0 → -1000000 < s.tim.frac → s.tim.frac < 1000000 → t.rd TIME_NOW.NS = (s.rd TIME_NOW.NS + 1) % 2 ^ 64))

/-- For every state whose memory bytes, check symbols, poison marks and register fields are listed by strictly rising
address, every step that answers a next state leaves them so, whatever command it runs.
Rests on 03_upper_case_memory, 18_clocks_power_reset, 21_address_map. -/
def Obligations.EveryStepKeepsMemoryCanonical : Prop :=
  ∀ s t : State, s.wf = true → step s = .next t → t.wf = true

/-- At reset memory, sector data and the register store are in canonical form, no byte of memory has been written, nothing
has been sent and the queue is empty. Every register field holds the reset value of its register table; RCH_INCARNATION,
which the table gives as random, is not zero. Nothing else is held: beside the incarnation the state is the empty one,
with PWR_GOOD low, and its first step with an empty queue answers a next state in canonical form. That units with no
reset value start empty is the model's choice (assumption log).
Rests on 00_scope, 18_clocks_power_reset. -/
def Obligations.ResetIsCanonicalAndIdle : Prop :=
  State.reset.wf = true ∧ (∀ a, State.reset.byteAt a = none) ∧ State.reset.out = [] ∧ State.reset.pending = [] ∧
  (∀ (f : Fld) (i : Nat), f.key i ≠ RCH_INCARNATION.VALUE.key 0 → State.reset.rd f i = f.rst) ∧ State.reset.rd RCH_INCARNATION.VALUE ≠ 0 ∧
  { State.reset with regs := [], freeIx := 0 } = ({} : State) ∧ State.reset.pcm.pwrGood = false ∧
  ∃ t, step State.reset = .next t ∧ t.wf = true

/-- In every state every command answers a next state, with two exceptions. VDD_AON_RISE while PWR_GOOD is high is the only
fault: the spec says that the node's behavior is not specified when a rail leaves its tolerance while PWR_GOOD is high.
TAP_PRIVATE at debug level 2 is the only refusal: the spec gives the private instructions no effect there.
Rests on 15_security, 19_package_signals_electrical. -/
def Obligations.EveryCommandAnswers : Prop :=
  ∀ (c : Instr) (s : State),
    (∃ t, exec c s = .next t) ∨
    (c = .vddAonRise ∧ s.pcm.pwrGood = true ∧ exec c s = .fault .unspecifiedPower) ∨
    (c = .tapPrivate ∧ s.rd MGT_STS.DEBUG_LVL = 2 ∧ exec c s = .refused .privateTest)

/-- GUTTER_TRANSFER always completes. With the credits the pair has and those returned now, as many of the waiting transfers
and the new one go out as there are credits, oldest first; the rest wait, none is dropped, and each transfer sent uses
one credit. The lines of every other pair, every register and every unit but the gutter stay as they were.
States R13, R14. -/
def Obligations.GutterIsLosslessAndOrdered : Prop :=
  ∀ (s : State) (src dst xfer credits : Nat),
    let l := KMap.get {} s.gut.links (8 * src + dst)
    let q := l.waiting ++ [xfer]
    let n := min q.length (l.credits + credits)
    ∃ t, exec (.gutterTransfer src dst xfer credits) s = .next t ∧
      t.out = ((q.take n).map (OutMsg.gutter src dst)).reverse ++ s.out ∧
      KMap.get {} t.gut.links (8 * src + dst) = { credits := l.credits + credits - n, waiting := q.drop n } ∧
      SameBut s.gut.links t.gut.links (8 * src + dst) ∧
      { t with out := s.out, gut.links := s.gut.links } = s

/-- Where no bucket acts on its partition, or the bucket holds a token or more, GUTTER_REQUEST is answered at once: a
request that R15 allows is granted, and nothing changes but what was sent; any other is refused, counted in
GUT_XPART_CNT. The bucket that acts is charged the bytes of the request, and no other bucket changes. Where a bucket
acts and holds less than one token, the request waits at the end of the line, counted in REAM_REG_STALL_CNT, and is not
answered. R15 allows partition 0 everywhere but at galley ways that hold sealed folios and at the key slots; any other
partition exactly at the stack channel sets, galley ways and blocks that it owns; and nobody at the key slots.
Rests on R15, R206. -/
def Obligations.GutterRequestIsCheckedAtItsTarget : Prop :=
  (∀ (s : State) (part bytes : Nat) (tg : GutTarget) (write : Bool), gutAllows s part tg = true →
    (regActs s true part = false → ∃ t, exec (.gutterRequest part bytes tg write) s = .next t ∧
      t.out = OutMsg.gutAnswer part write true :: s.out ∧ { t with out := s.out } = s) ∧
    (regActs s true part = true → 1 ≤ tokens s true part → ∃ t, exec (.gutterRequest part bytes tg write) s = .next t ∧
      t.out = OutMsg.gutAnswer part write true :: s.out ∧ tokens t true part = tokens s true part - bytes ∧
      SameBut s.rea.gutTok t.rea.gutTok part ∧ { t with out := s.out, rea.gutTok := s.rea.gutTok } = s)) ∧
  (∀ (s : State) (part bytes : Nat) (tg : GutTarget) (write : Bool), gutAllows s part tg = false →
    (regActs s true part = true → 1 ≤ tokens s true part) →
    ∃ t, exec (.gutterRequest part bytes tg write) s = .next t ∧ t.out = OutMsg.gutAnswer part write false :: s.out ∧
      t.rd GUT_XPART_CNT.COUNT = min (2 ^ 32 - 1) (s.rd GUT_XPART_CNT.COUNT + 1) ∧ SameRegs s t [GUT_XPART_CNT.COUNT.key 0] ∧
      (regActs s true part = false → t.rea = s.rea) ∧
      (regActs s true part = true → tokens t true part = tokens s true part - bytes ∧ SameBut s.rea.gutTok t.rea.gutTok part) ∧
      { t with regs := s.regs, out := s.out, rea.gutTok := s.rea.gutTok } = s) ∧
  (∀ (s : State) (part bytes : Nat) (tg : GutTarget) (write : Bool), regActs s true part = true → tokens s true part < 1 →
    ∃ t, exec (.gutterRequest part bytes tg write) s = .next t ∧
      t.rea.regWait = s.rea.regWait ++ [.gut part bytes tg write] ∧
      t.rd REAM_REG_STALL_CNT.COUNT = min (2 ^ 32 - 1) (s.rd REAM_REG_STALL_CNT.COUNT + 1) ∧
      SameRegs s t [REAM_REG_STALL_CNT.COUNT.key 0] ∧ { t with regs := s.regs, rea.regWait := s.rea.regWait } = s) ∧
  (∀ (s : State) (part off : Nat), gutAllows s part (.upper off) = true ↔ part = 0 ∨ setOwner s (offStack off) (offSet off) = some part) ∧
  (∀ (s : State) (part g : Nat), gutAllows s part (.block g) = true ↔ part = 0 ∨ blockOwner s g = some part) ∧
  (∀ (s : State) (part r w : Nat), part ≠ 0 →
    (gutAllows s part (.galleyWay r w) = true ↔ s.flag (GAL_WAY_OWNER.ASSIGNED w) r = true ∧ s.rd (GAL_WAY_OWNER.OWNER w) r = part)) ∧
  (∀ (s : State) (r w : Nat), gutAllows s 0 (.galleyWay r w) = !s.flag (GAL_WAY_OWNER.SEALED w) r) ∧
  (∀ (s : State) (part : Nat), gutAllows s part .keySlots = false)

/-- With no commit pending and at least one requester, ARBITRATION_PHASE grants one requester: none of the others has a
higher active priority, and none of the same priority comes earlier in the round that starts after the last one granted.
The tenure begins now, in its first cycle; the wait counter of the granted requester is 0, and each other requester's
has risen by the cycles since the last phase in which it requested (16 at most, none if it was the owner) and stops at
65,535. WITHDRAW in the first cycle of a tenure is one more phase a cycle later without the owner; at any other time it
changes nothing. ARB_COMMIT with bit 0 set marks the selected arbiter, and changes nothing otherwise; ARB_COMMIT_APPLY
copies every shadow priority of a marked arbiter to its active set and clears the mark, and changes nothing otherwise; a
phase of a marked arbiter first does so. STARVATION_REPORT of a requester that waits above a nonzero STARVE_THR and
whose bit is clear sets the bit and enters one informational record at the arbiter's level; of any other it changes
nothing.
Rests on R16, R17, R18, R19, R21, R22. -/
def Obligations.ArbiterGrantsHighestPriority : Prop :=
  (∀ (s : State) (a n : Nat) (reqs : List (Nat × Nat)), s.flag GUT_ARB_STS.COMMIT_PEND a = false → (reqs.map Prod.fst).Nodup → reqs ≠ [] →
    (∀ r ∈ reqs, r.1 < arbReqs a) →
    ∃ t g, exec (.arbitrationPhase a n reqs) s = .next t ∧ g ∈ reqs.map Prod.fst ∧ (t.arb a).owner = some g ∧ (t.arb a).first = true ∧
      (t.arb a).since = s.now ∧ (t.arb a).asking = (reqs.map Prod.fst).filter (· ≠ g) ∧
      (∀ r ∈ reqs, s.rd (GUT_ARB_ACT.ACT r.1) a ≤ s.rd (GUT_ARB_ACT.ACT g) a) ∧
      (∀ r ∈ reqs, s.rd (GUT_ARB_ACT.ACT r.1) a = s.rd (GUT_ARB_ACT.ACT g) a →
        rrDist (arbReqs a) (KMap.get 0 (s.arb a).last (s.rd (GUT_ARB_ACT.ACT g) a)) g ≤ rrDist (arbReqs a) (KMap.get 0 (s.arb a).last (s.rd (GUT_ARB_ACT.ACT g) a)) r.1) ∧
      KMap.get 0 (t.arb a).last (s.rd (GUT_ARB_ACT.ACT g) a) = g + 1 ∧ KMap.get 0 (t.arb a).waits g = 0 ∧
      (∀ r ∈ reqs, r.1 ≠ g → KMap.get 0 (t.arb a).waits r.1 =
        min 65535 (KMap.get 0 (s.arb a).waits r.1 + if (s.arb a).owner = some r.1 then 0 else min r.2 (min n 16))) ∧
      (∀ r, r ∉ reqs.map Prod.fst → KMap.get 0 (t.arb a).waits r = KMap.get 0 (s.arb a).waits r) ∧
      SameBut s.gut.arbs t.gut.arbs a ∧ { t with gut.arbs := s.gut.arbs } = s) ∧
  (∀ (s : State) (a o : Nat) (reqs : List Nat), (s.arb a).owner = some o → (s.arb a).first = true →
    ((s.arb a).since = s.now → ∃ t, exec (.withdraw a reqs) s = .next t ∧
      exec (.arbitrationPhase a 1 ((reqs.filter (· ≠ o)).map fun r => (r, 1))) s = .next t) ∧
    ((s.arb a).since ≠ s.now → exec (.withdraw a reqs) s = .next s)) ∧
  (∀ (s : State) (who : Requester) (v : Nat),
    (bitOf v 0 = true → ∃ t, exec (.arbCommit who v) s = .next t ∧ t.rd GUT_ARB_STS.COMMIT_PEND (s.rd GUT_ARB_SEL.ARB_ID (whoIx who)) = 1 ∧
      RegsOnly s t [GUT_ARB_STS.COMMIT_PEND.key (s.rd GUT_ARB_SEL.ARB_ID (whoIx who))]) ∧
    (bitOf v 0 = false → exec (.arbCommit who v) s = .next s)) ∧
  (∀ (s : State) (a : Nat), a < 148 →
    (s.flag GUT_ARB_STS.COMMIT_PEND a = true → ∃ t, exec (.arbCommitApply a) s = .next t ∧ t.rd GUT_ARB_STS.COMMIT_PEND a = 0 ∧
      (∀ r < arbReqs a, t.rd (GUT_ARB_ACT.ACT r) a = s.rd (GUT_ARB_PRIO.PRIO r) a % 16) ∧
      RegsOnly s t (GUT_ARB_STS.COMMIT_PEND.key a :: (List.range (arbReqs a)).map fun r => (GUT_ARB_ACT.ACT r).key a) ∧
      ∀ n reqs, exec (.arbitrationPhase a n reqs) s = exec (.arbitrationPhase a n reqs) t) ∧
    (s.flag GUT_ARB_STS.COMMIT_PEND a = false → exec (.arbCommitApply a) s = .next s)) ∧
  (∀ (s : State) (a r : Nat),
    let waits := r < arbReqs a ∧ r ∈ (s.arb a).asking ∧ s.rd GUT_ARB_CFG.STARVE_THR a ≠ 0 ∧
      s.rd GUT_ARB_CFG.STARVE_THR a < KMap.get 0 (s.arb a).waits r ∧ bitOf (s.rd (GUT_ARB_STARVE_STS.STARVE (r / 32)) a) (r % 32) = false
    (waits → ∃ t, exec (.starvationReport a r) s =
        .next (report (arbHandler a r) { sev := 0, subsys := 14, cause := Config.causeCode 1, unit := handlerUnit (arbHandler a r) } t) ∧
      t.rd (GUT_ARB_STARVE_STS.STARVE (r / 32)) a = (s.rd (GUT_ARB_STARVE_STS.STARVE (r / 32)) a ||| 2 ^ (r % 32)) % 2 ^ 32 ∧
      RegsOnly s t [(GUT_ARB_STARVE_STS.STARVE (r / 32)).key a]) ∧
    (¬ waits → exec (.starvationReport a r) s = .next s))

/-- STACK_WRITE of an access that is served completes: every byte of the data stands at the location of its offset (the
spare row where the row is remapped), a sector wholly written carries the poison mark of the write, and every byte
outside the covered sectors' locations reads as before. The write is answered ST_OK. Beside the sectors, galley lines
that hold them, the access counts, records that report a replay, a correction or a merge with poison, the free chunks
that a write to the folio unit's bitmaps marks, and what was sent, nothing changes; a write outside the bitmaps changes
no chunk, and a write of whole sectors without replays makes no record.
Rests on R57, R60, R65, R66, R109, R172. -/
def Obligations.StackWriteStoresItsBytes : Prop :=
  ∀ (s : State) (part off : Nat) (data : Bytes) (poison : Bool) (crc : Nat),
    Served s { write := true, part := part, off := off, data := data, poison := poison, crcFails := crc } →
    ∃ t, exec (.stackWrite part off data poison crc) s = .next t ∧
      (∀ i, i < data.length → t.byteAt (locOf s (off + i)) = data[i]?) ∧
      (∀ b ∈ sectorsOf off data.length, off ≤ b → b + 32 ≤ off + data.length → poisonBit t (locOf s b) = poison) ∧
      (∀ a, (∀ b ∈ sectorsOf off data.length, a < locOf s b ∨ locOf s b + 32 ≤ a) → t.byteAt a = s.byteAt a) ∧
      t.out = OutMsg.writeDone part off ST.OK :: s.out ∧
      { t with regs := s.regs, mem := s.mem, chk := s.chk, psn := s.psn, out := s.out, freeIx := s.freeIx, gal.lines := s.gal.lines,
               ras.handlers := s.ras.handlers, flo.used := s.flo.used } = charged part data.length s ∧
      (floOn s = false ∨ off + data.length ≤ mapsAt s ∨ mapsAt s + 64 * 393216 ≤ off → t.flo = s.flo) ∧
      SameRegs s t (accessCounts ++ reportKeys) ∧
      (crc = 0 → off % 32 = 0 → data.length % 32 = 0 → t.ras.handlers = s.ras.handlers ∧ SameRegs s t accessCounts)

/-- STACK_READ of an access that is served, every covered sector clean, completes: it delivers the stored bytes with ST_OK
and changes only what was sent; replays are counted in STK_CNT4 and reported as a corrected record. Of a range of
written sectors without records each sector is delivered or poison by its own outcome, and no byte, check symbol or
poison mark changes. A read of one sector that needs correction delivers the corrected bytes, counts in STK_CNT0 and is
reported as a corrected record; one whose poison mark is set delivers poison and counts in STK_CNT2; one that does not
decode delivers poison, counts in STK_CNT1 and logs its kind. From a sector of the folio unit's table area that holds a
record, whose stored word is unwritten or clean, a read delivers the record's bytes as the unit keeps them: a folio
table entry, half a conversation record or half a run record; and from a sector of a valid entry of the signature table,
which the folio unit's area does not overlap, it delivers the entry's bytes (that such reads show the units' records at
once is the model's reading, log entry 53). Disturbances of stored words come before the read.
Rests on R61, R65, R172, R173, R174, R175, R292. -/
def Obligations.StackReadDeliversTheTable : Prop :=
  (∀ (s : State) (part off len crc : Nat), Served s { part := part, off := off, len := len, crcFails := crc } →
    (∀ b ∈ sectorsOf off len, CleanSector s b) →
    ∃ t d, exec (.stackRead part off len crc []) s = .next t ∧ t.out = OutMsg.readData part off d false ST.OK :: s.out ∧
      d.length = len ∧ (∀ i, i < len → d[i]? = s.byteAt (locOf s (off + i))) ∧
      OutOnly (replayed (offStack off) part off crc (charged part len s)) t []) ∧
  (∀ (s : State) (part off len crc : Nat), Served s { part := part, off := off, len := len, crcFails := crc } →
    (∀ b ∈ sectorsOf off len, recordAt s b = none ∧ (cells s (locOf s b)).isSome = true) →
    ∃ t, exec (.stackRead part off len crc []) s = .next t ∧ t.mem = s.mem ∧ t.psn = s.psn ∧ t.chk = s.chk ∧
      (let l := (sectorsOf off len).map fun b => (readAt s (locOf s b)).1.bytes
       (∀ d, joinMarks off len l = some d → t.out = OutMsg.readData part off d false ST.OK :: s.out) ∧
       (joinMarks off len l = none → t.out = OutMsg.readSectors part off l ST.POISON :: s.out))) ∧
  (∀ (s : State) (part off crc : Nat) (d : Bytes), Served s { part := part, off := off, len := 32, crcFails := crc } → off % 32 = 0 →
    recordAt s off = none → cells s (locOf s off) = some d →
    ∃ t, exec (.stackRead part off 32 crc []) s = .next t ∧ t.mem = s.mem ∧ t.psn = s.psn ∧ t.chk = s.chk ∧
      (∀ w, poisonBit s (locOf s off) = false → decodeWord (wordOf s (locOf s off) d) = .fixed w →
        t.out = OutMsg.readData part off ((w.drop 4).map (BitVec.ofNat 8)) false ST.OK :: s.out ∧
        (crc = 0 → (s.hand (.region (offStack off / 2))).cur = none →
          ∃ r, (t.hand (.region (offStack off / 2))).cur = some r ∧ r.sev = 1 ∧ r.subsys = 3 ∧ r.part = some part ∧ r.addr = off) ∧
        t.rd (STK_CNT.COUNT 0) (offStack off) = min (2 ^ 32 - 1) (s.rd (STK_CNT.COUNT 0) (offStack off) + 1)) ∧
      (poisonBit s (locOf s off) = true →
        t.out = OutMsg.readSectors part off [none] ST.POISON :: s.out ∧
        t.rd (STK_CNT.COUNT 2) (offStack off) = min (2 ^ 32 - 1) (s.rd (STK_CNT.COUNT 2) (offStack off) + 1)) ∧
      (poisonBit s (locOf s off) = false → decodeWord (wordOf s (locOf s off) d) = .bad →
        t.out = OutMsg.readSectors part off [none] ST.POISON :: s.out ∧
        t.rd (STK_CNT.COUNT 1) (offStack off) = min (2 ^ 32 - 1) (s.rd (STK_CNT.COUNT 1) (offStack off) + 1) ∧
        t.rd STK_ERR_LOG0.OFFSET_LO (offStack off) = off % 2 ^ 32 ∧ t.rd STK_ERR_LOG1.KIND (offStack off) = 1)) ∧
  (∀ (s : State) (part off crc : Nat) (d : Bytes),
    Served s { part := part, off := off, len := 32, crcFails := crc } → poisonBit s (locOf s off) = false →
    (∀ w, cells s (locOf s off) = some w → decodeWord (wordOf s (locOf s off) w) = .clean) →
    (floOn s = true ∧ (∃ a, off = s.rd FLO_TBL_BASE.OFFSET * 4096 + 32 * a ∧
      ((a < 2 ^ s.rd FLO_CFG.NFOLIO_LOG2 ∧ d = (s.folio a).toBytes) ∨
       (∃ c h, c < 2 ^ s.rd FLO_CFG.NCONV_LOG2 ∧ h < 2 ∧ 32 * a = tblConv s + 64 * c + 32 * h ∧ d = slice (s.conv c).toBytes (32 * h) 32) ∨
       (∃ i h, i < 2 ^ (s.rd FLO_CFG.NCONV_LOG2 + s.rd FLO_CFG.MAXRUN_LOG2) ∧ h < 2 ∧ 32 * a = tblRun s + 64 * i + 32 * h ∧
         d = slice (s.run i).toBytes (32 * h) 32))) ∨
     (∃ e j g, off = s.rd COL_SIG_BASE.OFFSET * 4096 + 1024 * e + 32 * j ∧ j < 32 ∧ tableAt s off = none ∧ stackAt s off = none ∧
       KMap.find? s.col.sigs e = some g ∧ d = slice g.toBytes (32 * j) 32)) →
    ∃ t, exec (.stackRead part off 32 crc []) s = .next t ∧ t.out = OutMsg.readData part off d false ST.OK :: s.out ∧
      OutOnly (replayed (offStack off) part off crc (charged part 32 s)) t []) ∧
  (∀ (s : State) (k part off crc : Nat),
    (crc = 0 → replayed k part off crc s = s) ∧
    (crc ≠ 0 → crc ≤ 4 → ∃ t, replayed k part off crc s =
        report (.region (k / 2)) { sev := 1, subsys := 3, cause := Config.causeCode 42, unit := k, part := some part, action := 1, addr := off } t ∧
      t.rd (STK_CNT.COUNT 4) k = min (2 ^ 32 - 1) (s.rd (STK_CNT.COUNT 4) k + crc) ∧ RegsOnly s t [(STK_CNT.COUNT 4).key k])) ∧
  (∀ (s : State) (part off len crc : Nat) (us : SectorUpsets),
    ∃ t, exec (.stackRead part off len crc us) s = .next t ∧ exec (.stackRead part off len crc []) (upsetAll us s) = .next t)

/-- Where the bucket of its partition lets it pass, and charged to it, a read or a write whose range ends above 768 GiB is
answered ST_ADDR_RANGE and counted in STK_CNT3; one within that touches a fenced stack is answered ST_STK_FENCED; one
that touches only stacks that serve, and a channel set that its partition, not 0, does not own, is answered with poison
or discarded, and counted in GUT_XPART_CNT. One that nothing refuses and whose transfer fails five times counts its four
replays in STK_CNT4, sets FENCED, counts in STK_CNT5, logs its kind and offset and is answered ST_STK_FENCED. None of
them changes memory; a refused read is answered with poison. A partition on which no bucket acts is charged nothing.
With one token or more the bucket is charged the bytes of the access, and nothing else changes. With less, the access
waits in line, counted in REAM_REG_STALL_CNT, and changes no memory and sends nothing.
Rests on R15, R56, R57, R65, R206. -/
def Obligations.StackAccessRefusals : Prop :=
  (∀ (s : State) (part off len crc : Nat) (data : Bytes) (poison : Bool), bucketPasses s part = true →
     let k := offStack off
     (upperSize < off + len ∨ upperSize ≤ off →
       ∃ t, exec (.stackRead part off len crc []) s = .next t ∧ t.out = OutMsg.readData part off [] true ST.ADDR_RANGE :: s.out ∧
         t.rd (STK_CNT.COUNT 3) k = min (2 ^ 32 - 1) (s.rd (STK_CNT.COUNT 3) k + 1) ∧ OutOnly (charged part len s) t [(STK_CNT.COUNT 3).key k]) ∧
     (upperSize < off + data.length ∨ upperSize ≤ off →
       ∃ t, exec (.stackWrite part off data poison crc) s = .next t ∧ t.out = OutMsg.writeDone part off ST.ADDR_RANGE :: s.out ∧
         t.rd (STK_CNT.COUNT 3) k = min (2 ^ 32 - 1) (s.rd (STK_CNT.COUNT 3) k + 1) ∧ OutOnly (charged part data.length s) t [(STK_CNT.COUNT 3).key k]) ∧
     (off + len ≤ upperSize → off < upperSize → (∃ a ∈ rangesOf off len, stackShut s (offStack a) = true) →
       ∃ t, exec (.stackRead part off len crc []) s = .next t ∧ t.out = OutMsg.readData part off [] true ST.STK_FENCED :: s.out ∧ OutOnly (charged part len s) t []) ∧
     (off + data.length ≤ upperSize → off < upperSize → (∃ a ∈ rangesOf off data.length, stackShut s (offStack a) = true) →
       ∃ t, exec (.stackWrite part off data poison crc) s = .next t ∧ t.out = OutMsg.writeDone part off ST.STK_FENCED :: s.out ∧ OutOnly (charged part data.length s) t []) ∧
     (off + len ≤ upperSize → off < upperSize → (∀ a ∈ rangesOf off len, stackShut s (offStack a) = false) →
       part ≠ 0 → (∃ a ∈ rangesOf off len, setOwner s (offStack a) (offSet a) ≠ some part) →
       ∃ t, exec (.stackRead part off len crc []) s = .next t ∧ t.out = OutMsg.readData part off [] true ST.POISON :: s.out ∧
         t.rd GUT_XPART_CNT.COUNT = min (2 ^ 32 - 1) (s.rd GUT_XPART_CNT.COUNT + 1) ∧ OutOnly (charged part len s) t [GUT_XPART_CNT.COUNT.key 0]) ∧
     (off + data.length ≤ upperSize → off < upperSize → (∀ a ∈ rangesOf off data.length, stackShut s (offStack a) = false) →
       part ≠ 0 → (∃ a ∈ rangesOf off data.length, setOwner s (offStack a) (offSet a) ≠ some part) →
       ∃ t, exec (.stackWrite part off data poison crc) s = .next t ∧ t.out = OutMsg.writeDone part off ST.POISON :: s.out ∧
         t.rd GUT_XPART_CNT.COUNT = min (2 ^ 32 - 1) (s.rd GUT_XPART_CNT.COUNT + 1) ∧ OutOnly (charged part data.length s) t [GUT_XPART_CNT.COUNT.key 0]) ∧
     (5 ≤ crc → accessRefusal s part off len = none →
       ∃ t, exec (.stackRead part off len crc []) s = .next t ∧ t.rd STK_STS.FENCED k = 1 ∧ t.mem = s.mem ∧
         t.rd (STK_CNT.COUNT 4) k = min (2 ^ 32 - 1) (s.rd (STK_CNT.COUNT 4) k + 4) ∧
         t.rd (STK_CNT.COUNT 5) k = min (2 ^ 32 - 1) (s.rd (STK_CNT.COUNT 5) k + 1) ∧ t.rd STK_ERR_LOG1.KIND k = 3 ∧
         t.rd STK_ERR_LOG0.OFFSET_LO k = (off - off % 32) % 2 ^ 32 ∧ t.out.head? = some (OutMsg.readData part off [] true ST.STK_FENCED)) ∧
     (5 ≤ crc → accessRefusal s part off data.length = none →
       ∃ t, exec (.stackWrite part off data poison crc) s = .next t ∧ t.rd STK_STS.FENCED k = 1 ∧ t.mem = s.mem ∧
         t.rd (STK_CNT.COUNT 4) k = min (2 ^ 32 - 1) (s.rd (STK_CNT.COUNT 4) k + 4) ∧
         t.rd (STK_CNT.COUNT 5) k = min (2 ^ 32 - 1) (s.rd (STK_CNT.COUNT 5) k + 1) ∧ t.rd STK_ERR_LOG1.KIND k = 3 ∧
         t.rd STK_ERR_LOG0.OFFSET_LO k = (off - off % 32) % 2 ^ 32 ∧ t.out.head? = some (OutMsg.writeDone part off ST.STK_FENCED))) ∧
  (∀ (s : State) (part off len crc : Nat) (data : Bytes) (poison : Bool),
     (regActs s false part = false → charged part len s = s) ∧
     (regActs s false part = true → 1 ≤ tokens s false part →
       tokens (charged part len s) false part = tokens s false part - len ∧
       { charged part len s with rea.stkTok := s.rea.stkTok } = s ∧ SameBut s.rea.stkTok (charged part len s).rea.stkTok part) ∧
     (bucketPasses s part = false →
       (∃ t, exec (.stackRead part off len crc []) s = .next t ∧
         t.rea.regWait = s.rea.regWait ++ [.stk { part := part, off := off, len := len, crcFails := crc }] ∧
         t.rd REAM_REG_STALL_CNT.COUNT = min (2 ^ 32 - 1) (s.rd REAM_REG_STALL_CNT.COUNT + 1) ∧
         SameRegs s t [REAM_REG_STALL_CNT.COUNT.key 0] ∧ { t with regs := s.regs, rea.regWait := s.rea.regWait } = s) ∧
       (∃ t, exec (.stackWrite part off data poison crc) s = .next t ∧
         t.rea.regWait = s.rea.regWait ++ [.stk { write := true, part := part, off := off, data := data, poison := poison, crcFails := crc }] ∧
         t.rd REAM_REG_STALL_CNT.COUNT = min (2 ^ 32 - 1) (s.rd REAM_REG_STALL_CNT.COUNT + 1) ∧
         SameRegs s t [REAM_REG_STALL_CNT.COUNT.key 0] ∧ { t with regs := s.regs, rea.regWait := s.rea.regWait } = s)))

/-- For any 32 bytes, the code word of the fresh check symbols and the bytes decodes clean; and the same word with any one
symbol changed decodes to the word as written.
Rests on R59, R60, R61. -/
def Obligations.SectorCodeReadsBack : Prop :=
  ∀ d : Bytes, d.length = 32 →
    let w := checkSyms (d.map BitVec.toNat) ++ d.map BitVec.toNat
    decodeWord w = .clean ∧ ∀ i e, i < 36 → 0 < e → e < 256 → decodeWord (flipAt w i e) = .fixed w

/-- On an idle controller FILL of a range that touches the stack sets BUSY and starts at its start; a range that breaks
START < END ≤ 768 GiB completes at once with ST_STK_CMD_RANGE, and one that does not touch the stack with ST_OK. ZEROIZE
of unassigned sets sets BUSY; an assigned one completes with ST_STK_CMD_OWNED, and an empty mask with ST_OK. While BUSY
is set either sets ERR and does nothing else, and so does an OP that is not defined. The completion of a command that
meets no held row completes it with ST_OK: every sector of the stack in a fill's range holds the pattern and every other
byte reads as before; every sector of a zeroized set reads zero, in its own row and in the spare that serves it. While
the command meets a held row its completion waits, and no memory changes. ABORT of a running command completes it with
ST_STK_CMD_ABORTED: BUSY clears, DONE is set and STATUS holds the code. ABORT with nothing running changes nothing.
Rests on R71, R72, R73, R74, R89, R473. -/
def Obligations.StackCommandsFollowTheirChecks : Prop :=
  (∀ (s : State) (k : Nat), k < 8 → s.flag STK_CMD_STS.BUSY k = false →
    s.rd STK_CMD_START.OFFSET k < s.rd STK_CMD_END.OFFSET k → s.rd STK_CMD_END.OFFSET k * 4096 ≤ upperSize →
    (rangeTouches k (s.rd STK_CMD_START.OFFSET k * 4096) (s.rd STK_CMD_END.OFFSET k * 4096) = true →
      ∃ t, exec (.fill k) s = .next t ∧ t.rd STK_CMD_STS.BUSY k = 1 ∧
        (t.stkUnit k).cmd = some (.fill (s.rd STK_CMD_START.OFFSET k * 4096) (s.rd STK_CMD_END.OFFSET k * 4096) ((List.range 8).flatMap fun j => natLe 4 (s.rd (STK_CMD_PAT.PAT j) k))) ∧
        t.rd STK_CMD_PROG.PROGRESS k = s.rd STK_CMD_START.OFFSET k * 4096 % 2 ^ STK_CMD_PROG.PROGRESS.wd ∧
        SameRegs s t [STK_CMD_STS.BUSY.key k, STK_CMD_PROG.PROGRESS.key k] ∧ { t with regs := s.regs, stk.units := s.stk.units } = s) ∧
    (rangeTouches k (s.rd STK_CMD_START.OFFSET k * 4096) (s.rd STK_CMD_END.OFFSET k * 4096) = false →
      ∃ t, exec (.fill k) s = .next t ∧ t.rd STK_CMD_STS.STATUS k = ST.OK ∧ t.rd STK_CMD_STS.DONE k = 1 ∧ t.mem = s.mem)) ∧
  (∀ (s : State) (k : Nat), k < 8 → s.flag STK_CMD_STS.BUSY k = false →
    ¬ (s.rd STK_CMD_START.OFFSET k < s.rd STK_CMD_END.OFFSET k ∧ s.rd STK_CMD_END.OFFSET k * 4096 ≤ upperSize) →
    ∃ t, exec (.fill k) s = .next t ∧ t.rd STK_CMD_STS.STATUS k = ST.STK_CMD_RANGE ∧ t.rd STK_CMD_STS.DONE k = 1 ∧ t.rd STK_CMD_STS.BUSY k = 0 ∧ t.mem = s.mem) ∧
  (∀ (s : State) (k m : Nat), k < 8 → s.flag STK_CMD_STS.BUSY k = false → (∀ j ∈ bitList m 8, setOwner s k j = none) →
    (bitList m 8 ≠ [] → ∃ t, exec (.zeroize k m) s = .next t ∧ t.rd STK_CMD_STS.BUSY k = 1 ∧ (t.stkUnit k).cmd = some (.zero (m % 256)) ∧
      SameRegs s t [STK_CMD_STS.BUSY.key k, STK_CMD_PROG.PROGRESS.key k] ∧ { t with regs := s.regs, stk.units := s.stk.units } = s) ∧
    (bitList m 8 = [] → ∃ t, exec (.zeroize k m) s = .next t ∧ t.rd STK_CMD_STS.STATUS k = ST.OK ∧ t.rd STK_CMD_STS.DONE k = 1 ∧ t.mem = s.mem)) ∧
  (∀ (s : State) (k m : Nat), k < 8 → s.flag STK_CMD_STS.BUSY k = false → (∃ j ∈ bitList m 8, setOwner s k j ≠ none) →
    ∃ t, exec (.zeroize k m) s = .next t ∧ t.rd STK_CMD_STS.STATUS k = ST.STK_CMD_OWNED ∧ t.rd STK_CMD_STS.DONE k = 1 ∧ t.mem = s.mem) ∧
  (∀ (s : State) (k m op : Nat), s.flag STK_CMD_STS.BUSY k = true → op = 1 ∨ op = 2 →
    ∃ t, exec (.fill k) s = .next t ∧ exec (.zeroize k m) s = .next t ∧ exec (.stkCmdInvalid k op) s = .next t ∧
      t.rd STK_CMD_STS.ERR k = 1 ∧ RegsOnly s t [STK_CMD_STS.ERR.key k]) ∧
  (∀ (s : State) (k op : Nat), op ≠ 1 → op ≠ 2 → op ≠ 15 →
    ∃ t, exec (.stkCmdInvalid k op) s = .next t ∧ t.rd STK_CMD_STS.ERR k = 1 ∧ RegsOnly s t [STK_CMD_STS.ERR.key k]) ∧
  (∀ (s : State) (k : Nat) (c : StkCmd), k < 8 → (s.stkUnit k).cmd = some c →
    (stkReach s k (stkEnd c) c = stkEnd c → ∃ t, exec (.stkCmdComplete k) s = .next t ∧ t.rd STK_CMD_STS.BUSY k = 0 ∧ t.rd STK_CMD_STS.DONE k = 1 ∧
      t.rd STK_CMD_STS.STATUS k = ST.OK ∧ (t.stkUnit k).cmd = none ∧
      (∀ a b pat, c = .fill (4096 * a) (4096 * b) pat → pat.length = 32 → 4096 * b ≤ upperSize →
        let hit := fun off => off % 32 = 0 ∧ 4096 * a ≤ off ∧ off < 4096 * b ∧ offStack off = k
        (∀ off i, hit off → i < 32 → t.byteAt (locOf s (off + i)) = pat[i]?) ∧
        ∀ x, (∀ off, hit off → x < locOf s off ∨ locOf s off + 32 ≤ x) → t.byteAt x = s.byteAt x) ∧
      (∀ m, c = .zero m → m < 256 → ∀ off i, off % 32 = 0 → off < upperSize → offStack off = k → bitOf m (offSet off) = true → i < 32 →
        t.byteAt (off + i) = some 0 ∧ t.byteAt (locOf s (off + i)) = some 0)) ∧
    (stkReach s k (stkEnd c) c ≠ stkEnd c → ∃ t, exec (.stkCmdComplete k) s = .next t ∧ t.mem = s.mem ∧ (t.stkUnit k).cmd = some c ∧
      { t with stk.claimWaits := s.stk.claimWaits } = s)) ∧
  (∀ (s : State) (k reached : Nat) (c : StkCmd), k < 8 → (s.stkUnit k).cmd = some c →
    ∃ t, exec (.stkCmdAbort k reached) s = .next t ∧ t.rd STK_CMD_STS.BUSY k = 0 ∧ t.rd STK_CMD_STS.DONE k = 1 ∧
      t.rd STK_CMD_STS.STATUS k = ST.STK_CMD_ABORTED ∧ (t.stkUnit k).cmd = none) ∧
  (∀ (s : State) (k reached : Nat), (s.stkUnit k).cmd = none → exec (.stkCmdAbort k reached) s = .next s)

/-- REMAP_INSTALL of a row that no entry redirects, at an entry not in use, while nothing is copied, sets BUSY and starts
the copy; while BUSY is set, or with a layer above 11, it sets only BUSY_ERR; at an entry in use it sets only INUSE; of
a row redirected already it sets only DUP. REMAP_COPY_DONE of a row that no list has claimed, with nothing waiting,
makes the entry valid and clears BUSY, and the spare holds what the row's clean sectors hold; while a list holds the row
the copy waits and no memory changes. REMAP_REMOVE makes the selected entry invalid and changes no memory; while BUSY is
set it sets only BUSY_ERR. PATROL_SCRUB_ROW moves on by one row, and after the last row to row 0 with one more pass; a
sector of the row that needs correction is written back corrected, and one that does not decode is written back with its
poison mark, and beside that, counts, records and free values nothing changes. It does nothing while patrol is off, and
leaves all as it is, but for a wait that begins, while the stack is fenced or the row is held or the stack is in
self-refresh. REFRESH of an idle bank owes nothing more; a busy bank owes one more up to POSTPONE_MAX, and then the
refresh preempts a platen operation, counted in STK_CNT6, or takes the bank from other work, which is not counted.
Rests on R67, R68, R69, R70, R75, R89. -/
def Obligations.RemapPatrolAndRefresh : Prop :=
  (∀ (s : State) (k v : Nat), k < 8 →
    let n := s.rd STK_REMAP_SEL.INDEX k
    let dup := ∃ m < 32, s.flag STK_REMAP_ENT.VALID (32 * k + m) = true ∧ remapEntry s k m = bits v 4 27 * 16
    (s.flag STK_REMAP_STS.BUSY k = false → bits v 27 4 < 12 → s.flag STK_REMAP_ENT.VALID (32 * k + n) = false → ¬ dup →
      ∃ t, exec (.remapInstall k v) s = .next t ∧ t.rd STK_REMAP_STS.BUSY k = 1 ∧ (t.stkUnit k).remap = some (n, bits v 4 27 * 16) ∧
        SameRegs s t [STK_REMAP_STS.BUSY.key k] ∧ { t with regs := s.regs, stk.units := s.stk.units } = s) ∧
    (s.flag STK_REMAP_STS.BUSY k = true ∨ 12 ≤ bits v 27 4 →
      ∃ t, exec (.remapInstall k v) s = .next t ∧ t.rd STK_REMAP_STS.BUSY_ERR k = 1 ∧ RegsOnly s t [STK_REMAP_STS.BUSY_ERR.key k]) ∧
    (s.flag STK_REMAP_STS.BUSY k = false → bits v 27 4 < 12 → s.flag STK_REMAP_ENT.VALID (32 * k + n) = true →
      ∃ t, exec (.remapInstall k v) s = .next t ∧ t.rd STK_REMAP_STS.INUSE k = 1 ∧ RegsOnly s t [STK_REMAP_STS.INUSE.key k]) ∧
    (s.flag STK_REMAP_STS.BUSY k = false → bits v 27 4 < 12 → s.flag STK_REMAP_ENT.VALID (32 * k + n) = false → dup →
      ∃ t, exec (.remapInstall k v) s = .next t ∧ t.rd STK_REMAP_STS.DUP k = 1 ∧ RegsOnly s t [STK_REMAP_STS.DUP.key k])) ∧
  (∀ (s : State) (k n w : Nat), k < 8 → n < 32 → (s.stkUnit k).remap = some (n, w) →
    ((s.stkUnit k).waiting = [] → claimHeld s (remapOff k w 0) = false →
      ∃ t, exec (.remapCopyDone k) s = .next t ∧ t.rd STK_REMAP_STS.BUSY k = 0 ∧ t.rd STK_REMAP_ENT.VALID (32 * k + n) = 1 ∧
        (t.stkUnit k).remap = none ∧
        (∀ j d, j < 32 → cells s (remapOff k w j) = some d → poisonBit s (remapOff k w j) = false →
          decodeWord (wordOf s (remapOff k w j) d) = .clean →
          cells t (spareLoc k n (32 * j)) = some d ∧ poisonBit t (spareLoc k n (32 * j)) = false)) ∧
    (claimHeld s (remapOff k w 0) = true → ∃ t, exec (.remapCopyDone k) s = .next t ∧ { t with stk.claimWaits := s.stk.claimWaits } = s)) ∧
  (∀ (s : State) (k v : Nat), k < 8 →
    (s.rd STK_REMAP_SEL.INDEX k < 32 → s.flag STK_REMAP_STS.BUSY k = false →
      ∃ t, exec (.remapRemove k v) s = .next t ∧ t.rd STK_REMAP_ENT.VALID (32 * k + s.rd STK_REMAP_SEL.INDEX k) = 0 ∧ t.mem = s.mem ∧
        { t with regs := s.regs } = s) ∧
    (s.flag STK_REMAP_STS.BUSY k = true →
      ∃ t, exec (.remapRemove k v) s = .next t ∧ t.rd STK_REMAP_STS.BUSY_ERR k = 1 ∧ RegsOnly s t [STK_REMAP_STS.BUSY_ERR.key k])) ∧
  (∀ (s : State) (k : Nat), k < 8 →
    let ix := s.rd STK_PATROL_POS.ROW_INDEX k
    (s.flag STK_PATROL_CFG.EN k = true → stackShut s k = false → rowHeld s (patrolOff k ix 0) = false →
      ∃ t, exec (.patrolScrubRow k []) s = .next t ∧
        (ix + 1 < stackRows → t.rd STK_PATROL_POS.ROW_INDEX k = ix + 1) ∧
        (stackRows ≤ ix + 1 → t.rd STK_PATROL_POS.ROW_INDEX k = 0 ∧ t.rd STK_PATROL_PASS.COUNT k = (s.rd STK_PATROL_PASS.COUNT k + 1) % 2 ^ 32) ∧
        (∀ j d, j < 32 → cells s (locOf s (patrolOff k ix j)) = some d → poisonBit s (locOf s (patrolOff k ix j)) = false →
          (∀ w, decodeWord (wordOf s (locOf s (patrolOff k ix j)) d) = .fixed w →
            cells t (locOf s (patrolOff k ix j)) = some ((List.range 32).map fun i => ((w.drop 4).map (BitVec.ofNat 8)).getD i 0)) ∧
          (decodeWord (wordOf s (locOf s (patrolOff k ix j)) d) = .bad → poisonBit t (locOf s (patrolOff k ix j)) = true)) ∧
        (∀ x, (∀ j < 32, x < locOf s (patrolOff k ix j) ∨ locOf s (patrolOff k ix j) + 32 ≤ x) → t.byteAt x = s.byteAt x) ∧
        { t with regs := s.regs, mem := s.mem, chk := s.chk, psn := s.psn, freeIx := s.freeIx, ras.handlers := s.ras.handlers } = s) ∧
    (s.flag STK_PATROL_CFG.EN k = false → exec (.patrolScrubRow k []) s = .next s) ∧
    (stackShut s k = true ∨ rowHeld s (patrolOff k ix 0) = true →
      ∃ t, exec (.patrolScrubRow k []) s = .next t ∧ { t with stk.claimWaits := s.stk.claimWaits } = s)) ∧
  (∀ (s : State) (k bank : Nat), k < 8 →
    (∃ t, exec (.refresh k bank 0) s = .next t ∧ KMap.get 0 (t.stkUnit k).postponed bank = 0 ∧ { t with stk.units := s.stk.units } = s) ∧
    (∀ busy, busy ≠ 0 → KMap.get 0 (s.stkUnit k).postponed bank < s.rd STK_REF_CFG.POSTPONE_MAX k →
      ∃ t, exec (.refresh k bank busy) s = .next t ∧ KMap.get 0 (t.stkUnit k).postponed bank = KMap.get 0 (s.stkUnit k).postponed bank + 1 ∧
        { t with stk.units := s.stk.units } = s) ∧
    (s.rd STK_REF_CFG.POSTPONE_MAX k ≤ KMap.get 0 (s.stkUnit k).postponed bank →
      (∃ t, exec (.refresh k bank 1) s = .next t ∧ KMap.get 0 (t.stkUnit k).postponed bank = 0 ∧
        t.rd (STK_CNT.COUNT 6) k = min (2 ^ 32 - 1) (s.rd (STK_CNT.COUNT 6) k + 1) ∧ SameRegs s t [(STK_CNT.COUNT 6).key k] ∧
        { t with regs := s.regs, stk.units := s.stk.units } = s) ∧
      (∀ busy, 1 < busy → ∃ t, exec (.refresh k bank busy) s = .next t ∧ KMap.get 0 (t.stkUnit k).postponed bank = 0 ∧
        { t with stk.units := s.stk.units } = s)))

/-- Where the bucket of its partition lets it pass, and charged to it, PLATEN_LIST_SUBMIT of a list that no check refuses
puts it last in its stack's queue and changes nothing else; of one that a check refuses returns a record with that
status, counted in PLT_CNT5. Where the bucket does not, the list waits in line. PLATEN_LIST_START of a target takes its
oldest list that may start (the first of the queue always does, when its units are free, no other issuer's press state
holds its gang and no earlier write of its source waits) from the queue to the unit, and claims the rows that it writes;
with no such list it changes nothing. PLATEN_LIST_RETIRE of a list that is over takes it off, counted in PLT_CNT0, and
returns its record; folios that wait for a gang are served after it. PLATEN_PREEMPT suspends a list 4,000 ns after its
start, counted in PLT_CNT1, and gives up its claims; PLATEN_RESUME claims them again and resumes with a new budget.
PHASE_TMO_EXPIRE drops a hold past PHASE_TMO, counted in PLT_CNT4, unless a list of the holder with a phase command to
run has arrived in time. PLT_RES_INJ with GO set arms one mismatch in the unit that it names, and without it changes
nothing.
Rests on R81, R82, R83, R88, R89, R91, R94, R97, R98, R200, R206. -/
def Obligations.PlatenListsQueueStartAndRetire : Prop :=
  (∀ (s : State) (k : Nat) (iss : PltIssuer) (hd : Bytes) (ws : List Nat) (st : Bytes), bucketPasses s (leAt hd 2 1) = true →
    let c := charged (leAt hd 2 1) (listBytes ws st) s
    (listRefusal s k hd ws (parseList iss hd ws st s.now) = none →
      ∃ t, exec (.platenListSubmit k iss hd ws st) s = .next t ∧ pltList t k = pltList s k ++ [parseList iss hd ws st s.now] ∧
        SameBut s.plt.queues t.plt.queues k ∧ { t with plt.queues := s.plt.queues } = c) ∧
    (∀ x, listRefusal s k hd ws (parseList iss hd ws st s.now) = some x →
      ∃ t, exec (.platenListSubmit k iss hd ws st) s =
          .next (pltDeliver { issuer := iss, tag := leAt hd 6 2, status := x, cmdIndex := 255 } t) ∧
        t.rd (PLT_CNT.COUNT 5) k = min (2 ^ 32 - 1) (s.rd (PLT_CNT.COUNT 5) k + 1) ∧ t.plt.queues = s.plt.queues ∧ { t with regs := s.regs } = c)) ∧
  (∀ (s : State) (k : Nat) (iss : PltIssuer) (hd : Bytes) (ws : List Nat) (st : Bytes), bucketPasses s (leAt hd 2 1) = false →
    ∃ t, exec (.platenListSubmit k iss hd ws st) s = .next t ∧ t.rea.regWait = s.rea.regWait ++ [.list k iss hd ws st] ∧
      t.rd REAM_REG_STALL_CNT.COUNT = min (2 ^ 32 - 1) (s.rd REAM_REG_STALL_CNT.COUNT + 1) ∧
      SameRegs s t [REAM_REG_STALL_CNT.COUNT.key 0] ∧ { t with regs := s.regs, rea.regWait := s.rea.regWait } = s) ∧
  (∀ (s : State) (k u : Nat),
    (nextList s k u [] (pltList s k) = none → exec (.platenListStart k u) s = .next s) ∧
    (∀ l, nextList s k u [] (pltList s k) = some l → KMap.find? s.stk.claims (64 * k + u) = none →
      ∃ t, exec (.platenListStart k u) s = .next t ∧ pltList t k = (pltList s k).erase l ∧
        pltRun? t (64 * k + u) = some { list := l, start := s.now, budget := s.now } ∧
        KMap.get [] t.stk.claims (64 * k + u) = listRows l ∧ t.mem = s.mem ∧
        SameRegs s t [PLT_STS.BUSY.key k, PLT_CLAIM_STS.CLAIMED.key k] ∧
        { t with regs := s.regs, plt.queues := s.plt.queues, plt.runs := s.plt.runs, stk.claims := s.stk.claims, stk.units := s.stk.units } = s) ∧
    (∀ l rest, pltList s k = l :: rest → l.first = u → (∀ v ∈ l.units, unitBusy s k v = false) →
      (l.gang = true → (pltHold s (8 * k + l.target)).held = true → (pltHold s (8 * k + l.target)).issuer = l.issuer) →
      writeAhead s k l = false → nextList s k u [] (pltList s k) = some l)) ∧
  (∀ (s : State) (k u : Nat) (r : PltRun), k < 8 → pltRun? s (64 * k + u) = some r → r.ended = true → r.list.part < 32 →
    ∃ t, exec (.platenListRetire k u) s = .next (gangsServe (pltDeliver
        { issuer := r.list.issuer, tag := r.list.tag, status := r.status, cmdIndex := r.cmdIndex, retried := r.retried, poison := r.poison,
          preempted := r.preempted, cycles := (s.now - r.start) * 6 / 5, outs := r.outs, outsBad := r.outsBad } t)) ∧
      pltRun? t (64 * k + u) = none ∧ ((s.stkUnit k).waiting = [] → t.mem = s.mem) ∧ KMap.get [] t.stk.claims (64 * k + u) = [] ∧
      t.rd (PLT_CNT.COUNT 0) k = min (2 ^ 32 - 1) (s.rd (PLT_CNT.COUNT 0) k + 1)) ∧
  (∀ (s : State) (k u : Nat) (r : PltRun), k < 8 → pltRun? s (64 * k + u) = some r → r.ended = false → r.suspended = false →
    r.list.part < 32 →
    (r.budget + 4000 ≤ s.now → ∃ t, exec (.platenPreempt k u) s = .next t ∧
      pltRun? t (64 * k + u) = some { r with suspended := true, preempted := true } ∧
      t.rd (PLT_CNT.COUNT 1) k = min (2 ^ 32 - 1) (s.rd (PLT_CNT.COUNT 1) k + 1) ∧ KMap.get [] t.stk.claims (64 * k + u) = [] ∧
      ((s.stkUnit k).waiting = [] → t.mem = s.mem)) ∧
    (s.now < r.budget + 4000 → exec (.platenPreempt k u) s = .next s)) ∧
  (∀ (s : State) (k u : Nat) (r : PltRun), pltRun? s (64 * k + u) = some r → r.suspended = true → KMap.find? s.stk.claims (64 * k + u) = none →
    ∃ t, exec (.platenResume k u) s = .next t ∧ pltRun? t (64 * k + u) = some { r with suspended := false, budget := s.now } ∧
      KMap.get [] t.stk.claims (64 * k + u) = listRows r.list ∧
      { t with regs := s.regs, plt.runs := s.plt.runs, stk.claims := s.stk.claims, stk.units := s.stk.units } = s) ∧
  (∀ (s : State) (k c : Nat), k < 8 → c < 8 → (pltHold s (8 * k + c)).held = true →
    s.rd PLT_CFG.PHASE_TMO k * 1000 < s.now - (pltHold s (8 * k + c)).since →
    (inTime s k c = false → ∃ t, exec (.phaseTmoExpire k c) s = .next (gangsServe t) ∧ (pltHold t (8 * k + c)).held = false ∧
      (pltHold t (8 * k + c)).lost = some (pltHold s (8 * k + c)).issuer ∧
      t.rd (PLT_CNT.COUNT 4) k = min (2 ^ 32 - 1) (s.rd (PLT_CNT.COUNT 4) k + 1) ∧
      { t with regs := s.regs, plt.holds := s.plt.holds, plt.freeAt := s.plt.freeAt } = s) ∧
    (inTime s k c = true → exec (.phaseTmoExpire k c) s = .next s)) ∧
  (∀ (s : State) (k v : Nat),
    (bitOf v 6 = true → ∃ t, exec (.pltResInj k v) s = .next t ∧ KMap.get 0 t.plt.inject (64 * k + bits v 0 6) = 1 ∧
      SameBut s.plt.inject t.plt.inject (64 * k + bits v 0 6) ∧ { t with plt.inject := s.plt.inject } = s) ∧
    (bitOf v 6 = false → exec (.pltResInj k v) s = .next s))

/-- For a running list whose next command is the one named, on a stack that serves it: NOP only moves on. LDS of own
granules that read clean loads each unit's 128 lanes, 16-bit words as stored or bytes sign-extended. PUTS takes 256 or
128 bytes of the stream into every unit. STS writes the 128 lanes of each unit to its own granules, each sector poisoned
as its lanes are, and changes no other byte. XCLR clears the flagged accumulators. STX stores each lane of an
accumulator as 32 bits, poison with it. VMAC, with no residue mismatch, adds the product of the two sorts' signed lanes
to each accumulator lane modulo 2^48, and the poison of either source reaches the sum. FENCE counts in PLT_CNT6 and
leaves no granule of the list unfenced. Each advances the list by one command without a failure. LDS, STS and STX of an
address that is not aligned, or not the unit's own, fail with ST_PLT_ADDR, and any of them on a fenced stack with
ST_STK_FENCED.
Rests on R67, R78, R82, R83, R84, R85, R88, R93, R98, R109. -/
def Obligations.PlatenVectorCommandsCompute : Prop :=
  (∀ (s : State) (k u : Nat) (r : PltRun) (w : Nat), NextCmd s k u 0x00 r w →
    ∃ t, exec (.pltNop k u) s = .next t ∧ pltRun? t (64 * k + u) = some r.advanced ∧ { t with plt.runs := s.plt.runs } = s) ∧
  (∀ (s : State) (k u : Nat) (r : PltRun) (w : Nat), NextCmd s k u 0x01 r w → Reachable s k r w → bits (cmdAddr w) 9 2 = 0 →
    (∀ v ∈ r.list.units, ownOk k r.list w v = true ∧ ∀ b ∈ granuleSectors (ownAddr r.list w v) (if bitOf (cmdFlags w) 0 then 2 else 4), CleanSector s b) →
    ∃ t, exec (.lds k u) s = .next t ∧ pltRun? t (64 * k + u) = some r.advanced ∧
      (∀ v ∈ r.list.units, sortPoison t (64 * k + v) (cmdRd w) = 0 ∧ ∀ j < 128, ∃ x y,
        s.byteAt (locOf s (ownAddr r.list w v + 512 * ((if bitOf (cmdFlags w) 0 then j else 2 * j) / 64) + (if bitOf (cmdFlags w) 0 then j else 2 * j) % 64)) = some x ∧
        (bitOf (cmdFlags w) 0 = false → s.byteAt (locOf s (ownAddr r.list w v + 512 * (2 * j / 64) + 2 * j % 64 + 1)) = some y) ∧
        sortLane t (64 * k + v) (cmdRd w) j = if bitOf (cmdFlags w) 0 then ofInt 16 (sInt 8 x.toNat) else x.toNat + 256 * y.toNat) ∧
      { t with plt.runs := s.plt.runs, plt.sorts := s.plt.sorts, plt.undef := s.plt.undef, plt.spsn := s.plt.spsn } = s) ∧
  (∀ (s : State) (k u : Nat) (r : PltRun) (w : Nat), NextCmd s k u 0x02 r w → Reachable s k r w → bits (cmdAddr w) 9 2 = 0 →
    (∀ v ∈ r.list.units, ownOk k r.list w v = true) →
    ∃ t r', exec (.sts k u) s = .next t ∧ WentOn t k u r r' ∧
      (∀ v ∈ r.list.units, ∀ j < 128,
        t.byteAt (locOf s (ownAddr r.list w v + 512 * (2 * j / 64) + 2 * j % 64)) = some (BitVec.ofNat 8 (sortLane s (64 * k + v) (cmdRs w) j)) ∧
        t.byteAt (locOf s (ownAddr r.list w v + 512 * (2 * j / 64) + 2 * j % 64 + 1)) = some (BitVec.ofNat 8 (sortLane s (64 * k + v) (cmdRs w) j / 256))) ∧
      (∀ v ∈ r.list.units, ∀ i < 8, poisonBit t (locOf s (ownAddr r.list w v + 512 * (i / 2) + 32 * (i % 2))) = bitOf (sortPoison s (64 * k + v) (cmdRs w)) i) ∧
      (∀ a, (∀ v ∈ r.list.units, ∀ b ∈ granuleSectors (ownAddr r.list w v) 4, a < locOf s b ∨ locOf s b + 32 ≤ a) → t.byteAt a = s.byteAt a) ∧
      { t with plt.runs := s.plt.runs, mem := s.mem, chk := s.chk, psn := s.psn } = s) ∧
  (∀ (s : State) (k u : Nat) (r : PltRun) (w : Nat), NextCmd s k u 0x03 r w → (if bitOf (cmdFlags w) 0 then 128 else 256) ≤ r.list.stream.length →
    ∃ t, exec (.puts k u) s = .next t ∧
      pltRun? t (64 * k + u) = some (PltRun.advanced { r with list := { r.list with stream := r.list.stream.drop (if bitOf (cmdFlags w) 0 then 128 else 256) } }) ∧
      (∀ v ∈ r.list.units, sortPoison t (64 * k + v) (cmdRd w) = 0 ∧ ∀ j < 128, sortLane t (64 * k + v) (cmdRd w) j =
        if bitOf (cmdFlags w) 0 then ofInt 16 (sInt 8 (leAt r.list.stream j 1)) else leAt r.list.stream (2 * j) 2) ∧
      { t with plt.runs := s.plt.runs, plt.sorts := s.plt.sorts, plt.undef := s.plt.undef, plt.spsn := s.plt.spsn } = s) ∧
  (∀ (s : State) (k u : Nat) (r : PltRun) (w : Nat), NextCmd s k u 0x04 r w →
    ∃ t, exec (.xclr k u) s = .next t ∧ pltRun? t (64 * k + u) = some r.advanced ∧
      (∀ v ∈ r.list.units, ∀ x < 4, bitOf (cmdFlags w) x = true → accPoison t (64 * k + v) x = 0 ∧ ∀ j < 128, accLane t (64 * k + v) x j = 0) ∧
      (∀ n x, (x < 4 ∧ ¬ ((∃ v ∈ r.list.units, n = 64 * k + v) ∧ bitOf (cmdFlags w) x = true)) → ∀ j < 128, accLane t n x j = accLane s n x j) ∧
      { t with plt.runs := s.plt.runs, plt.accs := s.plt.accs, plt.f32 := s.plt.f32, plt.apsn := s.plt.apsn } = s) ∧
  (∀ (s : State) (k u : Nat) (r : PltRun) (w : Nat), NextCmd s k u 0x05 r w → Reachable s k r w → bits (cmdAddr w) 9 3 = 0 →
    (∀ v ∈ r.list.units, ownOk k r.list w v = true) →
    ∃ t r', exec (.stx k u) s = .next t ∧ WentOn t k u r r' ∧
      (∀ v ∈ r.list.units, ∀ j < 128, ∀ i < 4,
        t.byteAt (locOf s (ownAddr r.list w v + 512 * (4 * j / 64) + 4 * j % 64 + i)) =
          some (BitVec.ofNat 8 (stxWord (KMap.get 0 s.plt.f32 ((64 * k + v) * 4 + cmdRs w % 4)) (accLane s (64 * k + v) (cmdRs w % 4) j) / 256 ^ i))) ∧
      (∀ v ∈ r.list.units, ∀ i < 16, poisonBit t (locOf s (ownAddr r.list w v + 512 * (i / 2) + 32 * (i % 2))) = bitOf (accPoison s (64 * k + v) (cmdRs w % 4)) (i / 2)) ∧
      (∀ a, (∀ v ∈ r.list.units, ∀ b ∈ granuleSectors (ownAddr r.list w v) 8, a < locOf s b ∨ locOf s b + 32 ≤ a) → t.byteAt a = s.byteAt a) ∧
      { t with plt.runs := s.plt.runs, mem := s.mem, chk := s.chk, psn := s.psn } = s) ∧
  (∀ (s : State) (k u : Nat) (r : PltRun) (w : Nat), NextCmd s k u 0x06 r w → NoMismatch s k r →
    ∃ t, exec (.vmac k u 0) s = .next t ∧ pltRun? t (64 * k + u) = some r.advanced ∧
      (∀ v ∈ r.list.units, accPoison t (64 * k + v) (cmdRd w % 4) =
          (accPoison s (64 * k + v) (cmdRd w % 4) ||| sortPoison s (64 * k + v) (cmdRs w) ||| sortPoison s (64 * k + v) (cmdArg w % 16)) ∧
        ∀ j < 128, accLane t (64 * k + v) (cmdRd w % 4) j =
          ofInt 48 (sInt 48 (accLane s (64 * k + v) (cmdRd w % 4) j) +
            sInt 16 (sortLane s (64 * k + v) (cmdRs w) j) * sInt 16 (sortLane s (64 * k + v) (cmdArg w % 16) j))) ∧
      { t with plt.runs := s.plt.runs, plt.accs := s.plt.accs, plt.f32 := s.plt.f32, plt.apsn := s.plt.apsn, plt.inject := s.plt.inject } = s) ∧
  (∀ (s : State) (k u : Nat) (r : PltRun) (w : Nat), k < 8 → NextCmd s k u 0x0E r w →
    ∃ t, exec (.fence k u) s = .next t ∧ pltRun? t (64 * k + u) = some (PltRun.advanced { r with wrote := [] }) ∧
      t.rd (PLT_CNT.COUNT 6) k = min (2 ^ 32 - 1) (s.rd (PLT_CNT.COUNT 6) k + 1) ∧ t.mem = s.mem ∧
      { t with plt.runs := s.plt.runs, regs := s.regs, gal.lines := s.gal.lines } = s) ∧
  (∀ (s : State) (k u : Nat) (r : PltRun) (w op : Nat) (c : Instr), (op = 0x01 ∧ c = .lds k u) ∨ (op = 0x02 ∧ c = .sts k u) ∨ (op = 0x05 ∧ c = .stx k u) →
    NextCmd s k u op r w →
    (Reachable s k r w → bits (cmdAddr w) 9 (if op = 0x05 then 3 else 2) ≠ 0 ∨ (∃ v ∈ r.list.units, ownOk k r.list w v = false) →
      ∃ t, exec c s = .next t ∧ pltRun? t (64 * k + u) = some (r.failed ST.PLT_ADDR) ∧ { t with plt.runs := s.plt.runs } = s) ∧
    (stackShut s k = true →
      ∃ t, exec c s = .next t ∧ pltRun? t (64 * k + u) = some (r.failed ST.STK_FENCED) ∧ { t with plt.runs := s.plt.runs } = s))

/-- For a gang's running list whose next command is the one named, on a stack that serves it: a well-formed PARM sets the
gang's geometry, and any other fails with ST_PLT_LIST_FORMAT. PSCORE that nothing refuses, over an extent of an open
solid folio whose header, and the keys and scales of the window, read without poison, appends one score of 4 bytes for
each position of the window and head of the pass, minus infinity at positions past the fill, and holds the gang for the
issuer; over a kerned or sealed folio it fails with ST_PLT_NOT_OPEN, counted in PLT_CNT4. PWACC under the issuer's hold,
with values and scales that read without poison, sets every accumulator lane whose value elements the unit holds to the
sum of R87. XOUT under the hold appends the sums over the units, and ends the hold as its flag says; without one it
fails with ST_PLT_NO_HOLD. None of them changes memory; after each the chase's sorts 13 to 15 hold free values. A
mismatch of VMAC's residue check is repeated once, counted in PLT_CNT2, and a second one, counted in PLT_CNT3, ends the
list with ST_PLT_RESIDUE, poisoned, and poisons the unit's accumulator.
Rests on R84, R85, R86, R87, R88, R97. -/
def Obligations.PressCommandsCompute : Prop :=
  (∀ (s : State) (k u : Nat) (r : PltRun) (w : Nat), NextCmd s k u 0x07 r w →
    (parmOk w = true → ∃ t, exec (.parm k u) s = .next t ∧ pltRun? t (64 * k + u) = some r.advanced ∧
      KMap.get 0 t.plt.parms (8 * k + r.list.target) = w ∧
      { t with plt.runs := s.plt.runs, plt.parms := s.plt.parms, plt.spsn := s.plt.spsn, plt.undef := s.plt.undef, freeIx := s.freeIx } = s) ∧
    (parmOk w = false → ∃ t, exec (.parm k u) s = .next t ∧ pltRun? t (64 * k + u) = some (r.failed ST.PLT_LIST_FORMAT) ∧
      { t with plt.runs := s.plt.runs, plt.spsn := s.plt.spsn, plt.undef := s.plt.undef, freeIx := s.freeIx } = s)) ∧
  (∀ (s s₁ : State) (k u : Nat) (r : PltRun) (w : Nat) (hb : Bytes), NextCmd s k u 0x08 r w → Reachable s k r w →
    let c := r.list.target
    let pw := KMap.get 0 s.plt.parms (8 * k + c)
    let g := parmGeo pw
    let hf := cmdArg w % 32
    let np := min (scorePass g) (parmH pw + 1 - hf)
    let n := min (parmHi pw) (Hdr.ofBytes hb).fill
    pscoreRefusal s k w r.list = 0 → readArray r.list.part (cmdAddr w) 64 s = (some hb, s₁) →
    (∀ s₂ key ks, (Hdr.ofBytes hb).kerned = false → (Hdr.ofBytes hb).sealed = false → NoMismatch s k r →
      pressPlane r.list.part (cmdAddr w) bodyOff (bodyOff + g.keyScaleOff) g.kf g.d (parmLo pw) n s₁ = ((key, ks, []), s₂) →
      ∃ t r', exec (.pscore k u 0) s = .next t ∧ WentOn t k u r r' ∧
        r'.outs = r.outs ++ ((List.range (parmHi pw)).drop (parmLo pw)).flatMap (fun p => (List.range np).flatMap fun h =>
          natLe 4 (if n ≤ p then minusInf32 else score s k c g key ks h p)) ∧
        ((∀ rank < 8, ∀ x < 13, sortPoison s (64 * k + 8 * c + rank) x = 0) → r'.outsBad = r.outsBad ∧ r'.poison = r.poison) ∧
        pltHold t (8 * k + c) = { held := true, issuer := r.list.issuer, part := r.list.part, n := n, since := s.now, hFirst := hf, nPass := np } ∧
        t.mem = s.mem) ∧
    ((Hdr.ofBytes hb).kerned = true ∨ (Hdr.ofBytes hb).sealed = true → k < 8 →
      ∃ t, exec (.pscore k u 0) s = .next t ∧ pltRun? t (64 * k + u) = some (r.failed ST.PLT_NOT_OPEN) ∧ t.mem = s.mem ∧
        t.rd (PLT_CNT.COUNT 4) k = min (2 ^ 32 - 1) (s.rd (PLT_CNT.COUNT 4) k + 1))) ∧
  (∀ (s s₁ : State) (k u : Nat) (r : PltRun) (w : Nat) (val vs : Bytes), NextCmd s k u 0x09 r w → Reachable s k r w →
    let c := r.list.target
    let pw := KMap.get 0 s.plt.parms (8 * k + c)
    let g := parmGeo pw
    let hf := cmdArg w % 32
    let np := min (valuePass g) (parmH pw + 1 - hf)
    let h := pltHold s (8 * k + c)
    extentOk k c (cmdAddr w) = true → holdFault s k c r.list = 0 → pw ≠ 0 → hf ≤ parmH pw → 2 * np * (parmHi pw - parmLo pw) ≤ r.list.stream.length →
    NoMismatch s k r →
    pressPlane r.list.part (cmdAddr w) (bodyOff + g.valOff) (bodyOff + g.valScaleOff) g.vf g.d (parmLo pw) h.n s = ((val, vs, []), s₁) →
    ∃ t r', exec (.pwacc k u 0) s = .next t ∧ WentOn t k u r r' ∧
      r'.list.stream = r.list.stream.drop (2 * np * (parmHi pw - parmLo pw)) ∧
      (∀ rank h' i, rank < 8 → h' < np → i < g.d → accPlace g h' i < 512 → (∀ i' < i, i' % unitDims g = i % unitDims g → holdsDim g rank i' = false) →
        holdsDim g rank i = true →
        accLane t (64 * k + 8 * c + rank) (accPlace g h' i / 128) (accPlace g h' i % 128) =
          pwLane g rank (parmLo pw) h.n np val vs (r.list.stream.take (2 * np * (parmHi pw - parmLo pw))) h' i
            (if bitOf (cmdFlags w) 0 then accLane s (64 * k + 8 * c + rank) (accPlace g h' i / 128) (accPlace g h' i % 128) % 2 ^ 32 else posZero) % 2 ^ 48) ∧
      pltHold t (8 * k + c) = { h with hFirst := hf, nPass := np } ∧ t.mem = s.mem) ∧
  (∀ (s : State) (k u : Nat) (r : PltRun) (w : Nat), NextCmd s k u 0x0A r w → stackShut s k = false →
    let c := r.list.target
    let h := pltHold s (8 * k + c)
    let g := parmGeo (KMap.get 0 s.plt.parms (8 * k + c))
    (h.held = true → h.issuer = r.list.issuer →
      ∃ t r', exec (.xout k u) s = .next t ∧ WentOn t k u r r' ∧
        r'.outs = r.outs ++ (List.range h.nPass).flatMap (fun h' => (List.range g.d).flatMap fun i =>
          natLe 4 (orderedSum (((List.range 8).filter fun rank => holdsDim g rank i).map fun rank =>
            accLane s (64 * k + 8 * c + rank) (accPlace g h' i / 128) (accPlace g h' i % 128) % 2 ^ 32))) ∧
        ((∀ rank x, accPoison s (64 * k + 8 * c + rank) x = 0) → r'.outsBad = r.outsBad ∧ r'.poison = r.poison) ∧
        (pltHold t (8 * k + c)).held = !bitOf (cmdFlags w) 0 ∧ t.mem = s.mem) ∧
    (¬ (h.held = true ∧ h.issuer = r.list.issuer) → h.lost ≠ some r.list.issuer →
      ∃ t, exec (.xout k u) s = .next t ∧ pltRun? t (64 * k + u) = some (r.failed ST.PLT_NO_HOLD) ∧ t.mem = s.mem)) ∧
  (∀ (s : State) (k u : Nat) (r : PltRun) (w mism : Nat), k < 8 → NextCmd s k u 0x06 r w →
    (∀ v ∈ r.list.units, v ≠ r.list.first → KMap.get 0 s.plt.inject (64 * k + v) = 0) →
    (mism + KMap.get 0 s.plt.inject (64 * k + r.list.first) = 1 →
      ∃ t r', exec (.vmac k u mism) s = .next t ∧ WentOn t k u r r' ∧ r'.retried = true ∧
        t.rd (PLT_CNT.COUNT 2) k = min (2 ^ 32 - 1) (s.rd (PLT_CNT.COUNT 2) k + 1)) ∧
    (2 ≤ mism + KMap.get 0 s.plt.inject (64 * k + r.list.first) →
      ∃ t r', exec (.vmac k u mism) s = .next t ∧ pltRun? t (64 * k + u) = some r' ∧ r'.ended = true ∧ r'.status = ST.PLT_RESIDUE ∧ r'.poison = true ∧
        t.rd (PLT_CNT.COUNT 2) k = min (2 ^ 32 - 1) (s.rd (PLT_CNT.COUNT 2) k + 1) ∧
        t.rd (PLT_CNT.COUNT 3) k = min (2 ^ 32 - 1) (s.rd (PLT_CNT.COUNT 3) k + 1) ∧
        accPoison t (64 * k + r.list.first) (cmdRd w % 4) = 255))

/-- A way answers only a line whose tag, key slot and generation are the request's and whose partition is the request's
(partition 0 in ways that are not sealed). GALLEY_READ of an aligned offset whose line is held and checks right answers
that line's bytes, counted in GAL_HIT, with the cycles lost to its bank in GAL_CNT4. A held line whose check fails is
invalidated, counted in GAL_CNT0, and waits to be filled again; a miss is counted in GAL_MISS and waits as the last
fill. A line of another partition in a sealed way is refused to partition 0 with poison, counted in GUT_XPART_CNT.
GALLEY_FILL answers the oldest request that waits, unless that must wait at its stack controller; a miss of an unsealed
line whose sectors read clean fills the way chosen with the line's tag, partition, bytes and CRC, counted in GAL_FILL,
and no other line. No read changes memory. On an idle region GAL_INV with OP 1, 2 and 3 sets BUSY and clears the valid
bit of every line of the region, of those of the partition, and of those of the key slot, and changes no other line;
GAL_INV_DONE then clears BUSY and sets DONE, and changes nothing of an idle region. A write while BUSY is set changes
nothing. GAL_WAY_DISABLE clears the enable of the way and the valid bit of each of its lines, and changes no other line.
Rests on R105, R107, R108, R110, R111. -/
def Obligations.GalleyServesOnlyItsOwner : Prop :=
  (∀ (s : State) (q : GalReq) (w : Nat), galProbe s q = some w →
    w < 16 ∧ (galLine s (galKey (galRegion q.off) (galSet q.off) w)).valid = true ∧
    (galLine s (galKey (galRegion q.off) (galSet q.off) w)).tag = galTag q.off ∧
    ((galLine s (galKey (galRegion q.off) (galSet q.off) w)).part = q.part ∨ (q.part = 0 ∧ waySealed s (galRegion q.off) w = false)) ∧
    (galLine s (galKey (galRegion q.off) (galSet q.off) w)).slot = (if q.sealed then q.slot else 0) ∧
    (galLine s (galKey (galRegion q.off) (galSet q.off) w)).gen = (if q.sealed then q.gen else 0)) ∧
  (∀ (s : State) (q : GalReq) (rivals : List Nat), q.off % 128 = 0 → galRefused s q = false →
    let r := galRegion q.off
    (∀ w, galProbe s q = some w → crc32c (galLine s (galKey r (galSet q.off) w)).data = (galLine s (galKey r (galSet q.off) w)).crc →
      ∃ t, exec (.galleyRead q 0 rivals) s = .next t ∧
        t.out = OutMsg.readData q.part q.off (galLine s (galKey r (galSet q.off) w)).data false ST.OK :: s.out ∧
        t.rd GAL_HIT.COUNT r = (s.rd GAL_HIT.COUNT r + 1) % 2 ^ 64 ∧
        t.rd (GAL_CNT.COUNT 4) r = min (2 ^ 32 - 1) (s.rd (GAL_CNT.COUNT 4) r + galConflicts q.off rivals) ∧
        SameRegs s t [GAL_HIT.COUNT.key r, (GAL_CNT.COUNT 4).key r] ∧
        { t with regs := s.regs, out := s.out, gal.plru := s.gal.plru } = s) ∧
    (∀ w fails, galProbe s q = some w →
      (fails ≠ 0 ∨ crc32c (galLine s (galKey r (galSet q.off) w)).data ≠ (galLine s (galKey r (galSet q.off) w)).crc) →
      ∃ t, exec (.galleyRead q fails rivals) s = .next t ∧ t.gal.fills = s.gal.fills ++ [(q, max fails 1)] ∧
        t.rd (GAL_CNT.COUNT 0) r = min (2 ^ 32 - 1) (s.rd (GAL_CNT.COUNT 0) r + 1) ∧ (galLine t (galKey r (galSet q.off) w)).valid = false ∧
        SameBut s.gal.lines t.gal.lines (galKey r (galSet q.off) w) ∧
        { t with regs := s.regs, gal.fills := s.gal.fills, gal.lines := s.gal.lines, gal.plru := s.gal.plru } = s) ∧
    (∀ fails, galProbe s q = none →
      ∃ t, exec (.galleyRead q fails rivals) s = .next t ∧ t.gal.fills = s.gal.fills ++ [(q, 0)] ∧
        t.rd GAL_MISS.COUNT r = (s.rd GAL_MISS.COUNT r + 1) % 2 ^ 64 ∧
        t.rd (GAL_CNT.COUNT 4) r = min (2 ^ 32 - 1) (s.rd (GAL_CNT.COUNT 4) r + galConflicts q.off rivals) ∧
        SameRegs s t [GAL_MISS.COUNT.key r, (GAL_CNT.COUNT 4).key r] ∧
        { t with regs := s.regs, gal.fills := s.gal.fills } = s)) ∧
  (∀ (s : State) (q : GalReq) (fails : Nat) (rivals : List Nat), q.off % 128 = 0 → galRefused s q = true →
    ∃ t, exec (.galleyRead q fails rivals) s = .next t ∧ t.out = OutMsg.readData q.part q.off [] true ST.POISON :: s.out ∧ q.part = 0 ∧
      t.rd GUT_XPART_CNT.COUNT = min (2 ^ 32 - 1) (s.rd GUT_XPART_CNT.COUNT + 1) ∧ { t with regs := s.regs, out := s.out } = s) ∧
  (∀ (s : State) (q : GalReq) (n : Nat) (rest : List (GalReq × Nat)), s.gal.fills = (q, n) :: rest → fillWaits (fillCmd q) q s = none →
    ∃ t o, exec .galleyFill s = .next t ∧ t.gal.fills = rest ∧ t.mem = s.mem ∧
      galArrive q n (unstall (fillCmd q) { s with gal.fills := rest }) = (o, { t with out := s.out }) ∧
      t.out = OutMsg.readData q.part q.off (o.data.getD []) o.data.isNone o.status :: s.out ∧
      (∀ w, n = 0 → q.sealed = false → accessRefusal s q.part q.off 128 = none → (∀ b ∈ sectorsOf q.off 128, CleanSector s b) → galVictim s q = some w →
        ∃ d, o = { data := some d } ∧ d.length = 128 ∧ (∀ i < 128, d[i]? = s.byteAt (locOf s (q.off + i))) ∧
          galLine t (galKey (galRegion q.off) (galSet q.off) w) =
            { valid := true, tag := galTag q.off, part := q.part, data := d, crc := crc32c d } ∧
          SameBut s.gal.lines t.gal.lines (galKey (galRegion q.off) (galSet q.off) w) ∧
          t.rd GAL_FILL.COUNT (galRegion q.off) = (s.rd GAL_FILL.COUNT (galRegion q.off) + 1) % 2 ^ 64 ∧
          SameRegs s t [GAL_FILL.COUNT.key (galRegion q.off)])) ∧
  (∀ s : State, s.gal.fills = [] → exec .galleyFill s = .next s) ∧
  (∀ (s : State) (r p k : Nat), s.flag GAL_INV_STS.BUSY r = false →
    exec (.galInvDone r) s = .next s ∧
    (∃ t, exec (.galInvAll r) s = .next t ∧ t.rd GAL_INV_STS.BUSY r = 1 ∧
      (∀ e ∈ t.gal.lines, e.1 / 262144 = r → e.2.valid = false) ∧ (∀ e ∈ s.gal.lines, e.1 / 262144 ≠ r → e ∈ t.gal.lines) ∧
      t.gal.lines.length = s.gal.lines.length ∧
      SameRegs s t [GAL_INV_STS.BUSY.key r] ∧ { t with regs := s.regs, gal.lines := s.gal.lines } = s) ∧
    (∃ t, exec (.galInvPart r p) s = .next t ∧ t.rd GAL_INV_STS.BUSY r = 1 ∧
      (∀ e ∈ t.gal.lines, e.1 / 262144 = r → e.2.part = p → e.2.valid = false) ∧
      (∀ e ∈ s.gal.lines, ¬ (e.1 / 262144 = r ∧ e.2.part = p) → e ∈ t.gal.lines) ∧
      SameRegs s t [GAL_INV_STS.BUSY.key r] ∧ { t with regs := s.regs, gal.lines := s.gal.lines } = s) ∧
    (∃ t, exec (.galInvKeySlot r k) s = .next t ∧ t.rd GAL_INV_STS.BUSY r = 1 ∧
      (∀ e ∈ t.gal.lines, e.1 / 262144 = r → e.2.slot = k → e.2.valid = false) ∧
      (∀ e ∈ s.gal.lines, ¬ (e.1 / 262144 = r ∧ e.2.slot = k) → e ∈ t.gal.lines) ∧
      SameRegs s t [GAL_INV_STS.BUSY.key r] ∧ { t with regs := s.regs, gal.lines := s.gal.lines } = s)) ∧
  (∀ (s : State) (r p k : Nat), s.flag GAL_INV_STS.BUSY r = true →
    exec (.galInvAll r) s = .next s ∧ exec (.galInvPart r p) s = .next s ∧ exec (.galInvKeySlot r k) s = .next s ∧
    ∃ t, exec (.galInvDone r) s = .next t ∧ t.rd GAL_INV_STS.BUSY r = 0 ∧ t.rd GAL_INV_STS.DONE r = 1 ∧
      RegsOnly s t [GAL_INV_STS.BUSY.key r, GAL_INV_STS.DONE.key r]) ∧
  (∀ (s : State) (r w : Nat), w < 16 →
    ∃ t, exec (.galWayDisable r w) s = .next t ∧ wayEnabled t r w = false ∧ (∀ v, v < 16 → v ≠ w → wayEnabled t r v = wayEnabled s r v) ∧
      (∀ e ∈ t.gal.lines, e.1 / 262144 = r → e.1 % 16 = w → e.2.valid = false) ∧
      (∀ e ∈ s.gal.lines, ¬ (e.1 / 262144 = r ∧ e.1 % 16 = w) → e ∈ t.gal.lines) ∧
      SameRegs s t [GAL_WAY_EN.EN.key r] ∧ { t with regs := s.regs, gal.lines := s.gal.lines } = s)

/-- DISPATCH on an idle, unfenced block whose next composition's run is not in the lower case and whose folios' counts are
below 65,535 starts that composition at its ENTRY with cycles and emits at zero, raises the count of each of its folios
by one, leaves the rest of the queue, and changes no other block, no memory, and no register but STATE and the charges
of the owner's warm cycles; where a folio's count is 65,535 it waits, which FLO_CNT5 counts once. CMP_WATCHDOG_EXPIRE of
a composition that has run past LIMIT_US logs ST_CMP_WATCHDOG with KIND 3, counts in CMP_CNT4 and CMP_CNT0, reports to
the block's handler, and ends the composition with ST_CMP_WATCHDOG; one that has run LIMIT_US or less continues,
unchanged. UNFENCE of a fenced block with nothing queued or running lifts the fence and clears FAILS and changes nothing
else; of any other block it changes nothing. CMP_RES_INJ with GO arms one mismatch in the cell and of the kind that it
names, and changes nothing else; without GO it changes nothing.
Rests on R115, R116, R118, R121, R176. -/
def Obligations.BlockControlStartsAndStops : Prop :=
  (∀ (s : State) (b : Nat) (c : Comp) (rest : List Comp), (s.blk b).cur = none → (s.blk b).queue = c :: rest → blkFenced s b = false →
    s.rd CMP_SEQ_STS.STATE b ≠ 5 → compRun s c = none ∨ (∃ cv l i, compRun s c = some (cv, l, i) ∧ tierState s cv l = 0) →
    (∀ f ∈ c.slots, (s.folio f.folio).outst < 65535) →
    ∃ t c', exec (.dispatch b) s = .next t ∧ (t.blk b).cur = some c' ∧ c'.att = c.att ∧ c'.slot = c.slot ∧ c'.entry = c.entry ∧
      (t.blk b).queue = rest ∧ (t.blk b).pc = c.entry ∧ (t.blk b).cycles = 0 ∧ (t.blk b).emitted = [] ∧ (t.blk b).press = [] ∧
      (t.blk b).start = s.now ∧ t.rd CMP_SEQ_STS.STATE b = 1 ∧
      ((c.slots.map (·.folio)).Nodup → ∀ f ∈ c.slots, f.folio ≠ 0 → (t.folio f.folio).outst = (s.folio f.folio).outst + 1) ∧
      SameRegs s t (CMP_SEQ_STS.STATE.key b ::
        (blockOwner s b).toList.flatMap fun p => [(REAM_PACCT.VALUE 8).key p, (REAM_PACCT.VALUE 9).key p]) ∧
      SameBut s.cmp.blocks t.cmp.blocks b ∧
      { t with regs := s.regs, rea := s.rea, flo.folios := s.flo.folios, flo.runs := s.flo.runs, cmp.blocks := s.cmp.blocks } = s) ∧
  (∀ (s : State) (b : Nat) (c : Comp) (rest : List Comp), (s.blk b).cur = none → (s.blk b).queue = c :: rest → blkFenced s b = false →
    s.rd CMP_SEQ_STS.STATE b ≠ 5 → (∃ cv l i, compRun s c = some (cv, l, i) ∧ tierState s cv l = 0) →
    (∃ f ∈ c.slots, f.folio ≠ 0 ∧ 65535 ≤ (s.folio f.folio).outst) →
    ∃ t, exec (.dispatch b) s = .next t ∧ t.blk b = { s.blk b with waited := true } ∧
      ((s.blk b).waited = true → t = s) ∧
      ((s.blk b).waited = false → t.rd (FLO_CNT.COUNT 5) = min (2 ^ 32 - 1) (s.rd (FLO_CNT.COUNT 5) + 1) ∧
        SameRegs s t [(FLO_CNT.COUNT 5).key 0] ∧ { t with regs := s.regs, cmp.blocks := s.cmp.blocks } = s)) ∧
  (∀ (s : State) (b : Nat), (s.blk b).cur ≠ none → s.rd CMP_SEQ_STS.STATE b ≠ 5 →
    (s.rd CMP_WDOG.LIMIT_US b * 1000 < s.now - (s.blk b).start →
      ∃ t u, exec (.cmpWatchdogExpire b) s = .next (failServe b ST.CMP_WATCHDOG (t.bump (CMP_CNT.COUNT 0) b)) ∧
        t = report (.block b) { sev := 2, subsys := 1, cause := Config.causeCode 23, unit := b, part := (s.blk b).cur.map (·.part),
                                status := ST.CMP_WATCHDOG } u ∧
        (b < 64 → u.rd CMP_ERR_LOG0.STATUS b = ST.CMP_WATCHDOG ∧ u.rd CMP_ERR_LOG1.KIND b = 3 ∧
          u.rd (CMP_CNT.COUNT 4) b = min (2 ^ 32 - 1) (s.rd (CMP_CNT.COUNT 4) b + 1)) ∧
        RegsOnly s u [CMP_ERR_LOG0.STATUS.key b, CMP_ERR_LOG0.PC.key b, CMP_ERR_LOG1.KIND.key b, CMP_ERR_LOG1.PART.key b,
          CMP_ERR_LOG1.CELL.key b, (CMP_CNT.COUNT 4).key b]) ∧
    (s.now - (s.blk b).start ≤ s.rd CMP_WDOG.LIMIT_US b * 1000 → exec (.cmpWatchdogExpire b) s = .next s)) ∧
  (∀ (s : State) (b : Nat), blkFenced s b = true → (s.blk b).cur = none → (s.blk b).queue = [] →
    ∃ t, exec (.unfence b) s = .next t ∧ blkFenced t b = false ∧ t.rd CMP_FENCE_CFG.FAILS b = 0 ∧
      RegsOnly s t [CMP_SEQ_STS.STATE.key b, CMP_FENCE_CFG.FAILS.key b]) ∧
  (∀ (s : State) (b : Nat), blkFenced s b = false ∨ (s.blk b).cur ≠ none ∨ (s.blk b).queue ≠ [] → exec (.unfence b) s = .next s) ∧
  (∀ (s : State) (b v : Nat), bitOf v 7 = false → exec (.cmpResInj b v) s = .next s) ∧
  (∀ (s : State) (b v : Nat), bitOf v 7 = true →
    ∃ x : BlkSt, exec (.cmpResInj b v) s = .next (s.setBlk b x) ∧ KMap.get 0 x.inject (2 * bits v 0 4 + bits v 6 1) = 1 ∧
      { x with inject := (s.blk b).inject } = s.blk b ∧
      ∀ j, j ≠ 2 * bits v 0 4 + bits v 6 1 → KMap.get 0 x.inject j = KMap.get 0 (s.blk b).inject j)

/-- For a running block whose next legal instruction is the one named: NOP, ALU, LI, LDC, PLOG, MPOS and PCNT write only
their destination (a0 discards the write) and take the cycles of Table 6.7; BR jumps in 3 cycles where its condition
holds; SYNC waits while an emit, or with FN 0 a list, is out, and then goes on; RCHK writes the repeats or sets the
mode. END waits for its emits; with every pair emitted it completes the composition: the block is idle, CMP_CNT0 counts
it, and CMP_BUSY_CYC gains its cycles; with a pair missing it stops with ST_CMP_NO_EMIT. Each but END and a taken branch
advances the pc by one, and none but END changes anything but the block. The ALU functions are 64-bit machine
arithmetic.
Rests on R122, R123, R124, R126, R141, R145, R146. -/
def Obligations.ScalarInstructionsCompute : Prop :=
  (∀ x y, x < 2 ^ 64 → y < 2 ^ 64 →
    let a := BitVec.ofNat 64 x
    let b := BitVec.ofNat 64 y
    aluOp 0 x y = (a + b).toNat ∧ aluOp 1 x y = (a - b).toNat ∧ aluOp 2 x y = (a &&& b).toNat ∧ aluOp 3 x y = (a ||| b).toNat ∧
    aluOp 4 x y = (a ^^^ b).toNat ∧ aluOp 5 x y = (a <<< (y % 64)).toNat ∧ aluOp 6 x y = (a >>> (y % 64)).toNat ∧
    aluOp 7 x y = (a.sshiftRight (y % 64)).toNat ∧ aluOp 8 x y = (if a.sle b then x else y) ∧ aluOp 9 x y = (if a.sle b then y else x) ∧
    aluOp 10 x y = (a * b).toNat) ∧
  (∀ (s : State) (b w : Nat),
    let x := s.blk b
    (AtIns s b 0x00 w → exec (.cmpNop b) s = .next (s.setBlk b (x.took 1))) ∧
    (AtIns s b 0x01 w → ∃ x' : BlkSt, exec (.alu b) s = .next (s.setBlk b (x'.took (if sFn w = 10 then 3 else 1))) ∧
      x'.a (sRd w) = (if sRd w = 0 then 0 else aluOp (sFn w) (x.a (sRa w)) (addImm (x.a (sRb w)) (sImm w)) % 2 ^ 64) ∧
      (∀ r, r ≠ sRd w → x'.a r = x.a r) ∧ { x' with scal := x.scal } = x) ∧
    (AtIns s b 0x02 w → ∃ x' : BlkSt, exec (.li b) s = .next (s.setBlk b (x'.took 1)) ∧
      (sRd w ≠ 0 → x'.a (sRd w) = if sFn w = 0 then ofInt 64 (sImm w) else x.a (sRd w) % 2 ^ 32 + bits w 0 32 * 2 ^ 32) ∧ x'.a 0 = 0 ∧
      (∀ r, r ≠ sRd w → x'.a r = x.a r) ∧ { x' with scal := x.scal } = x) ∧
    (AtIns s b 0x03 w → bits w 0 32 % 2 ^ sFn w = 0 → bits w 0 32 < 384 → ∃ x' : BlkSt, exec (.ldc b) s = .next (s.setBlk b (x'.took 1)) ∧
      (sRd w ≠ 0 → x'.a (sRd w) = leAt x.comp.context (bits w 0 32) (2 ^ sFn w) % 2 ^ 64) ∧ x'.a 0 = 0 ∧
      (∀ r, r ≠ sRd w → x'.a r = x.a r) ∧ { x' with scal := x.scal } = x) ∧
    (AtIns s b 0x04 w → condOp (sFn w) (x.a (sRa w)) (x.a (sRb w)) = false → exec (.br b) s = .next (s.setBlk b (x.took 1))) ∧
    (AtIns s b 0x04 w → condOp (sFn w) (x.a (sRa w)) (x.a (sRb w)) = true → 0 ≤ (x.pc : Int) + sImm w → (x.pc : Int) + sImm w ≤ 8191 →
      exec (.br b) s = .next (s.setBlk b { x with pc := ((x.pc : Int) + sImm w).toNat, cycles := x.cycles + 3 })) ∧
    (AtIns s b 0x05 w → (sFn w = 7 ∨ sRa w ≤ 7) → sRb w ≤ 7 → ∃ x' : BlkSt, exec (.plog b) s = .next (s.setBlk b (x'.took 1)) ∧
      x'.p (sRd w) = plogOp (sFn w) (x.p (sRa w)) (x.p (sRb w)) (x.a (sRa w)) % 2 ^ 64 ∧ (∀ i, i ≠ sRd w → x'.p i = x.p i) ∧ { x' with preds := x.preds } = x) ∧
    (AtIns s b 0x06 w → ∃ x' : BlkSt, exec (.mpos b) s = .next (s.setBlk b (x'.took 1)) ∧
      (∀ r < 64, bitOf (x'.p (sRd w)) r = condOp (sFn w) (addImm (x.a (sRa w) + r) (sImm w)) (x.a (sRb w))) ∧
      (∀ i, i ≠ sRd w → x'.p i = x.p i) ∧ { x' with preds := x.preds } = x) ∧
    (AtIns s b 0x07 w → sRa w ≤ 7 → ∃ x' : BlkSt, exec (.pcnt b) s = .next (s.setBlk b (x'.took 1)) ∧
      (sRd w ≠ 0 → x'.a (sRd w) = ((List.range 64).filter fun i => bitOf (x.p (sRa w)) i).length) ∧ x'.a 0 = 0 ∧
      (∀ r, r ≠ sRd w → x'.a r = x.a r) ∧ { x' with scal := x.scal } = x) ∧
    (AtIns s b 0x08 w → emitsWait s b x.comp = false → (sFn w = 0 → x.press = []) → exec (.sync b) s = .next (s.setBlk b (x.took 1))) ∧
    (AtIns s b 0x08 w → emitsWait s b x.comp = true ∨ (sFn w = 0 ∧ x.press ≠ []) → exec (.sync b) s = .next s) ∧
    (AtIns s b 0x0A w → emitsWait s b x.comp = true → exec (.endIns b) s = .next s) ∧
    (AtIns s b 0x09 w → ∃ x' : BlkSt, exec (.rchk b) s = .next (s.setBlk b (x'.took 1)) ∧
      (sFn w = 1 → sRd w ≠ 0 → x'.a (sRd w) = x.repeats % 2 ^ 64) ∧ (sFn w = 2 → x'.strict = true) ∧ (sFn w = 3 → x'.strict = false) ∧
      (sFn w ≤ 1 → x'.strict = x.strict) ∧ { x' with scal := x.scal, strict := x.strict } = x) ∧
    (AtIns s b 0x0A w → emitsWait s b x.comp = false → compWhole x.comp x = true → (∀ a, s.att? x.comp.att = some a → a.part < 32) → (∀ p, blockOwner s b = some p → p < 32) →
      ∃ t, exec (.endIns b) s = .next t ∧
      (t.blk b).cur = none ∧ (t.blk b).queue = x.queue ∧
      (b < 64 → t.rd (CMP_CNT.COUNT 0) b = min (2 ^ 32 - 1) (s.rd (CMP_CNT.COUNT 0) b + 1) ∧
        t.rd CMP_BUSY_CYC.CYCLES b = (s.rd CMP_BUSY_CYC.CYCLES b + x.cycles + 1) % 2 ^ 64) ∧
      SameBut s.cmp.blocks t.cmp.blocks b ∧
      { t with regs := s.regs, rea := s.rea, flo.folios := s.flo.folios, col.atts := s.col.atts, cmp.blocks := s.cmp.blocks } = s) ∧
    (AtIns s b 0x0A w → emitsWait s b x.comp = false → compWhole x.comp x = false → exec (.endIns b) s = .next (progFault b ST.CMP_NO_EMIT s)))

/-- For a running block whose next legal instruction is the one named, with operands in range: FEXP of a solid folio whose
lines the galley holds with their checks right, after no other stream, completes, and with rows of 64 bytes writes block
i that it delivers into row i of TD; of any folio, a stream that ends with every block delivered completes the same way,
one that meets a missing line which must wait at its stack controller keeps what it has read and waits, and one that
ends with a status stops the composition with it; LDQ writes staged vector FIRST + a[RA] + i, converted, into row i of
TD and the tiles after it, and its scales into row i of TS; PEMIT queues one emit with a triple for each of its vectors
(m scaled by tau, l, o read from the accumulators), once for each pair, and a second emit of a pair stops the
composition with ST_CMP_EMIT; AEMIT hands its rows, elements and scales, to the append of its slot, at the tokens after
those handed on before; AZERO writes zero to its accumulator. Each advances the pc by one, takes the cycles of Table 6.7
and leaves memory and every register as it was (a stream counts and charges what it reads, and adds the cycles its lines
lost).
Rests on R126, R127, R129, R140, R141, R144. -/
def Obligations.StreamsAndEmitsMoveData : Prop :=
  (∀ (s : State) (b w : Nat) (rivals : List (Nat × Nat)) (ln : Nat → Bytes), AtIns s b 0x10 w → mRowl w ≤ 9 → mCount w ≤ 1024 →
    slotOk (s.blk b) w = true → tilesFit (mTd w) (mRowl w) (mCount w) = true → (s.blk b).stream = none → (s.blk b).port = {} →
    let x := s.blk b
    let f := slotAt x w
    let j := mFirst w + x.a (mRa w)
    let start := bodyOff + 64 * (secBase f.geo (mSec w) + j)
    let hdr := slice ((List.range 4).flatMap ln) 0 448
    j + mCount w ≤ secBlocks f.geo (mSec w) → f.kerned = false → kernHeaderOk (Hdr.ofBytes hdr) hdr f.desc f.geo false = true →
    (∀ i, 128 * i < start + 64 * mCount w → LineHeld s (folioReq x.comp.part f (128 * i)) (ln i)) →
    ∃ t, exec (.fexp b { rivals := rivals }) s = .next t ∧ (t.blk b).pc = x.pc + 1 ∧
      (mRowl w = 6 → ∀ i < mCount w, (t.blk b).row (mTd w) i = leNat (slice (ln ((start + 64 * i) / 128)) ((start + 64 * i) % 128) 64)) ∧
      { t.blk b with tiles := x.tiles, tpsn := x.tpsn, stream := x.stream, pc := x.pc, cycles := x.cycles } = x ∧ t.mem = s.mem) ∧
  (∀ (s : State) (b w : Nat) (fails rivals : List (Nat × Nat)), AtIns s b 0x10 w → mRowl w ≤ 9 → mCount w ≤ 1024 → slotOk (s.blk b) w = true →
    tilesFit (mTd w) (mRowl w) (mCount w) = true →
    let x := s.blk b
    let f := slotAt x w
    let j := mFirst w + x.a (mRa w)
    j + mCount w ≤ secBlocks f.geo (mSec w) →
    let o := stream b (mFslot w) x.comp f fails rivals (secBase f.geo (mSec w) + j) (mCount w) s
    (o.port.held = false → o.port.status = 0 → ∃ x' : BlkSt, exec (.fexp b ⟨fails, rivals⟩) s = .next (o.port.s.setBlk b (x'.took (1 + o.port.lost))) ∧
      x'.stream = some o.st ∧ x'.port = {} ∧
      (mRowl w = 6 → ∀ i < o.blocks.length, x'.row (mTd w) i = leNat (o.blocks.getD i []) % 2 ^ 512) ∧
      { x' with tiles := x.tiles, tpsn := x.tpsn, stream := x.stream, port := x.port } = x) ∧
    (o.port.held = true →
      exec (.fexp b ⟨fails, rivals⟩) s = .next (o.port.s.setBlk b { x with port := o.port.run, cycles := x.cycles + o.port.lost })) ∧
    (o.port.held = false → o.port.status ≠ 0 → exec (.fexp b ⟨fails, rivals⟩) s = .next (unitStop b o.port.status o.port.s))) ∧
  (∀ (s : State) (b w : Nat), AtIns s b 0x11 w →
    let x := s.blk b
    let c := x.comp
    let d := ((c.slots.head?).map (·.geo.d)).getD 32
    let n := elemBytes c.qfmt d
    let v (i : Nat) : Bytes × Bytes := convertVec c.qfmt (mFmt w) d (slice c.staging (n * (mFirst w + x.a (mRa w) + i)) n)
    mFmt w ≤ 6 → mRowl w ≤ 9 → 2 ^ mRowl w = elemBytes (mFmt w) d → mCount w ≤ 64 → mTd w + ceilDiv (elemBytes (mFmt w) d) 64 ≤ 16 →
    mFirst w + x.a (mRa w) + mCount w ≤ c.nq * c.nh →
    ∃ x' : BlkSt, exec (.ldq b) s = .next (s.setBlk b (x'.took (8 + ceilDiv (n * mCount w) 64))) ∧
      (∀ i < mCount w, ∀ j < ceilDiv (v i).1.length 64, (v i).2 = [] ∨ mTd w + j ≠ mTs w →
        x'.row (mTd w + j) i = leNat (slice (v i).1 (64 * j) 64)) ∧
      (∀ i < mCount w, (v i).2 ≠ [] → x'.row (mTs w) i = leNat (v i).2 % 2 ^ 512) ∧
      { x' with tiles := x.tiles, tpsn := x.tpsn } = x) ∧
  (∀ (s : State) (b w : Nat), AtIns s b 0x12 w →
    let x := s.blk b
    let c := x.comp
    let f := slotAt x w
    let n := mCount w
    let d := f.geo.d
    n ≤ 16 → slotOk x w = true → mFirst w + n ≤ c.nq * c.nh → mRa w + 2 * n ≤ 32 → mAd w + (d - 1) / 64 ≤ 3 →
    (∀ i < ceilDiv d 64, x.awaits (mAd w + i) = false) →
    ((∀ h < n, (mFslot w, mFirst w + h) ∉ x.emitted) → accRowsBad x (mAd w) n d = false →
      ∃ (x' : BlkSt) (e : Emit),
        exec (.pemit b) s = .next ({ s with cmp.emits := s.cmp.emits ++ [e] }.setBlk b
          (x'.took (2 + ceilDiv (n * (8 + (if bitOf (mFlags w) 0 then 2 else 4) * d)) 32))) ∧
        x'.emitted = x.emitted ++ (List.range n).map (fun h => (mFslot w, mFirst w + h)) ∧ { x' with emitted := x.emitted } = x ∧
        e.block = b ∧ e.slot = c.slot ∧ e.key = f.posBase ∧ e.first = mFirst w ∧ e.tris.length = n ∧
        (∀ h < n, ∃ t, e.tris[h]? = some t ∧ t.m = fmul (x.a (mRa w + h) % 2 ^ 32) c.tau ∧ t.o.length = d ∧
          ∀ i < d, t.o.getD i 0 = (let a := x.acc (mAd w + i / 64) h (i % 64); if bitOf (mFlags w) 0 then roundBf16 a else a))) ∧
    ((∃ h, h < n ∧ (mFslot w, mFirst w + h) ∈ x.emitted) → exec (.pemit b) s = .next (progFault b ST.CMP_EMIT s))) ∧
  (∀ (s : State) (b w : Nat), AtIns s b 0x13 w →
    let x := s.blk b
    let c := x.comp
    let g := (slotAt x w).geo
    let n := mCount w
    let fmt := if mSec w = 0 then g.kf else g.vf
    let done := (x.emitted.filter fun e => e.1 = 32 + mSec w).length
    let tiles := ceilDiv (elemBytes fmt g.d) 64
    c.append = true → mFslot w < c.slots.length → mSec w % 2 = 0 → mFmt w = fmt → mFirst w + n ≤ 64 → done + n ≤ c.nq → mTd w + tiles ≤ 16 →
    (∀ i < n, (∀ t < tiles, KMap.get 0 x.tpsn ((mTd w + t) * 64 + mFirst w + i) = 0) ∧
      (scaled fmt = true → KMap.get 0 x.tpsn (mTs w * 64 + mFirst w + i) = 0)) →
    ∃ (t : State) (x' : BlkSt), exec (.aemit b) s = .next t ∧ t.blk b = x'.took (2 + ceilDiv (n * (if mSec w = 0 then g.keyRow else g.valRow)) 32) ∧
      x'.emitted = x.emitted ++ (List.range n).map (fun i => (32 + mSec w, done + i)) ∧ { x' with emitted := x.emitted } = x ∧
      (∃ f : AppSt → AppSt, t = (setApp c.att c.slot f s).setBlk b (t.blk b) ∧ ∀ y, { f y with rows := y.rows } = y ∧
        (f y).rows = (List.range n).foldl (fun rows i => splice rows ((done + i) * g.rowLen + (if mSec w = 0 then 0 else g.keyRow))
          ((tileRow w fmt g.d x (mFirst w + i)).1 ++ (tileRow w fmt g.d x (mFirst w + i)).2)) y.rows) ∧
      t.regs = s.regs ∧ t.mem = s.mem) ∧
  (∀ (s : State) (b w : Nat), AtIns s b 0x20 w → (s.blk b).awaits (tAd w) = false →
    ∃ x' : BlkSt, exec (.azero b) s = .next (s.setBlk b (x'.took 4)) ∧
      (∀ r < 64, ∀ c, x'.acc (tAd w) r c = 0) ∧ (∀ a r c, a ≠ tAd w → r < 64 → x'.acc a r c = (s.blk b).acc a r c) ∧ rankSet x' (tAd w) 0 = 0 ∧
      { x' with accs := (s.blk b).accs, apsn := (s.blk b).apsn, rmap := (s.blk b).rmap } = s.blk b)

/-- For a running block whose next legal instruction is PSC or PWV, with operands in range, no accumulator awaited and no
poisoned row: the block remembers the list with its tag and accumulators, goes on to the next instruction, raises its
folio's count, is charged for the list's bytes, and submits to the folio's stack the list that R142 says: PARM, the PUTS
of its data and PSCORE for PSC; PWACC and XOUT for PWV. Where an accumulator is still awaited, both wait and change
nothing; where the folio's count is 65,535 they wait, which FLO_CNT5 counts once.
Rests on R142, R96, R122, R176. -/
def Obligations.PressInstructionsIssueLists : Prop :=
  (∀ (s : State) (b w lo hi : Nat), AtIns s b 0x14 w →
    let x := s.blk b
    let f := slotAt x w
    let g := f.geo
    let np := min (scorePass g) (mFlags w % 16 + 1)
    let p : PressOut := { tag := b + 64 * mFslot w, fslot := mFslot w, ad := mAd w, np := np, count := mCount w, first := mFirst w }
    let words := parmWord g (mFirst w + mFlags w % 16) hi lo :: (pressQueries w np g x).2 ++ [cmdWord 0x08 0 0 (mFirst w) f.base 0]
    let data := (pressQueries w np g x).1
    parmSpan w x f = some (lo, hi) → slotOk x w = true → f.press = true → mFmt w = 4 → mCount w ≤ 1024 → mFirst w + mFlags w % 16 ≤ 15 →
    mTd w + ceilDiv g.d 64 ≤ 16 → (∀ a ∈ p.accs, a ≤ 3) →
    ((∀ a ∈ p.accs, x.awaits a = false) → (∀ t < ceilDiv g.d 64, x.tileBad (mTd w + t) np = false) → x.tileBad (mTs w) np = false →
      (outstFull s f = false →
        let y : BlkSt := { x with press := x.press ++ [p], pc := x.pc + 1, cycles := x.cycles + (4 + ceilDiv (16 + 8 * words.length + data.length) 512), waited := false
                                  lists := x.lists ++ [{ tag := p.tag, folio := f.folio, base := f.base }] }
        let t := addOutst f (s.setBlk b y)
        exec (.psc b) s = .next (pltSubmit (offStack f.base) (.block b) (pressHead words.length x.comp f p.tag) words data
          (chargeAtt x.comp.att (compTenant t x.comp) .stk (16 + 8 * words.length + data.length) false t))) ∧
      (outstFull s f = true → x.waited = true → exec (.psc b) s = .next s) ∧
      (outstFull s f = true → x.waited = false → ∃ t, exec (.psc b) s = .next t ∧ t.blk b = { x with waited := true } ∧
        t.rd (FLO_CNT.COUNT 5) = min (2 ^ 32 - 1) (s.rd (FLO_CNT.COUNT 5) + 1) ∧
        { t with regs := s.regs, cmp.blocks := s.cmp.blocks } = s)) ∧
    ((∃ a ∈ p.accs, x.awaits a = true) → exec (.psc b) s = .next s)) ∧
  (∀ (s : State) (b w : Nat), AtIns s b 0x15 w →
    let x := s.blk b
    let f := slotAt x w
    let g := f.geo
    let np := min (valuePass g) (mFlags w % 16 + 1)
    let p : PressOut := { two := true, tag := b + 64 * mFslot w, fslot := mFslot w, ad := mAd w, np := np, count := g.d, first := mFirst w }
    let tiles := ceilDiv (ceilDiv (mCount w) 64 * np) 32
    let words := [cmdWord 0x09 0 0 (mFirst w) f.base 0, cmdWord 0x0A 0 0 0 0 (bits (mFlags w) 4 1)]
    let data := pressWeights w np x
    slotOk x w = true → mCount w ≤ 1024 → mFirst w + mFlags w % 16 ≤ 15 → mTd w + tiles ≤ 16 →
    (∀ a ∈ p.accs, a ≤ 3) →
    ((∀ a ∈ p.accs, x.awaits a = false) → (∀ t < tiles, x.tileBad (mTd w + t) (min 64 (mCount w)) = false) →
      (outstFull s f = false →
        let y : BlkSt := { x with press := x.press ++ [p], pc := x.pc + 1, cycles := x.cycles + (4 + ceilDiv (16 + 16 + data.length) 512), waited := false
                                  lists := x.lists ++ [{ tag := p.tag, folio := f.folio, base := f.base }] }
        let t := addOutst f (s.setBlk b y)
        exec (.pwv b) s = .next (pltSubmit (offStack f.base) (.block b) (pressHead 2 x.comp f p.tag) words data
          (chargeAtt x.comp.att (compTenant t x.comp) .stk (16 + 16 + data.length) false t))) ∧
      (outstFull s f = true → x.waited = true → exec (.pwv b) s = .next s) ∧
      (outstFull s f = true → x.waited = false → ∃ t, exec (.pwv b) s = .next t ∧ t.blk b = { x with waited := true } ∧
        t.rd (FLO_CNT.COUNT 5) = min (2 ^ 32 - 1) (s.rd (FLO_CNT.COUNT 5) + 1) ∧
        { t with regs := s.regs, cmp.blocks := s.cmp.blocks } = s)) ∧
    ((∃ a ∈ p.accs, x.awaits a = true) → exec (.pwv b) s = .next s))

/-- For a running block whose next legal instruction is the one named, with operands in range, its accumulator not awaited
and no check failing: and no operand poisoned, each completes in the cycles of Table 6.7: TMUL and QKDOT write NC
columns of the accumulator with the products of rows and columns; DQ writes rounded element values; QNT writes rounded
elements, with a scaled format and TC other than TE each block's elements and scale; ROT writes each pair of elements
turned by its angle; MASKQ and MASKP write minus infinity exactly where R133 masks; RMAX writes the maxima of each
query's columns to its scalars; EXPW, where its two scalar ranges are disjoint, writes the weights and adds them to its
scalars; WACC adds each row's terms in order to the entry of its rank and marks the rank; RKSUM writes the ordered sums
over the marked ranks. None changes anything outside the block, or anything in it but what is said to be written, the
poison marks that go with it, the pc and the cycles. A poisoned operand stops the composition with ST_POISON instead.
Rests on R130, R131, R132, R133, R135, R136, R138, R139, R144. -/
def Obligations.TensorInstructionsCompute : Prop :=
  ∀ (s : State) (b w : Nat) (m : Mismatch),
    let x := s.blk b
    x.awaits (tAd w) = false →
    (AtIns s b 0x21 w → fpClasses (tFa w) (tFb w) = true → colsOk w = true → failures b 0x21 m x s = [] →
      (tmul w x = none → exec (.tmul b m) s = .next (poisonStop b s)) ∧
      (x.tileBad (tTa w) 64 = false → x.tileBad (tTb w) (tNc w) = false → (tInit w = false → x.accBad (tAd w) (tC0 w) (tNc w) = false) → ∃ x' : BlkSt, exec (.tmul b m) s = .next (s.setBlk b (x'.took (max 4 (4 * tNc w)))) ∧ AccsOnly x' x ∧
        (∀ r < 64, ∀ c < tNc w, x'.acc (tAd w) r (tC0 w + c) = tmulAt w x r c % 2 ^ 32) ∧
        (∀ a r c, r < 64 → (a ≠ tAd w ∨ c < tC0 w ∨ tC0 w + tNc w ≤ c) → x'.acc a r c = x.acc a r c))) ∧
    (AtIns s b 0x22 w → scaled (tFa w) = true → scaled (tFb w) = true → colsOk w = true → x.a (tRa w) % 32 = 0 → x.a (tRa w) < x.dim →
      (elemBits (tFa w) = 4 → elemBits (tFb w) = 8 → tTb w < 15) → failures b 0x22 m x s = [] →
      (qkdot w x.dim x = none → exec (.qkdot b m) s = .next (poisonStop b s)) ∧
      (x.tileBad (tTa w) 64 = false → x.tileBad (tTb w) (tNc w) = false →
        (elemBits (tFa w) = 4 → elemBits (tFb w) = 8 → x.tileBad (tTb w + 1) (tNc w) = false) → x.tileBad (tTc w) 64 = false →
        x.tileBad (tTe w) (tNc w) = false → (tInit w = false → x.accBad (tAd w) (tC0 w) (tNc w) = false) → ∃ x' : BlkSt, exec (.qkdot b m) s = .next (s.setBlk b (x'.took (4 * tNc w + 4))) ∧ AccsOnly x' x ∧
        (∀ r < 64, ∀ c < tNc w, x'.acc (tAd w) r (tC0 w + c) = qkdotAt w x.dim x r c % 2 ^ 32) ∧
        (∀ a r c, r < 64 → (a ≠ tAd w ∨ c < tC0 w ∨ tC0 w + tNc w ≤ c) → x'.acc a r c = x.acc a r c))) ∧
    (AtIns s b 0x23 w → tFa w ≤ 6 → tNc w ≤ 64 → tC0 w + tNc w ≤ rowElems (tFa w) → (scaled (tFa w) = true → x.a (tRa w) % 32 = 0) →
      failures b 0x23 m x s = [] →
      (dq w x = none → exec (.dq b m) s = .next (poisonStop b s)) ∧
      (x.tileBad (tTa w) 64 = false → (scaled (tFa w) = true → x.tileBad (tTb w) 64 = false) → ∃ x' : BlkSt, exec (.dq b m) s = .next (s.setBlk b (x'.took (4 + ceilDiv (tNc w) 16))) ∧ AccsOnly x' x ∧
        (∀ r < 64, ∀ c < tNc w, x'.acc (tAd w) r c = rn32 (elemVal (tFa w) (rowElem (tFa w) (x.row (tTa w) r) (tC0 w + c))
          (rowScale (tFa w) (x.row (tTb w) r) ((x.a (tRa w) + (tC0 w + c)) / 32))) % 2 ^ 32) ∧
        (∀ a r c, r < 64 → (a ≠ tAd w ∨ tNc w ≤ c) → x'.acc a r c = x.acc a r c))) ∧
    (AtIns s b 0x24 w → tFa w ≤ 6 → tC0 w + tNc w ≤ rowElems (tFa w) →
      (scaled (tFa w) = true → x.a (tRa w) % 32 = 0 ∧ tC0 w % 32 = 0 ∧ tNc w % 32 = 0) → failures b 0x24 m x s = [] →
      (x.accBad (tAd w) 0 (tNc w) = true → exec (.qnt b m) s = .next (poisonStop b s)) ∧
      (x.accBad (tAd w) 0 (tNc w) = false → ∃ x' : BlkSt, exec (.qnt b m) s = .next (s.setBlk b (x'.took 8)) ∧
        { x' with tiles := x.tiles, tpsn := x.tpsn } = x ∧ (∀ t r, t ≠ tTc w → t ≠ tTe w → r < 64 → x'.row t r = x.row t r) ∧
        (scaled (tFa w) = false → ∀ r < 64, ∀ c < tNc w,
          rowElem (tFa w) (x'.row (tTc w) r) (tC0 w + c) = (fmtOf (tFa w)).enc .rne true (of32 (x.acc (tAd w) r c)) % 2 ^ elemBits (tFa w)) ∧
        (scaled (tFa w) = true → tTc w ≠ tTe w → ∀ r < 64, ∀ j < tNc w / 32,
          (∀ i < 32, rowElem (tFa w) (x'.row (tTc w) r) (tC0 w + 32 * j + i) = (qntBlock w x r j).2.getD i 0 % 2 ^ elemBits (tFa w)) ∧
          (let n := (x.a (tRa w) + tC0 w) / 32 + j
           8 * scaleBytes (tFa w) * (n + 1) ≤ 512 →
           rowScale (tFa w) (x'.row (tTe w) r) n = (qntBlock w x r j).1 % 2 ^ (8 * scaleBytes (tFa w)))))) ∧
    (AtIns s b 0x25 w → tFa w ≤ 1 → x.a (tRb w) + rotPairs w ≤ 1024 → failures b 0x25 m x s = [] →
      (rot w x = none → exec (.rot b m) s = .next (poisonStop b s)) ∧
      (x.tileBad (tTa w) 64 = false → rotBad w (rotPairs w) x = false → (tFb w = 0 → x.tileBad (tTc w) 64 = false) →
        ∃ x' : BlkSt, exec (.rot b m) s = .next (s.setBlk b (x'.took (rotPairs w + 4))) ∧ AccsOnly x' x ∧
        (∀ r < 64, ∀ k < rotPairs w,
          x'.acc (tAd w) r (if tFb w = 0 then k else 2 * k) = (rotOut w x r k).1 % 2 ^ 32 ∧
          x'.acc (tAd w) r (if tFb w = 0 then k + 32 else 2 * k + 1) = (rotOut w x r k).2 % 2 ^ 32) ∧
        (∀ a r c, r < 64 → (a ≠ tAd w ∨ 2 * rotPairs w ≤ c) → x'.acc a r c = x.acc a r c))) ∧
    (AtIns s b 0x26 w → colsOk w = true → tTe w + (tNc w - 1) / tS w < x.comp.nq →
      ∃ x' : BlkSt, exec (.maskq b) s = .next (s.setBlk b (x'.took 2)) ∧ AccsOnly x' x ∧
        (∀ r < 64, ∀ c < tNc w, x'.acc (tAd w) r (tC0 w + c) = if maskqAt w x.comp x r c then 0xFF800000 else x.acc (tAd w) r (tC0 w + c)) ∧
        (∀ a r c, r < 64 → (a ≠ tAd w ∨ c < tC0 w ∨ tC0 w + tNc w ≤ c) → x'.acc a r c = x.acc a r c)) ∧
    (AtIns s b 0x27 w → colsOk w = true → tPe w = true →
      ∃ x' : BlkSt, exec (.maskp b) s = .next (s.setBlk b (x'.took 2)) ∧ AccsOnly x' x ∧
        (∀ r < 64, ∀ c < tNc w, x'.acc (tAd w) r (tC0 w + c) = if bitOf (x.p (tPg w)) r then x.acc (tAd w) r (tC0 w + c) else 0xFF800000) ∧
        (∀ a r c, r < 64 → (a ≠ tAd w ∨ c < tC0 w ∨ tC0 w + tNc w ≤ c) → x'.acc a r c = x.acc a r c)) ∧
    (AtIns s b 0x28 w → colsOk w = true → tNc w % tS w = 0 → tRa w + tS w ≤ 32 →
      (x.accBad (tAd w) (tC0 w) (tNc w) = true → exec (.rmax b) s = .next (poisonStop b s)) ∧
      (x.accBad (tAd w) (tC0 w) (tNc w) = false → ∃ x' : BlkSt, exec (.rmax b) s = .next (s.setBlk b (x'.took (4 + ceilDiv (tNc w) 2))) ∧
        { x' with scal := x.scal } = x ∧
        (∀ j < tS w, tRa w + j ≠ 0 → x'.a (tRa w + j) =
          ((List.range (tNc w)).filter fun c => c % tS w = j).foldl (fun v c => (List.range 64).foldl (fun v r => fmax v (x.acc (tAd w) r (tC0 w + c))) v)
            (if tInit w then minusInf32 else x.a (tRa w + j) % 2 ^ 32)) ∧
        (∀ r, r < tRa w ∨ tRa w + tS w ≤ r → x'.a r = x.a r))) ∧
    (AtIns s b 0x29 w → colsOk w = true → tauOk x.comp.tau = true → tNc w ≤ 32 → tRa w + tS w ≤ 32 → tRb w + tS w ≤ 32 →
      failures b 0x29 m x s = [] →
      let wt (r c : Nat) : Nat := expWeight (x.a (tRa w + c % tS w) % 2 ^ 32) (x.acc (tAd w) r (tC0 w + c)) x.comp.tau
      (x.accBad (tAd w) (tC0 w) (tNc w) = true → exec (.expw b m) s = .next (poisonStop b s)) ∧
      (x.accBad (tAd w) (tC0 w) (tNc w) = false →
        ∃ x' : BlkSt, exec (.expw b m) s = .next (s.setBlk b (x'.took (2 + max 4 (ceilDiv (tNc w) 2)))) ∧
        (tRa w + tS w ≤ tRb w ∨ tRb w + tS w ≤ tRa w →
          (∀ r < 64, ∀ c < tNc w, bits (x'.row (tTc w) r) (16 * c) 16 = wt r c) ∧
          (∀ j < tS w, tRb w + j ≠ 0 → x'.a (tRb w + j) = ((if tInit w then 0 else x.a (tRb w + j)) +
            ((List.range 64).flatMap fun r => ((List.range (tNc w)).filter fun c => c % tS w = j).map fun c => wt r c).sum) % 2 ^ 64)) ∧
        { x' with tiles := x.tiles, tpsn := x.tpsn, scal := x.scal } = x ∧ (∀ t r, t ≠ tTc w → r < 64 → x'.row t r = x.row t r) ∧
        (∀ r, r < tRb w ∨ tRb w + tS w ≤ r → x'.a r = x.a r))) ∧
    (AtIns s b 0x2A w → tFa w ≤ 6 → tNc w ≤ 8 → tC0 w + tNc w ≤ 32 → x.a (tRa w) ≤ 7 → failures b 0x2A m x s = [] →
      let k0 := if elemBits (tFa w) = 4 then 64 * (tFb w % 2) else 0
      let n := min 64 (rowElems (tFa w))
      (wacc w x.dim x = none → exec (.wacc b m) s = .next (poisonStop b s)) ∧
      (x.tileBad (tTa w) 64 = false → (scaled (tFa w) = true → x.tileBad (tTb w) 64 = false) → x.tileBad (tTc w) 64 = false →
        (tInit w = false → waccBad w x.dim k0 n x = false) →
        ∃ x' : BlkSt, exec (.wacc b m) s = .next (s.setBlk b (x'.took (4 * tNc w))) ∧
        (∀ h < tNc w, ∀ kc < n, ∀ u < 8, x'.acc (tAd w) (8 * u + h) kc =
          ((List.range 64).filter fun r => waccRank w x.dim r (k0 + kc) x = u).foldl (fun a r => fadd a (waccAt w x k0 r h kc) % 2 ^ 32)
            (if tInit w then 0 else x.acc (tAd w) (8 * u + h) kc)) ∧
        (∀ kc < n, ∀ u < 8, bitOf (rankSet x' (tAd w) kc) u =
          (((List.range 64).any fun r => waccRank w x.dim r (k0 + kc) x == u) || (!tInit w && bitOf (rankSet x (tAd w) kc) u))) ∧
        { x' with accs := x.accs, apsn := x.apsn, rmap := x.rmap } = x ∧ (∀ a r c, a ≠ tAd w → r < 64 → x'.acc a r c = x.acc a r c))) ∧
    (AtIns s b 0x2B w → tNc w ≤ 8 → failures b 0x2B m x s = [] →
      (rksumBad w x = true → exec (.rksum b m) s = .next (poisonStop b s)) ∧
      (rksumBad w x = false → ∃ x' : BlkSt, exec (.rksum b m) s = .next (s.setBlk b (x'.took 116)) ∧
        (∀ h < tNc w, ∀ c < 64, x'.acc (tAd w) h c =
          orderedSum ((bitList (rankSet x (tAd w) c) 8).map fun u => x.acc (tAd w) (8 * u + h) c) % 2 ^ 32) ∧
        { x' with accs := x.accs, apsn := x.apsn, rmap := x.rmap } = x ∧ (∀ a r c, a ≠ tAd w → r < 64 → x'.acc a r c = x.acc a r c)))

/-- On a running block, a word whose opcode Table 6.7 does not define stops the composition with ST_CMP_ILLEGAL whatever
instruction command is given, as does a word of the command's opcode with a reserved value or a nonzero bit in a field
it does not use; a pc beyond the program stops it with ST_CMP_PC. A command whose opcode is not that of the word changes
nothing. AZERO, TMUL and MASKP on an accumulator that a press list still writes wait and change nothing. On a block that
does not run an instruction command changes nothing.
Rests on R122, R124, R147. -/
def Obligations.UnfitInstructionsStop : Prop :=
  ∀ (s : State) (b : Nat) (m : Mismatch) (c : Instr) (op : Nat),
    (c, op) ∈ [(Instr.cmpNop b, 0x00), (.alu b, 0x01), (.li b, 0x02), (.ldc b, 0x03), (.br b, 0x04), (.plog b, 0x05), (.mpos b, 0x06), (.pcnt b, 0x07),
      (.sync b, 0x08), (.rchk b, 0x09), (.endIns b, 0x0A), (.fexp b {}, 0x10), (.ldq b, 0x11), (.pemit b, 0x12), (.aemit b, 0x13), (.psc b, 0x14),
      (.pwv b, 0x15), (.azero b, 0x20), (.tmul b m, 0x21), (.qkdot b m, 0x22), (.dq b m, 0x23), (.qnt b m, 0x24), (.rot b m, 0x25), (.maskq b, 0x26),
      (.maskp b, 0x27), (.rmax b, 0x28), (.expw b m, 0x29), (.wacc b m, 0x2A), (.rksum b m, 0x2B)] →
    (blockRuns s b = false → exec c s = .next s) ∧
    (blockRuns s b = true → 8191 < (s.blk b).pc → exec c s = .next (progFault b ST.CMP_PC s)) ∧
    (blockRuns s b = true → (s.blk b).pc ≤ 8191 → insDefined (iOp (insWord s b)) = false → exec c s = .next (progFault b ST.CMP_ILLEGAL s)) ∧
    (blockRuns s b = true → (s.blk b).pc ≤ 8191 → iOp (insWord s b) = op → insLegal (insWord s b) = false →
      exec c s = .next (progFault b ST.CMP_ILLEGAL s)) ∧
    (blockRuns s b = true → (s.blk b).pc ≤ 8191 → insDefined (iOp (insWord s b)) = true → iOp (insWord s b) ≠ op → exec c s = .next s) ∧
    (∀ w, AtIns s b op w → (s.blk b).awaits (tAd w) = true → colsOk w = true →
      (op = 0x20 → exec c s = .next s) ∧
      (op = 0x21 → fpClasses (tFa w) (tFb w) = true → exec c s = .next s) ∧
      (op = 0x27 → tPe w = true → exec c s = .next s))

/-- A node refuses tickets for its own state in the order fenced, partition in reset, not admitted, epoch behind, and (at a
root) too many reams, and for no other reason. In Hold, and where the node admits no work, TICKET changes nothing.
Otherwise it takes the oldest whole ticket message, and where that repeats no ream or attempt the node holds: a state
ground refuses it with that code and FAIL_SLOT 0xFFFF; else the first failed check of Table 7.3 refuses it with its code
and slot, a malformed header first of all; else the first lookup that fails refuses it with its code and slot; else,
where the epoch is the descriptor's, the attempt begins, and at a leaf with nothing to append and no audit it then
stands with the ticket and no slot served. A ticket of a ream that the root holds, or of an attempt that the node holds
at its position, is counted as a duplicate and charged; one of an earlier attempt is counted as stale and charged.
Rests on R148, R152, R303, R405. -/
def Obligations.TicketsAreCheckedInOrder : Prop :=
  (∀ (s : State) (p : Nat) (root : Bool),
    let f := s.rd RAS_NODE_STS.STATE = 3 ∨ partFenced s p = true
    (f → stateRefuse s p root = some ST.FENCED) ∧
    (¬ f → s.flag HST_PRT_STS.RST_BUSY p = true → stateRefuse s p root = some ST.PRT_RESET) ∧
    (¬ f → s.flag HST_PRT_STS.RST_BUSY p = false →
      (s.rd RAS_NODE_STS.STATE ≠ 2 → stateRefuse s p root = some ST.NOT_ADMITTED) ∧
      (s.rd RAS_NODE_STS.STATE = 2 → s.rd RAS_NBR_AHEAD.NBR ≠ 0 → stateRefuse s p root = some ST.EPOCH_BEHIND) ∧
      (s.rd RAS_NODE_STS.STATE = 2 → s.rd RAS_NBR_AHEAD.NBR = 0 →
        (root = true → (policyOf s p).maxReams ≤ admitted s p → stateRefuse s p root = some ST.REAM_BUSY) ∧
        ((root = false ∨ admitted s p < (policyOf s p).maxReams) → stateRefuse s p root = none)))) ∧
  (∀ s : State, s.rd RSP_FORME_STS.STATE = 4 ∨ nodeAdmits s = false → exec .ticket s = .next s) ∧
  (∀ (s : State) (x : TktIn), badHeader x = true → tktCheck s x = some (ST.TKT_FORMAT, 0xFFFF)) ∧
  (∀ (s : State) (fs : List Frame) (s1 : State), s.rd RSP_FORME_STS.STATE ≠ 4 → nodeAdmits s = true → takeMsg (fun f => f.ty == 1) s = some (fs, s1) →
    let f := fs.headD {}
    let x : TktIn := { part := f.part, src := f.src, word := f.arg, whole := (joinMsg fs).isSome, data := fs.flatMap (·.pay) }
    let n := framesBytes fs
    let k := attKey x.part (tktReam x.data) (if x.root then 0 else wPos x.word) false
    (x.root = true → (s1.ream? x.part (tktReam x.data)).isSome = true →
      exec .ticket s = .next (chargeDropped x n (s1.bump COL_DUP_CNT.COUNT))) ∧
    (x.root = false → ∀ j a, heldAttempt s1 x = some (j, a) →
      (a.attempt = tktAttempt x.data → exec .ticket s = .next (chargeDropped x n (s1.bump COL_DUP_CNT.COUNT))) ∧
      (tktAttempt x.data < a.attempt → exec .ticket s = .next (chargeDropped x n (s1.bump COL_STALE_CNT.COUNT)))) ∧
    ((x.root = false ∨ s1.ream? x.part (tktReam x.data) = none) → heldAttempt s1 x = none →
      (∀ st, stateRefuse s1 x.part x.root = some st → exec .ticket s = .next (refuse x n st 0xFFFF s1)) ∧
      (stateRefuse s1 x.part x.root = none →
        (∀ st i, tktCheck s1 x = some (st, i) → exec .ticket s = .next (refuse x n st i s1)) ∧
        (tktCheck s1 x = none → ∀ d, sigOf? s1 (tktSig x.data) x.part = some d →
          (∀ st i s2, lookupAll (tktRole s1 x d) x.data x.part s1 = (some (st, i), s2) → exec .ticket s = .next (refuse x n st i s2)) ∧
          (∀ s2, lookupAll (tktRole s1 x d) x.data x.part s1 = (none, s2) → x.host = true ∨ wEpoch x.word = d.epoch →
            exec .ticket s = .next (acceptTicket x d n s2) ∧
            (d.kids (if x.root then 0 else wPos x.word) = [] → (∀ i < tktNslot x.data, (slotOf x.data i).app = false) → wAudit x.word = false →
              (x.root = true → s2.rd COL_AUDIT_CFG.N x.part = 0) →
              ∃ t a, exec .ticket s = .next t ∧ t.att? k = some a ∧ a.ticket = x.data ∧ a.ream = tktReam x.data ∧ a.part = x.part ∧
                a.attempt = tktAttempt x.data ∧ a.next = 0 ∧ a.apps = [] ∧ a.start = s.now))))))

/-- An append at a position that is neither the run's next nor a repeat of its last step is refused with ST_APPEND_POS and
writes nothing. APPEND_PLACE places a ready append whose run is resident, which no append of a lower slot precedes, and
which need not wait for its bucket or a row; placed, it is charged and forwarded to the mirror, and a failure ends the
attempt with its code; an append that is not ready changes nothing, and one of a run that is handed over ends the
attempt with ST_TIER_NOT_OWNER. APPEND_FWD with nothing delivered changes nothing; one whose conversation the mirror
does not hold is counted as refused; one that the mirror places by its own tail is charged and acknowledged, and one
that it cannot place is counted as refused and leaves no row behind. An acknowledgment within MIRROR_TMO_US completes
its append, and a later one changes nothing but that its frame is taken. MIRROR_COMMIT_TIMEOUT counts in
COL_MIRROR_TMO_CNT and ends the attempt with ST_MIRROR_COMMIT once the limit has passed and changes nothing before.
Rests on R158, R159, R160, R161, R306. -/
def Obligations.AppendsArePlacedAndMirrored : Prop :=
  (∀ (x : AppArgs) (n : Nat) (rows : Bytes) (s : State), (s.conv x.c).hgLo ≤ x.hg → x.hg < (s.conv x.c).hgHi → tailPoison s x = false →
    ((s.conv x.c).posHi = 0xFFFFFFFF ∨ x.q0 + n ≤ (s.conv x.c).posHi) → x.q0 ≠ nextPos s x.c (x.run s) →
    (nextPos s x.c (x.run s) < x.q0 ∨ (s.run (x.run s)).tail = 0 ∨ (s.run (x.run s)).lastStep ≠ x.step) →
    appendRows x n rows s = (ST.APPEND_POS, 0, s)) ∧
  (∀ (s : State) (part ream pos slot : Nat) (a : Att) (ap : AppSt), s.att? (attKey part ream pos false) = some a →
    a.apps.find? (fun x => x.slot == slot) = some ap →
    let k := attKey part ream pos false
    let y := slotOf a.ticket slot
    (ap.state ≠ 1 → exec (.appendPlace part ream pos slot) s = .next s) ∧
    (appendBefore a slot = true → exec (.appendPlace part ream pos slot) s = .next s) ∧
    (ap.state = 1 → appendBefore a slot = false → ∀ c r, convRec? s part (attRole a) y.conv = some (c, r) →
      (tierState s c y.layer = 4 → exec (.appendPlace part ream pos slot) s = .next (failPart k ST.TIER_NOT_OWNER s)) ∧
      (tierState s c y.layer ≠ 4 →
      (∀ s0, appendResident c y.layer k y.ten s = (false, s0) → exec (.appendPlace part ream pos slot) s = .next (waitLate k s0)) ∧
      (∀ s0, appendResident c y.layer k y.ten s = (true, s0) →
        let x : AppArgs := { c := c, layer := y.layer, hg := y.hg, step := a.step, q0 := y.qpos }
        (∀ s1, appendWaits (.appendPlace part ream pos slot) a.part x y.nq s0 = some s1 → exec (.appendPlace part ream pos slot) s = .next s1) ∧
        (appendWaits (.appendPlace part ream pos slot) a.part x y.nq s0 = none →
          ∀ st n s1, appendRows x y.nq ap.rows (unstall (.appendPlace part ream pos slot) s0) = (st, n, s1) →
          (st = ST.OK → exec (.appendPlace part ream pos slot) s =
            .next (forwardAppend k slot a x y.nq ap.rows (chargeAtt k y.ten .stk ap.rows.length false (noteChunks k c n s1)))) ∧
          (st ≠ ST.OK → exec (.appendPlace part ream pos slot) s = .next (failPart k st (noteChunks k c n s1)))))))) ∧
  (∀ s : State, wholeMsg s (fun f => f.ty == 5 && !(wAck f.arg)) = none → exec .appendFwd s = .next s) ∧
  (∀ (s : State) (fs : List Frame) (s1 s2 : State) (b : Bytes), takeMsg (fun f => f.ty == 5 && !(wAck f.arg)) s = some (fs, s1) →
    partFenced s (fs.headD {}).part = false → joinFwd fs = some b →
    (convFind (fs.headD {}).part 1 (leAt b 0 6) s1 = (none, s2) → exec .appendFwd s = .next (s2.bump COL_MIRROR_REFUSE_CNT.COUNT)) ∧
    (∀ c, convFind (fs.headD {}).part 1 (leAt b 0 6) s1 = (some c, s2) → (fwdArgs b c).layer < (s2.conv c).nlayer →
      tierState s c (fwdArgs b c).layer = 0 → tierState s2 c (fwdArgs b c).layer = 0 →
      appendWaits .appendFwd (fs.headD {}).part (fwdArgs b c) (leAt b 0xA 2) s = none →
      let f := fs.headD {}
      let x := fwdArgs b c
      let rows := b.drop 0x40
      let s0 := chargeLost f.part .fab (framesBytes fs) false (unstall .appendFwd s2)
      let ack : Frame := { ty := 5, tc := 5, part := f.part, dst := f.src, msg := f.msg, off := f.off, arg := 2 ^ 31 }
      ∀ st n s3, appendRows x (leAt b 0xA 2) rows s0 = (st, n, s3) →
        (st = ST.OK → exec .appendFwd s =
          .next (sendFrame ack (chargeLost f.part .fab ack.size false (chargeLost f.part .stk rows.length false (fwdStorage f x n s3)))).2) ∧
        (st ≠ ST.OK → exec .appendFwd s = .next (s0.bump COL_MIRROR_REFUSE_CNT.COUNT)))) ∧
  (∀ (s s1 : State) (f : Frame) (k slot : Nat) (a : Att) (x : AppSt), takeFrame (fun f => f.ty == 5 && wAck f.arg) s = some (f, s1) →
    ackTarget s1 f = some (k, slot) → s1.att? k = some a → a.apps.find? (fun x => x.slot == slot) = some x →
    (x.fwdAt + s1.rd COL_CFG2.MIRROR_TMO_US * 1000 < s.now → exec .appendFwdAck s = .next s1) ∧
    (s.now ≤ x.fwdAt + s1.rd COL_CFG2.MIRROR_TMO_US * 1000 → a.audit = false →
    ∃ t b, exec .appendFwdAck s = .next t ∧ t.att? k = some b ∧
      b.apps = a.apps.map (fun x => if x.slot = slot then { x with state := 3 } else x) ∧ { b with apps := a.apps, charges := a.charges } = a ∧ t.mem = s.mem)) ∧
  (∀ (s : State) (part ream pos slot : Nat) (x : AppSt),
    (s.att? (attKey part ream pos false)).bind (fun a => a.apps.find? fun x => x.slot == slot && x.state == 2) = some x →
    (x.fwdAt + s.rd COL_CFG2.MIRROR_TMO_US * 1000 < s.now → exec (.mirrorCommitTimeout part ream pos slot) s =
      .next (failPart (attKey part ream pos false) ST.MIRROR_COMMIT (s.bump COL_MIRROR_TMO_CNT.COUNT))) ∧
    (s.now ≤ x.fwdAt + s.rd COL_CFG2.MIRROR_TMO_US * 1000 → exec (.mirrorCommitTimeout part ream pos slot) s = .next s))

/-- For every block of 64 bytes, decoding the flag and body that the encoder chose, whatever follows that body in the folio,
gives the block back and consumes exactly the encoder's bytes, and the body is no longer than 64 bytes. KERN_ENCODE
takes the oldest waiting folio: one that is no longer a closed solid folio is dropped from the queue without any other
effect, one whose requests must wait waits, one that encodes is remembered with its new extent, one that does not stays
solid, and one whose header does not agree with its descriptor is logged with ST_KERN_FORMAT_SVC and stays solid.
KERN_ENCODE_DONE switches the folio to that extent in one step, and the solid extent is remembered until its count is
zero.
Rests on R46, R47, R48, R49, R54. -/
def Obligations.KernEncodingIsLossless : Prop :=
  (∀ (b rest : Bytes) (n : Nat), b.length = 64 →
    decodeBlock (encodeBlock b).1 ((encodeBlock b).2 ++ rest) ((encodeBlock b).2.length + n) 0 = .ok (b, (encodeBlock b).2.length) ∧
    (encodeBlock b).2.length ≤ 64) ∧
  (∀ (s : State) (f : Nat) (rest : List Nat), s.flo.toEncode = f :: rest →
    ((s.folio f).state ≠ 1 ∨ (s.folio f).kerned = true ∨ (s.folio f).closed = false → exec .kernEncode s = .next { s with flo.toEncode := rest }) ∧
    ((s.folio f).state = 1 → (s.folio f).kerned = false → (s.folio f).closed = true →
      let base := chunkOff (s.folio f).chunk
      let wait := reqWaits .kernEncode (s.folio f).part base (bodyOff + (hdrAt s base).blocks * 64) s
      let s0 := unstall .kernEncode { s with flo.toEncode := rest }
      (∀ s1, wait = some s1 → exec .kernEncode s = .next s1) ∧
      (wait = none →
        (∀ st x s1, encodeFolio f s0 = (st, some x, s1) → exec .kernEncode s = .next { s1 with flo.encodes := KMap.insert s1.flo.encodes f x }) ∧
        (∀ st s1, encodeFolio f s0 = (st, none, s1) → exec .kernEncode s = .next s1) ∧
        (encodable s (hdrAt s base) (peek s base 64) = false →
          exec .kernEncode s = .next (kernFault .chip 64 ST.KERN_FORMAT_SVC f 0 4 s0))))) ∧
  (∀ (s : State) (f ch n : Nat), KMap.find? s.flo.encodes f = some (ch, n) → (s.folio f).state = 1 → (s.folio f).outst ≠ 0 →
    ∃ t, exec (.kernEncodeDone f) s = .next t ∧ (t.folio f).chunk = ch ∧ (t.folio f).nchunk = n ∧ (t.folio f).kerned = true ∧
      (t.folio f).oldChunk = (s.folio f).chunk ∧ (t.folio f).oldOutst = (s.folio f).outst ∧ KMap.find? t.flo.encodes f = none ∧
      (∀ g, g ≠ f → t.folio g = s.folio g) ∧ { t with flo.folios := s.flo.folios, flo.encodes := s.flo.encodes } = s)

/-- The merge of two empty partials is empty, and of two others is R164's: the larger maximum, the rescaled sums of l, and
those of each element of o. Under fast merging a partial that meets an empty buffer is folded at once: it starts the
fold, or is merged after what is there. FOLIO_PARTIAL_ACCEPT takes the oldest partial at the block's port: one of no
attempt held, or of another attempt number or step, is counted as stale; one already seen as a duplicate; one with room
is offered to its fold and remembered as seen, and one without room waits. PARTIAL_MSG takes a child's message: where no
attempt takes it each record it holds is counted as stale; else its bytes are charged and its records are taken in turn:
one that does not fit the attempt is counted as stale, one already seen as a duplicate, a poisoned one ends the part
with ST_POISON, one that neither folds at once nor finds room in the partition's quota ends the part with
ST_COL_STORE_FULL, and any other is folded and remembered. NODE_PARTIAL_SEND changes nothing before the fold, the
appends and the audit are whole; then it sends the node partials to the parent, or the member whose audit it computes,
charges them, and the attempt is over; with no route the part ends with ST_FAB_NO_ROUTE. ROOT_FINISH changes nothing
before; then it sends the result as RESULT frames, or writes it to the host, completes the ream with ST_OK, and attempt
and ream are gone; a result longer than the descriptor's buffer completes with ST_HST_RES_SHORT, one that the host does
not take with ST_HST_DMA, and one without a route ends the part with ST_FAB_NO_ROUTE.
Rests on R163, R164, R167, R168, R298, R299, R300, R301, R321, R322, R327. -/
def Obligations.PartialsFoldIntoResults : Prop :=
  (∀ a b : Tri, (a.m = minusInf32 → b.m = minusInf32 → merge a b = Tri.empty a.o.length) ∧
    (¬ (a.m = minusInf32 ∧ b.m = minusInf32) → (merge a b).m = fmax a.m b.m ∧
      (let fa := exp32 (fsub a.m (fmax a.m b.m))
       let fb := exp32 (fsub b.m (fmax a.m b.m))
       (merge a b).l = fadd (fmul fa a.l) (fmul fb b.l) ∧ (merge a b).o.length = min a.o.length b.o.length ∧
       ∀ (i x y : Nat), a.o[i]? = some x → b.o[i]? = some y → (merge a b).o[i]? = some (fadd (fmul fa x) (fmul fb y))))) ∧
  (∀ (a : Att) (slot v code : Nat) (t : Tri), attAudits a = false → (KMap.get {} a.folds (vecKey slot v)).buf = [] →
    ∃ f, KMap.find? (a.offer true slot v code t).folds (vecKey slot v) = some f ∧ f.buf = [] ∧
      f.acc = some (((KMap.get {} a.folds (vecKey slot v)).acc.map fun x => merge x t).getD t)) ∧
  (∀ (s : State) (b : Nat) (e : Emit), s.cmp.emits.find? (fun e => e.block == b) = some e →
    let gone := { s with cmp.emits := s.cmp.emits.erase e }
    (s.att? e.att = none → exec (.folioPartialAccept b) s = .next (gone.bump COL_STALE_CNT.COUNT)) ∧
    (∀ a, s.att? e.att = some a →
      (a.attempt ≠ e.attempt ∨ a.step ≠ e.step → exec (.folioPartialAccept b) s = .next (gone.bump COL_STALE_CNT.COUNT)) ∧
      (a.attempt = e.attempt → a.step = e.step → (e.slot, 0, e.key, e.first) ∈ a.seen →
        exec (.folioPartialAccept b) s = .next (gone.bump COL_DUP_CNT.COUNT)) ∧
      (a.attempt = e.attempt → a.step = e.step → (e.slot, 0, e.key, e.first) ∉ a.seen → e.poison = false →
        (emitRoom s a e = false → exec (.folioPartialAccept b) s = .next s) ∧
        (emitRoom s a e = true → ∃ t a', exec (.folioPartialAccept b) s = .next (settleLocal e.att t) ∧ (a.audit = false → settleLocal e.att t = t) ∧
          t.att? e.att = some a' ∧ a'.seen = (e.slot, 0, e.key, e.first) :: a.seen ∧
          a'.folds = ((List.range e.tris.length).foldl (fun (a : Att) v => a.offer (modeFast s a.part) e.slot (e.first + v) e.key
            (if e.bf16 then { e.tris.getD v {} with o := (e.tris.getD v {}).o.map widen } else e.tris.getD v {})) a).folds ∧
          { a' with seen := a.seen, folds := a.folds } = a ∧ { t with cmp.emits := s.cmp.emits, col.atts := s.col.atts } = s ∧
          t.cmp.emits = s.cmp.emits.erase e)))) ∧
  (∀ (s s1 : State) (fs : List Frame), takeMsg (fun f => f.ty == 2 && !(wAudit f.arg)) s = some (fs, s1) →
    let f := fs.headD {}
    partFenced s1 f.part = false →
    (parentAtt s1 f.part f.msg (wPos f.arg) = none ∨ joinMsg fs = none → exec .partialMsg s = .next (s1.bumpBy COL_STALE_CNT.COUNT 0 (staleRecords fs))) ∧
    (∀ k a b, parentAtt s1 f.part f.msg (wPos f.arg) = some (k, a) → joinMsg fs = some b →
      let recs := recordsOf (tktNslot a.ticket) b
      let s2 := chargeRecs k (recs.map fun r => (r.slot, r.bytes.length)) (framesBytes fs) s1
      exec .partialMsg s = .next (takeRecords k (wPos f.arg) recs s2))) ∧
  (∀ (s : State) (k child : Nat) (r : PartRec) (rest : List PartRec) (a : Att), s.att? k = some a →
    let mine := r.ream = a.ream ∧ r.part = a.part ∧ r.attempt = a.attempt ∧ r.step = a.step ∧ r.level = 1 ∧ recFits a r = true
    (¬ mine → takeRecords k child (r :: rest) s = takeRecords k child rest (s.bump COL_STALE_CNT.COUNT)) ∧
    (mine → (r.slot, 1, r.key, r.first) ∈ a.seen → takeRecords k child (r :: rest) s = takeRecords k child rest (s.bump COL_DUP_CNT.COUNT)) ∧
    (mine → (r.slot, 1, r.key, r.first) ∉ a.seen →
      (r.poison = true → takeRecords k child (r :: rest) s = endServe k ST.POISON child (poisonUse .chip 12 0 (some a.part) ST.POISON 0 s)) ∧
      (r.poison = false → recRoom s a child r = false → takeRecords k child (r :: rest) s = failPart k ST.COL_STORE_FULL s) ∧
      (r.poison = false → recRoom s a child r = true → ∃ t a', takeRecords k child (r :: rest) s = takeRecords k child rest t ∧ t.att? k = some a' ∧
        a'.seen = (r.slot, 1, r.key, r.first) :: a.seen ∧
        a'.folds = ((List.range r.tris.length).foldl (fun (a : Att) v =>
          a.offer (modeFast s a.part) r.slot (r.first + v) (childCode child) (r.tris.getD v {})) a).folds ∧
        { a' with seen := a.seen, folds := a.folds } = a ∧ { t with col.atts := s.col.atts } = s))) ∧
  (∀ (s : State) (part ream pos : Nat) (audit : Bool) (a : Att) (d : SigDesc), s.att? (attKey part ream pos audit) = some a → sigOf? s a.sig part = some d →
    (a.folded = false ∨ a.appended = false ∨ (a.audit = true ∧ a.audited = false) → exec (.nodePartialSend part ream pos audit) s = .next s) ∧
    (a.folded = true → a.appended = true → (a.audit = true → a.audited = true) → (a.pos ≠ 0 ∨ a.mirrorOf.isSome = true) →
      let k := attKey part ream pos audit
      let f : Frame := { ty := 2, tc := 2, part := part, dst := a.mirrorOf.getD (d.server (d.parent pos)), msg := ream,
                         arg := sigWord false false d.epoch a.mirrorOf.isSome false pos }
      let recs := (List.range (tktNslot a.ticket)).map fun i => (nodeRec s d a i).bytes
      let sent := sendMsg f recs.flatten s
      (sent.1 = true ∨ a.mirrorOf.isSome = true → ∃ t, exec (.nodePartialSend part ream pos audit) s = .next t ∧
        t = attDone k (chargeRecs k (((List.range recs.length).zip recs).map fun r => (r.1, r.2.length)) (framesBytes (msgFrames f recs.flatten)) sent.2) ∧
        t.att? k = none) ∧
      (sent.1 = false → a.mirrorOf = none → exec (.nodePartialSend part ream pos audit) s = .next (failPart k ST.FAB_NO_ROUTE sent.2)))) ∧
  (∀ (s : State) (part ream : Nat) (ok : Bool) (a : Att) (r : Ream) (d : SigDesc), s.att? (attKey part ream 0 false) = some a →
    s.ream? part ream = some r → sigOf? s a.sig part = some d →
    (a.folded = false ∨ a.appended = false ∨ (a.audit = true ∧ a.audited = false) → exec (.rootFinish part ⟨ream, ok⟩) s = .next s) ∧
    (a.folded = true → a.appended = true → (a.audit = true → a.audited = true) →
      let k := attKey part ream 0 false
      let recs := resultRecs s d a
      let b := recs.flatten
      let tagged := ((List.range recs.length).zip recs).map fun x => (x.1, x.2.length)
      let f : Frame := { ty := 3, tc := 2, part := part, dst := tktReqNode r.ticket, msg := ream }
      let sent := sendMsg f b s
      (r.src = .reg → sent.1 = false → exec (.rootFinish part ⟨ream, ok⟩) s = .next (failPart k ST.FAB_NO_ROUTE sent.2)) ∧
      (r.src ≠ .reg ∨ sent.1 = true → ∃ t, exec (.rootFinish part ⟨ream, ok⟩) s = .next t ∧ t.att? k = none ∧
        KMap.find? t.col.reams (reamKey r.part r.ream) = none ∧
        (r.src = .reg → t = completeReam r ST.OK 0xFFFF b.length (attDone k (chargeColophon k r.src r.ticket
          (chargeRecs k tagged (framesBytes (msgFrames f b)) sent.2)))) ∧
        (∀ p q n, r.src = .host p q n →
          let room := leAt (jobDesc s p q n) 0x20 4
          let s0 := chargeColophon k r.src r.ticket s
          (room < b.length → t = completeReam r ST.HST_RES_SHORT 0xFFFF b.length (attDone k s0)) ∧
          (b.length ≤ room → ok = false → t = completeReam r ST.HST_DMA 0xFFFF 0 (attDone k (s0.bump HST_DMA_ERR_CNT.COUNT))) ∧
          (b.length ≤ room → ok = true →
            t = completeReam r ST.OK 0xFFFF b.length (hostOut p q n b (attDone k (chargeHostRecs k tagged s0))))))))

/-- REAM_COMMIT with COMMIT set leaves a commit pending, which the next service copies to the active weights of every
partition. SLOT_PIPELINE_SERVE, while the node runs, serves the queued ticket of smallest tag, whose tag becomes the
virtual time, and changes nothing else. DISPATCH_QUEUE_ADMIT moves the pending composition of its block with the
smallest tag into the block's dispatch queue where the block accepts it, and changes nothing else. PLACEMENT_BATCH
places a batch that is due, whose appends are placed and whose runs are resident. GANG_WAIT_EXPIRE, once the folios
whose gang came free in time are served, sends to galley mode those whose wait has passed the limit of the ream's
policy, and changes nothing more where none has. PARTITION_STARVATION marks, counts and signals a partition past
STARVE_US, and reports it by an informational record. REGULATOR_REFILL, a microsecond or more after the last one, adds
each bucket's rate up to its burst, and changes nothing before. ACCT_PERIOD changes nothing before its period has
passed, and then restarts the period and empties each partition's overhead.
Rests on R195, R200, R202, R203, R204, R205, R206, R210. -/
def Obligations.SchedulerServesByTag : Prop :=
  (∀ (s : State) (v : Nat), (bitOf v 0 = true → exec (.reamCommit v) s = .next (s.wr REAM_COMMIT_STS.PEND 0 1)) ∧
    (bitOf v 0 = false → exec (.reamCommit v) s = .next s)) ∧
  (∀ s : State, s.rd REAM_COMMIT_STS.PEND = 1 → nodeRuns s = true → nextTicket (applyReamCommit s) = none →
    ∃ t, exec .slotPipelineServe s = .next t ∧ t.rd REAM_COMMIT_STS.PEND = 0 ∧
      ∀ p < 32, t.rd REAM_PW_ACT.WEIGHT p = s.rd REAM_PW.WEIGHT p % 256 ∧ ∀ c < 16, t.rd (REAM_CW_ACT.W c) p = s.rd (REAM_CW.W c) p % 256) ∧
  (∀ s : State, nodeRuns s = false → exec .slotPipelineServe s = .next s) ∧
  (∀ (s : State) (k : Nat) (a : Att), nodeRuns s = true → s.rd REAM_COMMIT_STS.PEND = 0 → nextTicket s = some (k, a) →
    (k, a) ∈ s.col.atts ∧ a.next < tktNslot a.ticket ∧
    (∀ e ∈ s.col.atts, e.2.next < tktNslot e.2.ticket → batchHeld s e.2.part = false → a.tag ≤ e.2.tag) ∧
    ∃ t, exec .slotPipelineServe s = .next t ∧ t.rea.v1 = a.tag ∧ t.att? k = some { a with due := true } ∧
      SameBut s.col.atts t.col.atts k ∧ { t with rea.v1 := s.rea.v1, col.atts := s.col.atts } = s) ∧
  (∀ (s : State) (b : Nat) (x : PendComp), s.rd REAM_COMMIT_STS.PEND = 0 → nextPending s b = some x →
    x ∈ s.rea.pool ∧ x.block = b ∧ ((∀ y ∈ s.rea.pool, y.tag < 2 ^ 47) → ∀ y ∈ s.rea.pool, y.block = b → x.tag ≤ y.tag) ∧
    (blockAccepts s b x.comp.part = true → ∃ t, exec (.dispatchQueueAdmit b) s = .next t ∧ (t.blk b).queue = (s.blk b).queue ++ [x.comp] ∧
      { t.blk b with queue := (s.blk b).queue } = s.blk b ∧ t.rea.pool = s.rea.pool.erase x ∧ KMap.get 0 t.rea.vb b = x.tag ∧
      { t with rea.pool := s.rea.pool, rea.vb := s.rea.vb, cmp.blocks := s.cmp.blocks } = s) ∧
    (blockAccepts s b x.comp.part = false → exec (.dispatchQueueAdmit b) s = .next s)) ∧
  (∀ (s : State) (part ream pos : Nat) (audit : Bool) (a : Att), s.att? (attKey part ream pos audit) = some a → nodeRuns s = true → a.parked = [] →
    (a.due = false ∨ batchAppends a = true → exec (.placementBatch part ream pos audit) s = .next s) ∧
    (a.due = true → batchAppends a = false → (∀ x ∈ batchRuns s a, tierState s x.1 x.2.1 = 0) →
      exec (.placementBatch part ream pos audit) s = .next (placeBatch (attKey part ream pos audit) a s))) ∧
  (∀ (s : State) (part ream pos : Nat) (audit : Bool) (a : Att), (gangsServe s).att? (attKey part ream pos audit) = some a →
    ((∀ g ∈ a.gangs, s.now ≤ g.since + a.pol.gangWait) → exec (.gangWaitExpire part ream pos audit) s = .next (gangsServe s)) ∧
    (∀ g gs, a.gangs.filter (fun g => decide (g.since + a.pol.gangWait < s.now)) = g :: gs →
      exec (.gangWaitExpire part ream pos audit) s = .next (placeLate (attKey part ream pos audit) false (g :: gs) (gangsServe s)))) ∧
  (∀ s : State, (∀ e ∈ s.col.atts, e.2.gangs = []) → gangsServe s = s) ∧
  (∀ (s : State) (p : Nat), s.rd REAM_CFG.STARVE_US ≠ 0 → p < 32 → s.rd REAM_CFG.STARVE_US + 1 ≤ partAge s p / 1000 →
    bitOf (s.rd REAM_STARVE_STS.STARVE) p = false →
    ∃ t, exec (.partitionStarvation p) s =
        .next (report .chip { sev := 0, subsys := 8, cause := Config.causeCode 66, part := some p } t) ∧ bitOf (t.rd REAM_STARVE_STS.STARVE) p = true ∧
      t.rd REAM_STARVE_CNT.COUNT = min (2 ^ 32 - 1) (s.rd REAM_STARVE_CNT.COUNT + 1) ∧
      SameRegs s t [REAM_STARVE_STS.STARVE.key 0, REAM_STARVE_CNT.COUNT.key 0] ∧
      { t with regs := s.regs, out := s.out, hst.msixPend := s.hst.msixPend } = s) ∧
  (∀ s : State, s.due .refill 1000 = false → exec .regulatorRefill s = .next s) ∧
  (∀ s : State, s.flag REAM_REG_CTL.EN = true → s.rea.regWait = [] → s.due .refill 1000 = true →
    ∃ t, exec .regulatorRefill s = .next t ∧ (∀ p < 32, ∀ gut, tokens t gut p = min (tokens s gut p + regRate s gut p * 1000) (regBurst s gut p * 4096)) ∧
      { t with rea.stkTok := s.rea.stkTok, rea.gutTok := s.rea.gutTok, periods := s.periods } = s) ∧
  (∀ s : State, (s.now < s.rea.lastAcct + s.rd REAM_ACCT_CFG.PERIOD_MS * 1000000 → exec .acctPeriod s = .next s) ∧
    (s.rea.lastAcct + s.rd REAM_ACCT_CFG.PERIOD_MS * 1000000 ≤ s.now → ∃ t, exec .acctPeriod s = .next t ∧ t.rea.lastAcct = s.now ∧
      ∀ p < 32, KMap.find? t.rea.rest p = none))

/-- A directory command row takes the oldest command only where that is its own operation and no close runs; else it changes
nothing. It refuses with ST_FLO_DISABLED, ST_DIR_CMD_FORMAT or ST_FENCED, in that order, and otherwise acts: CONV_OPEN
refuses bad geometry, a key slot that is not the partition's, a held handle, and a full table or catchword, and else
enters the record in the lowest free place; CONV_CLOSE removes the directory entry, sets STATE 2 and waits; CONV_IMPOSE
refuses a record that changes other fields than SIG_ID, PRIMARY and MIRROR, and else replaces those three; CONV_SHARE
refuses conversations that do not agree, a folio that is not closed, a vector place past 8,191 and too few leaf blocks,
and else copies into each run what R185 shares; ACL_GRANT inserts an access entry; PREFIX_PUT inserts a prefix entry
where lengths descend; ACL_DROP and PREFIX_DROP delete theirs or answer ST_CWD_NOT_FOUND; PREFIX_FIND answers the donor
handle and the length. A handle that the directory does not hold ends CONV_CLOSE, CONV_SHARE, CONV_IMPOSE and PREFIX_PUT
with ST_DIR_NO_CONV. Every command ends with its status and is counted in FLO_CNT3, and records of no command that then
stand at the front of the queue end as malformed.
Rests on R172, R183, R184, R185, R186, R189, R377. -/
def Obligations.DirectoryCommandsAct : Prop :=
  (∀ (s : State) (c : Instr) (op : Nat), (c, op) ∈ [(Instr.convOpen, 1), (.convClose, 2), (.convShare, 3), (.convImpose, 4), (.aclGrant, 5), (.aclDrop, 6),
      (.prefixPut, 7), (.prefixDrop, 8), (.prefixFind, 9)] →
    (s.flo.waiting = [] → exec c s = .next s) ∧
    (∀ src b rest, s.flo.waiting = (src, b) :: rest →
      (s.flo.closing ≠ none ∨ leAt b 0 1 ≠ op → exec c s = .next s) ∧
      (s.flo.closing = none → leAt b 0 1 = op →
        (floOn s = false → exec c s = .next (dirEnds src ST.FLO_DISABLED [] (dirTaken s rest))) ∧
        (floOn s = true → dirFormOk b = false → exec c s = .next (dirEnds src ST.DIR_CMD_FORMAT [] (dirTaken s rest))) ∧
        (floOn s = true → dirFormOk b = true → cmdFenced s (dirCmd b).part = true →
          exec c s = .next (dirEnds src ST.FENCED [] (dirTaken s rest)))))) ∧
  (∀ (s : State) (src : CmdSrc) (b : Bytes) (rest : List (CmdSrc × Bytes)),
    let d := dirCmd b
    let u := dirTaken s rest
    let sealed := modeSealed s d.part
    let r := impose { conv := d.conv, state := 1, role := bits d.arg 16 1, part := d.part, sealed := sealed, spread := bits d.arg 17 1, tenant := d.ten,
                      keySlot := if sealed then d.arg % 65536 else 0 } d.pay
    (NextDir s 1 src b rest →
      (badGeometry s r = true → exec .convOpen s = .next (dirEnds src ST.DIR_GEOMETRY [] u)) ∧
      (badGeometry s r = false → sealed = true → ¬ ((keySlot s (d.arg % 65536)).state = 1 ∧ (keySlot s (d.arg % 65536)).part = d.part) →
        exec .convOpen s = .next (dirEnds src ST.KEY_SLOT [] u)) ∧
      (badGeometry s r = false → (sealed = true → (keySlot s (d.arg % 65536)).state = 1 ∧ (keySlot s (d.arg % 65536)).part = d.part) →
        ((cwdSearch s (dirKey d.part r.role d.conv) (fullMask 1) 255 1 0).isSome = true → exec .convOpen s = .next (dirEnds src ST.DIR_CONV_EXISTS [] u)) ∧
        (cwdSearch s (dirKey d.part r.role d.conv) (fullMask 1) 255 1 0 = none → freeConv s = none →
          exec .convOpen s = .next (dirEnds src ST.FOLIO_TBL_FULL [] u)) ∧
        (cwdSearch s (dirKey d.part r.role d.conv) (fullMask 1) 255 1 0 = none → ∀ c st s1, freeConv s = some c → st ≠ ST.OK →
          cwdInsertType 1 1 (dirKey d.part r.role d.conv) c u = (st, s1) → exec .convOpen s = .next (dirEnds src ST.FOLIO_TBL_FULL [] s1)) ∧
        (cwdSearch s (dirKey d.part r.role d.conv) (fullMask 1) 255 1 0 = none → ∀ c s1, freeConv s = some c →
          cwdInsertType 1 1 (dirKey d.part r.role d.conv) c u = (ST.OK, s1) →
          ∃ t v, exec .convOpen s = .next (dirEnds src ST.OK [] t) ∧ t = { s1 with flo.convs := t.flo.convs, flo.runs := v } ∧ t.conv c = r ∧
            ∀ e, e ≠ c → t.conv e = s.conv e))) ∧
    (NextDir s 2 src b rest → ∀ c s1, convFind d.part (bits d.arg 16 1) d.conv u = (some c, s1) →
      ∃ t, exec .convClose s = .next t ∧ t.flo.closing = some (src, c) ∧ t.conv c = { s.conv c with state := 2 } ∧
        (∀ e, e ≠ c → t.conv e = s.conv e) ∧ t.flo.waiting = rest ∧
        t.cwd = (cwdDeleteKey 1 (dirKey d.part (bits d.arg 16 1) d.conv) s1).2.cwd ∧ t.mem = s.mem) ∧
    (∀ s1, convFind d.part (bits d.arg 16 1) d.conv u = (none, s1) →
      (NextDir s 2 src b rest → exec .convClose s = .next (dirEnds src ST.DIR_NO_CONV [] s1)) ∧
      (NextDir s 4 src b rest → exec .convImpose s = .next (dirEnds src ST.DIR_NO_CONV [] s1))) ∧
    (∀ s1, convFind d.part 0 d.conv u = (none, s1) → NextDir s 7 src b rest → exec .prefixPut s = .next (dirEnds src ST.DIR_NO_CONV [] s1)) ∧
    (NextDir s 4 src b rest → ∀ c s1, convFind d.part (bits d.arg 16 1) d.conv u = (some c, s1) →
      let n := impose (s.conv c) d.pay
      ({ n with sig := (s.conv c).sig, primary := (s.conv c).primary, mirror := (s.conv c).mirror } ≠ s.conv c →
        exec .convImpose s = .next (dirEnds src ST.DIR_GEOMETRY [] s1)) ∧
      ({ n with sig := (s.conv c).sig, primary := (s.conv c).primary, mirror := (s.conv c).mirror } = s.conv c →
        exec .convImpose s = .next (dirEnds src ST.OK [] (s1.setConv c n)))) ∧
    (NextDir s 5 src b rest → ∀ st s1, cwdInsertType 2 1 (accessKey d.part (d.arg % 65536) d.conv) (bits d.arg 16 2) u = (st, s1) →
      exec .aclGrant s = .next (dirEnds src st [] s1)) ∧
    (NextDir s 6 src b rest → ∀ ok s1, cwdDeleteKey 1 (accessKey d.part (d.arg % 65536) d.conv) u = (ok, s1) →
      exec .aclDrop s = .next (dirEnds src (if ok then ST.OK else ST.CWD_NOT_FOUND) [] s1)) ∧
    (NextDir s 7 src b rest → ∀ c s1 st p s2 k, convFind d.part 0 d.conv u = (some c, s1) →
      bankOf s1 (prefixKeyOf s d).2.2 (prefixKeyOf s d).1 = some k →
      cwdInsertAt k (prefixPlace s1 k (prefixKeyOf s d).2.1) (prefixKeyOf s d).2.1 c s1 = (st, p, s2) →
      exec .prefixPut s = .next (dirEnds src st [] s2)) ∧
    (NextDir s 8 src b rest → ∀ ok s1, cwdDeleteKey (prefixKeyOf s d).1 (prefixKeyOf s d).2.1 u = (ok, s1) →
      exec .prefixDrop s = .next (dirEnds src (if ok then ST.OK else ST.CWD_NOT_FOUND) [] s1)) ∧
    (NextDir s 9 src b rest → ∀ k p e, cwdSearch s (prefixKeyOf s d).2.1 (fullMask (prefixKeyOf s d).1) 255 (prefixKeyOf s d).1 0 = some (k, p, e) →
      exec .prefixFind s = .next (dirEnds src ST.OK (natLe 8 (s.conv e.res).conv ++ natLe 4 (d.arg / 256)) (u.bump (CWD_CNT.COUNT 0)))) ∧
    (NextDir s 9 src b rest → cwdSearch s (prefixKeyOf s d).2.1 (fullMask (prefixKeyOf s d).1) 255 (prefixKeyOf s d).1 0 = none →
      exec .prefixFind s = .next (dirEnds src ST.CWD_NOT_FOUND [] (u.bump (CWD_CNT.COUNT 0))))) ∧
  (∀ (s : State) (src : CmdSrc) (b : Bytes) (rest : List (CmdSrc × Bytes)) (x y : Nat) (s1 s2 : State), NextDir s 3 src b rest →
    convFind (dirCmd b).part (bits (leAt (dirCmd b).pay 0 1) 0 1) (dirCmd b).conv (dirTaken s rest) = (some x, s1) →
    convFind (dirCmd b).part (bits (leAt (dirCmd b).pay 0 1) 0 1) (dirCmd b).conv2 s1 = (some y, s2) →
    let cx := s.conv x
    let cy := s.conv y
    let len := (dirCmd b).arg
    let agree := cx.desc = cy.desc ∧ cx.sealed = cy.sealed ∧ cx.keySlot = cy.keySlot ∧ cx.nlayer = cy.nlayer ∧ cx.nhg = cy.nhg ∧ cx.posLo = cy.posLo ∧
      cx.hgLo = cy.hgLo ∧ cx.hgHi = cy.hgHi ∧ len % spanOf s x = 0
    let pairs := (runsOf s x).zip (runsOf s y)
    let clash := ∃ p ∈ pairs, (sharePlan s x p.1 p.2 len).2 = true
    let closed := ∀ p ∈ pairs, ∀ e ∈ (sharePlan s x p.1 p.2 len).1, (s.folio e.2).closed = true
    let fits := ∀ p ∈ pairs, ∀ e ∈ (sharePlan s x p.1 p.2 len).1, e.1 < 8192
    let need := (pairs.map fun p => leavesNeeded s p.1 (sharePlan s x p.1 p.2 len).1).sum
    (¬ agree ∨ clash → exec .convShare s = .next (dirEnds src ST.SHARE_MISMATCH [] s2)) ∧
    (agree → ¬ clash → ¬ closed → exec .convShare s = .next (dirEnds src ST.SHARE_OPEN [] s2)) ∧
    (agree → ¬ clash → closed → ¬ fits → exec .convShare s = .next (dirEnds src ST.RUN_FULL [] s2)) ∧
    (agree → ¬ clash → closed → fits → leavesLeft s < need → exec .convShare s = .next (dirEnds src ST.FOLIO_TBL_FULL [] s2)) ∧
    (agree → ¬ clash → closed → fits → need ≤ leavesLeft s → leafPoison s = false →
      exec .convShare s = .next (dirEnds src ST.OK [] (pairs.foldl (fun s p => shareRun x p.1 p.2 len s) s2)))) ∧
  (∀ (s : State) (src : CmdSrc) (b : Bytes) (rest : List (CmdSrc × Bytes)) (s1 s2 : State) (x y : Option Nat), NextDir s 3 src b rest →
    convFind (dirCmd b).part (bits (leAt (dirCmd b).pay 0 1) 0 1) (dirCmd b).conv (dirTaken s rest) = (x, s1) →
    convFind (dirCmd b).part (bits (leAt (dirCmd b).pay 0 1) 0 1) (dirCmd b).conv2 s1 = (y, s2) → x = none ∨ y = none →
    exec .convShare s = .next (dirEnds src ST.DIR_NO_CONV [] s2)) ∧
  (∀ (s : State) (st : Nat) (res : Bytes), ∃ t, floDone .reg st res s = t ∧ t.rd FLO_CMD_STS.BUSY = 0 ∧ t.rd FLO_CMD_STS.DONE = 1 ∧
    (st < 65536 → t.rd FLO_CMD_STS.STATUS = st) ∧
    RegsOnly s t [(FLO_CNT.COUNT 3).key 0, FLO_CMD_STS.BUSY.key 0, FLO_CMD_STS.DONE.key 0, FLO_CMD_STS.STATUS.key 0])

/-- FOLIO_FREE of a folio in STATE 2 with REFS and OUTSTANDING 0 frees its extent, unless it was in the lower case and has
none, returns its number and sets STATE 0, counted in FLO_CNT1; of one whose replaced extent has no count left it frees
that extent alone, counted too; of any other it changes nothing, so that a folio in use is never freed.
CONV_CLOSE_COMPLETE waits for INFLIGHT 0 and then ends the close with ST_OK: the record is free with its other fields
kept, and where no run is in or on the way to the lower case each folio loses one reference for each place that named
it, enters STATE 2 with its last one, and the leaf blocks of the runs are free.
Rests on R181, R182, R184. -/
def Obligations.FoliosAreFreedAtZero : Prop :=
  (∀ (s : State) (f : Nat),
    let e := s.folio f
    (e.state = 2 → e.refs = 0 → e.outst = 0 → ∃ t, exec (.folioFree f) s = .next t ∧ (t.folio f).state = 0 ∧ t.flo.freed = f :: s.flo.freed ∧
      (e.nchunk ≠ 0 → e.tierRef = 0 → KMap.find? t.flo.used e.chunk = none) ∧ (∀ g, g ≠ f → t.folio g = s.folio g) ∧
      (∀ c, c ≠ e.chunk → c ≠ e.oldChunk → KMap.find? t.flo.used c = KMap.find? s.flo.used c) ∧
      t.rd (FLO_CNT.COUNT 1) = min (2 ^ 32 - 1) (s.rd (FLO_CNT.COUNT 1) + 1) ∧
      SameRegs s t [(FLO_CNT.COUNT 1).key 0] ∧
      { t with regs := s.regs, flo.folios := s.flo.folios, flo.freed := s.flo.freed, flo.used := s.flo.used } = s) ∧
    (¬ (e.state = 2 ∧ e.refs = 0 ∧ e.outst = 0) → e.oldN ≠ 0 → e.oldOutst = 0 → ∃ t, exec (.folioFree f) s = .next t ∧
      t.folio f = { e with oldN := 0, oldChunk := 0 } ∧ KMap.find? t.flo.used e.oldChunk = none ∧
      (∀ c, c ≠ e.oldChunk → KMap.find? t.flo.used c = KMap.find? s.flo.used c) ∧ (∀ g, g ≠ f → t.folio g = s.folio g) ∧
      t.rd (FLO_CNT.COUNT 1) = min (2 ^ 32 - 1) (s.rd (FLO_CNT.COUNT 1) + 1) ∧ SameRegs s t [(FLO_CNT.COUNT 1).key 0] ∧
      { t with regs := s.regs, flo.folios := s.flo.folios, flo.used := s.flo.used } = s) ∧
    (¬ (e.state = 2 ∧ e.refs = 0 ∧ e.outst = 0) → (e.oldN = 0 ∨ e.oldOutst ≠ 0) → exec (.folioFree f) s = .next s)) ∧
  (∀ s : State, s.flo.closing = none → exec .convCloseComplete s = .next s) ∧
  (∀ (s : State) (src : CmdSrc) (c : Nat), s.flo.closing = some (src, c) →
    ((s.conv c).inflight ≠ 0 → exec .convCloseComplete s = .next s) ∧
    ((s.conv c).inflight = 0 → ∃ t, exec .convCloseComplete s = .next (dirEnds src ST.OK [] t) ∧ t.conv c = { s.conv c with state := 0 } ∧
      (∀ e, e ≠ c → t.conv e = s.conv e) ∧ t.flo.closing = none ∧
      (s.tier.spills = [] → s.tier.leases = [] → (∀ l, tierState s c l ≠ 3) →
        (∀ i ∈ runsOf s c, ∀ e ∈ (s.run i).vec, (s.folio e.2).state ≠ 3) →
        (∀ f, let n := ((runsOf s c).flatMap fun i => List.map (fun e : Nat × Nat => e.2) (s.run i).vec).count f
          (t.folio f).refs = (s.folio f).refs - n ∧ (t.folio f).state = (if n ≠ 0 ∧ (s.folio f).refs ≤ n then 2 else (s.folio f).state)) ∧
        (∀ i ∈ runsOf s c, ∀ e ∈ (s.run i).leaf, e.2 ∈ t.flo.leafFreed))))

/-- Where the entries are listed by rising place in the eight banks: a search answers the match of lowest bank and position
at or above its start among the selected banks of its width, in CWD_RES, and ST_CWD_NOT_FOUND where there is none. An
insert of a key the bank holds is refused with ST_CWD_DUP and counted; else it takes a free place in a group that keeps
one, and with no such group, or with a width that is not the bank's, it is refused with ST_CWD_GROUP_FULL and counted.
An ordered insert at POS enters there and moves the entries up to the first free place by one, and without two free
places in the group it is refused likewise. A delete and a read act on the entry at POS alone, and answer
ST_CWD_NOT_FOUND where there is none. A search, a read and the parity sweep drop exactly the entries whose parity they
find bad, each counted in CWD_CNT2, and the sweep, which comes a millisecond or more after the last one, changes nothing
before. A directory entry that parity lost is inserted again from its active record, and a held one is left alone.
Rests on R187, R188, R189, R190. -/
def Obligations.CatchwordUnitFindsAndKeepsEntries : Prop :=
  (∀ (s : State) (w banks pos : Nat), KMap.sorted s.cwd.ents = true → (∀ x ∈ s.cwd.ents, x.1 < 8 * 32768) → w < 4 →
    let u := cwdUnits w
    let key := cwdRegKey s u
    let mask := cwdRegMask s u
    (∀ b p e, b < 8 → p < 32768 → cwdEnt s b p = some e → bitOf banks b = true → bankUnits s b = u → pos ≤ p → e.key &&& mask = key &&& mask →
      (∀ b' p' e', cwdEnt s b' p' = some e' → p' < 32768 → bitOf banks b' = true → bankUnits s b' = u → pos ≤ p' → e'.key &&& mask = key &&& mask →
        cwdKey b p ≤ cwdKey b' p') →
      ∃ t, exec (.cwdSearch w banks pos []) s = .next t ∧ t.rd CWD_RES.HIT = 1 ∧ t.rd CWD_RES.BANK = b ∧ t.rd CWD_RES.POS = p ∧
        t.rd CWD_RES.RESULT = e.res % 2 ^ 32 ∧ t.rd CWD_STS.STATUS = ST.OK ∧
        RegsOnly s t [(CWD_CNT.COUNT 0).key 0, CWD_RES.HIT.key 0, CWD_RES.BANK.key 0, CWD_RES.POS.key 0, CWD_RES.RESULT.key 0, CWD_STS.STATUS.key 0]) ∧
    ((∀ x ∈ s.cwd.ents, ¬ (bitOf banks (x.1 / 32768) = true ∧ bankUnits s (x.1 / 32768) = u ∧ pos ≤ x.1 % 32768 ∧ x.2.key &&& mask = key &&& mask)) →
      ∃ t, exec (.cwdSearch w banks pos []) s = .next t ∧ t.rd CWD_RES.HIT = 0 ∧ t.rd CWD_STS.STATUS = ST.CWD_NOT_FOUND ∧
        RegsOnly s t [(CWD_CNT.COUNT 0).key 0, CWD_RES.HIT.key 0, CWD_STS.STATUS.key 0])) ∧
  (∀ (s : State) (w banks pos : Nat) (bad : List (Nat × Nat)), ∃ t, exec (.cwdSearch w banks pos bad) s = .next t ∧
    (∀ x ∈ bad, cwdEnt t x.1 x.2 = none) ∧ (∀ k, (∀ x ∈ bad, cwdKey x.1 x.2 ≠ k) → KMap.find? t.cwd.ents k = KMap.find? s.cwd.ents k) ∧ t.mem = s.mem) ∧
  (∀ (s : State) (w b pos : Nat), b < 8 → bankUnits s b ≠ cwdUnits w ∨ cwdUnits w = 0 ∨
      (cwdHas s b (cwdRegKey s (cwdUnits w)) = false ∧ ∀ g, (groupFree s b g).length < 2) →
    ∀ c ∈ [Instr.cwdInsert w b, .cwdInsertOrdered w b pos], ∃ t, exec c s = .next t ∧ t.rd CWD_STS.STATUS = ST.CWD_GROUP_FULL ∧
      t.rd (CWD_CNT.COUNT 3) = min (2 ^ 32 - 1) (s.rd (CWD_CNT.COUNT 3) + 1) ∧ RegsOnly s t [(CWD_CNT.COUNT 3).key 0, CWD_STS.STATUS.key 0]) ∧
  (∀ (s : State) (w b : Nat), b < 8 → bankUnits s b = cwdUnits w → 0 < cwdUnits w →
    let key := cwdRegKey s (cwdUnits w)
    (cwdHas s b key = true → ∃ t, exec (.cwdInsert w b) s = .next t ∧ t.rd CWD_STS.STATUS = ST.CWD_DUP ∧
      t.rd (CWD_CNT.COUNT 3) = min (2 ^ 32 - 1) (s.rd (CWD_CNT.COUNT 3) + 1) ∧ RegsOnly s t [(CWD_CNT.COUNT 3).key 0, CWD_STS.STATUS.key 0]) ∧
    (cwdHas s b key = false → (∃ g, g < bankPlaces s b / 64 ∧ 2 ≤ (groupFree s b g).length) →
      ∃ t p, exec (.cwdInsert w b) s = .next t ∧ p < bankPlaces s b ∧ cwdEnt s b p = none ∧
        cwdEnt t b p = some { key := key, res := s.rd CWD_DATA.RESULT } ∧ (∃ q, q / 64 = p / 64 ∧ cwdEnt t b q = none) ∧
        SameBut s.cwd.ents t.cwd.ents (cwdKey b p) ∧ t.rd CWD_RES.POS = p % 2 ^ 15 ∧ t.rd CWD_RES.BANK = b ∧ t.rd CWD_STS.STATUS = ST.OK ∧
        { t with regs := s.regs, cwd.ents := s.cwd.ents } = s) ∧
    (∀ p q, p < bankPlaces s b → cwdHas s b key = false → 2 ≤ (groupFree s b (p / 64)).length → q / 64 = p / 64 → p ≤ q → cwdEnt s b q = none →
      (∀ j, p ≤ j → j < q → (cwdEnt s b j).isSome = true) →
      ∃ t, exec (.cwdInsertOrdered w b p) s = .next t ∧ cwdEnt t b p = some { key := key, res := s.rd CWD_DATA.RESULT } ∧
        (∀ j, p ≤ j → j < q → cwdEnt t b (j + 1) = cwdEnt s b j) ∧
        (∀ k, k < cwdKey b p ∨ cwdKey b q < k → KMap.find? t.cwd.ents k = KMap.find? s.cwd.ents k) ∧
        t.rd CWD_STS.STATUS = ST.OK ∧ { t with regs := s.regs, cwd.ents := s.cwd.ents } = s)) ∧
  (∀ (s : State) (b p : Nat) (e : CwdEnt), b < 8 → cwdEnt s b p = some e →
    (∃ t, exec (.cwdDelete b p) s = .next t ∧ cwdEnt t b p = none ∧ SameBut s.cwd.ents t.cwd.ents (cwdKey b p) ∧ t.rd CWD_STS.STATUS = ST.OK ∧
      SameRegs s t [CWD_STS.STATUS.key 0] ∧ { t with regs := s.regs, cwd.ents := s.cwd.ents } = s) ∧
    (∃ t, exec (.cwdRead b p false) s = .next t ∧ (∀ k < 12, t.rd (CWD_KEY.BITS k) = bits e.key (32 * k) 32) ∧ t.rd CWD_RES.RESULT = e.res % 2 ^ 32 ∧
      t.rd CWD_STS.STATUS = ST.OK ∧ { t with regs := s.regs } = s)) ∧
  (∀ (s : State) (b p : Nat), b < 8 → cwdEnt s b p = none → exec (.cwdDelete b p) s = .next (s.wr CWD_STS.STATUS 0 ST.CWD_NOT_FOUND) ∧
    exec (.cwdRead b p false) s = .next ((s.wr CWD_RES.HIT 0 0).wr CWD_STS.STATUS 0 ST.CWD_NOT_FOUND)) ∧
  (∀ (s : State) (b p : Nat) (e : CwdEnt), b < 8 → cwdEnt s b p = some e → ∃ t, exec (.cwdRead b p true) s = .next t ∧ cwdEnt t b p = none ∧
    t.rd (CWD_CNT.COUNT 2) = min (2 ^ 32 - 1) (s.rd (CWD_CNT.COUNT 2) + 1) ∧ t.rd CWD_STS.STATUS = ST.CWD_NOT_FOUND ∧ t.rd CWD_RES.HIT = 0) ∧
  (∀ (s : State) (bad : List (Nat × Nat)), (s.due .sweep 1000000 = false → exec (.cwdParitySweep bad) s = .next s) ∧
    (s.due .sweep 1000000 = true → ∃ t, exec (.cwdParitySweep bad) s = .next t ∧ (∀ x ∈ bad, cwdEnt t x.1 x.2 = none) ∧
      (∀ k, (∀ x ∈ bad, cwdKey x.1 x.2 ≠ k) → KMap.find? t.cwd.ents k = KMap.find? s.cwd.ents k) ∧
      (bad.Nodup → (∀ x ∈ bad, x.2 < 32768) → t.rd (CWD_CNT.COUNT 2) =
        min (2 ^ 32 - 1) (s.rd (CWD_CNT.COUNT 2) + bad.countP fun x => (cwdEnt s x.1 x.2).isSome) ∨ 2 ^ 32 - 1 < s.rd (CWD_CNT.COUNT 2)) ∧
      t.mem = s.mem ∧ t.flo = s.flo)) ∧
  (∀ (s : State) (c : Nat),
    let key := dirKey (s.conv c).part (s.conv c).role (s.conv c).conv
    ((s.conv c).state ≠ 1 ∨ (cwdSearch s key (fullMask 1) 255 1 0).isSome = true → exec (.cwdReinsert c) s = .next s) ∧
    ((s.conv c).state = 1 → cwdSearch s key (fullMask 1) 255 1 0 = none → ∀ s1, cwdInsertType 1 1 key c s = (ST.OK, s1) →
      exec (.cwdReinsert c) s = .next (s1.bump (FLO_CNT.COUNT 6))))

/-- A tier command row leaves a waiting command that is not its own; a conversation the directory does not hold ends it with
ST_DIR_NO_CONV. SPILL_START forgets a partition that is not to be spilled; else it takes the oldest candidate, waits
while that run may not be read, and begins its spill. SPILL does the same for its run, and ends with ST_TIER_BUSY for a
run in use and with the status of a spill that cannot begin. A spill of a partition without a pool that is on and up
does not begin and is counted; one that has begun holds a place for each folio of its run. SPILL_COMPLETE leaves the run
spilled with every folio in STATE 3, or, after a failed write, resident again with its folios as they were and the
failure counted and logged. FETCH queues the spilled layers, and a layer that is being handed over ends it with
ST_TIER_NOT_OWNER. FETCH_START acts on the first entry not in transfer: it drops a run no longer spilled, ends the
waiters of one this node does not own, waits for a pool that is down or an empty bucket, marks the partition where it
finds no space, and else takes a place for each folio. FETCH_COMPLETE leaves the run resident with every folio in STATE
1 where the fetch placed it and its record released; it waits for a record this node may not release yet, and drops a
run this node has lost. FETCH_FAIL counts and logs the failure, ends the waiting attempts, stops the pool's other
fetches, and changes nothing for a run that is not fetched; TIER_LATE_EXPIRE ends an attempt that has waited past
LIMIT_US and no other.
Rests on R218, R219, R220, R221, R222, R223, R224, R227, R230, R234. -/
def Obligations.RunsMoveBetweenCases : Prop :=
  (∀ (s : State) (c : Instr) (op : Nat), (c, op) ∈ [(Instr.spill, 1), (.fetch, 2), (.handOff true, 3), (.handOff false, 3)] →
    (s.tier.cmd = none → exec c s = .next s) ∧
    (∀ b, s.tier.cmd = some b → (leAt b 0 1 ≠ op → exec c s = .next s) ∧
      (leAt b 0 1 = op → ∀ s1, tierConv b s = (none, s1) → exec c s = .next (tierDone ST.DIR_NO_CONV s1)) ∧
      (leAt b 0 1 = op → ∀ v s1, tierConv b s = (some v, s1) → (s1.conv v).nlayer ≤ cmdLayer b → exec c s = .next (tierDone ST.DIR_NO_RUN s1)))) ∧
  (∀ (s : State) (p : Nat), (spillDue s p = false → exec (.spillStart p) s = .next { s with tier.needy := s.tier.needy.filter (· ≠ p) }) ∧
    (spillDue s p = true →
      let low := decide ((partChunks s p).1 * 256 < s.rd TIER_SPILL_CFG.LO * (partChunks s p).2)
      let u := { s with tier.needy := if low = true ∧ p ∉ s.tier.needy then s.tier.needy ++ [p] else s.tier.needy }
      (oldestRun u p = none → exec (.spillStart p) s = .next u) ∧
      (∀ c l, oldestRun u p = some (c, l) →
        (∀ w, reqsWait (.spillStart p) p (runRanges u c l) u = some w → exec (.spillStart p) s = .next w) ∧
        (reqsWait (.spillStart p) p (runRanges u c l) u = none →
          exec (.spillStart p) s = .next (spillBegin c l false (unstall (.spillStart p) u)).2)))) ∧
  (∀ (s : State) (b : Bytes) (c : Nat) (s1 : State), s.tier.cmd = some b → leAt b 0 1 = 1 → tierConv b s = (some c, s1) → cmdLayer b < (s1.conv c).nlayer →
    (KMap.find? s1.tier.spills (spillKey c (cmdLayer b)) ≠ none → exec .spill s = .next s1) ∧
    (KMap.find? s1.tier.spills (spillKey c (cmdLayer b)) = none →
      (spillable s1 c (cmdLayer b) = false → exec .spill s = .next (tierDone ST.TIER_BUSY s1)) ∧
      (spillable s1 c (cmdLayer b) = true →
        (∀ w, reqsWait .spill (s1.conv c).part (runRanges s1 c (cmdLayer b)) s1 = some w → exec .spill s = .next w) ∧
        (reqsWait .spill (s1.conv c).part (runRanges s1 c (cmdLayer b)) s1 = none →
          (∀ t, spillBegin c (cmdLayer b) true (unstall .spill s1) = (ST.OK, t) → exec .spill s = .next t) ∧
          (∀ st t, st ≠ ST.OK → spillBegin c (cmdLayer b) true (unstall .spill s1) = (st, t) → exec .spill s = .next (tierDone st t)))))) ∧
  (∀ (s : State) (c l : Nat) (byCmd : Bool), let part := (s.conv c).part
    let p := s.rd (TIER_PART_POOL.POOL part)
    (s.flag (TIER_PART_POOL.EN part) = false ∨ poolOn s p = false ∨ poolUp s p = false →
      spillBegin c l byCmd s = (ST.TIER_BUSY, s.bump (TIER_CNT.COUNT 5))) ∧
    (∀ t, spillBegin c l byCmd s = (ST.OK, t) → ∃ x, KMap.find? t.tier.spills (spillKey c l) = some x ∧ x.conv = c ∧ x.layer = l ∧ x.pool = p ∧
      x.byCmd = byCmd ∧ x.places.map (·.1) = (runFolios s c l).map (·.2.2))) ∧
  (∀ (s : State) (v l off : Nat), KMap.find? s.tier.spills (spillKey v l) = none → ∀ ok, exec (.spillComplete v l ok off) s = .next s) ∧
  (∀ (s : State) (v l off : Nat) (x : SpillSt), KMap.find? s.tier.spills (spillKey v l) = some x → (s.conv x.conv).hgLo < (s.conv x.conv).hgHi →
    (s.conv x.conv).part < 32 →
    (∃ t, exec (.spillComplete v l true off) s = .next t ∧ tierState t x.conv x.layer = 2 ∧
      KMap.find? t.tier.spills (spillKey x.conv x.layer) = none ∧ t.rd (TIER_CNT.COUNT 0) = min (2 ^ 32 - 1) (s.rd (TIER_CNT.COUNT 0) + 1) ∧
      (∀ y ∈ x.places, (t.folio y.1).state = 3) ∧
      ((x.places.map (·.1)).Nodup → ∀ y ∈ x.places, (t.folio y.1).tierRef = tierRefOf x.pool x.record y.2.1) ∧ t.mem = s.mem ∧
      (x.byCmd = true → t.tier.cmd = none ∧ t.rd TIER_CMD_STS.STATUS = ST.OK)) ∧
    (∃ t, exec (.spillComplete v l false off) s = .next t ∧ tierState t x.conv x.layer = 0 ∧
      KMap.find? t.tier.spills (spillKey x.conv x.layer) = none ∧ t.flo.folios = s.flo.folios ∧ t.mem = s.mem ∧
      t.rd (TIER_CNT.COUNT 4) = min (2 ^ 32 - 1) (s.rd (TIER_CNT.COUNT 4) + 1) ∧ t.rd TIER_ERR_LOG1.KIND = 5 ∧
      (x.byCmd = true → t.tier.cmd = none ∧ t.rd TIER_CMD_STS.STATUS = ST.TIER_FAIL))) ∧
  (∀ (s : State) (b : Bytes) (c : Nat) (s1 : State), s.tier.cmd = some b → leAt b 0 1 = 2 → tierConv b s = (some c, s1) →
    ((s1.conv c).nlayer ≤ cmdHigh b → exec .fetch s = .next (tierDone ST.DIR_NO_RUN s1)) ∧
    (cmdLayer b < (s1.conv c).nlayer → cmdHigh b < (s1.conv c).nlayer →
    (∀ l, cmdLayer b ≤ l → l ≤ cmdHigh b → KMap.find? s1.tier.spills (spillKey c l) = none) →
    ((∀ l, cmdLayer b ≤ l → l ≤ cmdHigh b → tierState s1 c l ≠ 2 ∧ tierState s1 c l ≠ 4) → exec .fetch s = .next (tierDone ST.OK s1)) ∧
    (cmdHigh b = cmdLayer b → tierState s1 c (cmdLayer b) = 4 → exec .fetch s = .next (tierDone ST.TIER_NOT_OWNER s1)) ∧
    (cmdHigh b = cmdLayer b → tierState s1 c (cmdLayer b) = 2 → (∀ e ∈ s1.tier.fetchq, ¬ (e.conv = c ∧ e.layer = cmdLayer b)) →
      exec .fetch s = .next (tierDone ST.OK { s1 with tier.fetchq := s1.tier.fetchq ++
        [{ conv := c, layer := cmdLayer b, att := 2 ^ 63, tenant := (s1.conv c).tenant }] })))) ∧
  (∀ (others : List (Nat × Bytes)) (s0 : State), let s := otherHeads others s0
    (s.tier.fetchq.find? (fun e => !e.moving) = none → exec (.fetchStart others) s0 = .next s) ∧
    (∀ e, s.tier.fetchq.find? (fun e => !e.moving) = some e →
      let part := (s.conv e.conv).part
      let r := runRef s e.conv e.layer
      let refused := endWaiters e.conv e.layer ST.TIER_NOT_OWNER (fetchDrop e.conv e.layer s)
      (s.rd TIER_PF_CFG.MOVE_MAX ≤ (s.tier.fetchq.filter (·.moving)).length → exec (.fetchStart others) s0 = .next s) ∧
      ((s.tier.fetchq.filter (·.moving)).length < s.rd TIER_PF_CFG.MOVE_MAX →
        (tierState s e.conv e.layer = 4 → exec (.fetchStart others) s0 = .next refused) ∧
        (tierState s e.conv e.layer ≠ 2 → tierState s e.conv e.layer ≠ 4 → exec (.fetchStart others) s0 = .next (fetchDrop e.conv e.layer s)) ∧
        (tierState s e.conv e.layer = 2 → poolUp s (refPool r) = false → exec (.fetchStart others) s0 = .next s) ∧
        (tierState s e.conv e.layer = 2 → poolUp s (refPool r) = true → refRecord r ≠ 0 → (leaseOf s e.conv e.layer).map (ownsRun s) ≠ some true →
          exec (.fetchStart others) s0 = .next refused) ∧
        (tierState s e.conv e.layer = 2 → poolUp s (refPool r) = true →
          (refRecord r = 0 ∨ (leaseOf s e.conv e.layer).map (ownsRun s) = some true) →
          (bucketEmpty false part s = true → exec (.fetchStart others) s0 = .next (stallCmd (.fetchStart []) s)) ∧
          (bucketEmpty false part s = false →
            (∀ ps t, placeFetched part e.conv e.layer (runSpilled s e.conv e.layer) [] (unstall (.fetchStart []) s) = (true, ps, t) →
              ps.map (·.1) = runSpilled s e.conv e.layer ∧
              exec (.fetchStart others) s0 = .next (fetchMark e.conv e.layer true ps (setTier e.conv e.layer 3 t))) ∧
            (∀ ps t, placeFetched part e.conv e.layer (runSpilled s e.conv e.layer) [] (unstall (.fetchStart []) s) = (false, ps, t) →
              let v := ps.foldl (fun s y => freeExtent y.2.1 s) t
              exec (.fetchStart others) s0 = .next { v with tier.starved := if v.tier.starved.contains part then v.tier.starved else v.tier.starved ++ [part] })))))) ∧
  (∀ (s : State) (c l : Nat), s.tier.fetchq.find? (fun e => e.moving && e.conv == c && e.layer == l) = none → exec (.fetchComplete c l) s = .next s) ∧
  (∀ (s : State) (c l : Nat) (e : FetchEnt), s.tier.fetchq.find? (fun e => e.moving && e.conv == c && e.layer == l) = some e →
    (runTierPoison s (runSpilled s c l) = true → exec (.fetchComplete c l) s = .next s) ∧
    (runTierPoison s (runSpilled s c l) = false →
      ((s.conv c).hgLo < (s.conv c).hgHi → (s.conv c).part < 32 → (∀ a, s.att? e.att = some a → a.part < 32) →
        (leaseOf s c l = none ∨ (leaseOf s c l).map (ownsRun s) = some true) →
        ∃ t, exec (.fetchComplete c l) s = .next t ∧ tierState t c l = 0 ∧
          (∀ y ∈ e.places, (t.folio y.1).state = 1 ∧ (t.folio y.1).tierRef = 0) ∧
          ((e.places.map (·.1)).Nodup → ∀ y ∈ e.places, (t.folio y.1).chunk = y.2.1 ∧ (t.folio y.1).nchunk = y.2.2) ∧
          (∀ g, leaseOf s c l = some g → (t.own g.pool g.record).state = 3 ∧ t.tier.leases = s.tier.leases.erase g) ∧
          t.tier.fetchq = s.tier.fetchq.filter (fun e => !(e.conv == c && e.layer == l)) ∧
          t.rd (TIER_CNT.COUNT 1) = min (2 ^ 32 - 1) (s.rd (TIER_CNT.COUNT 1) + 1) ∧ t.mem = s.mem) ∧
      (∀ g, leaseOf s c l = some g → ownsRun s g = false →
        (recordHeld s g = true ∨ timeInBound s = false → exec (.fetchComplete c l) s = .next s) ∧
        (recordHeld s g = false → timeInBound s = true →
          exec (.fetchComplete c l) s = .next (casLost (some g) (endWaiters c l ST.TIER_NOT_OWNER s)))))) ∧
  (∀ (s : State) (c l kind off : Nat), (s.tier.fetchq.find? (fun e => e.conv == c && e.layer == l) = none ∨ kind = 0 ∨ 4 < kind →
      exec (.fetchFail c l kind off) s = .next s) ∧
    (∀ e, s.tier.fetchq.find? (fun e => e.conv == c && e.layer == l) = some e → 0 < kind → kind ≤ 4 →
      let pool := refPool (runRef s c l)
      let others := s.tier.fetchq.filter fun x => x.moving && !(x.conv == c && x.layer == l) && refPool (runRef s x.conv x.layer) == pool
      let u := tierLog kind pool off s
      (e.moving = false → kind < 3 → exec (.fetchFail c l kind off) s = .next s) ∧
      (e.moving = false → 3 ≤ kind → exec (.fetchFail c l kind off) s =
        .next (others.foldl (fun s x => stopFetch x.conv x.layer s) (endWaiters c l ST.TIER_FAIL (u.bump (TIER_CNT.COUNT 4))))) ∧
      (e.moving = true → exec (.fetchFail c l kind off) s =
        .next (others.foldl (fun s x => stopFetch x.conv x.layer s) (stopFetch c l u))))) ∧
  (∀ (s : State) (c l : Nat), let u := (undoFetch c l s).bump (TIER_CNT.COUNT 4)
    ((s.conv c).hgLo < (s.conv c).hgHi → tierState u c l = 2) ∧ (∀ e ∈ u.tier.fetchq, e.conv = c → e.layer = l → e.moving = false ∧ e.places = []) ∧
    u.flo.folios = s.flo.folios ∧ stopFetch c l s = endWaiters c l ST.TIER_FAIL u) ∧
  (∀ (s : State) (part ream pos : Nat) (audit : Bool), let k := attKey part ream pos audit
    ((s.att? k).bind (·.lateAt) = none ∨ stillLate s k = false → exec (.tierLateExpire part ream pos audit) s = .next s) ∧
    (∀ t, (s.att? k).bind (·.lateAt) = some t → stillLate s k = true →
      (t + (s.rd TIER_LATE_CFG.LIMIT_US + 1) * 1000 ≤ s.now →
        exec (.tierLateExpire part ream pos audit) s = .next (failPart k ST.TIER_LATE (s.bump (TIER_CNT.COUNT 3)))) ∧
      (s.now < t + (s.rd TIER_LATE_CFG.LIMIT_US + 1) * 1000 → exec (.tierLateExpire part ream pos audit) s = .next s)))

/-- HAND_OFF by the owner sets the record to handing for the named successor and the run to handed over, and changes nothing
else but the command's end; of a run that is not spilled or that is queued for a fetch it ends with ST_TIER_BUSY, by any
other node with ST_TIER_NOT_OWNER, and out of reach with ST_TIER_FAIL. CLAIM and TAKEOVER take no command that is not
theirs and attempt nothing while time is out of bound; an unreachable pool ends them with ST_TIER_FAIL, a frame of
another conversation with ST_SHARE_MISMATCH, a full lease list with ST_TIER_BUSY, and a record that is not handed to
this node, whose lease has not run out for one lease, or whose epoch is at its last value with ST_STALE_EPOCH; else the
record becomes this node's with the next epoch and a new lease, and a takeover is counted. A renewal before half the
lease or within 100 us of a failed try changes nothing, a failed one notes its time, the owner's moves the lease on, and
one of a record that others hold drops the run. A revert gives a handing record back to its owner at LEASE_END with the
next epoch. The sweep frees every released record of the home bay once per 10 ms, with its frame's chunks, and touches
no other record. BACK_INVALIDATE_SNOOP shows the record as another head has made it.
Rests on R225, R226, R227, R228, R229, R230, R231, R232, R233. -/
def Obligations.SharedRunsHaveOneOwner : Prop :=
  (∀ (s : State) (b : Bytes) (c : Nat) (s1 : State) (reach : Bool), s.tier.cmd = some b → leAt b 0 1 = 3 → tierConv b s = (some c, s1) →
    cmdLayer b < (s1.conv c).nlayer →
    (tierState s1 c (cmdLayer b) ≠ 2 ∨ (∃ x ∈ s1.tier.fetchq, x.conv = c ∧ x.layer = cmdLayer b) → exec (.handOff reach) s = .next (tierDone ST.TIER_BUSY s1)) ∧
    (tierState s1 c (cmdLayer b) = 2 → (∀ x ∈ s1.tier.fetchq, ¬ (x.conv = c ∧ x.layer = cmdLayer b)) →
      (leaseOf s1 c (cmdLayer b) = none → exec (.handOff reach) s = .next (tierDone ST.TIER_NOT_OWNER s1)) ∧
      (∀ e, leaseOf s1 c (cmdLayer b) = some e →
        (ownsRun s1 e = false → exec (.handOff true) s = .next (tierDone ST.TIER_NOT_OWNER s1)) ∧
        (exec (.handOff false) s = .next (tierDone ST.TIER_FAIL s1)) ∧
        (ownsRun s1 e = true → ∃ t, exec (.handOff true) s = .next t ∧
          t.own e.pool e.record = { s1.own e.pool e.record with state := 2, succ := cmdHigh b } ∧
          ((s1.conv c).hgLo < (s1.conv c).hgHi → tierState t c (cmdLayer b) = 4) ∧ t.rd TIER_CMD_STS.STATUS = ST.OK ∧ t.tier.cmd = none ∧
          SameBut s1.tier.records t.tier.records (recKey e.pool e.record) ∧
          SameRegs s1 t [TIER_CMD_STS.BUSY.key 0, TIER_CMD_STS.DONE.key 0, TIER_CMD_STS.STATUS.key 0] ∧
          { t with regs := s1.regs, tier.cmd := s1.tier.cmd, tier.records := s1.tier.records, flo.runs := s1.flo.runs } = s1)))) ∧
  (∀ (others : List (Nat × Bytes)) (reach : Bool) (s0 : State), let s := otherHeads others s0
    (timeInBound s = false → exec (.claim reach others) s0 = .next s ∧ exec (.takeover reach others) s0 = .next s) ∧
    (s.tier.cmd = none → exec (.claim reach others) s0 = .next s ∧ exec (.takeover reach others) s0 = .next s) ∧
    (∀ b, s.tier.cmd = some b → (leAt b 0 1 ≠ 4 → exec (.claim reach others) s0 = .next s) ∧ (leAt b 0 1 ≠ 5 → exec (.takeover reach others) s0 = .next s)) ∧
    (∀ b s1, timeInBound s = true → s.tier.cmd = some b → tierConv b s = (none, s1) →
      (leAt b 0 1 = 4 → exec (.claim reach others) s0 = .next (tierDone ST.DIR_NO_CONV s1)) ∧
      (leAt b 0 1 = 5 → exec (.takeover reach others) s0 = .next (tierDone ST.DIR_NO_CONV s1)))) ∧
  (∀ (others : List (Nat × Bytes)) (s0 : State) (b : Bytes) (c : Nat) (s : State), timeInBound (otherHeads others s0) = true →
    (otherHeads others s0).tier.cmd = some b → tierConv b (otherHeads others s0) = (some c, s) →
    let pool := leAt b 0x18 4 / 2 ^ 24
    let n := leAt b 0x18 4 % 2 ^ 24
    let o := s.own pool n
    let fr := frameAt s o.frame
    let r := s.conv c
    let fits := fr.conv = r.conv ∧ fr.part = r.part ∧ fr.desc = r.desc ∧ fr.sealed = r.sealed ∧ fr.slot = r.keySlot ∧ fr.layer < r.nlayer
    let on := poolOn s pool = true ∧ poolShared s pool = true
    (∀ c' reach, (leAt b 0 1, c') ∈ [(4, Instr.claim reach others), (5, .takeover reach others)] →
      (reach = false ∨ ¬ on → exec c' s0 = .next (tierDone ST.TIER_FAIL s)) ∧
      (reach = true → on →
        (¬ fits → exec c' s0 = .next (tierDone ST.SHARE_MISMATCH s)) ∧
        (fits → 65536 ≤ s.tier.leases.length → exec c' s0 = .next (tierDone ST.TIER_BUSY s)))) ∧
    (on → fits → s.tier.leases.length < 65536 →
      (leAt b 0 1 = 4 → o.state ≠ 2 ∨ o.succ ≠ nodeId s ∨ o.epoch = 0xFFFFFFFF →
        exec (.claim true others) s0 = .next (tierDone ST.STALE_EPOCH (casLost none s))) ∧
      (leAt b 0 1 = 5 → o.state ≠ 1 ∨ fabTime s < o.lease + leaseNs s ∨ o.epoch = 0xFFFFFFFF →
        exec (.takeover true others) s0 = .next (tierDone ST.STALE_EPOCH (casLost none s))) ∧
      (o.epoch ≠ 0xFFFFFFFF → ∀ s2, buildRun c pool n o.frame s = some s2 →
        let mine := { o with state := 1, owner := nodeId s2, succ := 0xFFFF, epoch := o.epoch + 1, lease := fabTime s2 + leaseNs s2 }
        let held := s2.tier.leases ++ [{ pool := pool, record := n, conv := c, layer := fr.layer, epoch := o.epoch + 1, lease := fabTime s2 + leaseNs s2 }]
        (leAt b 0 1 = 4 → o.state = 2 → o.succ = nodeId s → ∃ t, exec (.claim true others) s0 = .next t ∧ t.rd TIER_CMD_STS.STATUS = ST.OK ∧
          t.own pool n = mine ∧ t.tier.leases = held ∧ SameBut s2.tier.records t.tier.records (recKey pool n) ∧ t.flo = s2.flo ∧ t.mem = s2.mem) ∧
        (leAt b 0 1 = 5 → o.state = 1 → o.lease + leaseNs s ≤ fabTime s → ∃ t, exec (.takeover true others) s0 = .next t ∧ t.rd TIER_CMD_STS.STATUS = ST.OK ∧
          t.own pool n = mine ∧ t.tier.leases = held ∧ SameBut s2.tier.records t.tier.records (recKey pool n) ∧ t.flo = s2.flo ∧ t.mem = s2.mem ∧
          t.rd (TIER_CNT.COUNT 7) = min (2 ^ 32 - 1) (s2.rd (TIER_CNT.COUNT 7) + 1))))) ∧
  (∀ (s : State) (c l : Nat), leaseOf s c l = none → ∀ reach, exec (.leaseRenew c l reach) s = .next s ∧ exec (.leaseRevert c l reach) s = .next s) ∧
  (∀ (s : State) (c l : Nat) (e : LeaseEnt), leaseOf s c l = some e →
    let o := s.own e.pool e.record
    let named := o.owner = nodeId s ∧ o.epoch = e.epoch
    (∀ reach, fabTime s + leaseNs s / 2 < e.lease ∨ (∃ t, e.tried = some t ∧ fabTime s < t + 100000) ∨ (o.state = 2 ∧ named) →
      exec (.leaseRenew c l reach) s = .next s) ∧
    (e.lease ≤ fabTime s + leaseNs s / 2 → (∀ t, e.tried = some t → t + 100000 ≤ fabTime s) → ¬ (o.state = 2 ∧ named) →
      (exec (.leaseRenew c l false) s = .next (leaseTried e s)) ∧
      (o.state = 1 → named → ∃ t, exec (.leaseRenew c l true) s = .next t ∧ t.own e.pool e.record = { o with lease := fabTime s + leaseNs s } ∧
        leaseOf t c l = some { e with lease := fabTime s + leaseNs s, tried := none } ∧
        SameBut s.tier.records t.tier.records (recKey e.pool e.record) ∧
        { t with tier.records := s.tier.records, tier.leases := s.tier.leases } = s) ∧
      (¬ (o.state = 1 ∧ named) → exec (.leaseRenew c l true) s = .next (casLost (some e) s))) ∧
    (∀ reach, timeInBound s = false ∨ tierState s c l ≠ 4 ∨ fabTime s < e.lease ∨ (∃ t, e.tried = some t ∧ fabTime s < t + 100000) →
      exec (.leaseRevert c l reach) s = .next s) ∧
    (timeInBound s = true → tierState s c l = 4 → e.lease ≤ fabTime s → (∀ t, e.tried = some t → t + 100000 ≤ fabTime s) →
      (exec (.leaseRevert c l false) s = .next (leaseTried e s)) ∧
      (o.state = 2 → named → o.epoch = 0xFFFFFFFF → exec (.leaseRevert c l true) s = .next (casLost none (leaseTried e s))) ∧
      (o.state = 2 → named → o.epoch ≠ 0xFFFFFFFF → ∃ t, exec (.leaseRevert c l true) s = .next t ∧
        ((s.conv c).hgLo < (s.conv c).hgHi → tierState t c l = 2) ∧
        t.own e.pool e.record = { o with state := 1, succ := 0xFFFF, epoch := o.epoch + 1, lease := fabTime s + leaseNs s } ∧
        leaseOf t c l = some { e with lease := fabTime s + leaseNs s, epoch := e.epoch + 1, tried := none } ∧
        t.rd (TIER_CNT.COUNT 7) = min (2 ^ 32 - 1) (s.rd (TIER_CNT.COUNT 7) + 1) ∧ RegsOnly s { t with
          tier.records := s.tier.records, tier.leases := s.tier.leases, flo.runs := s.flo.runs } [(TIER_CNT.COUNT 7).key 0]) ∧
      (¬ (o.state = 2 ∧ named) → exec (.leaseRevert c l true) s = .next (casLost (some e) s)))) ∧
  (∀ s : State, (s.now < s.tier.sweptAt + 10000000 → exec .recordSweep s = .next s) ∧
    (s.tier.sweptAt + 10000000 ≤ s.now → ∃ t, exec .recordSweep s = .next t ∧ t.tier.sweptAt = s.now ∧
      (∀ p n r, n < 2 ^ 24 → (recKey p n, r) ∈ s.tier.records → r.state = 3 → poolOn s p = true → poolShared s p = true → poolUp s p = true →
        r.home = bayOf s p → n / 2 ^ recLog2 s p = bayOf s p → (t.own p n).state = 0 ∧ KMap.find? t.tier.used (tierKey p (r.frame / 4096)) = none) ∧
      (∀ k, (∀ r, (k, r) ∈ s.tier.records → r.state ≠ 3) → KMap.find? t.tier.records k = KMap.find? s.tier.records k) ∧
      { t with tier.sweptAt := s.tier.sweptAt, tier.records := s.tier.records, tier.used := s.tier.used } = s)) ∧
  (∀ (s : State) (p n : Nat) (r : OwnRec), p < 4 → n < 2 ^ 24 →
    (poolOn s p = true → poolShared s p = true → exec (.backInvalidateSnoop p n r) s = .next (s.setOwn p n r)) ∧
    (poolOn s p = false ∨ poolShared s p = false → exec (.backInvalidateSnoop p n r) s = .next s))

/-- A port that is named, enabled and in training goes to HELLO when its training is done, and after 400 ms is held down for
reason 1. One held down for reason 1 or 2 trains again after 1 s. HELLO_SEND sends the port's HELLO with its CRC, no
sooner than 1 us after the last one. A HELLO whose mode, protection or edge differ holds the port down for reason 3, 4
or 7; a right one brings it up once both sides have the other's ACK; a protected port without a key takes the keys of
the agreement, or is held down for reason 5 with a failed authentication. A port that goes down counts a fall; one fall
more than FLAP_MAX within 1 s disables it for reason 6, which FLAP_DIS clears. A port that loses its FEC lock in
bring-up is held down for reason 2. LINK_REKEY at 2^47 frames takes new keys of both directions with the phases
inverted, and counts. In every other case these rows change nothing.
Rests on R238, R239, R245, R356, R358. -/
def Obligations.PortsComeUpAndGoDown : Prop :=
  (∀ (s : State) (c : Nat), codeNames s c = true →
    (s.flag FAB_PORT_CFG.EN c = true → s.rd FAB_PORT_STS.STATE c = 1 →
      ∃ t, exec (.portTrainingDone c) s = .next t ∧ t.rd FAB_PORT_STS.STATE c = 2 ∧ RegsOnly s t [FAB_PORT_STS.STATE.key c]) ∧
    (s.rd FAB_PORT_STS.STATE c ≠ 1 ∨ s.flag FAB_PORT_CFG.EN c = false → exec (.portTrainingDone c) s = .next s) ∧
    (s.rd FAB_PORT_STS.STATE c = 1 → (s.port c).trainAt + 400000000 ≤ s.now →
      ∃ t, exec (.trainingTimeout c) s = .next t ∧ PortMoved s t c 5 1) ∧
    (s.rd FAB_PORT_STS.STATE c ≠ 1 ∨ s.now < (s.port c).trainAt + 400000000 → exec (.trainingTimeout c) s = .next s) ∧
    (s.rd FAB_PORT_STS.STATE c = 5 → s.rd FAB_PORT_STS.REASON c ∈ [1, 2] → (s.port c).heldAt + 1000000000 ≤ s.now →
      ∃ t, exec (.trainingRestart c) s = .next t ∧ PortMoved s t c 1 0) ∧
    (s.rd FAB_PORT_STS.STATE c ≠ 5 ∨ s.rd FAB_PORT_STS.REASON c ∉ [1, 2] ∨ s.now < (s.port c).heldAt + 1000000000 → exec (.trainingRestart c) s = .next s) ∧
    (s.rd FAB_PORT_STS.STATE c ∉ [2, 3] ∨ (∃ t, (s.port c).helloAt = some t ∧ s.now < t + 1000) → exec (.helloSend c) s = .next s) ∧
    (s.rd FAB_PORT_STS.STATE c ∈ [2, 3] → (∀ t, (s.port c).helloAt = some t → t + 1000 ≤ s.now) →
      ∃ t, exec (.helloSend c) s = .next t ∧ t.out = .frame c (helloFrame s c) ((helloFrame s c).bytes ++ natLe 4 (crc32 (helloFrame s c).bytes)) :: s.out ∧
        ((t.rd FAB_PORT_STS.STATE c, t.rd FAB_PORT_STS.REASON c) =
          if (s.port c).hello = true ∧ (s.port c).helloAck = true then (4, 0) else (s.rd FAB_PORT_STS.STATE c, s.rd FAB_PORT_STS.REASON c)) ∧
        t.port c = { s.port c with ackSent := (s.port c).ackSent || (s.port c).hello, helloAt := some s.now } ∧ SameBut s.fab.ports t.fab.ports c ∧
        SameRegs s t [FAB_PORT_STS.STATE.key c, FAB_PORT_STS.REASON.key c] ∧
        { t with regs := s.regs, out := s.out, fab.ports := s.fab.ports } = s)) ∧
  (∀ (s : State) (c : Nat) (pay : Bytes) (agreed : Option Nat), codeNames s c = false ∨ s.rd FAB_PORT_STS.STATE c ∉ [2, 3] ∨ pay.length ≠ 32 →
    exec (.hello c pay agreed) s = .next s) ∧
  (∀ (s : State) (c : Nat) (pay : Bytes) (agreed : Option Nat), codeNames s c = true → s.rd FAB_PORT_STS.STATE c ∈ [2, 3] → pay.length = 32 →
    let b := leAt pay 3 1
    let p := s.port c
    (b % 4 ≠ portMode s c → ∃ t, exec (.hello c pay agreed) s = .next t ∧ PortMoved s t c 5 3) ∧
    (b % 4 = portMode s c → bitOf b 2 ≠ portProt s c → ∃ t, exec (.hello c pay agreed) s = .next t ∧ PortMoved s t c 5 4) ∧
    (b % 4 = portMode s c → bitOf b 2 = portProt s c → bitOf b 3 ≠ s.flag FAB_PORT_CFG.EDGE c →
      ∃ t, exec (.hello c pay agreed) s = .next t ∧ PortMoved s t c 5 7) ∧
    (b % 4 = portMode s c → bitOf b 2 = portProt s c → bitOf b 3 = s.flag FAB_PORT_CFG.EDGE c →
      (portProt s c = true → (linkKey? s c).isSome = true) →
      ∃ t, exec (.hello c pay agreed) s = .next t ∧
        t.port c = { p with peer := leAt pay 0 2, peerFw := leAt pay 8 4, hello := true, helloAck := p.helloAck || bitOf b 4 } ∧
        ((t.rd FAB_PORT_STS.STATE c, t.rd FAB_PORT_STS.REASON c) =
          if (p.helloAck = true ∨ bitOf b 4 = true) ∧ p.ackSent = true then (4, 0) else (s.rd FAB_PORT_STS.STATE c, s.rd FAB_PORT_STS.REASON c)) ∧
        SameBut s.fab.ports t.fab.ports c ∧ SameRegs s t [FAB_PORT_STS.STATE.key c, FAB_PORT_STS.REASON.key c] ∧
        { t with regs := s.regs, fab.ports := s.fab.ports } = s) ∧
    (b % 4 = portMode s c → bitOf b 2 = portProt s c → bitOf b 3 = s.flag FAB_PORT_CFG.EDGE c → portProt s c = true → linkKey? s c = none →
      (∀ k, agreed = some k → ∃ t, exec (.hello c pay agreed) s = .next t ∧ t.rd FAB_PORT_STS.STATE c = 3 ∧
        linkKey? t c = some (linkKeys (decide (nodeId s < leAt pay 0 2)) k) ∧
        t.port c = { p with peer := leAt pay 0 2, peerFw := leAt pay 8 4, hello := true, helloAck := p.helloAck || bitOf b 4 } ∧
        SameBut s.fab.ports t.fab.ports c ∧ SameBut s.key.links t.key.links (linkSlot s c) ∧
        RegsOnly s { t with fab.ports := s.fab.ports, key.links := s.key.links } [FAB_PORT_STS.STATE.key c]) ∧
      (agreed = none → ∃ u, exec (.hello c pay agreed) s = .next (authFailNode u) ∧ u.rd FAB_PORT_STS.STATE c = 5 ∧ u.rd FAB_PORT_STS.REASON c = 5 ∧
        (u.port c).hello = false))) ∧
  (∀ (s : State) (c reason : Nat),
    (s.rd FAB_PORT_STS.STATE c ∈ [1, 2, 3] → reason = 2 → ∃ t, exec (.portDown c reason) s = .next t ∧ PortMoved s t c 5 2) ∧
    (s.rd FAB_PORT_STS.STATE c ≠ 4 → s.rd FAB_PORT_STS.STATE c ∉ [1, 2, 3] ∨ reason ≠ 2 → exec (.portDown c reason) s = .next s)) ∧
  (∀ (s : State) (c reason : Nat), c < 24 → s.rd FAB_PORT_STS.STATE c = 4 →
    let falls := ((s.port c).downs.filter fun t => decide (s.now < t + 1000000000)).length + 1
    ∃ t, exec (.portDown c reason) s = .next t ∧ t.rd FAB_FLAP_CNT.COUNT c = min (2 ^ 32 - 1) (s.rd FAB_FLAP_CNT.COUNT c + 1) ∧
      (t.port c).hello = false ∧ (portProt s c = true → linkKey? t c = none) ∧ (t.mem = s.mem ∧ t.out = s.out) ∧
      (falls ≤ s.rd FAB_PORT_CFG.FLAP_MAX c → t.rd FAB_PORT_STS.STATE c = (if reason = 2 then 5 else 1) ∧
        t.rd FAB_PORT_STS.REASON c = (if reason = 2 then 2 else 0) ∧
        SameRegs s t [FAB_PORT_STS.STATE.key c, FAB_PORT_STS.REASON.key c, FAB_FLAP_CNT.COUNT.key c]) ∧
      (s.rd FAB_PORT_CFG.FLAP_MAX c < falls → t.rd FAB_PORT_STS.STATE c = 5 ∧ t.rd FAB_PORT_STS.REASON c = 6 ∧ t.flag FAB_PORT_STS.FLAP_DIS c = true)) ∧
  (∀ (s : State) (c : Nat), s.flag FAB_PORT_STS.FLAP_DIS c = false → exec (.flapDisClear c) s = .next s) ∧
  (∀ (s : State) (c : Nat), s.flag FAB_PORT_STS.FLAP_DIS c = true →
    ∃ t, exec (.flapDisClear c) s = .next t ∧ t.rd FAB_PORT_STS.FLAP_DIS c = 0 ∧ t.rd FAB_PORT_STS.REASON c = 0 ∧
      t.rd FAB_PORT_STS.STATE c = b2n (s.flag FAB_PORT_CFG.EN c) ∧
      SameRegs s t [FAB_PORT_STS.STATE.key c, FAB_PORT_STS.REASON.key c, FAB_PORT_STS.FLAP_DIS.key c] ∧
      (portProt s c = true → linkKey? t c = none) ∧ SameBut s.fab.ports t.fab.ports c ∧
      { t with regs := s.regs, fab.ports := s.fab.ports, key.links := s.key.links } = s) ∧
  (∀ (s : State) (c secret : Nat), portUp s c = false ∨ portProt s c = false ∨ linkKey? s c = none → exec (.linkRekey c secret) s = .next s) ∧
  (∀ (s : State) (c secret : Nat) (k : LinkKey), portUp s c = true → portProt s c = true → linkKey? s c = some k →
    (2 ^ 47 ≤ k.txCount ∨ 2 ^ 47 ≤ k.rxLast →
      ∃ t, exec (.linkRekey c secret) s = .next t ∧
        linkKey? t c = some { linkKeys (decide (nodeId s < (s.port c).peer)) secret with
          txPhase := 1 - k.txPhase, rxPhase := 1 - k.rxPhase, old := some (k.rxKey, k.rxSalt, k.rxLast) } ∧
        t.rd (RSP_CNT.COUNT 6) = min (2 ^ 32 - 1) (s.rd (RSP_CNT.COUNT 6) + 1) ∧ SameBut s.key.links t.key.links (linkSlot s c) ∧
        RegsOnly s { t with key.links := s.key.links } [(RSP_CNT.COUNT 6).key 0]) ∧
    (k.txCount < 2 ^ 47 → k.rxLast < 2 ^ 47 → exec (.linkRekey c secret) s = .next s))

/-- For every frame whose fields fit their places, with a class of its type, the extension that SR calls for and a payload
of at most 4,096 bytes, reading its bytes gives the frame back with every field as it was, and the end-to-end check
finds exactly the difference that its CRC was sent with: none where it was sent right.
Rests on R236, R240, R241, R242. -/
def Obligations.FrameBytesReadBack : Prop :=
  ∀ f : Frame, WireFrame f →
    parseFrame f.bytes = some { f with from? := none, stomp := false, crcErr := 0, tok? := none } ∧ crcGap f.bytes = f.crcErr

/-- On an up, unprotected port a frame with a right link CRC is counted and arrives: a link-local one ends there; one for
another node goes, with one hop more, to the end of its class queue at the egress its route gives; one for this node is
delivered; one after 63 hops is dropped and counted; a frame with a wrong CRC that no frame can be read from is counted
and dropped. In bring-up a wrong link CRC is counted and a right link-local frame changes nothing; on any other port
nothing is taken. PAUSE sets and clears the PAUSED bits of the classes it names and no other, and times them; a pause
that has run out ends and is counted, and none ends before; a class above XON repeats its PAUSE half a pause after the
last, and no other does. A class paused beyond the limit drops its queue and enters drop mode, and leaves it after
RECOVER_MS; no other class does either. The egress sends urgent frames first, then class 0, then the class of least tag,
one frame at a time, none while the line is busy, the port is down or no class is eligible, and a WRITE that a frame
carries is complete as it leaves.
Rests on R246, R248, R249, R253, R254, R256, R257. -/
def Obligations.FramesPassAndPause : Prop :=
  (∀ (s : State) (c : Nat) (f : Frame), portUp s c = true → portProt s c = false → WireFrame f → f.crcErr = 0 → f.stomp = false →
      f.from? = none → f.tok? = none →
    let wire := f.bytes ++ natLe 4 (crc32 f.bytes)
    let u := s.addWrap (FAB_RX_BYTES.VALUE f.tc) c wire.length
    exec (.frameForward c wire) s = .next (arrive c wire.length f u) ∧
    (linkLocal f.ty = true → exec (.frameForward c wire) s = .next u) ∧
    (linkLocal f.ty = false → modeProt u f.part = false → bufferUse u + f.size ≤ 24 * 2 ^ 20 → u.flag FAB_PORT_CFG.EDGE c = false →
      (∀ e, f.dst ≠ nodeId u → f.hops < 63 → nextHop u f (f.hops + 1) = .egress e → bitOf (u.rd FAB_PORT_STS.DROP_MODE e) f.tc = false →
        ∃ t, exec (.frameForward c wire) s = .next t ∧
          KMap.get [] (t.port e).green f.tc = KMap.get [] (s.port e).green f.tc ++ (if f.yellow then [] else [{ f with hops := f.hops + 1, from? := some c }]) ∧
          KMap.get [] (t.port e).yel f.tc = KMap.get [] (s.port e).yel f.tc ++ (if f.yellow then [{ f with hops := f.hops + 1, from? := some c }] else []) ∧
          { t with regs := s.regs, fab.ports := s.fab.ports } = s) ∧
      (f.dst = nodeId u → f.keySlot = 0 → f.ty ≠ 3 → f.ty ≠ 4 →
        ∃ t, exec (.frameForward c wire) s = .next t ∧ t.fab.inbox = s.fab.inbox ++ [{ f with from? := some c }] ∧
          { t with regs := s.regs, fab.ports := s.fab.ports, fab.inbox := s.fab.inbox } = s) ∧
      (f.dst ≠ nodeId u → f.hops = 63 → exec (.frameForward c wire) s = .next (u.bump FAB_HOP_DROP_CNT.COUNT)))) ∧
  (∀ (s : State) (c : Nat) (wire : Bytes), portUp s c = true → portProt s c = false →
    let body := wire.take (wire.length - 4)
    parseFrame body = none → leAt wire (wire.length - 4) 4 ≠ crc32 body → leAt wire (wire.length - 4) 4 ≠ crc32 body ^^^ 0xFFFFFFFF →
      exec (.frameForward c wire) s = .next ((s.addWrap (FAB_RX_BYTES.VALUE (leAt wire 1 1 / 32)) c wire.length).bump FAB_LCRC_CNT.COUNT c)) ∧
  (∀ (s : State) (c : Nat) (wire : Bytes), portUp s c = false →
    (codeNames s c = false ∨ s.rd FAB_PORT_STS.STATE c ∉ [2, 3] → exec (.frameForward c wire) s = .next s) ∧
    (codeNames s c = true → s.rd FAB_PORT_STS.STATE c ∈ [2, 3] →
      (leAt wire (wire.length - 4) 4 ≠ crc32 (wire.take (wire.length - 4)) → exec (.frameForward c wire) s = .next (s.bump FAB_LCRC_CNT.COUNT c)) ∧
      (∀ f, WireFrame f → f.crcErr = 0 → wire = f.bytes ++ natLe 4 (crc32 f.bytes) → exec (.frameForward c wire) s = .next s))) ∧
  (∀ (s : State) (c k : Nat), KMap.get 0 (s.port c).xoff k = 0 ∨ KMap.get 0 (s.port c).occ k ≤ s.rd FAB_PFC_CFG.XON c * 16384 ∨
      s.now + 1 < KMap.get 0 (s.port c).xoff k + s.rd FAB_PFC_CFG.PAUSE_NS c / 2 → exec (.pauseRepeat c k) s = .next s) ∧
  (∀ (s : State) (c : Nat) (pay : Bytes), portUp s c = false ∨ pay.length ≠ 18 → exec (.pause c pay) s = .next s) ∧
  (∀ (s : State) (c k : Nat), c < 24 → k < 8 → KMap.get 0 (s.port c).xoff k ≠ 0 → s.rd FAB_PFC_CFG.XON c * 16384 < KMap.get 0 (s.port c).occ k →
    KMap.get 0 (s.port c).xoff k + s.rd FAB_PFC_CFG.PAUSE_NS c / 2 ≤ s.now + 1 →
    ∃ t, exec (.pauseRepeat c k) s = .next t ∧ (t.port c).urgent = (s.port c).urgent ++ [pauseFrame s k (s.rd FAB_PFC_CFG.PAUSE_NS c)] ∧
      KMap.get 0 (t.port c).xoff k = s.now + 1 ∧ t.rd FAB_PAUSE_TX_CNT.COUNT c = min (2 ^ 32 - 1) (s.rd FAB_PAUSE_TX_CNT.COUNT c + 1) ∧
      RegsOnly s { t with fab.ports := s.fab.ports } [FAB_PAUSE_TX_CNT.COUNT.key c]) ∧
  (∀ (s : State) (c : Nat) (pay : Bytes), portUp s c = true → pay.length = 18 →
    ∃ t, exec (.pause c pay) s = .next t ∧
      (∀ k < 8, bitOf (t.rd FAB_PORT_STS.PAUSED c) k =
        if bitOf (leAt pay 0 1) k then decide (leAt pay (2 + 2 * k) 2 ≠ 0) else bitOf (s.rd FAB_PORT_STS.PAUSED c) k) ∧
      (∀ k < 8, bitOf (leAt pay 0 1) k = true → leAt pay (2 + 2 * k) 2 ≠ 0 → KMap.get 0 (t.port c).pauseEnd k = s.now + leAt pay (2 + 2 * k) 2) ∧
      t.rd FAB_PAUSE_RX_CNT.COUNT c = min (2 ^ 32 - 1) (s.rd FAB_PAUSE_RX_CNT.COUNT c + 1) ∧ SameBut s.fab.ports t.fab.ports c ∧
      { t with regs := s.regs, fab.ports := s.fab.ports } = s) ∧
  (∀ (s : State) (c k : Nat), c < 24 → k < 8 →
    (s.now < KMap.get 0 (s.port c).pauseEnd k ∨ bitOf (s.rd FAB_PORT_STS.PAUSED c) k = false → exec (.pauseExpire c k) s = .next s) ∧
    (KMap.get 0 (s.port c).pauseEnd k ≤ s.now → bitOf (s.rd FAB_PORT_STS.PAUSED c) k = true →
      ∃ t, exec (.pauseExpire c k) s = .next t ∧ bitOf (t.rd FAB_PORT_STS.PAUSED c) k = false ∧
        (∀ j < 8, j ≠ k → bitOf (t.rd FAB_PORT_STS.PAUSED c) j = bitOf (s.rd FAB_PORT_STS.PAUSED c) j) ∧
        t.rd (FAB_PAUSED_NS.VALUE k) c = (s.rd (FAB_PAUSED_NS.VALUE k) c + (s.now - KMap.get 0 (s.port c).pauseFrom k)) % 2 ^ 64 ∧
        RegsOnly s t [FAB_PORT_STS.PAUSED.key c, (FAB_PAUSED_NS.VALUE k).key c])) ∧
  (∀ (s : State) (c k : Nat),
    (bitOf (s.rd FAB_PORT_STS.PAUSED c) k = false ∨ bitOf (s.rd FAB_PORT_STS.DROP_MODE c) k = true ∨
      s.now ≤ KMap.get 0 (s.port c).pauseFrom k + s.rd FAB_STORM_CFG.LIMIT_MS c * 1000000 → exec (.stormDetect c k) s = .next s) ∧
    (bitOf (s.rd FAB_PORT_STS.DROP_MODE c) k = false ∨ s.now < KMap.get 0 (s.port c).pauseLast k + s.rd FAB_STORM_CFG.RECOVER_MS c * 1000000 →
      exec (.stormRecover c k) s = .next s)) ∧
  (∀ (s : State) (c k : Nat), c < 24 → k < 8 → s.rd FAB_STORM_DROP_CNT.COUNT c < 2 ^ 32 →
      (∀ f ∈ (s.port c).classQ k, ∀ i, f.from? = some i → i < 24) →
      bitOf (s.rd FAB_PORT_STS.PAUSED c) k = true → bitOf (s.rd FAB_PORT_STS.DROP_MODE c) k = false →
      KMap.get 0 (s.port c).pauseFrom k + s.rd FAB_STORM_CFG.LIMIT_MS c * 1000000 < s.now →
    ∃ t, exec (.stormDetect c k) s = .next t ∧ bitOf (t.rd FAB_PORT_STS.DROP_MODE c) k = true ∧ (t.port c).classQ k = [] ∧
      t.rd FAB_STORM_CNT.COUNT c = min (2 ^ 32 - 1) (s.rd FAB_STORM_CNT.COUNT c + 1) ∧
      t.rd FAB_STORM_DROP_CNT.COUNT c = min (2 ^ 32 - 1) (s.rd FAB_STORM_DROP_CNT.COUNT c + ((s.port c).classQ k).length) ∧
      t.mem = s.mem ∧ t.out = s.out) ∧
  (∀ (s : State) (c k : Nat), c < 24 → k < 8 → bitOf (s.rd FAB_PORT_STS.DROP_MODE c) k = true →
    KMap.get 0 (s.port c).pauseLast k + s.rd FAB_STORM_CFG.RECOVER_MS c * 1000000 ≤ s.now →
    ∃ t, exec (.stormRecover c k) s = .next t ∧ bitOf (t.rd FAB_PORT_STS.DROP_MODE c) k = false ∧
      (∀ j < 8, j ≠ k → bitOf (t.rd FAB_PORT_STS.DROP_MODE c) j = bitOf (s.rd FAB_PORT_STS.DROP_MODE c) j) ∧
      RegsOnly s t [FAB_PORT_STS.DROP_MODE.key c]) ∧
  (∀ (s : State) (c : Nat), portUp s c = true → (s.port c).lineFree ≤ s.now * 1000 →
    let leaves (f : Frame) := stampFrame s (s.draw % 65536) f
    (∀ f rest, (s.port c).urgent = f :: rest → (∀ i, f.from? = some i → i < 24) →
      ∃ u, exec (.egressFrameStart c) s = .next (frameLeaves f u) ∧ u.out = .frame c (leaves f) (linkWire s c (leaves f)) :: s.out ∧
        (u.port c).lineFree = s.now * 1000 + linePs s c (linkBytes s c (leaves f)) ∧
        (f.from? ≠ some c → (u.port c).urgent = rest) ∧ (∀ k, (u.port c).classQ k = (s.port c).classQ k) ∧ u.mem = s.mem ∧
        (f.wr? = none → frameLeaves f u = u)) ∧
    ((s.port c).urgent = [] →
      (eligible s c 0 = true → nextClass s c = some 0) ∧
      ((∀ k < 8, eligible s c k = false) → exec (.egressFrameStart c) s = .next s) ∧
      (∀ k f, nextClass s c = some k → (s.port c).headOf k = some f → (∀ i, f.from? = some i → i < 24) →
        eligible s c k = true ∧ (k ≠ 0 → eligible s c 0 = false) ∧
        ∃ u, exec (.egressFrameStart c) s = .next (frameLeaves f u) ∧ u.out = .frame c (leaves f) (linkWire s c (leaves f)) :: s.out ∧
          (u.port c).classQ k = ((s.port c).classQ k).tail ∧ (∀ j, j ≠ k → (u.port c).classQ j = (s.port c).classQ j) ∧
          (u.port c).lineFree = s.now * 1000 + linePs s c (linkBytes s c (leaves f)) ∧ u.mem = s.mem ∧ (f.wr? = none → frameLeaves f u = u)))) ∧
  (∀ (s : State) (c : Nat), portUp s c = false ∨ s.now * 1000 < (s.port c).lineFree → exec (.egressFrameStart c) s = .next s)

/-- GO with a switchover time at least 10 us ahead, at or after the base, a whole number of cycles from it, and no empty
interval, pends the list; any other sets ERR. CANCEL before T ends the pending, and no later one or one of nothing
pending does. At T the administrative list of at most 256 entries becomes operational as it stands, with PEND 0 and DONE
1, suspended where time is out of bound. As an interval ends the port takes the entry of the time, a list suspended
resumes at the start of a cycle once time is in bound, and class 4 frames that fit no window are gone once its gate
opens. COMMIT pends the shadow table, and between two lookups every one of its 65,536 entries becomes active.
Rests on R252, R262, R263, R264. -/
def Obligations.GatesAndRoutesSwitchWhole : Prop :=
  (∀ (s : State) (c : Nat),
    let g := adminGcl s c
    let at' := s.rd FAB_GCL_SWITCH.T c
    let ok := timeInBound s = true ∧ fabTime s + 10000 ≤ at' ∧ g.base ≤ at' ∧ (at' - g.base) % g.cycle = 0 ∧ ∀ e ∈ g.ents, e.2 ≠ 0
    (ok → ∃ t, exec (.gclGo c) s = .next t ∧ t.rd FAB_GCL_STS.PEND c = 1 ∧ RegsOnly s t [FAB_GCL_STS.PEND.key c]) ∧
    (¬ ok → ∃ t, exec (.gclGo c) s = .next t ∧ t.rd FAB_GCL_STS.ERR c = 1 ∧ RegsOnly s t [FAB_GCL_STS.ERR.key c])) ∧
  (∀ (s : State) (c : Nat), s.flag FAB_GCL_STS.PEND c = false → exec (.gclCancel c) s = .next s ∧ exec (.gclSwitchover c) s = .next s) ∧
  (∀ (s : State) (c : Nat), s.flag FAB_GCL_STS.PEND c = true →
    (fabTime s < s.rd FAB_GCL_SWITCH.T c → (∃ t, exec (.gclCancel c) s = .next t ∧ t.rd FAB_GCL_STS.PEND c = 0 ∧ RegsOnly s t [FAB_GCL_STS.PEND.key c]) ∧
      exec (.gclSwitchover c) s = .next s) ∧
    (s.rd FAB_GCL_SWITCH.T c ≤ fabTime s → exec (.gclCancel c) s = .next s ∧
      (c < 24 → s.rd FAB_GCL_CFG.ADMIN_N c ≤ 256 →
        ∃ t, exec (.gclSwitchover c) s = .next t ∧ operGcl t c = adminGcl s c ∧ (t.port c).gateIx = 0 ∧ t.rd FAB_GCL_STS.PEND c = 0 ∧ t.rd FAB_GCL_STS.DONE c = 1 ∧
          t.rd FAB_GCL_STS.SUSP c = (if timeInBound s = true then s.rd FAB_GCL_STS.SUSP c else 1) ∧
          SameRegs s t ([FAB_GCL_STS.SUSP.key c, FAB_GCL_STS.PEND.key c, FAB_GCL_STS.DONE.key c] ++ (List.range 256).map fun k => (FAB_GCL_OPER.ENTRY k).key c) ∧
          SameBut s.fab.ports t.fab.ports c ∧ { t with regs := s.regs, fab.ports := s.fab.ports } = s))) ∧
  (∀ (s : State) (c : Nat), c < 24 → 0 < (s.port c).gclN →
    let x := (operGcl s c).at (fabTime s)
    let resumed := if x.1 = 0 ∧ timeInBound s = true then s.wr FAB_GCL_STS.SUSP c 0 else s
    (bitOf (s.rd FAB_GCL_CFG.GATED c) 4 = false ∨ bitOf x.2.1 4 = false ∨ gclActs resumed c = false →
      ∃ t, exec (.gateEntryAdvance c) s = .next t ∧ t.port c = { s.port c with gateIx := x.1 } ∧ SameBut s.fab.ports t.fab.ports c ∧
        (x.1 = 0 → timeInBound s = true → t.rd FAB_GCL_STS.SUSP c = 0) ∧ (x.1 ≠ 0 ∨ timeInBound s = false → t.regs = s.regs) ∧
        RegsOnly s { t with fab.ports := s.fab.ports } [FAB_GCL_STS.SUSP.key c]) ∧
    (bitOf (s.rd FAB_GCL_CFG.GATED c) 4 = true → bitOf x.2.1 4 = true → gclActs resumed c = true →
      (∀ f ∈ (s.port c).classQ 4, ∀ i, f.from? = some i → i < 24) →
      ∃ t, exec (.gateEntryAdvance c) s = .next t ∧ (∀ f, (t.port c).headOf 4 = some f → fitsList t c (operGcl t c) f = true) ∧
        (∃ n, (t.port c).classQ 4 = ((s.port c).classQ 4).drop n ∧ n ≤ ((s.port c).classQ 4).length) ∧ t.mem = s.mem ∧ t.out = s.out)) ∧
  (∀ (s : State) (c : Nat), (s.port c).gclN = 0 → exec (.gateEntryAdvance c) s = .next s) ∧
  (∀ s : State, ∃ t, exec .rtCommit s = .next t ∧ t.rd FAB_RT_CTL.PEND = 1 ∧ RegsOnly s t [FAB_RT_CTL.PEND.key 0]) ∧
  (∀ s : State, (s.flag FAB_RT_CTL.PEND = false → exec .rtCommitApply s = .next s) ∧
    (s.flag FAB_RT_CTL.PEND = true → KMap.sorted s.regs = true →
      ∃ t, exec .rtCommitApply s = .next t ∧ t.rd FAB_RT_CTL.PEND = 0 ∧ { t with regs := s.regs } = s ∧
        ∀ d < 65536, t.rd (FAB_RT_ACTIVE.ENTRY d) = s.rd (FAB_RT_SHADOW.ENTRY d) ∧ t.rd (FAB_RT_SHADOW.ENTRY d) = s.rd (FAB_RT_SHADOW.ENTRY d)))

/-- HEARTBEAT_SEND puts the node's HEARTBEAT at the end of class 0 of every up port and of no other, HB_US after the last
one and not before. A HEARTBEAT of 72 bytes is kept as the neighbor's and ends its loss. A neighbor silent for LOSS_N +
1 intervals is marked lost, and no other is. The comparison, once every HB_US, shows the neighbors that disagree and
that are ahead, counts the disagreements, and counts the intervals in which a majority disagreed; at DISAGREE_N of them
a node in RUN is fenced, by the alarm where the forme's digest differs; a joining node shows why it is kept out.
Rests on R244, R386, R387, R388, R390. -/
def Obligations.NeighborsAreWatched : Prop :=
  (∀ s : State, (∃ t, s.tim.hbAt = some t ∧ s.now < t + hbNs s) → exec .heartbeatSend s = .next s) ∧
  (∀ s : State, (∀ t, s.tim.hbAt = some t → t + hbNs s ≤ s.now) → ∃ t, exec .heartbeatSend s = .next t ∧ t.tim.hbAt = some s.now ∧ (∀ c, c ∉ upPorts s → t.port c = s.port c) ∧
    (∀ c ∈ upPorts s, bitOf (s.rd FAB_PORT_STS.DROP_MODE c) 0 = false →
      KMap.get [] (t.port c).green 0 = KMap.get [] (s.port c).green 0 ++ [linkFrame s 0x3A (heartbeatPay s)] ∧
      (t.port c).urgent = (s.port c).urgent) ∧
    RegsOnly s { t with fab.ports := s.fab.ports, tim.hbAt := s.tim.hbAt } ((upPorts s).map fun c => FAB_STORM_DROP_CNT.COUNT.key c)) ∧
  (∀ (s : State) (c : Nat) (pay : Bytes),
    (portUp s c = true → pay.length = 72 →
      ∃ t, exec (.heartbeat c pay) s = .next t ∧
        KMap.find? t.ras.nbrs c = some { node := leAt pay 0x40 2, digest := leAt pay 0 48, fw := leAt pay 0x30 4, epoch := leAt pay 0x34 4, last := s.now } ∧
        SameBut s.ras.nbrs t.ras.nbrs c ∧ bitOf (t.rd RAS_NBR_LOST.NBR) c = false ∧
        (∀ j < 24, j ≠ c → bitOf (t.rd RAS_NBR_LOST.NBR) j = bitOf (s.rd RAS_NBR_LOST.NBR) j) ∧
        RegsOnly s { t with ras.nbrs := s.ras.nbrs } [RAS_NBR_LOST.NBR.key 0]) ∧
    (portUp s c = false ∨ pay.length ≠ 72 → exec (.heartbeat c pay) s = .next s)) ∧
  (∀ (s : State) (c : Nat), KMap.find? s.ras.nbrs c = none ∨ portUp s c = false ∨ bitOf (s.rd RAS_NBR_LOST.NBR) c = true →
    exec (.neighborLost c) s = .next s) ∧
  (∀ (s : State) (c : Nat) (n : Neighbor), KMap.find? s.ras.nbrs c = some n → portUp s c = true → bitOf (s.rd RAS_NBR_LOST.NBR) c = false →
    (s.now < n.last + (s.rd RAS_HB_CFG.LOSS_N + 1) * hbNs s → exec (.neighborLost c) s = .next s) ∧
    (n.last + (s.rd RAS_HB_CFG.LOSS_N + 1) * hbNs s ≤ s.now →
      ∃ t, exec (.neighborLost c) s = .next t ∧ bitOf (t.rd RAS_NBR_LOST.NBR) c = true ∧
        (∀ j < 24, j ≠ c → bitOf (t.rd RAS_NBR_LOST.NBR) j = bitOf (s.rd RAS_NBR_LOST.NBR) j) ∧ t.mem = s.mem ∧ t.out = s.out ∧ t.fab = s.fab)) ∧
  (∀ s : State, s.due .evaluate (hbNs s) = false → exec .heartbeatEvaluate s = .next s) ∧
  (∀ s0 : State, s0.due .evaluate (hbNs s0) = true →
    let s := { s0 with periods := KMap.insert s0.periods Period.evaluate.ix s0.now }
    let ns := presentNbrs s
    let bad := ns.filter fun e => nbrDisagrees s e.2
    let n := if (ns.filter fun e => nbrCompared s e.2).length < 2 * bad.length then s.ras.disagree + 1 else 0
    let u : State := { (((s.wr RAS_NBR_DISAGREE.NBR 0 (codeMask bad)).wr RAS_NBR_AHEAD.NBR 0 (codeMask (ns.filter fun e => nbrAhead s e.2))).bumpBy
      (RAS_CNT.COUNT 7) 0 bad.length) with ras.disagree := n }
    (s.rd RAS_NODE_STS.STATE ≠ 1 → s.rd RAS_NODE_STS.STATE ≠ 2 ∨ n < s.rd RAS_HB_CFG.DISAGREE_N → exec .heartbeatEvaluate s0 = .next u) ∧
    (s.rd RAS_NODE_STS.STATE = 2 → s.rd RAS_HB_CFG.DISAGREE_N ≤ n →
      (bad.any (fun e => e.2.digest != formeDigest u) = false →
        exec .heartbeatEvaluate s0 = .next (joinReason (fenceNode 3 { u with ras.disagree := 0 }))) ∧
      (bad.any (fun e => e.2.digest != formeDigest u) = true →
        exec .heartbeatEvaluate s0 = .next (joinReason (alarm [4] none { u with ras.disagree := 0 })))) ∧
    (s.rd RAS_NODE_STS.STATE = 1 →
      ∃ t, exec .heartbeatEvaluate s0 = .next t ∧ t.ras.disagree = n ∧
        (∀ e, ns.find? (fun e => nbrReason s e.2 != 0) = some e → t.rd RAS_JOIN_STS.REASON = nbrReason s e.2 ∧ t.rd RAS_JOIN_STS.EGRESS = e.1) ∧
        ((∀ e ∈ ns, nbrReason s e.2 = 0) → t.rd RAS_JOIN_STS.REASON = if timeInBound s = true then 0 else 5)))

/-- TIME_SYNC goes to the up ports but the parent's with the next sequence number, INTERVAL_US after the last and not
before. From the parent it sets T1 and T2, ends the loss and is answered by TIME_DREQ; TIME_DREQ is answered with its
arrival time. TIME_DRESP with the sequence asked for gives the offset: more than 1 us behind steps time forward and
counts, ahead slows the clock by at most 100 ppm, behind speeds it up by at most 100 ppm, and none leaves time as it is;
more than 500 ns goes out of bound, and 16 intervals within 250 ns in a row end that. A frame of another port, length or
sequence changes nothing. Four intervals without TIME_SYNC set LOST, and at the fifth time goes out of bound. TIME_SET
acts on the grandmaster alone.
Rests on R265, R266. -/
def Obligations.FabricTimeFollowsTheParent : Prop :=
  (∀ s : State, (∃ t, s.tim.syncAt = some t ∧ s.now < t + s.rd TIME_CFG.INTERVAL_US * 1000) → exec .timeSyncSend s = .next s) ∧
  (∀ s : State, (∀ t, s.tim.syncAt = some t → t + s.rd TIME_CFG.INTERVAL_US * 1000 ≤ s.now) →
    ∃ t, exec .timeSyncSend s = .next t ∧ t.tim.syncAt = some s.now ∧ t.tim.txSeq = (s.tim.txSeq + 1) % 65536 ∧ t.now = s.now ∧ fabTime t = fabTime s ∧
    (∀ c, (c ∉ upPorts s ∨ (isGm s = false ∧ c = parentCode s)) → t.port c = s.port c) ∧
    (∀ c ∈ upPorts s, isGm s = true ∨ c ≠ parentCode s → bitOf (s.rd FAB_PORT_STS.DROP_MODE c) 0 = false →
      ∃ f, KMap.get [] (t.port c).green 0 = KMap.get [] (s.port c).green 0 ++ [f] ∧ f.ty = 0x3B ∧ f.src = nodeId s ∧ f.tc = 0 ∧
        leAt f.pay 10 2 = s.tim.txSeq % 65536)) ∧
  (∀ (s : State) (pay : Bytes) (frac : Nat), isGm s = false → portUp s (parentCode s) = true → pay.length = 16 →
    ∃ t, exec (.timeSync (parentCode s) pay frac) s = .next t ∧ t.tim.t1 = leAt pay 0 8 * 65536 + leAt pay 8 2 ∧
      t.tim.t2 = fabTime s * 65536 + frac % 65536 ∧ t.tim.seq = leAt pay 10 2 ∧ t.tim.asked = true ∧ t.tim.lastSync = s.now ∧
      t.rd TIME_STS.LOST = 0 ∧ t.rd (TIME_CNT.COUNT 0) = min (2 ^ 32 - 1) (s.rd (TIME_CNT.COUNT 0) + 1) ∧ fabTime t = fabTime s ∧
      (bitOf (s.rd FAB_PORT_STS.DROP_MODE (parentCode s)) 0 = false →
        ∃ f, KMap.get [] (t.port (parentCode s)).green 0 = KMap.get [] (s.port (parentCode s)).green 0 ++ [f] ∧ f.ty = 0x3C ∧ leAt f.pay 10 2 = leAt pay 10 2)) ∧
  (∀ (s : State) (c frac : Nat) (pay : Bytes), (isGm s = true ∨ c ≠ parentCode s ∨ portUp s c = false ∨ pay.length ≠ 16 →
      exec (.timeSync c pay frac) s = .next s ∧ exec (.timeDresp c pay) s = .next s) ∧
    (portUp s c = false ∨ pay.length ≠ 16 → exec (.timeDreq c pay frac) s = .next s) ∧
    (s.tim.asked = false ∨ leAt pay 10 2 ≠ s.tim.seq → exec (.timeDresp c pay) s = .next s)) ∧
  (∀ (s : State) (c frac : Nat) (pay : Bytes), portUp s c = true → pay.length = 16 → fabTime s < 2 ^ 64 → bitOf (s.rd FAB_PORT_STS.DROP_MODE c) 0 = false →
    ∃ t f, exec (.timeDreq c pay frac) s = .next t ∧ KMap.get [] (t.port c).green 0 = KMap.get [] (s.port c).green 0 ++ [f] ∧ f.ty = 0x3D ∧
      leAt f.pay 0 8 = fabTime s ∧ leAt f.pay 8 2 = frac % 65536 ∧ leAt f.pay 10 2 = leAt pay 10 2 ∧ SameBut s.fab.ports t.fab.ports c ∧
      { t with fab.ports := s.fab.ports } = s) ∧
  (∀ (s : State) (pay : Bytes), isGm s = false → portUp s (parentCode s) = true → pay.length = 16 → s.tim.asked = true → leAt pay 10 2 = s.tim.seq →
    let off : Int := ((s.tim.t2 : Int) - s.tim.t1) - (((leAt pay 0 8 * 65536 + leAt pay 8 2 : Nat) : Int) - s.tim.t3)
    ∃ t, exec (.timeDresp (parentCode s) pay) s = .next t ∧ t.tim.asked = false ∧ t.rd TIME_OFFSET.OFFSET = satOff (off.tdiv 131072) ∧ t.now = s.now ∧
      (off < -(2 * 1000 * 65536) → fabTime t = (fabTime s + (-(off.tdiv 131072)).toNat) % 2 ^ 64 ∧ t.tim.rate = 0 ∧
        t.rd (TIME_CNT.COUNT 1) = min (2 ^ 32 - 1) (s.rd (TIME_CNT.COUNT 1) + 1)) ∧
      (-(2 * 1000 * 65536) ≤ off → fabTime t = fabTime s) ∧ (0 < off → -100 ≤ t.tim.rate ∧ t.tim.rate < 0) ∧ (off = 0 → t.tim.rate = 0) ∧
      (off < 0 → 0 ≤ t.tim.rate ∧ t.tim.rate ≤ 100) ∧
      (off < -(2 * 500 * 65536) ∨ 2 * 500 * 65536 < off → t.rd TIME_STS.OOB ≠ 0) ∧
      (-(2 * 250 * 65536) ≤ off → off ≤ 2 * 250 * 65536 → t.tim.good = s.tim.good + 1 ∧
        t.rd TIME_STS.OOB = if 16 ≤ s.tim.good + 1 then 0 else s.rd TIME_STS.OOB) ∧
      (off < -(2 * 250 * 65536) ∨ 2 * 250 * 65536 < off → t.tim.good = 0)) ∧
  (∀ s : State, isGm s = true → exec .timeSyncLoss s = .next s) ∧
  (∀ s : State, isGm s = false → s.flag TIME_STS.LOST = false →
    (s.tim.lastSync + 5 * s.rd TIME_CFG.INTERVAL_US * 1000 ≤ s.now →
      ∃ t, exec .timeSyncLoss s = .next t ∧ t.rd TIME_STS.LOST = 1 ∧ t.rd TIME_STS.OOB ≠ 0 ∧ t.tim.good = 0 ∧
        t.rd (TIME_CNT.COUNT 3) = min (2 ^ 32 - 1) (s.rd (TIME_CNT.COUNT 3) + 1) ∧ fabTime t = fabTime s ∧ t.mem = s.mem ∧ t.out = s.out) ∧
    (s.tim.lastSync + 4 * s.rd TIME_CFG.INTERVAL_US * 1000 ≤ s.now → s.now < s.tim.lastSync + 5 * s.rd TIME_CFG.INTERVAL_US * 1000 →
      ∃ t, exec .timeSyncLoss s = .next t ∧ t.rd TIME_STS.LOST = 1 ∧ t.rd TIME_STS.OOB = s.rd TIME_STS.OOB ∧ t.tim.good = 0 ∧
        t.rd (TIME_CNT.COUNT 3) = min (2 ^ 32 - 1) (s.rd (TIME_CNT.COUNT 3) + 1) ∧
        RegsOnly { s with tim.good := 0 } t [TIME_STS.LOST.key 0, (TIME_CNT.COUNT 3).key 0]) ∧
    (s.now < s.tim.lastSync + 4 * s.rd TIME_CFG.INTERVAL_US * 1000 → exec .timeSyncLoss s = .next s)) ∧
  (∀ (s : State) (v : Nat), (isGm s = true → ∃ t, exec (.timeSet v) s = .next t ∧ t.rd TIME_NOW.NS = v % 2 ^ 64 ∧ RegsOnly s t [TIME_NOW.NS.key 0]) ∧
    (isGm s = false → exec (.timeSet v) s = .next s))

/-- REG and REVOKE take the engine's oldest command, each only its own; for a fenced partition it ends with ST_FENCED. REG
of a malformed record, of a range out of bounds or of another's channel sets, or of a folio that is not there, or with
no entry free, is refused with the status of its row and registers nothing. A right one takes the next free entry after
the cursor, with its generation, for a folio with what its header names, and answers its key. REVOKE with a key that
fails the checks is refused; a right one closes the entry and waits. Once the outstanding count is 0 the entry is free
with the next generation (255 goes to 1), so that the old key no longer passes, and the waiting command ends; before
that nothing changes.
Rests on R269, R270, R271, R272, R273. -/
def Obligations.RegionsAreGrantedAndRevoked : Prop :=
  (∀ s : State, s.rch.cmds = [] → exec .reg s = .next s ∧ exec .revoke s = .next s) ∧
  (∀ (s : State) (src : CmdSrc) (b : Bytes) (rest : List (CmdSrc × Bytes)), s.rch.cmds = (src, b) :: rest →
    (leAt b 0 1 ≠ 1 → exec .reg s = .next s) ∧ (leAt b 0 1 ≠ 2 → exec .revoke s = .next s) ∧
    (cmdFenced s (leAt b 1 1 % 32) = true →
      (leAt b 0 1 = 1 → exec .reg s = .next (rchDone src ST.FENCED [] { s with rch.cmds := rest })) ∧
      (leAt b 0 1 = 2 → exec .revoke s = .next (rchDone src ST.FENCED [] { s with rch.cmds := rest })))) ∧
  (∀ (s : State) (src : CmdSrc) (b : Bytes) (rest : List (CmdSrc × Bytes)), NextRch s 1 src b rest →
    let u : State := { s with rch.cmds := rest }
    let g := regOf b
    (badReg b = true → exec .reg s = .next (rchDone src ST.RCH_REG_FORMAT [] u)) ∧
    (badReg b = false →
      (g.kind = 0 → (upperSize < g.base + g.len ∨ (g.part ≠ 0 ∧ rangeForeign s g.part g.base g.len = true)) →
        exec .reg s = .next (rchDone src ST.RCH_BOUNDS [] u)) ∧
      (g.kind = 1 → folioHere s g.part g.base = false → exec .reg s = .next (rchDone src ST.RCH_NOT_RESIDENT [] u)) ∧
      ((g.kind = 0 ∧ g.base + g.len ≤ upperSize ∧ (g.part = 0 ∨ rangeForeign s g.part g.base g.len = false)) ∨
          (g.kind = 1 ∧ folioHere s g.part g.base = true) →
        ((∀ i < 65536, (s.region i).state ≠ 0) → exec .reg s = .next (rchDone src ST.RCH_REG_FULL [] u)) ∧
        (∀ i, nextFreeReg s 65536 (s.rch.cursor + 1) = some i → (s.region i).state = 0 ∧ i < 65536 ∧
          let h := hdrAt s (folioBase s g.base)
          let g' : RchReg := if g.kind = 1 then { g with conv := h.conv, layer := h.layer, hg := h.group, posBase := h.base, sealed := h.sealed } else g
          ∃ t, exec .reg s = .next t ∧ t.region i = { g' with gen := (s.region i).gen } ∧ t.rch.cursor = i ∧ t.rch.cmds = rest ∧
            SameBut s.rch.regs t.rch.regs i ∧
            (src = .reg → t.rd RCH_CMD_KEY.KEY = (i * 256 + (s.region i).gen) % 2 ^ 32 ∧ t.rd RCH_CMD_STS.STATUS = ST.OK ∧ t.rd RCH_CMD_STS.BUSY = 0 ∧
              { t with regs := s.regs, rch.regs := s.rch.regs, rch.cursor := s.rch.cursor, rch.cmds := s.rch.cmds } = s) ∧
            (∀ p r q, src = .host p r q → t.regs = s.regs))))) ∧
  (∀ (s : State) (src : CmdSrc) (b : Bytes) (rest : List (CmdSrc × Bytes)), NextRch s 2 src b rest →
    let u : State := { s with rch.cmds := rest }
    let key := leAt b 0x18 4
    let st := keyStatus s key (leAt b 1 1 % 32)
    (st ≠ ST.OK → exec .revoke s = .next (rchDone src st [] u)) ∧
    (st = ST.OK → ∃ t, exec .revoke s = .next t ∧ t.region (key / 256) = { s.region (key / 256) with state := 2, waiter := some src } ∧
      (∀ part, keyStatus t key part ≠ ST.OK) ∧ SameBut s.rch.regs t.rch.regs (key / 256) ∧ { t with rch.regs := s.rch.regs } = u)) ∧
  (∀ (s : State) (i : Nat), ((s.region i).state ≠ 2 ∨ (s.region i).outst ≠ 0 → exec (.revokeComplete i) s = .next s) ∧
    ((s.region i).state = 2 → (s.region i).outst = 0 →
      ∃ t, exec (.revokeComplete i) s = .next t ∧ (t.region i).state = 0 ∧
        (t.region i).gen = (if (s.region i).gen = 255 then 1 else (s.region i).gen + 1) ∧
        ((s.region i).gen < 256 → ∀ part, keyStatus t (i * 256 + (s.region i).gen) part ≠ ST.OK) ∧
        SameBut s.rch.regs t.rch.regs i ∧ t.mem = s.mem ∧
        ((s.region i).waiter = some .reg → t.rd RCH_CMD_STS.STATUS = ST.OK ∧ t.rd RCH_CMD_STS.DONE = 1 ∧ t.rd RCH_CMD_STS.BUSY = 0) ∧
        ((s.region i).waiter = none → t.regs = s.regs)))

/-- A request in turn that need not wait is carried out, and its channel expects the next; one that must wait stays where it
is. A WRITE that passes the checks of its key and range writes its bytes where its region puts them; a refused one is
counted, logged and noted for the next FLUSH and changes no memory. A READ or QUERY that is refused is answered so; one
whose folio's key is closed is answered ST_KEY_RETIRED, one whose codec meets a fault with its status, and any other
with one DATA frame for each piece of the data, marked as poison where the piece is, of which the last ends the access.
An ATOMIC replaces the eight bytes by its new word, and its answer, a refusal too, is kept. A FLUSH waits with the
channel's first failing status, which clears, and is answered in order. A duplicate is counted: a READ or QUERY is
carried out again, an ATOMIC is answered from the cache, and none of the others changes memory. A request out of order
is counted and asked for again once. A request without a context of its class is answered so. With the engine disabled,
or no such request there, nothing changes.
Rests on R271, R274, R275, R276, R278, R281, R282, R283, R286, R289, R290. -/
def Obligations.RequestsActOnceInOrder : Prop :=
  (∀ (s : State) (c : Instr) (p : Frame → Bool), (c, p) ∈ [(Instr.write, isWrite), (.read, isRead), (.query, isQuery), (.atomic, isAtomic), (.flush, isFlush)] →
    (s.flag RCH_CFG.EN = false ∨ firstOfChannel reqTypes p [] s.fab.inbox = none → exec c s = .next s) ∧
    (∀ f x w, NextReq s p f x → (seqSub x.e f.seq = 0 ∨ (seqSub x.e f.seq ≤ 256 ∧ f.ty = 0x11)) → accessWaits c s f = some w → exec c s = .next w)) ∧
  (∀ (s : State) (f : Frame) (x : RchRx), NextReq s isWrite f x → seqSub x.e f.seq = 0 → accessWaits .write s f = none →
    let k := chKey f.src f.chan
    let y : RchRx := { x with last := s.now, e := (x.e + 1) % seqMod, unack := x.unack + 1, since := if x.unack = 0 then s.now else x.since }
    let v := (reqTaken (unstall .write s) f x).setRxc k y
    let st := rangeStatus v f.part (accessAt v f) (f.pay.drop 32).length
    (accessStatus v f = ST.OK → st = ST.OK →
      ∃ t, exec .write s = .next t ∧ t.mem = (writeUpper f.part (accessAt v f) (f.pay.drop 32) v).mem ∧ (t.rxc? k).map (·.e) = some ((x.e + 1) % seqMod) ∧
        (t.rxc? k).map (·.unack) = some (if 16 ≤ x.unack + 1 then 0 else x.unack + 1)) ∧
    (accessStatus v f = ST.OK → st ≠ ST.OK →
      ∃ t, exec .write s = .next t ∧ t.mem = s.mem ∧ (t.rxc? k).map (·.fault) = some (if x.fault = 0 then st else x.fault) ∧
        t.rd GUT_XPART_CNT.COUNT = if st = ST.RCH_XPART then min (2 ^ 32 - 1) (s.rd GUT_XPART_CNT.COUNT + 1) else s.rd GUT_XPART_CNT.COUNT) ∧
    (accessStatus v f ≠ ST.OK →
      ∃ t, exec .write s = .next t ∧ t.mem = s.mem ∧ (t.rxc? k).map (·.fault) = some (if x.fault = 0 then accessStatus v f else x.fault) ∧
        t.rd RCH_REFUSE_CNT.COUNT = min (2 ^ 32 - 1) (s.rd RCH_REFUSE_CNT.COUNT + 1) ∧ t.rd RCH_ERR_LOG0.STATUS = accessStatus v f % 2 ^ 16)) ∧
  (∀ (s : State) (f : Frame) (x : RchRx) (c : Instr), (c = .read ∧ NextReq s isRead f x) ∨ (c = .query ∧ NextReq s isQuery f x) →
    accessWaits c s f = none →
    let k := chKey f.src f.chan
    let y : RchRx := { x with last := s.now, e := (x.e + 1) % seqMod }
    let z : RchRx := { x with last := s.now }
    (seqSub x.e f.seq = 0 → exec c s = .next (doRead (ackSeq { y with e := f.seq }) k f y (reqTaken (unstall c s) f x))) ∧
    (1 ≤ seqSub x.e f.seq → seqSub x.e f.seq ≤ 256 →
      exec c s = .next (doRead (ackSeq z) k f z (((removeFrame f (unstall c s)).setRxc k z).bump RCH_DUP_CNT.COUNT)))) ∧
  (∀ (s : State) (ack k : Nat) (f : Frame) (x : RchRx), let i := (reqHdrOf f.pay).key / 256
    let hd := hdrAt s (folioBase s (s.region i).base)
    let sealed := (s.region i).kind = 1 ∧ hd.sealed = true
    (accessStatus s f ≠ ST.OK → doRead ack k f x s = sendStatus k f { status := accessStatus s f, req := 0x11 } (refuseReach f (accessStatus s f) s)) ∧
    (accessStatus s f = ST.OK → sealed → keyOpen s hd.slot hd.gen = false →
      doRead ack k f x s = sendEnd i k f { status := ST.KEY_RETIRED, req := 0x11 } (refuseReach f ST.KEY_RETIRED (raise1 i s))) ∧
    (accessStatus s f = ST.OK → (sealed → keyOpen s hd.slot hd.gen = true) → ∀ st ds w, readData f (raise1 i s) = (st, ds, w) →
      let bad := if st = ST.OK then ST.POISON else st
      let u := if st = ST.OK ∧ none ∈ ds then poisonUse .chip 11 0 (some f.part) ST.POISON (accessAt w f) w else w
      (ds = [] → doRead ack k f x s = sendEnd i k f { status := st, req := 0x11 } w) ∧
      (ds ≠ [] → ∃ fs : List Frame, doRead ack k f x s = fs.foldl (fun s g => sendResp k g s) u ∧ fs.length = ds.length ∧
        ∀ j < ds.length, ∀ g, fs[j]? = some g →
          let said : Resp := { req := 0x11, ack := if j + 1 = ds.length then ackSeq x else ack, seq := f.seq, off := 4064 * j }
          g.ty = 0x14 ∧ g.tc = x.cls ∧ g.dst = f.src ∧ g.chan = f.chan ∧ g.msg = f.msg ∧ g.tok? = (if j + 1 = ds.length then some i else none) ∧
          (g.keySlot, g.keyGen) = (if (s.region i).kind = 1 ∧ hd.sealed = true then (hd.slot, hd.gen) else (0, 0)) ∧
          (ds[j]? = some none → g.pay.take 32 = { said with status := bad, poison := true }.bytes (incarnation u)) ∧
          (∀ d, ds[j]? = some (some d) → g.pay = said.bytes (incarnation u) ++ d)))) ∧
  (∀ (s : State) (f : Frame) (x : RchRx), NextReq s isAtomic f x → seqSub x.e f.seq = 0 → accessWaits .atomic s f = none →
    let v := reqTaken (unstall .atomic s) f x
    (accessStatus v f = ST.OK → rangeStatus v f.part (accessAt v f) 8 = ST.OK → ∀ d w, readUpper f.part (accessAt v f) 8 v = (some d, w) →
      ∃ t r, exec .atomic s = .next t ∧
        t.mem = (writeUpper f.part (accessAt v f) (natLe 8 (atomicNew (reqHdrOf f.pay).aop (leNat d) (leAt f.pay 32 8) (leAt f.pay 40 8))) w).mem ∧
        KMap.find? t.rch.replay f.src = some r ∧ r.getLast? = some { chan := f.chan, seq := f.seq, status := ST.OK, result := leNat d } ∧ r.length ≤ 64) ∧
    (accessStatus v f ≠ ST.OK → ∃ t r, exec .atomic s = .next t ∧ t.mem = s.mem ∧ t.rd RCH_REFUSE_CNT.COUNT = min (2 ^ 32 - 1) (s.rd RCH_REFUSE_CNT.COUNT + 1) ∧
      KMap.find? t.rch.replay f.src = some r ∧ r.getLast? = some { chan := f.chan, seq := f.seq, status := accessStatus v f, result := 0 } ∧ r.length ≤ 64)) ∧
  (∀ (s : State) (f : Frame) (x : RchRx), NextReq s isFlush f x → seqSub x.e f.seq = 0 →
    let st := accessStatus (reqTaken (unstall .flush s) f x) f
    (st = ST.OK → ∃ t, exec .flush s = .next t ∧ t.mem = s.mem ∧ t.rxc? (chKey f.src f.chan) =
      some { x with last := s.now, e := (x.e + 1) % seqMod, flush := x.flush ++ [(f.seq, f.msg, f.part, x.fault)], fault := 0 }) ∧
    (st ≠ ST.OK → ∃ t, exec .flush s = .next t ∧ t.mem = s.mem ∧ t.rd RCH_REFUSE_CNT.COUNT = min (2 ^ 32 - 1) (s.rd RCH_REFUSE_CNT.COUNT + 1) ∧
      t.rxc? (chKey f.src f.chan) = some { x with last := s.now, e := (x.e + 1) % seqMod, flush := x.flush ++ [(f.seq, f.msg, f.part, st)] })) ∧
  (∀ (s : State) (src chan : Nat), (∀ x, s.rxc? (chKey src chan) = some x → x.flush = []) → exec (.flushAnswer src chan) s = .next s) ∧
  (∀ (s : State) (src chan : Nat) (x : RchRx) (sq msg part st : Nat) (rest : List (Nat × Nat × Nat × Nat)),
    s.rxc? (chKey src chan) = some x → x.flush = (sq, msg, part, st) :: rest →
    ∃ t, exec (.flushAnswer src chan) s = .next t ∧ t.mem = s.mem ∧ (t.rxc? (chKey src chan)).map (·.flush) = some rest ∧
      (∀ y, t.rxc? (chKey src chan) = some y → (sq, st) ∈ y.done ∧ y.unack = 0)) ∧
  (∀ (s : State) (f : Frame) (x : RchRx) (c : Instr) (p : Frame → Bool),
    (c, p) ∈ [(Instr.write, isWrite), (.read, isRead), (.query, isQuery), (.atomic, isAtomic), (.flush, isFlush)] → NextReq s p f x →
    (1 ≤ seqSub x.e f.seq → seqSub x.e f.seq ≤ 256 → c ∉ [Instr.read, .query] →
      ∃ t, exec c s = .next t ∧ t.mem = s.mem ∧ t.rd RCH_DUP_CNT.COUNT = min (2 ^ 32 - 1) (s.rd RCH_DUP_CNT.COUNT + 1) ∧
        (c = .atomic → ∀ r, (KMap.get [] s.rch.replay f.src).find? (fun r => r.chan == f.chan && r.seq == f.seq) = some r →
          t.rd RCH_REPLAY_HIT_CNT.COUNT = min (2 ^ 32 - 1) (s.rd RCH_REPLAY_HIT_CNT.COUNT + 1))) ∧
    (256 < seqSub x.e f.seq →
      ∃ t, exec c s = .next t ∧ t.mem = s.mem ∧ t.rd RCH_OOS_CNT.COUNT = min (2 ^ 32 - 1) (s.rd RCH_OOS_CNT.COUNT + 1) ∧
        (t.rxc? (chKey f.src f.chan)).map (fun y => (y.e, y.nakAt)) = some (x.e, some x.e))) ∧
  (∀ (s : State) (f : Frame) (c : Instr) (p : Frame → Bool),
    (c, p) ∈ [(Instr.write, isWrite), (.read, isRead), (.query, isQuery), (.atomic, isAtomic), (.flush, isFlush)] →
    s.flag RCH_CFG.EN = true → firstOfChannel reqTypes p [] s.fab.inbox = some f → (∀ x, s.rxc? (chKey f.src f.chan) = some x → x.cls ≠ f.tc) →
    ∃ t, exec c s = .next t ∧ t.mem = s.mem ∧ t.rd RCH_NOCTX_CNT.COUNT = min (2 ^ 32 - 1) (s.rd RCH_NOCTX_CNT.COUNT + 1))

/-- DATA adds its bytes to the request it answers where they follow the last, and the last of them completes it. STATUS
completes the request it answers; ST_RCH_NO_CONTEXT opens the channel again, and a request for the missing ones resends
what is held. A WRITE is complete as its frame leaves. OPEN makes a receive context, or answers the one there is, or is
refused at 8,192. OPEN_RSP from the incarnation known opens the channel, ends the requests before the one expected with
ST_RCH_UNREACHABLE and resends the rest; from another it ends every request with ST_RCH_PEER_RESET and counts the lost
writes. An acknowledgment owed for 1 us goes out. A request unanswered for RTO_US is resent with the rest, and at
RETRY_MAX the channel is broken and its requests but the WRITEs end with ST_RCH_UNREACHABLE. A broken channel sends OPEN
each 1 ms until its hold ends, which closes it and ends what is left. A receive context idle for IDLE_MS ends, and the
source's replay cache with its last. Without a frame or a context to act on, or before its time, each of these changes
nothing.
Rests on R277, R283, R284, R285, R286, R287. -/
def Obligations.ChannelsKeepTheirRequests : Prop :=
  (∀ s : State, (firstOfChannel respTypes (fun f => f.ty == 0x14) [] s.fab.inbox = none → exec .data s = .next s) ∧
    (firstOfChannel respTypes (fun f => f.ty == 0x15) [] s.fab.inbox = none → exec .status s = .next s) ∧
    (firstOfChannel respTypes (fun f => f.ty == 0x17) [] s.fab.inbox = none → exec .openRsp s = .next s) ∧
    (s.flag RCH_CFG.EN = false ∨ firstOfChannel reqTypes (fun f => f.ty == 0x16) [] s.fab.inbox = none → exec .openCh s = .next s)) ∧
  (∀ (s : State) (src chan : Nat), (s.rxc? (chKey src chan) = none → exec (.ackTimer src chan) s = .next s ∧ exec (.contextIdleExpire src chan) s = .next s) ∧
    ((s.txc (chKey src chan)).held = [] → exec (.rtxTimeout src chan) s = .next s) ∧
    ((s.txc (chKey src chan)).state ∉ [2, 3] → exec (.openRetry src chan) s = .next s ∧ exec (.channelHoldExpire src chan) s = .next s)) ∧
  (∀ (s : State) (f : Frame) (k sq : Nat) (q : TxReq), f.wr? = some (k, sq) →
    (s.txc k).held.find? (fun q => q.seq == sq && q.ty == 0x10 && !q.done) = some q → frameLeaves f s = complete true k q ST.OK 0 s) ∧
  (∀ (s : State) (f : Frame), firstOfChannel respTypes (fun f => f.ty == 0x14) [] s.fab.inbox = some f →
    let u := respTaken s f
    let k := chKey f.src f.chan
    let r := respOf f.pay
    (answered (u.txc k) r = none → exec .data s = .next (loadGo (takeAck k r.ack u))) ∧
    (∀ q, answered (u.txc k) r = some q →
      (r.off ≠ q.got.length → exec .data s = .next (loadGo (takeAck k r.ack u))) ∧
      (r.off = q.got.length →
        let z : TxReq := { q with got := q.got ++ f.pay.drop 32, status := if q.status = ST.OK then r.status else q.status }
        ((reqHdrOf q.pay).len ≤ z.got.length →
          exec .data s = .next (loadGo (takeAck k r.ack (complete (hostTakes z u).1 k z z.status 0 (hostTakes z u).2)))) ∧
        (z.got.length < (reqHdrOf q.pay).len →
          ∃ v, exec .data s = .next (loadGo (takeAck k r.ack v)) ∧ answered (v.txc k) r = some z ∧ { v with rch.tx := s.rch.tx } = { u with rch.tx := s.rch.tx })))) ∧
  (∀ (s : State) (f : Frame), firstOfChannel respTypes (fun f => f.ty == 0x15) [] s.fab.inbox = some f →
    let u := respTaken s f
    let k := chKey f.src f.chan
    let r := respOf f.pay
    (r.status = ST.RCH_NO_CONTEXT →
      ((s.txc k).state ≠ 1 → exec .status s = .next u) ∧
      ((s.txc k).state = 1 → ∃ t, exec .status s = .next t ∧ (t.txc k).state = 2 ∧ (t.txc k).openAt = s.now ∧ (t.txc k).held = (s.txc k).held ∧ t.mem = s.mem)) ∧
    (r.status ≠ ST.RCH_NO_CONTEXT →
      let resent := fun t : State => loadGo (if r.nak = true ∧ (t.txc k).state = 1 then resendAll k t else t)
      (r.req = 0 ∨ answered (u.txc k) r = none → exec .status s = .next (resent (takeAck k r.ack u))) ∧
      (∀ q, r.req ≠ 0 → answered (u.txc k) r = some q → exec .status s = .next (resent (takeAck k r.ack (complete true k q r.status r.result u)))))) ∧
  (∀ (s : State) (f : Frame), s.flag RCH_CFG.EN = true → firstOfChannel reqTypes (fun f => f.ty == 0x16) [] s.fab.inbox = some f →
    let k := chKey f.src f.chan
    (∀ x, s.rxc? k = some x → ∃ t, exec .openCh s = .next t ∧ t.rxc? k = some { x with last := s.now } ∧ t.mem = s.mem) ∧
    (s.rxc? k = none → s.rch.rx.length < 8192 → ∃ t, exec .openCh s = .next t ∧ t.rxc? k = some { cls := f.tc, e := leAt f.pay 0 3, last := s.now } ∧
      SameBut s.rch.rx t.rch.rx k ∧ t.mem = s.mem) ∧
    (s.rxc? k = none → 8192 ≤ s.rch.rx.length → ∃ t, exec .openCh s = .next t ∧ t.rch.rx = s.rch.rx ∧ t.mem = s.mem ∧
      t.rd RCH_NOCTX_CNT.COUNT = min (2 ^ 32 - 1) (s.rd RCH_NOCTX_CNT.COUNT + 1))) ∧
  (∀ (s : State) (f : Frame), firstOfChannel respTypes (fun f => f.ty == 0x17) [] s.fab.inbox = some f →
    let u := respTaken s f
    let k := chKey f.src f.chan
    let t0 := s.txc k
    let e := leAt f.pay 0 3
    let inc := leAt f.pay 4 4
    (t0.state ∉ [2, 3] ∨ leAt f.pay 8 2 ≠ ST.OK → exec .openRsp s = .next u) ∧
    (t0.state ∈ [2, 3] → leAt f.pay 8 2 = ST.OK → (t0.known = none ∨ t0.known = some inc) →
      let old := t0.held.filter fun q => decide (0 < seqSub e q.seq ∧ seqSub e q.seq < 2 ^ 23)
      let rest := t0.held.filter fun q => !old.contains q
      let v := failReqs old ST.RCH_UNREACHABLE
        (u.setTxc k { t0 with state := 1, known := some inc, tmos := 0, held := rest, next := if t0.held.isEmpty then e else t0.next })
      exec .openRsp s = .next (loadGo (pumpAll (if rest.isEmpty then v else resendAll k v)))) ∧
    (t0.state ∈ [2, 3] → leAt f.pay 8 2 = ST.OK → t0.known ≠ none → t0.known ≠ some inc →
      ∃ v, exec .openRsp s = .next (loadGo (pumpAll v)) ∧ v.txc k = { t0 with state := 1, known := some inc, tmos := 0, held := [], next := e } ∧
        v.rd RCH_LOST_WR_CNT.COUNT = min (2 ^ 32 - 1) (s.rd RCH_LOST_WR_CNT.COUNT + (t0.held.filter fun q => q.ty = 0x10).length))) ∧
  (∀ (s : State) (src chan : Nat) (x : RchRx), s.rxc? (chKey src chan) = some x →
    (x.unack = 0 ∨ s.now < x.since + 1000 → exec (.ackTimer src chan) s = .next s) ∧
    (x.unack ≠ 0 → x.since + 1000 ≤ s.now → ∃ t, exec (.ackTimer src chan) s = .next t ∧ t.rxc? (chKey src chan) = some { x with unack := 0 } ∧ t.mem = s.mem) ∧
    (s.now < x.last + s.rd RCH_HOLD_CFG.IDLE_MS * 1000000 → exec (.contextIdleExpire src chan) s = .next s) ∧
    (chan < 16 → x.last + s.rd RCH_HOLD_CFG.IDLE_MS * 1000000 ≤ s.now →
      ∃ t, exec (.contextIdleExpire src chan) s = .next t ∧ t.rxc? (chKey src chan) = none ∧ SameBut s.rch.rx t.rch.rx (chKey src chan) ∧
        ((∀ y ∈ t.rch.rx, y.1 / 16 ≠ src) → KMap.find? t.rch.replay src = none) ∧
        ((∃ y ∈ t.rch.rx, y.1 / 16 = src) → t.rch.replay = s.rch.replay) ∧ { t with rch.rx := s.rch.rx, rch.replay := s.rch.replay } = s)) ∧
  (∀ (s : State) (dst chan : Nat) (q : TxReq) (l : List TxReq), (s.txc (chKey dst chan)).held = q :: l →
    let k := chKey dst chan
    ((s.txc k).state ≠ 1 ∨ s.now < q.sentAt + s.rd RCH_CFG.RTO_US * 1000 → exec (.rtxTimeout dst chan) s = .next s) ∧
    ((s.txc k).state = 1 → q.sentAt + s.rd RCH_CFG.RTO_US * 1000 ≤ s.now →
      ((s.txc k).tmos + 1 < s.rd RCH_CFG.RETRY_MAX →
        ∃ t, exec (.rtxTimeout dst chan) s = .next t ∧ (t.txc k).tmos = (s.txc k).tmos + 1 ∧ (∀ z ∈ (t.txc k).held, z.sentAt = s.now) ∧
          (t.txc k).held.length = (q :: l).length ∧ t.rd RCH_TMO_CNT.COUNT = min (2 ^ 32 - 1) (s.rd RCH_TMO_CNT.COUNT + 1)) ∧
      (s.rd RCH_CFG.RETRY_MAX ≤ (s.txc k).tmos + 1 → s.ras.load = none →
        ∃ t, exec (.rtxTimeout dst chan) s = .next t ∧ (t.txc k).state = 3 ∧ (∀ z ∈ (t.txc k).held, z.ty = 0x10 ∨ z.done = true) ∧ (t.txc k).held.length = (q :: l).length ∧ (t.txc k).brokenAt = s.now ∧
          t.rd RCH_BROKEN_CNT.COUNT = min (2 ^ 32 - 1) (s.rd RCH_BROKEN_CNT.COUNT + 1) ∧ t.mem = s.mem))) ∧
  (∀ (s : State) (dst chan : Nat), (s.txc (chKey dst chan)).state ∈ [2, 3] →
    let k := chKey dst chan
    let stop := (s.txc k).brokenAt + s.rd RCH_HOLD_CFG.HOLD_MS * 1000000
    (s.now < (s.txc k).openAt + 1000000 → exec (.openRetry dst chan) s = .next s) ∧
    (s.now < stop → exec (.channelHoldExpire dst chan) s = .next s) ∧
    ((s.txc k).openAt + 1000000 ≤ s.now → s.now < stop →
      ∃ t, exec (.openRetry dst chan) s = .next t ∧ (t.txc k).openAt = s.now ∧ (t.txc k).state = (s.txc k).state ∧ t.mem = s.mem) ∧
    (stop ≤ s.now → exec (.openRetry dst chan) s = .next s ∧
      ∃ v, exec (.channelHoldExpire dst chan) s = .next (loadGo (pumpAll v)) ∧ v.txc k = {} ∧
        v.rd RCH_LOST_WR_CNT.COUNT = min (2 ^ 32 - 1) (s.rd RCH_LOST_WR_CNT.COUNT + ((s.txc k).held.filter fun q => q.ty = 0x10).length)))

/-- SIG_PUT and SIG_DROP take the collator's oldest command, each only its own, while none is held; for a fenced partition
it ends with ST_FENCED. A malformed or misplaced descriptor is refused with its row's status, and a drop of an entry
that is not there with ST_SIG_NOT_FOUND; a right one takes its index or leaves it free at once, or is held while a ream
names the entry, and SIG_REPLACE applies it when none does. An attempt past REAM_TMO_US whose part is not complete ends
with ST_COL_TIMEOUT at its lowest missing child; one in time goes on. ABORT stops the attempt here and is taken by the
root or forwarded once; ROOT_ABORT first writes the new stand-ins, and the root ignores its own. The second copy of an
ABORT goes out when it is due. A ream whose reissue is due starts its next attempt under the same ticket with ATTEMPT
one higher, or completes with the status that refuses it. An audit partial without its attempt is counted stale; one
that comes first waits for the local fold, and then the two are compared; AUDIT_TMO_US later the audit is skipped.
Rests on R293, R294, R301, R302, R304, R308. -/
def Obligations.SignaturesAndAbortsTakeTheirSteps : Prop :=
  (∀ s : State, s.col.waiting = [] → exec .sigPut s = .next s ∧ exec .sigDrop s = .next s) ∧
  (∀ (s : State) (src : CmdSrc) (b desc : Bytes) (rest : List (CmdSrc × Bytes × Bytes)), s.col.waiting = (src, b, desc) :: rest →
    let u : State := { s with col.waiting := rest }
    let d := sigOfBytes desc
    (s.col.held.isSome = true ∨ leAt b 0 1 ∉ [1, 2] → exec .sigPut s = .next s ∧ exec .sigDrop s = .next s) ∧
    (s.col.held = none → leAt b 0 1 = 1 → exec .sigDrop s = .next s ∧
      (cmdFenced s (leAt b 1 1 % 32) = true → exec .sigPut s = .next (colDone src ST.FENCED u)) ∧
      (cmdFenced s (leAt b 1 1 % 32) = false →
        (sigPutStatus s (leAt b 0x18 4) desc ≠ ST.OK → exec .sigPut s = .next (colDone src (sigPutStatus s (leAt b 0x18 4) desc) u)) ∧
        (sigPutStatus s (leAt b 0x18 4) desc = ST.OK →
          ((∀ old, sigTarget s b = some old → sigInUse s old.sig old.part = false) →
            ∃ t, exec .sigPut s = .next t ∧ KMap.find? t.col.sigs (d.sig / 256) = some d ∧ sigOf? t d.sig d.part = some d ∧
              SameBut s.col.sigs t.col.sigs (d.sig / 256) ∧ t.col.waiting = rest ∧ t.mem = s.mem ∧
              (src = .reg → t.rd COL_CMD_STS.STATUS = ST.OK ∧ t.rd COL_CMD_STS.BUSY = 0 ∧ t.rd COL_CMD_STS.DONE = 1)) ∧
          (∀ old, sigTarget s b = some old → sigInUse s old.sig old.part = true →
            exec .sigPut s = .next { u with col.held := some (src, b, desc) })))) ∧
    (s.col.held = none → leAt b 0 1 = 2 → exec .sigPut s = .next s ∧
      (cmdFenced s (leAt b 1 1 % 32) = true → exec .sigDrop s = .next (colDone src ST.FENCED u)) ∧
      (cmdFenced s (leAt b 1 1 % 32) = false →
        ((∀ old, sigTarget s b = some old → ¬ (old.sig = leAt b 0x18 4 ∧ old.part = leAt b 1 1)) → exec .sigDrop s = .next (colDone src ST.SIG_NOT_FOUND u)) ∧
        (∀ old, sigTarget s b = some old → old.sig = leAt b 0x18 4 → old.part = leAt b 1 1 →
          (sigInUse s old.sig old.part = true → exec .sigDrop s = .next { u with col.held := some (src, b, desc) }) ∧
          (sigInUse s old.sig old.part = false →
            ∃ t, exec .sigDrop s = .next t ∧ KMap.find? t.col.sigs (leAt b 0x18 4 / 256) = none ∧ SameBut s.col.sigs t.col.sigs (leAt b 0x18 4 / 256) ∧
              t.col.waiting = rest ∧ t.mem = s.mem ∧
              (src = .reg → t.rd COL_CMD_STS.STATUS = ST.OK ∧ t.rd COL_CMD_STS.BUSY = 0 ∧ t.rd COL_CMD_STS.DONE = 1)))))) ∧
  (∀ s : State, (s.col.held = none → exec .sigReplace s = .next s) ∧
    (∀ src b desc, s.col.held = some (src, b, desc) →
      (∀ old, sigTarget s b = some old → sigInUse s old.sig old.part = true → exec .sigReplace s = .next s) ∧
      ((∀ old, sigTarget s b = some old → sigInUse s old.sig old.part = false) → leAt b 0 1 = 1 →
        ∃ t, exec .sigReplace s = .next t ∧ t.col.held = none ∧ KMap.find? t.col.sigs ((sigOfBytes desc).sig / 256) = some (sigOfBytes desc) ∧
          SameBut s.col.sigs t.col.sigs ((sigOfBytes desc).sig / 256)) ∧
      ((∀ old, sigTarget s b = some old → sigInUse s old.sig old.part = false) → leAt b 0 1 = 2 →
        ∃ t, exec .sigReplace s = .next t ∧ t.col.held = none ∧ KMap.find? t.col.sigs (leAt b 0x18 4 / 256) = none ∧
          SameBut s.col.sigs t.col.sigs (leAt b 0x18 4 / 256)))) ∧
  (∀ (s : State) (part ream pos : Nat) (audit : Bool), s.att? (attKey part ream pos audit) = none →
    exec (.reamTimeout part ream pos audit) s = .next s ∧ (audit = false → exec (.auditTimeout part ream pos) s = .next s)) ∧
  (∀ (s : State) (part ream pos : Nat) (audit : Bool) (a : Att), s.att? (attKey part ream pos audit) = some a →
    let k := attKey part ream pos audit
    (s.now ≤ a.start + s.rd COL_CFG.REAM_TMO_US * 1000 ∨ (a.folded = true ∧ a.appended = true) → exec (.reamTimeout part ream pos audit) s = .next s) ∧
    (a.start + s.rd COL_CFG.REAM_TMO_US * 1000 < s.now → (a.folded = false ∨ a.appended = false) →
      (a.mirrorOf.isSome = true → exec (.reamTimeout part ream pos audit) s = .next (endServe k ST.COL_TIMEOUT pos s)) ∧
      (a.mirrorOf = none → a.part = part → sigOf? s a.sig part = none → exec (.reamTimeout part ream pos audit) s = .next (endServe k ST.COL_TIMEOUT pos s)) ∧
      (a.mirrorOf = none → ∀ d, a.part = part → sigOf? s a.sig part = some d →
        (∀ c, missingKid a d = some c → exec (.reamTimeout part ream pos audit) s = .next (endServe k ST.COL_TIMEOUT c s)) ∧
        (missingKid a d = none → exec (.reamTimeout part ream pos audit) s = .next (endServe k ST.COL_TIMEOUT pos s))))) ∧
  (∀ s : State, (takeFrame (fun f => f.ty == 6 && !(wRoot f.arg)) s = none → exec .abort s = .next s) ∧
    (∀ f u, takeFrame (fun f => f.ty == 6 && !(wRoot f.arg)) s = some (f, u) →
      let m := abortOf f.pay
      (sigOf? u m.sig f.part = none → exec .abort s = .next (stopHere f.part m false u)) ∧
      (∀ d, sigOf? u m.sig f.part = some d →
        (d.server 0 = nodeId u → exec .abort s = .next (stopHere f.part m false (rootFault f.part m.ream m.attempt m.status m.fault u))) ∧
        (d.server 0 ≠ nodeId u → u.col.aborts.contains (f.part, m.ream, m.attempt, false) = true → exec .abort s = .next (stopHere f.part m false u)) ∧
        (d.server 0 ≠ nodeId u → exec .abort s = .next (stopHere f.part m false (forwardAbort f.part f.src false m d u))))) ∧
    (takeFrame (fun f => f.ty == 6 && wRoot f.arg) s = none → exec .rootAbort s = .next s) ∧
    (∀ f u, takeFrame (fun f => f.ty == 6 && wRoot f.arg) s = some (f, u) →
      let m := abortOf f.pay
      (sigOf? u m.sig f.part = none → exec .rootAbort s = .next (settleOwed f.part m (stopHere f.part m true u))) ∧
      (∀ d, sigOf? u m.sig f.part = some d → d.server 0 = nodeId u → exec .rootAbort s = .next u) ∧
      (∀ d, sigOf? u m.sig f.part = some d → d.server 0 ≠ nodeId u →
        ∃ v, exec .rootAbort s =
            .next (settleOwed f.part m (stopHere f.part m true (forwardAbort f.part f.src true m { d with standin := m.standin, epoch := m.epoch } v))) ∧
          sigOf? v m.sig f.part = some { d with standin := m.standin, epoch := m.epoch } ∧ { v with col.sigs := s.col.sigs } = { u with col.sigs := s.col.sigs }))) ∧
  (∀ s : State, (s.col.repeats = [] → exec .abortRepeat s = .next s) ∧
    (∀ t f rest, s.col.repeats = (t, f) :: rest → (s.now < t → exec .abortRepeat s = .next s) ∧
      (t ≤ s.now → ∃ v, exec .abortRepeat s = .next v ∧ v.col.repeats = rest ∧ v.mem = s.mem ∧ v.out = s.out ∧
        (∀ e, f.dst ≠ nodeId s → nextHop { s with col.repeats := rest } { f with hops := 1, src := nodeId s, from? := none } 1 = .egress e →
          (v.port e).urgent = (s.port e).urgent ++ [{ f with hops := 1, src := nodeId s, from? := none }])))) ∧
  (∀ (s : State) (part ream : Nat) (r : Ream) (at' : Nat), s.ream? part ream = some r → r.reissueAt = some at' →
    (s.now < at' ∨ s.rd RSP_FORME_STS.STATE = 4 → exec (.reamReissue part ream) s = .next s) ∧
    (at' ≤ s.now → s.rd RSP_FORME_STS.STATE ≠ 4 →
      let b := retryTicket r.ticket (r.attempt + 1)
      let r' : Ream := { r with attempt := r.attempt + 1, ticket := b, reissueAt := none, flight := false }
      let a : Att := { part := part, ream := ream, step := tktStep b, attempt := r.attempt + 1, sig := tktSig b, ticket := b, audit := r.audit }
      ∃ u, u.ream? part ream = some r' ∧ u.rd COL_REISSUE_CNT.COUNT = min (2 ^ 32 - 1) (s.rd COL_REISSUE_CNT.COUNT + 1) ∧ u.now = s.now ∧ u.mem = s.mem ∧
        u.col.sigs = s.col.sigs ∧ u.col.atts = s.col.atts ∧
        (s.rd RAS_NODE_STS.STATE = 3 → exec (.reamReissue part ream) s = .next (completeReam r' ST.FENCED 0xFFFF 0 (briefEnd a r.src .fab 0 ST.FENCED u))) ∧
        (s.rd RAS_NODE_STS.STATE ≠ 3 →
          (sigOf? s (tktSig b) part = none →
            exec (.reamReissue part ream) s = .next (completeReam r' ST.TKT_SIG 0xFFFF 0 (briefEnd a r.src .fab 0 ST.TKT_SIG u))) ∧
          (∀ d st i v, sigOf? s (tktSig b) part = some d → lookupAll 0 b part u = (some (st, i), v) →
            exec (.reamReissue part ream) s = .next (completeReam r' st i 0 (briefEnd a r.src .fab 0 st v))) ∧
          (∀ d v, sigOf? s (tktSig b) part = some d → lookupAll 0 b part u = (none, v) →
            exec (.reamReissue part ream) s = .next (beginAttempt a d 0 .fab v))))) ∧
  (∀ (s : State) (part ream : Nat), (∀ r, s.ream? part ream = some r → r.reissueAt = none) → exec (.reamReissue part ream) s = .next s) ∧
  (∀ s : State, (takeMsg (fun f => f.ty == 2 && wAudit f.arg) s = none → exec .auditPartial s = .next s) ∧
    (∀ fs u, takeMsg (fun f => f.ty == 2 && wAudit f.arg) s = some (fs, u) →
      let f := fs.headD {}
      let k := attKey f.part f.msg (wPos f.arg) false
      (partFenced u f.part = true → exec .auditPartial s = .next u) ∧
      (partFenced u f.part = false →
        (u.att? k = none ∨ joinMsg fs = none → exec .auditPartial s = .next (u.bump COL_STALE_CNT.COUNT)) ∧
        (∀ a b, u.att? k = some a → joinMsg fs = some b →
          let r := (recordsOf 1 b).headD {}
          let v := chargeRecs k ((recordsOf (tktNslot a.ticket) b).map fun r => (r.slot, r.bytes.length)) (framesBytes fs) u
          (a.audit = false ∨ a.audited = true ∨ r.attempt ≠ a.attempt ∨ r.step ≠ a.step → exec .auditPartial s = .next (v.bump COL_STALE_CNT.COUNT)) ∧
          (a.audit = true → a.audited = false → r.attempt = a.attempt → r.step = a.step →
            (a.local? = none → ∃ a', v.att? k = some a' ∧ exec .auditPartial s = .next (v.setAtt k { a' with auditIn := some b })) ∧
            (a.local?.isSome = true → exec .auditPartial s = .next (auditCompare k b v))))))) ∧
  (∀ (s : State) (part ream pos : Nat) (a : Att), s.att? (attKey part ream pos false) = some a →
    (a.local? = none ∨ a.audit = false ∨ a.audited = true → exec (.auditTimeout part ream pos) s = .next s) ∧
    (∀ t, a.local? = some t → a.audit = true → a.audited = false →
      (s.now ≤ t + s.rd COL_CFG2.AUDIT_TMO_US * 1000 → exec (.auditTimeout part ream pos) s = .next s) ∧
      (t + s.rd COL_CFG2.AUDIT_TMO_US * 1000 < s.now →
        exec (.auditTimeout part ream pos) s = .next (auditSkip (attKey part ream pos false) s))))

/-- For every partition and vector below 64: a signal of a masked vector sends nothing and sets its pending bit, a second
signal changes nothing more, and VECTOR_UNMASK then sends the vector once, with the pending bit clear and the vector
open. Unmasking a vector that does not pend sends nothing. An open vector's signal is sent at once. No other vector and
nothing else of the node changes.
States R329. -/
def Obligations.MaskedVectorsAreDeliveredOnUnmask : Prop :=
  ∀ (s : State) (p v : Nat), v < 64 →
    (bitOf (KMap.get 0 s.hst.msixOpen p) v = false →
      let u := signal p v s
      u.out = s.out ∧ bitOf (KMap.get 0 u.hst.msixPend p) v = true ∧ signal p v u = u ∧
      (∀ j < 64, j ≠ v → bitOf (KMap.get 0 u.hst.msixPend p) j = bitOf (KMap.get 0 s.hst.msixPend p) j) ∧ SameBut s.hst.msixPend u.hst.msixPend p ∧
      { u with hst.msixPend := s.hst.msixPend } = s ∧
      ∃ t, exec (.vectorUnmask p v) u = .next t ∧ t.out = .msix p v :: s.out ∧ bitOf (KMap.get 0 t.hst.msixPend p) v = false ∧
        bitOf (KMap.get 0 t.hst.msixOpen p) v = true ∧
        (∀ j < 64, j ≠ v → bitOf (KMap.get 0 t.hst.msixPend p) j = bitOf (KMap.get 0 s.hst.msixPend p) j ∧
          bitOf (KMap.get 0 t.hst.msixOpen p) j = bitOf (KMap.get 0 s.hst.msixOpen p) j) ∧
        { t with out := s.out, hst.msixPend := s.hst.msixPend, hst.msixOpen := s.hst.msixOpen } = s) ∧
    (bitOf (KMap.get 0 s.hst.msixPend p) v = false →
      ∃ t, exec (.vectorUnmask p v) s = .next t ∧ t.out = s.out ∧ bitOf (KMap.get 0 t.hst.msixOpen p) v = true ∧ { t with hst.msixOpen := s.hst.msixOpen } = s) ∧
    (bitOf (KMap.get 0 s.hst.msixOpen p) v = true → signal p v s = s.emit (.msix p v))

/-- A doorbell of a ring that is off, in error or in reset is counted and ignored; one beyond the ring, or a colophon
doorbell beyond what is written, is counted and puts the ring in error with vector 63; a right one moves the ring's
index and nothing else. Turning a submission ring on takes its size and colophon ring and clears its head, tail and
errors; turning a colophon ring on takes its size, vector and coalescing and starts it at entry 0 with phase 1; a ring
that is on keeps its size. One turn of the fetch, taken whenever some partition can fetch, reads one descriptor: it
becomes a job of the next order number with a colophon entry reserved, the head moves on by one round the ring, and the
fetch is counted; a failed host read puts the ring in error instead. With no partition able to fetch, only the waits are
noted.
Rests on R317, R318, R319, R320. -/
def Obligations.RingsCarryDescriptors : Prop :=
  (∀ (s : State) (p q v : Nat), p < 32 → q < 8 → v < 65536 →
    (doorbellIgnored s p (s.flag (HST_SQ_CFG.EN q) p) (s.flag (HST_SQ_STS.ERR q) p) = true →
      exec (.sqDoorbell p q v) s = .next (s.bump (HST_PRT_CNT.COUNT 2) p)) ∧
    (doorbellIgnored s p (s.flag (HST_SQ_CFG.EN q) p) (s.flag (HST_SQ_STS.ERR q) p) = false →
      (sqSize s p q ≤ v → ∃ t, exec (.sqDoorbell p q v) s = .next t ∧ t.rd (HST_SQ_STS.ERR q) p = 1 ∧ t.rd (HST_SQ_STS.ERR_KIND q) p = 1 ∧
        t.rd (HST_PRT_CNT.COUNT 2) p = min (2 ^ 32 - 1) (s.rd (HST_PRT_CNT.COUNT 2) p + 1) ∧ sqTail t p q = sqTail s p q ∧
        (bitOf (KMap.get 0 t.hst.msixPend p) 63 = true ∨ t.out = .msix p 63 :: s.out)) ∧
      (v < sqSize s p q → ∃ t, exec (.sqDoorbell p q v) s = .next t ∧ sqTail t p q = v ∧ SameBut s.hst.sqTail t.hst.sqTail (ringKey p q) ∧
        { t with hst.sqTail := s.hst.sqTail } = s)) ∧
    (doorbellIgnored s p (s.flag (HST_CQ_CFG.EN q) p) (s.flag (HST_CQ_STS.ERR q) p) = true →
      exec (.cqDoorbell p q v) s = .next (s.bump (HST_PRT_CNT.COUNT 2) p)) ∧
    (doorbellIgnored s p (s.flag (HST_CQ_CFG.EN q) p) (s.flag (HST_CQ_STS.ERR q) p) = false →
      (v < cqSize s p q → (v + cqSize s p q - cqHead s p q) % cqSize s p q ≤ cqUsed s p q →
        ∃ t, exec (.cqDoorbell p q v) s = .next t ∧ cqHead t p q = v ∧ SameBut s.hst.cqHead t.hst.cqHead (ringKey p q) ∧ { t with hst.cqHead := s.hst.cqHead } = s) ∧
      (cqSize s p q ≤ v ∨ cqUsed s p q < (v + cqSize s p q - cqHead s p q) % cqSize s p q →
        ∃ t, exec (.cqDoorbell p q v) s = .next t ∧ t.rd (HST_CQ_STS.ERR q) p = 1 ∧ cqHead t p q = cqHead s p q ∧
          t.rd (HST_PRT_CNT.COUNT 2) p = min (2 ^ 32 - 1) (s.rd (HST_PRT_CNT.COUNT 2) p + 1) ∧
          (bitOf (KMap.get 0 t.hst.msixPend p) 63 = true ∨ t.out = .msix p 63 :: s.out)))) ∧
  (∀ (s : State) (p q v : Nat), p < 32 → q < 8 →
    (s.flag (HST_SQ_CFG.EN q) p = false → bitOf v 31 = true →
      ∃ t, exec (.ringEnable p q false v) s = .next t ∧ t.flag (HST_SQ_CFG.EN q) p = true ∧ t.rd (HST_SQ_CFG.CQ q) p = bits v 16 3 ∧
        (sizeOk (bits v 0 5) = true → sqSize t p q = 2 ^ bits v 0 5) ∧ t.rd (HST_SQ_STS.HEAD q) p = 0 ∧ t.rd (HST_SQ_STS.ERR q) p = 0 ∧
        t.rd (HST_SQ_STS.ERR_KIND q) p = 0 ∧ sqTail t p q = 0 ∧ t.mem = s.mem ∧ t.job = s.job ∧
        SameRegs s t [(HST_SQ_CFG.EN q).key p, (HST_SQ_CFG.CQ q).key p, (HST_SQ_CFG.SIZE_LOG2 q).key p, (HST_SQ_STS.HEAD q).key p, (HST_SQ_STS.ERR q).key p,
          (HST_SQ_STS.ERR_KIND q).key p]) ∧
    (s.flag (HST_SQ_CFG.EN q) p = true →
      ∃ t, exec (.ringEnable p q false v) s = .next t ∧ t.rd (HST_SQ_CFG.EN q) p = bits v 31 1 ∧ RegsOnly s t [(HST_SQ_CFG.EN q).key p]) ∧
    (s.flag (HST_SQ_CFG.EN q) p = false → bitOf v 31 = false →
      ∃ t, exec (.ringEnable p q false v) s = .next t ∧ t.rd (HST_SQ_CFG.EN q) p = 0 ∧ t.rd (HST_SQ_CFG.CQ q) p = bits v 16 3 ∧
        (sizeOk (bits v 0 5) = true → sqSize t p q = 2 ^ bits v 0 5) ∧
        RegsOnly s t [(HST_SQ_CFG.EN q).key p, (HST_SQ_CFG.CQ q).key p, (HST_SQ_CFG.SIZE_LOG2 q).key p]) ∧
    (s.flag (HST_CQ_CFG.EN q) p = true ∨ bitOf v 31 = false →
      ∃ t, exec (.ringEnable p q true v) s = .next t ∧ t.rd (HST_CQ_CFG.EN q) p = bits v 31 1 ∧ (s.flag (HST_CQ_CFG.EN q) p = true → cqSize t p q = cqSize s p q) ∧
        t.rd (HST_CQ_CFG.COAL_CNT q) p = bits v 16 8 ∧ t.rd (HST_CQ_CFG.COAL_US q) p = bits v 8 8 ∧
        RegsOnly s t [(HST_CQ_CFG.EN q).key p, (HST_CQ_CFG.SIZE_LOG2 q).key p, (HST_CQ_CFG.VECTOR q).key p, (HST_CQ_CFG.COAL_CNT q).key p,
          (HST_CQ_CFG.COAL_US q).key p]) ∧
    (s.flag (HST_CQ_CFG.EN q) p = false → bitOf v 31 = true →
      ∃ t, exec (.ringEnable p q true v) s = .next t ∧ t.flag (HST_CQ_CFG.EN q) p = true ∧ t.rd (HST_CQ_STS.TAIL q) p = 0 ∧ t.rd (HST_CQ_STS.ERR q) p = 0 ∧
        t.rd (HST_CQ_STS.PHASE q) p = 1 ∧ cqHead t p q = 0 ∧ KMap.find? t.hst.unsig (ringKey p q) = none ∧ t.mem = s.mem ∧
        (sizeOk (bits v 0 5) = true → cqSize t p q = 2 ^ bits v 0 5) ∧ (bits v 24 6 < 62 → t.rd (HST_CQ_CFG.VECTOR q) p = bits v 24 6) ∧
        t.rd (HST_CQ_CFG.COAL_CNT q) p = bits v 16 8 ∧ t.rd (HST_CQ_CFG.COAL_US q) p = bits v 8 8)) ∧
  (∀ (s : State) (desc : Bytes) (ok : Bool),
    let w := noteWaits s
    ((∀ p < 32, partFetches w p = false) → exec (.descriptorFetch desc ok) s = .next w) ∧
    ((∃ p, p < 32 ∧ partFetches w p = true) → ∃ p u q, turnOf w = some (p, u) ∧ ringTurn u p = some q) ∧
    (∀ p u q, turnOf w = some (p, u) → ringTurn u p = some q →
      p < 32 ∧ q < 8 ∧ canFetch u p q = true ∧
      (ok = true → ∃ t, exec (.descriptorFetch desc ok) s = .next t ∧
        t.job.jobs = s.job.jobs ++ [{ part := p, ring := q, seq := KMap.get 0 s.hst.seqs (ringKey p q), cq := s.rd (HST_SQ_CFG.CQ q) p, desc := slice desc 0 64 }] ∧
        t.rd (HST_SQ_STS.HEAD q) p = (s.rd (HST_SQ_STS.HEAD q) p + 1) % sqSize s p q % 2 ^ 16 ∧
        KMap.get 0 t.hst.seqs (ringKey p q) = KMap.get 0 s.hst.seqs (ringKey p q) + 1 ∧
        t.rd (HST_PRT_CNT.COUNT 0) p = min (2 ^ 32 - 1) (s.rd (HST_PRT_CNT.COUNT 0) p + 1) ∧
        t.rd HST_RX_BYTES.BYTES = (s.rd HST_RX_BYTES.BYTES + 64) % 2 ^ 64 ∧ t.out = s.out ∧ t.mem = s.mem) ∧
      (ok = false → ∃ t, exec (.descriptorFetch desc ok) s = .next t ∧ t.job = s.job ∧ t.rd (HST_SQ_STS.ERR q) p = 1 ∧ t.rd (HST_SQ_STS.ERR_KIND q) p = 2 ∧
        t.rd (HST_SQ_STS.HEAD q) p = s.rd (HST_SQ_STS.HEAD q) p ∧ t.rd HST_DMA_ERR_CNT.COUNT = min (2 ^ 32 - 1) (s.rd HST_DMA_ERR_CNT.COUNT + 1))))

/-- A fetched descriptor that no fence holds starts while the node admits work; one of a fenced partition or node, of no
enabled partition, or malformed, completes at once with its status. A started descriptor acts once and in its own
operation, and a row of another operation, of one not started or of one that has acted changes nothing: NOP completes
with ST_OK; TICKET gives its bytes to the root, and waits in Hold; COMMAND and REACH_CMD give their record, with the
partition forced, to the folio unit, the collator or the reach engine; REACH issues one request; PLATEN submits the
forme's program as one list, or is refused with ST_HST_PROG or ST_PLT_LIST_FORMAT. A failed host read completes any of
them with ST_HST_DMA. The colophon of a completed descriptor is written at the tail, which moves round the ring and
turns the phase over at its end, and COAL_US later an unsignaled ring signals its vector.
Rests on R312, R321, R322, R323, R324, R325, R326, R328. -/
def Obligations.DescriptorsActAndAreAnswered : Prop :=
  (∀ (s : State) (p q n : Nat) (j : HostJob), job? s p q n = some j →
    (j.started = true ∨ mayStart s j = false ∨ nodeAdmits s = false → exec (.descriptorStart p q n) s = .next s) ∧
    (j.started = false → mayStart s j = true → nodeAdmits s = true →
      ∃ t, exec (.descriptorStart p q n) s = .next t ∧ (job? t p q n).map (·.started) = some true ∧ { t with job := s.job } = s ∧
        (cmdFenced s p = true → j.state < 2 → (job? t p q n).map (fun j => (j.state, j.status)) = some (2, ST.FENCED)) ∧
        (cmdFenced s p = false → (partDefined s p = false ∨ s.flag HST_PRT_CFG.EN p = false) → j.state < 2 →
          (job? t p q n).map (fun j => (j.state, j.status)) = some (2, ST.HST_NO_PART)) ∧
        (cmdFenced s p = false → partDefined s p = true → s.flag HST_PRT_CFG.EN p = true →
          (descBad j.desc = true → j.state < 2 → (job? t p q n).map (fun j => (j.state, j.status)) = some (2, ST.HST_DESC_FORMAT)) ∧
          (descBad j.desc = false → job? t p q n = some { j with started := true })))) ∧
  (∀ (s : State) (p q n : Nat), job? s p q n = none → exec (.descriptorStart p q n) s = .next s ∧ exec (.colophonWrite p q n) s = .next s) ∧
  (∀ (s : State) (p q n : Nat) (data rec' : Bytes) (ok : Bool) (c : Instr) (opc : Nat), (opc, c) ∈ [(0, Instr.hostNop p q n), (1, .hostTicket p q n data ok),
      (2, .hostCommand p q n rec' data ok), (3, .hostReachCmd p q n rec' ok), (4, .hostReach p q n data ok), (5, .hostPlaten p q n data ok)] →
    (∀ j, job? s p q n = some j → j.started = false ∨ j.state ≠ 0 ∨ j.opc ≠ opc) → exec c s = .next s) ∧
  (∀ (s : State) (p q n : Nat) (data : Bytes) (ok : Bool), s.rd RSP_FORME_STS.STATE = 4 → exec (.hostTicket p q n data ok) s = .next s) ∧
  (∀ (s : State) (p q n : Nat) (j : HostJob) (data rec' : Bytes), job? s p q n = some j → j.started = true → j.state = 0 →
    let v := setJob { j with state := 1 } s
    let d := j.desc
    let r := slice rec' 0 64
    job? v p q n = some { j with state := 1 } ∧
    (j.opc = 0 → ∃ t, exec (.hostNop p q n) s = .next t ∧ job? t p q n = some { j with state := 2, status := ST.OK, res := [] } ∧ { t with job := s.job } = s) ∧
    (j.opc = 1 → s.rd RSP_FORME_STS.STATE ≠ 4 →
      let b := slice data 0 (leAt d 0x10 4)
      exec (.hostTicket p q n data true) s = .next (receiveTicket { part := p, from? := .host p q n, data := b } b.length (hostIn b.length v))) ∧
    (j.opc = 2 → bitOf (leAt d 4 1) 0 = false →
      (leAt d 0x10 8 = 0 → exec (.hostCommand p q n rec' data true) s = .next (floSubmit (.host p q n) (forcePart p r) (hostIn 64 v))) ∧
      (leAt d 0x10 8 ≠ 0 → exec (.hostCommand p q n rec' data true) s = .next (jobDone p q n ST.HST_DESC_FORMAT [] (hostIn 64 v)))) ∧
    (j.opc = 2 → bitOf (leAt d 4 1) 0 = true → leAt r 0 1 = 1 →
      exec (.hostCommand p q n rec' data true) s = .next (colSubmit (.host p q n) (forcePart p r)
        (splice (slice data 0 1024) 4 (natLe 1 (setBits (leAt (slice data 0 1024) 4 1) 0 5 p))) (hostIn 1024 (hostIn 64 v)))) ∧
    (j.opc = 2 → bitOf (leAt d 4 1) 0 = true → leAt r 0 1 ≠ 1 →
      (leAt d 0x10 8 = 0 → exec (.hostCommand p q n rec' data true) s = .next (colSubmit (.host p q n) (forcePart p r) [] (hostIn 64 v))) ∧
      (leAt d 0x10 8 ≠ 0 → exec (.hostCommand p q n rec' data true) s = .next (jobDone p q n ST.HST_DESC_FORMAT [] (hostIn 64 v)))) ∧
    (j.opc = 3 → exec (.hostReachCmd p q n rec' true) s = .next (rchSubmit (.host p q n) (forcePart p r) (hostIn 64 v))) ∧
    (j.opc = 4 →
      let ty := leAt d 4 1
      let h : ReqHdr := { aop := leAt d 5 1 / 16, query := bitOf (leAt d 5 1) 0, key := leAt d 0xC 4, off := leAt d 0x10 5, inc := leAt d 0x18 4, len := leAt d 0x1C 4 }
      let body := if ty = 0x10 then slice data 0 h.len else if ty = 0x12 then slice d 0x28 16 else []
      exec (.hostReach p q n data true) s = .next (rchIssue (leAt d 8 2) (leAt d 6 1 % 16) (bits (leAt d 6 1) 4 3)
        { ty := ty, part := p, msg := n % 2 ^ 32, owner := .job p q n, pay := h.bytes ++ body } (if ty = 0x10 then hostIn h.len v else v))) ∧
    (j.opc = 5 →
      (platenProg? s (leAt d 4 2) = none → ∃ t, exec (.hostPlaten p q n data true) s = .next t ∧
        job? t p q n = some { j with state := 2, status := ST.HST_PROG, res := [] } ∧ { t with job := s.job } = s) ∧
      (∀ ws, platenProg? s (leAt d 4 2) = some ws →
        (putsBytes ws ≠ leAt d 0x18 4 ∨ (∃ w ∈ ws, opGang (cmdOp w) = true) → ∃ t, exec (.hostPlaten p q n data true) s = .next t ∧
          (job? t p q n).map (·.status) = some ST.PLT_LIST_FORMAT ∧ { t with job := s.job } = s) ∧
        (putsBytes ws = leAt d 0x18 4 → (∀ w ∈ ws, opGang (cmdOp w) = false) →
          exec (.hostPlaten p q n data true) s = .next (pltSubmit (leAt d 6 1) (.host p q n) (platenHeader d p ws.length) (ws.map (addAddr (leAt d 8 5)))
            (slice data 0 (leAt d 0x18 4)) (hostIn (leAt d 0x18 4) v))))) ∧
    (∀ c, (j.opc, c) ∈ [(1, Instr.hostTicket p q n data false), (2, .hostCommand p q n rec' data false), (3, .hostReachCmd p q n rec' false),
        (4, .hostReach p q n data false), (5, .hostPlaten p q n data false)] → s.rd RSP_FORME_STS.STATE ≠ 4 →
      ∃ t, exec c s = .next t ∧ job? t p q n = some { j with state := 2, status := ST.HST_DMA, res := [] } ∧
        t.rd HST_DMA_ERR_CNT.COUNT = min (2 ^ 32 - 1) (s.rd HST_DMA_ERR_CNT.COUNT + 1) ∧ { t with job := s.job, regs := s.regs } = s)) ∧
  (∀ (s : State) (p q n : Nat) (j : HostJob), p < 32 → job? s p q n = some j → j.cq < 8 → (∀ i ∈ s.job.jobs, i.part = p → i.ring = q → i.seq = n → i = j) →
    s.job.jobs.Nodup →
    let c := j.cq
    (j.state ≠ 2 ∨ hostStopped s = true ∨ s.flag (HST_CQ_CFG.EN c) p = false ∨ s.flag (HST_CQ_STS.ERR c) p = true ∨ cqSize s p c ≤ cqUsed s p c + 1 → exec (.colophonWrite p q n) s = .next s) ∧
    (j.state = 2 → hostStopped s = false → s.flag (HST_CQ_CFG.EN c) p = true → s.flag (HST_CQ_STS.ERR c) p = false → cqUsed s p c + 1 < cqSize s p c →
      ∃ t l, exec (.colophonWrite p q n) s = .next t ∧ t.out = l ++ .colophon p c (s.rd (HST_CQ_STS.TAIL c) p) (colophonBytes s j) :: s.out ∧ l.length ≤ 1 ∧
        job? t p q n = none ∧ t.rd (HST_CQ_STS.TAIL c) p = (s.rd (HST_CQ_STS.TAIL c) p + 1) % cqSize s p c % 2 ^ 16 ∧
        (s.rd (HST_CQ_STS.TAIL c) p + 1 ≠ cqSize s p c → t.rd (HST_CQ_STS.PHASE c) p = s.rd (HST_CQ_STS.PHASE c) p) ∧
        (s.rd (HST_CQ_STS.TAIL c) p + 1 = cqSize s p c → t.rd (HST_CQ_STS.PHASE c) p = 1 - s.rd (HST_CQ_STS.PHASE c) p) ∧
        t.rd (HST_PRT_CNT.COUNT 1) p = min (2 ^ 32 - 1) (s.rd (HST_PRT_CNT.COUNT 1) p + 1) ∧ t.mem = s.mem)) ∧
  (∀ (s : State) (p c : Nat), KMap.find? s.hst.unsig (ringKey p c) = none → exec (.coalTimeout p c) s = .next s) ∧
  (∀ (s : State) (p c n since : Nat), KMap.find? s.hst.unsig (ringKey p c) = some (n, since) →
    (s.rd (HST_CQ_CFG.COAL_US c) p = 0 ∨ s.now < since + s.rd (HST_CQ_CFG.COAL_US c) p * 1000 → exec (.coalTimeout p c) s = .next s) ∧
    (s.rd (HST_CQ_CFG.COAL_US c) p ≠ 0 → since + s.rd (HST_CQ_CFG.COAL_US c) p * 1000 ≤ s.now →
      ∃ t, exec (.coalTimeout p c) s = .next t ∧ KMap.find? t.hst.unsig (ringKey p c) = none ∧ SameBut s.hst.unsig t.hst.unsig (ringKey p c) ∧ t.mem = s.mem ∧
        (bitOf (KMap.get 0 s.hst.msixOpen p) (s.rd (HST_CQ_CFG.VECTOR c) p) = true → t.out = .msix p (s.rd (HST_CQ_CFG.VECTOR c) p) :: s.out) ∧
        (bitOf (KMap.get 0 s.hst.msixOpen p) (s.rd (HST_CQ_CFG.VECTOR c) p) = false → t.out = s.out)))

/-- A write of HST_PRT_RST with GO, a function-level reset and a loss of the host link start the reset of their partitions;
the reset of the physical function and the loss of the link reset all 32, with VF Enable clear. In a node with no ream,
attempt or press hold, the reset of a partition sets RST_BUSY, turns its active regions into revoking ones and no
other's, drops its descriptors and no other's, and drops and counts its pending interrupts; one that runs already is not
started again. When it completes, RST_BUSY is 0, every ring of the partition is off with its indexes at their start, and
vector 63 is signaled unless the reset was the function's own. PERST_N active is a loss of the link, its release lets
the link train, and a level that has not changed does nothing. The link comes up in a mode of Table 14.1 with 4, 8 or 16
lanes, and in no other.
Rests on R331, R332, R333, R434. -/
def Obligations.HostResetsClearTheirPartition : Prop :=
  (∀ (s : State) (p : Nat), 0 < p → p < 32 →
    ∃ u, exec (.functionLevelReset p) s = .next u ∧ KMap.find? u.hst.msixOpen p = none ∧ (∀ e ∈ u.hst.cfg, e.1 / 4096 ≠ p) ∧
      u.regs = (resetStart p false true s).regs ∧ u.job = (resetStart p false true s).job) ∧
  (∀ s : State, exec (.functionLevelReset 0) s = .next (resetEvery true s) ∧ ∀ p, 32 ≤ p → exec (.functionLevelReset p) s = .next s) ∧
  (∀ (s : State) (v : Nat), (bitOf v 31 = true → exec (.hstPrtRst v) s = .next (resetStart (bits v 0 5) (bitOf v 30) false s)) ∧
    (bitOf v 31 = false → exec (.hstPrtRst v) s = .next s)) ∧
  (∀ (s : State) (p : Nat) (own : Bool), p < 32 → s.flag HST_PRT_STS.RST_BUSY p = false → s.col.reams = [] → s.col.atts = [] → s.plt.holds = [] →
    let t := resetStart p false own s
    t.flag HST_PRT_STS.RST_BUSY p = true ∧ (∀ i, (s.region i).part = p → (s.region i).state = 1 → (t.region i).state = 2) ∧
    (∀ i, (s.region i).part ≠ p → t.region i = s.region i) ∧ t.job.jobs = s.job.jobs.filter (fun j => j.part ≠ p) ∧ KMap.get 0 t.hst.msixPend p = 0 ∧
    t.rd HST_PRT_IRQ.PRT_IRQ_DROP_CNT p = min (2 ^ 32 - 1) (s.rd HST_PRT_IRQ.PRT_IRQ_DROP_CNT p +
      (popCount (KMap.get 0 s.hst.msixPend p) 64 + (s.hst.unsig.filter fun e => e.1 / 8 = p).length)) ∧
    (own = true → p ∈ t.hst.flrOwn) ∧ t.mem = s.mem ∧ t.out = s.out) ∧
  (∀ (s : State) (p : Nat) (own : Bool), s.flag HST_PRT_STS.RST_BUSY p = true → resetStart p false own s = s) ∧
  (∀ (s : State) (p : Nat), p < 32 → (s.flag HST_PRT_STS.RST_BUSY p = false → exec (.partitionResetComplete p) s = .next s) ∧
    (s.flag HST_PRT_STS.RST_BUSY p = true →
      ∃ t, exec (.partitionResetComplete p) s = .next t ∧ t.rd HST_PRT_STS.RST_BUSY p = 0 ∧
        (∀ q < 8, t.rd (HST_SQ_CFG.EN q) p = 0 ∧ t.rd (HST_SQ_STS.HEAD q) p = 0 ∧ t.rd (HST_SQ_STS.ERR q) p = 0 ∧ sqTail t p q = 0 ∧
          t.rd (HST_CQ_CFG.EN q) p = 0 ∧ t.rd (HST_CQ_STS.TAIL q) p = 0 ∧ t.rd (HST_CQ_STS.PHASE q) p = 1 ∧ cqHead t p q = 0) ∧
        p ∉ t.hst.flrOwn ∧ t.mem = s.mem ∧
        (s.hst.flrOwn.contains p = true → t.out = s.out ∧ t.hst.msixPend = s.hst.msixPend) ∧
        (s.hst.flrOwn.contains p = false → t.out = .msix p 63 :: s.out ∨ bitOf (KMap.get 0 t.hst.msixPend p) 63 = true))) ∧
  (∀ s : State, ∃ u : State, u.rd HST_LINK_STS.UP = 0 ∧ u.rd HST_LINK_STS.CXL = 0 ∧ u.rd HST_LINK_STS.IDE = 0 ∧ (u.ide 0).go = false ∧ u.mem = s.mem ∧
    exec .hostLinkLoss s = .next (resetEvery false u)) ∧
  (∀ s : State, (inputActive s 1 = s.hst.perst → exec .perstN s = .next s) ∧
    (inputActive s 1 = false → s.hst.perst = true → exec .perstN s = .next { s with hst.perst := false }) ∧
    (inputActive s 1 = true → s.hst.perst = false → exec .perstN s = exec .hostLinkLoss { s with hst.perst := true })) ∧
  (∀ (s : State) (speed width cxl : Nat) (flit : Bool), let modes := [(64, 0, true), (64, 3, true), (32, 0, false), (32, 1, false), (32, 2, false), (16, 0, false), (16, 1, false)]
    s.hst.perst = true ∨ nodeHeld s = true ∨ s.flag HST_LINK_STS.UP = true ∨ width ∉ [4, 8, 16] ∨ (speed, cxl, flit) ∉ modes →
    exec (.hostLinkUp speed width cxl flit) s = .next s) ∧
  (∀ (s : State) (speed width cxl : Nat) (flit : Bool), s.hst.perst = false → nodeHeld s = false → s.flag HST_LINK_STS.UP = false →
    (speed, cxl, flit) ∈ [(64, 0, true), (64, 3, true), (32, 0, false), (32, 1, false), (32, 2, false), (16, 0, false), (16, 1, false)] → width ∈ [4, 8, 16] →
    ∃ t, exec (.hostLinkUp speed width cxl flit) s = .next t ∧ t.rd HST_LINK_STS.UP = 1 ∧ t.rd HST_LINK_STS.SPEED = speed ∧
      t.rd HST_LINK_STS.WIDTH = width ∧ t.rd HST_LINK_STS.CXL = cxl ∧ t.rd HST_LINK_STS.FLIT = b2n flit ∧
      RegsOnly s t [HST_LINK_STS.UP.key 0, HST_LINK_STS.SPEED.key 0, HST_LINK_STS.WIDTH.key 0, HST_LINK_STS.CXL.key 0, HST_LINK_STS.FLIT.key 0])

/-- A decoder whose window is enabled and whose size is the window's is committed, any other takes its error. A CXL request
that no committed decoder covers does nothing; one that is covered is an access of the window's partition at the
window's place, and a fenced partition's is refused and counted. A poisoned read is counted. Before step 8 a
configuration request is retried; after it a dword that was written is held, and the VF controls act on the physical
function, where clearing VF Enable resets the virtual ones. The mailbox answers identify, health information, and no
other command. A tier port's link comes up within its mode, degraded when narrower or slower, and never beyond its mode;
when it goes down its transfers fail and its IDE stream stops. A tier port's PERST rises 100 ms after the port was
enabled.
Rests on R214, R224, R311, R313, R314, R315, R373, R377, R434, R439. -/
def Obligations.HostWindowsReachTheirPartition : Prop :=
  (∀ (s : State) (w base size : Nat), s.rd HST_LINK_STS.CXL ≠ 0 → w < 32 → (s.rd HST_LINK_STS.CXL = 1 → w = 0) →
    let ok := s.flag HST_WIN_CFG.EN w && size == winSize s w
    ∃ t, exec (.hdmDecoderCommit w base size) s = .next t ∧ t.hdm w = { base := base, size := size, committed := ok, error := !ok } ∧
      SameBut s.hst.hdm t.hst.hdm w ∧ { t with hst.hdm := s.hst.hdm } = s) ∧
  (∀ (s : State) (hpa fails : Nat) (data : Bytes),
    (decodeHpa s hpa = none → exec (.cxlMemWrite hpa data fails) s = .next s) ∧
    (decodeHpa s (hpa - hpa % 64) = none → exec (.cxlMemRead hpa fails) s = .next s) ∧
    (∀ w off, decodeHpa s hpa = some (w, off) →
      (s.hdm w).committed = true ∧ s.flag HST_WIN_CFG.EN w = true ∧ off = winBase s w + (hpa - (s.hdm w).base) ∧ hpa < (s.hdm w).base + (s.hdm w).size ∧
      (partFenced s (s.rd HST_WIN_CFG.PART w) = false →
        exec (.cxlMemWrite hpa data fails) s = .next (access { write := true, part := s.rd HST_WIN_CFG.PART w, off := off, data := data, crcFails := fails } (hostIn data.length s))) ∧
      (partFenced s (s.rd HST_WIN_CFG.PART w) = true → ∀ c, c = Instr.cxlMemWrite hpa data fails ∨ (c = .cxlMemRead hpa fails ∧ hpa % 64 = 0) →
        ∃ t, exec c s = .next t ∧ t.mem = s.mem ∧ t.rd GUT_XPART_CNT.COUNT = min (2 ^ 32 - 1) (s.rd GUT_XPART_CNT.COUNT + 1))) ∧
    (∀ w off, decodeHpa s hpa = some (w, off) → hpa % 64 = 0 → partFenced s (s.rd HST_WIN_CFG.PART w) = false →
      let t := access { part := s.rd HST_WIN_CFG.PART w, off := off, len := 64, crcFails := fails } (s.addWrap HST_TX_BYTES.BYTES 0 64)
      ((∀ p a d rest, t.out ≠ .readData p a d true ST.POISON :: rest) → exec (.cxlMemRead hpa fails) s = .next t) ∧
      (∀ a d rest, t.out = .readData (s.rd HST_WIN_CFG.PART w) a d true ST.POISON :: rest → s.out.length < t.out.length →
        rangePoison s (off - off % 64) 64 = true → ownerAllows (setOwner s (offStack off) (offSet off)) (s.rd HST_WIN_CFG.PART w) = true →
        exec (.cxlMemRead hpa fails) s = .next (t.bump (RAS_CNT.COUNT 5))))) ∧
  (∀ (s : State) (f : Nat) (req : CfgReq),
    (s.flag HST_LINK_STS.UP = false ∨ hostStopped s = true ∨ 32 ≤ f → exec (.configurationRequest f req) s = .next s) ∧
    (s.flag HST_LINK_STS.UP = true → hostStopped s = false → f < 32 →
      (s.fme.applied = false → exec (.configurationRequest f req) s = .next (s.emit (.cfg f true 0))) ∧
      (s.fme.applied = true →
        (∀ d, exec (.configurationRequest f (.read d)) s = .next (s.emit (.cfg f false (cfgRead f (d % 1024) s)))) ∧
        (∀ d v, ∃ t, exec (.configurationRequest f (.write d v)) s = .next t ∧ KMap.find? t.hst.cfg (4096 * f + d % 1024) = some (v % 2 ^ 32) ∧
          SameBut s.hst.cfg t.hst.cfg (4096 * f + d % 1024) ∧ t.out = .cfg f false 0 :: s.out ∧ { t with hst.cfg := s.hst.cfg, out := s.out } = s) ∧
        (∀ n, ∃ t, exec (.configurationRequest f (.numVfs n)) s = .next t ∧
          t.hst.numVfs = (if f = 0 ∧ s.hst.vfEnable = false ∧ n ≤ 31 then n else s.hst.numVfs) ∧ t.regs = s.regs) ∧
        (∀ on, ∃ t, exec (.configurationRequest f (.vfEnable on)) s = .next t ∧ t.hst.vfEnable = (if f = 0 then on else s.hst.vfEnable) ∧
          (f ≠ 0 ∨ on = true ∨ s.hst.vfEnable = false → t.regs = s.regs)) ∧
        (f = 0 → s.hst.vfEnable = true → exec (.configurationRequest f (.vfEnable false)) s = .next ((resetVfs false s).emit (.cfg 0 false 0)))))) ∧
  (∀ (s : State) (op : Nat),
    (s.flag HST_LINK_STS.UP = false ∨ hostStopped s = true ∨ s.rd HST_LINK_STS.CXL = 0 → exec (.cxlMailboxCommand op) s = .next s) ∧
    (s.flag HST_LINK_STS.UP = true → hostStopped s = false → s.rd HST_LINK_STS.CXL ≠ 0 →
      ∃ t b, exec (.cxlMailboxCommand op) s = .next t ∧ t.out = .mboxAnswer b :: s.out ∧ t.hst.mbox = b ∧ t.regs = s.regs ∧ t.mem = s.mem ∧
        (op = 0x4000 → b = natLe 2 0 ++ Config.cxlIdentify) ∧ (op = 0x4200 → ∃ n, b = natLe 2 0 ++ Config.cxlHealth n) ∧
        (op ≠ 0x4000 → op ≠ 0x4200 → b = natLe 2 0x15))) ∧
  (∀ (s : State) (p speed width : Nat), p < 4 →
    (nodeHeld s = false → s.flag (TIER_PORT_CFG.EN p) = true → bitOf s.pcm.tierPerst p = true → s.flag (TIER_PORT_STS.UP p) = false →
      0 < width → width ≤ 16 → 0 < speed → speed ≤ tierRate s p →
      ∃ t, exec (.tierLinkUp p speed width) s = .next t ∧ t.rd (TIER_PORT_STS.UP p) = 1 ∧ t.rd (TIER_PORT_STS.SPEED p) = speed ∧
        t.rd (TIER_PORT_STS.WIDTH p) = width ∧ (t.rd (TIER_PORT_STS.DEGRADED p) = 1 ↔ (width < 16 ∨ speed < tierRate s p)) ∧ { t with regs := s.regs } = s) ∧
    (nodeHeld s = true ∨ s.flag (TIER_PORT_CFG.EN p) = false ∨ bitOf s.pcm.tierPerst p = false ∨ s.flag (TIER_PORT_STS.UP p) = true ∨
      width = 0 ∨ 16 < width ∨ speed = 0 ∨ tierRate s p < speed → exec (.tierLinkUp p speed width) s = .next s) ∧
    (s.flag (TIER_PORT_STS.UP p) = false → exec (.tierLinkDown p) s = .next s) ∧
    (s.flag (TIER_PORT_STS.UP p) = true →
      let served := fun e : FetchEnt => e.moving && refPool (runRef s e.conv e.layer) == s.rd (TIER_PORT_CFG.POOL p)
      ∃ u, u.rd (TIER_PORT_STS.UP p) = 0 ∧ u.rd (TIER_PORT_STS.SPEED p) = 0 ∧ u.rd (TIER_PORT_STS.WIDTH p) = 0 ∧ u.rd (TIER_PORT_STS.DEGRADED p) = 0 ∧
        (u.ide (1 + p)).go = false ∧ u.tier = s.tier ∧ u.mem = s.mem ∧
        (s.tier.fetchq.find? served = none → exec (.tierLinkDown p) s = .next u) ∧
        (∀ e, s.tier.fetchq.find? served = some e → exec (.tierLinkDown p) s = .next (failFetch e.conv e.layer 3 (runOffsetAt u e.conv e.layer p) u))) ∧
    (∀ at', s.flag (TIER_PORT_CFG.EN p) = true → nodeHeld s = false → KMap.find? s.pcm.tierOnAt p = some at' → at' + 100000000 ≤ s.now →
      ∃ t, exec (.tierPerstRise p) s = .next t ∧ bitOf t.pcm.tierPerst p = true ∧ (∀ q, q ≠ p → bitOf t.pcm.tierPerst q = bitOf s.pcm.tierPerst q) ∧
        { t with pcm.tierPerst := s.pcm.tierPerst } = s) ∧
    (s.flag (TIER_PORT_CFG.EN p) = false ∨ nodeHeld s = true ∨ (∀ at', KMap.find? s.pcm.tierOnAt p = some at' → s.now < at' + 100000000) →
      exec (.tierPerstRise p) s = .next s))

/-- A key message that the responder takes up in its session is refused by the first row of Table 15.5 that applies, and
changes no slot. KEY_LOAD that passes opens its slot with its generation and keys, counted; an open or closing slot is
busy, and a generation below the floor is refused. KEY_RETIRE and a write of RSP_KEY_CMD close an open slot: its keys
are gone, its floor is one past its generation and it waits for the drain; no generation of it is open; a slot that is
not open stays as it is, with ST_OK. KEY_QUERY changes no slot. Each is answered with the slot's state. A drain covers
the retirements that wait, with every participant pending; it begins only when one waits and none runs. A participant
that still has older work waits; one that has none clears its bit, a galley slice having dropped the lines of the
covered slots, and the last frees every covered slot, or exhausts it at a floor of 65,536. A drain one microsecond past
its limit is marked late, once.
Rests on R346, R347, R348, R349, R350, R351. -/
def Obligations.KeysOpenOnceAndAreDrained : Prop :=
  (∀ (s : State) (n op : Nat) (msg : Bytes) (x : Session) (st : Nat), KeyHeard s n op msg x → keyRefuse s x msg = some st → st ≠ ST.KEY_AUTH →
    let t := { s with key.sessions := KMap.insert s.key.sessions n { x with last := s.now },
                      out := .spdm n (keyAnswer op st (keyMsg msg).slot s) :: s.out }
    (op = 1 → exec (.keyLoad n msg) s = .next t) ∧ (op = 2 → exec (.keyRetire n msg) s = .next t) ∧ (op = 3 → exec (.keyQuery n msg) s = .next t)) ∧
  (∀ (s : State) (n : Nat) (msg : Bytes) (x : Session), KeyTalk s n 1 msg x →
    let m := keyMsg msg
    let k := keySlot s m.slot
    (k.state ≠ 1 → k.state ≠ 2 → k.floor ≤ m.gen →
      ∃ t, exec (.keyLoad n msg) s = .next t ∧
        keySlot t m.slot = { k with state := 1, gen := m.gen, part := m.part, key1 := m.key1, key2 := m.key2 } ∧ keyOpen t m.slot m.gen = true ∧
        SameBut s.key.slots t.key.slots m.slot ∧ t.rd (RSP_CNT.COUNT 0) = min (2 ^ 32 - 1) (s.rd (RSP_CNT.COUNT 0) + 1) ∧
        t.out = .spdm n (keyAnswer 1 ST.OK m.slot t) :: s.out ∧ SameRegs s t [(RSP_CNT.COUNT 0).key 0]) ∧
    (k.state = 1 ∨ k.state = 2 → ∃ t, exec (.keyLoad n msg) s = .next t ∧ t.out = .spdm n (keyAnswer 1 ST.KEY_BUSY m.slot s) :: s.out ∧ t.key.slots = s.key.slots) ∧
    (k.state ≠ 1 → k.state ≠ 2 → m.gen < k.floor →
      ∃ t, exec (.keyLoad n msg) s = .next t ∧ t.out = .spdm n (keyAnswer 1 ST.KEY_GEN m.slot s) :: s.out ∧ t.key.slots = s.key.slots)) ∧
  (∀ (s : State) (n : Nat) (msg : Bytes) (x : Session), KeyTalk s n 2 msg x →
    let m := keyMsg msg
    let k := keySlot s m.slot
    (k.state = 1 → k.part = m.part →
      ∃ t, exec (.keyRetire n msg) s = .next t ∧ keySlot t m.slot = { k with state := 2, floor := k.gen + 1, key1 := 0, key2 := 0 } ∧
        (∀ g, keyOpen t m.slot g = false) ∧ t.key.waiting = s.key.waiting ++ [m.slot] ∧ SameBut s.key.slots t.key.slots m.slot ∧
        t.out = .spdm n (keyAnswer 2 ST.OK m.slot t) :: s.out) ∧
    (k.state ≠ 1 → ∃ t, exec (.keyRetire n msg) s = .next t ∧ t.key.slots = s.key.slots ∧ t.key.waiting = s.key.waiting ∧
        t.out = .spdm n (keyAnswer 2 ST.OK m.slot s) :: s.out) ∧
    (k.state = 1 → k.part ≠ m.part → ∃ t, exec (.keyRetire n msg) s = .next t ∧ t.key.slots = s.key.slots ∧ t.out = .spdm n (keyAnswer 2 ST.KEY_SLOT m.slot s) :: s.out)) ∧
  (∀ (s : State) (n : Nat) (msg : Bytes) (x : Session), KeyTalk s n 3 msg x →
    ∃ t, exec (.keyQuery n msg) s = .next t ∧ t.out = .spdm n (keyAnswer 3 ST.OK (keyMsg msg).slot s) :: s.out ∧
      { t with out := s.out, key.sessions := s.key.sessions } = s) ∧
  (∀ (s : State) (who : Requester) (v : Nat),
    let i := s.rd RSP_KEY_SEL.SLOT (whoIx who)
    (bitOf v 31 = false ∨ (keySlot s i).state ≠ 1 → exec (.rspKeyRetire who v) s = .next s) ∧
    (bitOf v 31 = true → (keySlot s i).state = 1 →
      ∃ t, exec (.rspKeyRetire who v) s = .next t ∧ keySlot t i = { keySlot s i with state := 2, floor := (keySlot s i).gen + 1, key1 := 0, key2 := 0 } ∧
        t.key.waiting = s.key.waiting ++ [i] ∧ t.rd (RSP_CNT.COUNT 1) = min (2 ^ 32 - 1) (s.rd (RSP_CNT.COUNT 1) + 1) ∧
        RegsOnly s { t with key.slots := s.key.slots, key.waiting := s.key.waiting } [(RSP_CNT.COUNT 1).key 0])) ∧
  (∀ s : State, (s.key.waiting = [] ∨ s.flag RSP_DRAIN_STS.BUSY = true → exec .drainAdvance s = .next s) ∧
    (s.key.waiting ≠ [] → s.flag RSP_DRAIN_STS.BUSY = false →
      ∃ t, exec .drainAdvance s = .next t ∧ t.key.covered = s.key.waiting ∧ t.key.waiting = [] ∧ t.rd RSP_DRAIN_STS.PEND = 2 ^ 28 - 1 ∧
        t.rd RSP_DRAIN_STS.BUSY = 1 ∧ t.rd RSP_DRAIN_EPOCH.EPOCH = (s.rd RSP_DRAIN_EPOCH.EPOCH + 1) % 2 ^ 32 ∧ t.key.slots = s.key.slots ∧
        t.key.drainAt = s.now ∧ t.key.lateSaid = false ∧ t.key.drainOld = workNow s ∧ t.out = s.out ∧ t.mem = s.mem)) ∧
  (∀ (s : State) (b : Nat), b < 28 →
    (s.flag RSP_DRAIN_STS.BUSY = false ∨ bitOf (s.rd RSP_DRAIN_STS.PEND) b = false ∨ drainBusy b s = true → exec (.drainAck b) s = .next s) ∧
    (s.flag RSP_DRAIN_STS.BUSY = true → s.rd RSP_DRAIN_STS.PEND < 2 ^ 28 → bitOf (s.rd RSP_DRAIN_STS.PEND) b = true → drainBusy b s = false →
      ∃ t, exec (.drainAck b) s = .next t ∧ t.mem = s.mem ∧
        (8 ≤ b → b < 12 → ∀ i w, w < 16 → i < 16384 → s.key.covered.contains (galLine s (galKey (b - 8) i w)).slot = true → (galLine t (galKey (b - 8) i w)).valid = false) ∧
        (s.rd RSP_DRAIN_STS.PEND ≠ 2 ^ b → t.rd RSP_DRAIN_STS.PEND = s.rd RSP_DRAIN_STS.PEND - 2 ^ b ∧ t.flag RSP_DRAIN_STS.BUSY = true ∧ t.key = s.key) ∧
        (s.rd RSP_DRAIN_STS.PEND = 2 ^ b → t.rd RSP_DRAIN_STS.PEND = 0 ∧ t.rd RSP_DRAIN_STS.BUSY = 0 ∧ t.key.covered = [] ∧
          t.rd (RSP_CNT.COUNT 2) = min (2 ^ 32 - 1) (s.rd (RSP_CNT.COUNT 2) + 1) ∧
          (∀ n, n ∈ s.key.covered → keySlot t n = { keySlot s n with state := if (keySlot s n).floor = 65536 then 3 else 0 }) ∧
          (∀ n, n ∉ s.key.covered → keySlot t n = keySlot s n)))) ∧
  (∀ s : State, s.flag RSP_DRAIN_STS.BUSY = true →
    (s.key.lateSaid = true ∨ s.now < s.key.drainAt + (s.rd RSP_DRAIN_CFG.LIMIT_US + 1) * 1000 → exec .drainLate s = .next s) ∧
    (s.key.lateSaid = false → s.key.drainAt + (s.rd RSP_DRAIN_CFG.LIMIT_US + 1) * 1000 ≤ s.now →
      ∃ t, exec .drainLate s = .next t ∧ t.rd RSP_DRAIN_STS.LATE = 1 ∧ t.key.lateSaid = true ∧ exec .drainLate t = .next t ∧ t.key.slots = s.key.slots ∧ t.mem = s.mem))

/-- For every state, so for every alarm table, a write of RSP_ALARM_TEST with GO set sets the bit of the named source in
RSP_ALARM_STS and no other, writes the source and level 0 to RSP_ALARM_LOG with its count one more, counts the alarm in
RSP_CNT7 and reports to the chip handler. Nothing else changes but the note that a response of that level was carried
out for the source: no fence, no key, no memory, no other register than the chip handler's lost-record flag and count. A
write without GO changes nothing.
States R363. -/
def Obligations.AlarmTestOnlyLogs : Prop :=
  ∀ (s : State) (v : Nat),
    (bitOf v 7 = false → exec (.alarmTest v) s = .next s) ∧
    (bitOf v 7 = true → ∃ t, exec (.alarmTest v) s = .next t ∧
      bitOf (t.rd RSP_ALARM_STS.SRC) (v % 8) = true ∧ (∀ i < 8, i ≠ v % 8 → bitOf (t.rd RSP_ALARM_STS.SRC) i = bitOf (s.rd RSP_ALARM_STS.SRC) i) ∧
      t.rd RSP_ALARM_LOG.SRC = v % 8 ∧ t.rd RSP_ALARM_LOG.LEVEL = 0 ∧ t.rd RSP_ALARM_LOG.COUNT = min 255 (s.rd RSP_ALARM_LOG.COUNT + 1) ∧
      t.rd (RSP_CNT.COUNT 7) = min (2 ^ 32 - 1) (s.rd (RSP_CNT.COUNT 7) + 1) ∧
      ((s.hand .chip).cur = none → (t.hand .chip).cur = some { sev := 0, subsys := 17, cause := Config.causeCode (100 + v % 8), level := 3, time := s.rd TIME_NOW.NS }) ∧
      ((s.hand .chip).cur ≠ none → (s.hand .chip).queue.length < 32 → (t.hand .chip).queue.length = (s.hand .chip).queue.length + 1) ∧
      t.key.carried = KMap.put 0 s.key.carried (v % 8) (max (if bitOf (s.rd RSP_ALARM_STS.SRC) (v % 8) then KMap.get 0 s.key.carried (v % 8) else 0) 1) ∧
      { t with regs := s.regs, ras.handlers := s.ras.handlers, key.carried := s.key.carried } = s ∧
      SameRegs s t [RSP_ALARM_STS.SRC.key 0, RSP_ALARM_LOG.SRC.key 0, RSP_ALARM_LOG.LEVEL.key 0, RSP_ALARM_LOG.COUNT.key 0, (RSP_CNT.COUNT 7).key 0,
        (RAS_QSTS.OVF 4).key 0, (RAS_QSTS.LOST 4).key 0])

/-- An alarm of one source, new or not yet answered so high, sets its bit, logs it and is answered at the level of the alarm
table: 0 logs only, 1 fences the partition, 2 fences the node, 3 zeroizes and fences; one answered as high while its bit
was set is logged only; a mask of none does nothing. RSP_ZEROIZE of 0x5A leaves no key, no link key, no running IDE
stream and no Alias key, sets the latch and fences the node; any other value does nothing. A rehash, which a running
responder makes every 100 ms, does nothing where the digest agrees, and raises DIGEST where it differs. A partition
fence marks its partition, resets it and shuts the clocks of its blocks. A region fence marks the region, fences its 16
blocks, drops what its stacks hold for a press, refuses what waits at them and empties its galley slice. A node fence
sets FENCED with its cause, fails every attempt with ST_FENCED and shuts every block's clock. A fence that stands stays,
and partition 0 is never fenced. In a node where nothing runs, no fence changes memory, and none touches another
partition's or region's. A write of ones lifts the partition fences whose reset has ended.
Rests on R345, R360, R361, R362, R376, R377, R378, R380. -/
def Obligations.AlarmsAndFencesContain : Prop :=
  (∀ (s : State) (m p : Nat), (m % 256 = 0 → exec (.alarm m p) s = .next s) ∧ (m % 256 ≠ 0 → exec (.alarm m p) s = .next (alarm (bitList m 8) (some p) s))) ∧
  (∀ (s : State) (i p : Nat), i < 8 → bitOf (s.rd RSP_ALARM_STS.SRC) i = false →
    let l := s.rd (RSP_ALARM_LVL.LVL i)
    ∃ u : State, bitOf (u.rd RSP_ALARM_STS.SRC) i = true ∧ u.rd RSP_ALARM_LOG.SRC = i ∧ u.rd RSP_ALARM_LOG.LEVEL = l % 256 ∧
      u.rd (RSP_CNT.COUNT 7) = min (2 ^ 32 - 1) (s.rd (RSP_CNT.COUNT 7) + 1) ∧ u.mem = s.mem ∧ u.key.slots = s.key.slots ∧
      (l = 0 → exec (.alarm (2 ^ i) p) s = .next u) ∧ (l = 1 → exec (.alarm (2 ^ i) p) s = .next (fencePart p u)) ∧
      (l = 2 → exec (.alarm (2 ^ i) p) s = .next (fenceNode 2 u)) ∧ (l = 3 → exec (.alarm (2 ^ i) p) s = .next (fenceNode 2 (zeroize u)))) ∧
  (∀ (s : State) (i p : Nat), i < 8 → bitOf (s.rd RSP_ALARM_STS.SRC) i = true → s.rd (RSP_ALARM_LVL.LVL i) + 1 ≤ KMap.get 0 s.key.carried i →
    ∃ t, exec (.alarm (2 ^ i) p) s = .next t ∧ t.rd RSP_ALARM_LOG.SRC = i ∧ t.rd RAS_NODE_STS.STATE = s.rd RAS_NODE_STS.STATE ∧
      t.rd RAS_PFENCE_STS.FENCED = s.rd RAS_PFENCE_STS.FENCED ∧ t.key = s.key ∧ t.mem = s.mem) ∧
  (∀ (s : State) (v : Nat), (v % 256 ≠ 0x5A → exec (.zeroizeConfirm v) s = .next s) ∧
    (v % 256 = 0x5A → ∃ u, exec (.zeroizeConfirm v) s = .next (fenceNode 4 u) ∧ u.key.zeroized = true ∧ u.key.links = [] ∧ u.key.aliasKey = none ∧
      (∀ n, (keySlot u n).state ≠ 1 ∧ ((keySlot s n).state = 1 → (keySlot u n).key1 = 0 ∧ (keySlot u n).key2 = 0 ∧ (keySlot u n).floor = (keySlot s n).gen + 1)) ∧
      (∀ n, (u.ide n).go = false ∧ (u.ide n).keys = []) ∧ u.mem = s.mem)) ∧
  (∀ (s : State) (us : List (Nat × Nat)),
    (rspRuns s = false ∨ s.due .rehash 100000000 = false → exec (.formeRehash us) s = .next s) ∧
    (rspRuns s = true → s.due .rehash 100000000 = true →
      let u := { s with periods := KMap.insert s.periods Period.rehash.ix s.now }
      (s.fme.active.secs = [] ∨ Config.sha384 (upsetBytes s.fme.active.bytes us) = formeDigest s → exec (.formeRehash us) s = .next u) ∧
      (s.fme.active.secs ≠ [] → Config.sha384 (upsetBytes s.fme.active.bytes us) ≠ formeDigest s → exec (.formeRehash us) s = .next (alarm [4] none u)))) ∧
  (∀ (s : State) (p : Nat), (p = 0 ∨ 32 ≤ p ∨ partFenced s p = true → exec (.partitionFence p) s = .next s) ∧
    (0 < p → p < 32 → partFenced s p = false →
      exec (.partitionFence p) s = .next ((List.range 64).foldl (fun s b => if blockOwner s b = some p then gateShut b s else s)
        (resetStart p false false ((s.raise RAS_PFENCE_STS.FENCED 0 (2 ^ p)).bump (RAS_CNT.COUNT 6))))) ∧
    (0 < p → p < 32 → partFenced s p = false → NothingRuns s → s.flag HST_PRT_STS.RST_BUSY p = false →
      ∃ t, exec (.partitionFence p) s = .next t ∧ partFenced t p = true ∧ (∀ q < 32, q ≠ p → partFenced t q = partFenced s q) ∧
        t.flag HST_PRT_STS.RST_BUSY p = true ∧ (∀ i, (s.region i).part = p → (s.region i).state = 1 → (t.region i).state = 2) ∧
        (∀ b < 64, blockOwner s b = some p → t.rd CMP_SEQ_STS.CLK_ON b = 0) ∧ t.mem = s.mem)) ∧
  (∀ (s : State) (r : Nat), (4 ≤ r ∨ regionFenced s r = true → exec (.regionFence r) s = .next s) ∧
    (r < 4 → regionFenced s r = false →
      let u := (List.range 16).foldl (fun s b => if blkFenced s (16 * r + b) then s else fenceBlock (16 * r + b) s)
        ((s.raise RAS_RFENCE_STS.FENCED 0 (2 ^ r)).bump (RAS_CNT.COUNT 6))
      exec (.regionFence r) s = .next (galDrop r (fun _ _ => true)
        (serveWaiting (2 * r + 1) (serveWaiting (2 * r) (gangsServe (dropStack (2 * r + 1) (dropStack (2 * r) u))))))) ∧
    (r < 4 → regionFenced s r = false → NothingRuns s →
      ∃ t, exec (.regionFence r) s = .next t ∧ regionFenced t r = true ∧ (∀ q < 4, q ≠ r → regionFenced t q = regionFenced s q) ∧
        (∀ i < 16, blkFenced t (16 * r + i) = true) ∧ (∀ b < 64, b / 16 ≠ r → blkFenced t b = blkFenced s b) ∧ t.mem = s.mem)) ∧
  (∀ s : State, (s.rd RAS_NODE_STS.STATE = 3 → exec .nodeFence s = .next s) ∧
    (s.rd RAS_NODE_STS.STATE ≠ 3 →
      let u := (List.range 64).foldl (fun s b => gateShut b s) (s.col.atts.foldl (fun s e => failAtt e.1 ST.FENCED s)
        (((s.wr RAS_NODE_STS.STATE 0 3).wr RAS_NODE_STS.FENCE_CAUSE 0 4).bump (RAS_CNT.COUNT 6)))
      exec .nodeFence s = .next (if u.flag RAS_CFG.FENCE_LINKS then (List.range 24).foldl (fun s c => portFall c 0 0 s) u else u)) ∧
    (s.rd RAS_NODE_STS.STATE ≠ 3 → NothingRuns s → s.flag RAS_CFG.FENCE_LINKS = false →
      ∃ t, exec .nodeFence s = .next t ∧ t.rd RAS_NODE_STS.STATE = 3 ∧ t.rd RAS_NODE_STS.FENCE_CAUSE = 4 ∧ (∀ b < 64, t.rd CMP_SEQ_STS.CLK_ON b = 0) ∧
        t.rd (RAS_CNT.COUNT 6) = min (2 ^ 32 - 1) (s.rd (RAS_CNT.COUNT 6) + 1) ∧ t.mem = s.mem ∧ t.key = s.key)) ∧
  (∀ (s : State) (m : Nat), ∃ t, exec (.partitionUnfence m) s = .next t ∧
    (∀ p < 32, partFenced t p = (partFenced s p && !(bitOf m p && !s.flag HST_PRT_STS.RST_BUSY p))) ∧ RegsOnly s t [RAS_PFENCE_STS.FENCED.key 0])

/-- A record goes to its handler, a fatal one to the chip's: an idle handler takes it, a busy one queues it, a full queue
loses it with the overflow flag and count of the queue. Two fatal records fence the node at once; a contained one of the
unit being handled is counted and entered one level up, marked ESCALATED, at the chip as a fatal one. A handler that
retires an entry contains it and appends it to the log with its level and ACTION, counted by severity; with 512 unread
it is lost and counted. The next entry is a fatal one, else the oldest. Contained records of a cell and records of a
platen unit pass up unlogged. A record at IRQ_SEV or above signals vector 62 and goes to the management controller. A
fatal record fences the node; an escalated one fences its block, its region, or disables its stack's platen units; a
contained one that cannot be confined more narrowly (an operand says so, the model's choice) fences its partition. A
handler past its bound is marked and raises a fatal record, and a chip handler past the fatal bound fences the node;
within its bound, or idle, nothing happens.
Rests on R366, R367, R368, R369, R370, R371, R372. -/
def Obligations.ErrorsAreHandledAndLogged : Prop :=
  (∀ (s : State) (h : Handler) (r : ErrRec),
    let g := if r.sev = 3 then .chip else h
    let x := s.hand g
    let m := received s h r
    (x.cur = none → ∃ t, exec (.errorReport h r) s = .next t ∧ t.hand g = { x with cur := some m, since := s.now } ∧
      { t with ras.handlers := s.ras.handlers } = s ∧ SameBut s.ras.handlers t.ras.handlers (handlerIx g)) ∧
    (∀ c, x.cur = some c → collides g c r = false → x.queue.length < handlerCap g → ∃ t, exec (.errorReport h r) s = .next t ∧
      t.hand g = { x with queue := x.queue ++ [m] } ∧ { t with ras.handlers := s.ras.handlers } = s ∧ SameBut s.ras.handlers t.ras.handlers (handlerIx g)) ∧
    (∀ c, x.cur = some c → collides g c r = false → handlerCap g ≤ x.queue.length → ∃ t, exec (.errorReport h r) s = .next t ∧
      t.ras.handlers = s.ras.handlers ∧
      (∀ b e, g = .cell b e → b < 64 → t.rd CMP_ERRQ_STS.CELL_OVF b = 1 ∧ t.rd CMP_ERRQ_STS.CELL_LOST b = min 255 (s.rd CMP_ERRQ_STS.CELL_LOST b + 1)) ∧
      (∀ b, g = .block b → b < 64 → t.rd CMP_ERRQ_STS.BLK_OVF b = 1 ∧ t.rd CMP_ERRQ_STS.BLK_LOST b = min 255 (s.rd CMP_ERRQ_STS.BLK_LOST b + 1)) ∧
      (∀ k u, g = .platen k u → k < 8 → t.rd (PLT_CNT.COUNT 7) k = min (2 ^ 32 - 1) (s.rd (PLT_CNT.COUNT 7) k + 1)) ∧
      (∀ k, g = .region k → k < 4 → t.rd (RAS_QSTS.OVF k) = 1 ∧ t.rd (RAS_QSTS.LOST k) = min 65535 (s.rd (RAS_QSTS.LOST k) + 1)) ∧
      (g = .chip → t.rd (RAS_QSTS.OVF 4) = 1 ∧ t.rd (RAS_QSTS.LOST 4) = min 65535 (s.rd (RAS_QSTS.LOST 4) + 1) ∧
        (r.sev = 3 → t.rd RAS_NODE_STS.STATE = 3 ∧ t.rd RAS_NODE_STS.FENCE_CAUSE = 1))) ∧
    (∀ c, x.cur = some c → r.sev = 3 → c.sev = 3 → exec (.errorReport h r) s = .next (fenceNow 1 s)) ∧
    (∀ c, x.cur = some c → g ≠ .chip → r.sev = 2 → c.sev = 2 →
      exec (.errorReport h r) s = .next (enter 4 (handlerUp g) { m with escalated := true } (s.bump (RAS_CNT.COUNT 4)))) ∧
    (∀ c, x.cur = some c → g ≠ .chip → r.sev = 2 → c.sev = 2 → (s.hand (handlerUp g)).cur = none → ∃ t, exec (.errorReport h r) s = .next t ∧
      (t.hand (handlerUp g)).cur = some { m with escalated := true } ∧ t.rd (RAS_CNT.COUNT 4) = min (2 ^ 32 - 1) (s.rd (RAS_CNT.COUNT 4) + 1) ∧
      SameBut s.ras.handlers t.ras.handlers (handlerIx (handlerUp g)) ∧ RegsOnly s { t with ras.handlers := s.ras.handlers } [(RAS_CNT.COUNT 4).key 0]) ∧
    (∀ c, x.cur = some c → g = .chip → r.sev = 2 → c.sev = 2 → r.subsys = c.subsys → x.queue.length < 32 → ∃ t, exec (.errorReport h r) s = .next t ∧
      t.hand .chip = { x with queue := x.queue ++ [{ m with escalated := true, sev := 3 }] } ∧
      t.rd (RAS_CNT.COUNT 4) = min (2 ^ 32 - 1) (s.rd (RAS_CNT.COUNT 4) + 1) ∧ RegsOnly s { t with ras.handlers := s.ras.handlers } [(RAS_CNT.COUNT 4).key 0])) ∧
  (∀ (s : State) (h : Handler) (w : Bool), (s.hand h).cur = none → exec (.errorRetire h w) s = .next s) ∧
  (∀ (s : State) (h : Handler) (w : Bool) (r : ErrRec), (s.hand h).cur = some r →
    (passesUp h r = true → exec (.errorRetire h w) s = .next ((enter 5 (handlerUp h) r s).setHand h (retiredHand s h))) ∧
    (passesUp h r = false →
      let v := logAppend { r with level := handlerLevel h, action := (contain h w r s).1 } (contain h w r s).2
      exec (.errorRetire h w) s = .next (v.setHand h (retiredHand v h)))) ∧
  (∀ (s : State) (h : Handler) (w : Bool) (r : ErrRec), (s.hand h).cur = some r → passesUp h r = false → r.sev < 2 → r.escalated = false →
    let m : ErrRec := { r with level := handlerLevel h, action := ownAction r }
    ∃ t, exec (.errorRetire h w) s = .next t ∧ t.hand h = retiredHand s h ∧ SameBut s.ras.handlers t.ras.handlers (handlerIx h) ∧ t.mem = s.mem ∧
      (LogRoom s → Logged s t m ∧
        (r.sev < s.rd RAS_CFG.IRQ_SEV → t.out = s.out ∧ t.hst = s.hst ∧ t.mgt = s.mgt) ∧
        (s.rd RAS_CFG.IRQ_SEV ≤ r.sev → (bitOf (KMap.get 0 s.hst.msixOpen 0) 62 = true → .msix 0 62 ∈ t.out) ∧
          (bitOf (KMap.get 0 s.hst.msixOpen 0) 62 = false → bitOf (KMap.get 0 t.hst.msixPend 0) 62 = true) ∧
          (s.flag MGT_STS.READY = true → s.mgt.events.length < 64 → t.mgt.events = s.mgt.events ++ [m]))) ∧
      (¬ LogRoom s → t.rd RAS_LOG_STS.OVF = 1 ∧ t.rd RAS_LOG_STS.LOST = min 65535 (s.rd RAS_LOG_STS.LOST + 1) ∧
        t.rd RAS_LOG_PROD.INDEX = s.rd RAS_LOG_PROD.INDEX ∧ t.ras.errLog = s.ras.errLog ∧ t.out = s.out)) ∧
  (∀ (s : State) (h : Handler) (w : Bool) (r : ErrRec), (s.hand h).cur = some r → passesUp h r = true → r.sev ≠ 3 → (s.hand (handlerUp h)).cur = none →
    ∃ t, exec (.errorRetire h w) s = .next t ∧ (t.hand (handlerUp h)).cur = some r ∧ t.hand h = retiredHand s h ∧
      { t with ras.handlers := s.ras.handlers } = s) ∧
  (∀ (s : State) (h : Handler) (w : Bool) (r : ErrRec), (s.hand h).cur = some r → NothingRuns s → s.flag RAS_CFG.FENCE_LINKS = false →
    (h = .chip → r.sev = 3 → ∃ t, exec (.errorRetire h w) s = .next t ∧ t.rd RAS_NODE_STS.STATE = 3 ∧
      (s.rd RAS_NODE_STS.STATE ≠ 3 → t.rd RAS_NODE_STS.FENCE_CAUSE = 1) ∧ (LogRoom s → Logged s t { r with level := 3, action := 6 })) ∧
    (∀ g, h = .region g → r.sev = 2 → r.escalated = true →
      (r.subsys ≠ 2 → ∃ t, exec (.errorRetire h w) s = .next t ∧ blkFenced t (recBlock r) = true ∧ (LogRoom s → Logged s t { r with level := 2, action := 3 }) ∧
        ∀ b < 64, b ≠ recBlock r → blkFenced t b = blkFenced s b) ∧
      (r.subsys = 2 → r.unit < 512 → ∃ t, exec (.errorRetire h w) s = .next t ∧ t.rd PLT_CFG.EN (r.unit / 64) = 0 ∧
        (LogRoom s → Logged s t { r with level := 2, action := 3 }))) ∧
    (h = .chip → r.sev = 2 → r.escalated = true → ∃ t, exec (.errorRetire h w) s = .next t ∧ regionFenced t (recRegion r) = true ∧
      (LogRoom s → Logged s t { r with level := 3, action := 4 })) ∧
    (∀ p, h = .chip → w = true → r.sev = 2 → r.escalated = false → r.part = some p → 0 < p → p < 32 → ∃ t, exec (.errorRetire h w) s = .next t ∧
      partFenced t p = true ∧ (LogRoom s → Logged s t { r with level := 3, action := 5 }))) ∧
  (∀ (s : State) (h : Handler), (s.hand h).cur = none → exec (.handlerTimeout h) s = .next s) ∧
  (∀ (s : State) (h : Handler) (r : ErrRec), (s.hand h).cur = some r →
    ((s.hand h).late = true ∨ s.now ≤ (s.hand h).since + handleBound h r → exec (.handlerTimeout h) s = .next s) ∧
    ((s.hand h).late = false → (s.hand h).since + handleBound h r < s.now →
      (¬(h = .chip ∧ r.sev = 3) → exec (.handlerTimeout h) s = .next (report .chip { sev := 3, subsys := 20, cause := Config.causeCode 110 }
        (s.setHand h { s.hand h with late := true }))) ∧
      (h = .chip → r.sev = 3 → ∃ t, exec (.handlerTimeout h) s = .next t ∧ (t.hand h).late = true ∧ t.rd RAS_NODE_STS.STATE = 3 ∧ t.rd RAS_NODE_STS.FENCE_CAUSE = 5 ∧
        ∀ b < 64, t.rd CMP_SEQ_STS.CLK_ON b = 0) ∧
      ((s.hand .chip).cur = none → ∃ t, exec (.handlerTimeout h) s = .next t ∧ (t.hand h).late = true ∧
        (t.hand .chip).cur = some { sev := 3, subsys := 20, cause := Config.causeCode 110, level := 3, time := s.rd TIME_NOW.NS } ∧
        { t with ras.handlers := s.ras.handlers } = s)))

/-- A filtered level is shown in RAS_IN_STS; the release of RESET_N from a warm reset starts the node up. An assertion of an
event input is accepted 10 µs or more after the last accepted one, else dropped and counted. An input other than the
reset active past HOLD_MS is masked and reported, and a write unmasks inputs whose level is inactive only. A node whose
proof passes is joining, its stacks trained, with the reason of its neighbors; with no neighbor known, only its time
keeps it out. A joining node with REASON 0 is admitted; any other write sets ERR and does nothing else. FOLIO_LOAD is
refused on a fenced node, outside joining, where its record is malformed, with the folio unit off, with no such
conversation and where its list is poisoned, and otherwise starts its reads; with every entry completed it ends with the
first failing status.
Rests on R382, R383, R384, R390, R391, R393. -/
def Obligations.InputsAreFilteredAndTheNodeJoins : Prop :=
  (∀ (s : State) (i : Nat) (a : Bool), realInputs.contains i = false ∨ bitOf (s.rd RAS_IN_STS.LEVEL) i = a → exec (.inputLevel i a) s = .next s) ∧
  (∀ (s : State) (i : Nat) (a : Bool), realInputs.contains i = true → bitOf (s.rd RAS_IN_STS.LEVEL) i = !a → (i = 0 → a = false → s.pcm.rstHeld = false) →
    ∃ t, exec (.inputLevel i a) s = .next t ∧ bitOf (t.rd RAS_IN_STS.LEVEL) i = a ∧
      (∀ j < 16, j ≠ i → bitOf (t.rd RAS_IN_STS.LEVEL) j = bitOf (s.rd RAS_IN_STS.LEVEL) j) ∧
      (a = true → (t.inp i).actAt = s.now ∧ (t.inp i).taken = false ∧ (t.inp i).event = (s.inp i).event) ∧
      RegsOnly s { t with ras.inputs := s.ras.inputs } [RAS_IN_STS.LEVEL.key 0]) ∧
  (∀ s : State, bitOf (s.rd RAS_IN_STS.LEVEL) 0 = true → s.pcm.rstHeld = true →
    let u := { s.wr RAS_IN_STS.LEVEL 0 (clrBit (s.rd RAS_IN_STS.LEVEL) 0) with pcm.rstHeld := false }
    exec (.inputLevel 0 false) s = .next (if nodeHeld u then u else boot false true [] u)) ∧
  (∀ (s : State) (i : Nat), i ≠ 2 → i ≠ 4 → exec (.inputEvent i) s = .next s) ∧
  (∀ (s : State) (i : Nat), i = 2 ∨ i = 4 →
    (inputActive s i = false ∨ (s.inp i).taken = true → exec (.inputEvent i) s = .next s) ∧
    (inputActive s i = true → (s.inp i).taken = false →
      ((∀ e, (s.inp i).event = some e → e + 10000 ≤ s.now) → ∃ t, exec (.inputEvent i) s = .next t ∧
        t.inp i = { s.inp i with taken := true, event := some s.now, fresh := true } ∧ { t with ras.inputs := s.ras.inputs } = s) ∧
      (∀ e, (s.inp i).event = some e → s.now < e + 10000 → ∃ t, exec (.inputEvent i) s = .next t ∧ t.inp i = { s.inp i with taken := true } ∧
        t.rd RAS_IN_DROP_CNT.COUNT = min (2 ^ RAS_IN_DROP_CNT.COUNT.wd - 1) (s.rd RAS_IN_DROP_CNT.COUNT + 1) ∧
        RegsOnly s { t with ras.inputs := s.ras.inputs } [RAS_IN_DROP_CNT.COUNT.key 0]))) ∧
  (∀ (s : State) (i : Nat),
    (i = 0 ∨ realInputs.contains i = false ∨ inputActive s i = false ∨ s.now < (s.inp i).actAt + (s.rd RAS_IN_CFG.HOLD_MS i + 1) * 1000000 →
      exec (.inputStuck i) s = .next s) ∧
    (i ≠ 0 → realInputs.contains i = true → inputActive s i = true → (s.inp i).actAt + (s.rd RAS_IN_CFG.HOLD_MS i + 1) * 1000000 ≤ s.now →
      ∃ t, exec (.inputStuck i) s = .next t ∧ inputActive t i = false ∧ bitOf (t.rd RAS_STUCK_STS.STUCK) i = true ∧
        (∀ j < 16, j ≠ i → inputActive t j = inputActive s j) ∧ t.ras.inputs = s.ras.inputs ∧ t.mem = s.mem ∧
        ((s.hand .chip).cur = none → (t.hand .chip).cur = some { sev := 0, subsys := 20, cause := Config.causeCode 111, level := 3, time := s.rd TIME_NOW.NS }))) ∧
  (∀ (s : State) (v : Nat), ∃ t, exec (.inputUnmask v) s = .next t ∧
    (∀ i < 16, bitOf (t.rd RAS_STUCK_STS.STUCK) i = (bitOf (s.rd RAS_STUCK_STS.STUCK) i && !(bitOf v i && !bitOf (s.rd RAS_IN_STS.LEVEL) i))) ∧
    RegsOnly s t [RAS_STUCK_STS.STUCK.key 0]) ∧
  (∀ s : State,
    (s.rd RAS_NODE_STS.STATE ≠ 0 ∨ s.fme.applied = false ∨ nodeHeld s = true ∨ portsSettled s = false → exec .proofPass s = .next s) ∧
    (s.rd RAS_NODE_STS.STATE = 0 → s.fme.applied = true → nodeHeld s = false → portsSettled s = true →
      exec .proofPass s = .next (joinReason (((List.range 8).foldl (fun s k => s.wr STK_STS.TRAINED k 1) s).wr RAS_NODE_STS.STATE 0 1))) ∧
    (s.rd RAS_NODE_STS.STATE = 0 → s.fme.applied = true → nodeHeld s = false → portsSettled s = true → s.ras.nbrs = [] →
      ∃ t, exec .proofPass s = .next t ∧ t.rd RAS_NODE_STS.STATE = 1 ∧ (∀ k < 8, t.rd STK_STS.TRAINED k = 1) ∧
        t.rd RAS_JOIN_STS.REASON = (if timeInBound s then 0 else 5) ∧
        RegsOnly s t (RAS_NODE_STS.STATE.key 0 :: RAS_JOIN_STS.REASON.key 0 :: RAS_JOIN_STS.EGRESS.key 0 :: (List.range 8).map (STK_STS.TRAINED.key ·)))) ∧
  (∀ s : State,
    (s.rd RAS_NODE_STS.STATE = 1 → s.rd RAS_JOIN_STS.REASON = 0 → ∃ t, exec .admitNode s = .next t ∧ t.rd RAS_NODE_STS.STATE = 2 ∧
      RegsOnly s t [RAS_NODE_STS.STATE.key 0]) ∧
    (s.rd RAS_NODE_STS.STATE ≠ 1 ∨ s.rd RAS_JOIN_STS.REASON ≠ 0 → ∃ t, exec .admitNode s = .next t ∧ t.rd RAS_ADMIT.ERR = 1 ∧ RegsOnly s t [RAS_ADMIT.ERR.key 0])) ∧
  (∀ s : State, s.flag RAS_CMD_STS.BUSY = false ∨ s.ras.load ≠ none → exec .folioLoad s = .next s) ∧
  (∀ s : State, s.flag RAS_CMD_STS.BUSY = true → s.ras.load = none →
    let u := s.wr RAS_CMD_STS.DONE_N 0 0
    let b := rasRecord s
    let c := loadCmd b
    (s.rd RAS_NODE_STS.STATE = 3 → exec .folioLoad s = .next (rasDone ST.FENCED u)) ∧
    (s.rd RAS_NODE_STS.STATE ≠ 3 → s.rd RAS_NODE_STS.STATE ≠ 1 → exec .folioLoad s = .next (rasDone ST.RAS_STATE u)) ∧
    (s.rd RAS_NODE_STS.STATE = 1 → badLoad s b = true → exec .folioLoad s = .next (rasDone ST.RAS_CMD_FORMAT u)) ∧
    (s.rd RAS_NODE_STS.STATE = 1 → badLoad s b = false → floOn s = false → exec .folioLoad s = .next (rasDone ST.FLO_DISABLED u)) ∧
    (s.rd RAS_NODE_STS.STATE = 1 → badLoad s b = false → floOn s = true →
      (∀ v, convFind c.part c.role c.conv u = (none, v) → exec .folioLoad s = .next (rasDone ST.DIR_NO_CONV v)) ∧
      (∀ k v w, convFind c.part c.role c.conv u = (some k, v) → readUpper 0 c.list (16 * c.n) v = (none, w) →
        exec .folioLoad s = .next (rasDone ST.POISON (poisonUse .chip 6 0 (some c.part) ST.POISON c.list w))) ∧
      (∀ k v w list, convFind c.part c.role c.conv u = (some k, v) → readUpper 0 c.list (16 * c.n) v = (some list, w) →
        exec .folioLoad s = .next (loadGo (loadStart 32 { w with ras.load := some { cmd := b, list := list } }))))) ∧
  (∀ s : State, s.ras.load = none → exec .folioLoadComplete s = .next s) ∧
  (∀ (s : State) (l : LoadSt), s.ras.load = some l → ∃ t, exec .folioLoadComplete s = .next t ∧ t.rd RAS_CMD_STS.DONE_N = l.done % 2 ^ RAS_CMD_STS.DONE_N.wd ∧
    (l.done < (loadCmd l.cmd).n → t.ras.load = some l ∧ RegsOnly s t [RAS_CMD_STS.DONE_N.key 0]) ∧
    ((loadCmd l.cmd).n ≤ l.done → t.ras.load = none ∧ t.rd RAS_CMD_STS.BUSY = 0 ∧ t.rd RAS_CMD_STS.DONE = 1 ∧
      t.rd RAS_CMD_STS.STATUS = l.status % 2 ^ RAS_CMD_STS.STATUS.wd ∧
      RegsOnly s { t with ras.load := s.ras.load } [RAS_CMD_STS.DONE_N.key 0, RAS_CMD_STS.BUSY.key 0, RAS_CMD_STS.DONE.key 0, RAS_CMD_STS.STATUS.key 0]))

/-- LOAD takes up the container, discarding a staged one; a failed read ends it. It is busy when armed, and an error while
loading or with no forme source. A verified container is staged, or applied at once at start-up; a refused one changes
nothing but the counts and the status, and a signature refusal is an authentication failure. GO arms a staged forme and
writes its shadows (the arbiters' among them), late at or past its commit time or with time out of bound. CANCEL
discards a staged forme, and rewrites an armed one's shadows from the active forme. ENABLE sets the deferred EN bits
once; a folio unit it enables takes up its table area. At the commit time the hold begins; past its limit the attempts
that run are stopped and counted; with none the swap applies the changed sections, makes the image active and records
the time. Commands that the state does not allow set ERR.
Rests on R400, R402, R403, R404, R405, R407, R409. -/
def Obligations.FormesAreTakenAndCommitted : Prop :=
  (∀ (s : State) (d : Bytes) (ok : Bool),
    let n := s.rd RSP_FORME_STS.STATE
    (3 ≤ n → exec (.load d ok) s = .next (s.wr RSP_FORME_STS.STATUS 0 ST.FORME_BUSY)) ∧
    (n < 3 → n = 1 ∨ s.rd PCM_STRAP.BOOT_SEL = 7 → exec (.load d ok) s = .next (s.wr RSP_FORME_STS.ERR 0 1)) ∧
    (n < 3 → n ≠ 1 → s.rd PCM_STRAP.BOOT_SEL ≠ 7 →
      (ok = true → ∃ t, exec (.load d ok) s = .next t ∧ t.fme = { s.fme with loading := some (slice d 0 (s.rd RSP_FORME_LEN.LEN)), staged := none } ∧
        t.rd RSP_FORME_STS.STATE = 1 ∧ RegsOnly s { t with fme := s.fme } [RSP_FORME_STS.STATE.key 0, HST_RX_BYTES.BYTES.key 0]) ∧
      (ok = false → ∃ t, exec (.load d ok) s = .next t ∧ t.fme = { s.fme with staged := none } ∧ t.rd RSP_FORME_STS.STATE = 0 ∧
        t.rd RSP_FORME_STS.STATUS = ST.HST_DMA ∧ t.rd RSP_FORME_STS.DONE = 1))) ∧
  (∀ s : State, s.fme.loading = none → exec .formeVerified s = .next s) ∧
  (∀ (s : State) (b : Bytes), s.fme.loading = some b →
    let u : State := { s with fme.loading := none }
    match checkForme u (!s.fme.applied) b with
    | .error e =>
      (e ≠ ST.FORME_SIG → ∃ t, exec .formeVerified s = .next t ∧ t.fme = u.fme ∧
        t.rd RSP_FORME_STS.STATE = 0 ∧ t.rd RSP_FORME_STS.STATUS = e % 65536 ∧ t.rd RSP_FORME_STS.DONE = 1 ∧
        t.rd (RSP_FORME_CNT.COUNT 1) = min (2 ^ 32 - 1) (s.rd (RSP_FORME_CNT.COUNT 1) + 1) ∧
        RegsOnly u t [RSP_FORME_STS.STATE.key 0, RSP_FORME_STS.STATUS.key 0, RSP_FORME_STS.DONE.key 0, (RSP_FORME_CNT.COUNT 1).key 0]) ∧
      (e = ST.FORME_SIG →
        exec .formeVerified s = .next (formeEnd ST.FORME_SIG 0 (authFailNode (u.bump (RSP_FORME_CNT.COUNT 1)))))
    | .ok m =>
      (s.fme.applied = true → ∃ t, exec .formeVerified s = .next t ∧ t.fme = { u.fme with staged := some m } ∧
        t.rd RSP_FORME_STS.STATE = 2 ∧ t.rd RSP_FORME_STS.STATUS = ST.OK ∧ t.rd RSP_FORME_STS.DONE = 1 ∧
        RegsOnly u { t with fme := u.fme } [RSP_FORME_STS.STATE.key 0, RSP_FORME_STS.STATUS.key 0, RSP_FORME_STS.DONE.key 0, (RSP_FORME_CNT.COUNT 0).key 0]) ∧
      (s.fme.applied = false → ∃ t, exec .formeVerified s = .next t ∧
        t = formeEnd ST.OK 0 (startForme m (u.bump (RSP_FORME_CNT.COUNT 0))) ∧ t.fme.applied = true ∧ t.fme.active = { m with epoch := 0, time := 0 } ∧
        t.rd RSP_FORME_STS.STATE = 0 ∧ t.rd RSP_FORME_STS.DONE = 1)) ∧
  (∀ s : State, s.fme.staged = none ∨ s.rd RSP_FORME_STS.STATE ≠ 2 → exec .go s = .next (s.wr RSP_FORME_STS.ERR 0 1)) ∧
  (∀ (s : State) (m : FormeImg), s.fme.staged = some m → s.rd RSP_FORME_STS.STATE = 2 →
    (timeInBound s = false ∨ (m.time ≠ 0 ∧ m.time ≤ fabTime s) → exec .go s = .next (s.wr RSP_FORME_STS.STATUS 0 ST.FORME_LATE)) ∧
    (timeInBound s = true → m.time = 0 ∨ fabTime s < m.time → ∃ t, exec .go s = .next t ∧
      t = writeShadows m (secDiffers m s.fme.active) (s.wr RSP_FORME_STS.STATE 0 3) ∧ t.rd RSP_FORME_STS.STATE = 3 ∧ { t with regs := s.regs } = s ∧
      (secDiffers m s.fme.active (256 * 7) = true → ∀ n < 148, ∀ j < arbReqs n, t.rd (GUT_ARB_PRIO.PRIO j) n =
        bits (leAt (m.sec 7 0) (0x40 + 48 * n + 0x10 + j / 2) 1) (4 * (j % 2)) 4))) ∧
  (∀ s : State,
    (s.rd RSP_FORME_STS.STATE ≠ 2 → s.rd RSP_FORME_STS.STATE ≠ 3 → exec .cancel s = .next (s.wr RSP_FORME_STS.ERR 0 1)) ∧
    (s.rd RSP_FORME_STS.STATE = 2 → ∃ t, exec .cancel s = .next t ∧ t.fme = { s.fme with staged := none } ∧ t.rd RSP_FORME_STS.STATE = 0 ∧
      RegsOnly s { t with fme := s.fme } [RSP_FORME_STS.STATE.key 0]) ∧
    (∀ m, s.rd RSP_FORME_STS.STATE = 3 → s.fme.staged = some m → ∃ t, exec .cancel s = .next t ∧ t.fme = { s.fme with staged := none } ∧
      t.rd RSP_FORME_STS.STATE = 0 ∧ { t with regs := s.regs, fme := s.fme } = s ∧
      (secDiffers m s.fme.active (256 * 7) = true → ∀ n < 148, ∀ j < arbReqs n, t.rd (GUT_ARB_PRIO.PRIO j) n =
        bits (leAt (s.fme.active.sec 7 0) (0x40 + 48 * n + 0x10 + j / 2) 1) (4 * (j % 2)) 4))) ∧
  (∀ s : State,
    (s.flag RSP_FORME_STS.ENABLED = true ∨ s.fme.applied = false → exec .enable s = .next (s.wr RSP_FORME_STS.ERR 0 1)) ∧
    (s.flag RSP_FORME_STS.ENABLED = false → s.fme.applied = true →
      let u := leAt (secOf s 1) 0x44 1
      ∃ t, exec .enable s = .next t ∧ t.rd FLO_CFG.EN = bits u 0 1 ∧ t.rd RCH_CFG.EN = bits u 1 1 ∧ t.rd COL_CFG.EN = bits u 2 1 ∧
        (∀ n < 4, t.rd (TIER_POOL_CFG.EN n) = bits u (4 + n) 1) ∧ t.rd RSP_FORME_STS.ENABLED = 1 ∧
        t.flo = (if bitOf u 0 then (floAdopt s).flo else s.flo) ∧
        RegsOnly s { t with flo := s.flo } ([FLO_CFG.EN.key 0, RCH_CFG.EN.key 0, COL_CFG.EN.key 0, RSP_FORME_STS.ENABLED.key 0] ++ (List.range 4).map fun n => (TIER_POOL_CFG.EN n).key 0))) ∧
  (∀ s : State,
    (s.rd RSP_FORME_STS.STATE ≠ 3 ∨ fabTime s < (s.fme.staged.getD {}).time → exec .formeHold s = .next s) ∧
    (s.rd RSP_FORME_STS.STATE = 3 → (s.fme.staged.getD {}).time ≤ fabTime s → ∃ t, exec .formeHold s = .next t ∧ t.fme = { s.fme with holdAt := s.now } ∧
      t.rd RSP_FORME_STS.STATE = 4 ∧ RegsOnly s { t with fme := s.fme } [RSP_FORME_STS.STATE.key 0])) ∧
  (∀ s : State,
    (s.rd RSP_FORME_STS.STATE ≠ 4 ∨ s.now < s.fme.holdAt + 1000 * s.rd RSP_COMMIT_CFG.DRAIN_US → exec .formeDrainTimeout s = .next s) ∧
    (s.rd RSP_FORME_STS.STATE = 4 → s.fme.holdAt + 1000 * s.rd RSP_COMMIT_CFG.DRAIN_US ≤ s.now →
      exec .formeDrainTimeout s = .next (s.col.atts.foldl (fun s e => failAtt e.1 ST.FORME_COMMIT (s.bump (RSP_FORME_CNT.COUNT 3))) s))) ∧
  (∀ s : State, s.fme.staged = none ∨ s.rd RSP_FORME_STS.STATE ≠ 4 ∨ s.col.atts ≠ [] → exec .formeSwap s = .next s) ∧
  (∀ (s : State) (m : FormeImg), s.fme.staged = some m → s.rd RSP_FORME_STS.STATE = 4 → s.col.atts = [] → ∃ t, exec .formeSwap s = .next t ∧
    t.fme.active = { m with epoch := 0, time := 0 } ∧ t.fme.staged = none ∧ t.rd RSP_FORME_STS.STATE = 0 ∧ t.rd RSP_FORME_STS.STATUS = ST.OK ∧
    t.rd RSP_FORME_STS.DONE = 1 ∧
    (NothingRuns s → t.rd RSP_COMMIT_LAST.TIME = fabTime t % 2 ^ RSP_COMMIT_LAST.TIME.wd ∧ t.rd RSP_FORME_ID.VALUE = m.id % 2 ^ RSP_FORME_ID.VALUE.wd ∧
      t.rd RSP_FORME_VER.VALUE = m.ver % 2 ^ RSP_FORME_VER.VALUE.wd ∧
      (m.epoch ≠ 0 → t.rd FAB_EPOCH.EPOCH = m.epoch % 2 ^ 32) ∧ t.rd (RSP_FORME_CNT.COUNT 2) = min (2 ^ 32 - 1) (s.rd (RSP_FORME_CNT.COUNT 2) + 1)))

/-- IDLE and DOZE are entered only where the policy, the time that the node or region has been quiet and the latency-first
owners allow, counted; DOZE drops the region's programs and keeps the galley's lines; a wake restores the programs,
leaves the blocks' registers free values and clears DOZE. KEEP is refused without permission or with a lease held, else
it puts the stacks in self-refresh and is counted, at once where the node is quiet and no press hold runs (else the
entry waits, and is abandoned after 1 ms without quiet). A wake from KEEP restores time in units of 40 ns, out of bound,
and trains the links again; a wake during entry is an error; a fresh wake input, signal detect and WAKE do the same.
When the wake completes, the stacks leave self-refresh trained, owe no refresh and serve what waits. A region's clock
moves one level toward its target. A sample, every 10 µs, sets power, average, temperature and energy; past 105 °C, over
the cap, or with the VR input active, one step is taken when due, step 12 closing idle gates; two samples of 125 °C trip
the node. The brake puts steps 1 to 11 in force once per assertion. The last step is undone after 1 ms, and
latency-first gates open again. At debug level 2 the debug input halts the blocks, else it is counted.
Rests on R412, R413, R415, R416, R417, R418, R419, R420, R421, R422, R435, R436. -/
def Obligations.PowerStatesFollow : Prop :=
  (∀ s : State,
    let ok := nodeRuns s && s.flag PCM_IDLE_US.US && quiet s && lasted s s.pcm.quietAt (s.rd PCM_IDLE_US.US) && !(List.range 4).any (latencyHeld s)
    (ok = false → exec .idleEntry s = .next s) ∧
    (ok = true → ∃ t, exec .idleEntry s = .next t ∧ t.rd PCM_STATE.NODE = 1 ∧ t.rd (PCM_CNT.COUNT 0) = min (2 ^ 32 - 1) (s.rd (PCM_CNT.COUNT 0) + 1) ∧
      RegsOnly s t [PCM_STATE.NODE.key 0, (PCM_CNT.COUNT 0).key 0])) ∧
  (∀ s : State, (s.rd PCM_STATE.NODE ≠ 1 → exec .idleWake s = .next s) ∧
    (s.rd PCM_STATE.NODE = 1 → ∃ t, exec .idleWake s = .next t ∧ t.rd PCM_STATE.NODE = 0 ∧ RegsOnly s t [PCM_STATE.NODE.key 0])) ∧
  (∀ (s : State) (r : Nat),
    let ok := decide (r < 4) && decide (s.rd PCM_STATE.NODE ≤ 1) && !regionDozes s r && s.flag PCM_DOZE_US.US &&
      regionRests s r && lasted s (KMap.find? s.pcm.restAt r) (s.rd PCM_DOZE_US.US) && !latencyHeld s r
    (ok = false → exec (.dozeEntry r) s = .next s) ∧
    (ok = true → ∃ t, exec (.dozeEntry r) s = .next t ∧ regionDozes t r = true ∧ (∀ q < 4, q ≠ r → regionDozes t q = regionDozes s q) ∧
      (∀ i < 16, KMap.find? t.cmp.prog (16 * r + i) = none) ∧ (∀ b, b / 16 ≠ r → KMap.find? t.cmp.prog b = KMap.find? s.cmp.prog b) ∧
      t.rd (PCM_CNT.COUNT 1) = min (2 ^ 32 - 1) (s.rd (PCM_CNT.COUNT 1) + 1) ∧
      RegsOnly s { t with cmp.prog := s.cmp.prog } [PCM_STATE.DOZE.key 0, (PCM_CNT.COUNT 1).key 0])) ∧
  (∀ (s : State) (r : Nat), (4 ≤ r ∨ regionDozes s r = false → exec (.regionWake r) s = .next s) ∧
    (r < 4 → regionDozes s r = true → ∃ t, exec (.regionWake r) s = .next t ∧ regionDozes t r = false ∧ (∀ q < 4, q ≠ r → regionDozes t q = regionDozes s q) ∧
      (∀ i < 16, KMap.find? t.cmp.prog (16 * r + i) = some (slice (s.fme.active.sec 5 0) 0x1000 65536)) ∧ (∀ b, b / 16 ≠ r → t.blk b = s.blk b) ∧
      (∀ i < 16, t.blk (16 * r + i) = junkBlk (s.freeIx + 3112 * i) (s.blk (16 * r + i))) ∧
      RegsOnly s { t with cmp := s.cmp, freeIx := s.freeIx } [PCM_STATE.DOZE.key 0])) ∧
  (∀ s : State, (2 ≤ s.rd PCM_STATE.NODE → exec .keep s = .next s) ∧
    (s.rd PCM_STATE.NODE < 2 →
      let refusal (n : Nat) : Prop := ∃ t, exec .keep s = .next t ∧ t.rd PCM_STATE.ERR = 1 ∧ t.rd PCM_STATE.ERR_REASON = n ∧
        t.rd (PCM_CNT.COUNT 7) = min (2 ^ 32 - 1) (s.rd (PCM_CNT.COUNT 7) + 1) ∧ RegsOnly s t [PCM_STATE.ERR.key 0, PCM_STATE.ERR_REASON.key 0, (PCM_CNT.COUNT 7).key 0]
      (s.flag PCM_POL.KEEP_EN = false → refusal 1) ∧ (s.flag PCM_POL.KEEP_EN = true → s.tier.leases ≠ [] → refusal 3) ∧
      (s.flag PCM_POL.KEEP_EN = true → s.tier.leases = [] → keepReady s = false → ∃ t, exec .keep s = .next t ∧ t.rd PCM_STATE.NODE = 2 ∧ t.pcm.keepAt = s.now ∧
        RegsOnly s { t with pcm := s.pcm } [PCM_STATE.NODE.key 0]) ∧
      (s.flag PCM_POL.KEEP_EN = true → s.tier.leases = [] → keepReady s = true → ∃ t, exec .keep s = .next t ∧ t.rd PCM_STATE.NODE = 3 ∧ t.pcm.keepAt = s.now ∧
        (∀ k < 8, t.rd STK_STS.SELF_REFRESH k = 1) ∧ (∀ i < 64, (pltHold t i).held = false) ∧
        t.rd (PCM_CNT.COUNT 2) = min (2 ^ 32 - 1) (s.rd (PCM_CNT.COUNT 2) + 1) ∧ t.mem = s.mem ∧ t.key = s.key))) ∧
  (∀ s : State, (s.rd PCM_STATE.NODE ≠ 2 ∨ quiet s = true ∨ s.now < s.pcm.keepAt + 1000000 → exec .keepAbandon s = .next s) ∧
    (s.rd PCM_STATE.NODE = 2 → quiet s = false → s.pcm.keepAt + 1000000 ≤ s.now → ∃ t, exec .keepAbandon s = .next t ∧ t.rd PCM_STATE.NODE = 0 ∧
      t.rd PCM_STATE.ERR = 1 ∧ t.rd PCM_STATE.ERR_REASON = 2 ∧ t.rd (PCM_CNT.COUNT 7) = min (2 ^ 32 - 1) (s.rd (PCM_CNT.COUNT 7) + 1) ∧
      RegsOnly s t [PCM_STATE.NODE.key 0, PCM_STATE.ERR.key 0, PCM_STATE.ERR_REASON.key 0, (PCM_CNT.COUNT 7).key 0])) ∧
  (∀ s : State, (s.rd PCM_STATE.NODE ≠ 2 → s.rd PCM_STATE.NODE ≠ 3 → exec .wake s = .next s) ∧
    (s.rd PCM_STATE.NODE = 3 → ∃ t, exec .wake s = .next t ∧ t.rd PCM_STATE.NODE = 4 ∧ t.flag TIME_STS.OOB = true ∧ (∀ r < 4, regionDozes t r = false) ∧
      t.rd TIME_NOW.NS = (s.rd TIME_NOW.NS - (s.now - s.pcm.keepAt) % 40) % 2 ^ 64 ∧
      (∀ c < 24, 2 ≤ s.rd FAB_PORT_STS.STATE c → s.rd FAB_PORT_STS.STATE c ≤ 4 → t.rd FAB_PORT_STS.STATE c = 1) ∧ t.mem = s.mem ∧ t.key = s.key) ∧
    (s.rd PCM_STATE.NODE = 2 → ∃ t, exec .wake s = .next t ∧ t.rd PCM_STATE.NODE = 4 ∧ t.rd PCM_STATE.ERR_REASON = 4 ∧ t.rd PCM_STATE.ERR = 1 ∧
      t.flag TIME_STS.OOB = true ∧ t.rd TIME_NOW.NS = s.rd TIME_NOW.NS)) ∧
  (∀ s : State, exec .wake s = .next (wakeUp s) ∧ exec (.signalDetectWake none) s = .next (wakeUp s) ∧
    (∀ c, exec (.signalDetectWake (some c)) s = .next (if codeNames s c ∧ s.flag FAB_PORT_CFG.EN c = true then wakeUp s else s)) ∧
    exec .wakeN s = .next (if (s.inp 2).fresh then wakeUp (s.setInp 2 { s.inp 2 with fresh := false }) else s)) ∧
  (∀ s : State, (s.rd PCM_STATE.NODE ≠ 4 → exec .wakeComplete s = .next s) ∧
    (s.rd PCM_STATE.NODE = 4 →
      exec .wakeComplete s = .next (gatesSettle ((List.range 8).foldl (fun s k => stackWakes k s) (s.wr PCM_STATE.NODE 0 0)))) ∧
    (s.rd PCM_STATE.NODE = 4 → (∀ k < 8, (s.stkUnit k).waiting = []) → (∀ b p, blockOwner s b = some p → p < 32) →
      ∃ t, exec .wakeComplete s = .next t ∧ t.rd PCM_STATE.NODE = 0 ∧
        (∀ k < 8, t.rd STK_STS.SELF_REFRESH k = 0 ∧ t.rd STK_STS.TRAINED k = 1 ∧ (t.stkUnit k).postponed = []) ∧ t.mem = s.mem)) ∧
  (∀ (s : State) (r : Nat),
    let l := s.rd (PCM_CLK_STS.LEVEL r)
    (4 ≤ r ∨ regionDozes s r = true ∨ l = levelTarget s → exec (.clockLevelStep r) s = .next s) ∧
    (r < 4 → regionDozes s r = false → l < 16 → l ≠ levelTarget s → ∃ t, exec (.clockLevelStep r) s = .next t ∧
      t.rd (PCM_CLK_STS.LEVEL r) = (if l < levelTarget s then l + 1 else l - 1) ∧
      t.rd (PCM_CNT.COUNT 5) = (if t.rd (PCM_CLK_STS.LEVEL r) = 10 then min (2 ^ 32 - 1) (s.rd (PCM_CNT.COUNT 5) + 1) else s.rd (PCM_CNT.COUNT 5)) ∧
      RegsOnly s t [(PCM_CLK_STS.LEVEL r).key 0, (PCM_CNT.COUNT 5).key 0])) ∧
  (∀ (s : State) (mv ma die dram base : List Nat), s.due .sample 10000 = false → exec (.sensorSample mv ma die dram base) s = .next s) ∧
  (∀ (s : State) (mv ma die dram base : List Nat), s.due .sample 10000 = true →
    let uw := fun r => mv.getD r 0 * ma.getD r 0
    let sum := (List.range 10).foldl (fun a r => a + uw r) 0
    let hot := die.foldl max 0
    let l := (sum :: s.pcm.samples).take 100
    (∀ x ∈ dram, x ≤ 85) → s.pcm.stkTemp = [] →
      (hot ≤ 105 → ∃ t, exec (.sensorSample mv ma die dram base) s = .next t ∧ t.rd PCM_DIE_TEMP.TEMP = hot ∧ t.rd PCM_PWR.INST_W = sum / 1000000 % 65536 ∧
        t.rd PCM_PWR.AVG_W = l.foldl (· + ·) 0 / (1000000 * l.length) % 65536 ∧ t.pcm.samples = l ∧ t.pcm.hot = 0 ∧
        t.rd PCM_CLK_STS.STEP = s.rd PCM_CLK_STS.STEP ∧
        t.rd PCM_THROTTLE_US.US = (if s.rd PCM_CLK_STS.STEP = 0 then s.rd PCM_THROTTLE_US.US else (s.rd PCM_THROTTLE_US.US + 10) % 2 ^ 64) ∧
        (∀ k < 8, t.rd STK_TEMP.TEMP_MAX k = dram.getD k 0 ∧ t.rd STK_STS.REF_2X k = 0 ∧ t.rd STK_STS.THROTTLED k = 0) ∧
        (s.flag MGT_STS.READY = true → s.rd PCM_STATE.NODE ≠ 3 → ∀ r < 10,
          t.rd (MGT_ENERGY.UJ r) = (s.rd (MGT_ENERGY.UJ r) + (KMap.get 0 s.pcm.rest r + uw r) / 100000) % 2 ^ 64) ∧ t.mem = s.mem) ∧
      (105 < hot → hot ≤ 115 → stepDue s = true → s.rd PCM_CLK_STS.STEP < 11 → ∃ t, exec (.sensorSample mv ma die dram base) s = .next t ∧
        t.rd PCM_CLK_STS.STEP = s.rd PCM_CLK_STS.STEP + 1 ∧ t.rd (PCM_CNT.COUNT 4) = min (2 ^ 32 - 1) (s.rd (PCM_CNT.COUNT 4) + 1) ∧ t.pcm.heat = true ∧
        t.pcm.stepAt = s.now) ∧
      (125 ≤ hot → s.pcm.hot = 1 → ∃ t, exec (.sensorSample mv ma die dram base) s = .next t ∧ t.pcm.thermtrip = true ∧ nodeHeld t = true)) ∧
  (∀ s : State,
    let due := decide (s.rd PCM_POL.CAP_W < s.rd PCM_PWR.AVG_W) && stepDue s
    let st := s.rd PCM_CLK_STS.STEP
    (due = false ∨ 13 ≤ st → exec .capStep s = .next s) ∧
    (due = true → st < 13 → (∀ b p, blockOwner s b = some p → p < 32) → ∃ t, exec .capStep s = .next t ∧ t.rd PCM_CLK_STS.STEP = st + 1 ∧ t.pcm.stepAt = s.now ∧
      t.rd (PCM_CNT.COUNT 3) = min (2 ^ 32 - 1) (s.rd (PCM_CNT.COUNT 3) + 1) ∧
      (st = 11 → (∀ b, blockFree s b = true) → ∀ b < 64, t.rd CMP_SEQ_STS.CLK_ON b = 0) ∧
      (st ≠ 11 → RegsOnly s { t with pcm := s.pcm } [PCM_CLK_STS.STEP.key 0, (PCM_CNT.COUNT 3).key 0]))) ∧
  (∀ s : State,
    let st := s.rd PCM_CLK_STS.STEP
    let held := s.pcm.heat || inputActive s 9 || (inputActive s 3 && decide (st ≤ 11))
    (s.pcm.lowFrom = none ∨ st = 0 ∨ held = true → exec .capUndo s = .next s) ∧
    (∀ u, s.pcm.lowFrom = some u → st ≠ 0 → st < 16 → held = false →
      (s.now < u + 1000000 → exec .capUndo s = .next s) ∧
      (u + 1000000 ≤ s.now →
        exec .capUndo s = .next (gatesSettle { s.wr PCM_CLK_STS.STEP 0 (st - 1) with pcm.lowFrom := some s.now })) ∧
      (u + 1000000 ≤ s.now → (∀ b p, blockOwner s b = some p → p < 32) → ∃ t, exec .capUndo s = .next t ∧ t.rd PCM_CLK_STS.STEP = st - 1 ∧
        t.pcm.lowFrom = some s.now ∧ t.mem = s.mem ∧
        (st = 12 → nodeRuns s = true → ∀ b < 64, ∀ p, blockOwner s b = some p → modeEnergy s p = false → regionDozes s (b / 16) = false →
          t.rd CMP_SEQ_STS.CLK_ON b ≠ 0)))) ∧
  (∀ s : State,
    (inputActive s 3 = false → exec .pwrBrakeN s = .next { s with pcm.brake := false }) ∧
    (inputActive s 3 = true → s.pcm.brake = true → exec .pwrBrakeN s = .next s) ∧
    (inputActive s 3 = true → s.pcm.brake = false → s.rd PCM_CLK_STS.STEP < 16 → ∃ t, exec .pwrBrakeN s = .next t ∧ t.pcm.brake = true ∧
      t.rd PCM_CLK_STS.STEP = max 11 (s.rd PCM_CLK_STS.STEP) ∧ t.rd (PCM_CNT.COUNT 3) = min (2 ^ 32 - 1) (s.rd (PCM_CNT.COUNT 3) + 1) ∧
      RegsOnly s { t with pcm := s.pcm } [PCM_CLK_STS.STEP.key 0, (PCM_CNT.COUNT 3).key 0])) ∧
  (∀ s : State,
    (inputActive s 9 = false ∨ stepDue s = false ∨ 13 ≤ s.rd PCM_CLK_STS.STEP → exec .vrHotN s = .next s) ∧
    (inputActive s 9 = true → stepDue s = true → s.rd PCM_CLK_STS.STEP < 13 → (∀ b p, blockOwner s b = some p → p < 32) → ∃ t, exec .vrHotN s = .next t ∧
      t.rd PCM_CLK_STS.STEP = s.rd PCM_CLK_STS.STEP + 1 ∧ t.rd (PCM_CNT.COUNT 4) = min (2 ^ 32 - 1) (s.rd (PCM_CNT.COUNT 4) + 1) ∧
      (s.rd PCM_CLK_STS.STEP ≠ 11 → RegsOnly s { t with pcm := s.pcm } [PCM_CLK_STS.STEP.key 0, (PCM_CNT.COUNT 4).key 0]))) ∧
  (∀ s : State, ((s.inp 4).fresh = false → exec .debugReqN s = .next s) ∧
    ((s.inp 4).fresh = true → ∃ t, exec .debugReqN s = .next t ∧ t.inp 4 = { s.inp 4 with fresh := false } ∧
      (s.rd MGT_STS.DEBUG_LVL = 2 → (∀ b < 64, t.rd CMP_SEQ_STS.STATE b = if blkFenced s b then 4 else 5) ∧
        RegsOnly s { t with ras.inputs := s.ras.inputs } ((List.range 64).map (CMP_SEQ_STS.STATE.key ·))) ∧
      (s.rd MGT_STS.DEBUG_LVL ≠ 2 → t.rd (MGT_CNT.COUNT 3) = min (2 ^ 32 - 1) (s.rd (MGT_CNT.COUNT 3) + 1) ∧
        RegsOnly s { t with ras.inputs := s.ras.inputs } [(MGT_CNT.COUNT 3).key 0])))

/-- A cold, warm or node reset keeps memory with its check symbols and poison, fuses, flash and pools, and clears every unit
but the RAS log and inputs: ROS fields, accounts and power registers live through warm and node reset, RSP and
management registers through node reset; the reach incarnation is a new one, not zero. Link keys and IDE keys go in
each; sessions and open key slots go in cold and warm, the floor moving past the generation; after a node reset a
closing slot is free. PCM_RST_STS names kind and cause. A region reset fences its region, ends its lists, clears its
blocks and leaves the others; its completion lifts the fence and wakes its stacks. A write without 0xA5 and the kind
does nothing. Power good samples the straps; its fall holds the node in reset with the stacks in self-refresh; RESET_N
holds it in warm reset until its release. A rise of the always-on rail leaves fuses, flash and pools only (a fault where
power is good, the model's choice). The test instructions that take the pins hold the node; a private one is a bypass
below debug level 2 and is refused at 2.
Rests on R346, R361, R423, R424, R425, R426, R427, R440, R443, R461. -/
def Obligations.ResetsKeepWhatTheTableSays : Prop :=
  (∀ (s : State) (k c : Nat), 1 ≤ k → k ≤ 3 →
    let u := wholeReset k c s
    (u.mem = s.mem ∧ u.chk = s.chk ∧ u.psn = s.psn ∧ u.fus = s.fus ∧ u.mgt.flash = s.mgt.flash ∧ u.tier.records = s.tier.records ∧
      u.tier.used = s.tier.used) ∧
    (u.gut = {} ∧ u.hst = {} ∧ u.stk = {} ∧ u.gal = {} ∧ u.plt = {} ∧ u.cmp = {} ∧ u.flo = {} ∧ u.cwd = {} ∧ u.fab = {} ∧ u.tim = {} ∧ u.rch = {} ∧
      u.col = {} ∧ u.job = {} ∧ u.rea.pool = [] ∧ u.ras.handlers = [] ∧ u.latch = []) ∧
    (u.key.links = [] ∧ u.key.ide = [] ∧ u.key.waiting = [] ∧ u.key.covered = []) ∧
    (u.ras.errLog = (if 2 ≤ k then s.ras.errLog else []) ∧ u.ras.inputs = (if 2 ≤ k then s.ras.inputs else [])) ∧
    (k ≤ 2 → u.key.sessions = [] ∧ u.key.aliasKey = none ∧ u.fme = {} ∧ ∀ n, keySlot u n = eraseSlot (keySlot s n)) ∧
    (k = 3 → u.key.sessions = s.key.sessions ∧ u.fme.active = s.fme.active ∧ u.mgt = s.mgt ∧ ∀ n, (keySlot u n).gen = (keySlot s n).gen ∧
      (keySlot u n).key1 = (keySlot s n).key1 ∧ (keySlot u n).state = if (keySlot s n).state = 2 then (if (keySlot s n).floor = 65536 then 3 else 0) else (keySlot s n).state) ∧
    (u.rd PCM_RST_STS.LAST_KIND = k ∧ u.rd PCM_RST_STS.CAUSE = c % 16 ∧ u.rd PCM_STATE.NODE = 0 ∧ u.rd RAS_PFENCE_STS.FENCED = 0 ∧ u.rd RAS_RFENCE_STS.FENCED = 0 ∧
      u.rd RCH_INCARNATION.VALUE = Config.freeNat s.freeIx % (2 ^ 32 - 1) + 1 ∧ u.rd RAS_NODE_STS.STATE = if 2 ≤ k ∧ s.key.zeroized = true then 3 else 0) ∧
    (∀ b < 64, u.rd CMP_SEQ_STS.STATE b = 0 ∧ u.rd CMP_OWNER.ASSIGNED b = 0) ∧
    (∀ i < 8, u.rd STK_STS.FENCED i = if 2 ≤ k then s.rd STK_STS.FENCED i else 0) ∧
    (∀ p < 32, ∀ j < 9, u.rd (REAM_PACCT.VALUE j) p = if 2 ≤ k then s.rd (REAM_PACCT.VALUE j) p else 0) ∧
    (u.rd PCM_POL.CAP_W = (if 2 ≤ k then s.rd PCM_POL.CAP_W else 700) ∧ u.rd RAS_LOG_PROD.INDEX = (if 2 ≤ k then s.rd RAS_LOG_PROD.INDEX else 0) ∧
      u.rd RSP_ALARM_STS.SRC = (if 2 ≤ k then s.rd RSP_ALARM_STS.SRC else 0) ∧ u.rd PCM_STRAP.BOOT_SEL = s.rd PCM_STRAP.BOOT_SEL ∧
      u.rd MGT_STS.READY = (if 3 ≤ k then s.rd MGT_STS.READY else 0) ∧ u.rd RSP_FORME_ID.VALUE = (if 3 ≤ k then s.rd RSP_FORME_ID.VALUE else 0))) ∧
  (∀ (s : State) (v : Nat) (fl : List Nat),
    (rstCmd 1 v = false → exec (.coldReset v fl) s = .next s) ∧ (rstCmd 2 v = false → exec (.warmReset v fl) s = .next s) ∧
    (rstCmd 3 v = false → exec (.nodeReset v) s = .next s) ∧ (rstCmd 4 v = false → exec (.regionReset v) s = .next s) ∧
    (rstCmd 1 v = true → ∃ t, exec (.coldReset v fl) s = .next t ∧ t = coldReset 1 true fl s ∧ t.mem = s.mem ∧ t.fus = s.fus ∧ t.mgt.flash = s.mgt.flash ∧
      t.key.sessions = [] ∧ (∀ n, keySlot t n = eraseSlot (keySlot s n)) ∧ t.rd PCM_RST_STS.LAST_KIND = 1 ∧ t.rd PCM_RST_STS.CAUSE = 1) ∧
    (rstCmd 2 v = true → ∃ t, exec (.warmReset v fl) s = .next t ∧ t = warmReset 1 fl s ∧ t.mem = s.mem ∧ t.fus = s.fus ∧ t.mgt.flash = s.mgt.flash ∧
      t.key.sessions = [] ∧ (∀ n, keySlot t n = eraseSlot (keySlot s n)) ∧ t.rd PCM_RST_STS.LAST_KIND = 2 ∧ t.rd PCM_RST_STS.CAUSE = 1 ∧
      t.rd MGT_STS.DEBUG_LVL = if s.mgt.dbgNext = 0 then s.rd MGT_STS.DEBUG_LVL else s.mgt.dbgNext % 4) ∧
    (rstCmd 3 v = true → ∃ t, exec (.nodeReset v) s = .next t ∧ t = nodeReset 1 s ∧ t.mem = s.mem ∧ t.fus = s.fus ∧ t.mgt = s.mgt ∧
      t.key.sessions = s.key.sessions ∧ t.key.links = [] ∧ t.rd PCM_RST_STS.LAST_KIND = 3 ∧ t.rd PCM_RST_STS.CAUSE = 1)) ∧
  (∀ (s : State) (v : Nat), rstCmd 4 v = true →
    let r := v % 4
    (bitOf (s.rd PCM_RST_STS.RBUSY) r = true → exec (.regionReset v) s = .next s) ∧
    (bitOf (s.rd PCM_RST_STS.RBUSY) r = false → exec (.regionReset v) s = .next (regionReset r 1 s)) ∧
    (bitOf (s.rd PCM_RST_STS.RBUSY) r = false → NothingRuns s → s.rd PCM_STATE.NODE < 2 → ∃ t, exec (.regionReset v) s = .next t ∧
      regionFenced t r = true ∧ bitOf (t.rd PCM_RST_STS.RBUSY) r = true ∧ t.rd PCM_RST_STS.LAST_KIND = 4 ∧
      t.rd STK_STS.SELF_REFRESH (2 * r) = 1 ∧ t.rd STK_STS.SELF_REFRESH (2 * r + 1) = 1 ∧ (∀ i < 16, t.rd CMP_SEQ_STS.STATE (16 * r + i) = 0 ∧ t.blk (16 * r + i) = {}) ∧
      (∀ b < 64, b / 16 ≠ r → t.blk b = s.blk b ∧ t.rd CMP_SEQ_STS.STATE b = s.rd CMP_SEQ_STS.STATE b) ∧
      t.rd STK_STS.FENCED (2 * r) = s.rd STK_STS.FENCED (2 * r) ∧ t.mem = s.mem ∧ t.key = s.key)) ∧
  (∀ (s : State) (r : Nat), (4 ≤ r ∨ bitOf (s.rd PCM_RST_STS.RBUSY) r = false → exec (.regionResetComplete r) s = .next s) ∧
    (r < 4 → bitOf (s.rd PCM_RST_STS.RBUSY) r = true →
      let u := stackWakes (2 * r + 1) (stackWakes (2 * r) (s.wr RAS_RFENCE_STS.FENCED 0 (clrBit (s.rd RAS_RFENCE_STS.FENCED) r)))
      exec (.regionResetComplete r) s = .next (u.wr PCM_RST_STS.RBUSY 0 (clrBit (u.rd PCM_RST_STS.RBUSY) r))) ∧
    (r < 4 → bitOf (s.rd PCM_RST_STS.RBUSY) r = true → (s.stkUnit (2 * r)).waiting = [] → (s.stkUnit (2 * r + 1)).waiting = [] →
      ∃ t, exec (.regionResetComplete r) s = .next t ∧ regionFenced t r = false ∧
        bitOf (t.rd PCM_RST_STS.RBUSY) r = false ∧ (∀ q < 4, q ≠ r → regionFenced t q = regionFenced s q) ∧
        (∀ k, k / 2 = r → t.rd STK_STS.SELF_REFRESH k = 0 ∧ t.rd STK_STS.TRAINED k = 1 ∧ (t.stkUnit k).postponed = []) ∧
        { t with regs := s.regs, stk := s.stk } = s)) ∧
  (∀ (s : State) (st : Nat) (fu : Bool) (fl : List Nat), (s.pcm.pwrGood = true → exec (.powerGoodRise st fu fl) s = .next s) ∧
    (s.pcm.pwrGood = false → ∃ t, exec (.powerGoodRise st fu fl) s = .next t ∧ t.pcm.pwrGood = true ∧ t.pcm.thermtrip = false ∧ t.rd PCM_STRAP.BOOT_SEL = st % 8 ∧
      t.rd PCM_STRAP.REFCLK_SEL = st / 8 % 2 ∧ t.rd PCM_STRAP.MGT_ADDR = st / 16 % 8 ∧ t.rd PCM_RST_STS.LAST_KIND = 1 ∧ t.rd PCM_RST_STS.CAUSE = 0 ∧ t.mem = s.mem ∧
      (fu = false → s.pcm.rstHeld = false → s.pcm.tapHeld = false → t.rd RSP_BOOT_STS.FAIL = 1 ∧ t.rd RSP_BOOT_STS.STEP = 1 ∧ t.rd RSP_BOOT_STS.REASON = 1))) ∧
  (∀ s : State, (s.pcm.pwrGood = false → exec .powerGoodFall s = .next s) ∧
    (s.pcm.pwrGood = true → ∃ t, exec .powerGoodFall s = .next t ∧ t.pcm.pwrGood = false ∧ nodeHeld t = true ∧ (∀ k < 8, t.rd STK_STS.SELF_REFRESH k = 1) ∧
      t.mem = s.mem ∧ t.col = {} ∧ t.rd PCM_RST_STS.LAST_KIND = 1)) ∧
  (∀ s : State, (bitOf (s.rd RAS_IN_STS.LEVEL) 0 = false ∨ s.pcm.rstHeld = true → exec .resetN s = .next s) ∧
    (bitOf (s.rd RAS_IN_STS.LEVEL) 0 = true → s.pcm.rstHeld = false → ∃ t, exec .resetN s = .next t ∧ t.pcm.rstHeld = true ∧ nodeHeld t = true ∧
      t.rd PCM_RST_STS.LAST_KIND = 2 ∧ t.rd PCM_RST_STS.CAUSE = 3 ∧ t.mem = s.mem ∧ t.col = {} ∧ bitOf (t.rd RAS_IN_STS.LEVEL) 0 = true) ∧
    (bitOf (s.rd RAS_IN_STS.LEVEL) 0 = true → s.pcm.rstHeld = true → ∃ t, exec (.inputLevel 0 false) s = .next t ∧ t.pcm.rstHeld = false ∧
      bitOf (t.rd RAS_IN_STS.LEVEL) 0 = false ∧ t.mem = s.mem)) ∧
  (∀ s : State, (s.pcm.pwrGood = true → exec .vddAonRise s = .fault .unspecifiedPower) ∧
    (s.pcm.pwrGood = false → ∃ t, exec .vddAonRise s = .next t ∧ t.regs = [] ∧ (∀ n, keySlot t n = {}) ∧ t.fus = s.fus ∧ t.mgt.flash = s.mgt.flash ∧
      (∀ a, t.byteAt a = if 2 ^ 46 ≤ a then s.byteAt a else none))) ∧
  (∀ s : State,
    exec .bypass s = .next { s with pcm.tapIr := .bypass, out := .tap 0 :: s.out } ∧
    exec .idcode s = .next { s with pcm.tapIr := .idcode, out := .tap 0x171604C9 :: s.out } ∧
    (∀ x, ∃ v, exec (.samplePreload x) s = .next { s with pcm.tapIr := .samplePreload, pcm.boundary := x, out := .tap v :: s.out, freeIx := s.freeIx + 1 }) ∧
    (s.rd MGT_STS.DEBUG_LVL = 2 → exec .tapPrivate s = .refused .privateTest) ∧ (s.rd MGT_STS.DEBUG_LVL ≠ 2 → exec .tapPrivate s = .next { s with pcm.tapIr := .bypass, out := .tap 0 :: s.out })) ∧
  (∀ (s : State) (c : Instr) (ir : TapIr), (c, ir) ∈ [(Instr.extest, TapIr.extest), (.extestPulse, .extestPulse), (.extestTrain, .extestTrain), (.clamp, .clamp), (.highz, .highz)] →
    ∃ t v, exec c s = .next t ∧ t.pcm.tapIr = ir ∧ t.pcm.tapHeld = true ∧ nodeHeld t = true ∧ t.out = .tap v :: s.out ∧ t.mem = s.mem ∧ (ir = .clamp ∨ ir = .highz → v = 0) ∧
      (s.pcm.tapHeld = true → t.regs = s.regs ∧ t.key = s.key) ∧ (s.pcm.tapHeld = false → s.pcm.pwrGood = true → t.rd PCM_RST_STS.LAST_KIND = 2 ∧ t.col = {})) ∧
  (∀ (s : State) (fl : List Nat), (s.pcm.tapHeld = false → exec (.testLogicReset fl) s = .next { s with pcm.tapIr := .idcode }) ∧
    (s.pcm.tapHeld = true → ∃ t, exec (.testLogicReset fl) s = .next t ∧ t.pcm.tapHeld = false ∧ t.pcm.tapIr = .idcode ∧ t.mem = s.mem))

/-- Where the bus does not reach the processor a request does nothing; a zeroized node answers Unspecified. Else version,
capabilities and algorithms are those of Table 15.2; digests, the slot 0 certificate, a challenge and measurements 1 to
5 are answered, signed with the Alias key over fresh nonces (what is signed is the model's abstraction); another slot or
index is UnsupportedRequest. KEY_EXCHANGE opens the lowest free of eight sessions; a ninth is SessionLimitExceeded.
FINISH establishes a session with its requester; one that fails drops it, a failed authentication counted. HEARTBEAT
keeps a session, KEY_UPDATE changes its secret, END_SESSION and 60 s without a message end it; a request in a session
not established is UnexpectedRequest. A vendor-defined request outside a session is UnsupportedRequest; inside one it
acts as its key message (a reserved OP is a format error) or, over DOE, as its IDE_KM message. KEY_PROG, K_SET_GO and
K_SET_STOP act on the stream of their port, with keys needed to go.
Rests on R339, R341, R342, R347, R349, R359, R360, R362. -/
def Obligations.SpdmIsAnsweredAndSessionsAreKept : Prop :=
  (∀ (s : State) (bus : SpdmBus), spdmReach bus s = false → ∀ (o : List SpdmAlg) (n a b : Nat) (f : Bool) (au : Option (Nat × Bool)) (p : Option Nat),
    ∀ c ∈ [Instr.getVersion bus, .getCapabilities bus, .negotiateAlgorithms bus o, .getDigests bus none, .getCertificate bus none n a b, .challenge bus a b,
      .getMeasurements bus none a f b, .keyExchange bus a b, .finish bus n f au p, .spdmHeartbeat bus n, .keyUpdate bus n, .endSession bus n],
      exec c s = .next s) ∧
  (∀ (s : State) (bus : SpdmBus), spdmReach bus s = true → s.key.zeroized = true → ∀ (o : List SpdmAlg) (a b : Nat) (f : Bool),
    ∀ c ∈ [Instr.getVersion bus, .getCapabilities bus, .negotiateAlgorithms bus o, .getDigests bus none, .getCertificate bus none a a b, .challenge bus a b,
      .getMeasurements bus none a f b, .keyExchange bus a b, .vendorDefinedRequest bus none .other], exec c s = .next (spdmSaid 0 (.error .unspecified) s)) ∧
  (∀ (s : State) (bus : SpdmBus) (n : Nat), spdmReach bus s = true → s.key.zeroized = true →
    (∀ f au p, exec (.finish bus n f au p) s = .next (spdmSaid n (.error .unspecified) s)) ∧
    (∀ x, InSession s n x → ∀ c ∈ [Instr.spdmHeartbeat bus n, .keyUpdate bus n, .endSession bus n],
      exec c s = .next (spdmSaid n (.error .unspecified) (sessionHeard n x s)))) ∧
  (∀ (s : State) (bus : SpdmBus), SpdmOn bus s →
    exec (.getVersion bus) s = .next (spdmSaid 0 (.version [0x13, 0x12]) s) ∧
    exec (.getCapabilities bus) s = .next (spdmSaid 0 (.capabilities spdmCaps) s) ∧
    (∀ o, exec (.negotiateAlgorithms bus o) s = .next (spdmSaid 0 (.algorithms (spdmAlgs.filter o.contains)) s)) ∧
    exec (.getDigests bus none) s = .next (spdmSaid 0 (.digests (chainDigest s)) s) ∧
    (∀ a b, exec (.getCertificate bus none 0 a b) s =
      .next (spdmSaid 0 (.certificate (((certChain s).drop a).take b) (((certChain s).drop a).length - b)) s)) ∧
    (∀ k a b, k ≠ 0 → exec (.getCertificate bus none k a b) s = .next (spdmSaid 0 (.error .unsupportedRequest) s) ∧
      exec (.challenge bus k a) s = .next (spdmSaid 0 (.error .unsupportedRequest) s)) ∧
    (∀ x, exec (.challenge bus 0 x) s =
      .next { spdmSaid 0 (.challengeAuth (chainDigest s) s.draw (aliasSign s x s.draw [chainDigest s])) s with freeIx := s.freeIx + 1 }) ∧
    (∀ i x, 5 < i → i ≠ 255 → ∀ f, exec (.getMeasurements bus none i f x) s = .next (spdmSaid 0 (.error .unsupportedRequest) s)) ∧
    (∀ i x, 1 ≤ i → i ≤ 5 →
      exec (.getMeasurements bus none i true x) s =
        .next { spdmSaid 0 (.measurements 5 [(i, measOf s i)] s.draw (some (aliasSign s x s.draw [measOf s i]))) s with freeIx := s.freeIx + 1 } ∧
      exec (.getMeasurements bus none i false x) s =
        .next { spdmSaid 0 (.measurements 5 [(i, measOf s i)] s.draw none) s with freeIx := s.freeIx + 1 }) ∧
    (∀ x, exec (.getMeasurements bus none 0 false x) s = .next { spdmSaid 0 (.measurements 5 [] s.draw none) s with freeIx := s.freeIx + 1 }) ∧
    (∀ x, exec (.getMeasurements bus none 255 false x) s =
      .next { spdmSaid 0 (.measurements 5 ([1, 2, 3, 4, 5].map fun i => (i, measOf s i)) s.draw none) s with freeIx := s.freeIx + 1 })) ∧
  (∀ (s : State) (bus : SpdmBus) (n : Nat) (x : Session), SpdmOn bus s → InSession s n x →
    exec (.getDigests bus (some n)) s = .next (spdmSaid n (.digests (chainDigest s)) (sessionHeard n x s)) ∧
    (∀ a b, exec (.getCertificate bus (some n) 0 a b) s =
      .next (spdmSaid n (.certificate (((certChain s).drop a).take b) (((certChain s).drop a).length - b)) (sessionHeard n x s))) ∧
    (∀ i y, 1 ≤ i → i ≤ 5 → exec (.getMeasurements bus (some n) i false y) s =
      .next { spdmSaid n (.measurements 5 [(i, measOf s i)] s.draw none) (sessionHeard n x s) with freeIx := s.freeIx + 1 }) ∧
    exec (.spdmHeartbeat bus n) s = .next (spdmSaid n .heartbeat (sessionHeard n x s)) ∧
    (∃ t, exec (.keyUpdate bus n) s = .next t ∧ KMap.find? t.key.sessions n = some { x with last := s.now, secret := Config.derive x.secret 0 } ∧
      t.out = .spdmAns n .keyUpdate :: s.out ∧ SameBut s.key.sessions t.key.sessions n ∧ { t with out := s.out, key.sessions := s.key.sessions } = s) ∧
    (∃ t, exec (.endSession bus n) s = .next t ∧ KMap.find? t.key.sessions n = none ∧ t.out = .spdmAns n .endSession :: s.out ∧
      SameBut s.key.sessions t.key.sessions n ∧ { t with out := s.out, key.sessions := s.key.sessions } = s) ∧
    (∀ m, exec (.vendorDefinedRequest bus (some n) .other) s = .next (spdmSaid n (.error .unsupportedRequest) (sessionHeard n x s)) ∧
      (bus = .mctp → exec (.vendorDefinedRequest bus (some n) (.ideKm m)) s = .next (spdmSaid n (.error .unsupportedRequest) (sessionHeard n x s)))) ∧
    (∀ b, (leAt b 0 1 = 1 → exec (.vendorDefinedRequest bus (some n) (.beygar b)) s = exec (.keyLoad n b) s) ∧
      (leAt b 0 1 = 2 → exec (.vendorDefinedRequest bus (some n) (.beygar b)) s = exec (.keyRetire n b) s) ∧
      (leAt b 0 1 = 3 → exec (.vendorDefinedRequest bus (some n) (.beygar b)) s = exec (.keyQuery n b) s) ∧
      (x.mauth = true → leAt b 0 1 = 0 ∨ 3 < leAt b 0 1 → exec (.vendorDefinedRequest bus (some n) (.beygar b)) s =
        .next { sessionHeard n x s with out := .spdm n (keyAnswer (leAt b 0 1) ST.KEY_FORMAT (keyMsg b).slot s) :: s.out }))) ∧
  (∀ (s : State) (bus : SpdmBus) (m : VendorMsg), SpdmOn bus s →
    exec (.vendorDefinedRequest bus none m) s = .next (spdmSaid 0 (.error .unsupportedRequest) s)) ∧
  (∀ (s : State) (n sub key : Nat),
    exec (.vendorDefinedRequest .doe (some n) (.ideKm .query)) s = exec (.ideKmQuery (.host n)) s ∧
    exec (.vendorDefinedRequest .doe (some n) (.ideKm (.keyProg sub key))) s = exec (.keyProg (.host n) sub key) s ∧
    exec (.vendorDefinedRequest .doe (some n) (.ideKm .kSetGo)) s = exec (.kSetGo (.host n)) s ∧
    exec (.vendorDefinedRequest .doe (some n) (.ideKm .kSetStop)) s = exec (.kSetStop (.host n)) s) ∧
  (∀ (s : State) (bus : SpdmBus) (n : Nat), SpdmOn bus s → sessionOpen s n = false → ∀ c ∈ [Instr.spdmHeartbeat bus n, .keyUpdate bus n, .endSession bus n],
    exec c s = .next (spdmSaid n (.error .unexpectedRequest) s)) ∧
  (∀ (s : State) (bus : SpdmBus) (share : Nat), SpdmOn bus s →
    (∀ n, 1 ≤ n → n ≤ 8 → KMap.find? s.key.sessions n = none → (∀ m, 1 ≤ m → m < n → KMap.find? s.key.sessions m ≠ none) →
      ∃ t sig, exec (.keyExchange bus 0 share) s = .next t ∧
        KMap.find? t.key.sessions n = some { last := s.now, secret := Config.derive s.draw share } ∧ SameBut s.key.sessions t.key.sessions n ∧
        t.out = .spdmAns n (.keyExchange s.draw sig) :: s.out ∧ { t with out := s.out, freeIx := s.freeIx, key.sessions := s.key.sessions } = s) ∧
    ((∀ m, 1 ≤ m → m ≤ 8 → KMap.find? s.key.sessions m ≠ none) → exec (.keyExchange bus 0 share) s = .next (spdmSaid 0 (.error .sessionLimitExceeded) s)) ∧
    (∀ k, k ≠ 0 → exec (.keyExchange bus k share) s = .next (spdmSaid 0 (.error .unsupportedRequest) s))) ∧
  (∀ (s : State) (bus : SpdmBus) (n : Nat) (p : Option Nat), SpdmOn bus s →
    (∀ f au, KMap.find? s.key.sessions n = none → exec (.finish bus n f au p) s = .next (spdmSaid n (.error .unexpectedRequest) s)) ∧
    (∀ x, KMap.find? s.key.sessions n = some x → x.done = false →
      (∃ t, exec (.finish bus n true none p) s = .next t ∧
        KMap.find? t.key.sessions n = some { x with done := true, mauth := false, cert := 0, part := p, last := s.now } ∧
        t.out = .spdmAns n .finish :: s.out ∧ SameBut s.key.sessions t.key.sessions n ∧ { t with out := s.out, key.sessions := s.key.sessions } = s) ∧
      (∀ k, ∃ t, exec (.finish bus n true (some (k, true)) p) s = .next t ∧
        KMap.find? t.key.sessions n = some { x with done := true, mauth := true, cert := k, part := p, last := s.now } ∧
        t.out = .spdmAns n .finish :: s.out ∧ SameBut s.key.sessions t.key.sessions n ∧ { t with out := s.out, key.sessions := s.key.sessions } = s) ∧
      (∀ au, ∃ t, exec (.finish bus n false au p) s = .next t ∧ KMap.find? t.key.sessions n = none ∧ t.out = .spdmAns n (.error .decryptError) :: s.out ∧
        SameBut s.key.sessions t.key.sessions n ∧ { t with out := s.out, key.sessions := s.key.sessions } = s) ∧
      (∀ k, exec (.finish bus n true (some (k, false)) p) s =
        .next (spdmSaid n (.error .decryptError) (sessionFail p { s with key.sessions := KMap.erase s.key.sessions n }))))) ∧
  (∀ (s : State) (n : Nat), (KMap.find? s.key.sessions n = none → exec (.spdmSessionTimeout n) s = .next s) ∧
    (∀ x, KMap.find? s.key.sessions n = some x →
      (s.now < x.last + 60000000000 → exec (.spdmSessionTimeout n) s = .next s) ∧
      (x.last + 60000000000 ≤ s.now → ∃ t, exec (.spdmSessionTimeout n) s = .next t ∧ KMap.find? t.key.sessions n = none ∧
        SameBut s.key.sessions t.key.sessions n ∧ { t with key.sessions := s.key.sessions } = s))) ∧
  (∀ (s : State) (n sub key : Nat) (x : Session), SpdmOn .doe s → InSession s n x →
    exec (.ideKmQuery (.host n)) s = .next (spdmSaid n (.ideQuery 0 (s.ide 0).go) (sessionHeard n x s)) ∧
    (∃ t, exec (.keyProg (.host n) sub key) s = .next t ∧ t.ide 0 = { s.ide 0 with keys := KMap.insert (s.ide 0).keys sub key, stop := false } ∧
      t.out = .spdmAns n .keyProg :: s.out ∧ SameBut s.key.ide t.key.ide 0 ∧ t.regs = s.regs) ∧
    (∃ t, exec (.kSetGo (.host n)) s = .next t ∧ t.ide 0 = { s.ide 0 with go := (s.ide 0).go || !(s.ide 0).keys.isEmpty } ∧
      t.out = .spdmAns n .setGo :: s.out ∧ SameBut s.key.ide t.key.ide 0 ∧ t.rd HST_LINK_STS.IDE = b2n ((s.ide 0).go || !(s.ide 0).keys.isEmpty) ∧
      SameRegs s t [HST_LINK_STS.IDE.key 0]) ∧
    (∃ t, exec (.kSetStop (.host n)) s = .next t ∧ t.ide 0 = { s.ide 0 with go := false } ∧ t.out = .spdmAns n .setStop :: s.out ∧
      SameBut s.key.ide t.key.ide 0 ∧ t.rd HST_LINK_STS.IDE = 0)) ∧
  (∀ (s : State) (p sub key : Nat),
    let on := decide (p < 4) && rspRuns s && !s.key.zeroized && s.flag (TIER_PORT_CFG.IDE_EN p) && s.flag (TIER_PORT_STS.UP p)
    exec (.ideKmQuery (.tier p)) s = .next s ∧
    (on = false → exec (.keyProg (.tier p) sub key) s = .next s ∧ exec (.kSetGo (.tier p)) s = .next s ∧ exec (.kSetStop (.tier p)) s = .next s) ∧
    (on = true →
      (∃ t, exec (.keyProg (.tier p) sub key) s = .next t ∧ t.ide (1 + p) = { s.ide (1 + p) with keys := KMap.insert (s.ide (1 + p)).keys sub key, stop := false } ∧
        SameBut s.key.ide t.key.ide (1 + p) ∧ t.regs = s.regs ∧ t.out = s.out) ∧
      (∃ t, exec (.kSetGo (.tier p)) s = .next t ∧ t.ide (1 + p) = { s.ide (1 + p) with go := (s.ide (1 + p)).go || !(s.ide (1 + p)).keys.isEmpty } ∧
        SameBut s.key.ide t.key.ide (1 + p) ∧ t.out = s.out) ∧
      (∃ t, exec (.kSetStop (.tier p)) s = .next t ∧ t.ide (1 + p) = { s.ide (1 + p) with go := false } ∧ SameBut s.key.ide t.key.ide (1 + p) ∧ t.out = s.out)))

/-- A message reaches the management controller while it runs and its transport is up, counted; else on I3C and SMBus the D0
responder answers Get Endpoint ID, the version, STATUS, WAKE and RESET, and RECOVERY_WRITE while boot has failed; any
other does nothing. Set Endpoint ID sets one ID (0 and 255 refused, PRESUMED). Types outside the supported are refused
or counted. Forme commands act as the register's with what has been collected. Owner keys are programmed once, while
none is and in PROOF or in an owner session; revoking, SVN commit and debug unlock need that session, level 2 waiting
for a warm reset. RESET, WAKE and KEEP act as their registers. An update agent is served alone; a component goes to slot
A with the old one in slot B, and is put back if it fails to verify. Events wait for the receiver's acknowledgment. A
record falls due each period, formed or skipped with its count.
Rests on R343, R448, R449, R450, R451, R452, R453, R454, R457, R458, R459. -/
def Obligations.ManagementIsAnswered : Prop :=
  (∀ (s : State) (r : MgtSrc), (mgtRuns s = true → busUp s r.bus = false → ∀ (m : MctpMsg) (e v : Nat) (b : Bytes) (f g : Bool),
      ∀ c ∈ [Instr.mctpMessage r m, .setEndpointId r e, .getEndpointId r, .getMctpVersionSupport r, .formeLoad r f g b, .formeGo r, .formeCancel r, .ownerProg r e v e,
        .ownerRevoke r e, .svnCommit r, .debugUnlock r e, .telReceiver r e, .telRead r, .pldmReset r v [], .pldmWake r, .pldmKeep r, .recoveryWrite r f e b, .statusQuery r,
        .requestUpdate r, .updateComponent r e b f, .setEventReceiver r e, .eventAck r], exec c s = .next s) ∧
    (mgtRuns s = false → ∀ (m : MctpMsg) (e v : Nat) (b : Bytes) (f g : Bool),
      ∀ c ∈ [Instr.mctpMessage r m, .setEndpointId r e, .formeLoad r f g b, .formeGo r, .formeCancel r, .ownerProg r e v e, .ownerRevoke r e, .svnCommit r,
        .debugUnlock r e, .telReceiver r e, .telRead r, .pldmKeep r, .requestUpdate r, .updateComponent r e b f, .setEventReceiver r e, .eventAck r], exec c s = .next s) ∧
    (mgtRuns s = false → lowBus r.bus = false → ∀ (v : Nat) (b : Bytes) (f : Bool),
      ∀ c ∈ [Instr.getEndpointId r, .getMctpVersionSupport r, .statusQuery r, .pldmWake r, .pldmReset r v [], .recoveryWrite r f v b], exec c s = .next s)) ∧
  (∀ (s u : State) (r : MgtSrc), (MgtOn r s ∧ u = mgtHeard r s) ∨ (D0On r s ∧ u = s) →
    exec (.getEndpointId r) s = .next { u with out := .mctp r.eid (0 :: natLe 1 (u.rd MGT_STS.EID)) :: u.out } ∧
    exec (.getMctpVersionSupport r) s = .next { u with out := .mctp r.eid (0 :: natLe 4 Config.mctpVersion) :: u.out } ∧
    exec (.statusQuery r) s = .next (pldmAns r .success ST.OK (statusWord u PCM_STATE.NODE ++ statusWord u PCM_RST_STS.CAUSE ++
      statusWord u RAS_NODE_STS.STATE ++ statusWord u RSP_BOOT_STS.FAIL) u) ∧
    exec (.pldmWake r) s = .next (wakeUp (pldmDone r u)) ∧
    (∀ v fl, (rstCmd 1 v = true → exec (.pldmReset r v fl) s = .next (coldReset 2 true fl (pldmDone r u))) ∧
      (rstCmd 2 v = true → exec (.pldmReset r v fl) s = .next (warmReset 2 fl (pldmDone r u))) ∧
      (rstCmd 3 v = true → exec (.pldmReset r v fl) s = .next (nodeReset 2 (pldmDone r u))) ∧
      (rstCmd 4 v = true → exec (.pldmReset r v fl) s = .next (regionReset (v % 4) 2 (pldmDone r u))) ∧
      ((∀ k, 1 ≤ k → k ≤ 4 → rstCmd k v = false) → exec (.pldmReset r v fl) s = .next (pldmDone r u)))) ∧
  (∀ (s : State) (r : MgtSrc), MgtOn r s → (mgtHeard r s).rd (MGT_CNT.COUNT 0) = min (2 ^ 32 - 1) (s.rd (MGT_CNT.COUNT 0) + 1)) ∧
  (∀ (s : State) (r : MgtSrc), MgtOn r s →
    let u := mgtHeard r s
    (∀ e, e % 256 ≠ 0 → e % 256 ≠ 255 → ∃ t, exec (.setEndpointId r e) s = .next t ∧ t.rd MGT_STS.EID = e % 256 ∧
      t.out = .mctp r.eid (0 :: natLe 1 e) :: s.out ∧ SameRegs u t [MGT_STS.EID.key 0]) ∧
    (∀ e, e % 256 = 0 ∨ e % 256 = 255 → exec (.setEndpointId r e) s = .next { u with out := .mctp r.eid [2] :: u.out }) ∧
    exec (.mctpMessage r .control) s = .next { u with out := .mctp r.eid [5] :: u.out } ∧
    (∀ ty, ty ∉ pldmTypes → exec (.mctpMessage r (.pldm ty)) s = .next (pldmAns r .invalidType ST.OK [] u)) ∧
    (∀ ty, ty ∈ pldmTypes → exec (.mctpMessage r (.pldm ty)) s = .next (pldmAns r .unsupportedCmd ST.OK [] u)) ∧
    (∀ i, i ∈ sensorIds → exec (.mctpMessage r (.readSensor i)) s = .next (pldmAns r .success ST.OK (natLe 4 (KMap.get 0 s.mgt.sens i)) u)) ∧
    (∀ i, i ∉ sensorIds → exec (.mctpMessage r (.readSensor i)) s = .next (pldmAns r .invalidData ST.OK [] u)) ∧
    (∀ ty, ty ∉ [0, 1, 5, 6] → exec (.mctpMessage r (.other ty)) s = .next (u.bump (MGT_CNT.COUNT 1))) ∧
    (∀ ty, ty ∈ [0, 1, 5, 6] → exec (.mctpMessage r (.other ty)) s = .next u) ∧
    (∀ f b, b.length ≤ 1024 → let z := (if f then [] else s.mgt.load) ++ b
      z.length ≤ 2097152 →
      exec (.formeLoad r f false b) s = .next (pldmDone r { u with mgt.load := z }) ∧
      (s.rd RSP_FORME_STS.STATE < 3 → s.rd RSP_FORME_STS.STATE ≠ 1 → s.rd PCM_STRAP.BOOT_SEL ≠ 7 → ∃ t, exec (.formeLoad r f true b) s = .next t ∧
        t.fme = { s.fme with loading := some z, staged := none } ∧ t.rd RSP_FORME_STS.STATE = 1 ∧ t.mgt.load = [] ∧ t.out = .pldm r.eid .success ST.OK [] :: s.out) ∧
      (3 ≤ s.rd RSP_FORME_STS.STATE → ∃ t, exec (.formeLoad r f true b) s = .next t ∧ t.fme = s.fme ∧ t.out = .pldm r.eid .error ST.FORME_BUSY [] :: s.out)) ∧
    (∀ f g b, 1024 < b.length → exec (.formeLoad r f g b) s = .next (pldmAns r .invalidData ST.OK [] u)) ∧
    (∃ t, exec .go u = .next t ∧ exec (.formeGo r) s = .next (pldmAns r (goStatus u).1 (goStatus u).2 [] t)) ∧
    (∃ t, exec .cancel u = .next t ∧ exec (.formeCancel r) s = .next (pldmAns r (cancelStatus u).1 (cancelStatus u).2 [] t)) ∧
    exec (.pldmKeep r) s = .next (keepCmd (pldmDone r u)) ∧
    (∀ f o b, exec (.recoveryWrite r f o b) s = .next (pldmRefuse r u))) ∧
  (∀ (s : State) (r : MgtSrc), MgtOn r s →
    let u := mgtHeard r s
    (∀ n a h, n < 4 → a < 2 → KMap.find? s.fus.owners n = none → ownerSession u r = true ∨ ((∀ m < 4, KMap.find? s.fus.owners m = none) ∧ s.rd RAS_NODE_STS.STATE = 0) →
      ∃ t, exec (.ownerProg r n a h) s = .next t ∧ t.fus.owners = KMap.insert s.fus.owners n (a, h % 2 ^ 384) ∧ t.fus.svn = s.fus.svn ∧ t.fus.revoked = s.fus.revoked ∧
        t.rd (RSP_OWNER_STS.PROG n) = 1 ∧ t.rd (RSP_OWNER_STS.ALG n) = a ∧ t.out = .pldm r.eid .success ST.OK [] :: s.out) ∧
    (∀ n a h, n < 4 → a < 2 → KMap.find? s.fus.owners n ≠ none ∨ (ownerSession u r = false ∧ s.rd RAS_NODE_STS.STATE ≠ 0) →
      exec (.ownerProg r n a h) s = .next (pldmRefuse r u)) ∧
    (∀ n a h, 4 ≤ n ∨ 2 ≤ a → exec (.ownerProg r n a h) s = .next (pldmAns r .invalidData ST.OK [] u)) ∧
    (∀ n, 4 ≤ n → exec (.ownerRevoke r n) s = .next (pldmAns r .invalidData ST.OK [] u)) ∧
    (∀ l, l ≠ 1 → l ≠ 2 → exec (.debugUnlock r l) s = .next (pldmAns r .invalidData ST.OK [] u)) ∧
    (∀ n, n < 4 → (ownerSession u r = false → exec (.ownerRevoke r n) s = .next (pldmRefuse r u)) ∧
      (ownerSession u r = true → ∃ t, exec (.ownerRevoke r n) s = .next t ∧ bitOf t.fus.revoked n = true ∧ (∀ m, m ≠ n → bitOf t.fus.revoked m = bitOf s.fus.revoked m) ∧
        t.fus.owners = s.fus.owners ∧ t.rd (RSP_OWNER_STS.REVOKED n) = 1)) ∧
    (ownerSession u r = false → exec (.svnCommit r) s = .next (pldmRefuse r u) ∧ ∀ l, 1 ≤ l → l ≤ 2 → exec (.debugUnlock r l) s = .next (pldmRefuse r u)) ∧
    (ownerSession u r = true →
      (∃ t, exec (.svnCommit r) s = .next t ∧ t.fus.svn = max s.fus.svn (min 64 (s.rd RSP_FW_SVN.RUN)) ∧ t.fus.owners = s.fus.owners ∧
        t.out = .pldm r.eid .success ST.OK [] :: s.out) ∧
      (∃ t, exec (.debugUnlock r 1) s = .next t ∧ t.rd MGT_STS.DEBUG_LVL = 1 ∧ t.mgt.dbgNext = 0 ∧ SameRegs u t [MGT_STS.DEBUG_LVL.key 0]) ∧
      (∃ t, exec (.debugUnlock r 2) s = .next t ∧ t.rd MGT_STS.DEBUG_LVL = s.rd MGT_STS.DEBUG_LVL ∧ t.mgt.dbgNext = 2 ∧ t.regs = u.regs))) ∧
  (∀ (s : State) (r : MgtSrc), mgtRuns s = false →
    (s.flag RSP_BOOT_STS.FAIL = false → ∀ f o b, exec (.recoveryWrite r f o b) s = .next s) ∧
    (s.flag RSP_BOOT_STS.FAIL = true → lowBus r.bus = true → ∀ (f : Bool) (o : Nat) (b : Bytes), 1024 < b.length ∨ slotSize (if f then 2 else 0) < o + b.length →
      exec (.recoveryWrite r f o b) s = .next (pldmAns r .invalidData ST.OK [] s)) ∧
    (s.flag RSP_BOOT_STS.FAIL = true → lowBus r.bus = true → ∀ (f : Bool) (o : Nat) (b : Bytes), b.length ≤ 1024 → o + b.length ≤ slotSize (if f then 2 else 0) →
      ∃ t, exec (.recoveryWrite r f o b) s = .next t ∧ (flashSlot t (if f then 2 else 0)).take (o + b.length) =
          (if o = 0 then [] else (flashSlot s (if f then 2 else 0)).take o ++ List.replicate (o - (flashSlot s (if f then 2 else 0)).length) 0xFF) ++ b ∧
        (o = 0 → flashSlot t (if f then 2 else 0) = b) ∧ SameBut s.mgt.flash t.mgt.flash (if f then 2 else 0) ∧ { t with out := s.out, mgt.flash := s.mgt.flash } = s)) ∧
  (∀ (s : State) (r : MgtSrc), MgtOn r s →
    let u := mgtHeard r s
    (s.mgt.updater = none → ∃ t, exec (.requestUpdate r) s = .next t ∧ t.mgt.updater = some r.eid ∧ t.rd MGT_STS.UPDATE = 1 ∧ t.out = .pldm r.eid .success ST.OK [] :: s.out) ∧
    (∀ e, s.mgt.updater = some e → exec (.requestUpdate r) s = .next (if e = r.eid then pldmDone r u else pldmAns r .alreadyInUpdateMode ST.OK [] u)) ∧
    (s.mgt.updater ≠ some r.eid → ∀ k b l, exec (.updateComponent r k b l) s = .next (pldmAns r .notInUpdateMode ST.OK [] u)) ∧
    (s.mgt.updater = some r.eid → ∀ k b l, (k = 0 ∨ 3 < k ∨ slotSize (2 * (k - 1)) < b.length → exec (.updateComponent r k b l) s = .next (pldmAns r .invalidData ST.OK [] u)) ∧
      (1 ≤ k → k ≤ 3 → b.length ≤ slotSize (2 * (k - 1)) → ∃ t code o, exec (.updateComponent r k b l) s = .next t ∧ t.out = .pldm r.eid code ST.OK [] :: o ∧
        (code = .success ∧ flashSlot t (2 * (k - 1)) = b ∨ code = .verifyErrorImageIncomplete ∧ flashSlot t (2 * (k - 1)) = flashSlot s (2 * (k - 1))) ∧
        flashSlot t (2 * (k - 1) + 1) = flashSlot s (2 * (k - 1)) ∧ t.mgt.updater = if l then none else some r.eid)) ∧
    (s.mgt.updater ≠ some r.eid → exec (.mctpMessage r .cancelUpdate) s = .next (pldmAns r .notInUpdateMode ST.OK [] u)) ∧
    (s.mgt.updater = some r.eid → ∃ t, exec (.mctpMessage r .cancelUpdate) s = .next t ∧ t.mgt.updater = none ∧ t.rd MGT_STS.UPDATE = 0)) ∧
  (∀ (s : State) (r : MgtSrc), MgtOn r s →
    let u := mgtHeard r s
    (∀ e, e % 256 ≠ 0 → ∃ t, exec (.setEventReceiver r e) s = .next t ∧ t.mgt.receiver = e % 256 ∧ t.mgt.events = s.mgt.events ∧
      t.out = (match s.mgt.events.head? with
        | some x => [OutMsg.eventMsg x]
        | none => []) ++ .pldm r.eid .success ST.OK [] :: s.out) ∧
    (∃ t, exec (.setEventReceiver r 0) s = .next t ∧ t.mgt.receiver = 0 ∧ t.out = .pldm r.eid .success ST.OK [] :: s.out) ∧
    (r.eid ≠ s.mgt.receiver ∨ s.mgt.receiver = 0 → exec (.eventAck r) s = .next u) ∧
    (r.eid = s.mgt.receiver → s.mgt.receiver ≠ 0 → ∃ t, exec (.eventAck r) s = .next t ∧ t.mgt.events = s.mgt.events.tail ∧
      t.out = (match s.mgt.events.tail.head? with
        | some x => [OutMsg.eventMsg x]
        | none => []) ++ s.out) ∧
    (∀ e, exec (.telReceiver r e) s = .next (pldmDone r { u with mgt.telTo := e % 256 })) ∧
    exec (.telRead r) s = .next (pldmAns r .success ST.OK ((s.mgt.tel.map telBytes).getD []) u)) ∧
  (∀ s : State, exec .smbusAlertResponse s =
    if mgtRuns s = true ∧ s.mgt.events ≠ [] then .next { s with out := .alertAddr (0x60 + s.rd PCM_STRAP.MGT_ADDR) :: s.out } else .next s) ∧
  (∀ (s : State) (w : Bool),
    (mgtRuns s = false ∨ telPeriod s = 0 ∨ s.now < s.mgt.telAt + telPeriod s * 1000000 → exec (.telemetryPeriod w) s = .next s) ∧
    (mgtRuns s = true → telPeriod s ≠ 0 → s.mgt.telAt + telPeriod s * 1000000 ≤ s.now →
      (w = true → s.mgt.tel ≠ none → s.mgt.telTo ≠ 0 → ∃ t, exec (.telemetryPeriod w) s = .next t ∧ t.mgt = { s.mgt with telAt := s.now, telGap := true } ∧
        t.rd MGT_TEL_SKIP_CNT.COUNT = min (2 ^ 32 - 1) (s.rd MGT_TEL_SKIP_CNT.COUNT + 1) ∧ t.out = s.out) ∧
      (w = false ∨ s.mgt.tel = none ∨ s.mgt.telTo = 0 → ∃ t x, exec (.telemetryPeriod w) s = .next t ∧ t.mgt = { s.mgt with telAt := s.now, telGap := false, tel := some x } ∧
        x.seq = ((s.mgt.tel.map (·.seq)).getD 0 + 1) % 2 ^ 32 ∧ x.gap = s.mgt.telGap ∧ x.oob = !timeInBound s ∧ x.tStart = fabTime s ∧ fabTime s ≤ x.tEnd ∧
        x.tEnd ≤ fabTime s + 20000 ∧ x.n = x.values.length ∧ t.regs = s.regs ∧
        t.out = (if s.mgt.telTo = 0 then [] else [OutMsg.telemetry s.mgt.telTo x]) ++ s.out)))

/-- The windows stand where Table 21.2 puts them, and a virtual function reaches its own function window alone. A read by a
requester that reaches nothing changes nothing. Any other read answers, and changes nothing but what was sent and the
latch. It gives zero at an unmapped or reserved offset, in a region in reset, and where its width or alignment is none;
otherwise the bytes of the register: all of a 64-bit register in 8 bytes, the low word with the high word latched, the
latched high word once (the present one with no latch), or 1 or 2 bytes. Every field stands in its register at its
place: zero where it is write-only, else the state it shows or what it holds. A host read of a node in KEEP wakes it
first. That the latch is one for each requester and register is the model's choice (assumption log).
Rests on R464, R465, R466, R467, R468, R470, R472. -/
def Obligations.RegistersReadBack : Prop :=
  (∀ r < 4, (∀ b < 16, ∀ o < 0x1000, windowAt (0x200000 + 0x40000 * r + 0x1000 * b + o) = some (.cmp, 16 * r + b, o)) ∧
    (∀ o < 0x1000, windowAt (0x210000 + 0x40000 * r + o) = some (.gal, r, o)) ∧
    (∀ k < 2, ∀ o < 0x1000, windowAt (0x211000 + 0x40000 * r + 0x1000 * k + o) = some (.stk, 2 * r + k, o)) ∧
    (∀ k < 2, ∀ o < 0x1000, windowAt (0x213000 + 0x40000 * r + 0x1000 * k + o) = some (.plt, 2 * r + k, o))) ∧
  (∀ n off, 1 ≤ n → n < 32 → (off < 0x10000 → ∃ a, reachAddr (.vf n) off = some a ∧ windowAt a = some (.prt, n, off)) ∧
    (0x10000 ≤ off → reachAddr (.vf n) off = none)) ∧
  (∀ (s : State) (who : Requester) (off len : Nat),
    (reachAddr who off = none ∨ (canAccess who s = false ∧ (isHost who = true → s.rd PCM_STATE.NODE ≠ 3)) → exec (.lowWordRead who off len) s = .next s) ∧
    (isHost who = true → s.rd PCM_STATE.NODE = 3 → nodeHeld s = false → (reachAddr who off).isSome = true →
      exec (.lowWordRead who off len) s = exec (.lowWordRead who off len) (wakeUp s))) ∧
  (∀ (s : State) (who : Requester) (off len a : Nat), Reaches s who off a →
    ∃ t v, exec (.lowWordRead who off len) s = .next t ∧ t.out = .regRead who off v :: s.out ∧ { t with latch := s.latch, out := s.out } = s ∧
      (windowAt a = none ∨ [1, 2, 4, 8].contains len = false ∨ a % len ≠ 0 → v = 0 ∧ t.latch = s.latch) ∧
      (∀ w u o, windowAt a = some (w, u, o) → winBusy s w u = true ∨ regAt w (o / 4 * 4) = none → v = 0 ∧ t.latch = s.latch) ∧
      (∀ w u o base wide, RegAt s a w u o base wide → a % len = 0 → len ∈ [4, 8] →
        let x := regValue s (whoIx who) u w o
        (len = 4 → wide = false → v = bits x (8 * (o - base)) 32 ∧ t.latch = s.latch) ∧
        (len = 4 → wide = true → o = base → v = bits x 0 32 ∧ t.latch = KMap.insert s.latch (latchKey who (a + 4)) (bits x 32 32)) ∧
        (len = 4 → wide = true → o = base + 4 → v = KMap.get (bits x 32 32) s.latch (latchKey who a) ∧
          KMap.find? t.latch (latchKey who a) = none ∧ SameBut s.latch t.latch (latchKey who a)) ∧
        (len = 8 → wide = true → o = base → v = x ∧ t.latch = s.latch) ∧
        (len = 8 → wide = false ∨ o ≠ base → v = 0 ∧ t.latch = s.latch)) ∧
      (∀ w u o base wide, windowAt a = some (w, u, o) → winBusy s w u = false → regAt w (o / 4 * 4) = some (base, wide) → a % len = 0 → len = 1 ∨ len = 2 →
        v = bits (regValue s (whoIx who) u w (o / 4 * 4)) (8 * (o - base)) (8 * len) ∧ t.latch = s.latch)) ∧
  (∀ (s : State) (who u : Nat) (w : Win) (o base : Nat) (wide : Bool) (f : Fld), regAt w o = some (base, wide) → o % 4 = 0 → f ∈ fieldsAt w base → f.off = base →
    bits (regValue s who u w o) f.lo f.wd =
      if f.ty = .wo then 0 else ((viewOf f (instOf s who u f) who s).getD (s.rd f (instOf s who u f))) % 2 ^ f.wd)

/-- A write that reaches nothing, the management controller's, one at an unmapped or reserved offset, of another width than
4 or 8 bytes, misaligned, or in a region in reset changes nothing. A write to a register that starts no command and acts
on nothing beyond its fields writes each RW field that takes the value (partly, where it covers it partly), clears the
written ones of W1C flags and a W1C count written with all ones, and leaves RO and RWL fields alone; no other field
changes. Where it would change an RWL field for anybody but the root processor, it is first counted, its address logged
and an informational record raised; a value out of range in FLO_CFG makes the write ignored whole. Writes to command
registers do what their rows do. A host write wakes a node in KEEP, and a write to the windows of a dozing region wakes
that region. The record's cause code and the pair rules are the model's (assumption log).
Rests on R6, R401, R465, R466, R467, R468, R469, R472. -/
def Obligations.RegistersAreWrittenByType : Prop :=
  (∀ (s : State) (who : Requester) (off len value : Nat),
    (reachAddr who off = none ∨ who = .mgt ∨ (canAccess who s = false ∧ (isHost who = true → s.rd PCM_STATE.NODE ≠ 3)) →
      exec (.registerWrite who off len value) s = .next s) ∧
    (isHost who = true → s.rd PCM_STATE.NODE = 3 → nodeHeld s = false → (reachAddr who off).isSome = true →
      exec (.registerWrite who off len value) s = exec (.registerWrite who off len value) (wakeUp s))) ∧
  (∀ (s : State) (who : Requester) (off len value a : Nat), Reaches s who off a →
    (windowAt a = none ∨ (len ≠ 4 ∧ len ≠ 8) ∨ a % len ≠ 0 → exec (.registerWrite who off len value) s = .next s) ∧
    (∀ w u o, windowAt a = some (w, u, o) → winBusy s w u = true → exec (.registerWrite who off len value) s = .next s) ∧
    (∀ w u o r, windowAt a = some (w, u, o) → winBusy s w u = false → len = 4 ∨ len = 8 → a % len = 0 → w = .cmp ∨ w = .gal → who ≠ .mgt →
      winRegion w u = some r → regionDozes s r = true → exec (.registerWrite who off len value) s = exec (.registerWrite who off len value) (regionUp r s))) ∧
  (∀ (s : State) (who : Requester) (off len value a : Nat) (w : Win) (u o : Nat), Reaches s who off a → who ≠ .mgt → windowAt a = some (w, u, o) →
    winBusy s w u = false → len = 4 ∨ len = 8 → a % len = 0 → (w = .cmp ∨ w = .gal → ∀ r, winRegion w u = some r → regionDozes s r = false) →
    (regAt w o = none → exec (.registerWrite who off len value) s = .next s) ∧
    (∀ base wide, regAt w o = some (base, wide) →
      (len = 8 → wide = false ∨ o ≠ base → exec (.registerWrite who off len value) s = .next s) ∧
      ((len = 8 → wide = true ∧ o = base) → commandWrite who w u o (value % 2 ^ 32) s = none → actsBeyond w base = false →
        let inst := fun f => instOf s (whoIx who) u f
        let fs := (fieldsAt w base).filter fun f => f.off = base
        let hit := fun f : Fld => f.ty = .rwl ∧ ∃ j < f.wd, Covers base o len (f.lo + j) ∧ bitOf value (f.lo + j - 8 * (o - base)) ≠ bitOf (s.rd f (inst f)) j
        ∃ s1 t, exec (.registerWrite who off len value) s = .next t ∧
          (who = .rsp ∨ (∀ f ∈ fs, ¬ hit f) → s1 = s) ∧
          (who ≠ .rsp → (∃ f ∈ fs, hit f) →
            s1 = report .chip { sev := 0, subsys := 17, cause := Config.causeCode 112 } ((s.bump RSP_QUOIN_VIOL_CNT.COUNT).wr RSP_QUOIN_VIOL_LOG.ADDR 0 a)) ∧
          RegsOnly s1 t (fs.map fun f => f.key (inst f)) ∧
          (w = .flo → base = 0 → (∃ f ∈ fs, fldOk f (bits value f.lo f.wd) = false) → t = s1) ∧
          ((w = .flo → base = 0 → ∀ f ∈ fs, fldOk f (bits value f.lo f.wd) = true) → ∀ f ∈ fs,
            ((∀ j < f.wd, ¬ Covers base o len (f.lo + j)) → t.rd f (inst f) = s1.rd f (inst f)) ∧
            ((∃ j < f.wd, Covers base o len (f.lo + j)) → ∃ n, Mixed f base o len value (s1.rd f (inst f)) n ∧
              (f.ty = .rw → t.rd f (inst f) =
                if fldOk f n = true ∧ pairBad f (value % 2 ^ (8 * len) * 2 ^ (8 * (o - base))) = false ∧ fieldLocked f (inst f) s = false then n else s1.rd f (inst f))) ∧
            (f.ty = .w1c → ∀ j < f.wd, bitOf (t.rd f (inst f)) j =
              (bitOf (s1.rd f (inst f)) j && !(decide (Covers base o len (f.lo + j)) && bitOf value (f.lo + j - 8 * (o - base))))) ∧
            (f.ty = .w1cCount → t.rd f (inst f) =
              if ∀ j < f.wd, Covers base o len (f.lo + j) ∧ bitOf value (f.lo + j - 8 * (o - base)) = true then 0 else s1.rd f (inst f)) ∧
            (f.ty = .ro ∨ f.ty = .rwl ∨ f.ty = .wo → t.rd f (inst f) = s1.rd f (inst f)))))) ∧
  (∀ (s : State) (who : Requester) (off v : Nat) (c : Instr), who = .pf ∨ who = .rsp → Reaches s who off off → v < 2 ^ 32 →
    (off, c) ∈ [(0xC, Instr.arbCommit who v), (0x4034, .reamCommit v), (0xA088, .rspKeyRetire who v), (0xA0AC, .alarmTest v), (0xA0B4, .zeroizeConfirm v)] →
    exec (.registerWrite who off 4 v) s = exec c s) ∧
  (∀ (s : State) (k v : Nat), k < 8 → Reaches s .pf (0x211000 + 0x40000 * (k / 2) + 0x1000 * (k % 2) + 0x44) (0x211000 + 0x40000 * (k / 2) + 0x1000 * (k % 2) + 0x44) →
    v < 2 ^ 32 → winBusy s .stk k = false →
    exec (.registerWrite .pf (0x211000 + 0x40000 * (k / 2) + 0x1000 * (k % 2) + 0x44) 4 v) s =
      exec (if bitOf v 31 then .remapInstall k v else .remapRemove k v) s) ∧
  (∀ (s : State) (n j v a : Nat), 1 ≤ n → n < 32 → j < 8 → v < 2 ^ 32 → Reaches s (.vf n) (0x1000 + 8 * j) a →
    exec (.registerWrite (.vf n) (0x1000 + 8 * j) 4 v) s = exec (.sqDoorbell n j v) s ∧
    exec (.registerWrite (.vf n) (0x1004 + 8 * j) 4 v) s = exec (.cqDoorbell n j v) s)
end

