-- ==== Sys2Proof/Laws/KMap.lean ====
section
/-!
SUPPORT. The laws of sparse data: what is read after a write at the same key and at another, and that every operation
keeps the keys strictly rising.
-/
namespace Sys2Proof.Machine

variable {α : Type}

/-! Reading after writing. -/

theorem KMap.find?_erase_self (m : KMap α) (k : Nat) : KMap.find? (KMap.erase m k) k = none := by
  induction m with
  | nil => rfl
  | cons e r ih =>
    obtain ⟨a, v⟩ := e
    by_cases h : a = k <;> simp_all [KMap.erase, KMap.find?]
    exact fun e => absurd e.symm h

theorem KMap.find?_erase_other (m : KMap α) {k j : Nat} (h : j ≠ k) : KMap.find? (KMap.erase m k) j = KMap.find? m j := by
  induction m with
  | nil => rfl
  | cons e r ih =>
    obtain ⟨a, v⟩ := e
    by_cases ha : a = k
    · subst ha; simp_all [KMap.erase, KMap.find?]
    · by_cases hj : j = a <;> simp_all [KMap.erase, KMap.find?]

theorem KMap.find?_place_self (m : KMap α) (k : Nat) (v : α) (h : KMap.find? m k = none) :
    KMap.find? (KMap.place m k v) k = some v := by
  induction m with
  | nil => simp [KMap.place, KMap.find?]
  | cons e r ih =>
    obtain ⟨a, w⟩ := e
    by_cases ha : k = a
    · simp [KMap.find?, ha] at h
    · have h' : KMap.find? r k = none := by simpa [KMap.find?, ha] using h
      by_cases hl : k < a
      · simp [KMap.place, KMap.find?, hl]
      · simp only [KMap.place, if_neg hl, KMap.find?, if_neg ha]; exact ih h'

theorem KMap.find?_place_other (m : KMap α) {k j : Nat} (v : α) (h : j ≠ k) :
    KMap.find? (KMap.place m k v) j = KMap.find? m j := by
  induction m with
  | nil => simp [KMap.place, KMap.find?, h]
  | cons e r ih =>
    obtain ⟨a, w⟩ := e
    by_cases hl : k < a
    · simp [KMap.place, KMap.find?, hl, h]
    · simp only [KMap.place, if_neg hl, KMap.find?, ih]

@[simp] theorem KMap.find?_insert_self (m : KMap α) (k : Nat) (v : α) : KMap.find? (KMap.insert m k v) k = some v :=
  KMap.find?_place_self _ k v (KMap.find?_erase_self m k)

theorem KMap.find?_insert_other (m : KMap α) {k j : Nat} (v : α) (h : j ≠ k) :
    KMap.find? (KMap.insert m k v) j = KMap.find? m j := by
  rw [KMap.insert, KMap.find?_place_other _ v h, KMap.find?_erase_other m h]

@[simp] theorem KMap.get_put_self [DecidableEq α] (d : α) (m : KMap α) (k : Nat) (v : α) :
    KMap.get d (KMap.put d m k v) k = v := by
  by_cases h : v = d <;> simp [KMap.get, KMap.put, h, KMap.find?_erase_self]

theorem KMap.find?_put_other [DecidableEq α] (d : α) (m : KMap α) {k j : Nat} (v : α) (h : j ≠ k) :
    KMap.find? (KMap.put d m k v) j = KMap.find? m j := by
  by_cases hv : v = d
  · simp [KMap.put, hv, KMap.find?_erase_other m h]
  · simp [KMap.put, hv, KMap.find?_insert_other m v h]

theorem KMap.get_put_other [DecidableEq α] (d e : α) (m : KMap α) {k j : Nat} (v : α) (h : j ≠ k) :
    KMap.get e (KMap.put d m k v) j = KMap.get e m j := by
  simp [KMap.get, KMap.find?_put_other d m v h]

@[simp] theorem KMap.get_nil (d : α) (k : Nat) : KMap.get d ([] : KMap α) k = d := rfl

/-! The canonical form. -/

/-- Every key of the list is above a bound. -/
def KMap.above (k : Nat) (m : KMap α) : Prop := ∀ e ∈ m, k < e.1

theorem KMap.sorted_cons (k : Nat) (v : α) (r : KMap α) :
    KMap.sorted ((k, v) :: r) = true ↔ KMap.above k r ∧ KMap.sorted r = true := by
  induction r generalizing k v with
  | nil => simp [KMap.sorted, KMap.above]
  | cons e t ih =>
    obtain ⟨a, w⟩ := e
    simp only [KMap.sorted, Bool.and_eq_true, decide_eq_true_eq, KMap.above, List.mem_cons, forall_eq_or_imp]
    constructor
    · rintro ⟨h1, h2⟩
      exact ⟨⟨h1, fun e he => Nat.lt_trans h1 (((ih a w).1 h2).1 e he)⟩, h2⟩
    · rintro ⟨⟨h1, -⟩, h2⟩
      exact ⟨h1, h2⟩

/-- Any part of sorted data, entries left out, is sorted. -/
theorem KMap.sorted_filter (m : KMap α) (p : Nat × α → Bool) (h : KMap.sorted m = true) :
    KMap.sorted (m.filter p) = true := by
  induction m with
  | nil => rfl
  | cons e r ih =>
    obtain ⟨a, v⟩ := e
    obtain ⟨h1, h2⟩ := (KMap.sorted_cons a v r).1 h
    by_cases hp : p (a, v)
    · rw [List.filter_cons_of_pos hp, KMap.sorted_cons]
      exact ⟨fun e he => h1 e (List.mem_of_mem_filter he), ih h2⟩
    · rw [List.filter_cons_of_neg hp]; exact ih h2

theorem KMap.sorted_erase (m : KMap α) (k : Nat) (h : KMap.sorted m = true) : KMap.sorted (KMap.erase m k) = true :=
  KMap.sorted_filter m _ h

theorem KMap.mem_place {m : KMap α} {k : Nat} {v : α} {e : Nat × α} (h : e ∈ KMap.place m k v) : e = (k, v) ∨ e ∈ m := by
  induction m with
  | nil => simpa [KMap.place] using h
  | cons x r ih =>
    obtain ⟨a, w⟩ := x
    by_cases hl : k < a
    · simpa [KMap.place, hl] using h
    · simp only [KMap.place, hl, if_false, List.mem_cons] at h ⊢
      rcases h with h | h
      · exact .inr (.inl h)
      · rcases ih h with h | h
        · exact .inl h
        · exact .inr (.inr h)

theorem KMap.sorted_place (m : KMap α) (k : Nat) (v : α) (hk : ∀ e ∈ m, e.1 ≠ k) (h : KMap.sorted m = true) :
    KMap.sorted (KMap.place m k v) = true := by
  induction m with
  | nil => rfl
  | cons x r ih =>
    obtain ⟨a, w⟩ := x
    obtain ⟨h1, h2⟩ := (KMap.sorted_cons a w r).1 h
    by_cases hl : k < a
    · simp only [KMap.place, hl, if_true]
      rw [KMap.sorted_cons]
      exact ⟨fun e he => by
        rcases List.mem_cons.1 he with rfl | he
        · exact hl
        · exact Nat.lt_trans hl (h1 e he), h⟩
    · have hne : a ≠ k := hk (a, w) (List.mem_cons_self ..)
      simp only [KMap.place, hl, if_false]
      rw [KMap.sorted_cons]
      refine ⟨fun e he => ?_, ih (fun e he => hk e (List.mem_cons_of_mem _ he)) h2⟩
      rcases KMap.mem_place he with rfl | he
      · show a < k; omega
      · exact h1 e he

theorem KMap.sorted_insert (m : KMap α) (k : Nat) (v : α) (h : KMap.sorted m = true) :
    KMap.sorted (KMap.insert m k v) = true :=
  KMap.sorted_place _ k v (fun e he => by simpa [KMap.erase] using (List.mem_filter.1 he).2) (KMap.sorted_erase m k h)

theorem KMap.sorted_put [DecidableEq α] (d : α) (m : KMap α) (k : Nat) (v : α) (h : KMap.sorted m = true) :
    KMap.sorted (KMap.put d m k v) = true := by
  unfold KMap.put
  split
  · exact KMap.sorted_erase m k h
  · exact KMap.sorted_insert m k v h

end Sys2Proof.Machine
end

