-- ==== Sys2Proof/Laws/State.lean ====
section
/-!
SUPPORT. The small laws of the state: what each update of the shared operations leaves in each field, and what a
register field reads after a write.
-/
namespace Sys2Proof.Machine

/-! `wr` changes `regs` alone. -/
@[simp] theorem wr_now (s : State) (f : Fld) (i v : Nat) : (s.wr f i v).now = s.now := rfl
@[simp] theorem wr_periods (s : State) (f : Fld) (i v : Nat) : (s.wr f i v).periods = s.periods := rfl
@[simp] theorem wr_freeIx (s : State) (f : Fld) (i v : Nat) : (s.wr f i v).freeIx = s.freeIx := rfl
@[simp] theorem wr_out (s : State) (f : Fld) (i v : Nat) : (s.wr f i v).out = s.out := rfl
@[simp] theorem wr_mem (s : State) (f : Fld) (i v : Nat) : (s.wr f i v).mem = s.mem := rfl
@[simp] theorem wr_chk (s : State) (f : Fld) (i v : Nat) : (s.wr f i v).chk = s.chk := rfl
@[simp] theorem wr_psn (s : State) (f : Fld) (i v : Nat) : (s.wr f i v).psn = s.psn := rfl
@[simp] theorem wr_latch (s : State) (f : Fld) (i v : Nat) : (s.wr f i v).latch = s.latch := rfl
@[simp] theorem wr_gut (s : State) (f : Fld) (i v : Nat) : (s.wr f i v).gut = s.gut := rfl
@[simp] theorem wr_ras (s : State) (f : Fld) (i v : Nat) : (s.wr f i v).ras = s.ras := rfl
@[simp] theorem wr_hst (s : State) (f : Fld) (i v : Nat) : (s.wr f i v).hst = s.hst := rfl
@[simp] theorem wr_stk (s : State) (f : Fld) (i v : Nat) : (s.wr f i v).stk = s.stk := rfl
@[simp] theorem wr_gal (s : State) (f : Fld) (i v : Nat) : (s.wr f i v).gal = s.gal := rfl
@[simp] theorem wr_plt (s : State) (f : Fld) (i v : Nat) : (s.wr f i v).plt = s.plt := rfl
@[simp] theorem wr_cmp (s : State) (f : Fld) (i v : Nat) : (s.wr f i v).cmp = s.cmp := rfl
@[simp] theorem wr_fme (s : State) (f : Fld) (i v : Nat) : (s.wr f i v).fme = s.fme := rfl
@[simp] theorem wr_key (s : State) (f : Fld) (i v : Nat) : (s.wr f i v).key = s.key := rfl
@[simp] theorem wr_flo (s : State) (f : Fld) (i v : Nat) : (s.wr f i v).flo = s.flo := rfl
@[simp] theorem wr_cwd (s : State) (f : Fld) (i v : Nat) : (s.wr f i v).cwd = s.cwd := rfl
@[simp] theorem wr_fab (s : State) (f : Fld) (i v : Nat) : (s.wr f i v).fab = s.fab := rfl
@[simp] theorem wr_tim (s : State) (f : Fld) (i v : Nat) : (s.wr f i v).tim = s.tim := rfl
@[simp] theorem wr_rch (s : State) (f : Fld) (i v : Nat) : (s.wr f i v).rch = s.rch := rfl
@[simp] theorem wr_rea (s : State) (f : Fld) (i v : Nat) : (s.wr f i v).rea = s.rea := rfl
@[simp] theorem wr_col (s : State) (f : Fld) (i v : Nat) : (s.wr f i v).col = s.col := rfl
@[simp] theorem wr_tier (s : State) (f : Fld) (i v : Nat) : (s.wr f i v).tier = s.tier := rfl
@[simp] theorem wr_job (s : State) (f : Fld) (i v : Nat) : (s.wr f i v).job = s.job := rfl
@[simp] theorem wr_fus (s : State) (f : Fld) (i v : Nat) : (s.wr f i v).fus = s.fus := rfl
@[simp] theorem wr_pcm (s : State) (f : Fld) (i v : Nat) : (s.wr f i v).pcm = s.pcm := rfl
@[simp] theorem wr_mgt (s : State) (f : Fld) (i v : Nat) : (s.wr f i v).mgt = s.mgt := rfl
@[simp] theorem wr_pending (s : State) (f : Fld) (i v : Nat) : (s.wr f i v).pending = s.pending := rfl

/-! `bumpBy` changes `regs` alone. -/
@[simp] theorem bumpBy_now (s : State) (f : Fld) (i n : Nat) : (s.bumpBy f i n).now = s.now := rfl
@[simp] theorem bumpBy_periods (s : State) (f : Fld) (i n : Nat) : (s.bumpBy f i n).periods = s.periods := rfl
@[simp] theorem bumpBy_freeIx (s : State) (f : Fld) (i n : Nat) : (s.bumpBy f i n).freeIx = s.freeIx := rfl
@[simp] theorem bumpBy_out (s : State) (f : Fld) (i n : Nat) : (s.bumpBy f i n).out = s.out := rfl
@[simp] theorem bumpBy_mem (s : State) (f : Fld) (i n : Nat) : (s.bumpBy f i n).mem = s.mem := rfl
@[simp] theorem bumpBy_chk (s : State) (f : Fld) (i n : Nat) : (s.bumpBy f i n).chk = s.chk := rfl
@[simp] theorem bumpBy_psn (s : State) (f : Fld) (i n : Nat) : (s.bumpBy f i n).psn = s.psn := rfl
@[simp] theorem bumpBy_latch (s : State) (f : Fld) (i n : Nat) : (s.bumpBy f i n).latch = s.latch := rfl
@[simp] theorem bumpBy_gut (s : State) (f : Fld) (i n : Nat) : (s.bumpBy f i n).gut = s.gut := rfl
@[simp] theorem bumpBy_ras (s : State) (f : Fld) (i n : Nat) : (s.bumpBy f i n).ras = s.ras := rfl
@[simp] theorem bumpBy_hst (s : State) (f : Fld) (i n : Nat) : (s.bumpBy f i n).hst = s.hst := rfl
@[simp] theorem bumpBy_stk (s : State) (f : Fld) (i n : Nat) : (s.bumpBy f i n).stk = s.stk := rfl
@[simp] theorem bumpBy_gal (s : State) (f : Fld) (i n : Nat) : (s.bumpBy f i n).gal = s.gal := rfl
@[simp] theorem bumpBy_plt (s : State) (f : Fld) (i n : Nat) : (s.bumpBy f i n).plt = s.plt := rfl
@[simp] theorem bumpBy_cmp (s : State) (f : Fld) (i n : Nat) : (s.bumpBy f i n).cmp = s.cmp := rfl
@[simp] theorem bumpBy_fme (s : State) (f : Fld) (i n : Nat) : (s.bumpBy f i n).fme = s.fme := rfl
@[simp] theorem bumpBy_key (s : State) (f : Fld) (i n : Nat) : (s.bumpBy f i n).key = s.key := rfl
@[simp] theorem bumpBy_flo (s : State) (f : Fld) (i n : Nat) : (s.bumpBy f i n).flo = s.flo := rfl
@[simp] theorem bumpBy_cwd (s : State) (f : Fld) (i n : Nat) : (s.bumpBy f i n).cwd = s.cwd := rfl
@[simp] theorem bumpBy_fab (s : State) (f : Fld) (i n : Nat) : (s.bumpBy f i n).fab = s.fab := rfl
@[simp] theorem bumpBy_tim (s : State) (f : Fld) (i n : Nat) : (s.bumpBy f i n).tim = s.tim := rfl
@[simp] theorem bumpBy_rch (s : State) (f : Fld) (i n : Nat) : (s.bumpBy f i n).rch = s.rch := rfl
@[simp] theorem bumpBy_rea (s : State) (f : Fld) (i n : Nat) : (s.bumpBy f i n).rea = s.rea := rfl
@[simp] theorem bumpBy_col (s : State) (f : Fld) (i n : Nat) : (s.bumpBy f i n).col = s.col := rfl
@[simp] theorem bumpBy_tier (s : State) (f : Fld) (i n : Nat) : (s.bumpBy f i n).tier = s.tier := rfl
@[simp] theorem bumpBy_job (s : State) (f : Fld) (i n : Nat) : (s.bumpBy f i n).job = s.job := rfl
@[simp] theorem bumpBy_fus (s : State) (f : Fld) (i n : Nat) : (s.bumpBy f i n).fus = s.fus := rfl
@[simp] theorem bumpBy_pcm (s : State) (f : Fld) (i n : Nat) : (s.bumpBy f i n).pcm = s.pcm := rfl
@[simp] theorem bumpBy_mgt (s : State) (f : Fld) (i n : Nat) : (s.bumpBy f i n).mgt = s.mgt := rfl
@[simp] theorem bumpBy_pending (s : State) (f : Fld) (i n : Nat) : (s.bumpBy f i n).pending = s.pending := rfl

/-! `bump` changes `regs` alone. -/
@[simp] theorem bump_now (s : State) (f : Fld) (i : Nat) : (s.bump f i).now = s.now := rfl
@[simp] theorem bump_periods (s : State) (f : Fld) (i : Nat) : (s.bump f i).periods = s.periods := rfl
@[simp] theorem bump_freeIx (s : State) (f : Fld) (i : Nat) : (s.bump f i).freeIx = s.freeIx := rfl
@[simp] theorem bump_out (s : State) (f : Fld) (i : Nat) : (s.bump f i).out = s.out := rfl
@[simp] theorem bump_mem (s : State) (f : Fld) (i : Nat) : (s.bump f i).mem = s.mem := rfl
@[simp] theorem bump_chk (s : State) (f : Fld) (i : Nat) : (s.bump f i).chk = s.chk := rfl
@[simp] theorem bump_psn (s : State) (f : Fld) (i : Nat) : (s.bump f i).psn = s.psn := rfl
@[simp] theorem bump_latch (s : State) (f : Fld) (i : Nat) : (s.bump f i).latch = s.latch := rfl
@[simp] theorem bump_gut (s : State) (f : Fld) (i : Nat) : (s.bump f i).gut = s.gut := rfl
@[simp] theorem bump_ras (s : State) (f : Fld) (i : Nat) : (s.bump f i).ras = s.ras := rfl
@[simp] theorem bump_hst (s : State) (f : Fld) (i : Nat) : (s.bump f i).hst = s.hst := rfl
@[simp] theorem bump_stk (s : State) (f : Fld) (i : Nat) : (s.bump f i).stk = s.stk := rfl
@[simp] theorem bump_gal (s : State) (f : Fld) (i : Nat) : (s.bump f i).gal = s.gal := rfl
@[simp] theorem bump_plt (s : State) (f : Fld) (i : Nat) : (s.bump f i).plt = s.plt := rfl
@[simp] theorem bump_cmp (s : State) (f : Fld) (i : Nat) : (s.bump f i).cmp = s.cmp := rfl
@[simp] theorem bump_fme (s : State) (f : Fld) (i : Nat) : (s.bump f i).fme = s.fme := rfl
@[simp] theorem bump_key (s : State) (f : Fld) (i : Nat) : (s.bump f i).key = s.key := rfl
@[simp] theorem bump_flo (s : State) (f : Fld) (i : Nat) : (s.bump f i).flo = s.flo := rfl
@[simp] theorem bump_cwd (s : State) (f : Fld) (i : Nat) : (s.bump f i).cwd = s.cwd := rfl
@[simp] theorem bump_fab (s : State) (f : Fld) (i : Nat) : (s.bump f i).fab = s.fab := rfl
@[simp] theorem bump_tim (s : State) (f : Fld) (i : Nat) : (s.bump f i).tim = s.tim := rfl
@[simp] theorem bump_rch (s : State) (f : Fld) (i : Nat) : (s.bump f i).rch = s.rch := rfl
@[simp] theorem bump_rea (s : State) (f : Fld) (i : Nat) : (s.bump f i).rea = s.rea := rfl
@[simp] theorem bump_col (s : State) (f : Fld) (i : Nat) : (s.bump f i).col = s.col := rfl
@[simp] theorem bump_tier (s : State) (f : Fld) (i : Nat) : (s.bump f i).tier = s.tier := rfl
@[simp] theorem bump_job (s : State) (f : Fld) (i : Nat) : (s.bump f i).job = s.job := rfl
@[simp] theorem bump_fus (s : State) (f : Fld) (i : Nat) : (s.bump f i).fus = s.fus := rfl
@[simp] theorem bump_pcm (s : State) (f : Fld) (i : Nat) : (s.bump f i).pcm = s.pcm := rfl
@[simp] theorem bump_mgt (s : State) (f : Fld) (i : Nat) : (s.bump f i).mgt = s.mgt := rfl
@[simp] theorem bump_pending (s : State) (f : Fld) (i : Nat) : (s.bump f i).pending = s.pending := rfl

/-! `addWrap` changes `regs` alone. -/
@[simp] theorem addWrap_now (s : State) (f : Fld) (i n : Nat) : (s.addWrap f i n).now = s.now := rfl
@[simp] theorem addWrap_periods (s : State) (f : Fld) (i n : Nat) : (s.addWrap f i n).periods = s.periods := rfl
@[simp] theorem addWrap_freeIx (s : State) (f : Fld) (i n : Nat) : (s.addWrap f i n).freeIx = s.freeIx := rfl
@[simp] theorem addWrap_out (s : State) (f : Fld) (i n : Nat) : (s.addWrap f i n).out = s.out := rfl
@[simp] theorem addWrap_mem (s : State) (f : Fld) (i n : Nat) : (s.addWrap f i n).mem = s.mem := rfl
@[simp] theorem addWrap_chk (s : State) (f : Fld) (i n : Nat) : (s.addWrap f i n).chk = s.chk := rfl
@[simp] theorem addWrap_psn (s : State) (f : Fld) (i n : Nat) : (s.addWrap f i n).psn = s.psn := rfl
@[simp] theorem addWrap_latch (s : State) (f : Fld) (i n : Nat) : (s.addWrap f i n).latch = s.latch := rfl
@[simp] theorem addWrap_gut (s : State) (f : Fld) (i n : Nat) : (s.addWrap f i n).gut = s.gut := rfl
@[simp] theorem addWrap_ras (s : State) (f : Fld) (i n : Nat) : (s.addWrap f i n).ras = s.ras := rfl
@[simp] theorem addWrap_hst (s : State) (f : Fld) (i n : Nat) : (s.addWrap f i n).hst = s.hst := rfl
@[simp] theorem addWrap_stk (s : State) (f : Fld) (i n : Nat) : (s.addWrap f i n).stk = s.stk := rfl
@[simp] theorem addWrap_gal (s : State) (f : Fld) (i n : Nat) : (s.addWrap f i n).gal = s.gal := rfl
@[simp] theorem addWrap_plt (s : State) (f : Fld) (i n : Nat) : (s.addWrap f i n).plt = s.plt := rfl
@[simp] theorem addWrap_cmp (s : State) (f : Fld) (i n : Nat) : (s.addWrap f i n).cmp = s.cmp := rfl
@[simp] theorem addWrap_fme (s : State) (f : Fld) (i n : Nat) : (s.addWrap f i n).fme = s.fme := rfl
@[simp] theorem addWrap_key (s : State) (f : Fld) (i n : Nat) : (s.addWrap f i n).key = s.key := rfl
@[simp] theorem addWrap_flo (s : State) (f : Fld) (i n : Nat) : (s.addWrap f i n).flo = s.flo := rfl
@[simp] theorem addWrap_cwd (s : State) (f : Fld) (i n : Nat) : (s.addWrap f i n).cwd = s.cwd := rfl
@[simp] theorem addWrap_fab (s : State) (f : Fld) (i n : Nat) : (s.addWrap f i n).fab = s.fab := rfl
@[simp] theorem addWrap_tim (s : State) (f : Fld) (i n : Nat) : (s.addWrap f i n).tim = s.tim := rfl
@[simp] theorem addWrap_rch (s : State) (f : Fld) (i n : Nat) : (s.addWrap f i n).rch = s.rch := rfl
@[simp] theorem addWrap_rea (s : State) (f : Fld) (i n : Nat) : (s.addWrap f i n).rea = s.rea := rfl
@[simp] theorem addWrap_col (s : State) (f : Fld) (i n : Nat) : (s.addWrap f i n).col = s.col := rfl
@[simp] theorem addWrap_tier (s : State) (f : Fld) (i n : Nat) : (s.addWrap f i n).tier = s.tier := rfl
@[simp] theorem addWrap_job (s : State) (f : Fld) (i n : Nat) : (s.addWrap f i n).job = s.job := rfl
@[simp] theorem addWrap_fus (s : State) (f : Fld) (i n : Nat) : (s.addWrap f i n).fus = s.fus := rfl
@[simp] theorem addWrap_pcm (s : State) (f : Fld) (i n : Nat) : (s.addWrap f i n).pcm = s.pcm := rfl
@[simp] theorem addWrap_mgt (s : State) (f : Fld) (i n : Nat) : (s.addWrap f i n).mgt = s.mgt := rfl
@[simp] theorem addWrap_pending (s : State) (f : Fld) (i n : Nat) : (s.addWrap f i n).pending = s.pending := rfl

/-! `raise` changes `regs` alone. -/
@[simp] theorem raise_now (s : State) (f : Fld) (i m : Nat) : (s.raise f i m).now = s.now := rfl
@[simp] theorem raise_periods (s : State) (f : Fld) (i m : Nat) : (s.raise f i m).periods = s.periods := rfl
@[simp] theorem raise_freeIx (s : State) (f : Fld) (i m : Nat) : (s.raise f i m).freeIx = s.freeIx := rfl
@[simp] theorem raise_out (s : State) (f : Fld) (i m : Nat) : (s.raise f i m).out = s.out := rfl
@[simp] theorem raise_mem (s : State) (f : Fld) (i m : Nat) : (s.raise f i m).mem = s.mem := rfl
@[simp] theorem raise_chk (s : State) (f : Fld) (i m : Nat) : (s.raise f i m).chk = s.chk := rfl
@[simp] theorem raise_psn (s : State) (f : Fld) (i m : Nat) : (s.raise f i m).psn = s.psn := rfl
@[simp] theorem raise_latch (s : State) (f : Fld) (i m : Nat) : (s.raise f i m).latch = s.latch := rfl
@[simp] theorem raise_gut (s : State) (f : Fld) (i m : Nat) : (s.raise f i m).gut = s.gut := rfl
@[simp] theorem raise_ras (s : State) (f : Fld) (i m : Nat) : (s.raise f i m).ras = s.ras := rfl
@[simp] theorem raise_hst (s : State) (f : Fld) (i m : Nat) : (s.raise f i m).hst = s.hst := rfl
@[simp] theorem raise_stk (s : State) (f : Fld) (i m : Nat) : (s.raise f i m).stk = s.stk := rfl
@[simp] theorem raise_gal (s : State) (f : Fld) (i m : Nat) : (s.raise f i m).gal = s.gal := rfl
@[simp] theorem raise_plt (s : State) (f : Fld) (i m : Nat) : (s.raise f i m).plt = s.plt := rfl
@[simp] theorem raise_cmp (s : State) (f : Fld) (i m : Nat) : (s.raise f i m).cmp = s.cmp := rfl
@[simp] theorem raise_fme (s : State) (f : Fld) (i m : Nat) : (s.raise f i m).fme = s.fme := rfl
@[simp] theorem raise_key (s : State) (f : Fld) (i m : Nat) : (s.raise f i m).key = s.key := rfl
@[simp] theorem raise_flo (s : State) (f : Fld) (i m : Nat) : (s.raise f i m).flo = s.flo := rfl
@[simp] theorem raise_cwd (s : State) (f : Fld) (i m : Nat) : (s.raise f i m).cwd = s.cwd := rfl
@[simp] theorem raise_fab (s : State) (f : Fld) (i m : Nat) : (s.raise f i m).fab = s.fab := rfl
@[simp] theorem raise_tim (s : State) (f : Fld) (i m : Nat) : (s.raise f i m).tim = s.tim := rfl
@[simp] theorem raise_rch (s : State) (f : Fld) (i m : Nat) : (s.raise f i m).rch = s.rch := rfl
@[simp] theorem raise_rea (s : State) (f : Fld) (i m : Nat) : (s.raise f i m).rea = s.rea := rfl
@[simp] theorem raise_col (s : State) (f : Fld) (i m : Nat) : (s.raise f i m).col = s.col := rfl
@[simp] theorem raise_tier (s : State) (f : Fld) (i m : Nat) : (s.raise f i m).tier = s.tier := rfl
@[simp] theorem raise_job (s : State) (f : Fld) (i m : Nat) : (s.raise f i m).job = s.job := rfl
@[simp] theorem raise_fus (s : State) (f : Fld) (i m : Nat) : (s.raise f i m).fus = s.fus := rfl
@[simp] theorem raise_pcm (s : State) (f : Fld) (i m : Nat) : (s.raise f i m).pcm = s.pcm := rfl
@[simp] theorem raise_mgt (s : State) (f : Fld) (i m : Nat) : (s.raise f i m).mgt = s.mgt := rfl
@[simp] theorem raise_pending (s : State) (f : Fld) (i m : Nat) : (s.raise f i m).pending = s.pending := rfl

/-! `emit` changes `out` alone. -/
@[simp] theorem emit_now (s : State) (m : OutMsg) : (s.emit m).now = s.now := rfl
@[simp] theorem emit_periods (s : State) (m : OutMsg) : (s.emit m).periods = s.periods := rfl
@[simp] theorem emit_freeIx (s : State) (m : OutMsg) : (s.emit m).freeIx = s.freeIx := rfl
@[simp] theorem emit_regs (s : State) (m : OutMsg) : (s.emit m).regs = s.regs := rfl
@[simp] theorem emit_mem (s : State) (m : OutMsg) : (s.emit m).mem = s.mem := rfl
@[simp] theorem emit_chk (s : State) (m : OutMsg) : (s.emit m).chk = s.chk := rfl
@[simp] theorem emit_psn (s : State) (m : OutMsg) : (s.emit m).psn = s.psn := rfl
@[simp] theorem emit_latch (s : State) (m : OutMsg) : (s.emit m).latch = s.latch := rfl
@[simp] theorem emit_gut (s : State) (m : OutMsg) : (s.emit m).gut = s.gut := rfl
@[simp] theorem emit_ras (s : State) (m : OutMsg) : (s.emit m).ras = s.ras := rfl
@[simp] theorem emit_hst (s : State) (m : OutMsg) : (s.emit m).hst = s.hst := rfl
@[simp] theorem emit_stk (s : State) (m : OutMsg) : (s.emit m).stk = s.stk := rfl
@[simp] theorem emit_gal (s : State) (m : OutMsg) : (s.emit m).gal = s.gal := rfl
@[simp] theorem emit_plt (s : State) (m : OutMsg) : (s.emit m).plt = s.plt := rfl
@[simp] theorem emit_cmp (s : State) (m : OutMsg) : (s.emit m).cmp = s.cmp := rfl
@[simp] theorem emit_fme (s : State) (m : OutMsg) : (s.emit m).fme = s.fme := rfl
@[simp] theorem emit_key (s : State) (m : OutMsg) : (s.emit m).key = s.key := rfl
@[simp] theorem emit_flo (s : State) (m : OutMsg) : (s.emit m).flo = s.flo := rfl
@[simp] theorem emit_cwd (s : State) (m : OutMsg) : (s.emit m).cwd = s.cwd := rfl
@[simp] theorem emit_fab (s : State) (m : OutMsg) : (s.emit m).fab = s.fab := rfl
@[simp] theorem emit_tim (s : State) (m : OutMsg) : (s.emit m).tim = s.tim := rfl
@[simp] theorem emit_rch (s : State) (m : OutMsg) : (s.emit m).rch = s.rch := rfl
@[simp] theorem emit_rea (s : State) (m : OutMsg) : (s.emit m).rea = s.rea := rfl
@[simp] theorem emit_col (s : State) (m : OutMsg) : (s.emit m).col = s.col := rfl
@[simp] theorem emit_tier (s : State) (m : OutMsg) : (s.emit m).tier = s.tier := rfl
@[simp] theorem emit_job (s : State) (m : OutMsg) : (s.emit m).job = s.job := rfl
@[simp] theorem emit_fus (s : State) (m : OutMsg) : (s.emit m).fus = s.fus := rfl
@[simp] theorem emit_pcm (s : State) (m : OutMsg) : (s.emit m).pcm = s.pcm := rfl
@[simp] theorem emit_mgt (s : State) (m : OutMsg) : (s.emit m).mgt = s.mgt := rfl
@[simp] theorem emit_pending (s : State) (m : OutMsg) : (s.emit m).pending = s.pending := rfl

/-! `drawn` changes `freeIx` alone. -/
@[simp] theorem drawn_now (s : State) : (s.drawn).now = s.now := rfl
@[simp] theorem drawn_periods (s : State) : (s.drawn).periods = s.periods := rfl
@[simp] theorem drawn_out (s : State) : (s.drawn).out = s.out := rfl
@[simp] theorem drawn_regs (s : State) : (s.drawn).regs = s.regs := rfl
@[simp] theorem drawn_mem (s : State) : (s.drawn).mem = s.mem := rfl
@[simp] theorem drawn_chk (s : State) : (s.drawn).chk = s.chk := rfl
@[simp] theorem drawn_psn (s : State) : (s.drawn).psn = s.psn := rfl
@[simp] theorem drawn_latch (s : State) : (s.drawn).latch = s.latch := rfl
@[simp] theorem drawn_gut (s : State) : (s.drawn).gut = s.gut := rfl
@[simp] theorem drawn_ras (s : State) : (s.drawn).ras = s.ras := rfl
@[simp] theorem drawn_hst (s : State) : (s.drawn).hst = s.hst := rfl
@[simp] theorem drawn_stk (s : State) : (s.drawn).stk = s.stk := rfl
@[simp] theorem drawn_gal (s : State) : (s.drawn).gal = s.gal := rfl
@[simp] theorem drawn_plt (s : State) : (s.drawn).plt = s.plt := rfl
@[simp] theorem drawn_cmp (s : State) : (s.drawn).cmp = s.cmp := rfl
@[simp] theorem drawn_fme (s : State) : (s.drawn).fme = s.fme := rfl
@[simp] theorem drawn_key (s : State) : (s.drawn).key = s.key := rfl
@[simp] theorem drawn_flo (s : State) : (s.drawn).flo = s.flo := rfl
@[simp] theorem drawn_cwd (s : State) : (s.drawn).cwd = s.cwd := rfl
@[simp] theorem drawn_fab (s : State) : (s.drawn).fab = s.fab := rfl
@[simp] theorem drawn_tim (s : State) : (s.drawn).tim = s.tim := rfl
@[simp] theorem drawn_rch (s : State) : (s.drawn).rch = s.rch := rfl
@[simp] theorem drawn_rea (s : State) : (s.drawn).rea = s.rea := rfl
@[simp] theorem drawn_col (s : State) : (s.drawn).col = s.col := rfl
@[simp] theorem drawn_tier (s : State) : (s.drawn).tier = s.tier := rfl
@[simp] theorem drawn_job (s : State) : (s.drawn).job = s.job := rfl
@[simp] theorem drawn_fus (s : State) : (s.drawn).fus = s.fus := rfl
@[simp] theorem drawn_pcm (s : State) : (s.drawn).pcm = s.pcm := rfl
@[simp] theorem drawn_mgt (s : State) : (s.drawn).mgt = s.mgt := rfl
@[simp] theorem drawn_pending (s : State) : (s.drawn).pending = s.pending := rfl

@[simp] theorem emit_out (s : State) (m : OutMsg) : (s.emit m).out = m :: s.out := rfl
@[simp] theorem emit_rd (s : State) (m : OutMsg) (f : Fld) (i : Nat) : (s.emit m).rd f i = s.rd f i := rfl
@[simp] theorem emit_flag (s : State) (m : OutMsg) (f : Fld) (i : Nat) : (s.emit m).flag f i = s.flag f i := rfl
@[simp] theorem drawn_freeIx (s : State) : s.drawn.freeIx = s.freeIx + 1 := rfl
@[simp] theorem drawn_rd (s : State) (f : Fld) (i : Nat) : s.drawn.rd f i = s.rd f i := rfl

/-! Registers. -/

/-- The field of a key, without its instance. -/
def Fld.base (f : Fld) : Nat := (f.win.ix * 2 ^ 20 + f.off) * 64 + f.lo

theorem Fld.key_eq (f : Fld) (i : Nat) : f.key i = f.base * 2 ^ 20 + i := rfl

theorem Fld.key_ne_of_base {f g : Fld} {i j : Nat} (h : f.base ≠ g.base) (hi : i < 2 ^ 20) (hj : j < 2 ^ 20) : f.key i ≠ g.key j := by
  rw [Fld.key_eq, Fld.key_eq]; omega

theorem Fld.key_ne_of_ix {f : Fld} {i j : Nat} (h : i ≠ j) : f.key i ≠ f.key j := by
  rw [Fld.key_eq, Fld.key_eq]; omega

@[simp] theorem rd_wr_self (s : State) (f : Fld) (i v : Nat) : (s.wr f i v).rd f i = v % 2 ^ f.wd := by
  simp [State.rd, State.wr]

theorem rd_wr_key (s : State) {f g : Fld} {i j : Nat} (v : Nat) (h : g.key j ≠ f.key i) : (s.wr f i v).rd g j = s.rd g j := by
  simp [State.rd, State.wr, KMap.get, KMap.find?_put_other _ _ _ h]

theorem rd_wr_base (s : State) {f g : Fld} {i j : Nat} (v : Nat) (h : g.base ≠ f.base) (hj : j < 2 ^ 20) (hi : i < 2 ^ 20) :
    (s.wr f i v).rd g j = s.rd g j := rd_wr_key s v (Fld.key_ne_of_base h hj hi)

theorem rd_wr_ix (s : State) {f : Fld} {i j : Nat} (v : Nat) (h : j ≠ i) : (s.wr f i v).rd f j = s.rd f j :=
  rd_wr_key s v (Fld.key_ne_of_ix h)

@[simp] theorem rd_bump_self (s : State) (f : Fld) (i : Nat) : (s.bump f i).rd f i = min (2 ^ f.wd - 1) (s.rd f i + 1) := by
  have : 0 < 2 ^ f.wd := Nat.two_pow_pos _
  simp only [State.bump, State.bumpBy, rd_wr_self]
  exact Nat.mod_eq_of_lt (by omega)

/-! What changed only register fields. -/

theorem SameRegs.refl (s : State) (ks : List Nat) : SameRegs s s ks := fun _ _ => rfl

theorem SameRegs.trans {s t u : State} {ks ls : List Nat} (h : SameRegs s t ks) (g : SameRegs t u ls) : SameRegs s u (ks ++ ls) := by
  intro k hk
  simp only [List.mem_append, not_or] at hk
  rw [g k hk.2, h k hk.1]

theorem SameRegs.mono {s t : State} {ks ls : List Nat} (h : SameRegs s t ks) (hs : ks ⊆ ls) : SameRegs s t ls :=
  fun k hk => h k fun hx => hk (hs hx)

theorem SameRegs.wr (s : State) (f : Fld) (i v : Nat) : SameRegs s (s.wr f i v) [f.key i] := by
  intro k hk
  simp only [List.mem_singleton] at hk
  simp [State.wr, KMap.find?_put_other _ _ _ hk]

theorem RegsOnly.refl (s : State) : RegsOnly s s [] := ⟨rfl, fun _ _ => rfl⟩

theorem RegsOnly.wr (s : State) (f : Fld) (i v : Nat) : RegsOnly s (s.wr f i v) [f.key i] := ⟨rfl, SameRegs.wr s f i v⟩

/-- One more write on a state that differs from `s` in register fields alone. -/
theorem RegsOnly.andWr {s t : State} {ks : List Nat} (h : RegsOnly s t ks) (f : Fld) (i v : Nat) :
    RegsOnly s (t.wr f i v) (ks ++ [f.key i]) := ⟨h.1, h.2.trans (SameRegs.wr t f i v)⟩

theorem RegsOnly.mono {s t : State} {ks ls : List Nat} (h : RegsOnly s t ks) (hs : ks ⊆ ls) : RegsOnly s t ls := ⟨h.1, h.2.mono hs⟩

/-- The value that a listed key does not have is the one before. -/
theorem SameRegs.rd {s t : State} {ks : List Nat} (h : SameRegs s t ks) (f : Fld) (i : Nat) (hk : f.key i ∉ ks) : t.rd f i = s.rd f i := by
  simp [State.rd, KMap.get, h _ hk]

/-! The canonical form. -/

theorem State.reset_wf : State.reset.wf = true := by decide

theorem wr_wf (s : State) (f : Fld) (i v : Nat) (h : s.wf = true) : (s.wr f i v).wf = true := by
  simp only [State.wf, Memory.wf, Bool.and_eq_true, wr_mem, wr_chk, wr_psn] at h ⊢
  exact ⟨h.1, KMap.sorted_put _ _ _ _ h.2⟩

end Sys2Proof.Machine
end

