-- ==== Sys2Proof/Laws/Memory.lean ====
section
/-!
SUPPORT. The laws of memory: every operation that writes the arrays keeps their canonical form, and what a byte reads after
a sector has been written or dropped.
-/
namespace Sys2Proof.Machine

/-! A run of cells. -/

theorem KMap.sorted_insertAll {α : Type} (a : Nat) (g : Nat → α) (l : List Nat) (m : KMap α) (h : KMap.sorted m = true) :
    KMap.sorted (l.foldl (fun m i => KMap.insert m (a + i) (g i)) m) = true := by
  induction l generalizing m with
  | nil => exact h
  | cons i r ih => exact ih _ (KMap.sorted_insert m (a + i) (g i) h)

theorem KMap.sorted_eraseAll {α : Type} (a : Nat) (l : List Nat) (m : KMap α) (h : KMap.sorted m = true) :
    KMap.sorted (l.foldl (fun m i => KMap.erase m (a + i)) m) = true := by
  induction l generalizing m with
  | nil => exact h
  | cons i r ih => exact ih _ (KMap.sorted_erase m (a + i) h)

theorem KMap.find?_insertAll_other {α : Type} (a : Nat) (g : Nat → α) (l : List Nat) (m : KMap α) {j : Nat} (h : ∀ i ∈ l, j ≠ a + i) :
    KMap.find? (l.foldl (fun m i => KMap.insert m (a + i) (g i)) m) j = KMap.find? m j := by
  induction l generalizing m with
  | nil => rfl
  | cons i r ih =>
    rw [List.foldl_cons, ih _ fun x hx => h x (List.mem_cons_of_mem _ hx), KMap.find?_insert_other m (g i) (h i (List.mem_cons_self ..))]

theorem KMap.find?_eraseAll_other {α : Type} (a : Nat) (l : List Nat) (m : KMap α) {j : Nat} (h : ∀ i ∈ l, j ≠ a + i) :
    KMap.find? (l.foldl (fun m i => KMap.erase m (a + i)) m) j = KMap.find? m j := by
  induction l generalizing m with
  | nil => rfl
  | cons i r ih =>
    rw [List.foldl_cons, ih _ fun x hx => h x (List.mem_cons_of_mem _ hx), KMap.find?_erase_other m (h i (List.mem_cons_self ..))]

theorem KMap.find?_insertAll_self {α : Type} (a : Nat) (g : Nat → α) (n : Nat) (m : KMap α) {i : Nat} (h : i < n) :
    KMap.find? ((List.range n).foldl (fun m i => KMap.insert m (a + i) (g i)) m) (a + i) = some (g i) := by
  induction n with
  | zero => omega
  | succ n ih =>
    rw [List.range_succ, List.foldl_append, List.foldl_cons, List.foldl_nil]
    by_cases hi : i = n
    · subst hi; exact KMap.find?_insert_self ..
    · rw [KMap.find?_insert_other _ _ (by omega), ih (by omega)]

/-! Sectors. -/

theorem State.wf_iff (s : State) :
    s.wf = true ↔ Memory.wf s.mem = true ∧ KMap.sorted s.chk = true ∧ KMap.sorted s.psn = true ∧ KMap.sorted s.regs = true := by
  simp only [State.wf, Bool.and_eq_true, and_assoc]

theorem writeCells_wf (loc : Nat) (d : Bytes) (m : List Host.Cell) (h : Memory.wf m = true) : Memory.wf (writeCells loc d m) = true := by
  unfold writeCells
  exact KMap.sorted_insertAll _ _ _ _ h

theorem eraseCells_wf (loc : Nat) (m : List Host.Cell) (h : Memory.wf m = true) : Memory.wf (eraseCells loc m) = true := by
  unfold eraseCells
  exact KMap.sorted_eraseAll _ _ _ h

/-- A written sector keeps the canonical form. -/
theorem putSector_wf (loc : Nat) (d : Bytes) (p : Bool) (s : State) (h : s.wf = true) : (putSector loc d p s).wf = true := by
  obtain ⟨hm, hc, hp, hr⟩ := (State.wf_iff s).1 h
  exact (State.wf_iff _).2 ⟨writeCells_wf _ _ _ hm, KMap.sorted_put _ _ _ _ hc, KMap.sorted_put _ _ _ _ hp, hr⟩

/-- A dropped sector keeps the canonical form. -/
theorem dropSector_wf (loc : Nat) (s : State) (h : s.wf = true) : (dropSector loc s).wf = true := by
  obtain ⟨hm, hc, hp, hr⟩ := (State.wf_iff s).1 h
  exact (State.wf_iff _).2 ⟨eraseCells_wf _ _ hm, KMap.sorted_erase _ _ hc, KMap.sorted_erase _ _ hp, hr⟩

/-- An upset of a stored symbol keeps the canonical form. -/
theorem upset_wf (off pos e : Nat) (s : State) (h : s.wf = true) : (upset off pos e s).wf = true := by
  obtain ⟨hm, hc, hp, hr⟩ := (State.wf_iff s).1 h
  unfold upset
  dsimp only
  split
  · exact (State.wf_iff _).2 ⟨hm, KMap.sorted_put _ _ _ _ hc, hp, hr⟩
  · split
    · split
      · exact (State.wf_iff _).2 ⟨KMap.sorted_insert _ _ _ hm, hc, hp, hr⟩
      · exact h
    · exact h

theorem upsetAll_wf (us : SectorUpsets) (s : State) (h : s.wf = true) : (upsetAll us s).wf = true := by
  unfold upsetAll
  induction us generalizing s with
  | nil => exact h
  | cons u r ih => exact ih _ (upset_wf _ _ _ s h)

/-- A read of a sector leaves the state as it was, or draws one free value. -/
theorem readAt_state (s : State) (loc : Nat) : (readAt s loc).2 = s ∨ (readAt s loc).2 = s.drawn := by
  unfold readAt
  split
  · exact .inr rfl
  · split
    · exact .inl rfl
    · split <;> exact .inl rfl

/-- The bytes of a written sector are the data; every other byte is as before. -/
theorem putSector_byteAt_self (loc : Nat) (d : Bytes) (p : Bool) (s : State) {i : Nat} (h : i < 32) :
    (putSector loc d p s).byteAt (loc + i) = some (d.getD i 0) := by
  show KMap.find? (writeCells loc d s.mem) _ = _
  unfold writeCells
  exact KMap.find?_insertAll_self loc (fun i => d.getD i 0) 32 s.mem h

theorem putSector_byteAt_other (loc : Nat) (d : Bytes) (p : Bool) (s : State) {a : Nat} (h : a < loc ∨ loc + 32 ≤ a) :
    (putSector loc d p s).byteAt a = s.byteAt a := by
  show KMap.find? (writeCells loc d s.mem) _ = _
  unfold writeCells
  exact KMap.find?_insertAll_other loc (fun i => d.getD i 0) _ s.mem fun i hi => by have := List.mem_range.1 hi; omega

theorem dropSector_byteAt_other (loc : Nat) (s : State) {a : Nat} (h : a < loc ∨ loc + 32 ≤ a) :
    (dropSector loc s).byteAt a = s.byteAt a := by
  show KMap.find? (eraseCells loc s.mem) _ = _
  unfold eraseCells
  exact KMap.find?_eraseAll_other loc _ s.mem fun i hi => by have := List.mem_range.1 hi; omega

/-- Reset lists no byte and is canonical. -/
theorem reset_memory_wf : Memory.wf State.reset.mem = true := rfl

end Sys2Proof.Machine
end

