-- ==== Sys2Proof/Laws/Ops.lean ====
section
/-!
SUPPORT. The laws of the shared operations of Machine/Ops.lean: for each, once, everything it can do.
-/
namespace Sys2Proof.Machine

/-- A signal goes out where its vector is open, and else sets the pending bit (R328, R329). -/
theorem signal_cases (p v : Nat) (s : State) :
    signal p v s = s.emit (.msix p v) ∨
    (bitOf (KMap.get 0 s.hst.msixOpen p) v = false ∧
      signal p v s = { s with hst.msixPend := KMap.put 0 s.hst.msixPend p (setBit (KMap.get 0 s.hst.msixPend p) v) }) := by
  unfold signal
  split
  · exact .inl rfl
  · rename_i h
    exact .inr ⟨by simpa using h, rfl⟩

/-- One register field after another, written from a list, changes register fields alone. -/
theorem regs_foldl {α : Type} (f : State → α → State) (hf : ∀ s a, { f s a with regs := s.regs } = s) (l : List α) (s : State) :
    { l.foldl f s with regs := s.regs } = s := by
  induction l generalizing s with
  | nil => rfl
  | cons a r ih =>
    have h := congrArg (fun u : State => { u with regs := s.regs }) (ih (f s a))
    exact h.trans (hf s a)

/-- Writing register fields leaves a state that differs from one in register fields alone so. -/
theorem regs_after {s t u : State} (h : { t with regs := s.regs } = s) (g : { u with regs := t.regs } = t) : { u with regs := s.regs } = s :=
  (congrArg (fun x : State => { x with regs := s.regs }) g).trans h

/-- A fence at once writes register fields alone (R378, R379). -/
theorem fenceNow_regs (cause : Nat) (s : State) : { fenceNow cause s with regs := s.regs } = s := by
  unfold fenceNow
  generalize List.range 64 = l
  dsimp only
  exact regs_after (t := ((s.wr RAS_NODE_STS.STATE 0 3).wr RAS_NODE_STS.FENCE_CAUSE 0 cause).bump (RAS_CNT.COUNT 6)) rfl
    (regs_foldl (fun s b => s.wr CMP_SEQ_STS.CLK_ON b 0) (fun _ _ => rfl) l _)

/-- A lost record is counted in register fields alone. -/
theorem recordLost_regs (h : Handler) (r : ErrRec) (s : State) : { recordLost h r s with regs := s.regs } = s := by
  cases h with
  | chip =>
    unfold recordLost
    dsimp only
    split
    · exact regs_after (t := (s.wr (RAS_QSTS.OVF 4) 0 1).bump (RAS_QSTS.LOST 4)) rfl (fenceNow_regs 1 _)
    · rfl
  | _ => rfl

/-- `t` differs from `s` in handlers and register fields alone. -/
abbrev HandsOnly (s t : State) : Prop := { t with regs := s.regs, ras.handlers := s.ras.handlers } = s

theorem HandsOnly.of_regs {s t : State} (h : { t with regs := s.regs } = s) : HandsOnly s t :=
  congrArg (fun u : State => { u with ras.handlers := s.ras.handlers }) h

theorem HandsOnly.after {s t u : State} (h : { t with regs := s.regs } = s) (g : HandsOnly t u) : HandsOnly s u := by
  have e : { t with regs := s.regs }.ras.handlers = s.ras.handlers := by rw [h]
  replace e : t.ras.handlers = s.ras.handlers := e
  unfold HandsOnly at g ⊢
  rw [e] at g
  exact (congrArg (fun x : State => { x with regs := s.regs }) g).trans h

theorem HandsOnly.mem {s t : State} (h : HandsOnly s t) : t.mem = s.mem := by
  have e : { t with regs := s.regs, ras.handlers := s.ras.handlers }.mem = s.mem := by rw [h]
  exact e

theorem HandsOnly.out {s t : State} (h : HandsOnly s t) : t.out = s.out := by
  have e : { t with regs := s.regs, ras.handlers := s.ras.handlers }.out = s.out := by rw [h]
  exact e

/-- Entering a record changes handlers and register fields alone (R367–R369). -/
theorem enter_frame (n : Nat) (h : Handler) (r : ErrRec) (s : State) : HandsOnly s (enter n h r s) := by
  induction n generalizing h r s with
  | zero => rfl
  | succ n ih =>
    unfold enter
    generalize (if r.sev = 3 then Handler.chip else h) = g
    dsimp only
    split
    · rfl
    · split
      · exact .of_regs (fenceNow_regs 1 s)
      · split
        · cases g <;> exact .after (t := s.bump (RAS_CNT.COUNT 4)) rfl (ih ..)
        · split
          · exact .of_regs (recordLost_regs ..)
          · rfl

/-- Reporting a record changes handlers and register fields alone (R365). -/
theorem report_frame (h : Handler) (r : ErrRec) (s : State) : HandsOnly s (report h r s) := enter_frame 5 _ _ s

theorem report_mem (h : Handler) (r : ErrRec) (s : State) : (report h r s).mem = s.mem := (report_frame h r s).mem
theorem report_out (h : Handler) (r : ErrRec) (s : State) : (report h r s).out = s.out := (report_frame h r s).out

/-- Which vector is masked does not change memory or registers. -/
theorem signal_regs (p v : Nat) (s : State) : (signal p v s).regs = s.regs := by
  rcases signal_cases p v s with h | ⟨_, h⟩ <;> simp [h]

theorem signal_mem (p v : Nat) (s : State) : (signal p v s).mem = s.mem := by
  rcases signal_cases p v s with h | ⟨_, h⟩ <;> simp [h]

/-- An event of a period acts when it is due, and notes when; else nothing changes (R190, R206, R345, R386, R455). -/
theorem State.atPeriod_cases (p : Period) (ns : Nat) (act : State → State) (s : State) :
    (s.due p ns = true ∧ s.atPeriod p ns act = act { s with periods := KMap.insert s.periods p.ix s.now }) ∨
    (s.due p ns = false ∧ s.atPeriod p ns act = s) := by
  unfold State.atPeriod
  split
  · exact .inl ⟨‹_›, rfl⟩
  · exact .inr ⟨Bool.eq_false_iff.mpr ‹_›, rfl⟩

/-- An event that has just come is not due again before its period has passed. -/
theorem State.not_due_after (p : Period) (ns t : Nat) (s : State) (hp : KMap.find? s.periods p.ix = some t)
    (hn : s.now < t + ns) : s.due p ns = false := by
  simp [State.due, hp, hn]

end Sys2Proof.Machine
end

