-- ==== Sys2Proof/Tests/Slice0.lean ====
section
/-!
SUPPORT. Tests: for every statement, a state and operands that meet its hypotheses, clause by clause; what a command does on
a small state; and what the check of well-formedness refuses.
-/
namespace Sys2Proof.Tests

-- The proofs below are checked one after another: each evaluates a state, and many at once ask for too much memory.
set_option Elab.async false

open Sys2Proof.Machine

/-- The node after reset with some register fields written: field, instance, value. -/
def node (l : List (Fld × Nat × Nat)) : State := l.foldl (fun s x => s.wr x.1 x.2.1 x.2.2) State.reset

/-- The node after reset, without the incarnation that no one knows. -/
def calm : State := node [(RCH_INCARNATION.VALUE, 0, 0)]

/-- Whether a command answers a next state on which a check holds. -/
def gives (c : Instr) (s : State) (p : State → Bool) : Bool :=
  match exec c s with
  | .next t => p t
  | _ => false

/-- A state with some whole sectors written, by rising location. -/
def sectors (l : List (Nat × Bytes)) (s : State) : State :=
  { s with mem := l.flatMap fun e => (List.range 32).map fun i => (e.1 + i, e.2.getD i 0),
           chk := (l.map fun e => (e.1 / 32, ofSyms (checkSyms (e.2.map BitVec.toNat)))).filter fun e => e.2 != 0 }

/-! What the check of well-formedness refuses, one term for each check, and that it passes the neighbor in range. -/

theorem smoke_well_formed_units : wellFormed (.cmpNop 64) = false ∧ wellFormed (.cmpNop 63) = true ∧ wellFormed (.fill 8) = false ∧ wellFormed (.fill 7) = true ∧
    wellFormed (.lds 7 64) = false ∧ wellFormed (.phaseTmoExpire 0 8) = false ∧ wellFormed (.galInvAll 4) = false ∧ wellFormed (.dozeEntry 3) = true ∧
    wellFormed (.withdraw 148 []) = false ∧ wellFormed (.cwdRead 8 0 false) = false ∧ wellFormed (.cwdRead 7 32768 false) = false ∧
    wellFormed (.errorRetire (.cell 63 16) false) = false ∧ wellFormed (.handlerTimeout (.platen 8 0)) = false ∧ wellFormed (.inputEvent 16) = false ∧
    wellFormed (.gutterRequest 31 0 (.galleyWay 3 16) true) = false := by
  decide

theorem smoke_well_formed_fabric_and_tier : wellFormed (.portTrainingDone 24) = false ∧ wellFormed (.portTrainingDone 23) = true ∧
    wellFormed (.pauseExpire 0 8) = false ∧ wellFormed (.flushAnswer 0 16) = false ∧ wellFormed (.hello 0 [] none) = false ∧
    wellFormed (.backInvalidateSnoop 4 0 {}) = false ∧ wellFormed (.backInvalidateSnoop 3 (2 ^ 24) {}) = false ∧
    wellFormed (.tierLinkDown 4) = false ∧ wellFormed (.tierLinkUp 0 0 17) = false ∧ wellFormed (.leaseRenew 0 65536 0) = false := by
  decide

theorem smoke_well_formed_partitions : wellFormed (.partitionFence 32) = false ∧ wellFormed (.partitionFence 31) = true ∧
    wellFormed (.sqDoorbell 0 8 0) = false ∧ wellFormed (.vectorUnmask 0 64) = false ∧ wellFormed (.rootFinish 0 ⟨2 ^ 32, true⟩) = false ∧
    wellFormed (.auditTimeout 0 0 64) = false ∧ wellFormed (.hdmDecoderCommit 32 0 0) = false ∧ wellFormed (.stackRead 0 (768 * 2 ^ 30) 1 0 []) = true ∧ wellFormed (.stackRead 0 (2 ^ 40) 1 0 []) = false ∧
    wellFormed (.configurationRequest 32 (.read 0)) = false ∧ wellFormed (.configurationRequest 0 (.read 1024)) = false ∧
    wellFormed (.registerWrite (.vf 0) 0 4 0) = false ∧ wellFormed (.registerWrite (.vf 31) 0 4 0) = true ∧ wellFormed (.cxlMailboxCommand 65536) = false := by
  decide

theorem smoke_well_formed_management : wellFormed (.keyQuery 0 []) = false ∧ wellFormed (.keyQuery 8 []) = true ∧ wellFormed (.spdmSessionTimeout 9) = false ∧
    wellFormed (.ideKmQuery (.tier 4)) = false ∧ wellFormed (.testLogicReset [6]) = false ∧ wellFormed (.testLogicReset [5]) = true ∧
    wellFormed (.zeroize 0 256) = false ∧ wellFormed (.sensorSample [] [] [] [] []) = false := by
  decide

theorem step_witness : (node []).pending = [] ∧ (node []).rd PCM_STATE.NODE ≠ 2 ∧ (node []).tim.rate = 0 ∧ -1000000 < (node []).tim.frac ∧ (node []).tim.frac < 1000000 := by
  decide

/-- Ten idle nanoseconds are not run: one step counts one, and a command in the queue runs first, in order. -/
theorem test_step : (match step (node []) with | .next t => t.now == 1 && t.rd TIME_NOW.NS == 1 | _ => false) = true ∧
    (match step { node [] with pending := [.bypass, .idcode] } with | .next t => t.out == [.tap 0] && t.pending == [.idcode] | _ => false) = true := by
  decide +kernel

theorem wf_witness : (node [(TIME_NOW.NS, 0, 5)]).wf = true ∧ (putSector 0x40 (List.replicate 32 7) true State.reset).wf = true ∧
    (match step (node []) with | .next t => t.wf | _ => false) = true := by
  decide +kernel

theorem test_stops : (exec .vddAonRise { node [] with pcm.pwrGood := true } matches .fault .unspecifiedPower) = true ∧
    (exec .vddAonRise (node []) matches .next _) = true ∧ (exec .tapPrivate (node [(MGT_STS.DEBUG_LVL, 0, 2)]) matches .refused .privateTest) = true ∧
    (exec .tapPrivate (node []) matches .next _) = true := by
  decide +kernel

theorem test_gutter : gives (.gutterTransfer 1 2 9 0) (node []) (fun t => t.out == [] && (KMap.get {} t.gut.links 10).waiting == [9]) ∧
    gives (.gutterTransfer 1 2 9 1) { node [] with gut.links := [(10, { credits := 0, waiting := [7] })] }
      (fun t => t.out == [.gutter 1 2 7] && (KMap.get {} t.gut.links 10).waiting == [9]) := by
  decide +kernel

theorem gutter_request_witness : regActs (node [(REAM_REG_CTL.EN, 0, 0)]) true 3 = false ∧ gutAllows (node []) 3 (.galleyWay 0 0) = false ∧
    gutAllows (node []) 0 (.upper 0) = true ∧ (regActs (node []) true 3 = true ∧ tokens (node []) true 3 < 1) ∧
    (regActs { node [] with rea.gutTok := [(3, 64)] } true 3 = true ∧ 1 ≤ tokens { node [] with rea.gutTok := [(3, 64)] } true 3) := by
  decide +kernel

/-- Requester 5 has the higher priority; without it 2 and 7 take turns after the last one granted. -/
theorem test_arbiter : gives (.arbitrationPhase 0 1 [(2, 1), (5, 1), (7, 1)]) (node [(GUT_ARB_ACT.ACT 5, 0, 9)]) (fun t => (t.arb 0).owner == some 5 && KMap.get 0 (t.arb 0).waits 2 == 1) ∧
    gives (.arbitrationPhase 0 1 [(2, 1), (7, 1)]) { node [] with gut.arbs := [(0, { last := [((node []).rd (GUT_ARB_ACT.ACT 2) 0, 2 + 1)] })] } (fun t => (t.arb 0).owner == some 7) := by
  decide +kernel

theorem arbiter_witness : (node []).flag GUT_ARB_STS.COMMIT_PEND 147 = false ∧ [2, 7].Nodup ∧ (7 < arbReqs 147 ∧ ¬ 8 < arbReqs 147 ∧ 147 < 148) ∧
    (let s := { node [(GUT_ARB_CFG.STARVE_THR, 3, 200)] with now := 5, gut.arbs := [(3, { owner := some 2, first := true, since := 5, asking := [4], waits := [(4, 300)] })] }
     (s.arb 3).owner = some 2 ∧ (s.arb 3).first = true ∧ (s.arb 3).since = s.now ∧ ({ s with now := 6 }.arb 3).since ≠ ({ s with now := 6 } : State).now ∧
     4 < arbReqs 3 ∧ 4 ∈ (s.arb 3).asking ∧ s.rd GUT_ARB_CFG.STARVE_THR 3 ≠ 0 ∧ s.rd GUT_ARB_CFG.STARVE_THR 3 < KMap.get 0 (s.arb 3).waits 4 ∧
     bitOf (s.rd (GUT_ARB_STARVE_STS.STARVE 0) 3) 4 = false) ∧
    (node [(GUT_ARB_STS.COMMIT_PEND, 147, 1)]).flag GUT_ARB_STS.COMMIT_PEND 147 = true ∧ bitOf 1 0 = true := by
  decide +kernel

theorem test_stack_write_served : Served (node [(REAM_REG_CTL.EN, 0, 0)]) { write := true, part := 0, off := 0x40, data := [1, 2, 3], crcFails := 4 } ∧
    gives (.stackWrite 0 0x40 (List.replicate 32 7) false 0) (node [(REAM_REG_CTL.EN, 0, 0)]) (fun t => t.byteAt 0x5F == some 7 && t.byteAt 0x60 == none) := by
  decide +kernel

/-- One written sector of partition 3's channel set. -/
def oneSector (p : Bool) : State :=
  (putSector 0x40 (List.replicate 32 7) p (node [(REAM_REG_CTL.EN, 0, 0), (STK_SET_OWNER.ASSIGNED 0, 0, 1), (STK_SET_OWNER.OWNER 0, 0, 3)])).wr STK_CMD_STS.DONE 0 0

theorem test_stack_read : Served (oneSector false) { part := 3, off := 0x44, len := 8 } ∧ sectorsOf 0x44 8 = [0x40] ∧
    cells (oneSector false) (locOf (oneSector false) 0x40) = some (List.replicate 32 7) ∧ poisonBit (oneSector false) 0x40 = false ∧
    recordAt (oneSector false) 0x40 = none ∧ decodeWord (wordOf (oneSector false) 0x40 (List.replicate 32 7)) = .clean ∧ poisonBit (oneSector true) 0x40 = true ∧
    gives (.stackRead 3 0x40 32 0 [(0x40, 5, 9)]) (oneSector false) (fun t => t.rd (STK_CNT.COUNT 0) 0 == 1 &&
      t.out.head? == some (.readData 3 0x40 (List.replicate 32 7) false ST.OK)) ∧
    gives (.stackRead 3 0x40 32 0 [(0x40, 5, 9), (0x40, 6, 9), (0x40, 9, 1)]) (oneSector false) (fun t => t.rd (STK_CNT.COUNT 1) 0 == 1) := by
  decide +kernel

/-- A directory that is on, with one conversation record and one folio. -/
def tableNode : State :=
  { node [(REAM_REG_CTL.EN, 0, 0), (FLO_CFG.EN, 0, 1), (FLO_CFG.NFOLIO_LOG2, 0, 16), (FLO_CFG.NCONV_LOG2, 0, 8), (FLO_CFG.MAXRUN_LOG2, 0, 10)] with
      flo.convs := [(2, { conv := 0x0605040302, state := 1, part := 9, keySlot := 0x1234, sig := 7 })],
      flo.folios := [(3, { chunk := 0x0102030, nchunk := 17, closed := true, state := 1, refs := 2 })] }

theorem test_stack_read_table :
    Served tableNode { part := 0, off := 32 * 3, len := 32 } ∧ floOn tableNode = true ∧ poisonBit tableNode 96 = false ∧
    tblConv tableNode = 0x24_0000 ∧ tblRun tableNode = 0x24_4000 ∧
    cells tableNode 96 = none ∧ (let x : SigDesc := { sig := 7, part := 1, memb := [(4, 1, 2)], standin := 0, epoch := 1 }; gives (.stackRead 0 0 32 0 [])
      { node [(REAM_REG_CTL.EN, 0, 0)] with col.sigs := [(0, x)] } (fun t => t.out.head? == some (.readData 0 0 (slice x.toBytes 0 32) false ST.OK))) ∧
    gives (.stackRead 0 96 32 0 []) tableNode (fun t => t.out.head? ==
      some (.readData 0 96 ([0x30, 0x20, 0x10, 0x00, 17, 0x21, 2, 0] ++ List.replicate 24 0) false ST.OK)) ∧
    gives (.stackRead 0 (0x24_0000 + 128) 16 0 []) tableNode (fun t => t.out.head? ==
      some (.readData 0 (0x24_0000 + 128) [0x02, 0x03, 0x04, 0x05, 0x06, 0, 0x49, 0, 0, 0, 0, 0, 0x34, 0x12, 0, 0] false ST.OK)) ∧
    gives (.stackRead 0 (0x24_4000 + 64 * 17733) 32 0 []) tableNode (fun t => t.out.head? ==
      some (.readData 0 (0x24_4000 + 64 * 17733) (List.replicate 32 0) false ST.OK)) := by
  decide +kernel

theorem test_stack_refusals : bucketPasses (oneSector false) 3 = true ∧ bucketPasses (node []) 3 = false ∧ regActs (node []) false 3 = true ∧ upperSize < upperSize - 1 + 2 ∧ 0 + 32 ≤ upperSize ∧
    stackShut (node [(STK_STS.FENCED, 0, 1)]) (offStack 0) = true ∧ rangesOf (2 ^ 30 - 32) 64 = [0, 2 ^ 30] ∧
    stackShut (oneSector false) 0 = false ∧ setOwner (oneSector false) 0 (offSet 0) ≠ some 4 ∧ accessRefusal (oneSector false) 3 0 32 = none ∧
    gives (.stackRead 3 0 32 5 []) (oneSector false) (fun t => t.flag STK_STS.FENCED 0 && t.rd (STK_CNT.COUNT 4) 0 == 4 && t.rd (STK_CNT.COUNT 5) 0 == 1) := by
  decide +kernel

/-- A fill of one 4 KiB piece of stack 1 runs. -/
def filling : State := { node [] with stk.units := [(1, { cmd := some (.fill (2 ^ 33) (2 ^ 33 + 4096) (List.replicate 32 5)) })] }

theorem test_stack_commands :
    (node [(STK_CMD_END.OFFSET, 7, 2 ^ 28 - 1)]).flag STK_CMD_STS.BUSY 7 = false ∧
    gives (.fill 1) (node [(STK_CMD_START.OFFSET, 1, 2 ^ 21), (STK_CMD_END.OFFSET, 1, 2 ^ 21 + 1)]) (fun t => t.flag STK_CMD_STS.BUSY 1) ∧
    rangeTouches 1 (2 ^ 33) (2 ^ 33 + 4096) = true ∧ rangeTouches 1 0 4096 = false ∧ bitList 0 8 = [] ∧
    gives (.zeroize 7 0x81) (node []) (fun t => (t.stkUnit 7).cmd == some (.zero 0x81)) ∧
    setOwner (oneSector false) 0 0 ≠ none ∧ bitList 1 8 = [0] ∧
    (node [(STK_CMD_STS.BUSY, 2, 1)]).flag STK_CMD_STS.BUSY 2 = true ∧
    gives (.stkCmdAbort 1 0) (after (execFill 1 (node [(STK_CMD_START.OFFSET, 1, 2 ^ 21), (STK_CMD_END.OFFSET, 1, 2 ^ 21 + 1)])) State.reset)
      (fun t => t.rd STK_CMD_STS.STATUS 1 == ST.STK_CMD_ABORTED) := by
  decide +kernel

/-- The completion of a fill waits while a list holds a row of it. -/
theorem test_fill_held : stkReach filling 1 (2 ^ 33 + 4096) (.fill (2 ^ 33) (2 ^ 33 + 4096) (List.replicate 32 5)) = 2 ^ 33 + 4096 ∧
    stkReach { filling with stk.claims := [(64, [2 ^ 33])] } 1 (2 ^ 33 + 4096) (.fill (2 ^ 33) (2 ^ 33 + 4096) (List.replicate 32 5)) = 2 ^ 33 := by
  decide +kernel

/-- Entry 31 of stack 7 redirects the row of entry word 0x10. -/
def remapped : State := node [(STK_REMAP_SEL.INDEX, 7, 31), (STK_REMAP_ENT.VALID, 32 * 7 + 31, 1), (STK_REMAP_ENT.ROW, 32 * 7 + 31, 1)]

theorem test_remap_patrol_refresh :
    gives (.remapInstall 7 0x80000010) (node [(STK_REMAP_SEL.INDEX, 7, 31)]) (fun t => (t.stkUnit 7).remap == some (31, 0x10)) ∧
    (node [(STK_REMAP_STS.BUSY, 0, 1)]).flag STK_REMAP_STS.BUSY 0 = true ∧
    remapped.flag STK_REMAP_ENT.VALID (32 * 7 + 31) = true ∧ remapEntry remapped 7 31 = bits 0x80000010 4 27 * 16 ∧
    gives (.remapInstall 7 0x80000010) (remapped.wr STK_REMAP_SEL.INDEX 7 0) (fun t => t.flag STK_REMAP_STS.DUP 7) ∧
    gives (.remapCopyDone 7) (after (execRemapInstall 7 0x80000010 (node [(STK_REMAP_SEL.INDEX, 7, 31)])) State.reset)
      (fun t => t.flag STK_REMAP_ENT.VALID 255 && t.rd STK_REMAP_STS.USED 7 == 1) ∧
    claimHeld { node [] with stk.claims := [(448, [offRow (remapOff 7 0x10 0)])] } (remapOff 7 0x10 0) = true ∧ claimHeld (node []) (remapOff 7 0x10 0) = false ∧
    (node []).flag STK_PATROL_CFG.EN 7 = true ∧ stackShut (node []) 7 = false ∧ (node [(STK_PATROL_CFG.EN, 7, 0)]).flag STK_PATROL_CFG.EN 7 = false ∧
    stackRows ≤ (node [(STK_PATROL_POS.ROW_INDEX, 0, 100663295)]).rd STK_PATROL_POS.ROW_INDEX 0 + 1 ∧
    rowHeld (node []) (patrolOff 0 5 0) = false ∧ rowHeld (node [(STK_STS.SELF_REFRESH, 0, 1)]) (patrolOff 0 5 0) = true ∧
    gives (.refresh 3 9 1) (node []) (fun t => KMap.get 0 (t.stkUnit 3).postponed 9 == 1) ∧
    gives (.refresh 3 9 1) (node [(STK_REF_CFG.POSTPONE_MAX, 3, 0)]) (fun t => t.rd (STK_CNT.COUNT 6) 3 == 1) := by
  decide +kernel

/-- The node after reset with no bucket acting. -/
def press : State := node [(REAM_REG_CTL.EN, 0, 0)]

/-- A command word of Table 4.5: opcode, RD, RS, ARG, address, flags. -/
def word (op rd rs arg addr flags : Nat) : Nat := op * 2 ^ 58 + rd * 2 ^ 54 + rs * 2 ^ 50 + arg * 2 ^ 40 + addr + flags

/-- A list that runs on unit `u` of stack 0. -/
def running (l : PltList) (s : State) : State := s.setRun l.first { list := l }

/-- The header of a list of `n` commands for unit 0. -/
def header (n : Nat) : Bytes := [BitVec.ofNat 8 n, 0, 0, 0, 1, 0, 7, 0] ++ List.replicate 8 0

theorem test_platen_lists :
    listRefusal press 0 (header 1) [word 0 0 0 0 0 0] (parseList (.block 0) (header 1) [word 0 0 0 0 0 0] [] 0) = none ∧
    listRefusal (node [(PLT_CFG.EN, 7, 0)]) 7 (header 1) [0] (parseList (.block 0) (header 1) [0] [] 0) = some ST.PLT_DISABLED ∧
    bucketPasses press 0 = true ∧ bucketPasses (node []) 0 = false ∧ nextList press 0 0 [] (pltList press 0) = none ∧
    inTime (press.setHold 63 { held := true }) 7 7 = false ∧ KMap.find? press.stk.claims 5 = none ∧
    inTime { press.setHold 63 { held := true } with plt.queues := [(7, [{ gang := true, target := 7, words := [word 8 0 0 0 0 0] }])] } 7 7 = true ∧
    gives (.platenListStart 0 0) (after (execPlatenListSubmit 0 (.block 0) (header 1) [word 2 0 0 0 0 0] [] press) press)
      (fun t => (pltRun? t 0).isSome && KMap.get [] t.stk.claims 0 == [0]) ∧
    gives (.platenListRetire 0 0) (press.setRun 0 { ended := true, status := ST.PLT_ADDR, cmdIndex := 3 })
      (fun t => (pltRun? t 0).isNone && t.rd PLT_ERR_LOG0.CMD_INDEX 0 == 3 && t.rd (PLT_CNT.COUNT 0) 0 == 1) ∧
    gives (.platenPreempt 0 5) { (press.setRun 5 {}) with now := 4000 } (fun t => (pltRun? t 5).any (·.preempted)) ∧
    gives (.platenPreempt 0 5) { (press.setRun 5 {}) with now := 3999 } (fun t => (pltRun? t 5).all (!·.preempted)) ∧
    gives (.platenResume 0 5) (press.setRun 5 { suspended := true }) (fun t => (pltRun? t 5).all (!·.suspended)) ∧
    gives (.phaseTmoExpire 7 7) { (press.setHold 63 { held := true }) with now := 10 ^ 9 } (fun t => !(pltHold t 63).held) ∧
    gives (.pltResInj 2 0x7F) press (fun t => KMap.get 0 t.plt.inject 191 == 1) := by
  decide +kernel

/-- A list of one command that runs on unit 0 of stack 0. -/
def loaded (w : Nat) : State := running { words := [w] } press

/-- Two granules of unit 0 hold the byte 0xF0. -/
def granules : State := sectors ([0, 32, 512, 544].map fun o => (o, List.replicate 32 0xF0)) (loaded (word 1 3 0 0 0 1))

theorem test_platen_vector :
    NextCmd (loaded (word 0 0 0 0 0 0)) 0 0 0 { list := { words := [word 0 0 0 0 0 0] } } (word 0 0 0 0 0 0) ∧
    bits (cmdAddr (word 2 0 2 0 0 0)) 9 2 = 0 ∧ ownOk 0 { words := [word 2 0 2 0 0 0] } (word 2 0 2 0 0 0) 0 = true ∧
    NextCmd (loaded (word 2 0 2 0 0 0)) 0 0 2 { list := { words := [word 2 0 2 0 0 0] } } (word 2 0 2 0 0 0) ∧
    gives (.puts 0 0) (running { words := [word 3 1 0 0 0 1], stream := List.replicate 128 0xFF } press) (fun t => sortLane t 0 1 0 == 0xFFFF) ∧
    gives (.xclr 0 0) { loaded (word 4 0 0 0 0 4) with plt.accs := [(256, 9)] } (fun t => accLane t 0 2 0 == 0) ∧
    bits (cmdAddr (word 5 0 2 0 0 0)) 9 3 = 0 ∧ NextCmd (loaded (word 5 0 2 0 0 0)) 0 0 5 { list := { words := [word 5 0 2 0 0 0] } } (word 5 0 2 0 0 0) ∧
    (loaded (word 6 0 1 2 0 0)).plt.inject = [] ∧ Reachable (loaded (word 2 0 2 0 0 0)) 0 { list := { words := [word 2 0 2 0 0 0] } } (word 2 0 2 0 0 0) ∧
    stackShut ((loaded (word 2 0 2 0 0 0)).wr STK_STS.FENCED 0 1) 0 = true ∧ ownOk 0 { words := [word 2 0 2 0 64 0] } (word 2 0 2 0 64 0) 0 = false ∧
    gives (.vmac 0 0 0) { loaded (word 6 0 1 2 0 0) with plt.sorts := [(128, 0xFFFF), (256, 3)] } (fun t => accLane t 0 0 0 == 2 ^ 48 - 3) ∧
    gives (.fence 0 0) (loaded (word 14 0 0 0 0 0)) (fun t => t.rd (PLT_CNT.COUNT 6) 0 == 1) := by
  decide +kernel

theorem test_lds : NextCmd granules 0 0 1 { list := { words := [word 1 3 0 0 0 1] } } (word 1 3 0 0 0 1) ∧ granuleSectors 0 2 = [0, 32, 512, 544] ∧
    ownOk 0 { words := [word 1 3 0 0 0 1] } (word 1 3 0 0 0 1) 0 = true ∧
    (granuleSectors 0 2).all (fun b => decide (cells granules b = some (List.replicate 32 0xF0) ∧ poisonBit granules b = false ∧
      decodeWord (wordOf granules b (List.replicate 32 0xF0)) = .clean)) ∧
    gives (.lds 0 0) granules (fun t => sortLane t 0 3 0 == 0xFFF0) := by
  decide +kernel

/-- A PARM word: INT8 keys and values, 32 dimensions, 64 positions, one head, window 0 to 1. -/
def parmWord : Nat := word 7 4 4 0 0 0 + 1 * 2 ^ 29

/-- An open folio at offset 0 with one position filled, and a gang list that scores it. -/
def pressed (op : Nat) : State :=
  running { gang := true, words := [word op 0 0 0 0 0], stream := [1, 0] }
    (sectors [(0, (List.range 32).map fun i => if i = 24 then 1 else 0), (32, List.replicate 32 0), (bodyOff, List.replicate 32 1),
              (bodyOff + 0x800, List.replicate 32 1), (bodyOff + 0x880, List.replicate 32 1), (bodyOff + 0x1080, List.replicate 32 1)]
      { press with plt.parms := [(0, parmWord)] })

theorem test_press_set : parmOk parmWord = true ∧ parmOk 0 = false ∧
    gives (.parm 0 0) (running { gang := true, words := [parmWord] } press) (fun t => KMap.get 0 t.plt.parms 0 == parmWord) ∧
    (loaded (word 6 0 1 2 0 0)).plt.inject = [] ∧
    gives (.xout 0 0) { pressed 10 with plt.holds := [(0, { held := true, n := 1, nPass := 1 })] } (fun t => (pltHold t 0).held) := by
  decide +kernel

theorem test_pscore :
    (let s := pressed 8
     let g := parmGeo parmWord
     let r₁ := readArray 0 0 64 s
     NextCmd s 0 0 8 { list := { gang := true, words := [word 8 0 0 0 0 0], stream := [1, 0] } } (word 8 0 0 0 0 0) ∧
     Reachable s 0 { list := { gang := true, words := [word 8 0 0 0 0 0], stream := [1, 0] } } (word 8 0 0 0 0 0) ∧
     pscoreRefusal s 0 (word 8 0 0 0 0 0) { gang := true, words := [word 8 0 0 0 0 0], stream := [1, 0] } = 0 ∧ r₁.1.map (fun b => (Hdr.ofBytes b).fill) = some 1 ∧
     (pressPlane 0 0 bodyOff (bodyOff + g.keyScaleOff) g.kf g.d 0 1 r₁.2).1.2.2 = []) := by
  decide +kernel

theorem test_pwacc :
    (let s := { pressed 9 with plt.holds := [(0, { held := true, n := 1, nPass := 1 })] }
     let g := parmGeo parmWord
     holdFault s 0 0 { gang := true, words := [word 9 0 0 0 0 0], stream := [1, 0] } = 0 ∧
     (pressPlane 0 0 (bodyOff + g.valOff) (bodyOff + g.valScaleOff) g.vf g.d 0 1 s).1.2.2 = []) := by
  decide +kernel

/-- A line of partition 3 in way 2 of set 0 of region 0. -/
def cached : State := (press.wr (GAL_WAY_OWNER.SEALED 2) 0 1).setLine 2 { valid := true, part := 3, data := [7], crc := crc32c [7] }

theorem test_galley : galProbe cached { part := 3 } = some 2 ∧ galRefused cached { part := 3 } = false ∧ galRefused cached { part := 0 } = true ∧
    galProbe cached { part := 4 } = none ∧ galRefused cached { part := 4 } = false ∧ galKey 0 (galSet 0) 2 = 2 ∧
    gives (.galleyRead { part := 3 } 0 []) cached (fun t => t.out == [OutMsg.readData 3 0 [7] false ST.OK]) ∧
    gives (.galleyRead { part := 3 } 1 [128 * 32, 128]) cached (fun t => t.gal.fills == [({ part := 3 }, 1)] && t.rd (GAL_CNT.COUNT 0) 0 == 1 && t.rd (GAL_CNT.COUNT 4) 0 == 1) ∧
    fillWaits (fillCmd { part := 4 }) { part := 4 } (cached.wr STK_STS.FENCED 0 1) = none ∧
    gives (.galleyFill) { cached.wr STK_STS.FENCED 0 1 with gal.fills := [({ part := 4 }, 0)] } (fun t => t.gal.fills.isEmpty) := by
  decide +kernel

theorem test_galley_invalidate :
    gives (.galInvPart 0 3) cached (fun t => galProbe t { part := 3 } == none) ∧ gives (.galInvPart 0 4) cached (fun t => galProbe t { part := 3 } == some 2) ∧
    gives (.galInvKeySlot 0 0) cached (fun t => galProbe t { part := 3 } == none) ∧ gives (.galInvAll 1) cached (fun t => galProbe t { part := 3 } == some 2) ∧
    gives (.galInvDone 0) (cached.wr GAL_INV_STS.BUSY 0 1) (fun t => t.rd GAL_INV_STS.BUSY 0 == 0) ∧
    gives (.galWayDisable 0 2) cached (fun t => galProbe t { part := 3 } == none) := by
  decide +kernel

/-- Four clean sectors of partition 0 fill a line. -/
theorem test_galley_fill : (let s := sectors ([0, 32, 64, 96].map fun o => (o, List.replicate 32 9)) press
    fillWaits (fillCmd {}) {} s = none ∧ accessRefusal s 0 0 128 = none ∧ (galVictim s {}).isSome ∧ sectorsOf 0 128 = [0, 32, 64, 96] ∧
    recordAt s 0 = none ∧ gives .galleyFill { s with gal.fills := [({}, 0)] }
      (fun t => t.out == [OutMsg.readData 0 0 (List.replicate 128 9) false ST.OK] && t.rd GAL_FILL.COUNT 0 == 1)) := by
  decide +kernel

/-- Block 0 runs a composition whose next instruction word is `w`. -/
def runs (w : Nat) (x : BlkSt := {}) : State :=
  { node [(REAM_REG_CTL.EN, 0, 0), (CMP_SEQ_STS.STATE, 0, 1), (CMP_SEQ_STS.CLK_ON, 0, 1)] with
    cmp.prog := [(0, natLe 8 w)], cmp.blocks := [(0, { x with cur := some (x.cur.getD {}) })] }

/-- Format S (Table 6.3): opcode, RD, RA, RB, FN, IMM. -/
def insS (op rd ra rb fn imm : Nat) : Nat := op * 2 ^ 56 + rd * 2 ^ 51 + ra * 2 ^ 46 + rb * 2 ^ 41 + fn * 2 ^ 32 + imm

theorem test_block_control : (∃ c, ((node []).setBlk 0 { queue := [c] }).blk 0 = { queue := [c] } ∧ compRun ((node []).setBlk 0 { queue := [c] }) c = none) ∧
    gives (.dispatch 0) ((node []).setBlk 0 { queue := [{ entry := 5 }], pc := 9 }) (fun t => (t.blk 0).pc == 5 && t.rd CMP_SEQ_STS.STATE 0 == 1) ∧
    gives (.cmpWatchdogExpire 0) { runs 0 with now := 10 ^ 12 } (fun t => (t.blk 0).cur.isNone && t.rd (CMP_CNT.COUNT 4) 0 == 1) ∧
    gives (.cmpWatchdogExpire 0) (runs 0) (fun t => (t.blk 0).cur.isSome) ∧
    gives (.unfence 0) (node [(CMP_SEQ_STS.STATE, 0, 4)]) (fun t => !blkFenced t 0) ∧
    gives (.cmpResInj 0 0xC3) (node []) (fun t => KMap.get 0 (t.blk 0).inject 7 == 1) ∧
    gives (.unfence 0) (node []) (fun t => t.rd CMP_SEQ_STS.STATE 0 == 0) ∧ gives (.cmpResInj 0 0x43) (node []) (fun t => (t.blk 0).inject == []) := by
  refine ⟨⟨{}, ?_⟩, ?_⟩ <;> decide +kernel

theorem test_scalar_words :
    AtIns (runs 0) 0 0x00 0 ∧ AtIns (runs (insS 1 1 2 3 0 5)) 0 0x01 (insS 1 1 2 3 0 5) ∧ AtIns (runs (insS 2 1 0 0 0 5)) 0 0x02 (insS 2 1 0 0 0 5) ∧
    AtIns (runs (insS 3 1 0 0 2 8)) 0 0x03 (insS 3 1 0 0 2 8) ∧ AtIns (runs (insS 4 0 1 2 1 3)) 0 0x04 (insS 4 0 1 2 1 3) ∧
    AtIns (runs (insS 5 1 2 3 0 0)) 0 0x05 (insS 5 1 2 3 0 0) ∧ AtIns (runs (insS 6 1 2 3 5 0)) 0 0x06 (insS 6 1 2 3 5 0) ∧
    AtIns (runs (insS 7 1 2 0 0 0)) 0 0x07 (insS 7 1 2 0 0 0) ∧ AtIns (runs (insS 8 0 0 0 0 0)) 0 0x08 (insS 8 0 0 0 0 0) ∧
    AtIns (runs (insS 9 0 0 0 2 0)) 0 0x09 (insS 9 0 0 0 2 0) ∧ AtIns (runs (insS 10 0 0 0 0 0)) 0 0x0A (insS 10 0 0 0 0 0) := by
  decide +kernel

theorem test_scalars :
    gives (.alu 0) (runs (insS 1 1 2 3 0 5) { scal := [(2, 7), (3, 2 ^ 64 - 6)] }) (fun t => (t.blk 0).a 1 == 6 && (t.blk 0).pc == 1) ∧
    gives (.alu 0) (runs (insS 1 0 2 3 0 5) { scal := [(2, 7)] }) (fun t => (t.blk 0).a 0 == 0) ∧
    gives (.li 0) (runs (insS 2 1 0 0 0 (2 ^ 32 - 1))) (fun t => (t.blk 0).a 1 == 2 ^ 64 - 1) ∧
    gives (.ldc 0) (runs (insS 3 1 0 0 2 0) { cur := some { ream := 9 } }) (fun t => (t.blk 0).a 1 == 9) ∧
    gives (.br 0) (runs (insS 4 0 1 2 1 3)) (fun t => (t.blk 0).pc == 3) ∧ gives (.br 0) (runs (insS 4 0 1 2 2 3)) (fun t => (t.blk 0).pc == 1) ∧
    gives (.plog 0) (runs (insS 5 1 2 3 0 0) { preds := [(2, 6), (3, 3)] }) (fun t => (t.blk 0).p 1 == 2) ∧
    gives (.mpos 0) (runs (insS 6 1 2 3 5 0) { scal := [(2, 4), (3, 7)] }) (fun t => (t.blk 0).p 1 == 7) ∧
    gives (.pcnt 0) (runs (insS 7 1 2 0 0 0) { preds := [(2, 11)] }) (fun t => (t.blk 0).a 1 == 3) := by
  decide +kernel

theorem test_sync_end :
    gives (.sync 0) (runs (insS 8 0 0 0 0 0)) (fun t => (t.blk 0).pc == 1) ∧
    gives (.sync 0) { runs (insS 8 0 0 0 0 0) with cmp.emits := [{ block := 0 }] } (fun t => (t.blk 0).pc == 0) ∧
    gives (.rchk 0) (runs (insS 9 0 0 0 2 0)) (fun t => (t.blk 0).strict) ∧
    gives (.endIns 0) (runs (insS 10 0 0 0 0 0)) (fun t => (t.blk 0).cur.isNone && t.rd (CMP_CNT.COUNT 0) 0 == 1) ∧
    gives (.endIns 0) (runs (insS 10 0 0 0 0 0) { cur := some { nq := 1, nh := 1, slots := [{}] } }) (fun t => t.rd CMP_ERR_LOG0.STATUS 0 == ST.CMP_NO_EMIT) := by
  decide +kernel

/-- Format M (Table 6.4): opcode, TD, TS, FSLOT, SEC, ROWL, FMT, FIRST, COUNT, RA, AD, FLAGS. -/
def insM (op td ts fs sec rowl fmt first count ra ad flags : Nat) : Nat :=
  op * 2 ^ 56 + td * 2 ^ 52 + ts * 2 ^ 48 + fs * 2 ^ 44 + sec * 2 ^ 42 + rowl * 2 ^ 38 + fmt * 2 ^ 34 + first * 2 ^ 24 + count * 2 ^ 13 + ra * 2 ^ 8 +
  ad * 2 ^ 6 + flags

/-- A composition of one query vector and one folio slot. -/
def oneQuery : Comp := { nq := 1, nh := 1, qfmt := 0, slots := [{}], staging := List.replicate 64 3 }

theorem test_streams :
    (let w := insM 0x10 2 0 0 0 6 0 0 1 0 0 0
     let s := (runs w { cur := some { oneQuery with slots := [{ press := true }] } }).wr STK_STS.FENCED 0 1
     AtIns s 0 0x10 w ∧ slotOk (s.blk 0) w = true ∧ tilesFit (mTd w) (mRowl w) (mCount w) = true ∧ mFirst w + mCount w ≤ secBlocks {} 0 ∧
     (stream 0 0 (s.blk 0).comp {} [] [] 0 1 s).port.status = ST.STK_FENCED ∧ gives (.fexp 0 {}) s (fun t => (t.blk 0).cur.isNone)) := by
  decide +kernel

theorem test_ldq :
    (let w := insM 0x11 2 0 0 0 6 0 0 1 0 0 0
     let s := runs w { cur := some oneQuery }
     AtIns s 0 0x11 w ∧ 2 ^ mRowl w = elemBytes (mFmt w) 32 ∧ gives (.ldq 0) s (fun t => (t.blk 0).row 2 0 == leNat (List.replicate 64 3))) := by
  decide +kernel

theorem test_emits :
    (let w := insM 0x12 0 0 0 0 0 0 0 1 1 0 0
     let s := runs w { cur := some oneQuery, accs := [(0, 5)] }
     AtIns s 0 0x12 w ∧ slotOk (s.blk 0) w = true ∧ accRowsBad (s.blk 0) 0 1 32 = false ∧
     gives (.pemit 0) s (fun t => (t.blk 0).emitted == [(0, 0)] && (t.cmp.emits.head?.bind fun e => (e.tris.head?.map (·.o.getD 0 0))) == some 5) ∧
     gives (.pemit 0) (s.setBlk 0 { s.blk 0 with emitted := [(0, 0)] }) (fun t => t.rd CMP_ERR_LOG0.STATUS 0 == ST.CMP_EMIT)) ∧
    (let w := insM 0x13 0 0 0 0 0 0 0 1 0 0 0
     let s := runs w { cur := some { oneQuery with append := true } }
     AtIns s 0 0x13 w ∧ gives (.aemit 0) s (fun t => (t.blk 0).emitted == [(32, 0)])) ∧
    AtIns (runs (0x20 * 2 ^ 56)) 0 0x20 (0x20 * 2 ^ 56) ∧
    gives (.azero 0) (runs (0x20 * 2 ^ 56) { accs := [(3, 7), (64, 9)] }) (fun t => (t.blk 0).acc 0 3 0 == 0 && (t.blk 0).acc 1 0 0 == 9) := by
  decide +kernel

theorem test_press_lists :
    (let w := insM 0x14 0 0 0 0 0 4 0 1 0 0 0
     let s := runs w { cur := some { oneQuery with slots := [{ press := true }] } }
     AtIns s 0 0x14 w ∧ parmSpan w (s.blk 0) { press := true } = some (0, 1) ∧
     (({ np := 1, count := 1 } : PressOut).accs.all fun a => decide (a ≤ 3)) ∧ (s.blk 0).tileBad 0 1 = false ∧
     gives (.psc 0) s (fun t => (t.blk 0).press.length == 1 && (t.blk 0).pc == 1) ∧
     gives (.psc 0) (s.setBlk 0 { s.blk 0 with press := [{ np := 1, count := 1 }] }) (fun t => (t.blk 0).pc == 0)) ∧
    (let w := insM 0x15 0 0 0 0 0 0 0 1 0 0 0
     let s := runs w { cur := some { oneQuery with slots := [{ press := true }] } }
     AtIns s 0 0x15 w ∧ gives (.pwv 0) s (fun t => (t.blk 0).press.length == 1 && (t.blk 0).pc == 1)) := by
  decide +kernel

/-- Lines of a solid folio at offset 0: a right header, and 5 everywhere else. -/
def folioLine (i : Nat) : Bytes := if i = 0 then Hdr.toBytes { blocks := ({} : Geo).solid / 64 } ++ List.replicate 64 5 else List.replicate 128 5

/-- Region 0 with the first 21 of those lines in way 0. -/
def galleyFolio (w : Nat) : State :=
  { runs w { cur := some oneQuery } with
    gal.lines := (List.range 21).map fun i =>
      (galKey 0 (galSet (128 * i)) 0, { valid := true, tag := galTag (128 * i), data := folioLine i, crc := crc32c (folioLine i) }) }

theorem test_fexp_held :
    (let w := insM 0x10 2 0 0 0 6 0 0 1 0 0 0
     let s := galleyFolio w
     let hdr := slice ((List.range 4).flatMap folioLine) 0 448
     AtIns s 0 0x10 w ∧ kernHeaderOk (Hdr.ofBytes hdr) hdr 0 {} false = true ∧ (s.blk 0).stream = none ∧ (s.blk 0).port = {} ∧
     (List.range 21).all (fun i => galProbe s (folioReq 0 {} (128 * i)) == some 0 &&
       (galLine s (galKey 0 (galSet (128 * i)) 0)).data == folioLine i && (folioLine i).length == 128) ∧
     gives (.fexp 0 {}) s (fun t => (t.blk 0).pc == 1 && (t.blk 0).row 2 0 == leNat (List.replicate 64 5))) := by
  decide +kernel

/-- Format T (Table 6.5): opcode, AD, TA, TB, TC, TE, FA, FB, C0, NC − 1, S, RA, RB, INIT. -/
def insT (op ad ta tb tc te fa fb c0 nc s ra rb ini : Nat) : Nat :=
  op * 2 ^ 56 + ad * 2 ^ 54 + ta * 2 ^ 50 + tb * 2 ^ 46 + tc * 2 ^ 42 + te * 2 ^ 38 + fa * 2 ^ 34 + fb * 2 ^ 30 + c0 * 2 ^ 20 + nc * 2 ^ 14 +
  s * 2 ^ 11 + ra * 2 ^ 6 + rb * 2 + ini

/-- The block of a composition of one query vector that runs under τ = 1. -/
def oneBlk : BlkSt := { cur := some { oneQuery with tau := 0x3F800000 } }

theorem test_tensor_words : [insT 0x21 0 0 1 0 0 0 0 0 0 0 0 0 1, insT 0x22 0 0 1 2 3 4 4 0 0 0 0 0 1, insT 0x23 0 0 1 0 0 0 0 0 0 0 0 0 0,
      insT 0x24 0 0 0 1 2 0 0 0 0 0 0 0 0, insT 0x25 0 0 1 2 0 0 0 0 0 0 0 0 0, insT 0x26 0 0 0 0 0 1 0 0 0 0 1 2 0,
      insT 0x27 0 0 0 0 0 0 0 0 0 0 0 0 0 + 2 ^ 29, insT 0x28 0 0 0 0 0 0 0 0 0 0 1 0 1, insT 0x29 0 0 0 1 0 0 0 0 0 0 1 2 1,
      insT 0x2A 0 0 1 2 0 0 0 0 0 0 1 2 1, insT 0x2B 0 0 0 0 0 0 0 0 0 0 0 0 0].all
      fun w => decide (AtIns (runs w oneBlk) 0 (iOp w) w ∧ (oneBlk.awaits (tAd w)) = false ∧ failures 0 (iOp w) {} oneBlk (runs w oneBlk) = []) := by
  decide +kernel

theorem test_tensor_ranges : fpClasses 0 0 = true ∧ scaled 4 = true ∧ oneBlk.a 1 % 32 = 0 ∧ oneBlk.a 0 < oneBlk.dim ∧ rowElems 0 = 32 ∧
    tauOk 0x3F800000 = true ∧ oneBlk.accBad 0 0 1 = false ∧ rotBad (insT 0x25 0 0 1 2 0 0 0 0 0 0 0 0 0) 32 oneBlk = false ∧ oneBlk.tileBad 0 64 = false ∧
    waccBad (insT 0x2A 0 0 1 2 0 0 0 0 0 0 1 2 1) 32 0 32 oneBlk = false ∧ rksumBad (insT 0x2B 0 0 0 0 0 0 0 0 0 0 0 0 0) oneBlk = false := by
  decide +kernel

/-- A tile of one BF16 element 2.0 in row 0. -/
def twos : BlkSt := { oneBlk with tiles := [(0, 0x4000), (64, 0x4000)] }

theorem test_tensor_values :
    tmulAt (insT 0x21 0 0 1 0 0 1 1 0 0 0 0 0 1) twos 0 0 = 0x40800000 ∧ maskqAt (insT 0x26 0 0 0 0 0 1 0 0 0 0 1 2 0) {} { twos with scal := [(1, 3)] } 0 0 = true ∧
    gives (.rksum 0 {}) (runs (insT 0x2B 0 0 0 0 0 0 0 0 0 0 0 0 0) { oneBlk with accs := [(0, 0x3F800000)], rmap := [(0, 1)] })
      (fun t => (t.blk 0).acc 0 0 0 == 0x3F800000) := by
  decide +kernel

theorem test_tensor_mask :
    gives (.maskp 0) (runs (insT 0x27 0 0 0 0 0 0 0 0 0 0 0 0 0 + 2 ^ 29) { oneBlk with preds := [(0, 2 ^ 64 - 2)] })
      (fun t => (t.blk 0).acc 0 0 0 == 0xFF800000 && (t.blk 0).acc 0 1 0 == 0) ∧
    gives (.rmax 0) (runs (insT 0x28 0 0 0 0 0 0 0 0 0 0 1 0 1) { oneBlk with accs := [(5, 0x40000000)] }) (fun t => (t.blk 0).a 1 == 0x40000000) := by
  decide +kernel

theorem test_unfit : gives (.alu 0) (runs (0xFF * 2 ^ 56)) (fun t => t.rd CMP_ERR_LOG0.STATUS 0 == ST.CMP_ILLEGAL) ∧
    gives (.alu 0) (node []) (fun t => t.rd CMP_ERR_LOG0.STATUS 0 == 0) ∧ gives (.alu 0) (runs 0 { pc := 8192 }) (fun t => t.rd CMP_ERR_LOG0.STATUS 0 == ST.CMP_PC) ∧
    (runs (0x20 * 2 ^ 56) { press := [{ np := 1, count := 1 }] }).blk 0 = { cur := some {}, press := [{ np := 1, count := 1 }] } ∧
    BlkSt.awaits { press := [{ np := 1, count := 1 }] } 0 = true := by
  decide +kernel

/-- One frame has been delivered to the node, whose only attempt, of ream 1 in partition 0, is `a`. -/
def got (f : Frame) (a : Att) (s : State) : State := { s.setAtt 1 a with fab.inbox := [f] }

/-- A ticket frame of no bytes. -/
def blank : Frame := { ty := 1, tc := 1, msg := 1 }

theorem test_ticket :
    (let s := got blank {} (press.wr RAS_NODE_STS.STATE 0 2)
     (takeMsg (fun f => f.ty == 1) s).map (·.1) = some [blank] ∧ stateRefuse s 0 true = some ST.REAM_BUSY ∧
     stateRefuse (press.wr RAS_NODE_STS.STATE 0 3) 0 true = some ST.FENCED ∧ stateRefuse press 0 true = some ST.NOT_ADMITTED ∧
     stateRefuse (press.wr HST_PRT_STS.RST_BUSY 0 1) 0 true = some ST.PRT_RESET ∧
     stateRefuse ((press.wr RAS_NODE_STS.STATE 0 2).wr RAS_NBR_AHEAD.NBR 0 1) 0 true = some ST.EPOCH_BEHIND ∧ stateRefuse s 0 false = none ∧
     heldAttempt s { data := [] } = none ∧ badHeader {} = true ∧
     gives .ticket s (fun t => t.rd REAM_TKT_REFUSE_CNT.COUNT == 1 && t.rd REAM_BUSY_CNT.COUNT == 1 && t.fab.inbox.isEmpty) ∧
     gives .ticket (s.wr RSP_FORME_STS.STATE 0 4) (fun t => t.fab.inbox == [blank])) := by
  decide +kernel

/-- A ticket of one slot of conversation 0 whose partition admits one ream under ACL off, its signature at this node alone. -/
def oneSlot : Bytes := natLe 2 1 ++ natLe 2 0 ++ natLe 4 1 ++ natLe 4 0 ++ natLe 2 1 ++ natLe 10 0 ++ natLe 4 640 ++ natLe 4 0x80 ++ natLe 32 0 ++
  natLe 10 0 ++ natLe 2 0x0101 ++ natLe 24 0 ++ natLe 4 0x3F800000 ++ natLe 24 0 ++ natLe 4 64 ++ natLe 508 0

theorem test_ticket_accepted :
    (let x : TktIn := { data := oneSlot }
     let d : SigDesc := { memb := [(nodeId State.reset, 0xFFFF, 0xFF)] }
     let s : State := { node [(REAM_REG_CTL.EN, 0, 0), (RAS_NODE_STS.STATE, 0, 2), (FLO_CFG.EN, 0, 1)] with
       col.sigs := [(0, d)], flo.convs := [(3, { conv := 0, state := 1, nlayer := 1, nhg := 1, hgHi := 1 })],
       fme.active.secs := State.reset.fme.active.secs }
     oneSlot.length = 640 ∧ badHeader x = false ∧ sigOf? s (tktSig x.data) 0 = some d ∧ onTree s x d = true ∧ badSlot (slotOf oneSlot 0) = false ∧
     badAppend (slotOf oneSlot 0) = false ∧ wEpoch x.word = d.epoch) := by
  decide +kernel

/-- An attempt with an append in a state. -/
def appending (st : Nat) : Att := { ream := 1, apps := [{ state := st }] }

theorem test_appends :
    (appendRows { q0 := 5 } 1 [] ((node [(REAM_REG_CTL.EN, 0, 0)]).setConv 0 { hgHi := 1, posHi := 0xFFFFFFFF }) ).1 = ST.APPEND_POS ∧
    (press.setAtt 1 (appending 1)).att? (attKey 0 1 0 false) = some (appending 1) ∧ appendBefore (appending 1) 0 = false ∧
    gives (.appendPlace 0 1 0 0) (press.setAtt 1 (appending 0)) (fun t => t.att? 1 == some (appending 0)) ∧
    wholeMsg press (fun f => f.ty == 5 && !(wAck f.arg)) = none ∧
    (takeMsg (fun f => f.ty == 5 && !(wAck f.arg)) (got { ty := 5 } {} press)).map (·.1) = some [{ ty := 5 }] ∧ joinFwd [{ ty := 5 }] = some [] ∧
    gives .appendFwd (got { ty := 5 } {} press) (fun t => t.rd COL_MIRROR_REFUSE_CNT.COUNT == 1) ∧
    (takeFrame (fun f => f.ty == 5 && wAck f.arg) (got { ty := 5, arg := 2 ^ 31 } {} press)).isSome ∧
    gives .appendFwdAck ({ (got { ty := 5, arg := 2 ^ 31, msg := 1, src := 4 } (appending 2) press).setConv 0 { state := 1, mirror := 4 } with now := 5 })
      (fun t => (t.att? 1).map (·.apps.map (·.state)) == some [3]) ∧
    gives (.mirrorCommitTimeout 0 1 0 0) { press.setAtt 1 (appending 2) with now := 10 ^ 12 } (fun t => t.rd COL_MIRROR_TMO_CNT.COUNT == 1) ∧
    gives (.mirrorCommitTimeout 0 1 0 0) (press.setAtt 1 (appending 2)) (fun t => t.rd COL_MIRROR_TMO_CNT.COUNT == 0) := by
  decide +kernel

theorem test_kern :
    (encodeBlock ((List.range 64).map fun i => BitVec.ofNat 8 (i % 4))).2.length = 12 ∧ encodeBlock (List.replicate 64 0) = (1, []) ∧
    gives .kernEncode { press with flo.toEncode := [1, 2] } (fun t => t.flo.toEncode == [2]) ∧
    gives (.kernEncodeDone 1) { press.setFolio 1 { state := 1, chunk := 7, nchunk := 2, outst := 3 } with flo.encodes := [(1, (9, 1))] }
      (fun t => (t.folio 1).chunk == 9 && (t.folio 1).oldChunk == 7 && (t.folio 1).oldOutst == 3 && t.flo.encodes.isEmpty) := by
  decide +kernel

/-- An emit at block 0 of the attempt of ream 1. -/
def emitted (e : Emit) (a : Att) : State := { press.setAtt 1 a with cmp.emits := [e] }

theorem test_partials :
    gives (.folioPartialAccept 0) (emitted { att := 9 } {}) (fun t => t.rd COL_STALE_CNT.COUNT == 1 && t.cmp.emits.isEmpty) ∧
    gives (.folioPartialAccept 0) (emitted { att := 1, step := 2 } {}) (fun t => t.rd COL_STALE_CNT.COUNT == 1) ∧
    gives (.folioPartialAccept 0) (emitted { att := 1 } { seen := [(0, 0, 0, 0)] }) (fun t => t.rd COL_DUP_CNT.COUNT == 1) ∧
    emitRoom (emitted { att := 1 } {}) {} { att := 1 } = true ∧
    gives (.folioPartialAccept 0) (emitted { att := 1 } {}) (fun t => (t.att? 1).map (·.seen) == some [(0, 0, 0, 0)]) ∧
    (takeMsg (fun f => f.ty == 2 && !(wAudit f.arg)) (got { ty := 2 } {} press)).map (·.1) = some [{ ty := 2 }] ∧
    gives .partialMsg (got { ty := 2 } {} press) (fun t => t.rd COL_STALE_CNT.COUNT == 1) := by
  decide +kernel

/-- This node is the root, or a leaf under node 9, of signature 0. -/
def signed (s : State) : State := { s with col.sigs := [(0, { memb := [(9, 0xFFFF, 0xFF), (0, 0xFFFF, 0)] })] }

theorem test_partials_up :
    (let s := signed (got { ty := 2, msg := 1, arg := 1 } { ream := 1 } press)
     (parentAtt s 0 1 1).isSome ∧ gives .partialMsg s (fun t => (t.att? 1).isNone || t.rd COL_ERR_LOG1.STATUS == 0)) ∧
    (let s := signed (press.setAtt (attKey 0 1 1 false) { ream := 1, pos := 1, mirrorOf := some 9 })
     gives (.nodePartialSend 0 1 1 false) s (fun t => (t.att? (attKey 0 1 1 false)).isNone)) ∧
    (let s := signed { press.setAtt 1 { ream := 1 } with col.reams := [(1, { ream := 1 })] }
     gives (.rootFinish 0 ⟨1, true⟩) s (fun t => (t.att? 1).isNone && t.col.reams.isEmpty)) ∧
    (let s := signed { press.setAtt 1 { ream := 1, apps := [{}] } with col.reams := [(1, { ream := 1 })] }
     gives (.rootFinish 0 ⟨1, true⟩) s (fun t => (t.att? 1).isSome)) := by
  decide +kernel

/-- A record of child 1 for one vector, after a local fold that is not known yet: it is buffered where there is room. -/
theorem test_records :
    (let a : Att := { ream := 1, ticket := natLe 64 (2 ^ 96) ++ natLe 64 (2 ^ 80 + 2 ^ 88) }
     let r : PartRec := { ream := 1, level := 1, tris := [Tri.empty 32] }
     let s := (press.setAtt 1 a).wr COL_QUOTA.QUOTA_KIB 0 0
     recFits a r = true ∧ recRoom s a 1 r = false ∧ (takeRecords 1 1 [r] s).att? 1 = some a ∧
     (let u := s.wr COL_QUOTA.QUOTA_KIB 0 100
      recRoom u a 1 r = true ∧ ((takeRecords 1 1 [r] u).att? 1).map (·.seen) = some [(0, 1, 0, 0)])) := by
  decide +kernel

theorem test_schedule :
    gives (.reamCommit 1) press (fun t => t.rd REAM_COMMIT_STS.PEND == 1) ∧
    (let s := press.setAtt 1 { ticket := natLe 16 (2 ^ 96), tag := 5 }
     (nextTicket s).map (·.1) = some 1 ∧ nodeRuns s = true ∧ gives .slotPipelineServe s (fun t => t.rea.v1 == 5 && (t.att? 1).any (·.due))) ∧
    (let s := { node [(CMP_SEQ_CTL.RUN, 0, 1), (CMP_SEQ_STS.CLK_ON, 0, 1)] with rea.pool := [{ tag := 3 }], now := 1000 }
     nextPending s 0 = some { tag := 3 } ∧ blockAccepts s 0 0 = true ∧ gives (.dispatchQueueAdmit 0) s (fun t => (t.blk 0).queue == [{}] && t.rea.pool.isEmpty)) ∧
    gives (.placementBatch 0 1 0 false) (press.setAtt 1 { due := true }) (fun t => (t.att? 1).any fun a => !a.due) ∧
    gives (.gangWaitExpire 0 1 0 false) { ((press.wr PLT_CFG.EN 0 0).wr CMP_OWNER.ASSIGNED 0 1).setAtt 1 { gangs := [{}] } with now := 10 ^ 12 } (fun t => t.rd REAM_GALLEY_CNT.COUNT == 1) ∧
    gives (.gangWaitExpire 0 1 0 false) ((press.wr PLT_CFG.EN 0 0).setAtt 1 { gangs := [{}] }) (fun t => t.rd REAM_GALLEY_CNT.COUNT == 0) := by
  decide +kernel

theorem test_schedule_time :
    gives (.partitionStarvation 3) { node [(REAM_CFG.STARVE_US, 0, 1)] with rea.pool := [{ comp := { part := 3 } }], now := 10 ^ 9 }
      (fun t => bitOf (t.rd REAM_STARVE_STS.STARVE) 3 && t.rd REAM_STARVE_CNT.COUNT == 1) ∧
    gives .regulatorRefill (node [(REAM_REG_CFG.STK_RATE, 2, 5), (REAM_REG_CFG.STK_BURST, 2, 4)]) (fun t => tokens t false 2 == 5000) ∧
    gives .acctPeriod { press with rea.rest := [(3, {})], now := 10 ^ 15 } (fun t => t.rea.rest.isEmpty && t.rea.lastAcct == 10 ^ 15) ∧
    gives .acctPeriod { press with rea.rest := [(3, {})] } (fun t => !t.rea.rest.isEmpty) := by
  decide +kernel

/-- A directory command record: operation, conversation, CONV2, ARG, payload. -/
def dirRec (op conv conv2 arg : Nat) (pay : Bytes) : Bytes :=
  slice (natLe 8 op ++ natLe 8 conv ++ natLe 8 conv2 ++ natLe 8 arg ++ pay) 0 64

/-- The folio unit, with conversation 5 in record 3, and one command waiting. -/
def asked (b : Bytes) : State :=
  { node [(REAM_REG_CTL.EN, 0, 0), (FLO_CFG.EN, 0, 1), (CWD_BANK_CFG.TYPE 0, 0, 1), (CWD_BANK_CFG.WIDTH 0, 0, 1), (CWD_BANK_CFG.TYPE 1, 0, 2),
      (CWD_BANK_CFG.WIDTH 1, 0, 1), (CWD_BANK_CFG.TYPE 2, 0, 3), (CWD_BANK_CFG.WIDTH 2, 0, 2)] with
    flo.waiting := [(.reg, b)], flo.convs := [(3, { conv := 5, state := 1 })], cwd.ents := [(9, { key := dirKey 0 0 5, res := 3 })] }

theorem test_dir_taken : [1, 2, 3, 4, 5, 6, 7, 8, 9].all (fun op => decide (NextDir (asked (dirRec op 5 5 0 [])) op .reg (dirRec op 5 5 0 []) [])) ∧
    (convFind 0 0 5 (dirTaken (asked (dirRec 2 5 5 0 [])) [])).1 = some 3 ∧
    gives .convOpen (node []) (fun t => t.flo.waiting.isEmpty) ∧ gives .convOpen (asked (dirRec 2 0 0 0 [])) (fun t => t.flo.waiting.length == 1) ∧
    gives .convOpen { (node []) with flo.waiting := [(.reg, dirRec 1 0 0 0 [])] } (fun t => t.rd FLO_CMD_STS.STATUS == ST.FLO_DISABLED) ∧
    gives .convOpen ((asked (dirRec 1 0 0 0 [])).wr RAS_NODE_STS.STATE 0 3) (fun t => t.rd FLO_CMD_STS.STATUS == ST.FENCED) ∧
    gives .convOpen (asked (dirRec 1 0 0 0 [] ++ [0])) (fun t => t.rd FLO_CMD_STS.STATUS == ST.DIR_CMD_FORMAT) := by
  decide +kernel

theorem test_dir_acts :
    gives .convOpen (asked (dirRec 1 6 0 0 [])) (fun t => t.rd FLO_CMD_STS.STATUS == ST.DIR_GEOMETRY) ∧
    gives .convClose (asked (dirRec 2 5 0 0 [])) (fun t => t.flo.closing == some (.reg, 3) && (t.conv 3).state == 2 && t.cwd.ents.isEmpty) ∧
    gives .convImpose (asked (dirRec 4 5 0 0 (natLe 4 7))) (fun t => (t.conv 3).sig == 0 || t.rd FLO_CMD_STS.STATUS == ST.OK) ∧
    gives .aclGrant (asked (dirRec 5 5 0 (3 * 2 ^ 16 + 4) [])) (fun t => t.rd FLO_CMD_STS.STATUS == ST.OK && t.cwd.ents.length == 2) ∧
    gives .aclDrop (asked (dirRec 6 5 0 4 [])) (fun t => t.rd FLO_CMD_STS.STATUS == ST.CWD_NOT_FOUND) ∧
    gives .prefixPut (asked (dirRec 7 5 0 256 [1])) (fun t => t.rd FLO_CMD_STS.STATUS == ST.OK && t.cwd.ents.length == 2) ∧
    gives .prefixDrop (asked (dirRec 8 5 0 256 [1])) (fun t => t.rd FLO_CMD_STS.STATUS == ST.CWD_NOT_FOUND) ∧
    gives .prefixFind (asked (dirRec 9 5 0 256 [1])) (fun t => t.rd FLO_CMD_STS.STATUS == ST.CWD_NOT_FOUND) ∧
    gives .convShare (asked (dirRec 3 5 5 0 [])) (fun t => t.rd FLO_CMD_STS.STATUS == ST.OK) := by
  decide +kernel

theorem test_folio_free :
    gives (.folioFree 4) { press.setFolio 4 { state := 2, nchunk := 1, chunk := 7 } with flo.used := [(7, 1), (9, 1)] }
      (fun t => (t.folio 4).state == 0 && t.flo.freed == [4] && t.flo.used == [(9, 1)]) ∧
    gives (.folioFree 4) { press.setFolio 4 { state := 1, oldChunk := 9, oldN := 1 } with flo.used := [(7, 1), (9, 1)] }
      (fun t => t.flo.used == [(7, 1)] && t.flo.freed.isEmpty) ∧
    gives (.folioFree 4) (press.setFolio 4 { state := 2, nchunk := 1, chunk := 7, outst := 1 }) (fun t => (t.folio 4).state == 2) ∧
    gives .convCloseComplete { press.setConv 3 { state := 2 } with flo.closing := some (.reg, 3) } (fun t => (t.conv 3).state == 0 && t.flo.closing.isNone) ∧
    gives .convCloseComplete { press.setConv 3 { state := 2, inflight := 1 } with flo.closing := some (.reg, 3) } (fun t => (t.conv 3).state == 2) := by
  decide +kernel

/-- Bank 0 holds one-unit entries; the key register holds 5 under a full mask. -/
def words (l : List (Nat × CwdEnt)) : State :=
  { node [(CWD_BANK_CFG.WIDTH 0, 0, 1), (CWD_KEY.BITS 0, 0, 5), (CWD_MASK.BITS 0, 0, 2 ^ 32 - 1), (CWD_DATA.RESULT, 0, 8)] with cwd.ents := l }

theorem test_catchwords :
    bankUnits (words []) 0 = cwdUnits 1 ∧ cwdRegKey (words []) 1 = 5 ∧ 2 ≤ (groupFree (words []) 0 0).length ∧ 0 < bankPlaces (words []) 0 / 64 ∧
    gives (.cwdSearch 1 255 0 []) (words [(3, { key := 4 }), (6, { key := 5, res := 9 })]) (fun t => t.rd CWD_RES.POS == 6 && t.rd CWD_RES.RESULT == 9) ∧
    gives (.cwdSearch 1 255 7 []) (words [(6, { key := 5 })]) (fun t => t.rd CWD_STS.STATUS == ST.CWD_NOT_FOUND) ∧
    gives (.cwdInsert 1 0) (words [(0, { key := 4 })]) (fun t => cwdEnt t 0 1 == some { key := 5, res := 8 }) ∧
    gives (.cwdInsert 1 0) (words [(6, { key := 5 })]) (fun t => t.rd CWD_STS.STATUS == ST.CWD_DUP) ∧
    gives (.cwdInsertOrdered 1 0 2) (words [(2, { key := 4 }), (3, { key := 6 })]) (fun t => t.cwd.ents.map (fun e => (e.1, e.2.key)) == [(2, 5), (3, 4), (4, 6)]) ∧
    gives (.cwdDelete 0 6) (words [(6, { key := 5 })]) (fun t => t.cwd.ents.isEmpty) ∧ gives (.cwdDelete 0 5) (words []) (fun t => t.rd CWD_STS.STATUS == ST.CWD_NOT_FOUND) ∧
    gives (.cwdRead 0 6 false) (words [(6, { key := 2 ^ 32 + 7, res := 3 })]) (fun t => t.rd (CWD_KEY.BITS 1) == 1 && t.rd CWD_RES.RESULT == 3) ∧
    gives (.cwdParitySweep [(0, 6)]) (words [(3, {}), (6, {})]) (fun t => t.cwd.ents.length == 1) ∧
    gives (.cwdReinsert 3) { asked [] with cwd.ents := [] } (fun t => t.cwd.ents.length == 1 && t.rd (FLO_CNT.COUNT 6) == 1) := by
  decide +kernel

/-- A tier command record: operation, conversation, ARG. -/
def tierRec (op conv arg : Nat) : Bytes := slice (natLe 8 op ++ natLe 8 conv ++ natLe 8 0 ++ natLe 4 arg) 0 64

/-- Conversation 5 in record 3, of one run whose one folio is 4, in a tier state, and a waiting tier command. -/
def lowered (tier : Nat) (b : Bytes) : State :=
  { (asked []) with
    flo.waiting := [], tier.cmd := some b,
    flo.convs := [(3, { conv := 5, state := 1, nlayer := 1, nhg := 1, hgHi := 1 })],
    flo.runs := [(3 * maxRun (asked []), { tier := tier, vec := [(0, 4)], tail := 4 })],
    flo.folios := [(4, { state := if tier < 2 then 1 else 3, refs := 1, chunk := 9, nchunk := 1 })] }

theorem test_tier_commands :
    (tierConv (tierRec 1 5 0) (lowered 0 (tierRec 1 5 0))).1 = some 3 ∧ tierState (lowered 2 []) 3 0 = 2 ∧
    gives .spill { node [] with tier.cmd := none } (fun t => t.tier.cmd.isNone) ∧
    gives .spill (lowered 0 (tierRec 2 5 0)) (fun t => t.tier.cmd.isSome) ∧ gives .spill (lowered 0 (tierRec 1 6 0)) (fun t => t.rd TIER_CMD_STS.STATUS == ST.DIR_NO_CONV) ∧
    gives .spill (lowered 0 (tierRec 1 5 1)) (fun t => t.rd TIER_CMD_STS.STATUS == ST.DIR_NO_RUN) ∧
    gives .spill (lowered 2 (tierRec 1 5 0)) (fun t => t.rd TIER_CMD_STS.STATUS == ST.TIER_BUSY) ∧
    spillable (lowered 0 []) 3 0 = true ∧ gives .spill (lowered 0 (tierRec 1 5 0)) (fun t => t.rd (TIER_CNT.COUNT 5) == 1) ∧
    gives .fetch (lowered 4 (tierRec 2 5 0)) (fun t => t.rd TIER_CMD_STS.STATUS == ST.TIER_NOT_OWNER) ∧
    gives .fetch (lowered 0 (tierRec 2 5 0)) (fun t => t.rd TIER_CMD_STS.STATUS == ST.OK && t.tier.fetchq.isEmpty) ∧
    gives .fetch (lowered 2 (tierRec 2 5 0)) (fun t => t.rd TIER_CMD_STS.STATUS == ST.OK && t.tier.fetchq.length == 1) := by
  decide +kernel

theorem test_tier_moves :
    gives (.spillStart 2) { press with tier.needy := [2] } (fun t => t.tier.needy.isEmpty) ∧
    gives (.spillComplete 3 0 true 0) { lowered 1 [] with tier.spills := [(spillKey 3 0, { conv := 3, places := [(4, 7, 1)] })] }
      (fun t => tierState t 3 0 == 2 && (t.folio 4).state == 3 && t.tier.spills.isEmpty) ∧
    gives (.spillComplete 3 0 false 64) { lowered 1 [] with tier.spills := [(spillKey 3 0, { conv := 3, places := [(4, 7, 1)] })] }
      (fun t => tierState t 3 0 == 0 && (t.folio 4).state == 1 && t.rd TIER_ERR_LOG1.KIND == 5) ∧
    gives (.fetchStart []) { lowered 4 [] with tier.fetchq := [{ conv := 3 }] } (fun t => t.tier.fetchq.isEmpty) ∧
    (runSpilled (lowered 2 []) 3 0) = [4] ∧
    gives (.fetchComplete 3 0) { lowered 3 [] with tier.fetchq := [{ conv := 3, moving := true, places := [(4, 70, 1)] }], mem := [], flo.folios := [(4, { state := 1, refs := 1 })] }
      (fun t => tierState t 3 0 == 0 && t.tier.fetchq.isEmpty && (t.folio 4).state == 1 && (t.folio 4).chunk == 70) ∧
    gives (.fetchFail 3 0 4 64) { lowered 2 [] with tier.fetchq := [{ conv := 3 }] } (fun t => t.rd TIER_ERR_LOG1.KIND == 4) ∧
    gives (.fetchFail 3 0 1 64) { lowered 2 [] with tier.fetchq := [{ conv := 3 }] } (fun t => t.rd TIER_ERR_LOG1.KIND == 0) := by
  decide +kernel

theorem test_spill_due : spillDue { node [(TIER_PART_POOL.EN 2, 0, 1), (STK_SET_OWNER.ASSIGNED 0, 0, 1), (STK_SET_OWNER.OWNER 0, 0, 2), (TIER_SPILL_CFG.EN, 0, 1), (TIER_SPILL_CFG.HI, 0, 255)] with
      tier.needy := [2], flo.used := [(0, setChunks)] } 2 = true ∧
    (let s := { lowered 2 [] with now := 10 ^ 12, col.atts := [(1, { ticket := natLe 12 0 ++ natLe 4 1 ++ natLe 48 0 ++ natLe 64 5, lateAt := some 0 })] }
     stillLate s 1 = true ∧ gives (.tierLateExpire 0 1 0 false) s (fun t => t.rd (TIER_CNT.COUNT 3) == 1) ∧
     gives (.tierLateExpire 0 1 0 false) { s with now := 5 } (fun t => t.rd (TIER_CNT.COUNT 3) == 0)) := by
  decide +kernel

theorem test_fetch_start :
    (let s := { lowered 2 [] with tier.fetchq := [{ conv := 3 }], flo.folios := [(4, { state := 3, refs := 1, tierRef := tierRefOf 1 0 0 })] }
     gives (.fetchStart []) (((s.wr (TIER_PORT_CFG.EN 0) 0 1).wr (TIER_PORT_CFG.POOL 0) 0 1)) (fun t => t.tier.fetchq == s.tier.fetchq) ∧
     (placeFetched 0 3 0 [] [] s).1 = true ∧ refRecord (runRef s 3 0) = 0) ∧
    (let s := { lowered 2 [] with tier.fetchq := [{ conv := 3 }], flo.folios := [(4, { state := 3, refs := 1, tierRef := tierRefOf 1 2 0 })] }
     poolUp s (refPool (runRef s 3 0)) = true ∧ refRecord (runRef s 3 0) = 2 ∧ gives (.fetchStart []) s (fun t => t.tier.fetchq.isEmpty)) := by
  decide +kernel

/-- Pool 1 is on and shared; record 2 of it, and this node's lease of run (3, 0). -/
def shared (tier : Nat) (o : OwnRec) (b : Bytes) : State :=
  { ((((lowered tier b).wr (TIER_POOL_CFG.EN 1) 0 1).wr (TIER_POOL_CFG.SHARED 1) 0 1).wr TIME_CFG.GM 0 1).wr (TIER_POOL_CFG.REC_LOG2 1) 0 8 with
    tier.records := [(recKey 1 2, o)], tier.leases := [{ pool := 1, record := 2, conv := 3, layer := 0, epoch := o.epoch, lease := o.lease }] }

theorem test_owner :
    timeInBound (shared 2 {} []) = true ∧ (leaseOf (shared 2 {} []) 3 0).isSome ∧
    gives (.handOff true) (shared 2 { state := 1, lease := 2 ^ 40 } (tierRec 3 5 (7 * 65536)))
      (fun t => (t.own 1 2).state == 2 && (t.own 1 2).succ == 7 && tierState t 3 0 == 4) ∧
    gives (.handOff true) (shared 2 { state := 1 } (tierRec 3 5 0)) (fun t => t.rd TIER_CMD_STS.STATUS == ST.TIER_NOT_OWNER) ∧
    gives (.claim true []) (shared 2 { state := 2, succ := 9 } (tierRec 4 5 (2 ^ 24 + 2))) (fun t => (t.own 1 2).state == 2) ∧
    gives (.claim true []) ((shared 2 {} []).wr TIME_CFG.GM 0 0) (fun t => t.tier.cmd.isSome) ∧
    gives (.leaseRenew 3 0 true) (shared 2 { state := 1 } []) (fun t => (t.own 1 2).lease == leaseNs t) ∧
    gives (.leaseRenew 3 0 true) (shared 2 { state := 1, owner := 9 } []) (fun t => t.tier.leases.isEmpty) ∧
    gives (.leaseRenew 3 0 true) (shared 2 { state := 1, lease := 2 ^ 60 } []) (fun t => (t.own 1 2).lease == 2 ^ 60) ∧
    gives (.leaseRevert 3 0 true) (shared 4 { state := 2 } []) (fun t => (t.own 1 2).state == 1 && (t.own 1 2).epoch == 1 && tierState t 3 0 == 2) := by
  decide +kernel

theorem test_take :
    (let o : OwnRec := { state := 2, succ := 0, epoch := 4 }
     let s := shared 2 o (tierRec 4 5 (2 ^ 24 + 2))
     let z : ConvRec := { conv := 0, state := 1, nlayer := 1, nhg := 1, hgHi := 1 }
     let s := { s with flo.convs := [(3, z)], cwd.ents := [(9, { key := dirKey 0 0 0, res := 3 })], tier.cmd := some (tierRec 4 0 (2 ^ 24 + 2)) }
     (buildRun 3 1 2 0 s).isSome ∧ gives (.claim true []) s (fun t => (t.own 1 2).epoch == 5 && (t.own 1 2).state == 1 && t.tier.leases.length == 2) ∧
     gives (.takeover true []) { s with tier.cmd := some (tierRec 5 0 (2 ^ 24 + 2)) } (fun t => t.rd TIER_CMD_STS.STATUS == ST.STALE_EPOCH) ∧
     gives (.takeover true []) ({ s with tier.cmd := some (tierRec 5 0 (2 ^ 24 + 2)), tier.records := [(recKey 1 2, { o with state := 1 })] }.wr TIME_NOW.NS 0 (2 ^ 50))
       (fun t => (t.own 1 2).epoch == 5 && t.rd (TIER_CNT.COUNT 7) == 1)) := by
  decide +kernel

theorem test_sweep :
    gives .recordSweep { shared 2 { state := 3 } [] with now := 10 ^ 8 } (fun t => (t.own 1 2).state == 0 && t.tier.sweptAt == 10 ^ 8) ∧
    gives .recordSweep (shared 2 { state := 3 } []) (fun t => (t.own 1 2).state == 3) ∧
    gives (.backInvalidateSnoop 1 2 { state := 1, owner := 9 }) (shared 2 {} []) (fun t => (t.own 1 2).owner == 9) := by
  decide +kernel

/-- Port 0 in a state of bring-up, with more fields. -/
def port0 (st : Nat) (l : List (Fld × Nat × Nat)) (p : PortSt := {}) : State :=
  (node ([(FAB_PORT_CFG.EN, 0, 1), (FAB_PORT_STS.STATE, 0, st)] ++ l)).setPort 0 p

/-- The payload of a HELLO from node 9 whose byte 3 is `b`. -/
def helloOf (b : Nat) : Bytes := natLe 2 9 ++ natLe 1 0 ++ natLe 1 b ++ natLe 28 0

theorem test_port_up :
    gives (.portTrainingDone 0) (port0 1 []) (fun t => t.rd FAB_PORT_STS.STATE == 2) ∧
    gives (.trainingTimeout 0) { port0 1 [] with now := 400000000 } (fun t => t.rd FAB_PORT_STS.STATE == 5 && t.rd FAB_PORT_STS.REASON == 1) ∧
    gives (.trainingRestart 0) { port0 5 [(FAB_PORT_STS.REASON, 0, 2)] with now := 10 ^ 9 } (fun t => t.rd FAB_PORT_STS.STATE == 1) ∧
    gives (.helloSend 0) (port0 2 [] { hello := true, helloAck := true }) (fun t => t.rd FAB_PORT_STS.STATE == 4 && t.out.length == 1) ∧
    gives (.helloSend 0) (port0 2 [] { helloAt := some 0 }) (fun t => t.out.length == 0) ∧
    gives (.portDown 0 2) (port0 3 []) (fun t => t.rd FAB_PORT_STS.STATE == 5 && t.rd FAB_PORT_STS.REASON == 2) ∧
    gives (.hello 0 (helloOf 1) none) (port0 2 []) (fun t => t.rd FAB_PORT_STS.STATE == 5 && t.rd FAB_PORT_STS.REASON == 3) ∧
    gives (.hello 0 (helloOf 4) none) (port0 2 []) (fun t => t.rd FAB_PORT_STS.REASON == 4) ∧
    gives (.hello 0 (helloOf 8) none) (port0 2 []) (fun t => t.rd FAB_PORT_STS.REASON == 7) ∧
    gives (.hello 0 (helloOf 16) none) (port0 2 [] { ackSent := true }) (fun t => t.rd FAB_PORT_STS.STATE == 4 && (t.port 0).peer == 9) ∧
    gives (.hello 0 (helloOf 4) (some 5)) (port0 2 [(FAB_PORT_CFG.PROT, 0, 1)]) (fun t => t.rd FAB_PORT_STS.STATE == 3 && (linkKey? t 0).isSome) ∧
    gives (.hello 0 (helloOf 4) none) (port0 2 [(FAB_PORT_CFG.PROT, 0, 1)]) (fun t => t.rd FAB_PORT_STS.REASON == 5) := by
  decide +kernel

theorem test_port_down :
    gives (.portDown 0 0) (port0 4 []) (fun t => t.rd FAB_PORT_STS.STATE == 1 && t.rd FAB_FLAP_CNT.COUNT == 1) ∧
    gives (.portDown 0 2) (port0 4 []) (fun t => t.rd FAB_PORT_STS.STATE == 5 && t.rd FAB_PORT_STS.REASON == 2) ∧
    gives (.portDown 0 2) (port0 4 [(FAB_PORT_CFG.FLAP_MAX, 0, 1)] { downs := [0] }) (fun t => t.rd FAB_PORT_STS.REASON == 6 && t.flag FAB_PORT_STS.FLAP_DIS) ∧
    gives (.flapDisClear 0) (port0 5 [(FAB_PORT_STS.FLAP_DIS, 0, 1)]) (fun t => t.rd FAB_PORT_STS.STATE == 1) ∧
    gives (.linkRekey 0 3) { port0 4 [(FAB_PORT_CFG.PROT, 0, 1)] with key.links := [(0, { txCount := 2 ^ 47 })] }
      (fun t => (linkKey? t 0).map (·.txPhase) == some 1 && t.rd (RSP_CNT.COUNT 6) == 1) := by
  decide +kernel

theorem test_frame_bytes : WireFrame { ty := 2, tc := 2, dst := 5, src := 3, pay := [1, 2, 3] } ∧
    WireFrame { ty := 0x13, tc := 7, sr := true, hops := 63, part := 31, dst := 65535, ext := List.replicate 64 7, crcErr := 1 } ∧
    (parseFrame ({ ty := 2, tc := 2, dst := 5, src := 3, pay := [1, 2, 3] } : Frame).bytes).isSome ∧
    parseFrame ({ ty := 2, tc := 1 } : Frame).bytes = none := by
  decide +kernel

/-- A frame to node 7, which this node passes on, and the wire that carries it. -/
def transit : Frame := { ty := 2, tc := 2, dst := 7, src := 3, pay := [1, 2, 3] }
def wireOf (f : Frame) : Bytes := f.bytes ++ natLe 4 (crc32 f.bytes)

/-- Ports 0 and 2 up, with a route for node 7 by port 2. -/
def up2 (l : List (Fld × Nat × Nat)) (p q : PortSt := {}) : State :=
  ((node ([(FAB_PORT_STS.STATE, 0, 4), (FAB_PORT_STS.STATE, 2, 4), (FAB_RT_ACTIVE.ENTRY 7, 0, 0x8002)] ++ l)).setPort 0 p).setPort 2 q

theorem test_frames : WireFrame transit ∧ nextHop (up2 []) transit 2 = .egress 2 ∧ bufferUse (up2 []) = 0 ∧
    gives (.frameForward 0 (wireOf transit)) (up2 []) (fun t => KMap.get [] (t.port 2).green 2 == [{ transit with hops := 2, from? := some 0 }] &&
      KMap.get 0 (t.port 0).occ 2 == 39) ∧
    gives (.frameForward 0 (wireOf { transit with dst := 0 })) (up2 []) (fun t => t.fab.inbox.length == 1) ∧
    gives (.frameForward 0 (wireOf { transit with hops := 63 })) (up2 []) (fun t => t.rd FAB_HOP_DROP_CNT.COUNT == 1) ∧
    gives (.frameForward 0 (List.replicate 40 0)) (up2 []) (fun t => t.rd FAB_LCRC_CNT.COUNT 0 == 1) ∧
    gives (.frameForward 4 (wireOf transit)) (up2 []) (fun t => t.rd FAB_LCRC_CNT.COUNT 4 == 0) := by
  decide +kernel

theorem test_pauses :
    gives (.pauseRepeat 0 3) { up2 [] { xoff := [(3, 1)], occ := [(3, 200000)] } with now := 9000 } (fun t => (t.port 0).urgent.length == 1) ∧
    gives (.pause 0 (natLe 2 9 ++ natLe 2 5 ++ natLe 14 0)) (up2 [(FAB_PORT_STS.PAUSED, 0, 0x18)])
      (fun t => t.rd FAB_PORT_STS.PAUSED == 0x11 && KMap.get 0 (t.port 0).pauseEnd 0 == 5) ∧
    gives (.pauseExpire 0 3) { up2 [(FAB_PORT_STS.PAUSED, 0, 8)] { pauseEnd := [(3, 40)], pauseFrom := [(3, 10)] } with now := 50 }
      (fun t => t.rd FAB_PORT_STS.PAUSED == 0 && t.rd (FAB_PAUSED_NS.VALUE 3) 0 == 40) ∧
    gives (.pauseExpire 0 3) (up2 [(FAB_PORT_STS.PAUSED, 0, 8)] { pauseEnd := [(3, 40)] }) (fun t => t.rd FAB_PORT_STS.PAUSED == 8) ∧
    gives (.stormDetect 0 3) { up2 [(FAB_PORT_STS.PAUSED, 0, 8)] { green := [(3, [transit, transit])] } with now := 10 ^ 8 }
      (fun t => t.rd FAB_PORT_STS.DROP_MODE == 8 && t.rd FAB_STORM_DROP_CNT.COUNT == 2 && (t.port 0).green.isEmpty) ∧
    gives (.stormRecover 0 3) { up2 [(FAB_PORT_STS.DROP_MODE, 0, 9)] with now := 10 ^ 9 } (fun t => t.rd FAB_PORT_STS.DROP_MODE == 1) := by
  decide +kernel

theorem test_egress : eligible (up2 [] { green := [(0, [transit])] }) 0 0 = true ∧
    nextClass (up2 [] { green := [(0, [transit]), (2, [transit])] }) 0 = some 0 ∧ nextClass (up2 [] { green := [(2, [transit])] }) 0 = some 2 ∧
    gives (.egressFrameStart 0) (up2 [] { urgent := [transit], green := [(0, [transit])] }) (fun t => t.out.length == 1 && (t.port 0).urgent.isEmpty) ∧
    gives (.egressFrameStart 0) (up2 [] { green := [(0, [transit]), (2, [transit])] }) (fun t => t.out.length == 1 && (t.port 0).green.length == 1) ∧
    gives (.egressFrameStart 0) (up2 [] { green := [(0, [transit])], lineFree := 1 }) (fun t => t.out.isEmpty) := by
  decide +kernel

theorem test_gates :
    gives (.gclGo 0) (up2 [(TIME_CFG.GM, 0, 1), (FAB_GCL_SWITCH.T, 0, 20000), (FAB_GCL_ADMIN.ENTRY 0, 0, 0xFF002710)]) (fun t => t.flag FAB_GCL_STS.PEND) ∧
    gives (.gclGo 0) (up2 [(TIME_CFG.GM, 0, 1), (FAB_GCL_SWITCH.T, 0, 20001), (FAB_GCL_ADMIN.ENTRY 0, 0, 0xFF002710)]) (fun t => t.flag FAB_GCL_STS.ERR) ∧
    gives (.gclCancel 0) (up2 [(FAB_GCL_STS.PEND, 0, 1), (FAB_GCL_SWITCH.T, 0, 5)]) (fun t => !t.flag FAB_GCL_STS.PEND) ∧
    gives (.gclSwitchover 0) (up2 [(FAB_GCL_STS.PEND, 0, 1), (FAB_GCL_ADMIN.ENTRY 0, 0, 0xFF002710)])
      (fun t => t.flag FAB_GCL_STS.DONE && (operGcl t 0).ents == [(255, 10000)]) ∧
    gives (.gateEntryAdvance 0) (up2 [(TIME_CFG.GM, 0, 1), (TIME_NOW.NS, 0, 150), (FAB_GCL_OPER.ENTRY 0, 0, 0x01000064), (FAB_GCL_OPER.ENTRY 1, 0, 0x10000064)]
      { gclN := 2, gclCycle := 200 }) (fun t => (t.port 0).gateIx == 1) ∧
    gives (.gateEntryAdvance 0) (up2 [(TIME_CFG.GM, 0, 1), (FAB_GCL_CFG.GATED, 0, 16), (FAB_GCL_OPER.ENTRY 0, 0, 0x10000001), (FAB_GCL_OPER.ENTRY 1, 0, 1)]
      { gclN := 2, gclCycle := 200, green := [(4, [{ transit with tc := 4, pay := List.replicate 200 0 }])] })
      (fun t => (t.port 0).green.isEmpty && t.rd FAB_GATE_NOFIT_CNT.COUNT == 1) := by
  decide +kernel

theorem test_routes :
    gives .rtCommit (node []) (fun t => t.flag FAB_RT_CTL.PEND) ∧
    KMap.sorted (node [(FAB_RT_CTL.PEND, 0, 1), (FAB_RT_SHADOW.ENTRY 0, 0, 5), (FAB_RT_SHADOW.ENTRY 65535, 0, 6), (FAB_RT_ACTIVE.ENTRY 9, 0, 7)]).regs = true ∧
    gives .rtCommitApply (node [(FAB_RT_CTL.PEND, 0, 1), (FAB_RT_SHADOW.ENTRY 0, 0, 5), (FAB_RT_SHADOW.ENTRY 65535, 0, 6), (FAB_RT_ACTIVE.ENTRY 9, 0, 7)])
      (fun t => t.rd (FAB_RT_ACTIVE.ENTRY 0) == 5 && t.rd (FAB_RT_ACTIVE.ENTRY 65535) == 6 && t.rd (FAB_RT_ACTIVE.ENTRY 9) == 0) := by
  decide +kernel

/-- Neighbor 2 heard at time 0, with digest `d`, and the node in a state. -/
def heard (d st : Nat) : State := { up2 [(RAS_NODE_STS.STATE, 0, st)] with ras.nbrs := [(2, { digest := d })] }

theorem test_neighbors :
    upPorts (up2 []) = [0, 2] ∧ gives .heartbeatSend (up2 []) (fun t => (t.port 0).green.length == 1 && (t.port 2).green.length == 1 && (t.port 4).green.isEmpty) ∧
    gives (.heartbeat 2 (List.replicate 72 1)) (up2 [(RAS_NBR_LOST.NBR, 0, 7)]) (fun t => t.rd RAS_NBR_LOST.NBR == 3 && t.ras.nbrs.length == 1) ∧
    gives (.neighborLost 2) { heard 0 2 with now := 10 ^ 9 } (fun t => t.rd RAS_NBR_LOST.NBR == 4) ∧
    gives (.neighborLost 2) (heard 0 2) (fun t => t.rd RAS_NBR_LOST.NBR == 0) ∧
    gives .heartbeatEvaluate (heard 1 2) (fun t => t.ras.disagree == 1 && t.rd RAS_NBR_DISAGREE.NBR == 4 && t.rd (RAS_CNT.COUNT 7) == 1) ∧
    gives .heartbeatEvaluate (heard 1 1) (fun t => t.rd RAS_JOIN_STS.REASON == 1 && t.rd RAS_JOIN_STS.EGRESS == 2) ∧
    gives .heartbeatEvaluate (heard 0 1) (fun t => t.rd RAS_JOIN_STS.REASON == 5) ∧
    gives .heartbeatEvaluate { heard 1 2 with ras.disagree := 9 } (fun t => t.rd RAS_NODE_STS.STATE == 3 || t.rd RSP_ALARM_LOG.SRC == 4) := by
  decide +kernel

/-- Time follows port 2, an answer of number 5 awaited. -/
def child (t1 t2 : Nat) (l : List (Fld × Nat × Nat) := []) : State :=
  { up2 ([(TIME_CFG.PARENT, 0, 1)] ++ l) with tim.asked := true, tim.seq := 5, tim.t1 := t1, tim.t2 := t2 }

theorem test_time : parentCode (child 0 0) = 2 ∧
    gives .timeSyncSend (child 0 0) (fun t => (t.port 0).green.length == 1 && (t.port 2).green.isEmpty && t.tim.txSeq == 1) ∧
    gives (.timeSync 2 (natLe 8 70 ++ natLe 2 0 ++ natLe 6 9) 3) (child 0 0) (fun t => t.tim.t1 == 70 * 65536 && t.tim.seq == 9 && (t.port 2).green.length == 1) ∧
    gives (.timeDreq 0 (natLe 16 0) 3) (child 0 0) (fun t => (t.port 0).green.length == 1) ∧
    gives (.timeDresp 2 (natLe 10 0 ++ natLe 6 5)) (child 0 131072) (fun t => t.tim.rate == -100 && t.rd TIME_OFFSET.OFFSET == 1 && !t.tim.asked) ∧
    gives (.timeDresp 2 (natLe 10 0 ++ natLe 6 5)) (child (4000 * 65536) 0) (fun t => fabTime t == 2000 && t.rd (TIME_CNT.COUNT 1) == 1 && t.flag TIME_STS.OOB) ∧
    gives .timeSyncLoss { child 0 0 with now := 5000000 } (fun t => t.flag TIME_STS.LOST && t.rd (TIME_CNT.COUNT 3) == 1) ∧
    gives .timeSyncLoss { child 0 0 [(TIME_STS.OOB, 0, 0)] with now := 4000000 } (fun t => t.flag TIME_STS.LOST && !t.flag TIME_STS.OOB) ∧
    gives (.timeSet 77) (node [(TIME_CFG.GM, 0, 1)]) (fun t => fabTime t == 77) ∧ gives (.timeSet 77) (node []) (fun t => fabTime t == 0) := by
  decide +kernel

/-- A REG record for `len` bytes of memory at `base`, for partition 0 from node 3 with every right, and a REVOKE record. -/
def regRec (base len : Nat) : Bytes := natLe 3 1 ++ natLe 1 15 ++ natLe 2 3 ++ natLe 2 0 ++ natLe 8 base ++ natLe 8 len ++ natLe 40 0
def revRec (key : Nat) : Bytes := natLe 24 2 ++ natLe 4 key ++ natLe 36 0
def rchAsked (b : Bytes) : State := { node [] with rch.cmds := [(.reg, b)] }

theorem test_regions :
    NextRch (rchAsked (regRec 0 64)) 1 .reg (regRec 0 64) [] ∧ badReg (regRec 0 64) = false ∧ badReg (regRec 0 0) = true ∧
    gives .reg (rchAsked (regRec 0 64)) (fun t => (t.region 0).state == 1 && t.rd RCH_CMD_KEY.KEY == 1 && t.rd RCH_CMD_STS.STATUS == ST.OK) ∧
    gives .reg (rchAsked (regRec 0 0)) (fun t => t.rd RCH_CMD_STS.STATUS == ST.RCH_REG_FORMAT) ∧
    gives .reg (rchAsked (regRec 0 (2 ^ 40 - 1))) (fun t => t.rd RCH_CMD_STS.STATUS == ST.RCH_BOUNDS) ∧
    gives .reg ((rchAsked (regRec 0 64)).wr RAS_NODE_STS.STATE 0 3) (fun t => t.rd RCH_CMD_STS.STATUS == ST.FENCED) ∧
    NextRch (rchAsked (revRec 257)) 2 .reg (revRec 257) [] ∧
    gives .revoke ((rchAsked (revRec 257)).setRegion 1 { state := 1 }) (fun t => (t.region 1).state == 2) ∧
    gives .revoke (rchAsked (revRec 256)) (fun t => t.rd RCH_CMD_STS.STATUS == ST.GEN_MISMATCH) ∧
    gives (.revokeComplete 1) ((node []).setRegion 1 { state := 2, gen := 255, waiter := some .reg })
      (fun t => (t.region 1).gen == 1 && t.flag RCH_CMD_STS.DONE) := by
  decide +kernel

/-- A delivered request of node 3 on channel 0, and a node whose channel expects number `e`, with region 0 of 64 bytes. -/
def reqOf (ty seq : Nat) (h : ReqHdr) (data : Bytes) : Frame := { ty := ty, tc := 6, src := 3, seq := seq, pay := h.bytes ++ data }
def target (f : Frame) (x : RchRx) (rights : Nat := 15) : State :=
  (({ node [(RCH_CFG.EN, 0, 1), (FAB_NODE_ID.NODE_ID, 0, 1), (RCH_INCARNATION.VALUE, 0, 0), (REAM_REG_CTL.EN, 0, 0)] with fab.inbox := [f] }).setRxc 48 { x with cls := 6 }).setRegion 0
    { state := 1, rights := rights, src := 3, len := 64 }
def wr8 : Frame := reqOf 0x10 0 { key := 1, len := 8 } (List.replicate 8 7)
def atom : Frame := reqOf 0x12 0 { key := 1, len := 8 } (natLe 8 5 ++ natLe 8 0)

theorem test_requests :
    NextReq (target wr8 {}) isWrite wr8 { cls := 6 } ∧ (accessWaits .write (target wr8 {}) wr8).isNone ∧
    accessStatus (reqTaken (target wr8 {}) wr8 { cls := 6 }) wr8 = ST.OK ∧ accessStatus (reqTaken (target wr8 {} 1) wr8 { cls := 6 }) wr8 = ST.RCH_RIGHTS ∧
    gives .write (target wr8 {} 1) (fun t => t.rd RCH_REFUSE_CNT.COUNT == 1 && (t.rxc? 48).map (·.fault) == some ST.RCH_RIGHTS) ∧
    gives .read (target (reqOf 0x11 0 { key := 1, len := 8 } []) {} 2) (fun t => t.rd RCH_REFUSE_CNT.COUNT == 1) ∧
    gives .query (target (reqOf 0x11 0 { query := true, key := 1, len := 8 } []) {} 15) (fun t => t.rd RCH_REFUSE_CNT.COUNT == 1) ∧
    gives .flush (target (reqOf 0x13 0 {} []) { fault := 9 }) (fun t => (t.rxc? 48).map (·.flush) == some [(0, 0, 0, 9)]) ∧
    gives (.flushAnswer 3 0) (target wr8 { flush := [(5, 0, 0, 9)] }) (fun t => (t.rxc? 48).map (·.done) == some [(5, 9)]) ∧
    gives .atomic { target atom { e := 1 } with rch.replay := [(3, [{ chan := 0, seq := 0 }])] }
      (fun t => t.rd RCH_REPLAY_HIT_CNT.COUNT == 1 && t.rd RCH_DUP_CNT.COUNT == 1 && t.mem.isEmpty) ∧
    gives .write (target wr8 { e := 1000 }) (fun t => t.rd RCH_OOS_CNT.COUNT == 1 && (t.rxc? 48).map (·.nakAt) == some (some 1000)) ∧
    gives .write { target wr8 {} with rch.rx := [] } (fun t => t.rd RCH_NOCTX_CNT.COUNT == 1) := by
  decide +kernel

theorem test_request_acts :
    gives .write { target wr8 {} with mem := (sectors [(locOf State.reset 0, List.replicate 32 0)] State.reset).mem }
      (fun t => (t.rxc? 48).map (·.e) == some 1 && (t.rxc? 48).map (·.unack) == some 1) ∧
    rangeStatus (target atom {}) 0 0 8 = ST.OK ∧ (readUpper 0 0 8 { target atom {} with mem := (sectors [(locOf State.reset 0, List.replicate 32 0)] State.reset).mem }).1 =
      some (List.replicate 8 0) := by
  decide +kernel

/-- A delivered answer from node 3 on channel 0, and a node with requests held on that channel. -/
def answerOf (ty : Nat) (r : Resp) (data : Bytes) : Frame := { ty := ty, tc := 6, src := 3, pay := r.bytes 0 ++ data }
def issuer (f : Frame) (x : RchTx) : State :=
  { (node [(RCH_CFG.EN, 0, 1), (FAB_NODE_ID.NODE_ID, 0, 1)]).setTxc 48 x with fab.inbox := [f] }
def readReq : TxReq := { seq := 4, ty := 0x11, pay := ({ len := 4 } : ReqHdr).bytes }

theorem test_issuer :
    answered { state := 1, held := [readReq] } (respOf (answerOf 0x14 { req := 0x11, seq := 4, ack := 4 } [1, 2]).pay) = some readReq ∧
    gives .data (issuer (answerOf 0x14 { req := 0x11, seq := 4, ack := 3 } [1, 2]) { state := 1, held := [readReq] })
      (fun t => (t.txc 48).held.map (·.got) == [[1, 2]]) ∧
    gives .data (issuer (answerOf 0x14 { req := 0x11, seq := 4, ack := 4 } [1, 2, 3, 4]) { state := 1, held := [readReq] }) (fun t => (t.txc 48).held.isEmpty) ∧
    gives .data (issuer (answerOf 0x14 { req := 0x11, seq := 4, off := 2 } [1]) { state := 1, held := [readReq] }) (fun t => (t.txc 48).held == [readReq]) ∧
    gives .status (issuer (answerOf 0x15 { status := ST.RCH_NO_CONTEXT } []) { state := 1, held := [readReq] }) (fun t => (t.txc 48).state == 2) ∧
    gives .status (issuer (answerOf 0x15 { req := 0x11, seq := 4, ack := 4 } []) { state := 1, held := [readReq] }) (fun t => (t.txc 48).held.isEmpty) ∧
    gives .openRsp (issuer { ty := 0x17, tc := 6, src := 3, pay := natLe 4 9 ++ natLe 12 0 } { state := 2 }) (fun t => (t.txc 48).state == 1 && (t.txc 48).next == 9) ∧
    gives .openRsp (issuer { ty := 0x17, tc := 6, src := 3, pay := natLe 4 9 ++ natLe 4 5 ++ natLe 8 0 }
      { state := 2, known := some 4, held := [{ readReq with ty := 0x10 }] }) (fun t => (t.txc 48).held.isEmpty && t.rd RCH_LOST_WR_CNT.COUNT == 1) := by
  decide +kernel

theorem test_channels :
    gives .openCh { issuer { ty := 0x16, tc := 6, src := 3, pay := natLe 16 9 } {} with rch.rx := [] } (fun t => (t.rxc? 48).map (·.e) == some 9) ∧
    gives .openCh (target { ty := 0x16, tc := 6, src := 3, pay := natLe 16 9 } { e := 5 }) (fun t => (t.rxc? 48).map (·.e) == some 5) ∧
    gives (.ackTimer 3 0) { target wr8 { unack := 2 } with now := 1000 } (fun t => (t.rxc? 48).map (·.unack) == some 0) ∧
    gives (.contextIdleExpire 3 0) { target wr8 {} with now := 10 ^ 9, rch.replay := [(3, [{}])] } (fun t => t.rch.rx.isEmpty && t.rch.replay.isEmpty) ∧
    gives (.rtxTimeout 3 0) { issuer wr8 { state := 1, held := [readReq] } with now := 20000 }
      (fun t => (t.txc 48).tmos == 1 && t.rd RCH_RTX_CNT.COUNT == 1 && (t.txc 48).held.map (·.sentAt) == [20000]) ∧
    gives (.rtxTimeout 3 0) { issuer wr8 { state := 1, tmos := 15, held := [readReq] } with now := 20000 }
      (fun t => (t.txc 48).state == 3 && t.rd RCH_BROKEN_CNT.COUNT == 1) ∧
    gives (.openRetry 3 0) { issuer wr8 { state := 3 } with now := 1000000 } (fun t => (t.txc 48).openAt == 1000000) ∧
    gives (.channelHoldExpire 3 0) { issuer wr8 { state := 3, held := [readReq] } with now := 10 ^ 8 } (fun t => (t.txc 48).state == 0) := by
  decide +kernel

/-- The descriptor of signature 5 with one position, on node 0, and the collator commands that name it. -/
def sigBytes : Bytes := natLe 4 5 ++ natLe 1 0 ++ natLe 1 1 ++ natLe 58 0 ++ natLe 2 0 ++ natLe 2 0xFFFF ++ natLe 4 0xFF
def sigRec (op : Nat) : Bytes := natLe 24 op ++ natLe 4 5 ++ natLe 36 0
def one : SigDesc := sigOfBytes sigBytes
def collator (op : Nat) (sigs : KMap SigDesc := []) : State := { node [] with col.waiting := [(.reg, sigRec op, sigBytes)], col.sigs := sigs }

theorem test_signatures :
    sigPutStatus (collator 1) 5 sigBytes = ST.OK ∧ sigPutStatus (collator 1) 4 sigBytes = ST.SIG_FORMAT ∧ sigTarget (collator 1) (sigRec 1) = none ∧
    gives .sigPut (collator 1) (fun t => sigOf? t 5 0 == some one && t.flag COL_CMD_STS.DONE) ∧
    gives .sigPut { collator 1 [(0, one)] with col.atts := [(9, { sig := 5 })] } (fun t => t.col.held.isSome) ∧
    gives .sigDrop (collator 2 [(0, one)]) (fun t => t.col.sigs.isEmpty) ∧ gives .sigDrop (collator 2) (fun t => t.rd COL_CMD_STS.STATUS == ST.SIG_NOT_FOUND) ∧
    gives .sigReplace { collator 1 [(0, one)] with col.held := some (.reg, sigRec 1, sigBytes) } (fun t => t.col.held.isNone) ∧
    gives .sigReplace { collator 1 [(0, one)] with col.held := some (.reg, sigRec 1, sigBytes), col.atts := [(9, { sig := 5 })] } (fun t => t.col.held.isSome) := by
  decide +kernel

/-- Attempt 1 of ream 7 of partition 0 at the root of signature 5, and an ABORT of it. -/
def rooted : State :=
  { node [] with col.sigs := [(0, one)], col.atts := [(7, { ream := 7, attempt := 1, sig := 5 })],
                 col.reams := [(7, { ream := 7, attempt := 1, ticket := natLe 64 0 })] }
def abortFrame (root : Bool) : Frame :=
  { ty := 6, src := 3, arg := sigWord false root 0 false false 0, pay := ({ ream := 7, attempt := 1, status := 0x77, sig := 5, standin := 2, epoch := 9 } : AbortMsg).bytes }

theorem test_aborts : attKey 0 7 0 false = 7 ∧
    gives (.reamTimeout 0 7 0 false) rooted (fun t => t.col.atts.length == 1) ∧
    ({ rooted with now := 2000001 } : State).att? 7 = some { ream := 7, attempt := 1, sig := 5 } ∧
    gives (.reamTimeout 0 7 0 false) { rooted with now := 2000001, col.atts := [(7, { ream := 7, mirrorOf := some 3, apps := [{}] })] } (fun t => t.col.atts.isEmpty) ∧
    gives .abort { rooted with fab.inbox := [abortFrame false] } (fun t => t.fab.inbox.isEmpty && t.col.atts.isEmpty) ∧
    gives .abort { rooted with fab.inbox := [abortFrame true] } (fun t => t.fab.inbox.length == 1) ∧
    gives .rootAbort { rooted.wr FAB_NODE_ID.NODE_ID 0 4 with fab.inbox := [abortFrame true] } (fun t => (sigOf? t 5 0).map (·.standin) == some 2) ∧
    gives .abortRepeat { node [] with col.repeats := [(0, { dst := 0, ty := 6 })] } (fun t => t.col.repeats.isEmpty && t.fab.inbox.length == 1) ∧
    gives .abortRepeat { node [] with col.repeats := [(9, { dst := 0, ty := 6 })] } (fun t => t.col.repeats.length == 1) := by
  decide +kernel

theorem test_reissue_audit :
    gives (.reamReissue 0 7) { rooted with col.sigs := [], col.reams := [(7, { ream := 7, attempt := 1, ticket := natLe 64 0, reissueAt := some 0 })] }
      (fun t => t.rd COL_REISSUE_CNT.COUNT == 1 && t.col.reams.isEmpty) ∧
    gives (.reamReissue 0 7) { rooted with col.reams := [(7, { ream := 7, attempt := 1, reissueAt := some 5 })] } (fun t => t.rd COL_REISSUE_CNT.COUNT == 0) ∧
    gives .auditPartial { rooted with fab.inbox := [{ ty := 2, msg := 7, arg := sigWord false false 0 true false 0 }] }
      (fun t => t.rd COL_STALE_CNT.COUNT == 1 && t.fab.inbox.isEmpty) ∧
    gives (.auditTimeout 0 7 0) { rooted with col.atts := [(7, { ream := 7, audit := true, local? := some 0 })], now := 50001 }
      (fun t => t.rd COL_AUDIT_SKIP_CNT.COUNT == 1 && (t.att? 7).map (·.audited) == some true) ∧
    gives (.auditTimeout 0 7 0) { rooted with col.atts := [(7, { ream := 7, audit := true, local? := some 0 })], now := 50000 }
      (fun t => t.rd COL_AUDIT_SKIP_CNT.COUNT == 0) := by
  decide +kernel

theorem test_vectors :
    gives (.vectorUnmask 3 63) (signal 3 63 (signal 3 63 (node []))) (fun t => t.out == [.msix 3 63] && t.hst.msixPend.isEmpty) ∧
    gives (.vectorUnmask 0 5) (node []) (fun t => t.out.isEmpty && KMap.get 0 t.hst.msixOpen 0 == 32) ∧
    (signal 3 63 { node [] with hst.msixOpen := [(3, 2 ^ 63)] }).out = [.msix 3 63] := by
  decide +kernel

/-- Submission ring 1 and colophon ring 2 of partition 3 on, of 16 entries each. -/
def ringed (l : List (Fld × Nat × Nat) := []) : State :=
  { node ([(HST_SQ_CFG.EN 1, 3, 1), (HST_SQ_CFG.CQ 1, 3, 2), (HST_CQ_CFG.EN 2, 3, 1), (HST_PRT_CFG.EN, 3, 1), (HST_PRT_CFG.FETCH_W, 3, 1), (HST_LINK_STS.UP, 0, 1)] ++ l) with
    hst.vfEnable := true, hst.numVfs := 3 }

theorem test_doorbells :
    gives (.sqDoorbell 3 1 15) (ringed) (fun t => sqTail t 3 1 == 15) ∧
    gives (.sqDoorbell 3 1 16) (ringed) (fun t => t.flag (HST_SQ_STS.ERR 1) 3 && bitOf (KMap.get 0 t.hst.msixPend 3) 63) ∧
    gives (.sqDoorbell 3 0 1) (ringed) (fun t => t.rd (HST_PRT_CNT.COUNT 2) 3 == 1) ∧
    gives (.cqDoorbell 3 2 2) (ringed [(HST_CQ_STS.TAIL 2, 3, 2)]) (fun t => cqHead t 3 2 == 2) ∧
    gives (.cqDoorbell 3 2 3) (ringed [(HST_CQ_STS.TAIL 2, 3, 2)]) (fun t => t.flag (HST_CQ_STS.ERR 2) 3) ∧
    gives (.ringEnable 3 0 false 0x80050006) (ringed) (fun t => sqSize t 3 0 == 64 && t.rd (HST_SQ_CFG.CQ 0) 3 == 5) ∧
    gives (.ringEnable 3 1 false 0x80050006) (ringed) (fun t => sqSize t 3 1 == 16 && t.rd (HST_SQ_CFG.CQ 1) 3 == 2) ∧
    gives (.ringEnable 3 0 true 0x89010206) (ringed) (fun t => cqSize t 3 0 == 64 && t.rd (HST_CQ_CFG.VECTOR 0) 3 == 9) := by
  decide +kernel

theorem test_fetch :
    (turnOf (noteWaits { ringed with hst.sqTail := [(25, 1)] })).map (·.1) = some 3 ∧
    gives (.descriptorFetch [1] true) { ringed with hst.sqTail := [(25, 1)] }
      (fun t => t.job.jobs.map (fun j => (j.ring, j.cq)) == [(1, 2)] && t.rd (HST_SQ_STS.HEAD 1) 3 == 1) ∧
    gives (.descriptorFetch [1] false) { ringed with hst.sqTail := [(25, 1)] } (fun t => t.rd (HST_SQ_STS.ERR_KIND 1) 3 == 2) ∧
    gives (.descriptorFetch [1] true) ringed (fun t => t.job.jobs.isEmpty) := by
  decide +kernel

/-- Descriptor 0 of ring 1 of partition 3, of an operation. -/
def jobbed (d : Bytes) (started : Bool) (st : Nat := 0) : State :=
  { ringed with job.jobs := [{ part := 3, ring := 1, cq := 2, desc := slice d 0 64, started := started, state := st }] }

theorem test_descriptors :
    gives (.descriptorStart 3 1 0) (jobbed [0] false) (fun t => (job? t 3 1 0).map (·.status) == some ST.HST_NO_PART) ∧
    gives (.descriptorStart 3 1 0) ((jobbed [0] false).wr RAS_NODE_STS.STATE 0 3) (fun t => (job? t 3 1 0).map (·.status) == some ST.FENCED) ∧
    gives (.hostNop 3 1 0) (jobbed [0] true) (fun t => (job? t 3 1 0).map (fun j => (j.state, j.status)) == some (2, ST.OK)) ∧
    gives (.hostNop 3 1 0) (jobbed [0] false) (fun t => (job? t 3 1 0).map (·.state) == some 0) ∧
    gives (.hostTicket 3 1 0 [] false) (jobbed [1] true) (fun t => (job? t 3 1 0).map (·.status) == some ST.HST_DMA) ∧
    gives (.hostTicket 3 1 0 [] true) (jobbed [1] true) (fun t => (job? t 3 1 0).map (·.state) != some 0) ∧
    gives (.hostCommand 3 1 0 [1] [] true) (jobbed [2] true) (fun t => t.flo.waiting.length == 1 || (job? t 3 1 0).map (·.state) == some 2) ∧
    gives (.hostCommand 3 1 0 [1] [] true) (jobbed [2, 0, 0, 0, 1] true) (fun t => t.col.waiting.length == 1) ∧
    gives (.hostReachCmd 3 1 0 [1] true) (jobbed [3] true) (fun t => t.rch.cmds == [(.host 3 1 0, forcePart 3 (slice [1] 0 64))]) ∧
    gives (.hostReach 3 1 0 [] true) (jobbed [4, 0, 0, 0, 0x11, 0, 0x60, 0, 9] true) (fun t => (t.txc 144).state == 2 || (job? t 3 1 0).map (·.state) == some 2) ∧
    gives (.hostPlaten 3 1 0 [] true) (jobbed [5] true) (fun t => (job? t 3 1 0).map (·.status) == some ST.HST_PROG) := by
  decide +kernel

theorem test_colophons :
    gives (.colophonWrite 3 1 0) (jobbed [0] true 2) (fun t => t.job.jobs.isEmpty && t.rd (HST_CQ_STS.TAIL 2) 3 == 1 && t.out.length == 1) ∧
    gives (.colophonWrite 3 1 0) { (jobbed [0] true 2).wr (HST_CQ_STS.TAIL 2) 3 15 with hst.cqHead := [(26, 14)] }
      (fun t => t.rd (HST_CQ_STS.TAIL 2) 3 == 0 && t.rd (HST_CQ_STS.PHASE 2) 3 == 0) ∧
    gives (.colophonWrite 3 1 0) (jobbed [0] true 1) (fun t => t.job.jobs.length == 1) ∧
    gives (.coalTimeout 3 2) { ringed [(HST_CQ_CFG.COAL_US 2, 3, 2), (HST_CQ_CFG.VECTOR 2, 3, 7)] with hst.unsig := [(26, (1, 0))], now := 2000 }
      (fun t => t.hst.unsig.isEmpty && KMap.get 0 t.hst.msixPend 3 == 128) ∧
    gives (.coalTimeout 3 2) { ringed [(HST_CQ_CFG.COAL_US 2, 3, 2)] with hst.unsig := [(26, (1, 0))], now := 1999 } (fun t => t.hst.unsig.length == 1) := by
  decide +kernel

/-- Partition 3 with a pending vector, an active region, and a job. -/
def busy3 : State :=
  { (node []).setRegion 9 { state := 1, part := 3 } with
    hst.msixPend := [(3, 5)], job.jobs := [{ part := 3 }, { part := 4 }], hst.cfg := [(4096 * 3, 7), (4096 * 4, 8)] }

theorem test_resets :
    gives (.functionLevelReset 3) busy3 (fun t => t.flag HST_PRT_STS.RST_BUSY 3 && t.hst.cfg.length == 1 && (t.region 9).state == 2 && t.job.jobs.length == 1) ∧
    gives (.functionLevelReset 0) busy3 (fun t => t.flag HST_PRT_STS.RST_BUSY 31 && t.job.jobs.isEmpty) ∧
    gives (.functionLevelReset 32) busy3 (fun t => t.job.jobs.length == 2) ∧
    gives (.hstPrtRst 0x80000003) busy3 (fun t => t.flag HST_PRT_STS.RST_BUSY 3 && t.rd HST_PRT_IRQ.PRT_IRQ_DROP_CNT 3 == 2) ∧
    gives (.hstPrtRst 3) busy3 (fun t => !t.flag HST_PRT_STS.RST_BUSY 3) ∧
    gives (.partitionResetComplete 3) (ringed [(HST_PRT_STS.RST_BUSY, 3, 1), (HST_CQ_STS.PHASE 2, 3, 0)])
      (fun t => !t.flag HST_PRT_STS.RST_BUSY 3 && !t.flag (HST_SQ_CFG.EN 1) 3 && t.rd (HST_CQ_STS.PHASE 2) 3 == 1 && bitOf (KMap.get 0 t.hst.msixPend 3) 63) := by
  decide +kernel

/-- A powered node, not held, with the host link up as CXL 2.0 and window 2 of partition 3 committed. -/
def cxl (l : List (Fld × Nat × Nat) := []) : State :=
  { node ([(HST_LINK_STS.UP, 0, 1), (HST_LINK_STS.CXL, 0, 2), (HST_WIN_CFG.EN, 2, 1), (HST_WIN_CFG.PART, 2, 3), (HST_WIN_SIZE.VALUE, 2, 1),
      (REAM_REG_CTL.EN, 0, 0)] ++ l) with
    pcm.pwrGood := true, hst.hdm := [(2, { base := 2 ^ 40, size := 2 ^ 28, committed := true })] }

theorem test_links :
    gives .hostLinkLoss (cxl) (fun t => !t.flag HST_LINK_STS.UP && t.flag HST_PRT_STS.RST_BUSY 7) ∧
    gives .perstN (cxl [(RAS_IN_STS.LEVEL, 0, 2)]) (fun t => t.hst.perst && !t.flag HST_LINK_STS.UP) ∧
    gives .perstN { cxl with hst.perst := true } (fun t => !t.hst.perst) ∧ gives .perstN cxl (fun t => t.flag HST_LINK_STS.UP) ∧
    gives (.hostLinkUp 64 16 3 true) ((cxl).wr HST_LINK_STS.UP 0 0) (fun t => t.flag HST_LINK_STS.UP && t.rd HST_LINK_STS.CXL == 3) ∧
    gives (.hostLinkUp 65 16 3 true) ((cxl).wr HST_LINK_STS.UP 0 0) (fun t => !t.flag HST_LINK_STS.UP) := by
  decide +kernel

theorem test_windows : decodeHpa cxl (2 ^ 40 + 64) = some (2, 64) ∧ decodeHpa cxl (2 ^ 40 + 2 ^ 28) = none ∧
    gives (.hdmDecoderCommit 2 5 (2 ^ 28)) cxl (fun t => (t.hdm 2).committed) ∧ gives (.hdmDecoderCommit 2 5 1) cxl (fun t => (t.hdm 2).error) ∧
    gives (.cxlMemWrite (2 ^ 40) [1] 0) (cxl [(RAS_PFENCE_STS.FENCED, 0, 8)]) (fun t => t.rd GUT_XPART_CNT.COUNT == 1 && t.out.length == 1) ∧
    gives (.cxlMemWrite 0 [1] 0) cxl (fun t => t.out.isEmpty) ∧ gives (.cxlMemRead 0 0) cxl (fun t => t.out.isEmpty) ∧
    gives (.cxlMemRead (2 ^ 40) 0) (cxl) (fun t => t.out.length == 1 && t.rd HST_TX_BYTES.BYTES == 64) := by
  decide +kernel

theorem test_config :
    gives (.configurationRequest 2 (.read 0)) cxl (fun t => t.out == [.cfg 2 true 0]) ∧
    gives (.configurationRequest 2 (.write 5 9)) { cxl with fme.applied := true } (fun t => KMap.find? t.hst.cfg 8197 == some 9) ∧
    gives (.configurationRequest 0 (.numVfs 31)) { cxl with fme.applied := true } (fun t => t.hst.numVfs == 31) ∧
    gives (.configurationRequest 0 (.vfEnable true)) { cxl with fme.applied := true } (fun t => t.hst.vfEnable) ∧
    gives (.configurationRequest 1 (.vfEnable true)) { cxl with fme.applied := true } (fun t => !t.hst.vfEnable) ∧
    gives (.cxlMailboxCommand 7) cxl (fun t => t.out == [.mboxAnswer (natLe 2 0x15)]) := by
  decide +kernel

theorem test_tier_links :
    gives (.tierLinkUp 1 32 16) { cxl [(TIER_PORT_CFG.EN 1, 0, 1)] with pcm.tierPerst := 2 }
      (fun t => t.flag (TIER_PORT_STS.UP 1) && t.flag (TIER_PORT_STS.DEGRADED 1)) ∧
    gives (.tierLinkUp 1 65 16) { cxl [(TIER_PORT_CFG.EN 1, 0, 1)] with pcm.tierPerst := 2 } (fun t => !t.flag (TIER_PORT_STS.UP 1)) ∧
    gives (.tierLinkDown 1) { cxl [(TIER_PORT_STS.UP 1, 0, 1)] with key.ide := [(2, { go := true })] } (fun t => !t.flag (TIER_PORT_STS.UP 1) && !(t.ide 2).go) ∧
    gives (.tierPerstRise 1) { cxl [(TIER_PORT_CFG.EN 1, 0, 1)] with pcm.tierOnAt := [(1, 0)], now := 10 ^ 8 } (fun t => t.pcm.tierPerst == 2) := by
  decide +kernel

/-- The key policy of partition 0: slots 1 to 9, broker 0. Session 1 is established with mutual authentication. -/
def keyed (k : KeySlot) : State :=
  let s := { node [(RSP_BOOT_STS.STEP, 0, 4)] with pcm.pwrGood := true }
  { s with fme.active := { s.fme.active with secs := (256 * 11, natLe 2 1 ++ natLe 2 9 ++ natLe 60 0) :: s.fme.active.secs },
           key.sessions := [(1, { done := true, mauth := true })], key.slots := [(5, k)] }
def keyBytes (op gen : Nat) : Bytes := natLe 2 op ++ natLe 2 5 ++ natLe 4 gen ++ (if op = 1 then natLe 32 7 ++ natLe 32 8 else [])

theorem test_keys : KeyTalk (keyed {}) 1 1 (keyBytes 1 3) { done := true, mauth := true } ∧ KeyTalk (keyed {}) 1 2 (keyBytes 2 0) { done := true, mauth := true } ∧
    KeyTalk (keyed {}) 1 3 (keyBytes 3 0) { done := true, mauth := true } ∧
    gives (.keyLoad 1 (keyBytes 1 3)) (keyed {}) (fun t => keyOpen t 5 3 && t.rd (RSP_CNT.COUNT 0) == 1) ∧
    gives (.keyLoad 1 (keyBytes 1 3)) (keyed { floor := 4 }) (fun t => !keyOpen t 5 3 && t.out.length == 1) ∧
    gives (.keyLoad 1 (keyBytes 1 3)) (keyed { state := 2 }) (fun t => (keySlot t 5).state == 2) ∧
    gives (.keyRetire 1 (keyBytes 2 0)) (keyed { state := 1, gen := 3 }) (fun t => (keySlot t 5).floor == 4 && t.key.waiting == [5]) ∧
    gives (.keyRetire 1 (keyBytes 2 0)) (keyed { state := 1, part := 4 }) (fun t => (keySlot t 5).state == 1) ∧
    gives (.keyQuery 1 (keyBytes 3 0)) (keyed {}) (fun t => t.out.length == 1) ∧
    KeyHeard (keyed {}) 1 2 (keyBytes 2 7) { done := true, mauth := true } ∧
    keyRefuse (keyed {}) { done := true, mauth := true } (keyBytes 2 7) = some ST.KEY_FORMAT ∧
    gives (.keyRetire 1 (keyBytes 2 0)) (keyed { state := 3 }) (fun t => (keySlot t 5).state == 3 && t.out.length == 1) ∧
    gives (.rspKeyRetire .rsp (2 ^ 31)) ((keyed { state := 1 }).wr RSP_KEY_SEL.SLOT 1 5) (fun t => (keySlot t 5).state == 2) := by
  decide +kernel

theorem test_drains :
    gives .drainAdvance { keyed { state := 2 } with key.waiting := [5] } (fun t => t.key.covered == [5] && t.rd RSP_DRAIN_EPOCH.EPOCH == 1) ∧
    gives (.drainAck 8) ({ keyed { state := 2, floor := 65536 } with key.covered := [5] }.wr RSP_DRAIN_STS.BUSY 0 1 |>.wr RSP_DRAIN_STS.PEND 0 256)
      (fun t => (keySlot t 5).state == 3 && !t.flag RSP_DRAIN_STS.BUSY) ∧
    gives (.drainAck 8) ({ keyed { state := 2 } with key.covered := [5] }.wr RSP_DRAIN_STS.BUSY 0 1 |>.wr RSP_DRAIN_STS.PEND 0 257)
      (fun t => (keySlot t 5).state == 2 && t.rd RSP_DRAIN_STS.PEND == 1) ∧
    gives .drainLate { (keyed {}).wr RSP_DRAIN_STS.BUSY 0 1 with now := 1001000 } (fun t => t.flag RSP_DRAIN_STS.LATE) := by
  decide +kernel

theorem test_alarm_test : gives (.alarmTest 0x83) (node []) (fun t => t.rd RSP_ALARM_STS.SRC == 8 && t.rd RSP_ALARM_LOG.LEVEL == 0 &&
      t.rd RSP_ALARM_LOG.SRC == 3 && t.rd RAS_NODE_STS.STATE != 3 && (t.hand .chip).cur.isSome && (t.hand .chip).queue.isEmpty) ∧
    gives (.alarmTest 0x83) ((node []).setHand .chip { cur := some { sev := 1 } }) (fun t => (t.hand .chip).queue.length == 1) ∧
    gives (.alarmTest 3) (node [(RCH_INCARNATION.VALUE, 0, 0)]) (fun t => t == node [(RCH_INCARNATION.VALUE, 0, 0)]) := by
  decide +kernel

/-- A node that has an owner for partition 5: block 17 and region entry 2. -/
def parted : State :=
  let s := node [(RCH_INCARNATION.VALUE, 0, 0), (CMP_OWNER.ASSIGNED, 17, 1), (CMP_OWNER.OWNER, 17, 5), (CMP_SEQ_STS.CLK_ON, 17, 1)]
  { s with rch.regs := [(2, { state := 1, part := 5 })], key.slots := [(5, { state := 1, gen := 3, key1 := 7 })], key.links := [(0, {})],
           key.ide := [(1, { keys := [(0, 1)], go := true })], key.aliasKey := some 3 }

theorem get_lt {d n k : Nat} {m : KMap Nat} (h : ∀ e ∈ m, e.2 < n) (hd : d < n) : KMap.get d m k < n := by
  unfold KMap.get
  induction m with
  | nil => exact hd
  | cons e r ih =>
    obtain ⟨a, v⟩ := e
    by_cases hk : k = a
    · simpa [KMap.find?, hk] using h (a, v) (List.mem_cons_self ..)
    · simpa [KMap.find?, hk] using ih fun e he => h e (List.mem_cons_of_mem _ he)

theorem parted_is_quiet : NothingRuns parted := by
  refine ⟨by decide, by decide, by decide, by decide, by decide, by decide, fun b => ⟨rfl, rfl⟩, fun b p h => ?_⟩
  unfold blockOwner at h
  split at h
  · cases h
    exact get_lt (n := 32) (by decide +kernel) (by decide)
  · cases h

theorem test_alarms : (parted.rd (RSP_ALARM_LVL.LVL 6) = 0 ∧ parted.rd (RSP_ALARM_LVL.LVL 7) = 1 ∧ parted.rd (RSP_ALARM_LVL.LVL 0) = 2 ∧ parted.rd (RSP_ALARM_LVL.LVL 3) = 3) ∧
    gives (.alarm 64 5) parted (fun t => t.rd RAS_NODE_STS.STATE != 3 && t.rd RSP_ALARM_STS.SRC == 64) ∧
    gives (.alarm 128 5) parted (fun t => partFenced t 5 && t.rd RAS_NODE_STS.STATE != 3 && t.flag HST_PRT_STS.RST_BUSY 5 && !t.flag CMP_SEQ_STS.CLK_ON 17) ∧
    gives (.alarm 1 5) parted (fun t => t.rd RAS_NODE_STS.STATE == 3 && t.rd RAS_NODE_STS.FENCE_CAUSE == 2 && !t.key.zeroized) ∧
    gives (.alarm 8 5) parted (fun t => t.rd RAS_NODE_STS.STATE == 3 && t.key.zeroized && t.key.links.isEmpty) ∧
    gives (.alarm 256 5) parted (fun t => t == parted) ∧
    gives (.alarm 8 5) { parted.wr RSP_ALARM_STS.SRC 0 8 with key.carried := [(3, 4)] } (fun t => t.rd RAS_NODE_STS.STATE != 3 && t.rd RSP_ALARM_LOG.SRC == 3) := by
  decide +kernel

theorem test_zeroize : gives (.zeroizeConfirm 0x5A) parted (fun t => t.key.zeroized && (keySlot t 5).floor == 4 && (keySlot t 5).key1 == 0 && (t.ide 1).stop &&
      !(t.ide 1).go && t.rd RAS_NODE_STS.FENCE_CAUSE == 4) ∧
    gives (.zeroizeConfirm 0x5B) parted (fun t => t == parted) ∧ gives (.formeRehash []) (node [(RCH_INCARNATION.VALUE, 0, 0)]) (fun t => t == node [(RCH_INCARNATION.VALUE, 0, 0)]) ∧
    gives (.formeRehash []) { node [(RSP_BOOT_STS.STEP, 0, 4)] with pcm.pwrGood := true } (fun t => KMap.find? t.periods 2 == some 0) := by
  decide +kernel

theorem test_fences : gives (.partitionFence 5) parted (fun t => partFenced t 5 && !partFenced t 4 && (t.region 2).state == 2 && !t.flag CMP_SEQ_STS.CLK_ON 17) ∧
    gives (.partitionFence 0) parted (fun t => t == parted) ∧
    gives (.regionFence 1) parted (fun t => regionFenced t 1 && !regionFenced t 0 && blkFenced t 16 && blkFenced t 31 && !blkFenced t 15 && !blkFenced t 32) ∧
    gives (.regionFence 4) parted (fun t => t == parted) ∧
    gives .nodeFence parted (fun t => t.rd RAS_NODE_STS.STATE == 3 && t.rd RAS_NODE_STS.FENCE_CAUSE == 4 && t.rd (RAS_CNT.COUNT 6) == 1 && !t.flag CMP_SEQ_STS.CLK_ON 17) ∧
    gives (.partitionUnfence 0x60) (parted.wr RAS_PFENCE_STS.FENCED 0 0x60 |>.wr HST_PRT_STS.RST_BUSY 6 1) (fun t => t.rd RAS_PFENCE_STS.FENCED == 0x40) := by
  decide +kernel

/-- A node whose handler `h` handles `c` with `q` queued. -/
def handling (h : Handler) (c : ErrRec) (q : List ErrRec) : State := calm.setHand h { cur := some c, queue := q }

theorem test_reports :
    gives (.errorReport (.cell 3 2) { sev := 1, unit := 50 }) (node []) (fun t => (t.hand (.cell 3 2)).cur == some { sev := 1, unit := 50 }) ∧
    gives (.errorReport (.cell 3 2) { sev := 3 }) (node []) (fun t => (t.hand .chip).cur == some { sev := 3 } && (t.hand (.cell 3 2)).cur.isNone) ∧
    gives (.errorReport (.region 1) { sev := 1 }) (handling (.region 1) { sev := 2 } []) (fun t => (t.hand (.region 1)).queue.length == 1) ∧
    gives (.errorReport (.cell 3 2) { sev := 1 }) (handling (.cell 3 2) {} (List.replicate 8 {})) (fun t => t.flag CMP_ERRQ_STS.CELL_OVF 3 && t.rd CMP_ERRQ_STS.CELL_LOST 3 == 1) ∧
    gives (.errorReport (.block 3) { sev := 1 }) (handling (.block 3) {} (List.replicate 8 {})) (fun t => t.flag CMP_ERRQ_STS.BLK_OVF 3) ∧
    gives (.errorReport (.platen 3 1) { sev := 1 }) (handling (.platen 3 1) {} (List.replicate 8 {})) (fun t => t.rd (PLT_CNT.COUNT 7) 3 == 1) ∧
    gives (.errorReport (.region 3) { sev := 1 }) (handling (.region 3) {} (List.replicate 32 {})) (fun t => t.flag (RAS_QSTS.OVF 3) && t.rd (RAS_QSTS.LOST 3) == 1) ∧
    gives (.errorReport .chip { sev := 3 }) (handling .chip { sev := 1 } (List.replicate 32 {})) (fun t => t.flag (RAS_QSTS.OVF 4) && t.rd RAS_NODE_STS.STATE == 3) ∧
    gives (.errorReport (.block 3) { sev := 3 }) (handling .chip { sev := 3 } []) (fun t => t.rd RAS_NODE_STS.STATE == 3) ∧
    gives (.errorReport (.block 3) { sev := 2, unit := 3 }) (handling (.block 3) { sev := 2 } []) (fun t => (t.hand (.region 0)).cur.isSome && t.rd (RAS_CNT.COUNT 4) == 1) ∧
    gives (.errorReport .chip { sev := 2, subsys := 3 }) (handling .chip { sev := 2, subsys := 3 } []) (fun t => ((t.hand .chip).queue.map (·.sev)) == [3]) := by
  decide +kernel

theorem test_retires : gives (.errorRetire .chip false) calm (fun t => t == calm) ∧ LogRoom (node []) ∧ ¬ LogRoom (node [(RAS_LOG_PROD.INDEX, 0, 512)]) ∧
    gives (.errorRetire (.block 3) false) (handling (.block 3) { sev := 1, subsys := 1 } [{ sev := 1 }, { sev := 3 }])
      (fun t => t.rd RAS_LOG_PROD.INDEX == 1 && t.ras.errLog == [(0, { sev := 1, subsys := 1, level := 1, action := 1 })] && t.rd (RAS_CNT.COUNT 1) == 1 &&
        (t.hand (.block 3)).cur == some { sev := 3 } && bitOf (KMap.get 0 t.hst.msixPend 0) 62) ∧
    gives (.errorRetire (.block 3) false) ((handling (.block 3) { sev := 0 } []).wr MGT_STS.READY 0 1) (fun t => t.mgt.events.isEmpty && t.hst.msixPend.isEmpty) ∧
    gives (.errorRetire (.block 3) false) ((handling (.block 3) { sev := 1 } []).wr MGT_STS.READY 0 1) (fun t => t.mgt.events.length == 1) ∧
    gives (.errorRetire (.block 3) false) { (handling (.block 3) { sev := 1 } []) with hst.msixOpen := [(0, 2 ^ 62)] } (fun t => t.out == [.msix 0 62]) ∧
    gives (.errorRetire (.block 3) false) ((handling (.block 3) { sev := 1 } []).wr RAS_LOG_PROD.INDEX 0 512) (fun t => t.rd RAS_LOG_STS.LOST == 1 && t.rd RAS_LOG_PROD.INDEX == 512) ∧
    gives (.errorRetire (.cell 3 2) false) (handling (.cell 3 2) { sev := 2 } []) (fun t => (t.hand (.block 3)).cur.isSome && t.rd RAS_LOG_PROD.INDEX == 0) ∧
    gives (.errorRetire (.platen 3 2) false) (handling (.platen 3 2) { sev := 1 } []) (fun t => (t.hand (.region 1)).cur.isSome) := by
  decide +kernel

theorem handling_is_quiet (h : Handler) (c : ErrRec) (q : List ErrRec) : NothingRuns (handling h c q) :=
  ⟨rfl, rfl, rfl, rfl, rfl, rfl, fun _ => ⟨rfl, rfl⟩, fun b p e => by
    unfold blockOwner at e
    split at e
    · cases e; exact Nat.zero_lt_succ _
    · cases e⟩

theorem test_contains : (handling .chip {} []).flag RAS_CFG.FENCE_LINKS = false ∧
    gives (.errorRetire .chip false) (handling .chip { sev := 3 } []) (fun t => t.rd RAS_NODE_STS.STATE == 3 && t.rd RAS_NODE_STS.FENCE_CAUSE == 1 && t.rd (RAS_CNT.COUNT 3) == 1) ∧
    gives (.errorRetire (.region 1) false) (handling (.region 1) { sev := 2, subsys := 1, unit := 300, escalated := true } []) (fun t => blkFenced t 18 && !blkFenced t 17) ∧
    gives (.errorRetire (.region 1) false) (handling (.region 1) { sev := 2, subsys := 1, level := 1, unit := 18, escalated := true } []) (fun t => blkFenced t 18) ∧
    gives (.errorRetire (.region 1) false) ((handling (.region 1) { sev := 2, subsys := 2, unit := 130, escalated := true } []).wr PLT_CFG.EN 2 1) (fun t => t.rd PLT_CFG.EN 2 == 0) ∧
    gives (.errorRetire .chip false) (handling .chip { sev := 2, subsys := 3, unit := 5, escalated := true } []) (fun t => regionFenced t 2 && !regionFenced t 1) ∧
    gives (.errorRetire .chip true) (handling .chip { sev := 2, part := some 5 } []) (fun t => partFenced t 5) := by
  decide +kernel

theorem test_bounds : gives (.handlerTimeout .chip) calm (fun t => t == calm) ∧
    gives (.handlerTimeout (.block 2)) { handling (.block 2) {} [] with now := 2000 } (fun t => !(t.hand (.block 2)).late) ∧
    gives (.handlerTimeout (.block 2)) { handling (.block 2) {} [] with now := 2001 } (fun t => (t.hand (.block 2)).late && ((t.hand .chip).cur.map (·.sev)) == some 3) ∧
    gives (.handlerTimeout .chip) { handling .chip { sev := 3 } [] with now := 200001 } (fun t => t.rd RAS_NODE_STS.FENCE_CAUSE == 5) := by
  decide +kernel

theorem test_inputs : gives (.inputLevel 2 true) (node []) (fun t => t.rd RAS_IN_STS.LEVEL == 4) ∧ gives (.inputLevel 5 true) (node []) (fun t => t.rd RAS_IN_STS.LEVEL == 0) ∧
    gives (.inputLevel 0 false) { node [(RAS_IN_STS.LEVEL, 0, 1)] with pcm.rstHeld := true } (fun t => !t.pcm.rstHeld) ∧
    gives (.inputLevel 2 false) (node [(RAS_IN_STS.LEVEL, 0, 6)]) (fun t => t.rd RAS_IN_STS.LEVEL == 2) ∧
    gives (.inputEvent 2) (node [(RAS_IN_STS.LEVEL, 0, 4)]) (fun t => (t.inp 2).fresh && (t.inp 2).event == some 0) ∧
    gives (.inputEvent 2) ((node [(RAS_IN_STS.LEVEL, 0, 4)]).setInp 2 { event := some 0 }) (fun t => !(t.inp 2).fresh && t.rd RAS_IN_DROP_CNT.COUNT == 1) ∧
    gives (.inputEvent 2) calm (fun t => t == calm) ∧
    gives (.inputStuck 2) { node [(RAS_IN_STS.LEVEL, 0, 4)] with now := 101000000 } (fun t => !inputActive t 2 && (t.hand .chip).cur.isSome) ∧
    gives (.inputStuck 2) { node [(RAS_IN_STS.LEVEL, 0, 4)] with now := 100999999 } (fun t => inputActive t 2) ∧
    gives (.inputUnmask 6) (node [(RAS_IN_STS.LEVEL, 0, 4), (RAS_STUCK_STS.STUCK, 0, 6)]) (fun t => t.rd RAS_STUCK_STS.STUCK == 4) := by
  decide +kernel

/-- A node whose start-up has reached proof. -/
def proven : State := { node [] with fme.applied := true, pcm.pwrGood := true }

theorem test_joining : (nodeHeld proven = false ∧ portsSettled proven = true) ∧
    gives .proofPass proven (fun t => t.rd RAS_NODE_STS.STATE == 1 && t.flag STK_STS.TRAINED 7 && t.rd RAS_JOIN_STS.REASON == 5) ∧
    gives .proofPass calm (fun t => t == calm) ∧
    gives .admitNode (node [(RAS_NODE_STS.STATE, 0, 1)]) (fun t => t.rd RAS_NODE_STS.STATE == 2) ∧
    gives .admitNode (node [(RAS_NODE_STS.STATE, 0, 1), (RAS_JOIN_STS.REASON, 0, 5)]) (fun t => t.rd RAS_NODE_STS.STATE == 1 && t.flag RAS_ADMIT.ERR) := by
  decide +kernel

/-- A joining node with conversation 5, and FOLIO_LOAD of one entry at offset 0 from node 7. -/
def loadsOne : State :=
  let s := ((((asked []).wr RAS_CMD_STS.BUSY 0 1).wr (RAS_CMD_DATA.DATA 0) 0 1).wr (RAS_CMD_DATA.DATA 2) 0 5).wr (RAS_CMD_DATA.DATA 6) 0 (7 * 2 ^ 16)
  sectors [(0, List.replicate 32 1)] ((s.wr (RAS_CMD_DATA.DATA 10) 0 1).wr RAS_NODE_STS.STATE 0 1)

theorem test_folio_load :
    (let u := loadsOne.wr RAS_CMD_STS.DONE_N 0 0
     let c := loadCmd (rasRecord loadsOne)
     badLoad loadsOne (rasRecord loadsOne) = false ∧ (convFind c.part c.role c.conv u).1 = some 3 ∧
     (readUpper 0 c.list (16 * c.n) (convFind c.part c.role c.conv u).2).1.isSome = true) ∧
    gives .folioLoad loadsOne (fun t => t.ras.load.isSome || t.flag RAS_CMD_STS.BUSY) ∧
    gives .folioLoad (loadsOne.wr RAS_NODE_STS.STATE 0 2) (fun t => t.rd RAS_CMD_STS.STATUS == ST.RAS_STATE && t.flag RAS_CMD_STS.DONE) ∧
    gives .folioLoad (loadsOne.wr RAS_NODE_STS.STATE 0 3) (fun t => t.rd RAS_CMD_STS.STATUS == ST.FENCED) ∧
    gives .folioLoad (loadsOne.wr (RAS_CMD_DATA.DATA 10) 0 0) (fun t => t.rd RAS_CMD_STS.STATUS == ST.RAS_CMD_FORMAT) ∧
    gives .folioLoad (loadsOne.wr FLO_CFG.EN 0 0) (fun t => t.rd RAS_CMD_STS.STATUS == ST.FLO_DISABLED) ∧
    gives .folioLoad (loadsOne.wr (RAS_CMD_DATA.DATA 2) 0 6) (fun t => t.rd RAS_CMD_STS.STATUS == ST.DIR_NO_CONV) ∧
    gives .folioLoad calm (fun t => t == calm) ∧
    gives .folioLoadComplete { loadsOne with ras.load := some { cmd := rasRecord loadsOne, done := 1, status := 9 } }
      (fun t => t.ras.load.isNone && t.rd RAS_CMD_STS.STATUS == 9 && t.rd RAS_CMD_STS.DONE_N == 1) ∧
    gives .folioLoadComplete { loadsOne with ras.load := some { cmd := rasRecord loadsOne } } (fun t => t.ras.load.isSome && t.flag RAS_CMD_STS.BUSY) := by
  decide +kernel

/-- A node in a forme state, with an image staged. -/
def staged (st : Nat) (m : FormeImg) : State :=
  let s := node [(RCH_INCARNATION.VALUE, 0, 0), (RSP_FORME_STS.STATE, 0, st), (TIME_CFG.GM, 0, 1)]
  { s with fme.staged := some m, fme.applied := true, now := 5000000 }

theorem test_load : gives (.load [1, 2] true) ((staged 2 {}).wr RSP_FORME_LEN.LEN 0 64) (fun t => (t.fme.loading.map (·.length)) == some 64 && t.fme.staged.isNone && t.rd RSP_FORME_STS.STATE == 1) ∧
    gives (.load [1, 2] false) (staged 2 {}) (fun t => t.fme.staged.isNone && t.rd RSP_FORME_STS.STATE == 0 && t.rd RSP_FORME_STS.STATUS == ST.HST_DMA) ∧
    gives (.load [1, 2] true) (staged 3 {}) (fun t => t.fme.staged.isSome && t.rd RSP_FORME_STS.STATUS == ST.FORME_BUSY) ∧
    gives (.load [1, 2] true) (staged 1 {}) (fun t => t.flag RSP_FORME_STS.ERR) := by
  decide +kernel

theorem test_verified : gives .formeVerified (staged 0 {}) (fun t => t.fme.staged.isSome) ∧
    gives .formeVerified { staged 1 {} with fme.loading := some [1], fme.staged := none } (fun t => t.rd RSP_FORME_STS.STATUS == ST.FORME_FORMAT && t.rd (RSP_FORME_CNT.COUNT 1) == 1 &&
      t.rd RSP_FORME_STS.STATE == 0) := by
  decide +kernel

theorem test_arming : gives .go (staged 2 { time := 0 }) (fun t => t.rd RSP_FORME_STS.STATE == 3 && !t.flag RSP_FORME_STS.ERR) ∧
    gives .go (staged 2 { time := 9 }) (fun t => t.rd RSP_FORME_STS.STATE == 3) ∧
    gives .go ((staged 2 { time := 9 }).wr TIME_NOW.NS 0 9) (fun t => t.rd RSP_FORME_STS.STATUS == ST.FORME_LATE) ∧
    gives .go ((staged 2 {}).wr TIME_CFG.GM 0 0) (fun t => t.rd RSP_FORME_STS.STATUS == ST.FORME_LATE) ∧
    gives .go (staged 0 {}) (fun t => t.flag RSP_FORME_STS.ERR) ∧
    secDiffers { secs := [(1792, [1])] } (staged 2 {}).fme.active (256 * 7) = true ∧
    gives .cancel (staged 2 {}) (fun t => t.fme.staged.isNone && t.rd RSP_FORME_STS.STATE == 0) ∧
    gives .cancel (staged 3 {}) (fun t => t.fme.staged.isNone && t.rd RSP_FORME_STS.STATE == 0) ∧
    gives .cancel (staged 0 {}) (fun t => t.flag RSP_FORME_STS.ERR) := by
  decide +kernel

theorem test_enable :
    gives .enable { staged 0 {} with fme.active := { secs := [(256, List.replicate 68 0 ++ [0x83])] } }
      (fun t => t.flag FLO_CFG.EN && t.flag RCH_CFG.EN && !t.flag COL_CFG.EN && t.flag (TIER_POOL_CFG.EN 3) && t.flag RSP_FORME_STS.ENABLED) ∧
    gives .enable ((staged 0 {}).wr RSP_FORME_STS.ENABLED 0 1) (fun t => t.flag RSP_FORME_STS.ERR) := by
  decide +kernel

theorem test_commit : gives .formeHold (staged 3 {}) (fun t => t.rd RSP_FORME_STS.STATE == 4 && t.fme.holdAt == 5000000) ∧
    gives .formeHold (staged 3 { time := 9 }) (fun t => t.rd RSP_FORME_STS.STATE == 3) ∧
    gives .formeDrainTimeout { staged 4 {} with col.atts := [(0, {})] } (fun t => t.rd (RSP_FORME_CNT.COUNT 3) == 1) ∧
    gives .formeDrainTimeout { staged 4 {} with col.atts := [(0, {})], now := 999 } (fun t => t.rd (RSP_FORME_CNT.COUNT 3) == 0) ∧
    gives .formeSwap (staged 4 { id := 3, epoch := 8 }) (fun t => t.fme.staged.isNone && t.fme.active.id == 3) ∧
    gives .formeSwap { staged 4 {} with col.atts := [(0, {})] } (fun t => t.fme.staged.isSome) := by
  decide +kernel

theorem staged_is_quiet : NothingRuns (staged 4 {}) :=
  ⟨rfl, rfl, rfl, rfl, rfl, rfl, fun _ => ⟨rfl, rfl⟩, fun b p e => by
    unfold blockOwner at e
    split at e
    · cases e; exact get_lt (n := 32) (by decide +kernel) (by decide)
    · cases e⟩

theorem test_idle : gives .idleEntry { node [(PCM_IDLE_US.US, 0, 5)] with pcm.quietAt := some 0, now := 5000 } (fun t => t.rd PCM_STATE.NODE == 1 && t.rd (PCM_CNT.COUNT 0) == 1) ∧
    gives .idleEntry calm (fun t => t == calm) ∧ gives .idleWake (node [(PCM_STATE.NODE, 0, 1)]) (fun t => t.rd PCM_STATE.NODE == 0) ∧
    gives (.dozeEntry 1) { node [(PCM_DOZE_US.US, 0, 5)] with cmp.prog := [(15, []), (16, []), (32, [])], pcm.restAt := [(1, 0)], now := 5000 }
      (fun t => regionDozes t 1 && !regionDozes t 0 && (t.cmp.prog.map (·.1)) == [15, 32] && t.rd (PCM_CNT.COUNT 1) == 1) ∧
    gives (.dozeEntry 1) { node [(PCM_DOZE_US.US, 0, 5), (CMP_SEQ_STS.CLK_ON, 31, 1)] with pcm.restAt := [(1, 0)], now := 5000 } (fun t => !regionDozes t 1) ∧
    gives (.dozeEntry 1) { node [(PCM_DOZE_US.US, 0, 5)] with pcm.restAt := [(1, 1)], now := 5000 } (fun t => !regionDozes t 1) ∧
    gives (.regionWake 1) (node [(PCM_STATE.DOZE, 0, 6)]) (fun t => !regionDozes t 1 && regionDozes t 2) := by
  decide +kernel

theorem test_keep : gives .keep (node [(PCM_POL.KEEP_EN, 0, 1)]) (fun t => t.rd PCM_STATE.NODE == 3 && t.flag STK_STS.SELF_REFRESH 7 && t.rd (PCM_CNT.COUNT 2) == 1) ∧
    gives .keep (node []) (fun t => t.rd PCM_STATE.ERR_REASON == 1 && t.rd PCM_STATE.NODE == 0) ∧
    gives .keep { node [(PCM_POL.KEEP_EN, 0, 1)] with tier.leases := [{}] } (fun t => t.rd PCM_STATE.ERR_REASON == 3) ∧
    gives .keep { node [(PCM_POL.KEEP_EN, 0, 1)] with col.atts := [(0, {})] } (fun t => t.rd PCM_STATE.NODE == 2) ∧
    gives .keepAbandon { node [(PCM_STATE.NODE, 0, 2)] with col.atts := [(0, {})], now := 1000000 } (fun t => t.rd PCM_STATE.ERR_REASON == 2 && t.rd PCM_STATE.NODE == 0) ∧
    gives .keepAbandon { node [(PCM_STATE.NODE, 0, 2)] with col.atts := [(0, {})], now := 999999 } (fun t => t.rd PCM_STATE.NODE == 2) := by
  decide +kernel

theorem test_wakes : gives .wake { node [(PCM_STATE.NODE, 0, 3), (TIME_NOW.NS, 0, 100)] with pcm.keepAt := 10, now := 95 }
      (fun t => t.rd PCM_STATE.NODE == 4 && t.rd TIME_NOW.NS == 95 && t.flag TIME_STS.OOB) ∧
    gives .wake (node [(PCM_STATE.NODE, 0, 2)]) (fun t => t.rd PCM_STATE.NODE == 4 && t.rd PCM_STATE.ERR_REASON == 4) ∧
    gives .wakeN ((node [(PCM_STATE.NODE, 0, 3)]).setInp 2 { fresh := true }) (fun t => t.rd PCM_STATE.NODE == 4 && !(t.inp 2).fresh) ∧
    gives .wakeN (node [(PCM_STATE.NODE, 0, 3)]) (fun t => t.rd PCM_STATE.NODE == 3) ∧
    gives (.signalDetectWake none) (node [(PCM_STATE.NODE, 0, 3)]) (fun t => t.rd PCM_STATE.NODE == 4) ∧
    gives (.signalDetectWake (some 5)) (node [(PCM_STATE.NODE, 0, 3)]) (fun t => t.rd PCM_STATE.NODE == 3) ∧
    gives .wake (node [(PCM_STATE.NODE, 0, 3), (FAB_PORT_STS.STATE, 7, 4)]) (fun t => t.rd FAB_PORT_STS.STATE 7 == 1) ∧
    gives .wakeComplete (node [(PCM_STATE.NODE, 0, 4), (STK_STS.SELF_REFRESH, 7, 1)]) (fun t => t.rd PCM_STATE.NODE == 0 && !t.flag STK_STS.SELF_REFRESH 7 && t.flag STK_STS.TRAINED 7) := by
  decide +kernel

theorem test_levels : gives (.clockLevelStep 2) (node [(PCM_POL.BOOST_EN, 0, 1), (PCM_CLK_STS.LEVEL 2, 0, 9)]) (fun t => t.rd (PCM_CLK_STS.LEVEL 2) == 10 && t.rd (PCM_CNT.COUNT 5) == 1) ∧
    gives (.clockLevelStep 2) (node [(PCM_CLK_STS.STEP, 0, 9)]) (fun t => t.rd (PCM_CLK_STS.LEVEL 2) == 7) ∧
    gives (.clockLevelStep 2) calm (fun t => t == calm) := by
  decide +kernel

theorem test_samples :
    gives (.sensorSample [1000] [2000000] [40, 60] [70] [60]) (node [(MGT_STS.READY, 0, 1)])
      (fun t => t.rd PCM_DIE_TEMP.TEMP == 60 && t.rd PCM_PWR.INST_W == 2000 && t.rd PCM_PWR.AVG_W == 2000 && t.rd STK_TEMP.TEMP_MAX 0 == 70 && t.rd (MGT_ENERGY.UJ 0) == 20000) ∧
    gives (.sensorSample [] [] [110] [] []) (node []) (fun t => t.rd PCM_CLK_STS.STEP == 1 && t.rd (PCM_CNT.COUNT 4) == 1 && t.pcm.heat) ∧
    gives (.sensorSample [] [] [125] [] []) { node [] with pcm.hot := 1 } (fun t => t.pcm.thermtrip) := by
  decide +kernel

theorem test_steps : gives .capStep (node [(PCM_PWR.AVG_W, 0, 701)]) (fun t => t.rd PCM_CLK_STS.STEP == 1 && t.rd (PCM_CNT.COUNT 3) == 1) ∧
    gives .capStep (node [(PCM_PWR.AVG_W, 0, 700)]) (fun t => t.rd PCM_CLK_STS.STEP == 0) ∧
    gives .capStep { node [(PCM_PWR.AVG_W, 0, 701), (PCM_CLK_STS.STEP, 0, 11), (CMP_SEQ_STS.CLK_ON, 5, 1)] with now := 50000 } (fun t => t.rd PCM_CLK_STS.STEP == 12 && !t.flag CMP_SEQ_STS.CLK_ON 5) ∧
    gives .capUndo { node [(PCM_CLK_STS.STEP, 0, 12), (CMP_OWNER.ASSIGNED, 5, 1), (CMP_OWNER.OWNER, 5, 3)] with pcm.lowFrom := some 0, now := 1000000 }
      (fun t => t.rd PCM_CLK_STS.STEP == 11) ∧
    gives .capUndo { node [(PCM_CLK_STS.STEP, 0, 2)] with pcm.lowFrom := some 0, now := 1000000 } (fun t => t.rd PCM_CLK_STS.STEP == 1) ∧
    gives .capUndo { node [(PCM_CLK_STS.STEP, 0, 2)] with pcm.lowFrom := some 0, now := 999999 } (fun t => t.rd PCM_CLK_STS.STEP == 2) ∧
    gives .pwrBrakeN (node [(RAS_IN_STS.LEVEL, 0, 8), (PCM_CLK_STS.STEP, 0, 2)]) (fun t => t.rd PCM_CLK_STS.STEP == 11 && t.pcm.brake && t.rd (PCM_CNT.COUNT 3) == 1) ∧
    gives .pwrBrakeN { node [] with pcm.brake := true } (fun t => !t.pcm.brake) ∧
    gives .vrHotN (node [(RAS_IN_STS.LEVEL, 0, 512)]) (fun t => t.rd PCM_CLK_STS.STEP == 1 && t.rd (PCM_CNT.COUNT 4) == 1) ∧
    gives .vrHotN calm (fun t => t == calm) ∧
    gives .debugReqN ((node [(MGT_STS.DEBUG_LVL, 0, 2), (CMP_SEQ_STS.STATE, 3, 4)]).setInp 4 { fresh := true }) (fun t => t.rd CMP_SEQ_STS.STATE 2 == 5 && t.rd CMP_SEQ_STS.STATE 3 == 4) ∧
    gives .debugReqN ((node []).setInp 4 { fresh := true }) (fun t => t.rd (MGT_CNT.COUNT 3) == 1) := by
  decide +kernel

/-- A write of PCM_RST_CMD with the confirmation. -/
def rstWord (kind low : Nat) : Nat := kind * 2 ^ 28 + 0xA5 * 2 ^ 20 + low

/-- A node with power, with something in each kind of state. -/
def lived : State :=
  { node [(RCH_INCARNATION.VALUE, 0, 0), (STK_STS.FENCED, 3, 1), (REAM_PACCT.VALUE 2, 5, 77), (PCM_POL.CAP_W, 0, 500), (RAS_LOG_PROD.INDEX, 0, 9), (RAS_PFENCE_STS.FENCED, 0, 6),
      (RSP_FORME_ID.VALUE, 0, 4), (MGT_STS.READY, 0, 1), (PCM_STRAP.BOOT_SEL, 0, 7), (CMP_SEQ_STS.STATE, 20, 4)] with
    pcm.pwrGood := true, key.slots := [(5, { state := 1, gen := 3, key1 := 7 }), (6, { state := 2, floor := 65536 })], key.links := [(0, {})],
    key.sessions := [(1, {})], ras.errLog := [(8, {})], mem := [(3, 1), (2 ^ 46, 2)], cmp.blocks := [(4, { pc := 1 }), (20, { pc := 2 })] }

theorem test_whole_resets :
    (let u := clearFor 1 lived
     u.rd STK_STS.FENCED 3 = 0 ∧ u.rd (REAM_PACCT.VALUE 2) 5 = 0 ∧ u.rd PCM_POL.CAP_W = 700 ∧ u.rd RAS_LOG_PROD.INDEX = 0 ∧ u.rd PCM_STRAP.BOOT_SEL = 7 ∧
     (keySlot u 5).floor = 4 ∧ (keySlot u 6).state = 3 ∧ u.key.links = [] ∧ u.key.sessions = [] ∧ u.ras.errLog = []) ∧
    (let u := clearFor 2 lived
     u.rd STK_STS.FENCED 3 = 1 ∧ u.rd (REAM_PACCT.VALUE 2) 5 = 77 ∧ u.rd PCM_POL.CAP_W = 500 ∧ u.rd RAS_LOG_PROD.INDEX = 9 ∧ u.rd RAS_PFENCE_STS.FENCED = 0 ∧
     u.rd RSP_FORME_ID.VALUE = 0 ∧ u.rd MGT_STS.READY = 0 ∧ u.ras.errLog.length = 1 ∧ u.rd CMP_SEQ_STS.STATE 20 = 0) ∧
    (let u := clearFor 3 lived
     (keySlot u 5).state = 1 ∧ (keySlot u 6).state = 3 ∧ u.key.links = [] ∧ u.key.sessions.length = 1 ∧ u.rd RSP_FORME_ID.VALUE = 4 ∧ u.rd MGT_STS.READY = 1 ∧
     u.rd RAS_PFENCE_STS.FENCED = 0) := by
  decide +kernel

theorem test_reset_commands : (rstCmd 1 (rstWord 1 0) = true ∧ rstCmd 2 (rstWord 2 0) = true ∧ rstCmd 3 (rstWord 3 0) = true ∧ rstCmd 4 (rstWord 4 1) = true) ∧
    gives (.coldReset (2 ^ 28) []) lived (fun t => t == lived) ∧
    gives (.coldReset (rstWord 1 0) []) { lived with pcm.rstHeld := true } (fun t => t.key.sessions.isEmpty && t.cmp.blocks.isEmpty) ∧
    gives (.warmReset (rstWord 2 0) []) { lived with pcm.rstHeld := true, mgt.dbgNext := 2 } (fun t => t.cmp.blocks.isEmpty && t.ras.errLog.length == 1) ∧
    gives (.nodeReset (rstWord 3 0)) lived (fun t => t.key.sessions.length == 1 && t.mem.length == 2) ∧
    gives (.regionReset (rstWord 4 1)) lived (fun t => regionFenced t 1 && bitOf (t.rd PCM_RST_STS.RBUSY) 1 && t.flag STK_STS.SELF_REFRESH 3 && !blkFenced t 20 &&
      (t.cmp.blocks.map (·.1)) == [4] && t.flag STK_STS.FENCED 3) ∧
    gives (.regionReset (rstWord 4 1)) (lived.wr PCM_RST_STS.RBUSY 0 2) (fun t => t == lived.wr PCM_RST_STS.RBUSY 0 2) ∧
    gives (.regionResetComplete 1) ((lived.wr PCM_RST_STS.RBUSY 0 2).wr RAS_RFENCE_STS.FENCED 0 6) (fun t => t.rd RAS_RFENCE_STS.FENCED == 4 && t.rd PCM_RST_STS.RBUSY == 0 && t.flag STK_STS.TRAINED 3) := by
  decide +kernel

theorem test_region_reset_hypotheses : (lived.stkUnit 2).waiting = [] ∧ lived.rd PCM_STATE.NODE < 2 ∧ lived.col.reams = [] ∧ lived.plt.holds = [] ∧
    NothingRuns { lived with regs := [], cmp := {} } ∧ rstCmd 4 (rstWord 4 1) = true ∧ ({ lived with regs := [] } : State).rd PCM_STATE.NODE < 2 := by
  refine ⟨by decide +kernel, by decide +kernel, rfl, rfl, ⟨rfl, rfl, rfl, rfl, rfl, rfl, fun _ => ⟨rfl, rfl⟩, fun b p e => ?_⟩, by decide +kernel, by decide +kernel⟩
  unfold blockOwner at e
  split at e
  · cases e; exact Nat.zero_lt_succ _
  · cases e

theorem test_power_and_pins :
    gives (.powerGoodRise 0x5A false []) (node []) (fun t => t.pcm.pwrGood && t.freeIx == 2) ∧
    gives (.powerGoodRise 0x5A false []) lived (fun t => t == lived) ∧
    gives .powerGoodFall lived (fun t => nodeHeld t && t.cmp.blocks.isEmpty) ∧ gives .powerGoodFall calm (fun t => t == calm) ∧
    gives .resetN (lived.wr RAS_IN_STS.LEVEL 0 1) (fun t => t.pcm.rstHeld && t.cmp.blocks.isEmpty) ∧
    gives .resetN lived (fun t => t == lived) ∧
    gives (.inputLevel 0 false) { node [(RAS_IN_STS.LEVEL, 0, 1)] with pcm.rstHeld := true } (fun t => !t.pcm.rstHeld) ∧
    (exec .vddAonRise lived matches .fault .unspecifiedPower) ∧
    gives .vddAonRise { lived with pcm.pwrGood := false } (fun t => t.regs.isEmpty && t.mem == [(2 ^ 46, 2)] && keySlot t 5 == {}) := by
  decide +kernel

theorem test_tap : gives .bypass lived (fun t => t.out == [.tap 0]) ∧ gives .idcode lived (fun t => t.out == [.tap 0x171604C9]) ∧
    gives (.samplePreload 6) lived (fun t => t.pcm.boundary == 6) ∧ gives .tapPrivate lived (fun t => t.out == [.tap 0]) ∧
    (exec .tapPrivate (lived.wr MGT_STS.DEBUG_LVL 0 2) matches .refused .privateTest) ∧
    [Instr.extest, .extestPulse, .extestTrain, .clamp, .highz].all (fun c => gives c { lived with pcm.tapHeld := true } (fun t => nodeHeld t && t.out.length == 1)) ∧
    gives .clamp lived (fun t => t.pcm.tapHeld && t.pcm.tapIr == .clamp && t.cmp.blocks.isEmpty) ∧
    gives (.testLogicReset []) lived (fun t => t.pcm.tapIr == .idcode) ∧
    gives (.testLogicReset []) { lived with pcm.tapHeld := true, pcm.rstHeld := true } (fun t => !t.pcm.tapHeld) := by
  decide +kernel

/-- A running node with the host link up and one session in a state. -/
def attested (x : Session) : State :=
  { node [(RSP_BOOT_STS.STEP, 0, 4), (HST_LINK_STS.UP, 0, 1), (MGT_STS.READY, 0, 1), (TIER_PORT_CFG.IDE_EN 1, 0, 1), (TIER_PORT_STS.UP 1, 0, 1)] with
    pcm.pwrGood := true, key.sessions := [(2, x)], key.aliasKey := some 9 }

theorem test_spdm_hypotheses : SpdmOn .doe (attested {}) ∧ SpdmOn .mctp (attested {}) ∧ InSession (attested { done := true }) 2 { done := true } ∧
    sessionOpen (attested {}) 2 = false ∧ spdmReach .doe (node []) = false ∧ spdmReach .doe { attested {} with key.zeroized := true } = true := by
  decide +kernel

theorem test_spdm_requests : gives (.getVersion .doe) (attested {}) (fun t => t.out == [.spdmAns 0 (.version [0x13, 0x12])]) ∧
    gives (.getCapabilities .mctp) (attested {}) (fun t => t.out == [.spdmAns 0 (.capabilities spdmCaps)]) ∧
    gives (.negotiateAlgorithms .doe [.sha384]) (attested {}) (fun t => t.out == [.spdmAns 0 (.algorithms [.sha384])]) ∧
    gives (.getVersion .doe) { attested {} with key.zeroized := true } (fun t => t.out == [.spdmAns 0 (.error .unspecified)]) ∧
    gives (.getVersion .doe) (node []) (fun t => t.out.isEmpty) ∧
    gives (.getCertificate .doe none 1 0 9) (attested {}) (fun t => t.out == [.spdmAns 0 (.error .unsupportedRequest)]) ∧
    gives (.getDigests .doe none) (attested {}) (fun t => t.out.length == 1) ∧
    gives (.challenge .doe 0 7) (attested {}) (fun t => t.out.length == 1 && t.freeIx == 2) ∧
    gives (.getMeasurements .doe none 6 false 7) (attested {}) (fun t => t.out == [.spdmAns 0 (.error .unsupportedRequest)]) ∧
    gives (.getMeasurements .doe none 5 true 7) (attested {}) (fun t => t.freeIx == 2) := by
  decide +kernel

theorem test_sessions : gives (.keyExchange .doe 0 7) (attested {}) (fun t => (t.key.sessions.map (·.1)) == [1, 2]) ∧
    gives (.keyExchange .doe 0 7) { attested {} with key.sessions := (List.range 9).map fun n => (n, {}) } (fun t => t.out == [.spdmAns 0 (.error .sessionLimitExceeded)]) ∧
    gives (.finish .doe 2 true (some (5, true)) none) (attested {}) (fun t => t.key.sessions.any fun e => e.2.done && e.2.mauth && e.2.cert == 5) ∧
    gives (.finish .doe 2 true (some (5, false)) (some 3)) (attested {}) (fun t => t.key.sessions.isEmpty && t.rd (RSP_CNT.COUNT 5) == 1) ∧
    gives (.finish .doe 2 false none none) (attested {}) (fun t => t.key.sessions.isEmpty) ∧
    gives (.finish .doe 1 true none none) (attested {}) (fun t => t.out == [.spdmAns 1 (.error .unexpectedRequest)]) ∧
    gives (.spdmHeartbeat .doe 2) { attested { done := true } with now := 8 } (fun t => t.key.sessions == [(2, { done := true, last := 8 })]) ∧
    gives (.keyUpdate .doe 2) (attested {}) (fun t => t.out == [.spdmAns 2 (.error .unexpectedRequest)]) ∧
    gives (.keyUpdate .doe 2) (attested { done := true }) (fun t => t.out == [.spdmAns 2 .keyUpdate]) ∧
    gives (.endSession .doe 2) (attested { done := true }) (fun t => t.key.sessions.isEmpty) ∧
    gives (.spdmSessionTimeout 2) { attested {} with now := 60000000000 } (fun t => t.key.sessions.isEmpty) ∧
    gives (.spdmSessionTimeout 2) { attested {} with now := 59999999999 } (fun t => t.key.sessions.length == 1) := by
  decide +kernel

theorem test_vendor : gives (.vendorDefinedRequest .doe none .other) (attested {}) (fun t => t.out == [.spdmAns 0 (.error .unsupportedRequest)]) ∧
    gives (.vendorDefinedRequest .mctp (some 2) (.ideKm .query)) (attested { done := true }) (fun t => t.out == [.spdmAns 2 (.error .unsupportedRequest)]) ∧
    gives (.vendorDefinedRequest .doe (some 2) (.beygar (keyBytes 3 0))) (attested { done := true }) (fun t => t.out == [.spdmAns 2 (.error .unsupportedRequest)]) ∧
    gives (.ideKmQuery (.host 2)) (attested { done := true }) (fun t => t.out == [.spdmAns 2 (.ideQuery 0 false)]) ∧
    gives (.keyProg (.host 2) 1 7) { attested { done := true } with key.ide := [(0, { keys := [(0, 9)] })] } (fun t => t.ide 0 == { keys := [(0, 9), (1, 7)] }) ∧
    gives (.kSetGo (.host 2)) { attested { done := true } with key.ide := [(0, { keys := [(0, 9)] })] } (fun t => (t.ide 0).go && t.flag HST_LINK_STS.IDE) ∧
    gives (.kSetGo (.host 2)) (attested { done := true }) (fun t => !(t.ide 0).go) ∧
    gives (.kSetStop (.host 2)) { attested { done := true } with key.ide := [(0, { keys := [(0, 9)], go := true })] } (fun t => !(t.ide 0).go) ∧
    gives (.keyProg (.tier 1) 1 7) (attested {}) (fun t => t.ide 2 == { keys := [(1, 7)] }) ∧ gives (.keyProg (.tier 0) 1 7) (attested {}) (fun t => t.key.ide.isEmpty) ∧
    gives (.kSetGo (.tier 1)) { attested {} with key.ide := [(2, { keys := [(1, 7)] })] } (fun t => (t.ide 2).go) ∧
    gives (.kSetStop (.tier 1)) { attested {} with key.ide := [(2, { keys := [(1, 7)], go := true })] } (fun t => !(t.ide 2).go) := by
  decide +kernel

/-- A node whose management controller runs, and a source on I3C. -/
def managed : State :=
  { node [(MGT_STS.READY, 0, 1), (HST_LINK_STS.UP, 0, 1)] with pcm.pwrGood := true, key.sessions := [(1, { done := true, mauth := true, cert := 77 })],
                                                               fus := { owners := [(0, (0, 77))] } }
def board : MgtSrc := { bus := .i3c, eid := 9, session := none }
def owner : MgtSrc := { bus := .i3c, eid := 9, session := some 1 }

theorem test_mgt_hypotheses : MgtOn board managed ∧ MgtOn owner managed ∧ D0On board (node []) ∧ ownerSession (mgtHeard owner managed) owner = true ∧
    ownerSession (mgtHeard board managed) board = false ∧ busUp (managed.wr HST_LINK_STS.UP 0 0) .pcie = false ∧ mgtRuns (node []) = false ∧ lowBus .pcie = false := by
  decide +kernel

theorem test_mctp : gives (.setEndpointId board 300) managed (fun t => t.rd MGT_STS.EID == 44 && t.rd (MGT_CNT.COUNT 0) == 1) ∧
    gives (.setEndpointId board 255) managed (fun t => t.out == [.mctp 9 [2]]) ∧
    gives (.getEndpointId board) (managed.wr MGT_STS.EID 0 44) (fun t => t.out == [.mctp 9 [0, 44]]) ∧
    gives (.getEndpointId board) (node []) (fun t => t.out == [.mctp 9 [0, 0]]) ∧
    gives (.getMctpVersionSupport board) (node []) (fun t => t.out.length == 1) ∧
    gives (.mctpMessage board .control) managed (fun t => t.out == [.mctp 9 [5]]) ∧ gives (.mctpMessage board .control) (node []) (fun t => t.out.isEmpty) ∧
    gives (.mctpMessage board (.pldm 1)) managed (fun t => t.out == [.pldm 9 .invalidType 0 []]) ∧
    gives (.mctpMessage board (.pldm 2)) managed (fun t => t.out == [.pldm 9 .unsupportedCmd 0 []]) ∧
    gives (.mctpMessage board (.other 7)) managed (fun t => t.rd (MGT_CNT.COUNT 1) == 1) ∧
    gives (.mctpMessage board (.readSensor 0x600)) managed (fun t => t.out == [.pldm 9 .success 0 [0, 0, 0, 0]]) ∧
    gives .smbusAlertResponse { managed with mgt.events := [{}] } (fun t => t.out == [.alertAddr 0x60]) ∧ gives .smbusAlertResponse managed (fun t => t.out.isEmpty) := by
  decide +kernel

theorem test_forme_commands : gives (.formeLoad board true false [1, 2]) managed (fun t => t.mgt.load == [1, 2]) ∧
    gives (.formeLoad board false true [3]) { managed with mgt.load := [1, 2] } (fun t => t.fme.loading == some [1, 2, 3] && t.rd RSP_FORME_STS.STATE == 1) ∧
    gives (.formeLoad board false true [3]) (managed.wr RSP_FORME_STS.STATE 0 3) (fun t => t.out == [.pldm 9 .error ST.FORME_BUSY []]) ∧
    gives (.formeLoad board true true (List.replicate 1025 0)) managed (fun t => t.out == [.pldm 9 .invalidData 0 []]) ∧
    gives (.formeGo board) managed (fun t => t.out == [.pldm 9 .error 0 []] && t.flag RSP_FORME_STS.ERR) ∧
    gives (.formeCancel board) { managed.wr RSP_FORME_STS.STATE 0 2 with fme.staged := some {} } (fun t => t.out == [.pldm 9 .success 0 []] && t.fme.staged.isNone) := by
  decide +kernel

theorem test_fuses : gives (.ownerProg owner 1 1 5) managed (fun t => KMap.find? t.fus.owners 1 == some (1, 5) && t.flag (RSP_OWNER_STS.PROG 1)) ∧
    gives (.ownerProg board 1 1 5) { managed with fus := {} } (fun t => t.fus.owners == [(1, (1, 5))]) ∧
    gives (.ownerProg owner 0 1 5) managed (fun t => t.out == [.pldm 9 .notReady 0 []] && t.fus == managed.fus) ∧
    gives (.ownerProg board 1 1 5) (managed.wr RAS_NODE_STS.STATE 0 2) (fun t => t.fus == managed.fus) ∧
    gives (.ownerRevoke owner 0) managed (fun t => t.fus.revoked == 1 && t.flag (RSP_OWNER_STS.REVOKED 0)) ∧
    gives (.ownerRevoke board 0) managed (fun t => t.fus.revoked == 0) ∧
    gives (.svnCommit owner) (managed.wr RSP_FW_SVN.RUN 0 6) (fun t => t.fus.svn == 6) ∧ gives (.svnCommit board) (managed.wr RSP_FW_SVN.RUN 0 6) (fun t => t.fus.svn == 0) ∧
    gives (.debugUnlock owner 1) managed (fun t => t.rd MGT_STS.DEBUG_LVL == 1) ∧ gives (.debugUnlock owner 2) managed (fun t => t.rd MGT_STS.DEBUG_LVL == 0 && t.mgt.dbgNext == 2) := by
  decide +kernel

theorem test_pldm : gives (.pldmReset board (rstWord 3 0) []) managed (fun t => t.out == [.pldm 9 .success 0 []] && t.freeIx == 2) ∧
    gives (.pldmReset board 0 []) managed (fun t => t.out == [.pldm 9 .success 0 []] && t.freeIx == 1) ∧
    gives (.pldmWake board) (node [(PCM_STATE.NODE, 0, 3)]) (fun t => t.rd PCM_STATE.NODE == 4) ∧
    gives (.pldmKeep board) (managed.wr PCM_POL.KEEP_EN 0 1) (fun t => t.rd PCM_STATE.NODE == 3) ∧
    gives (.statusQuery board) (node [(RAS_NODE_STS.STATE, 0, 2)]) (fun t => (t.out.head?.any fun m => match m with
      | .pldm 9 .success 0 d => leAt d 8 4 == 2 ^ 31
      | _ => false)) := by
  decide +kernel

theorem test_flash :
    gives (.recoveryWrite board false 0 [1, 2]) (node [(RSP_BOOT_STS.FAIL, 0, 1)]) (fun t => t.mgt.flash == [(0, [1, 2])]) ∧
    gives (.recoveryWrite board true 3 [7]) { node [(RSP_BOOT_STS.FAIL, 0, 1)] with mgt.flash := [(2, [1, 2])] } (fun t => t.mgt.flash == [(2, [1, 2, 0xFF, 7])]) ∧
    gives (.recoveryWrite board false 0 [1, 2]) (node []) (fun t => t.mgt.flash.isEmpty) ∧
    gives (.recoveryWrite board false 0 [1, 2]) managed (fun t => t.out == [.pldm 9 .notReady 0 []]) ∧
    gives (.requestUpdate board) managed (fun t => t.mgt.updater == some 9 && t.rd MGT_STS.UPDATE == 1) ∧
    gives (.requestUpdate board) { managed with mgt.updater := some 8 } (fun t => t.out == [.pldm 9 .alreadyInUpdateMode 0 []]) ∧
    gives (.updateComponent board 1 [1] true) managed (fun t => t.out == [.pldm 9 .notInUpdateMode 0 []]) ∧
    gives (.updateComponent board 4 [1] true) { managed with mgt.updater := some 9 } (fun t => t.out == [.pldm 9 .invalidData 0 []]) ∧
    gives (.updateComponent board 3 [1] true) { managed with mgt.updater := some 9, mgt.flash := [(4, [5]), (5, [6])] } (fun t => t.mgt.flash == [(4, [5]), (5, [5])] &&
      t.mgt.updater.isNone && t.out == [.pldm 9 .verifyErrorImageIncomplete 0 []]) ∧
    gives (.mctpMessage board .cancelUpdate) { managed with mgt.updater := some 9 } (fun t => t.mgt.updater.isNone) := by
  decide +kernel

theorem test_events : gives (.setEventReceiver board 5) { managed with mgt.events := [{ sev := 2 }] } (fun t => t.out == [.eventMsg { sev := 2 }, .pldm 9 .success 0 []]) ∧
    gives (.eventAck board) { managed with mgt.receiver := 9, mgt.events := [{ sev := 2 }, { sev := 1 }] } (fun t => t.mgt.events == [{ sev := 1 }] && t.out == [.eventMsg { sev := 1 }]) ∧
    gives (.eventAck board) { managed with mgt.receiver := 8, mgt.events := [{ sev := 2 }] } (fun t => t.mgt.events.length == 1) ∧
    gives (.telReceiver board 5) managed (fun t => t.mgt.telTo == 5) ∧ gives (.telRead board) managed (fun t => t.out == [.pldm 9 .success 0 []]) := by
  decide +kernel

/-- A telemetry period of 1 ms with no identifiers, past due. -/
def measured (tel : Option TelRec) : State :=
  { managed with fme.active := { secs := [(256 * 14, [0, 0, 0, 0, 1, 0, 0, 0])] }, now := 1000000, mgt.tel := tel, mgt.telTo := 5 }

theorem test_telemetry : telPeriod (measured none) = 1 ∧ gives (.telemetryPeriod false) (measured none) (fun t => t.out.length == 1 && (t.mgt.tel.map (·.seq)) == some 1) ∧
    gives (.telemetryPeriod true) (measured (some {})) (fun t => t.mgt.telGap && t.rd MGT_TEL_SKIP_CNT.COUNT == 1 && t.out.isEmpty) ∧
    gives (.telemetryPeriod false) { measured none with now := 999999 } (fun t => t.mgt.tel.isNone) := by
  decide +kernel

/-- A node with access open: power is good, the root processor has started. -/
def openNode (l : List (Fld × Nat × Nat)) : State := { node ((RCH_INCARNATION.VALUE, 0, 0) :: l) with pcm.pwrGood := true }

/-- The answer to a register read. -/
def readGives (c : Instr) (off : Nat) (s : State) (v : Nat) : Bool :=
  gives c s fun t => t.out == [.regRead .pf off v] && t.regs == s.regs

/-- Addresses by the worked example of chapter 21, and the reach of a virtual function. -/
theorem test_register_windows : windowAt 0x292040 = some (.stk, 5, 0x40) ∧ windowAt 0x28500C = some (.cmp, 37, 0xC) ∧ reachAddr (.vf 5) 0x1010 = some 0x451010 ∧
    windowAt 0x451010 = some (.prt, 5, 0x1010) ∧ reachAddr (.vf 5) 0x10000 = none ∧ windowAt 0xF000 = none := by
  decide +kernel

theorem read_witness : Reaches (openNode []) .pf 0x8000 0x8000 ∧ Reaches (openNode []) (.vf 3) 0x1000 0x431000 ∧
    RegAt (openNode []) 0x8000 .time 0 0 0 true ∧ RegAt (openNode []) 0x8004 .time 0 4 0 true ∧ RegAt (openNode []) 0xB000 .pcm 0 0 0 false ∧
    windowAt 0xF000 = none ∧ (windowAt 0x200000 = some (.cmp, 0, 0) ∧ winBusy (openNode [(PCM_RST_STS.RBUSY, 0, 1)]) .cmp 0 = true) ∧
    (nodeHeld (openNode [(PCM_STATE.NODE, 0, 3)]) = false ∧ (openNode [(PCM_STATE.NODE, 0, 3)]).rd PCM_STATE.NODE = 3) ∧ canAccess .pf (node []) = false := by
  decide +kernel

/-- A 64-bit register: its low word latches the high word, which is read once; widths and unmapped offsets. -/
theorem test_reads : readGives (.lowWordRead .pf 0x8000 8) 0x8000 (openNode [(TIME_NOW.NS, 0, 0x1122334455667788)]) 0x1122334455667788 ∧
    readGives (.lowWordRead .pf 0x8000 4) 0x8000 (openNode [(TIME_NOW.NS, 0, 0x1122334455667788)]) 0x55667788 ∧
    gives (.lowWordRead .pf 0x8000 4) (openNode [(TIME_NOW.NS, 0, 0x1122334455667788)]) (fun t =>
      gives (.lowWordRead .pf 0x8004 4) (t.wr TIME_NOW.NS 0 0) (fun u => u.out.head? == some (.regRead .pf 0x8004 0x11223344) && u.latch == [])) ∧
    readGives (.lowWordRead .pf 0x8004 4) 0x8004 (openNode [(TIME_NOW.NS, 0, 0x1122334455667788)]) 0x11223344 ∧
    readGives (.lowWordRead .pf 0x8003 1) 0x8003 (openNode [(TIME_NOW.NS, 0, 0x1122334455667788)]) 0x55 ∧ readGives (.lowWordRead .pf 0x8006 2) 0x8006 (openNode [(TIME_NOW.NS, 0, 0x1122334455667788)]) 0x1122 ∧
    readGives (.lowWordRead .pf 0x8002 4) 0x8002 (openNode [(TIME_NOW.NS, 0, 7)]) 0 ∧ readGives (.lowWordRead .pf 0xF000 4) 0xF000 (openNode []) 0 ∧
    readGives (.lowWordRead .pf 0x200000 4) 0x200000 (openNode [(PCM_RST_STS.RBUSY, 0, 1)]) 0 ∧ gives (.lowWordRead .pf 0x8000 8) calm (fun t => t == calm) ∧
    gives (.lowWordRead .pf 0x8000 8) (openNode [(PCM_STATE.NODE, 0, 3)]) (fun t => t.rd PCM_STATE.NODE == 4 && t.out.length == 1) := by
  decide +kernel

theorem write_witness : (commandWrite .pf .tier 0 0x50 0 (openNode [])).isNone ∧ RegAt (openNode []) 0x5050 .tier 0 0x50 0x50 false ∧ actsBeyond .tier 0x50 = false ∧
    (commandWrite .pf .gut 0 0x8 5 (openNode [])).isNone ∧ Reaches (openNode []) .pf 0x4034 0x4034 ∧ Reaches (openNode []) .pf 0x292044 0x292044 ∧
    (fldOk RCH_CFG.EN 1 = true ∧ FLO_CFG.EN ∈ fieldsAt .flo 0) ∧
    (regionDozes (openNode [(PCM_STATE.DOZE, 0, 4)]) 2 = true ∧ windowAt 0x28500C = some (.cmp, 37, 0xC) ∧ winRegion .cmp 37 = some 2 ∧
      winBusy (openNode [(PCM_STATE.DOZE, 0, 4)]) .cmp 37 = false) := by
  decide +kernel

/-- Each type of field; a violation by the host; what is discarded; command registers and doorbells. -/
theorem test_writes : gives (.registerWrite .pf 0x5050 4 0x80402010) (openNode []) (fun t => t.rd TIER_SPILL_CFG.HI == 0x40 && t.rd TIER_SPILL_CFG.EN == 1) ∧
    gives (.registerWrite .pf 0x5050 4 0x80102030) (openNode []) (fun t => t.rd TIER_SPILL_CFG.HI == 0x30 && t.rd TIER_SPILL_CFG.EN == 1) ∧
    gives (.registerWrite .pf 0x4058 4 0x80000010) (openNode []) (fun t => t.rd REAM_ACCT_CFG.SIZE_LOG2 == 16 && t.rd REAM_ACCT_CFG.EN == 1) ∧
    gives (.registerWrite .pf 0x4058 4 0x80000006) (openNode [(REAM_ACCT_CFG.EN, 0, 1)]) (fun t => t.rd REAM_ACCT_CFG.SIZE_LOG2 == 12) ∧
    gives (.registerWrite .pf 0xA0A4 4 0x8) ((openNode [(RSP_ALARM_STS.SRC, 0, 0x18)])) (fun t => t.rd RSP_ALARM_STS.SRC == 0x10) ∧
    gives (.registerWrite .pf 0x6000 4 0) (openNode [(RCH_CFG.EN, 0, 1)]) (fun t => t.rd RSP_QUOIN_VIOL_CNT.COUNT == 1 && t.rd RCH_CFG.EN == 1 && t.rd RSP_QUOIN_VIOL_LOG.ADDR == 0x6000) ∧
    gives (.registerWrite .mgt 0x5050 4 0x80302010) (openNode [(MGT_STS.READY, 0, 1)]) (fun t => t == openNode [(MGT_STS.READY, 0, 1)]) ∧
    gives (.registerWrite .pf 0x5050 2 0x80) (openNode []) (fun t => t == openNode []) ∧ gives (.registerWrite .pf 0xF000 4 1) (openNode []) (fun t => t == openNode []) ∧
    gives (.registerWrite .pf 0xA0AC 4 0x83) (openNode []) (fun t => t.rd RSP_ALARM_LOG.SRC == 3 && t.rd RSP_ALARM_STS.SRC == 8) ∧
    gives (.registerWrite (.vf 2) 0x1010 4 1) (openNode []) (fun t => gives (.sqDoorbell 2 2 1) (openNode []) (fun u => t == u)) ∧
    gives (.registerWrite .pf 0x28500C 4 0) (openNode [(PCM_STATE.DOZE, 0, 4)]) (fun t => !regionDozes t 2) := by
  decide +kernel

end Sys2Proof.Tests
end

section
/-!
PROOFS. The register space as a write meets it (R6, R401, R465–R472). First the bits of a word as Nat.testBit sees
them, then the register map, then what one field does, what all the fields of a register do, and which accesses get there.
-/
namespace Sys2Proof.Machine

/-! Bits. -/

theorem bitOf_eq_testBit (w i : Nat) : bitOf w i = w.testBit i := by
  simp [bitOf, bits, Nat.testBit_eq_decide_div_mod_eq]

theorem testBit_bits (w lo wd j : Nat) : (bits w lo wd).testBit j = (decide (j < wd) && w.testBit (lo + j)) := by
  simp [bits, Nat.testBit_mod_two_pow, Nat.testBit_div_two_pow, Nat.add_comm]

theorem bits_lt (w lo wd : Nat) : bits w lo wd < 2 ^ wd := Nat.mod_lt _ (Nat.two_pow_pos wd)

/-- Numbers of `n` bits are equal when their bits are. -/
theorem eq_of_testBit_below {x y n : Nat} (hx : x < 2 ^ n) (hy : y < 2 ^ n) (h : ∀ j < n, x.testBit j = y.testBit j) : x = y := by
  refine Nat.eq_of_testBit_eq fun j => ?_
  by_cases hj : j < n
  · exact h j hj
  · have hle : 2 ^ n ≤ 2 ^ j := Nat.pow_le_pow_right (by omega) (by omega)
    rw [Nat.testBit_lt_two_pow (by omega), Nat.testBit_lt_two_pow (by omega)]

theorem ne_iff_testBit_below {x y n : Nat} (hx : x < 2 ^ n) (hy : y < 2 ^ n) : x ≠ y ↔ ∃ j < n, x.testBit j ≠ y.testBit j := by
  constructor
  · intro h
    by_contra hn
    exact h (eq_of_testBit_below hx hy fun j hj => by_contra fun hne => hn ⟨j, hj, hne⟩)
  · rintro ⟨j, -, hj⟩ rfl
    exact hj rfl

theorem allOnes_iff {x n : Nat} (hx : x < 2 ^ n) : x = 2 ^ n - 1 ↔ ∀ j < n, x.testBit j = true := by
  constructor
  · rintro rfl j hj
    simpa using hj
  · intro h
    exact eq_of_testBit_below hx (by have := Nat.two_pow_pos n; omega) fun j hj => by simp [h j hj, hj]

/-- The bits of `old`, and those of `new` where `mask` has a bit. -/
def merged (old new mask n : Nat) : Nat := (old &&& ((2 ^ n - 1) ^^^ mask)) ||| (new &&& mask)

theorem merged_lt {mask n : Nat} (old new : Nat) (hm : mask < 2 ^ n) : merged old new mask n < 2 ^ n := by
  have hone : 2 ^ n - 1 < 2 ^ n := by have := Nat.two_pow_pos n; omega
  exact Nat.or_lt_two_pow (Nat.and_lt_two_pow _ (Nat.xor_lt_two_pow hone hm)) (Nat.and_lt_two_pow _ hm)

theorem testBit_merged (old new mask : Nat) {n j : Nat} (hj : j < n) :
    (merged old new mask n).testBit j = if mask.testBit j then new.testBit j else old.testBit j := by
  by_cases h : mask.testBit j <;> simp [merged, hj, h]

theorem andNot_lt (w m n : Nat) : andNot w m n < 2 ^ n := by
  have hone : 2 ^ n - 1 < 2 ^ n := by have := Nat.two_pow_pos n; omega
  exact Nat.and_lt_two_pow _ (Nat.xor_lt_two_pow hone (Nat.mod_lt _ (Nat.two_pow_pos n)))

theorem testBit_andNot (w m : Nat) {n j : Nat} (hj : j < n) : (andNot w m n).testBit j = (w.testBit j && !m.testBit j) := by
  simp [andNot, hj]

/-! The written word. -/

/-- The register as a write of `len` bytes at `o` gives it, in a register that stands at `base`. -/
def writtenWord (base o len value : Nat) : Nat := value % 2 ^ (8 * len) * 2 ^ (8 * (o - base))

/-- The bits of that register that the write covers. -/
def writtenMask (base o len : Nat) : Nat := (2 ^ (8 * len) - 1) * 2 ^ (8 * (o - base))

theorem testBit_writtenMask (base o len j : Nat) : (writtenMask base o len).testBit j = decide (Covers base o len j) := by
  rw [writtenMask, Nat.testBit_mul_two_pow, Nat.testBit_two_pow_sub_one, Bool.eq_iff_iff]
  simp only [Bool.and_eq_true, decide_eq_true_eq]
  omega

theorem testBit_writtenWord (base o len value j : Nat) :
    (writtenWord base o len value).testBit j = (decide (Covers base o len j) && value.testBit (j - 8 * (o - base))) := by
  rw [writtenWord, Nat.testBit_mul_two_pow, Nat.testBit_mod_two_pow, ← Bool.and_assoc]
  congr 1
  rw [Bool.eq_iff_iff]
  simp only [Bool.and_eq_true, decide_eq_true_eq]
  omega

/-- The bits of a field that a write covers. -/
theorem testBit_fieldMask (base o len : Nat) {lo wd j : Nat} (hj : j < wd) :
    (bits (writtenMask base o len) lo wd).testBit j = decide (Covers base o len (lo + j)) := by
  rw [testBit_bits, testBit_writtenMask, decide_eq_true hj, Bool.true_and]

/-- What a write gives a field, bit by bit. -/
theorem testBit_fieldWord (base o len value : Nat) {lo wd j : Nat} (hj : j < wd) :
    (bits (writtenWord base o len value) lo wd).testBit j =
      (decide (Covers base o len (lo + j)) && value.testBit (lo + j - 8 * (o - base))) := by
  rw [testBit_bits, testBit_writtenWord, decide_eq_true hj, Bool.true_and]

/-- Whether a write covers some bit of a field. -/
theorem fieldMask_eq_zero_iff (base o len lo wd : Nat) :
    bits (writtenMask base o len) lo wd = 0 ↔ ∀ j < wd, ¬ Covers base o len (lo + j) := by
  constructor
  · intro h j hj hc
    have hb := testBit_fieldMask base o len (lo := lo) hj
    rw [h, Nat.zero_testBit] at hb
    exact absurd hc (of_decide_eq_false hb.symm)
  · intro h
    refine eq_of_testBit_below (bits_lt ..) (Nat.two_pow_pos wd) fun j hj => ?_
    rw [testBit_fieldMask base o len hj, Nat.zero_testBit]
    exact decide_eq_false (h j hj)

/-! The register map. -/

/-- The fields of the big tables that cover the word at an offset, which `fieldsAt` finds by arithmetic. -/
def tableFields : Win → Nat → List Fld
  | .fab, off =>
    if 0x20000 ≤ off ∧ off < 0x40000 then [FAB_RT_SHADOW.ENTRY ((off - 0x20000) / 2), FAB_RT_SHADOW.ENTRY ((off - 0x20000) / 2 + 1)]
    else if 0x40000 ≤ off ∧ off < 0x60000 then [FAB_RT_ACTIVE.ENTRY ((off - 0x40000) / 2), FAB_RT_ACTIVE.ENTRY ((off - 0x40000) / 2 + 1)]
    else if 0x400 ≤ off ∧ off < 0x800 then [FAB_GCL_ADMIN.ENTRY ((off - 0x400) / 4)]
    else if 0x800 ≤ off ∧ off < 0xC00 then [FAB_GCL_OPER.ENTRY ((off - 0x800) / 4)]
    else []
  | .col, off => if 0x400 ≤ off ∧ off < 0x640 then [COL_SIG_STAGE.DATA ((off - 0x400) / 4)] else []
  | .mgt, off => if 0x1000 ≤ off ∧ off < 0x1820 then [MGT_TEL_BUF.DATA ((off - 0x1000) / 4)] else []
  | _, _ => []

theorem fieldsAt_eq (w : Win) (off : Nat) : fieldsAt w off =
    ((windowFields w).filter fun f => f.off = off ∨ (f.off + 4 = off ∧ 32 < f.lo + f.wd)) ++ tableFields w off := by
  cases w <;> rfl

theorem mem_fieldsAt {w : Win} {off : Nat} {f : Fld} (h : f ∈ fieldsAt w off) :
    (f ∈ windowFields w ∧ (f.off = off ∨ (f.off + 4 = off ∧ 32 < f.lo + f.wd))) ∨ f ∈ tableFields w off := by
  rw [fieldsAt_eq, List.mem_append, List.mem_filter] at h
  simpa using h

/-- The entries of the big tables of a window. -/
abbrev TableEntry (w : Win) (f : Fld) (k : Nat) : Prop :=
  (w = .fab ∧ (f = FAB_RT_SHADOW.ENTRY k ∨ f = FAB_RT_ACTIVE.ENTRY k ∨ f = FAB_GCL_ADMIN.ENTRY k ∨ f = FAB_GCL_OPER.ENTRY k)) ∨
  (w = .col ∧ f = COL_SIG_STAGE.DATA k) ∨ (w = .mgt ∧ f = MGT_TEL_BUF.DATA k)

theorem tableEntry_of_mem {w : Win} {off : Nat} {f : Fld} (h : f ∈ tableFields w off) : ∃ k, TableEntry w f k := by
  cases w <;> simp only [tableFields] at h <;> grind

/-- A field of a big table names its window, lies above the window's registers, has bits, and is no flag. -/
theorem mem_tableFields {w : Win} {off : Nat} {f : Fld} (h : f ∈ tableFields w off) :
    f.win = w ∧ (w = .fab ∨ w = .col ∨ w = .mgt) ∧ 0x400 ≤ f.off ∧ 0 < f.wd ∧ f.ty ≠ .w1c := by
  obtain ⟨k, ⟨rfl, rfl | rfl | rfl | rfl⟩ | ⟨rfl, rfl⟩ | ⟨rfl, rfl⟩⟩ := tableEntry_of_mem h
  all_goals exact ⟨rfl, by decide, Nat.le_add_right_of_le (by decide), Nat.zero_lt_succ _, nofun⟩

/-! What the register tables of the spec keep to. -/

theorem windowFields_win (w : Win) : ∀ f ∈ windowFields w, f.win = w := by
  cases w <;> decide +kernel

/-- Fields of one register have their instances picked alike, and stand at different places. -/
theorem windowFields_apart (w : Win) : (windowFields w).Pairwise fun f g => f.off = g.off → f.sel = g.sel ∧ f.lo ≠ g.lo := by
  cases w <;> decide +kernel

theorem windowFields_wd_pos (w : Win) : ∀ f ∈ windowFields w, 0 < f.wd := by
  cases w <;> decide +kernel

/-- A register with a W1C flag has 32 bits. -/
theorem windowFields_w1c_narrow (w : Win) :
    ∀ f ∈ windowFields w, f.ty = .w1c → ∀ g ∈ windowFields w, g.off = f.off → g.lo + g.wd ≤ 32 := by
  cases w <;> decide +kernel

/-- The registers of a window with a big table lie below it. -/
theorem windowFields_below_table {w : Win} (h : w = .fab ∨ w = .col ∨ w = .mgt) : ∀ f ∈ windowFields w, f.off < 0x400 := by
  rcases h with rfl | rfl | rfl <;> decide +kernel

/-- FLO_CFG has 32 bits. -/
theorem floCfg_narrow : ∀ f ∈ windowFields .flo, f.off = 0 → f.lo + f.wd ≤ 32 := by
  decide +kernel

/-! The fields of one register. -/

/-- Fields that stand apart: of one window, and in one register their instances are picked alike and their places differ. -/
abbrev Apart (f g : Fld) : Prop := f.win = g.win ∧ (f.off = g.off → f.sel = g.sel ∧ f.lo ≠ g.lo)

theorem Apart.key_ne {f g : Fld} (h : Apart f g) (ho : f.off = g.off) (s : State) (who unit : Nat) :
    f.key (instOf s who unit f) ≠ g.key (instOf s who unit g) := by
  obtain ⟨hw, h⟩ := h
  obtain ⟨hs, hl⟩ := h ho
  have hi : instOf s who unit f = instOf s who unit g := by simp only [instOf, hs]
  rw [hi, Fld.key, Fld.key, hw, ho]
  omega

/-- Neighbors in a routing table stand in different halves of a word. -/
theorem routeEntries_apart {F : Nat → Fld} (h : F = FAB_RT_SHADOW.ENTRY ∨ F = FAB_RT_ACTIVE.ENTRY) (n : Nat) :
    [F n, F (n + 1)].Pairwise Apart := by
  have half : 0 + 16 * (n % 2) ≠ 0 + 16 * ((n + 1) % 2) := by omega
  rcases h with rfl | rfl <;> exact List.pairwise_pair.2 ⟨rfl, fun _ => ⟨rfl, half⟩⟩

theorem tableFields_apart (w : Win) (off : Nat) : (tableFields w off).Pairwise Apart := by
  cases w with
  | fab =>
    simp only [tableFields]
    split_ifs
    · exact routeEntries_apart (.inl rfl) _
    · exact routeEntries_apart (.inr rfl) _
    · exact List.pairwise_singleton ..
    · exact List.pairwise_singleton ..
    · exact .nil
  | col => simp only [tableFields]; split_ifs <;> simp
  | mgt => simp only [tableFields]; split_ifs <;> simp
  | _ => exact .nil

theorem fieldsAt_apart (w : Win) (off : Nat) : (fieldsAt w off).Pairwise Apart := by
  rw [fieldsAt_eq, List.pairwise_append]
  refine ⟨.filter _ ((windowFields_apart w).imp_of_mem fun hf hg h => ⟨?_, h⟩), tableFields_apart w off, fun f hf g hg => ?_⟩
  · rw [windowFields_win w _ hf, windowFields_win w _ hg]
  · have hf := (List.mem_filter.1 hf).1
    obtain ⟨hw, ht, hlo, -, -⟩ := mem_tableFields hg
    have hb := windowFields_below_table ht f hf
    exact ⟨by rw [hw, windowFields_win w f hf], fun he => by omega⟩

/-- The fields of the register that stands at an offset. -/
def regFieldsAt (w : Win) (base : Nat) : List Fld := (fieldsAt w base).filter fun f => f.off = base

theorem off_of_mem_regFieldsAt {w : Win} {base : Nat} {f : Fld} (h : f ∈ regFieldsAt w base) : f.off = base := by
  simpa using (List.mem_filter.1 h).2

theorem wd_pos_of_mem_regFieldsAt {w : Win} {base : Nat} {f : Fld} (h : f ∈ regFieldsAt w base) : 0 < f.wd := by
  rcases mem_fieldsAt (List.mem_filter.1 h).1 with ⟨hf, -⟩ | hf
  · exact windowFields_wd_pos w f hf
  · obtain ⟨-, -, -, hw, -⟩ := mem_tableFields hf
    exact hw

/-- Different fields of a register have different keys, whatever the instances that an access meets. -/
theorem regFieldsAt_keys (s : State) (who unit : Nat) (w : Win) (base : Nat) :
    (regFieldsAt w base).Pairwise fun f g => f.key (instOf s who unit f) ≠ g.key (instOf s who unit g) :=
  ((fieldsAt_apart w base).filter _).imp_of_mem fun hf hg h =>
    h.key_ne ((off_of_mem_regFieldsAt hf).trans (off_of_mem_regFieldsAt hg).symm) s who unit

theorem foldl_min_mem (l : List Nat) (a : Nat) : l.foldl min a = a ∨ l.foldl min a ∈ l := by
  induction l generalizing a with
  | nil => exact .inl rfl
  | cons x r ih =>
    rw [List.foldl_cons]
    rcases ih (min a x) with h | h
    · rcases Nat.le_total a x with hx | hx
      · exact .inl (h.trans (Nat.min_eq_left hx))
      · exact .inr (by rw [h, Nat.min_eq_right hx]; exact List.mem_cons_self ..)
    · exact .inr (List.mem_cons_of_mem _ h)

/-- The offset at which a register stands is the word's own, or that of one of the fields that cover the word. -/
theorem regAt_base {w : Win} {o base : Nat} {wide : Bool} (h : regAt w o = some (base, wide)) :
    base = o ∨ ∃ f ∈ fieldsAt w o, f.off = base := by
  unfold regAt at h
  split at h
  · cases h
  · obtain ⟨rfl, -⟩ := Prod.mk.inj (Option.some.inj h)
    rcases foldl_min_mem ((fieldsAt w o).map (·.off)) o with h | h
    · exact .inl h
    · exact .inr (List.mem_map.1 h)

/-- A register that is not met at its own word has a field beyond bit 31, or belongs to a big table. -/
theorem wide_of_regAt {w : Win} {o base : Nat} {wide : Bool} (h : regAt w o = some (base, wide)) (ho : o ≠ base) :
    (∃ f ∈ windowFields w, f.off = base ∧ 32 < f.lo + f.wd) ∨ ((w = .fab ∨ w = .col ∨ w = .mgt) ∧ 0x400 ≤ base) := by
  rcases regAt_base h with h | ⟨f, hf, rfl⟩
  · exact absurd h.symm ho
  · rcases mem_fieldsAt hf with ⟨hf, h | ⟨-, hw⟩⟩ | hf
    · exact absurd h.symm ho
    · exact .inl ⟨f, hf, rfl, hw⟩
    · obtain ⟨-, hw, hlo, -, -⟩ := mem_tableFields hf
      exact .inr ⟨hw, hlo⟩

/-- A write to FLO_CFG meets it at its own word. -/
theorem floCfg_word {o : Nat} {wide : Bool} (h : regAt .flo o = some (0, wide)) : o = 0 := by
  by_contra ho
  rcases wide_of_regAt h ho with ⟨f, hf, h0, hw⟩ | ⟨hw, -⟩
  · have := floCfg_narrow f hf h0
    omega
  · simp at hw

theorem mem_regFieldsAt_flo {f : Fld} (h : f ∈ regFieldsAt .flo 0) : f.lo + f.wd ≤ 32 := by
  rcases mem_fieldsAt (List.mem_filter.1 h).1 with ⟨hf, -⟩ | hf
  · exact floCfg_narrow f hf (off_of_mem_regFieldsAt h)
  · exact absurd hf List.not_mem_nil

/-- A write of a whole word covers every bit of a W1C flag. -/
theorem w1c_covered {w : Win} {o base len : Nat} {wide : Bool} {f : Fld} (h : regAt w o = some (base, wide)) (hlen : 4 ≤ len)
    (hf : f ∈ regFieldsAt w base) (ht : f.ty = .w1c) : ∀ j < f.wd, Covers base o len (f.lo + j) := by
  have hoff := off_of_mem_regFieldsAt hf
  rcases mem_fieldsAt (List.mem_filter.1 hf).1 with ⟨hf, -⟩ | hf
  · have hnarrow := windowFields_w1c_narrow w f hf ht
    have ho : o = base := by
      by_contra ho
      rcases wide_of_regAt h ho with ⟨g, hg, hgo, hw⟩ | ⟨hw, hlo⟩
      · have := hnarrow g hg (hgo.trans hoff.symm)
        omega
      · have := windowFields_below_table hw f hf
        omega
    have := hnarrow f hf rfl
    exact fun j hj => by constructor <;> omega
  · obtain ⟨-, -, -, -, hn⟩ := mem_tableFields hf
    exact absurd ht hn

/-! What a write does to one field (R6, R469). -/

/-- What a field holds after a write: `v` is the register as written, `m` says which of its bits the write covers. -/
def fieldNext (v m : Nat) (f : Fld) (old : Nat) : Nat :=
  let mine := bits m f.lo f.wd
  let new := merged old (bits v f.lo f.wd) mine f.wd
  match f.ty with
  | .rw => if mine = 0 ∨ ¬ fldOk f new ∨ pairBad f v then old else new
  | .w1c => andNot old (bits v f.lo f.wd &&& mine) f.wd
  | .w1cCount => if mine = 2 ^ f.wd - 1 ∧ bits v f.lo f.wd = 2 ^ f.wd - 1 then 0 else old
  | _ => old

theorem rd_fieldWrite_self (v m i : Nat) (f : Fld) (s : State) : (fieldWrite v m i f s).rd f i = fieldNext v m f (s.rd f i) := by
  have hnew : merged (s.rd f i) (bits v f.lo f.wd) (bits m f.lo f.wd) f.wd < 2 ^ f.wd := merged_lt _ _ (bits_lt ..)
  unfold fieldWrite fieldNext
  cases f.ty with
  | rw =>
    dsimp only
    rw [← merged]
    split
    · rfl
    · rw [rd_wr_self, Nat.mod_eq_of_lt hnew]
  | w1c => exact (rd_wr_self ..).trans (Nat.mod_eq_of_lt (andNot_lt ..))
  | w1cCount =>
    dsimp only
    split
    · rw [rd_wr_self, Nat.zero_mod]
    · rfl
  | _ => rfl

/-- A write to a field leaves the state, or writes the field. -/
theorem fieldWrite_cases (v m i : Nat) (f : Fld) (s : State) :
    fieldWrite v m i f s = s ∨ ∃ x, fieldWrite v m i f s = s.wr f i x := by
  unfold fieldWrite
  cases f.ty with
  | rw =>
    dsimp only
    split
    · exact .inl rfl
    · exact .inr ⟨_, rfl⟩
  | w1c => exact .inr ⟨_, rfl⟩
  | w1cCount =>
    dsimp only
    split
    · exact .inr ⟨_, rfl⟩
    · exact .inl rfl
  | _ => exact .inl rfl

theorem fieldWrite_regsOnly (v m i : Nat) (f : Fld) (s : State) : RegsOnly s (fieldWrite v m i f s) [f.key i] := by
  rcases fieldWrite_cases v m i f s with h | ⟨x, h⟩ <;> rw [h]
  · exact (RegsOnly.refl s).mono (List.nil_subset _)
  · exact .wr s f i x

theorem RegsOnly.trans {s t u : State} {ks ls : List Nat} (h : RegsOnly s t ks) (g : RegsOnly t u ls) : RegsOnly s u (ks ++ ls) :=
  ⟨regs_after h.1 g.1, h.2.trans g.2⟩

theorem RegsOnly.rd {s t : State} {ks : List Nat} (h : RegsOnly s t ks) (f : Fld) (i : Nat) (hk : f.key i ∉ ks) : t.rd f i = s.rd f i :=
  SameRegs.rd h.2 f i hk

/-! What a write does to the fields of a register, each by its type. -/

section
variable (v m : Nat) (inst : Fld → Nat)

theorem fieldWrites_regsOnly (l : List Fld) (s : State) :
    RegsOnly s (l.foldl (fun s f => fieldWrite v m (inst f) f s) s) (l.map fun f => f.key (inst f)) := by
  induction l generalizing s with
  | nil => exact .refl s
  | cons f r ih => exact (fieldWrite_regsOnly v m (inst f) f s).trans (ih _)

/-- Fields of different keys are written independently. -/
theorem rd_fieldWrites {l : List Fld} (hl : l.Pairwise fun f g => f.key (inst f) ≠ g.key (inst g)) {f : Fld} (hf : f ∈ l) (s : State) :
    (l.foldl (fun s f => fieldWrite v m (inst f) f s) s).rd f (inst f) = fieldNext v m f (s.rd f (inst f)) := by
  induction l generalizing s with
  | nil => exact absurd hf List.not_mem_nil
  | cons g r ih =>
    obtain ⟨hg, hr⟩ := List.pairwise_cons.1 hl
    rw [List.foldl_cons]
    rcases List.mem_cons.1 hf with rfl | hf
    · rw [(fieldWrites_regsOnly v m inst r _).rd f (inst f) ?_, rd_fieldWrite_self]
      rintro hk
      obtain ⟨g, hgr, he⟩ := List.mem_map.1 hk
      exact hg g hgr he.symm
    · have hne : f.key (inst f) ∉ [g.key (inst g)] := by simpa using (hg f hf).symm
      rw [ih hr hf, (fieldWrite_regsOnly v m (inst g) g s).rd f (inst f) hne]

/-- A field that takes no write keeps its value. -/
theorem rd_fieldWrites_filtered {l : List Fld} (hl : l.Pairwise fun f g => f.key (inst f) ≠ g.key (inst g)) {f : Fld} (hf : f ∈ l)
    (p : Fld → Bool) (s : State) :
    ((l.filter p).foldl (fun s f => fieldWrite v m (inst f) f s) s).rd f (inst f) =
      if p f then fieldNext v m f (s.rd f (inst f)) else s.rd f (inst f) := by
  split
  next hp => exact rd_fieldWrites v m inst (hl.filter p) (List.mem_filter.2 ⟨hf, hp⟩) s
  next hp =>
    refine (fieldWrites_regsOnly v m inst (l.filter p) s).rd f (inst f) fun hk => ?_
    obtain ⟨g, hg, he⟩ := List.mem_map.1 hk
    obtain ⟨hgl, hgp⟩ := List.mem_filter.1 hg
    have hsymm : Std.Symm fun f g : Fld => f.key (inst f) ≠ g.key (inst g) := ⟨fun _ _ h => h.symm⟩
    exact hl.forall hf hgl (fun h => hp (h ▸ hgp)) he.symm

end

/-! A field's next value, bit by bit. -/

section
variable (base o len value : Nat) (f : Fld) (old : Nat)

/-- What an RW field takes from a write that covers it at least partly. -/
def fieldMixed : Nat :=
  merged old (bits (writtenWord base o len value) f.lo f.wd) (bits (writtenMask base o len) f.lo f.wd) f.wd

theorem fieldMixed_mixed : Mixed f base o len value old (fieldMixed base o len value f old) := by
  refine ⟨merged_lt _ _ (bits_lt ..), fun j hj => ?_⟩
  rw [bitOf_eq_testBit, fieldMixed, testBit_merged _ _ _ hj, testBit_fieldMask base o len hj, testBit_fieldWord base o len value hj,
    bitOf_eq_testBit, bitOf_eq_testBit]
  by_cases h : Covers base o len (f.lo + j) <;> simp [h]

theorem fieldNext_rw (ht : f.ty = .rw) (hc : ∃ j < f.wd, Covers base o len (f.lo + j)) :
    fieldNext (writtenWord base o len value) (writtenMask base o len) f old =
      if fldOk f (fieldMixed base o len value f old) = true ∧ pairBad f (writtenWord base o len value) = false then
        fieldMixed base o len value f old else old := by
  have hm : ¬ bits (writtenMask base o len) f.lo f.wd = 0 := by
    rw [fieldMask_eq_zero_iff]
    obtain ⟨j, hj, hc⟩ := hc
    exact fun h => h j hj hc
  simp only [fieldNext, ht]
  rw [← fieldMixed]
  cases fldOk f (fieldMixed base o len value f old) <;> cases pairBad f (writtenWord base o len value) <;> simp [hm]

theorem fieldNext_w1c (ht : f.ty = .w1c) {j : Nat} (hj : j < f.wd) :
    bitOf (fieldNext (writtenWord base o len value) (writtenMask base o len) f old) j =
      (bitOf old j && !(decide (Covers base o len (f.lo + j)) && bitOf value (f.lo + j - 8 * (o - base)))) := by
  simp only [fieldNext, ht, bitOf_eq_testBit]
  rw [testBit_andNot _ _ hj, Nat.testBit_and, testBit_fieldWord base o len value hj, testBit_fieldMask base o len hj]
  by_cases h : Covers base o len (f.lo + j) <;> simp [h]

theorem fieldNext_w1cCount (ht : f.ty = .w1cCount) :
    fieldNext (writtenWord base o len value) (writtenMask base o len) f old =
      if ∀ j < f.wd, Covers base o len (f.lo + j) ∧ bitOf value (f.lo + j - 8 * (o - base)) = true then 0 else old := by
  simp only [fieldNext, ht]
  congr 1
  rw [allOnes_iff (bits_lt ..), allOnes_iff (bits_lt ..), eq_iff_iff]
  constructor
  · rintro ⟨hm, hv⟩ j hj
    have hb := hv j hj
    rw [testBit_fieldWord base o len value hj, Bool.and_eq_true, decide_eq_true_eq] at hb
    exact ⟨hb.1, (bitOf_eq_testBit ..).trans hb.2⟩
  · intro h
    refine ⟨fun j hj => ?_, fun j hj => ?_⟩
    · rw [testBit_fieldMask base o len hj]
      exact decide_eq_true (h j hj).1
    · rw [testBit_fieldWord base o len value hj, ← bitOf_eq_testBit, (h j hj).2, Bool.and_true]
      exact decide_eq_true (h j hj).1

theorem fieldNext_readonly (v m : Nat) (ht : f.ty = .ro ∨ f.ty = .rwl ∨ f.ty = .wo) : fieldNext v m f old = old := by
  rcases ht with ht | ht | ht <;> simp only [fieldNext, ht]

/-- A field with no covered bit keeps its value; a W1C flag is covered by every write (`w1c_covered`). -/
theorem fieldNext_uncovered (hw : 0 < f.wd) (ht : f.ty ≠ .w1c) (hc : ∀ j < f.wd, ¬ Covers base o len (f.lo + j)) :
    fieldNext (writtenWord base o len value) (writtenMask base o len) f old = old := by
  have hm := (fieldMask_eq_zero_iff base o len f.lo f.wd).2 hc
  unfold fieldNext
  cases hty : f.ty with
  | rw => simp [hm]
  | w1c => exact absurd hty ht
  | w1cCount =>
    have hone : (0 : Nat) ≠ 2 ^ f.wd - 1 := by
      have := Nat.one_lt_two_pow (n := f.wd) (by omega)
      omega
    simp [hm, hone]
  | _ => rfl

/-- A write would change an RWL field when a bit that it covers differs (R401). -/
theorem quoinHit_iff (i : Nat) (s : State) :
    quoinHit (writtenWord base o len value) (writtenMask base o len) i f s = true ↔
      f.ty = .rwl ∧ ∃ j < f.wd, Covers base o len (f.lo + j) ∧ bitOf value (f.lo + j - 8 * (o - base)) ≠ bitOf (s.rd f i) j := by
  simp only [quoinHit, Bool.and_eq_true, beq_iff_eq, decide_eq_true_eq]
  refine and_congr_right fun _ => ?_
  rw [ne_iff_testBit_below (Nat.and_lt_two_pow _ (bits_lt ..)) (Nat.and_lt_two_pow _ (bits_lt ..))]
  refine exists_congr fun j => and_congr_right fun hj => ?_
  rw [Nat.testBit_and, Nat.testBit_and, testBit_fieldMask base o len hj, testBit_fieldWord base o len value hj, bitOf_eq_testBit, bitOf_eq_testBit]
  by_cases h : Covers base o len (f.lo + j)
  · rw [decide_eq_true h, Bool.and_true, Bool.true_and, Bool.and_true]
    exact ⟨fun hne => ⟨h, hne.symm⟩, fun hne => hne.2.symm⟩
  · rw [decide_eq_false h]
    simp only [Bool.and_false, ne_eq, not_true_eq_false, h, false_and]

end

/-! What a write does to a register. -/

/-- The state once a violation of the lock has been counted, logged and reported, if there is one (R401). -/
def quoinChecked (who : Requester) (a : Nat) (w : Win) (unit base o len value : Nat) (s : State) : State :=
  if who ≠ .rsp ∧ ((regFieldsAt w base).any fun f =>
    quoinHit (writtenWord base o len value) (writtenMask base o len) (instOf s (whoIx who) unit f) f s) then quoinViolation a s else s

/-- The fields of a register, written in order, but for those that are locked. -/
def fieldsWritten (who : Requester) (w : Win) (unit base o len value : Nat) (s t : State) : State :=
  ((regFieldsAt w base).filter fun f => f.ty != .rw || !fieldLocked f (instOf s (whoIx who) unit f) s).foldl
    (fun u f => fieldWrite (writtenWord base o len value) (writtenMask base o len) (instOf s (whoIx who) unit f) f u) t

theorem beforeWrite_eq_self {w : Win} {base : Nat} (h : actsBeyond w base = false) (i : Nat) (s : State) : beforeWrite w base i s = s := by
  cases w <;> simp_all [beforeWrite, actsBeyond]

theorem afterWrite_eq_self {w : Win} {base : Nat} (h : actsBeyond w base = false) (unit i v m : Nat) (s : State) :
    afterWrite w unit base i v m s = s := by
  cases w <;> simp_all [afterWrite, actsBeyond]

section
variable {who : Requester} {a : Nat} {w : Win} {unit o len value : Nat} {s : State}

theorem regWrite_reserved (h : regAt w o = none) : regWrite who a w unit o len value s = s := by
  simp only [regWrite, h]

variable {base : Nat} {wide : Bool} (hreg : regAt w o = some (base, wide))
include hreg

theorem regWrite_misfit (h8 : len = 8) (hw : wide = false ∨ o ≠ base) : regWrite who a w unit o len value s = s := by
  have hmis : len = 8 ∧ ¬ (wide = true ∧ o = base) :=
    ⟨h8, fun ⟨ht, ho⟩ => hw.elim (fun hf => Bool.false_ne_true (hf.symm.trans ht)) fun hne => hne ho⟩
  simp only [regWrite, hreg, if_pos hmis]

theorem regWrite_command (h8 : len = 8 → wide = true ∧ o = base) {t : State}
    (hcmd : commandWrite who w unit o (value % 2 ^ 32) s = some t) : regWrite who a w unit o len value s = t := by
  have hfit : ¬ (len = 8 ∧ ¬ (wide = true ∧ o = base)) := fun h => h.2 (h8 h.1)
  simp only [regWrite, hreg, if_neg hfit, hcmd]

/-- A register that starts no command and acts on nothing beyond its fields. -/
theorem regWrite_fields (h8 : len = 8 → wide = true ∧ o = base) (hcmd : commandWrite who w unit o (value % 2 ^ 32) s = none)
    (hact : actsBeyond w base = false) :
    regWrite who a w unit o len value s =
      if w = .flo ∧ base = 0 ∧ ¬ ((regFieldsAt w base).all fun f => fldOk f (bits (writtenWord base o len value) f.lo f.wd)) then
        quoinChecked who a w unit base o len value s
      else fieldsWritten who w unit base o len value s (quoinChecked who a w unit base o len value s) := by
  have hfit : ¬ (len = 8 ∧ ¬ (wide = true ∧ o = base)) := fun h => h.2 (h8 h.1)
  simp only [regWrite, hreg, if_neg hfit, hcmd, beforeWrite_eq_self hact, afterWrite_eq_self hact]
  rfl

end

/-! The fields afterwards. -/

section
variable (who : Requester) (w : Win) (unit base o len value : Nat) (s t : State)

theorem fieldsWritten_regsOnly : RegsOnly t (fieldsWritten who w unit base o len value s t)
    ((regFieldsAt w base).map fun f => f.key (instOf s (whoIx who) unit f)) :=
  (fieldWrites_regsOnly _ _ _ _ t).mono (List.map_subset _ (List.filter_subset_self _))

variable {w base} {f : Fld} (hf : f ∈ regFieldsAt w base)
include hf

theorem rd_fieldsWritten : (fieldsWritten who w unit base o len value s t).rd f (instOf s (whoIx who) unit f) =
    if f.ty ≠ .rw ∨ fieldLocked f (instOf s (whoIx who) unit f) s = false then
      fieldNext (writtenWord base o len value) (writtenMask base o len) f (t.rd f (instOf s (whoIx who) unit f))
    else t.rd f (instOf s (whoIx who) unit f) := by
  refine (rd_fieldWrites_filtered _ _ (fun f => instOf s (whoIx who) unit f) (regFieldsAt_keys s (whoIx who) unit w base) hf _ t).trans ?_
  congr 1
  simp

theorem rd_fieldsWritten_other (ht : f.ty ≠ .rw) : (fieldsWritten who w unit base o len value s t).rd f (instOf s (whoIx who) unit f) =
    fieldNext (writtenWord base o len value) (writtenMask base o len) f (t.rd f (instOf s (whoIx who) unit f)) := by
  rw [rd_fieldsWritten who unit o len value s t hf, if_pos (.inl ht)]

theorem rd_fieldsWritten_rw (ht : f.ty = .rw) (hc : ∃ j < f.wd, Covers base o len (f.lo + j)) :
    (fieldsWritten who w unit base o len value s t).rd f (instOf s (whoIx who) unit f) =
      if fldOk f (fieldMixed base o len value f (t.rd f (instOf s (whoIx who) unit f))) = true ∧
          pairBad f (writtenWord base o len value) = false ∧ fieldLocked f (instOf s (whoIx who) unit f) s = false then
        fieldMixed base o len value f (t.rd f (instOf s (whoIx who) unit f))
      else t.rd f (instOf s (whoIx who) unit f) := by
  rw [rd_fieldsWritten who unit o len value s t hf, fieldNext_rw _ _ _ _ _ _ ht hc]
  cases fieldLocked f (instOf s (whoIx who) unit f) s <;> simp [ht]

theorem rd_fieldsWritten_uncovered {wide : Bool} (hreg : regAt w o = some (base, wide)) (hlen : 4 ≤ len)
    (hc : ∀ j < f.wd, ¬ Covers base o len (f.lo + j)) :
    (fieldsWritten who w unit base o len value s t).rd f (instOf s (whoIx who) unit f) = t.rd f (instOf s (whoIx who) unit f) := by
  have hwd := wd_pos_of_mem_regFieldsAt hf
  have ht : f.ty ≠ .w1c := fun ht => hc 0 hwd (w1c_covered hreg hlen hf ht 0 hwd)
  rw [rd_fieldsWritten who unit o len value s t hf, fieldNext_uncovered _ _ _ _ _ _ hwd ht hc, ite_self]

end

/-- FLO_CFG's fields as a write at its word gives them. -/
theorem bits_writtenWord_flo {f : Fld} {len : Nat} (hf : f ∈ regFieldsAt .flo 0) (hlen : 4 ≤ len) (value : Nat) :
    bits (writtenWord 0 0 len value) f.lo f.wd = bits value f.lo f.wd := by
  have hn := mem_regFieldsAt_flo hf
  refine eq_of_testBit_below (bits_lt ..) (bits_lt ..) fun j hj => ?_
  have hc : Covers 0 0 len (f.lo + j) := by constructor <;> omega
  rw [testBit_fieldWord 0 0 len value hj, testBit_bits, decide_eq_true hj, decide_eq_true hc]
  simp

/-! What error reports, wakes of regions and wakes of the node leave as it was (R365–R369, R416, R419, R472). -/

/-- What every pass of a loop leaves, the loop leaves. -/
theorem foldl_keeps {α β : Type} (p : State → β) {f : State → α → State} {l : List α} (hf : ∀ s, ∀ a ∈ l, p (f s a) = p s) (s : State) :
    p (l.foldl f s) = p s := by
  induction l generalizing s with
  | nil => rfl
  | cons a r ih =>
    rw [List.foldl_cons, ih fun s b hb => hf s b (List.mem_cons_of_mem _ hb)]
    exact hf s a (List.mem_cons_self ..)

theorem rd_congr {s t : State} (h : t.regs = s.regs) (f : Fld) (i : Nat) : t.rd f i = s.rd f i := by
  simp only [State.rd, h]

theorem SameRegs.andThen {s t u : State} {ks : List Nat} (h : SameRegs s t ks) (g : SameRegs t u ks) : SameRegs s u ks :=
  fun k hk => (g k hk).trans (h k hk)

theorem SameRegs.andWr {s t : State} {ks : List Nat} (h : SameRegs s t ks) {f : Fld} {i : Nat} (v : Nat) (hk : f.key i ∈ ks) :
    SameRegs s (t.wr f i v) ks :=
  h.andThen ((SameRegs.wr t f i v).mono fun _ h => List.mem_singleton.1 h ▸ hk)

theorem SameRegs.foldl {α : Type} {f : State → α → State} {l : List α} {ks : List Nat} (hf : ∀ s, ∀ a ∈ l, SameRegs s (f s a) ks) (s : State) :
    SameRegs s (l.foldl f s) ks := fun k hk => foldl_keeps (fun u => KMap.find? u.regs k) (fun s a ha => hf s a ha k hk) s

/-- A fence at once writes the node's state and cause, its count, and the clocks of the blocks. -/
theorem fenceNow_sameRegs (cause : Nat) (s : State) : SameRegs s (fenceNow cause s) reportKeys := by
  have hclk (b : Nat) (hb : b ∈ List.range 64) : CMP_SEQ_STS.CLK_ON.key b ∈ reportKeys :=
    List.mem_append_left _ (List.mem_append_right _ (List.mem_map_of_mem hb))
  refine SameRegs.andThen (t := ((s.wr RAS_NODE_STS.STATE 0 3).wr RAS_NODE_STS.FENCE_CAUSE 0 cause).bump (RAS_CNT.COUNT 6)) ?_
    (.foldl (fun t b hb => (SameRegs.refl t _).andWr 0 (hclk b hb)) _)
  exact (((SameRegs.refl s _).andWr _ (by decide)).andWr _ (by decide)).andWr _ (by decide)

/-- A record that the chip's handler loses is counted in the handler's flags. -/
theorem recordLost_chip_sameRegs (r : ErrRec) (s : State) : SameRegs s (recordLost .chip r s) reportKeys := by
  have hcnt : SameRegs s ((s.wr (RAS_QSTS.OVF 4) 0 1).bump (RAS_QSTS.LOST 4)) reportKeys :=
    ((SameRegs.refl s _).andWr _ (by decide)).andWr _ (by decide)
  unfold recordLost
  dsimp only
  split
  · exact hcnt.andThen (fenceNow_sameRegs 1 _)
  · exact hcnt

/-- A record that is entered at the chip's handler stays there, and writes the fields that reports write alone (R367–R369). -/
theorem enter_chip_sameRegs (n : Nat) (r : ErrRec) (s : State) : SameRegs s (enter n .chip r s) reportKeys := by
  induction n generalizing r s with
  | zero => exact .refl s _
  | succ n ih =>
    unfold enter
    simp only [ite_self]
    split
    · exact .refl s _
    · split
      · exact fenceNow_sameRegs 1 s
      · split
        · exact ((SameRegs.refl s _).andWr _ (by decide)).andThen (ih _ _)
        · split
          · exact recordLost_chip_sameRegs r s
          · exact .refl s _

theorem report_chip_sameRegs (r : ErrRec) (s : State) : SameRegs s (report .chip r s) reportKeys := enter_chip_sameRegs 5 _ s

theorem report_pcm (h : Handler) (r : ErrRec) (s : State) : (report h r s).pcm = s.pcm := by
  have e : { report h r s with regs := s.regs, ras.handlers := s.ras.handlers }.pcm = s.pcm := by rw [report_frame h r s]
  exact e

/-! The wake of a region. -/

theorem loadProg_regs (m : FormeImg) (r : Nat) (s : State) : (loadProg m r s).regs = s.regs := by
  unfold loadProg
  exact foldl_keeps (·.regs) (by exact fun _ _ _ => rfl) s

theorem loadProg_pcm (m : FormeImg) (r : Nat) (s : State) : (loadProg m r s).pcm = s.pcm := by
  unfold loadProg
  exact foldl_keeps (·.pcm) (by exact fun _ _ _ => rfl) s

/-- A region that wakes leaves DOZE, and no other register field changes. -/
theorem regionUp_regs (r : Nat) (s : State) : (regionUp r s).regs = (s.wr PCM_STATE.DOZE 0 (clrBit (s.rd PCM_STATE.DOZE) r)).regs := by
  unfold regionUp
  generalize List.range 16 = l
  exact (foldl_keeps (·.regs) (by exact fun _ _ _ => rfl) _).trans (loadProg_regs ..)

theorem regionUp_pcm (r : Nat) (s : State) : (regionUp r s).pcm = s.pcm := by
  unfold regionUp
  generalize List.range 16 = l
  exact (foldl_keeps (·.pcm) (by exact fun _ _ _ => rfl) _).trans (loadProg_pcm ..)

theorem rd_regionUp (r : Nat) (s : State) {f : Fld} (hf : f.base ≠ PCM_STATE.DOZE.base) : (regionUp r s).rd f = s.rd f :=
  (rd_congr (regionUp_regs r s) f 0).trans (rd_wr_base s _ hf (by decide) (by decide))

theorem testBit_clrBit_self (w i : Nat) : (clrBit w i).testBit i = false := by
  have hpos : 0 < 2 ^ i := Nat.two_pow_pos i
  have hw : 2 ^ i * (w / 2 ^ i) + w % 2 ^ i = w := Nat.div_add_mod ..
  have hbit : w / 2 ^ i % 2 ≤ w / 2 ^ i := Nat.mod_le ..
  have hclr : clrBit w i = 2 ^ i * (w / 2 ^ i - w / 2 ^ i % 2) + w % 2 ^ i := by
    have hle : w / 2 ^ i % 2 * 2 ^ i ≤ 2 ^ i * (w / 2 ^ i) := by rw [Nat.mul_comm]; exact Nat.mul_le_mul_left _ hbit
    simp only [clrBit, setBits, bits, pow_one, Nat.zero_mod, Nat.zero_mul, Nat.add_zero, Nat.mul_sub, Nat.mul_comm (2 ^ i) (w / 2 ^ i % 2)]
    omega
  have hdiv : clrBit w i / 2 ^ i = w / 2 ^ i - w / 2 ^ i % 2 := by
    rw [hclr, Nat.mul_add_div hpos, Nat.div_eq_of_lt (Nat.mod_lt _ hpos), Nat.add_zero]
  rw [Nat.testBit_eq_decide_div_mod_eq, hdiv]
  exact decide_eq_false (by omega)

/-- A region that has woken does not doze. -/
theorem regionDozes_regionUp (r : Nat) (s : State) : regionDozes (regionUp r s) r = false := by
  have hd : (regionUp r s).rd PCM_STATE.DOZE = clrBit (s.rd PCM_STATE.DOZE) r % 2 ^ 4 :=
    (rd_congr (regionUp_regs r s) _ 0).trans (rd_wr_self ..)
  rw [regionDozes, hd, bitOf_eq_testBit, Nat.testBit_mod_two_pow, testBit_clrBit_self, Bool.and_false]

/-! The wake of the node from KEEP. -/

theorem outOfBound_pcm (s : State) : (outOfBound s).pcm = s.pcm := by
  unfold outOfBound
  split
  · rfl
  · refine (report_pcm ..).trans ((foldl_keeps (·.pcm) (fun t c _ => ?_) _).trans rfl)
    split <;> rfl

theorem outOfBound_node (s : State) : (outOfBound s).rd PCM_STATE.NODE = s.rd PCM_STATE.NODE := by
  have hwr (t : State) (f : Fld) (i v : Nat) (hf : PCM_STATE.NODE.base ≠ f.base) (hi : i < 2 ^ 20) :
      (t.wr f i v).rd PCM_STATE.NODE = t.rd PCM_STATE.NODE := rd_wr_base t v hf (by decide) hi
  unfold outOfBound
  split
  · rfl
  · refine ((report_chip_sameRegs _ _).rd PCM_STATE.NODE 0 (by decide)).trans ?_
    refine (foldl_keeps (fun t => t.rd PCM_STATE.NODE) (fun t c hc => ?_) _).trans ?_
    · have hc := List.mem_range.1 hc
      split
      · exact hwr t FAB_GCL_STS.SUSP c 1 (by decide) (by omega)
      · rfl
    · refine (hwr _ (TIME_CNT.COUNT 2) 0 _ (by decide) (by decide)).trans ?_
      exact (hwr _ TIME_STS.LOCKED 0 0 (by decide) (by decide)).trans (hwr s TIME_STS.OOB 0 1 (by decide) (by decide))

/-- A node in KEEP, or on its way there, wakes: it is put in WAKE, time is out of bound, and the dozing regions wake. -/
theorem wakeUp_eq {s : State} (h : s.rd PCM_STATE.NODE = 2 ∨ s.rd PCM_STATE.NODE = 3) : ∃ (u : State) (l : List Nat), u.pcm = s.pcm ∧
    wakeUp s = l.foldl (fun s r => regionUp r s) (outOfBound { u.wr PCM_STATE.NODE 0 4 with tim.good := 0 }) := by
  have hn : ¬ (s.rd PCM_STATE.NODE ≠ 2 ∧ s.rd PCM_STATE.NODE ≠ 3) := by omega
  unfold wakeUp
  simp only [if_neg hn]
  refine ⟨_, _, ?_, rfl⟩
  split
  · rfl
  · generalize List.range 24 = l
    refine (foldl_keeps (·.pcm) (fun t c _ => ?_) _).trans rfl
    split <;> rfl

theorem wakeUp_pcm {s : State} (h : s.rd PCM_STATE.NODE = 2 ∨ s.rd PCM_STATE.NODE = 3) : (wakeUp s).pcm = s.pcm := by
  obtain ⟨u, l, hu, hw⟩ := wakeUp_eq h
  rw [hw]
  exact (foldl_keeps (·.pcm) (fun t r _ => regionUp_pcm r t) _).trans ((outOfBound_pcm _).trans hu)

theorem wakeUp_node {s : State} (h : s.rd PCM_STATE.NODE = 2 ∨ s.rd PCM_STATE.NODE = 3) : (wakeUp s).rd PCM_STATE.NODE = 4 := by
  obtain ⟨u, l, -, hw⟩ := wakeUp_eq h
  rw [hw]
  refine (foldl_keeps (fun t => t.rd PCM_STATE.NODE) (fun t r _ => rd_regionUp r t (by decide)) _).trans ((outOfBound_node _).trans ?_)
  exact (rd_congr (s := u.wr PCM_STATE.NODE 0 4) rfl _ 0).trans (rd_wr_self ..)

theorem nodeHeld_congr {s t : State} (h : t.pcm = s.pcm) : nodeHeld t = nodeHeld s := by
  simp only [nodeHeld, h]

/-! Which writes get through (R465, R466, R472, Table 21.3). -/

section
variable {who : Requester} {off len value a : Nat} {s : State}

/-- A write that reaches nothing, of the management controller, or of a requester that has no access now. -/
theorem registerWrite_unreached
    (h : reachAddr who off = none ∨ who = .mgt ∨ (canAccess who s = false ∧ (isHost who = true → s.rd PCM_STATE.NODE ≠ 3))) :
    exec (.registerWrite who off len value) s = .next s := by
  show execRegisterWrite who off len value s = .next s
  unfold execRegisterWrite
  split
  · rfl
  next a ha =>
    have hno : who = .mgt ∨ (¬ canAccess who s = true ∧ ¬ (isHost who = true ∧ s.rd PCM_STATE.NODE = 3)) := by
      rcases h with h | h | ⟨hc, hn⟩
      · exact absurd (ha.symm.trans h) (Option.some_ne_none a)
      · exact .inl h
      · exact .inr ⟨by simp [hc], fun hk => hn hk.1 hk.2⟩
    rw [if_pos hno]

theorem accessWake_eq_self (h : isHost who = true → s.rd PCM_STATE.NODE ≠ 3) : accessWake who s = s :=
  if_neg fun hk => h hk.1 hk.2

/-- A write that arrives: discarded, or it meets a register of a window once a dozing region has woken. -/
theorem registerWrite_of_reaches (hr : Reaches s who off a) (hm : who ≠ .mgt) :
    (windowAt a = none → exec (.registerWrite who off len value) s = .next s) ∧
    (∀ w u o, windowAt a = some (w, u, o) → exec (.registerWrite who off len value) s =
      if (len ≠ 4 ∧ len ≠ 8) ∨ a % len ≠ 0 ∨ winBusy s w u then .next s else .next (regWrite who a w u o len value (dozeWake w u s))) := by
  obtain ⟨ha, hc, hn⟩ := hr
  have hin : ¬ (who = .mgt ∨ (¬ canAccess who s = true ∧ ¬ (isHost who = true ∧ s.rd PCM_STATE.NODE = 3))) :=
    fun h => h.elim hm fun h => h.1 hc
  have he : exec (.registerWrite who off len value) s = execRegisterWrite who off len value s := rfl
  refine ⟨fun hw => ?_, fun w u o hw => ?_⟩ <;>
    simp only [he, execRegisterWrite, ha, if_neg hin, accessWake_eq_self hn, hw]

/-- A write at no window, of another width, misaligned, or to a window whose region is in reset. -/
theorem registerWrite_discarded (hr : Reaches s who off a)
    (h : windowAt a = none ∨ (len ≠ 4 ∧ len ≠ 8) ∨ a % len ≠ 0 ∨ ∃ w u o, windowAt a = some (w, u, o) ∧ winBusy s w u = true) :
    exec (.registerWrite who off len value) s = .next s := by
  by_cases hm : who = .mgt
  · exact registerWrite_unreached (.inr (.inl hm))
  obtain ⟨hnone, hsome⟩ := registerWrite_of_reaches (len := len) (value := value) hr hm
  cases hwin : windowAt a with
  | none => exact hnone hwin
  | some p =>
    obtain ⟨w, u, o⟩ := p
    rw [hsome w u o hwin, if_pos]
    rcases h with h | h | h | ⟨w', u', o', hw, hb⟩
    · exact absurd (hwin.symm.trans h) (Option.some_ne_none _)
    · exact .inl h
    · exact .inr (.inl h)
    · obtain ⟨rfl, rfl, rfl⟩ : w = w' ∧ u = u' ∧ o = o' := by simpa using hwin.symm.trans hw
      exact .inr (.inr hb)

theorem registerWrite_served {w : Win} {u o : Nat} (hr : Reaches s who off a) (hm : who ≠ .mgt) (hwin : windowAt a = some (w, u, o))
    (hb : winBusy s w u = false) (hlen : len = 4 ∨ len = 8) (hal : a % len = 0) :
    exec (.registerWrite who off len value) s = .next (regWrite who a w u o len value (dozeWake w u s)) := by
  have hok : ¬ ((len ≠ 4 ∧ len ≠ 8) ∨ a % len ≠ 0 ∨ winBusy s w u = true) := by
    rintro (⟨h4, h8⟩ | h | h)
    · exact hlen.elim h4 h8
    · exact h hal
    · exact Bool.false_ne_true (hb.symm.trans h)
  rw [(registerWrite_of_reaches hr hm).2 w u o hwin, if_neg hok]

theorem dozeWake_eq_self {w : Win} {u : Nat} (h : w = .cmp ∨ w = .gal → ∀ r, winRegion w u = some r → regionDozes s r = false) :
    dozeWake w u s = s := by
  unfold dozeWake
  refine if_neg fun ⟨hw, hd⟩ => ?_
  obtain ⟨r, hr⟩ : ∃ r, winRegion w u = some r := by rcases hw with rfl | rfl <;> exact ⟨_, rfl⟩
  rw [hr, Option.getD_some, h hw r hr] at hd
  exact Bool.false_ne_true hd

/-- A write to a command register, and the command that it starts. -/
theorem registerWrite_command {w : Win} {u o base : Nat} {wide : Bool} {c : Instr} {t : State} (hr : Reaches s who off a) (hm : who ≠ .mgt)
    (hwin : windowAt a = some (w, u, o)) (hb : winBusy s w u = false) (hd : w ≠ .cmp ∧ w ≠ .gal) (hal : a % 4 = 0)
    (hreg : regAt w o = some (base, wide)) (hcmd : commandWrite who w u o (value % 2 ^ 32) s = some t) (hc : exec c s = .next t) :
    exec (.registerWrite who off 4 value) s = exec c s := by
  rw [registerWrite_served hr hm hwin hb (.inl rfl) hal, dozeWake_eq_self fun h => absurd h (by simp [hd]),
    regWrite_command hreg (fun h => absurd h (by decide)) hcmd, hc]

end

/-! A write that wakes. -/

/-- A region that wakes changes nothing for those who may access the register space. -/
theorem reaches_regionUp {s : State} {who : Requester} {off a : Nat} (h : Reaches s who off a) (hm : who ≠ .mgt) (r : Nat) :
    Reaches (regionUp r s) who off a := by
  obtain ⟨ha, hc, hn⟩ := h
  have hnode : (regionUp r s).rd PCM_STATE.NODE = s.rd PCM_STATE.NODE := rd_regionUp r s (by decide)
  have hstep : (regionUp r s).rd RSP_BOOT_STS.STEP = s.rd RSP_BOOT_STS.STEP := rd_regionUp r s (by decide)
  have hfail : (regionUp r s).rd RSP_BOOT_STS.FAIL = s.rd RSP_BOOT_STS.FAIL := rd_regionUp r s (by decide)
  have hheld : nodeHeld (regionUp r s) = nodeHeld s := nodeHeld_congr (regionUp_pcm r s)
  have hcan : canAccess who (regionUp r s) = canAccess who s := by
    cases who with
    | mgt => exact absurd rfl hm
    | rsp => simp only [canAccess, rspRuns, State.flag, hheld, hnode, hstep, hfail]
    | _ => simp only [canAccess, hheld]
  exact ⟨ha, hcan.trans hc, fun hk h => hn hk (hnode.symm.trans h)⟩

theorem winBusy_regionUp (r : Nat) (s : State) (w : Win) (u : Nat) : winBusy (regionUp r s) w u = winBusy s w u := by
  have hb : (regionUp r s).rd PCM_RST_STS.RBUSY = s.rd PCM_RST_STS.RBUSY := rd_regionUp r s (by decide)
  simp only [winBusy, hb]

/-- A write to the windows of a dozing region is the write after the region's wake (Table 21.3). -/
theorem registerWrite_regionUp {s : State} {who : Requester} {off len value a : Nat} {w : Win} {u o r : Nat} (hr : Reaches s who off a)
    (hm : who ≠ .mgt) (hwin : windowAt a = some (w, u, o)) (hb : winBusy s w u = false) (hlen : len = 4 ∨ len = 8) (hal : a % len = 0)
    (hw : w = .cmp ∨ w = .gal) (hreg : winRegion w u = some r) (hd : regionDozes s r = true) :
    exec (.registerWrite who off len value) s = exec (.registerWrite who off len value) (regionUp r s) := by
  have hs : dozeWake w u s = regionUp r s := by
    simp only [dozeWake, hreg, Option.getD_some]
    exact if_pos ⟨hw, hd⟩
  have hu : dozeWake w u (regionUp r s) = regionUp r s :=
    dozeWake_eq_self fun _ x hx => by
      obtain rfl : r = x := Option.some.inj (hreg.symm.trans hx)
      exact regionDozes_regionUp r s
  rw [registerWrite_served hr hm hwin hb hlen hal,
    registerWrite_served (reaches_regionUp hr hm r) hm hwin ((winBusy_regionUp r s w u).trans hb) hlen hal, hs, hu]

/-- A write by the host in KEEP is the write after the node's wake. -/
theorem registerWrite_wakeUp {s : State} {who : Requester} {off len value : Nat} (hk : isHost who = true) (hn : s.rd PCM_STATE.NODE = 3)
    (hh : nodeHeld s = false) (ha : (reachAddr who off).isSome = true) :
    exec (.registerWrite who off len value) s = exec (.registerWrite who off len value) (wakeUp s) := by
  obtain ⟨a, ha⟩ := Option.isSome_iff_exists.1 ha
  have hmgt : who ≠ .mgt := by rintro rfl; cases hk
  have hnode : (wakeUp s).rd PCM_STATE.NODE = 4 := wakeUp_node (.inr hn)
  have hheld : nodeHeld (wakeUp s) = false := (nodeHeld_congr (wakeUp_pcm (.inr hn))).trans hh
  have hcan (t : State) (ht : nodeHeld t = false) : canAccess who t = true := by
    cases who <;> simp_all [canAccess, isHost]
  have hin (t : State) (ht : nodeHeld t = false) :
      ¬ (who = .mgt ∨ (¬ canAccess who t = true ∧ ¬ (isHost who = true ∧ t.rd PCM_STATE.NODE = 3))) :=
    fun h => h.elim hmgt fun h => h.1 (hcan t ht)
  have hs : accessWake who s = wakeUp s := if_pos ⟨hk, hn⟩
  have hw : accessWake who (wakeUp s) = wakeUp s := accessWake_eq_self fun _ => by omega
  show execRegisterWrite who off len value s = execRegisterWrite who off len value (wakeUp s)
  simp only [execRegisterWrite, ha, hs, hw, if_neg (hin s hh), if_neg (hin _ hheld)]

/-! Writes that start a command. -/

theorem eq_next_after {o : Host.Outcome State Fault Refusal} (h : ∃ t, o = .next t) (s : State) : o = .next (after o s) := by
  obtain ⟨t, rfl⟩ := h
  rfl

theorem exec_arbCommit_completes (who : Requester) (v : Nat) (s : State) : ∃ t, exec (.arbCommit who v) s = .next t := by
  show ∃ t, execArbCommit who v s = .next t
  unfold execArbCommit
  split <;> exact ⟨_, rfl⟩

theorem exec_rspKeyRetire_completes (who : Requester) (v : Nat) (s : State) : ∃ t, exec (.rspKeyRetire who v) s = .next t := by
  show ∃ t, execRspKeyRetire who v s = .next t
  unfold execRspKeyRetire
  split <;> exact ⟨_, rfl⟩

theorem exec_alarmTest_completes (v : Nat) (s : State) : ∃ t, exec (.alarmTest v) s = .next t := by
  show ∃ t, execAlarmTest v s = .next t
  unfold execAlarmTest
  split <;> exact ⟨_, rfl⟩

theorem exec_zeroizeConfirm_completes (v : Nat) (s : State) : ∃ t, exec (.zeroizeConfirm v) s = .next t := by
  show ∃ t, execZeroizeConfirm v s = .next t
  unfold execZeroizeConfirm
  split <;> exact ⟨_, rfl⟩

theorem exec_remapInstall_completes (k v : Nat) (s : State) : ∃ t, exec (.remapInstall k v) s = .next t := by
  show ∃ t, execRemapInstall k v s = .next t
  unfold execRemapInstall
  dsimp only
  split_ifs <;> exact ⟨_, rfl⟩

theorem exec_remapRemove_completes (k v : Nat) (s : State) : ∃ t, exec (.remapRemove k v) s = .next t := by
  show ∃ t, execRemapRemove k v s = .next t
  unfold execRemapRemove
  split <;> exact ⟨_, rfl⟩

/-- A command register of the node, met at the address `a`: where it stands, and the command that a write of `v` starts. -/
abbrev CommandAt (who : Requester) (a v : Nat) (s : State) (c : Instr) (w : Win) (u o : Nat) : Prop :=
  windowAt a = some (w, u, o) ∧ (w ≠ .cmp ∧ w ≠ .gal) ∧ regAt w o = some (o, false) ∧
  commandWrite who w u o v s = some (after (exec c s) s) ∧ ∃ t, exec c s = .next t

theorem registerWrite_commandAt {who : Requester} {off a v : Nat} {s : State} {c : Instr} {w : Win} {u o : Nat} (hr : Reaches s who off a)
    (hm : who ≠ .mgt) (hal : a % 4 = 0) (hv : v < 2 ^ 32) (hb : winBusy s w u = false) (h : CommandAt who a v s c w u o) :
    exec (.registerWrite who off 4 v) s = exec c s := by
  obtain ⟨hwin, hd, hreg, hcmd, hc⟩ := h
  rw [← Nat.mod_eq_of_lt hv] at hcmd
  exact registerWrite_command hr hm hwin hb hd hal hreg hcmd (eq_next_after hc s)

/-- The single command registers. -/
theorem commandAt_single (who : Requester) {off v : Nat} {c : Instr} (s : State)
    (h : (off, c) ∈ [(0xC, Instr.arbCommit who v), (0x4034, .reamCommit v), (0xA088, .rspKeyRetire who v), (0xA0AC, .alarmTest v),
      (0xA0B4, .zeroizeConfirm v)]) :
    off % 4 = 0 ∧ ∃ w o, winRegion w 0 = none ∧ CommandAt who off v s c w 0 o := by
  simp only [List.mem_cons, Prod.mk.injEq, List.not_mem_nil, or_false] at h
  obtain ⟨rfl, rfl⟩ | ⟨rfl, rfl⟩ | ⟨rfl, rfl⟩ | ⟨rfl, rfl⟩ | ⟨rfl, rfl⟩ := h <;> refine ⟨by decide, ?_⟩
  · exact ⟨.gut, 0xC, rfl, by decide, by decide, by decide +kernel, rfl, exec_arbCommit_completes who v s⟩
  · exact ⟨.ream, 0x34, rfl, by decide, by decide, by decide +kernel, rfl, _, rfl⟩
  · exact ⟨.rsp, 0x88, rfl, by decide, by decide, by decide +kernel, rfl, exec_rspKeyRetire_completes who v s⟩
  · exact ⟨.rsp, 0xAC, rfl, by decide, by decide, by decide +kernel, rfl, exec_alarmTest_completes v s⟩
  · exact ⟨.rsp, 0xB4, rfl, by decide, by decide, by decide +kernel, rfl, exec_zeroizeConfirm_completes v s⟩

theorem windowAt_remap : ∀ k < 8, windowAt (0x211000 + 0x40000 * (k / 2) + 0x1000 * (k % 2) + 0x44) = some (.stk, k, 0x44) := by
  decide

/-- STK_REMAP_ENT of each stack. -/
theorem commandAt_remap (who : Requester) {k : Nat} (hk : k < 8) (v : Nat) (s : State) :
    CommandAt who (0x211000 + 0x40000 * (k / 2) + 0x1000 * (k % 2) + 0x44) v s (if bitOf v 31 then .remapInstall k v else .remapRemove k v)
      .stk k 0x44 := by
  refine ⟨windowAt_remap k hk, by decide, by decide +kernel, ?_, ?_⟩
  · show some (if bitOf v 31 = true then _ else _) = _
    split <;> rfl
  · split
    · exact exec_remapInstall_completes k v s
    · exact exec_remapRemove_completes k v s

/-! Doorbells. -/

theorem windowAt_function {n o : Nat} (hn : n < 32) (ho : o < 0x10000) : windowAt (0x400000 + 0x10000 * n + o) = some (.prt, n, o) := by
  have h1 : ¬ 0x400000 + 0x10000 * n + o < 0xF000 := by omega
  have h2 : ¬ (0x100000 ≤ 0x400000 + 0x10000 * n + o ∧ 0x400000 + 0x10000 * n + o < 0x180000) := by omega
  have h3 : ¬ (0x200000 ≤ 0x400000 + 0x10000 * n + o ∧ 0x400000 + 0x10000 * n + o < 0x300000) := by omega
  have h4 : 0x400000 ≤ 0x400000 + 0x10000 * n + o ∧ 0x400000 + 0x10000 * n + o < 0x600000 := by omega
  have hq : (0x400000 + 0x10000 * n + o - 0x400000) / 0x10000 = n := by omega
  have hm : (0x400000 + 0x10000 * n + o) % 0x10000 = o := by omega
  rw [windowAt, if_neg h1, if_neg h2, if_neg h3, if_pos h4, hq, hm]

theorem reachAddr_vf {n off : Nat} (h1 : 1 ≤ n) (hn : n < 32) (ho : off < 0x10000) :
    reachAddr (.vf n) off = some (0x400000 + 0x10000 * n + off) := if_pos ⟨ho, h1, hn⟩

theorem regAt_doorbells : ∀ j < 8, regAt .prt (0x1000 + 8 * j) = some (0x1000 + 8 * j, false) ∧
    regAt .prt (0x1004 + 8 * j) = some (0x1004 + 8 * j, false) := by
  decide +kernel

theorem commandWrite_doorbell (who : Requester) {n o : Nat} (ho : 0x1000 ≤ o ∧ o < 0x1040) (v : Nat) (s : State) :
    commandWrite who .prt n o v s =
      some (if o % 8 = 0 then sqDoorbell n ((o - 0x1000) / 8) v s else cqDoorbell n ((o - 0x1000) / 8) v s) := by
  simp only [commandWrite, if_pos ho]

theorem commandAt_sqDoorbell (who : Requester) {n j : Nat} (hn : n < 32) (hj : j < 8) (v : Nat) (s : State) :
    CommandAt who (0x400000 + 0x10000 * n + (0x1000 + 8 * j)) v s (.sqDoorbell n j v) .prt n (0x1000 + 8 * j) := by
  have hring : (0x1000 + 8 * j - 0x1000) / 8 = j := by omega
  have hsq : (0x1000 + 8 * j) % 8 = 0 := by omega
  refine ⟨windowAt_function hn (by omega), by decide, (regAt_doorbells j hj).1, ?_, _, rfl⟩
  rw [commandWrite_doorbell who (by omega) v s, hring, if_pos hsq]
  rfl

theorem commandAt_cqDoorbell (who : Requester) {n j : Nat} (hn : n < 32) (hj : j < 8) (v : Nat) (s : State) :
    CommandAt who (0x400000 + 0x10000 * n + (0x1004 + 8 * j)) v s (.cqDoorbell n j v) .prt n (0x1004 + 8 * j) := by
  have hring : (0x1004 + 8 * j - 0x1000) / 8 = j := by omega
  have hcq : ¬ (0x1004 + 8 * j) % 8 = 0 := by omega
  refine ⟨windowAt_function hn (by omega), by decide, (regAt_doorbells j hj).2, ?_, _, rfl⟩
  rw [commandWrite_doorbell who (by omega) v s, hring, if_neg hcq]
  rfl

/-! Violations of the lock. -/

section
variable (who : Requester) (a : Nat) (w : Win) (unit base o len value : Nat) (s : State)

/-- A write by anybody but the root processor that would change an RWL field is a violation (R401). -/
theorem quoinChecked_hit (hw : who ≠ .rsp) (h : ∃ f ∈ regFieldsAt w base, f.ty = .rwl ∧ ∃ j < f.wd, Covers base o len (f.lo + j) ∧
      bitOf value (f.lo + j - 8 * (o - base)) ≠ bitOf (s.rd f (instOf s (whoIx who) unit f)) j) :
    quoinChecked who a w unit base o len value s = quoinViolation a s := by
  obtain ⟨f, hf, hit⟩ := h
  exact if_pos ⟨hw, List.any_eq_true.2 ⟨f, hf, (quoinHit_iff base o len value f _ s).2 hit⟩⟩

theorem quoinChecked_clean (h : who = .rsp ∨ ∀ f ∈ regFieldsAt w base, ¬ (f.ty = .rwl ∧ ∃ j < f.wd, Covers base o len (f.lo + j) ∧
      bitOf value (f.lo + j - 8 * (o - base)) ≠ bitOf (s.rd f (instOf s (whoIx who) unit f)) j)) :
    quoinChecked who a w unit base o len value s = s := by
  refine if_neg fun ⟨hw, hany⟩ => ?_
  obtain ⟨f, hf, hit⟩ := List.any_eq_true.1 hany
  exact h.elim hw fun hno => hno f hf ((quoinHit_iff base o len value f _ s).1 hit)

end

end Sys2Proof.Machine

open Sys2Proof Sys2Proof.Machine

/-- Settles O60: a write gets through where `registerWrite_served` says so, and is discarded elsewhere; what it does to a
register's fields is one write to each (`rd_fieldsWritten`), since no two of them share a key (`regFieldsAt_keys`). -/
theorem registersAreWrittenByType : Obligations.RegistersAreWrittenByType := by
  unfold Obligations.RegistersAreWrittenByType
  refine ⟨fun s who off len value => ⟨registerWrite_unreached, registerWrite_wakeUp⟩, fun s who off len value a hr => ⟨?_, ?_, ?_⟩,
    fun s who off len value a w u o hr hm hwin hb hlen hal hdoze => ⟨?_, fun base wide hreg => ⟨?_, ?_⟩⟩, ?_, ?_, ?_⟩
  · exact fun h => registerWrite_discarded hr (by tauto)
  · exact fun w u o hwin hb => registerWrite_discarded hr (.inr (.inr (.inr ⟨w, u, o, hwin, hb⟩)))
  · exact fun w u o r hwin hb hlen hal hw hm hreg hd => registerWrite_regionUp hr hm hwin hb hlen hal hw hreg hd
  · intro hreg
    rw [registerWrite_served hr hm hwin hb hlen hal, dozeWake_eq_self hdoze, regWrite_reserved hreg]
  · intro h8 hmis
    rw [registerWrite_served hr hm hwin hb hlen hal, dozeWake_eq_self hdoze, regWrite_misfit hreg h8 hmis]
  · intro h8 hcmd hact inst fs hit
    have hlen4 : 4 ≤ len := by omega
    have hflo : w = .flo → base = 0 → ∀ f ∈ fs, bits (writtenWord base o len value) f.lo f.wd = bits value f.lo f.wd := by
      rintro rfl rfl f hf
      obtain rfl := floCfg_word hreg
      exact bits_writtenWord_flo hf hlen4 value
    have hwrite := registerWrite_served (value := value) hr hm hwin hb hlen hal
    rw [dozeWake_eq_self hdoze, regWrite_fields hreg h8 hcmd hact] at hwrite
    refine ⟨quoinChecked who a w u base o len value s, _, hwrite, quoinChecked_clean who a w u base o len value s, quoinChecked_hit who a w u base o len value s, ?_⟩
    split
    next hbad =>
      obtain ⟨hw, h0, hbad⟩ := hbad
      refine ⟨(RegsOnly.refl _).mono (List.nil_subset _), fun _ _ _ => rfl, fun hok => absurd ?_ hbad⟩
      exact List.all_eq_true.2 fun f hf => by rw [hflo hw h0 f hf]; exact hok hw h0 f hf
    next hgood =>
      refine ⟨fieldsWritten_regsOnly .., fun hw h0 ⟨f, hf, hbad⟩ => absurd ⟨hw, h0, fun hall => ?_⟩ hgood, fun _ f hf => ⟨?_, ?_, ?_, ?_, ?_⟩⟩
      · have hok := List.all_eq_true.1 hall f hf
        rw [hflo hw h0 f hf, hbad] at hok
        exact Bool.false_ne_true hok
      · exact rd_fieldsWritten_uncovered who u o len value s _ hf hreg hlen4
      · exact fun hc => ⟨_, fieldMixed_mixed .., fun ht => rd_fieldsWritten_rw who u o len value s _ hf ht hc⟩
      · intro ht j hj
        rw [rd_fieldsWritten_other who u o len value s _ hf (by simp [ht]), fieldNext_w1c _ _ _ _ _ _ ht hj]
      · intro ht
        rw [rd_fieldsWritten_other who u o len value s _ hf (by simp [ht]), fieldNext_w1cCount _ _ _ _ _ _ ht]
      · intro ht
        rw [rd_fieldsWritten_other who u o len value s _ hf (by rcases ht with ht | ht | ht <;> simp [ht]), fieldNext_readonly _ _ _ _ ht]
  · intro s who off v c hwho hr hv hc
    obtain ⟨hal, w, o, hnone, hat⟩ := commandAt_single who s hc
    have hb : winBusy s w 0 = false := by simp only [winBusy, hnone]
    exact registerWrite_commandAt hr (by rcases hwho with rfl | rfl <;> nofun) hal hv hb hat
  · intro s k v hk hr hv hb
    exact registerWrite_commandAt hr nofun (by omega) hv hb (commandAt_remap .pf hk v s)
  · intro s n j v a h1 hn hj hv hr
    obtain ⟨-, hc, hk⟩ := hr
    exact ⟨registerWrite_commandAt ⟨reachAddr_vf h1 hn (by omega), hc, hk⟩ nofun (by omega) hv rfl (commandAt_sqDoorbell _ hn hj v s),
      registerWrite_commandAt ⟨reachAddr_vf h1 hn (by omega), hc, hk⟩ nofun (by omega) hv rfl (commandAt_cqDoorbell _ hn hj v s)⟩
end

section
/-!
PROOFS. The gutter network (R13–R15, R206): how far a pair's line moves, what a partition's bucket does to a request, and
the check at the target.
-/
namespace Sys2Proof.Machine

/-! Frames of sparse data, and what depends on the register fields alone. -/

theorem SameBut.put {α : Type} [DecidableEq α] (d : α) (m : KMap α) (k : Nat) (v : α) : SameBut m (KMap.put d m k v) k :=
  fun _ hj => KMap.find?_put_other d m v hj

theorem flag_congr {s t : State} (h : t.regs = s.regs) (f : Fld) (i : Nat) : t.flag f i = s.flag f i := by
  simp only [State.flag, rd_congr h]

theorem setOwner_congr {s t : State} (h : t.regs = s.regs) (k set : Nat) : setOwner t k set = setOwner s k set := by
  simp only [setOwner, flag_congr h, rd_congr h]

/-! The line of a pair. -/

/-- The line of a pair moves by as many transfers as it has credits, oldest first. -/
theorem gutMove_eq (src dst c : Nat) (q : List Nat) (s : State) :
    gutMove src dst q.length { credits := c, waiting := q } s =
      { s with
        out := ((q.take (min q.length c)).map (OutMsg.gutter src dst)).reverse ++ s.out
        gut.links := KMap.put {} s.gut.links (8 * src + dst) { credits := c - min q.length c, waiting := q.drop (min q.length c) } } := by
  induction q generalizing c s with
  | nil => simp [gutMove]
  | cons x r ih =>
    cases c with
    | zero => rfl
    | succ c =>
      show gutMove src dst r.length { credits := c, waiting := r } (s.emit (.gutter src dst x)) = _
      rw [ih, List.length_cons, Nat.add_min_add_right, List.take_succ_cons, List.drop_succ_cons, Nat.add_sub_add_right]
      simp [State.emit]

/-! Buckets. -/

theorem regulate_idle {gut : Bool} {p : Nat} {s : State} (h : regActs s gut p = false) (n : Nat) : regulate gut p n s = some s :=
  if_pos (by simp [h])

theorem regulate_charges {gut : Bool} {p : Nat} {s : State} (h : regActs s gut p = true) (ht : 1 ≤ tokens s gut p) (n : Nat) :
    regulate gut p n s = some (setTokens gut p (tokens s gut p - n) s) := by
  rw [regulate, if_neg (by simp [h]), if_pos ht]

theorem regulate_empty {gut : Bool} {p : Nat} {s : State} (h : regActs s gut p = true) (ht : tokens s gut p < 1) (n : Nat) :
    regulate gut p n s = none := by
  rw [regulate, if_neg (by simp [h]), if_neg (by omega)]

@[simp] theorem tokens_setTokens (gut : Bool) (p : Nat) (v : Int) (s : State) : tokens (setTokens gut p v s) gut p = v := by
  cases gut <;> exact KMap.get_put_self ..

theorem setTokens_regs (gut : Bool) (p : Nat) (v : Int) (s : State) : (setTokens gut p v s).regs = s.regs := by
  cases gut <;> rfl

/-- A request that waits stands at the end of the line, and is counted. -/
theorem regWait_effect (r : RegReq) (s : State) :
    (regWait r s).rea.regWait = s.rea.regWait ++ [r] ∧
    (regWait r s).rd REAM_REG_STALL_CNT.COUNT = min (2 ^ 32 - 1) (s.rd REAM_REG_STALL_CNT.COUNT + 1) ∧
    SameRegs s (regWait r s) [REAM_REG_STALL_CNT.COUNT.key 0] ∧
    { regWait r s with regs := s.regs, rea.regWait := s.rea.regWait } = s :=
  ⟨rfl, rd_bump_self .., SameRegs.wr _ _ _ _, rfl⟩

/-! The target's check (R15). -/

theorem ownerAllows_iff (o : Option Nat) (part : Nat) : ownerAllows o part = true ↔ part = 0 ∨ o = some part := by
  simp [ownerAllows]

theorem gutAllows_congr {s t : State} (h : t.regs = s.regs) (part : Nat) (tg : GutTarget) : gutAllows t part tg = gutAllows s part tg := by
  cases tg <;> simp only [gutAllows, setOwner_congr h, blockOwner, flag_congr h, rd_congr h]

/-- A way of the galley is its owner's. -/
theorem gutAllows_galleyWay {part : Nat} (hp : part ≠ 0) (s : State) (r w : Nat) :
    gutAllows s part (.galleyWay r w) = true ↔ s.flag (GAL_WAY_OWNER.ASSIGNED w) r = true ∧ s.rd (GAL_WAY_OWNER.OWNER w) r = part := by
  simp only [gutAllows, if_neg hp]
  cases s.flag (GAL_WAY_OWNER.ASSIGNED w) r <;> simp

theorem serveGutter_allowed {s : State} {part : Nat} {tg : GutTarget} (h : gutAllows s part tg = true) (write : Bool) :
    serveGutter part tg write s = s.emit (.gutAnswer part write true) := by
  simp only [serveGutter, h, if_true]

theorem serveGutter_refused {s : State} {part : Nat} {tg : GutTarget} (h : gutAllows s part tg = false) (write : Bool) :
    serveGutter part tg write s = (s.bump GUT_XPART_CNT.COUNT).emit (.gutAnswer part write false) := by
  simp only [serveGutter, h, Bool.false_eq_true, if_false]

/-- A request that its bucket lets pass is served on the state charged. -/
theorem exec_gutterRequest_passes {s u : State} {part bytes : Nat} (h : regulate true part bytes s = some u) (tg : GutTarget) (write : Bool) :
    exec (.gutterRequest part bytes tg write) s = .next (serveGutter part tg write u) := by
  show execGutterRequest part bytes tg write s = _
  rw [execGutterRequest, h]

theorem exec_gutterRequest_waits {s : State} {part bytes : Nat} (h : regulate true part bytes s = none) (tg : GutTarget) (write : Bool) :
    exec (.gutterRequest part bytes tg write) s = .next (regWait (.gut part bytes tg write) s) := by
  show execGutterRequest part bytes tg write s = _
  rw [execGutterRequest, h]

end Sys2Proof.Machine

open Sys2Proof Sys2Proof.Machine

/-- Settles O5: what goes out is what `gutMove_eq` says of the pair's line, once the transfer has joined it. -/
theorem gutterIsLosslessAndOrdered : Obligations.GutterIsLosslessAndOrdered := by
  unfold Obligations.GutterIsLosslessAndOrdered
  intro s src dst xfer credits l q n
  have hmove := gutMove_eq src dst (l.credits + credits) q s
  exact ⟨_, congrArg Host.Outcome.next hmove, rfl, KMap.get_put_self .., SameBut.put _ _ _ _, rfl⟩

/-- Settles O6: a request that passes its bucket is served on the charged state, whose owners are those of the state. -/
theorem gutterRequestIsCheckedAtItsTarget : Obligations.GutterRequestIsCheckedAtItsTarget := by
  unfold Obligations.GutterRequestIsCheckedAtItsTarget
  refine ⟨fun s part bytes tg write hok => ⟨fun hidle => ?_, fun hacts htok => ?_⟩, fun s part bytes tg write hno htok => ?_,
    fun s part bytes tg write hacts htok => ?_, fun s part off => ownerAllows_iff .., fun s part g => ownerAllows_iff ..,
    fun s part r w hp => gutAllows_galleyWay hp s r w, fun s r w => rfl, fun s part => rfl⟩
  · rw [exec_gutterRequest_passes (regulate_idle hidle bytes), serveGutter_allowed hok]
    exact ⟨_, rfl, rfl, rfl⟩
  · rw [exec_gutterRequest_passes (regulate_charges hacts htok bytes),
      serveGutter_allowed ((gutAllows_congr (setTokens_regs ..) part tg).trans hok)]
    exact ⟨_, rfl, rfl, tokens_setTokens .., SameBut.put _ _ _ _, rfl⟩
  · cases hacts : regActs s true part with
    | false =>
      rw [exec_gutterRequest_passes (regulate_idle hacts bytes), serveGutter_refused hno]
      exact ⟨_, rfl, rfl, rd_bump_self .., SameRegs.wr _ _ _ _, fun _ => rfl, nofun, rfl⟩
    | true =>
      rw [exec_gutterRequest_passes (regulate_charges hacts (htok hacts) bytes),
        serveGutter_refused ((gutAllows_congr (setTokens_regs ..) part tg).trans hno)]
      exact ⟨_, rfl, rfl, rd_bump_self .., SameRegs.wr _ _ _ _, nofun, fun _ => ⟨tokens_setTokens .., SameBut.put _ _ _ _⟩, rfl⟩
  · rw [exec_gutterRequest_waits (regulate_empty hacts htok bytes)]
    exact ⟨_, rfl, regWait_effect ..⟩
end

section
/-!
PROOFS. The arbiters (R16–R22): the pick as a greatest key, the wait counters, the commit of shadow priorities, and the phase
that is made of them.
-/
namespace Sys2Proof.Machine

theorem arb_setArb (s : State) (a : Nat) (x : Arb) : (s.setArb a x).arb a = x := KMap.get_put_self ..

theorem setArb_sameBut (s : State) (a : Nat) (x : Arb) : SameBut s.gut.arbs (s.setArb a x).gut.arbs a := SameBut.put _ _ _ _

/-! The pick (R17). -/

theorem arbReqs_le (a : Nat) : arbReqs a ≤ 64 := by
  unfold arbReqs
  split_ifs <;> omega

theorem rrDist_lt {n r : Nat} (hr : r < n) (last : Nat) : rrDist n last r < n := Nat.mod_lt _ (by omega)

/-- What the requesters of an arbiter are compared by: their active priority, then their nearness in the round. -/
def arbKey (s : State) (a r : Nat) : Nat :=
  s.rd (GUT_ARB_ACT.ACT r) a * 128 + (127 - rrDist (arbReqs a) (KMap.get 0 (s.arb a).last (s.rd (GUT_ARB_ACT.ACT r) a)) r)

/-- A requester is picked by the library's `argmax`: the first one of the greatest key. -/
theorem arbPick_eq_argmax (s : State) (a : Nat) {reqs : List Nat} (h : ∀ r ∈ reqs, r < arbReqs a) :
    arbPick s a reqs = reqs.argmax (arbKey s a) := by
  have hall : reqs.filter (· < arbReqs a) = reqs := List.filter_eq_self.2 fun r hr => decide_eq_true (h r hr)
  rw [arbPick, hall, List.argmax]
  congr 1
  funext best r
  cases best <;> rfl

/-- A key that is not below another has no lower priority, and within one priority it stands no later in the round. -/
theorem arbKey_le {s : State} {a r g : Nat} (hr : r < arbReqs a) (h : arbKey s a r ≤ arbKey s a g) :
    s.rd (GUT_ARB_ACT.ACT r) a ≤ s.rd (GUT_ARB_ACT.ACT g) a ∧
    (s.rd (GUT_ARB_ACT.ACT r) a = s.rd (GUT_ARB_ACT.ACT g) a →
      rrDist (arbReqs a) (KMap.get 0 (s.arb a).last (s.rd (GUT_ARB_ACT.ACT g) a)) g ≤
        rrDist (arbReqs a) (KMap.get 0 (s.arb a).last (s.rd (GUT_ARB_ACT.ACT g) a)) r) := by
  have hn := arbReqs_le a
  unfold arbKey at h
  constructor
  · omega
  · intro he
    rw [he] at h
    have hd := rrDist_lt hr (KMap.get 0 (s.arb a).last (s.rd (GUT_ARB_ACT.ACT g) a))
    omega

/-- Among requesters of the arbiter one is picked: it has the highest active priority, and within it none stands earlier. -/
theorem arbPick_spec (s : State) (a : Nat) {reqs : List Nat} (h : ∀ r ∈ reqs, r < arbReqs a) (hne : reqs ≠ []) :
    ∃ g ∈ reqs, arbPick s a reqs = some g ∧ ∀ r ∈ reqs, arbKey s a r ≤ arbKey s a g := by
  cases hg : reqs.argmax (arbKey s a) with
  | none => exact absurd (List.argmax_eq_none.1 hg) hne
  | some g => exact ⟨g, List.argmax_mem hg, (arbPick_eq_argmax s a h).trans hg, fun r hr => List.le_of_mem_argmax hr hg⟩

/-! The wait counters (R19). -/

/-- The wait counters once each requester's has risen. -/
def waitsRisen (x : Arb) (cycles : Nat) (reqs : List (Nat × Nat)) (w : KMap Nat) : KMap Nat :=
  reqs.foldl (fun w r => KMap.put 0 w r.1 (min 65535 (KMap.get 0 w r.1 + waitRise x cycles r))) w

theorem waitsRisen_other (x : Arb) (cycles : Nat) {reqs : List (Nat × Nat)} {k : Nat} (h : k ∉ reqs.map Prod.fst) (w : KMap Nat) :
    KMap.get 0 (waitsRisen x cycles reqs w) k = KMap.get 0 w k := by
  induction reqs generalizing w with
  | nil => rfl
  | cons r l ih =>
    obtain ⟨hk, hl⟩ : k ≠ r.1 ∧ k ∉ l.map Prod.fst := by simpa using h
    exact (ih hl _).trans (KMap.get_put_other 0 0 w _ hk)

theorem waitsRisen_of_mem (x : Arb) (cycles : Nat) {reqs : List (Nat × Nat)} (hd : (reqs.map Prod.fst).Nodup) {r : Nat × Nat}
    (hr : r ∈ reqs) (w : KMap Nat) :
    KMap.get 0 (waitsRisen x cycles reqs w) r.1 = min 65535 (KMap.get 0 w r.1 + waitRise x cycles r) := by
  induction reqs generalizing w with
  | nil => exact absurd hr List.not_mem_nil
  | cons q l ih =>
    obtain ⟨hq, hl⟩ := List.nodup_cons.1 hd
    rcases List.mem_cons.1 hr with rfl | hr
    · exact (waitsRisen_other x cycles hq _).trans (KMap.get_put_self ..)
    · have hne : r.1 ≠ q.1 := fun he => hq (he ▸ List.mem_map_of_mem hr)
      rw [← KMap.get_put_other 0 0 w (min 65535 (KMap.get 0 w q.1 + waitRise x cycles q)) hne]
      exact ih hl hr _

/-! Commits (R21). -/

theorem applyCommit_idle {a : Nat} {s : State} (h : s.flag GUT_ARB_STS.COMMIT_PEND a = false) : applyCommit a s = s :=
  if_neg (by simp [h])

/-- Every shadow priority of a list of requesters copied to the active set. -/
def priosCopied (a : Nat) (l : List Nat) (s : State) : State :=
  l.foldl (fun s r => s.wr (GUT_ARB_ACT.ACT r) a (s.rd (GUT_ARB_PRIO.PRIO r) a)) s

theorem applyCommit_pending {a : Nat} {s : State} (h : s.flag GUT_ARB_STS.COMMIT_PEND a = true) :
    applyCommit a s = (priosCopied a (List.range (arbReqs a)) s).wr GUT_ARB_STS.COMMIT_PEND a 0 := by
  simp only [applyCommit, h, if_true, priosCopied]

theorem priosCopied_regsOnly (a : Nat) (l : List Nat) (s : State) :
    RegsOnly s (priosCopied a l s) (l.map fun r => (GUT_ARB_ACT.ACT r).key a) := by
  induction l generalizing s with
  | nil => exact .refl s
  | cons r l ih => exact (RegsOnly.wr s (GUT_ARB_ACT.ACT r) a _).trans (ih _)

theorem prioKey_ne_actKey {a r q : Nat} (ha : a < 148) (hr : r < 64) (hq : q < 64) : (GUT_ARB_PRIO.PRIO q).key a ≠ (GUT_ARB_ACT.ACT r).key a := by
  refine Fld.key_ne_of_base ?_ (by omega) (by omega)
  simp only [Fld.base, GUT_ARB_PRIO.PRIO, GUT_ARB_ACT.ACT]
  omega

theorem actKey_injective {a r q : Nat} (h : (GUT_ARB_ACT.ACT r).key a = (GUT_ARB_ACT.ACT q).key a) : r = q := by
  simp only [Fld.key, GUT_ARB_ACT.ACT] at h
  omega

theorem actKey_ne_commitKey {a r : Nat} (ha : a < 148) : (GUT_ARB_ACT.ACT r).key a ≠ GUT_ARB_STS.COMMIT_PEND.key a := by
  refine Fld.key_ne_of_base ?_ (by omega) (by omega)
  simp only [Fld.base, GUT_ARB_STS.COMMIT_PEND, GUT_ARB_ACT.ACT, Win.ix]
  omega

/-- A requester's active priority is its shadow priority once it has been copied. -/
theorem rd_priosCopied {a : Nat} (ha : a < 148) {l : List Nat} (hd : l.Nodup) (hl : ∀ r ∈ l, r < 64) {r : Nat} (hr : r ∈ l) (s : State) :
    (priosCopied a l s).rd (GUT_ARB_ACT.ACT r) a = s.rd (GUT_ARB_PRIO.PRIO r) a % 16 := by
  induction l generalizing s with
  | nil => exact absurd hr List.not_mem_nil
  | cons q l ih =>
    obtain ⟨hq, hnd⟩ := List.nodup_cons.1 hd
    obtain ⟨hq64, hl64⟩ := List.forall_mem_cons.1 hl
    show (priosCopied a l (s.wr (GUT_ARB_ACT.ACT q) a (s.rd (GUT_ARB_PRIO.PRIO q) a))).rd _ a = _
    rcases List.mem_cons.1 hr with rfl | hr
    · refine ((priosCopied_regsOnly a l _).rd _ a fun hk => ?_).trans (rd_wr_self ..)
      obtain ⟨q, hql, he⟩ := List.mem_map.1 hk
      exact hq (actKey_injective he ▸ hql)
    · rw [ih hnd hl64 hr, rd_wr_key _ _ (prioKey_ne_actKey ha hq64 (hl64 r hr))]

/-- A pending commit is applied whole. -/
theorem applyCommit_effect {a : Nat} (ha : a < 148) {s : State} (h : s.flag GUT_ARB_STS.COMMIT_PEND a = true) :
    (applyCommit a s).rd GUT_ARB_STS.COMMIT_PEND a = 0 ∧
    (∀ r < arbReqs a, (applyCommit a s).rd (GUT_ARB_ACT.ACT r) a = s.rd (GUT_ARB_PRIO.PRIO r) a % 16) ∧
    RegsOnly s (applyCommit a s) (GUT_ARB_STS.COMMIT_PEND.key a :: (List.range (arbReqs a)).map fun r => (GUT_ARB_ACT.ACT r).key a) := by
  rw [applyCommit_pending h]
  refine ⟨rd_wr_self .., fun r hr => ?_, ((priosCopied_regsOnly a _ s).andWr _ _ _).mono fun k hk => ?_⟩
  · have h64 : ∀ q ∈ List.range (arbReqs a), q < 64 := fun q hq => Nat.lt_of_lt_of_le (List.mem_range.1 hq) (arbReqs_le a)
    rw [rd_wr_key _ _ (actKey_ne_commitKey ha), rd_priosCopied ha List.nodup_range h64 (List.mem_range.2 hr)]
  · simpa [or_comm] using hk

/-- Once a pending commit has been applied none is pending. -/
theorem applyCommit_applied (a : Nat) (s : State) : applyCommit a (applyCommit a s) = applyCommit a s := by
  refine applyCommit_idle ?_
  cases h : s.flag GUT_ARB_STS.COMMIT_PEND a with
  | false => rw [applyCommit_idle h, h]
  | true => rw [applyCommit_pending h, State.flag, rd_wr_self]; rfl

/-- A phase of an arbiter with a pending commit applies it first. -/
theorem arbitrate_applyCommit (a n : Nat) (reqs : List (Nat × Nat)) (s : State) : arbitrate a n reqs s = arbitrate a n reqs (applyCommit a s) := by
  rw [arbitrate, arbitrate, applyCommit_applied]

/-! A phase. -/

/-- The arbiter once its pick `g` has its tenure. -/
def arbGranted (x : Arb) (now p g n : Nat) (reqs : List (Nat × Nat)) : Arb where
  owner := some g
  first := true
  since := now
  asking := (reqs.map Prod.fst).filter (· ≠ g)
  waits := KMap.put 0 (waitsRisen x n reqs x.waits) g 0
  last := KMap.put 0 x.last p (g + 1)

theorem arbGranted_last (x : Arb) (now p g n : Nat) (reqs : List (Nat × Nat)) : KMap.get 0 (arbGranted x now p g n reqs).last p = g + 1 :=
  KMap.get_put_self 0 x.last p (g + 1)

theorem arbGranted_waits_self (x : Arb) (now p g n : Nat) (reqs : List (Nat × Nat)) : KMap.get 0 (arbGranted x now p g n reqs).waits g = 0 :=
  KMap.get_put_self 0 (waitsRisen x n reqs x.waits) g 0

theorem arbGranted_waits_other (x : Arb) (now p n : Nat) (reqs : List (Nat × Nat)) {g r : Nat} (h : r ≠ g) :
    KMap.get 0 (arbGranted x now p g n reqs).waits r = KMap.get 0 (waitsRisen x n reqs x.waits) r :=
  KMap.get_put_other 0 0 _ 0 h

theorem arbitrate_grants {s : State} {a g : Nat} {reqs : List (Nat × Nat)} (hp : s.flag GUT_ARB_STS.COMMIT_PEND a = false)
    (hall : ∀ r ∈ reqs, r.1 < arbReqs a) (hg : arbPick s a (reqs.map Prod.fst) = some g) (n : Nat) :
    arbitrate a n reqs s = s.setArb a (arbGranted (s.arb a) s.now (s.rd (GUT_ARB_ACT.ACT g) a) g n reqs) := by
  have hfilter : reqs.filter (fun r => decide (r.1 < arbReqs a)) = reqs := List.filter_eq_self.2 fun r hr => decide_eq_true (hall r hr)
  simp only [arbitrate, applyCommit_idle hp, hfilter, hg]
  rfl

/-! Withdrawals. -/

theorem exec_withdraw_first {s : State} {a o : Nat} (ho : (s.arb a).owner = some o) (hf : (s.arb a).first = true)
    (hs : (s.arb a).since = s.now) (reqs : List Nat) :
    exec (.withdraw a reqs) s = .next (arbitrate a 1 ((reqs.filter (· ≠ o)).map fun r => (r, 1)) s) := by
  show execWithdraw a reqs s = _
  simp only [execWithdraw, ho, firstCycle, hf, hs, beq_self_eq_true, Bool.and_self, if_true]

theorem exec_withdraw_later {s : State} {a o : Nat} (ho : (s.arb a).owner = some o) (hs : (s.arb a).since ≠ s.now) (reqs : List Nat) :
    exec (.withdraw a reqs) s = .next s := by
  show execWithdraw a reqs s = _
  have hlater : firstCycle s (s.arb a) = false := by simp [firstCycle, hs]
  simp only [execWithdraw, ho, hlater, Bool.false_eq_true, if_false]

end Sys2Proof.Machine

open Sys2Proof Sys2Proof.Machine

/-- Settles O7: a phase grants the pick of `arbPick_spec`, a withdrawal is a phase or nothing, and a commit is
`applyCommit_effect`. Which cycles the wait counters count between two phases is the model's choice (assumption log 21). -/
theorem arbiterGrantsHighestPriority : Obligations.ArbiterGrantsHighestPriority := by
  unfold Obligations.ArbiterGrantsHighestPriority
  refine ⟨fun s a n reqs hp hd hne hall => ?_, fun s a o reqs ho hf => ⟨fun hs => ⟨_, exec_withdraw_first ho hf hs reqs, rfl⟩,
    fun hs => exec_withdraw_later ho hs reqs⟩, fun s who v => ⟨fun hv => ?_, fun hv => if_neg (by simp [hv])⟩,
    fun s a ha => ⟨fun h => ?_, fun h => congrArg Host.Outcome.next (applyCommit_idle h)⟩, ?_⟩
  · have hall' : ∀ r ∈ reqs.map Prod.fst, r < arbReqs a := List.forall_mem_map.2 hall
    obtain ⟨g, hg, hpick, hmax⟩ := arbPick_spec s a hall' (by simpa using hne)
    have hle := fun (r : Nat × Nat) (hr : r ∈ reqs) => arbKey_le (hall r hr) (hmax r.1 (List.mem_map_of_mem hr))
    refine ⟨_, g, congrArg Host.Outcome.next (arbitrate_grants hp hall hpick n), hg, ?_⟩
    rw [arb_setArb]
    refine ⟨rfl, rfl, rfl, rfl, fun r hr => (hle r hr).1, fun r hr => (hle r hr).2,
      arbGranted_last .., arbGranted_waits_self .., fun r hr hrg => ?_,
      fun r hr => ?_, setArb_sameBut _ _ _, rfl⟩
    · exact (arbGranted_waits_other _ _ _ n reqs hrg).trans (waitsRisen_of_mem _ n hd hr _)
    · have hrg : r ≠ g := fun he => hr (he ▸ hg)
      exact (arbGranted_waits_other _ _ _ n reqs hrg).trans (waitsRisen_other _ n hr _)
  · exact ⟨_, if_pos hv, rd_wr_self .., .wr ..⟩
  · obtain ⟨hclear, hact, hregs⟩ := applyCommit_effect ha h
    exact ⟨_, rfl, hclear, hact, hregs, fun n reqs => congrArg Host.Outcome.next (arbitrate_applyCommit a n reqs s)⟩
  · intro s a r waits
    exact ⟨fun hw => ⟨_, if_pos (by simpa [waits] using hw), rd_wr_self .., .wr ..⟩, fun hw => if_neg (by simpa [waits] using hw)⟩
end

section
/-!
PROOFS. Refused accesses to the upper case (R15, R56, R57, R65, R206): register fields of one window, what a report and a
fence leave of the stacks' window, the order of refusals, and the access that passes or waits at its bucket.
-/
namespace Sys2Proof.Machine

/-! The register fields of one window. -/

/-- Every register field of window `w` holds in `t` what it holds in `s`: those whose keys have its number above bit 46. -/
def WinKept (w : Win) (s t : State) : Prop := ∀ k, k / 2 ^ 46 = w.ix → KMap.find? t.regs k = KMap.find? s.regs k

theorem Fld.key_div (f : Fld) {i : Nat} (hi : i < 2 ^ 20) : f.key i / 2 ^ 46 = f.base / 2 ^ 26 := by
  rw [Fld.key_eq]
  omega

section
variable {w : Win} {s t u : State}

theorem WinKept.refl (w : Win) (s : State) : WinKept w s s := fun _ _ => rfl

theorem WinKept.trans (h : WinKept w s t) (g : WinKept w t u) : WinKept w s u := fun k hk => (g k hk).trans (h k hk)

theorem WinKept.of_regs (h : t.regs = s.regs) : WinKept w s t := fun _ _ => by rw [h]

/-- One more write, to a field of another window. -/
theorem WinKept.andWr (h : WinKept w s t) {f : Fld} {i : Nat} (v : Nat) (hf : f.base / 2 ^ 26 ≠ w.ix) (hi : i < 2 ^ 20) :
    WinKept w s (t.wr f i v) := by
  refine h.trans fun k hk => KMap.find?_put_other _ _ _ fun he => hf ?_
  rw [← f.key_div hi, ← he, hk]

theorem WinKept.foldl {α : Type} {f : State → α → State} {l : List α} (hf : ∀ s, ∀ a ∈ l, WinKept w s (f s a)) (s : State) :
    WinKept w s (l.foldl f s) := fun k hk => foldl_keeps (fun u => KMap.find? u.regs k) (fun s a ha => hf s a ha k hk) s

theorem WinKept.rd (h : WinKept w s t) {f : Fld} {i : Nat} (hf : f.base / 2 ^ 26 = w.ix) (hi : i < 2 ^ 20) : t.rd f i = s.rd f i := by
  simp only [State.rd, KMap.get, h _ ((f.key_div hi).trans hf)]

end

/-! Reports leave the stacks' window. -/

theorem fenceNow_stkKept (cause : Nat) (s : State) : WinKept .stk s (fenceNow cause s) := by
  unfold fenceNow
  refine .trans (t := ((s.wr RAS_NODE_STS.STATE 0 3).wr RAS_NODE_STS.FENCE_CAUSE 0 cause).bump (RAS_CNT.COUNT 6)) ?_ (.foldl (fun t b hb => ?_) _)
  · exact (((WinKept.refl _ s).andWr _ (by decide) (by decide)).andWr _ (by decide) (by decide)).andWr _ (by decide) (by decide)
  · have := List.mem_range.1 hb
    exact (WinKept.refl _ t).andWr 0 (by decide) (by omega)

/-- A handler of a region or of the chip. -/
abbrev AboveBlocks (h : Handler) : Prop := h = .chip ∨ ∃ r < 4, h = .region r

theorem qsts_notStk : ∀ k < 5, (RAS_QSTS.OVF k).base / 2 ^ 26 ≠ Win.stk.ix ∧ (RAS_QSTS.LOST k).base / 2 ^ 26 ≠ Win.stk.ix := by
  decide

theorem recordLost_stkKept {h : Handler} (hh : AboveBlocks h) (r : ErrRec) (s : State) : WinKept .stk s (recordLost h r s) := by
  have hcount {k : Nat} (hk : k < 5) : WinKept .stk s ((s.wr (RAS_QSTS.OVF k) 0 1).bump (RAS_QSTS.LOST k)) := by
    obtain ⟨hovf, hlost⟩ := qsts_notStk k hk
    exact ((WinKept.refl _ s).andWr 1 hovf (by decide)).andWr _ hlost (by decide)
  obtain rfl | ⟨k, hk, rfl⟩ := hh
  · unfold recordLost
    dsimp only
    split
    · exact (hcount (by decide)).trans (fenceNow_stkKept 1 _)
    · exact hcount (by decide)
  · exact hcount (by omega)

/-- A record at a region's handler or the chip's leaves the fields of the stacks. -/
theorem enter_stkKept (n : Nat) {h : Handler} (hh : AboveBlocks h) (r : ErrRec) (s : State) : WinKept .stk s (enter n h r s) := by
  induction n generalizing h r s with
  | zero => exact .refl _ s
  | succ n ih =>
    have hg : AboveBlocks (if r.sev = 3 then .chip else h) := by
      split
      · exact .inl rfl
      · exact hh
    unfold enter
    generalize (if r.sev = 3 then Handler.chip else h) = g at hg
    dsimp only
    split
    · exact .of_regs rfl
    · split
      · exact fenceNow_stkKept 1 s
      · split
        · have hbump : WinKept .stk s (s.bump (RAS_CNT.COUNT 4)) := (WinKept.refl _ s).andWr _ (by decide) (by decide)
          obtain rfl | ⟨k, -, rfl⟩ := hg
          · exact hbump.trans (ih (.inl rfl) _ _)
          · exact hbump.trans (ih (.inl rfl) _ _)
        · split
          · exact recordLost_stkKept hg r s
          · exact .of_regs rfl

theorem report_stkKept {h : Handler} (hh : AboveBlocks h) (r : ErrRec) (s : State) : WinKept .stk s (report h r s) :=
  enter_stkKept 5 hh _ s

/-! Held states dropped. -/

theorem setHold_stkKept {g : Nat} (hg : g < 64) (h : PltHold) (s : State) : WinKept .stk s (s.setHold g h) := by
  unfold State.setHold
  dsimp only
  refine .andWr ?_ _ (by decide) (by omega)
  split <;> exact .of_regs rfl

theorem pltLog_stkKept {k : Nat} (hk : k < 8) (status unit index part tag : Nat) (s : State) :
    WinKept .stk s (pltLog k status unit index part tag s) := by
  have hk20 : k < 2 ^ 20 := by omega
  exact (((((WinKept.refl _ s).andWr _ (by decide) hk20).andWr _ (by decide) hk20).andWr _ (by decide) hk20).andWr _ (by decide) hk20).andWr _
    (by decide) hk20

theorem dropHold_stkKept {k set : Nat} (hk : k < 8) (hs : set < 8) (s : State) : WinKept .stk s (dropHold k set s) := by
  unfold dropHold
  dsimp only
  split
  · refine .trans ?_ (pltLog_stkKept hk _ _ _ _ _ _)
    exact WinKept.andWr (f := PLT_CNT.COUNT 4) (i := k) (setHold_stkKept (g := 8 * k + set) (by omega) _ s) _ (by decide) (by omega)
  · exact .refl _ s

theorem dropStack_stkKept {k : Nat} (hk : k < 8) (s : State) : WinKept .stk s (dropStack k s) :=
  .foldl (fun t _ hi => dropHold_stkKept hk (List.mem_range.1 hi) t) s

theorem setHold_mem (s : State) (g : Nat) (h : PltHold) : (s.setHold g h).mem = s.mem := by
  unfold State.setHold
  dsimp only
  rw [wr_mem]
  split <;> rfl

theorem pltLog_mem (k status unit index part tag : Nat) (s : State) : (pltLog k status unit index part tag s).mem = s.mem := rfl

theorem dropHold_mem (k set : Nat) (s : State) : (dropHold k set s).mem = s.mem := by
  unfold dropHold
  dsimp only
  split
  · rw [pltLog_mem, bump_mem, setHold_mem]
  · rfl

theorem dropStack_mem (k : Nat) (s : State) : (dropStack k s).mem = s.mem :=
  foldl_keeps (·.mem) (fun t i _ => dropHold_mem k i t) s

/-! The fence of a stack (R65). -/

theorem offStack_lt (off : Nat) : offStack off < 8 := bits_lt off 33 3

theorem rd_stkLog_other {f : Fld} {k : Nat} (hk : k < 8)
    (hf : f.base ∉ [STK_ERR_LOG0.OFFSET_LO.base, STK_ERR_LOG1.OFFSET_HI.base, STK_ERR_LOG1.KIND.base, STK_ERR_LOG1.PART.base])
    (kind part off : Nat) (s : State) : (stkLog k kind part off s).rd f k = s.rd f k := by
  simp only [List.mem_cons, List.not_mem_nil, or_false, not_or] at hf
  obtain ⟨hlo, hhi, hkind, hpart⟩ := hf
  have hk : k < 2 ^ 20 := by omega
  rw [stkLog, rd_wr_base _ _ hpart hk hk, rd_wr_base _ _ hkind hk hk, rd_wr_base _ _ hhi hk hk, rd_wr_base _ _ hlo hk hk]

theorem rd_stkLog_kind {k : Nat} (hk : k < 8) (kind part off : Nat) (s : State) :
    (stkLog k kind part off s).rd STK_ERR_LOG1.KIND k = kind % 2 ^ 4 := by
  have hk : k < 2 ^ 20 := by omega
  rw [stkLog, rd_wr_base _ _ (by decide) hk hk, rd_wr_self]
  rfl

theorem rd_stkLog_offset {k : Nat} (hk : k < 8) (kind part off : Nat) (s : State) :
    (stkLog k kind part off s).rd STK_ERR_LOG0.OFFSET_LO k = (off - off % 32) % 2 ^ 32 := by
  have hk : k < 2 ^ 20 := by omega
  rw [stkLog, rd_wr_base _ _ (by decide) hk hk, rd_wr_base _ _ (by decide) hk hk, rd_wr_base _ _ (by decide) hk hk, rd_wr_self]
  rfl

theorem stkLog_mem (k kind part off : Nat) (s : State) : (stkLog k kind part off s).mem = s.mem := rfl

/-- A stack's own fields after its fence: as they were logged, since the report touches none of them. -/
theorem rd_stackFence {f : Fld} {k : Nat} (hk : k < 8) (hf : f.base / 2 ^ 26 = Win.stk.ix) (part off : Nat) (s : State) :
    (stackFence k part off s).rd f k =
      (stkLog k 3 part off (dropStack k ((s.wr STK_STS.FENCED k 1).bump (STK_CNT.COUNT 5) k))).rd f k :=
  (report_stkKept (.inr ⟨k / 2, by omega, rfl⟩) _ _).rd hf (by omega)

/-- A field that the log does not hold. -/
theorem rd_stackFence_unlogged {f : Fld} {k : Nat} (hk : k < 8) (hf : f.base / 2 ^ 26 = Win.stk.ix)
    (hl : f.base ∉ [STK_ERR_LOG0.OFFSET_LO.base, STK_ERR_LOG1.OFFSET_HI.base, STK_ERR_LOG1.KIND.base, STK_ERR_LOG1.PART.base])
    (part off : Nat) (s : State) :
    (stackFence k part off s).rd f k = ((s.wr STK_STS.FENCED k 1).bump (STK_CNT.COUNT 5) k).rd f k := by
  rw [rd_stackFence hk hf, rd_stkLog_other hk hl]
  exact (dropStack_stkKept hk _).rd hf (by omega)

theorem rd_bumpBy_base (s : State) {f g : Fld} {i : Nat} (n : Nat) (h : g.base ≠ f.base) (hi : i < 2 ^ 20) :
    (s.bumpBy f i n).rd g i = s.rd g i := rd_wr_base s _ h hi hi

theorem count_wd (k : Nat) : (STK_CNT.COUNT k).wd = 32 := rfl

theorem rd_bumpBy_self (s : State) (f : Fld) (i n : Nat) : (s.bumpBy f i n).rd f i = min (2 ^ f.wd - 1) (s.rd f i + n) := by
  have : 0 < 2 ^ f.wd := Nat.two_pow_pos _
  rw [State.bumpBy, rd_wr_self]
  exact Nat.mod_eq_of_lt (by omega)

theorem rd_bump_base (s : State) {f g : Fld} {i : Nat} (h : g.base ≠ f.base) (hi : i < 2 ^ 20) : (s.bump f i).rd g i = s.rd g i :=
  rd_bumpBy_base s 1 h hi

/-- `t` is the state after the fence of stack `k` at an access to `off`: what it shows of the stack, and its memory. -/
abbrev FenceShown (s t : State) (k off : Nat) : Prop :=
  t.rd STK_STS.FENCED k = 1 ∧ t.mem = s.mem ∧ t.rd (STK_CNT.COUNT 4) k = s.rd (STK_CNT.COUNT 4) k ∧
  t.rd (STK_CNT.COUNT 5) k = min (2 ^ 32 - 1) (s.rd (STK_CNT.COUNT 5) k + 1) ∧ t.rd STK_ERR_LOG1.KIND k = 3 ∧
  t.rd STK_ERR_LOG0.OFFSET_LO k = (off - off % 32) % 2 ^ 32

theorem stackFence_mem (k part off : Nat) (s : State) : (stackFence k part off s).mem = s.mem := by
  unfold stackFence
  dsimp only
  rw [report_mem, stkLog_mem, dropStack_mem, bump_mem, wr_mem]

theorem stackFence_shown {k : Nat} (hk : k < 8) (part off : Nat) (s : State) : FenceShown s (stackFence k part off s) k off := by
  have hk20 : k < 2 ^ 20 := by omega
  refine ⟨?_, stackFence_mem .., ?_, ?_, ?_, ?_⟩
  · rw [rd_stackFence_unlogged hk (by decide) (by decide), rd_bump_base _ (by decide) hk20, rd_wr_self]
    rfl
  · rw [rd_stackFence_unlogged hk (by decide) (by decide), rd_bump_base _ (by decide) hk20, rd_wr_base _ _ (by decide) hk20 hk20]
  · rw [rd_stackFence_unlogged hk (by decide) (by decide), rd_bump_self, rd_wr_base _ _ (by decide) hk20 hk20]
    rfl
  · rw [rd_stackFence hk (by decide), rd_stkLog_kind hk]
    rfl
  · rw [rd_stackFence hk (by decide), rd_stkLog_offset hk]

/-! Refusals of an access. -/

/-- What a refused access is answered. -/
def refusalMsg (x : Access) (status : Nat) : OutMsg :=
  if x.write then .writeDone x.part x.off status else .readData x.part x.off [] true status

theorem refuseAccess_eq (x : Access) (status : Nat) (s : State) : refuseAccess x status s = s.emit (refusalMsg x status) := by
  unfold refuseAccess refusalMsg
  split <;> rfl

theorem stackShut_congr {s t : State} (h : t.regs = s.regs) (k : Nat) : stackShut t k = stackShut s k := by
  simp only [stackShut, flag_congr h, rd_congr h]

theorem accessRefusal_congr {s t : State} (h : t.regs = s.regs) (part off len : Nat) :
    accessRefusal t part off len = accessRefusal s part off len := by
  simp only [accessRefusal, stackShut_congr h, setOwner_congr h]

section
variable {s : State} {part off len : Nat}

theorem accessRefusal_outOfRange (s : State) (part : Nat) (h : upperSize < off + len ∨ upperSize ≤ off) :
    accessRefusal s part off len = some ST.ADDR_RANGE := if_pos h

variable (hend : off + len ≤ upperSize) (hoff : off < upperSize)
include hend hoff

theorem accessRefusal_shut (part : Nat) (h : ∃ a ∈ rangesOf off len, stackShut s (offStack a) = true) :
    accessRefusal s part off len = some ST.STK_FENCED := by
  rw [accessRefusal, if_neg (by omega), if_pos (List.any_eq_true.2 h)]

theorem accessRefusal_foreign (hopen : ∀ a ∈ rangesOf off len, stackShut s (offStack a) = false) (hp : part ≠ 0)
    (h : ∃ a ∈ rangesOf off len, setOwner s (offStack a) (offSet a) ≠ some part) : accessRefusal s part off len = some ST.POISON := by
  have hshut : ¬ (rangesOf off len).any (fun a => stackShut s (offStack a)) = true := by
    rw [List.any_eq_true]
    rintro ⟨a, ha, hs⟩
    exact Bool.false_ne_true ((hopen a ha).symm.trans hs)
  obtain ⟨a, ha, hown⟩ := h
  rw [accessRefusal, if_neg (by omega), if_neg hshut, if_pos (List.any_eq_true.2 ⟨a, ha, ?_⟩)]
  simp [ownerAllows, hp, hown]

end

/-! Accesses that wait at a shut stack. -/

theorem stackShut_of_fenced {s : State} {k : Nat} (h : s.rd STK_STS.FENCED k = 1) : stackShut s k = true := by
  simp [stackShut, State.flag, h]

/-- Those that a shut stack answers are refused, and nothing but what was sent changes. -/
theorem serveTurns_shut {k : Nat} (l : List Access) {s : State} (h : stackShut s k = true) :
    l.foldl (fun s x => if stackShut s k then refuseAccess x ST.STK_FENCED s else serveAccess x s) s =
      l.foldl (fun s x => s.emit (refusalMsg x ST.STK_FENCED)) s := by
  induction l generalizing s with
  | nil => rfl
  | cons x l ih =>
    rw [List.foldl_cons, List.foldl_cons, if_pos h, refuseAccess_eq]
    exact ih ((stackShut_congr rfl k).trans h)

theorem serveWaiting_shut {k : Nat} {s : State} (h : stackShut s k = true) :
    (serveWaiting k s).regs = s.regs ∧ (serveWaiting k s).mem = s.mem := by
  unfold serveWaiting
  dsimp only
  rw [serveTurns_shut]
  · exact ⟨(foldl_keeps (·.regs) (by exact fun _ _ _ => rfl) _).trans rfl, (foldl_keeps (·.mem) (by exact fun _ _ _ => rfl) _).trans rfl⟩
  · exact (stackShut_congr rfl k).trans h

/-! The bucket. -/

theorem bucketPasses_iff (s : State) (part : Nat) :
    bucketPasses s part = true ↔ regActs s false part = false ∨ (regActs s false part = true ∧ 1 ≤ tokens s false part) := by
  cases h : regActs s false part <;> simp [bucketPasses, h]

theorem charged_idle {s : State} {part : Nat} (h : regActs s false part = false) (n : Nat) : charged part n s = s := by
  rw [charged, regulate_idle h, Option.getD_some]

theorem charged_charges {s : State} {part : Nat} (h : regActs s false part = true) (ht : 1 ≤ tokens s false part) (n : Nat) :
    charged part n s = setTokens false part (tokens s false part - n) s := by
  rw [charged, regulate_charges h ht, Option.getD_some]

theorem regulate_passes {s : State} {part : Nat} (h : bucketPasses s part = true) (n : Nat) :
    regulate false part n s = some (charged part n s) := by
  obtain hidle | ⟨hacts, htok⟩ := (bucketPasses_iff s part).1 h
  · rw [charged_idle hidle, regulate_idle hidle]
  · rw [charged_charges hacts htok, regulate_charges hacts htok]

theorem regulate_waits {s : State} {part : Nat} (h : bucketPasses s part = false) (n : Nat) : regulate false part n s = none := by
  obtain ⟨hacts, htok⟩ : regActs s false part = true ∧ tokens s false part < 1 := by simpa [bucketPasses] using h
  exact regulate_empty hacts htok n

/-- A charge leaves every register field, memory and what was sent. -/
theorem charged_same (part n : Nat) (s : State) :
    (charged part n s).regs = s.regs ∧ (charged part n s).mem = s.mem ∧ (charged part n s).out = s.out := by
  unfold charged regulate
  split
  · exact ⟨rfl, rfl, rfl⟩
  · split <;> exact ⟨rfl, rfl, rfl⟩

/-! An access at its controller. -/

section
variable {s : State} {x : Access}

theorem regAccess_waits (hb : bucketPasses s x.part = false) : regAccess x s = regWait (.stk x) s := by
  rw [regAccess, regulate_waits hb]

variable (hb : bucketPasses s x.part = true)
include hb

theorem regAccess_passes : regAccess x s = access x (charged x.part (accessLen x) s) := by
  rw [regAccess, regulate_passes hb]

theorem regAccess_refused {st : Nat} (h : accessRefusal s x.part x.off (accessLen x) = some st) :
    regAccess x s = (countRefusal x.off st (charged x.part (accessLen x) s)).emit (refusalMsg x st) := by
  have h' := (accessRefusal_congr (charged_same x.part (accessLen x) s).1 ..).trans h
  simp only [regAccess_passes hb, access, h', refuseAccess_eq]

/-- A refusal that is counted in field `f`. -/
theorem regAccess_counted {st i : Nat} {f : Fld} (h : accessRefusal s x.part x.off (accessLen x) = some st)
    (hf : ∀ u, countRefusal x.off st u = u.bump f i) :
    (regAccess x s).out = refusalMsg x st :: s.out ∧ (regAccess x s).rd f i = min (2 ^ f.wd - 1) (s.rd f i + 1) ∧
    OutOnly (charged x.part (accessLen x) s) (regAccess x s) [f.key i] := by
  obtain ⟨hregs, -, hout⟩ := charged_same x.part (accessLen x) s
  rw [regAccess_refused hb h, hf]
  refine ⟨congrArg _ hout, ?_, rfl, SameRegs.wr _ _ _ _⟩
  rw [emit_rd, rd_bump_self, rd_congr hregs]

theorem regAccess_outOfRange (h : upperSize < x.off + accessLen x ∨ upperSize ≤ x.off) :
    (regAccess x s).out = refusalMsg x ST.ADDR_RANGE :: s.out ∧
    (regAccess x s).rd (STK_CNT.COUNT 3) (offStack x.off) = min (2 ^ 32 - 1) (s.rd (STK_CNT.COUNT 3) (offStack x.off) + 1) ∧
    OutOnly (charged x.part (accessLen x) s) (regAccess x s) [(STK_CNT.COUNT 3).key (offStack x.off)] :=
  regAccess_counted hb (accessRefusal_outOfRange s x.part h) fun _ => rfl

theorem regAccess_foreign (hend : x.off + accessLen x ≤ upperSize) (hoff : x.off < upperSize)
    (hopen : ∀ a ∈ rangesOf x.off (accessLen x), stackShut s (offStack a) = false) (hp : x.part ≠ 0)
    (h : ∃ a ∈ rangesOf x.off (accessLen x), setOwner s (offStack a) (offSet a) ≠ some x.part) :
    (regAccess x s).out = refusalMsg x ST.POISON :: s.out ∧
    (regAccess x s).rd GUT_XPART_CNT.COUNT = min (2 ^ 32 - 1) (s.rd GUT_XPART_CNT.COUNT + 1) ∧
    OutOnly (charged x.part (accessLen x) s) (regAccess x s) [GUT_XPART_CNT.COUNT.key 0] :=
  regAccess_counted hb (accessRefusal_foreign hend hoff hopen hp h) fun _ => rfl

theorem regAccess_shut (hend : x.off + accessLen x ≤ upperSize) (hoff : x.off < upperSize)
    (h : ∃ a ∈ rangesOf x.off (accessLen x), stackShut s (offStack a) = true) :
    (regAccess x s).out = refusalMsg x ST.STK_FENCED :: s.out ∧ OutOnly (charged x.part (accessLen x) s) (regAccess x s) [] := by
  rw [regAccess_refused hb (accessRefusal_shut hend hoff x.part h)]
  exact ⟨congrArg _ (charged_same ..).2.2, rfl, .refl _ _⟩

/-- A fifth failed transfer fences the stack, which refuses what waits there and then the access. -/
theorem regAccess_fifthFailure (hc : 5 ≤ x.crcFails) (h : accessRefusal s x.part x.off (accessLen x) = none) :
    regAccess x s = (serveWaiting (offStack x.off) (stackFence (offStack x.off) x.part x.off
      ((charged x.part (accessLen x) s).bumpBy (STK_CNT.COUNT 4) (offStack x.off) 4))).emit (refusalMsg x ST.STK_FENCED) := by
  have h' := (accessRefusal_congr (charged_same x.part (accessLen x) s).1 ..).trans h
  have hreplay (u : State) : replayed (offStack x.off) x.part x.off x.crcFails u = u.bumpBy (STK_CNT.COUNT 4) (offStack x.off) 4 := by
    rw [replayed, if_pos (.inr hc), Nat.min_eq_right (by omega)]
  simp only [regAccess_passes hb, access, h', hreplay, if_pos hc, refuseAccess_eq]

theorem regAccess_fences (hc : 5 ≤ x.crcFails) (h : accessRefusal s x.part x.off (accessLen x) = none) :
    (regAccess x s).rd STK_STS.FENCED (offStack x.off) = 1 ∧ (regAccess x s).mem = s.mem ∧
    (regAccess x s).rd (STK_CNT.COUNT 4) (offStack x.off) = min (2 ^ 32 - 1) (s.rd (STK_CNT.COUNT 4) (offStack x.off) + 4) ∧
    (regAccess x s).rd (STK_CNT.COUNT 5) (offStack x.off) = min (2 ^ 32 - 1) (s.rd (STK_CNT.COUNT 5) (offStack x.off) + 1) ∧
    (regAccess x s).rd STK_ERR_LOG1.KIND (offStack x.off) = 3 ∧
    (regAccess x s).rd STK_ERR_LOG0.OFFSET_LO (offStack x.off) = (x.off - x.off % 32) % 2 ^ 32 ∧
    (regAccess x s).out.head? = some (refusalMsg x ST.STK_FENCED) := by
  have hk := offStack_lt x.off
  obtain ⟨hregs, hmem, -⟩ := charged_same x.part (accessLen x) s
  obtain ⟨hfenced, hfmem, h4, h5, hkind, hlo⟩ := stackFence_shown hk x.part x.off
    ((charged x.part (accessLen x) s).bumpBy (STK_CNT.COUNT 4) (offStack x.off) 4)
  rw [regAccess_fifthFailure hb hc h]
  obtain ⟨hsregs, hsmem⟩ := serveWaiting_shut (stackShut_of_fenced hfenced)
  simp only [emit_rd, rd_congr hsregs]
  refine ⟨hfenced, ?_, ?_, ?_, hkind, hlo, rfl⟩
  · rw [emit_mem, hsmem, hfmem, bumpBy_mem, hmem]
  · rw [h4, rd_bumpBy_self, rd_congr hregs, count_wd]
  · rw [h5, rd_bumpBy_base _ _ (by decide) (by omega), rd_congr hregs]

end

end Sys2Proof.Machine

open Sys2Proof Sys2Proof.Machine

/-- Settles O10: reads and writes are refused alike, each clause by the lemma of that refusal on the charged state. That an access
is refused whole, and by its range before a fence before an owner, is the model's choice (assumption log 271, 272). -/
theorem stackAccessRefusals : Obligations.StackAccessRefusals := by
  unfold Obligations.StackAccessRefusals
  refine ⟨fun s part off len crc data poison hb => ?_,
    fun s part off len crc data poison => ⟨fun h => charged_idle h len, fun h ht => ?_, fun hb => ?_⟩⟩
  · let r : Access := { part := part, off := off, len := len, crcFails := crc }
    let w : Access := { write := true, part := part, off := off, data := data, poison := poison, crcFails := crc }
    have hr : bucketPasses s r.part = true := hb
    have hw : bucketPasses s w.part = true := hb
    exact ⟨fun h => ⟨_, rfl, regAccess_outOfRange hr h⟩, fun h => ⟨_, rfl, regAccess_outOfRange hw h⟩,
      fun he ho h => ⟨_, rfl, regAccess_shut hr he ho h⟩, fun he ho h => ⟨_, rfl, regAccess_shut hw he ho h⟩,
      fun he ho hopen hp h => ⟨_, rfl, regAccess_foreign hr he ho hopen hp h⟩,
      fun he ho hopen hp h => ⟨_, rfl, regAccess_foreign hw he ho hopen hp h⟩,
      fun hc h => ⟨_, rfl, regAccess_fences hr hc h⟩, fun hc h => ⟨_, rfl, regAccess_fences hw hc h⟩⟩
  · rw [charged_charges h ht]
    exact ⟨tokens_setTokens .., rfl, SameBut.put _ _ _ _⟩
  · exact ⟨⟨_, congrArg Host.Outcome.next (regAccess_waits hb), regWait_effect ..⟩,
      ⟨_, congrArg Host.Outcome.next (regAccess_waits hb), regWait_effect ..⟩⟩
end

section
/-!
PROOFS. Kern-64 (R44–R49, R54): a block's bytes as a number and back, the bits gathered at a mask and spread over it again, the
mask that the encoder takes, the packed area, and the body that the decoder gives back; then the two commands of a mover codec.
-/
namespace Sys2Proof.Machine

/-! Bytes and numbers. -/

@[simp] theorem length_natLe (n v : Nat) : (natLe n v).length = n := by
  induction n generalizing v with
  | zero => rfl
  | succ n ih => rw [natLe, List.length_cons, ih]

theorem leNat_lt (bs : Bytes) : leNat bs < 2 ^ (8 * bs.length) := by
  induction bs with
  | nil => exact Nat.one_pos
  | cons b r ih =>
    have hb := b.isLt
    rw [leNat, List.length_cons, Nat.mul_succ, Nat.pow_add]
    omega

theorem leNat_natLe (n v : Nat) : leNat (natLe n v) = v % 2 ^ (8 * n) := by
  induction n generalizing v with
  | zero => exact (Nat.mod_one v).symm
  | succ n ih => rw [natLe, leNat, ih, BitVec.toNat_ofNat, Nat.mul_succ, Nat.add_comm (8 * n), Nat.pow_add, Nat.mod_mul]

theorem natLe_leNat (bs : Bytes) : natLe bs.length (leNat bs) = bs := by
  induction bs with
  | nil => rfl
  | cons b r ih =>
    have hb := b.isLt
    have hdiv : leNat (b :: r) / 256 = leNat r := by rw [leNat]; omega
    rw [List.length_cons, natLe, hdiv, ih, leNat]
    congr 1
    exact BitVec.eq_of_toNat_eq (by rw [BitVec.toNat_ofNat]; omega)

theorem leAt_lt (bs : Bytes) (o n : Nat) : leAt bs o n < 2 ^ (8 * n) :=
  (leNat_lt _).trans_le (Nat.pow_le_pow_right (by omega) (by have := List.length_take_le n (bs.drop o); omega))

/-- A number written after `xs` is read back there. -/
theorem leAt_natLe (xs ys : Bytes) {o n v : Nat} (ho : xs.length = o) (hv : v < 2 ^ (8 * n)) :
    leAt (xs ++ (natLe n v ++ ys)) o n = v := by
  rw [leAt, ← ho, List.drop_left, List.take_left' (length_natLe n v), leNat_natLe, Nat.mod_eq_of_lt hv]

/-- The bytes that were cut into numbers of `n` bytes, joined again. -/
theorem flatMap_natLe_leAt (b : Bytes) (n m : Nat) (h : n * m ≤ b.length) :
    (List.range m).flatMap (fun i => natLe n (leAt b (n * i) n)) = b.take (n * m) := by
  induction m with
  | zero => rfl
  | succ m ih =>
    rw [Nat.mul_succ] at h ⊢
    have hlen : ((b.drop (n * m)).take n).length = n := by rw [List.length_take, List.length_drop]; omega
    have hlast : natLe n (leAt b (n * m) n) = (b.drop (n * m)).take n := by
      have := natLe_leNat ((b.drop (n * m)).take n)
      rwa [hlen] at this
    rw [List.range_succ, List.flatMap_append, ih (by omega), List.flatMap_singleton, hlast, List.take_add]

/-! Gathered and spread bits (R45). -/

theorem popCount_succ (z w : Nat) : popCount z (w + 1) = popCount z w + if bitOf z w then 1 else 0 := by
  rw [popCount, bitList, List.range_succ, List.filter_append, List.length_append]
  cases h : bitOf z w <;> simp [popCount, bitList, h]

theorem popCount_not (m w : Nat) : popCount ((2 ^ w - 1) ^^^ m) w = w - popCount m w := by
  have hsum := List.length_eq_length_filter_add (l := List.range w) (bitOf m)
  have hnot : bitList ((2 ^ w - 1) ^^^ m) w = (List.range w).filter (!bitOf m ·) :=
    List.filter_congr fun i hi => by simp [bitOf_eq_testBit, List.mem_range.1 hi]
  rw [popCount, hnot]
  rw [List.length_range] at hsum
  exact Nat.eq_sub_of_add_eq' hsum.symm

/-- What both folds over the bits of a mask count: the bits met so far. -/
theorem maskFold_snd (g : Nat → Nat → Nat) (z w : Nat) :
    ((List.range w).foldl (fun (r : Nat × Nat) n => if bitOf z n then (r.1 + g n r.2, r.2 + 1) else r) (0, 0)).2 = popCount z w := by
  induction w with
  | zero => rfl
  | succ w ih =>
    rw [List.range_succ, List.foldl_append, List.foldl_cons, List.foldl_nil, popCount_succ]
    split <;> simp [ih]

theorem gather_succ (v z w : Nat) : gather v z (w + 1) = gather v z w + if bitOf z w then bits v w 1 * 2 ^ popCount z w else 0 := by
  rw [gather, List.range_succ, List.foldl_append, List.foldl_cons, List.foldl_nil]
  split
  · rw [maskFold_snd fun n r => bits v n 1 * 2 ^ r]; rfl
  · rfl

theorem scatter_succ (v z w : Nat) : scatter v z (w + 1) = scatter v z w + if bitOf z w then bits v (popCount z w) 1 * 2 ^ w else 0 := by
  rw [scatter, List.range_succ, List.foldl_append, List.foldl_cons, List.foldl_nil]
  split
  · rw [maskFold_snd fun n r => bits v r 1 * 2 ^ n]; rfl
  · rfl

theorem bits_one (w i : Nat) : bits w i 1 = (w.testBit i).toNat := by
  rw [Nat.toNat_testBit]; rfl

theorem gather_lt (v z w : Nat) : gather v z w < 2 ^ popCount z w := by
  induction w with
  | zero => exact Nat.one_pos
  | succ w ih =>
    rw [gather_succ, popCount_succ]
    split
    · have hbit := bits_lt v w 1
      have : bits v w 1 * 2 ^ popCount z w ≤ 1 * 2 ^ popCount z w := Nat.mul_le_mul_right _ (by omega)
      rw [Nat.pow_succ]
      omega
    · exact ih

/-- Only as many low bits are spread as the mask has. -/
theorem scatter_mod (v z w n : Nat) (h : popCount z w ≤ n) : scatter (v % 2 ^ n) z w = scatter v z w := by
  induction w with
  | zero => rfl
  | succ w ih =>
    rw [popCount_succ] at h
    rw [scatter_succ, scatter_succ, ih (by omega)]
    split
    next hz =>
      rw [if_pos hz] at h
      rw [bits_one, bits_one, Nat.testBit_mod_two_pow, decide_eq_true (by omega : popCount z w < n), Bool.true_and]
    next => rfl

/-- Bits gathered at a mask and spread over it again are the bits at the mask. -/
theorem scatter_gather (v z w : Nat) : scatter (gather v z w) z w = (v &&& z) % 2 ^ w := by
  induction w with
  | zero => exact (Nat.mod_one _).symm
  | succ w ih =>
    rw [scatter_succ, gather_succ, Nat.mod_pow_succ, ← Nat.toNat_testBit, ← ih, Nat.testBit_and, ← bitOf_eq_testBit z]
    cases hz : bitOf z w with
    | false => simp
    | true =>
      have hlow : (gather v z w + bits v w 1 * 2 ^ popCount z w) % 2 ^ popCount z w = gather v z w := by
        rw [Nat.add_mul_mod_self_right, Nat.mod_eq_of_lt (gather_lt v z w)]
      have htop : bits (gather v z w + bits v w 1 * 2 ^ popCount z w) (popCount z w) 1 = bits v w 1 := by
        rw [bits, Nat.add_mul_div_right _ _ (Nat.two_pow_pos _), Nat.div_eq_of_lt (gather_lt v z w), Nat.zero_add,
          Nat.mod_eq_of_lt (bits_lt v w 1)]
      rw [if_pos rfl, if_pos rfl, htop, ← scatter_mod _ z w _ le_rfl, hlow, bits_one, Bool.and_true, Nat.mul_comm]

/-! The mask of a block (R46). -/

theorem testBit_foldl_and (xs : List Nat) (a j : Nat) :
    (xs.foldl (· &&& ·) a).testBit j = (a.testBit j && xs.all (·.testBit j)) := by
  induction xs generalizing a with
  | nil => simp
  | cons x xs ih => rw [List.foldl_cons, ih, Nat.testBit_and, List.all_cons, Bool.and_assoc]

theorem testBit_foldl_or (xs : List Nat) (a j : Nat) :
    (xs.foldl (· ||| ·) a).testBit j = (a.testBit j || xs.any (·.testBit j)) := by
  induction xs generalizing a with
  | nil => simp
  | cons x xs ih => rw [List.foldl_cons, ih, Nat.testBit_or, List.any_cons, Bool.or_assoc]

/-- The bit positions that the mask leaves to the fields. -/
def varying (w : Nat) (xs : List Nat) : Nat := (2 ^ w - 1) ^^^ (maskConst w xs).1

theorem testBit_const (w : Nat) (xs : List Nat) (j : Nat) :
    (maskConst w xs).2.testBit j = (decide (j < w) && xs.all (·.testBit j)) := by
  simp [maskConst, testBit_foldl_and]

theorem testBit_mask (w : Nat) (xs : List Nat) (j : Nat) :
    (maskConst w xs).1.testBit j = (decide (j < w) && xs.all (·.testBit j) || (decide (j < w) ^^ xs.any (·.testBit j))) := by
  simp [maskConst, testBit_foldl_and, testBit_foldl_or]

theorem const_lt (w : Nat) (xs : List Nat) : (maskConst w xs).2 < 2 ^ w :=
  Nat.lt_pow_two_of_testBit _ fun j hj => by rw [testBit_const, decide_eq_false (by omega), Bool.false_and]

/-- A position varies where some element has the bit and some element has not. -/
theorem testBit_varying {w j : Nat} (xs : List Nat) (hj : j < w) :
    (varying w xs).testBit j = (xs.any (·.testBit j) && !xs.all (·.testBit j)) := by
  rw [varying, Nat.testBit_xor, testBit_mask, Nat.testBit_two_pow_sub_one, decide_eq_true hj]
  cases xs.any (·.testBit j) <;> cases xs.all (·.testBit j) <;> rfl

theorem const_and_varying (w : Nat) (xs : List Nat) : (maskConst w xs).2 &&& varying w xs = 0 := by
  refine Nat.eq_of_testBit_eq fun j => ?_
  rw [Nat.testBit_and, testBit_const, Nat.zero_testBit]
  by_cases hj : j < w
  · rw [testBit_varying xs hj]
    cases xs.all (·.testBit j) <;> simp
  · simp [hj]

section
variable {w : Nat} {xs : List Nat} (hxs : ∀ x ∈ xs, x < 2 ^ w)
include hxs

theorem mask_lt : (maskConst w xs).1 < 2 ^ w := by
  refine Nat.lt_pow_two_of_testBit _ fun j hj => ?_
  have hany : xs.any (·.testBit j) = false := List.any_eq_false.2 fun x hx => by
    simp [Nat.testBit_lt_two_pow ((hxs x hx).trans_le (Nat.pow_le_pow_right (by omega) hj))]
  rw [testBit_mask, decide_eq_false (by omega), Bool.false_and, hany]
  rfl

/-- An element is the constants and its own bits at the positions that vary. -/
theorem const_or_varying {x : Nat} (hx : x ∈ xs) : (maskConst w xs).2 ||| (x &&& varying w xs) % 2 ^ w = x := by
  refine eq_of_testBit_below (Nat.or_lt_two_pow (const_lt w xs) (Nat.mod_lt _ (Nat.two_pow_pos w))) (hxs x hx) fun j hj => ?_
  have hall : xs.all (·.testBit j) = true → x.testBit j = true := fun h => List.all_eq_true.1 h x hx
  have hany : x.testBit j = true → xs.any (·.testBit j) = true := fun h => List.any_eq_true.2 ⟨x, hx, h⟩
  rw [Nat.testBit_or, testBit_const, Nat.testBit_mod_two_pow, Nat.testBit_and, testBit_varying _ hj, decide_eq_true hj]
  revert hall hany
  cases xs.all (·.testBit j) <;> cases xs.any (·.testBit j) <;> cases x.testBit j <;> simp

end

/-! The packed area (R45). -/

/-- The bits of a field in the packed area. -/
def fieldWidth (w : Nat) (xs : List Nat) : Nat := w - popCount (maskConst w xs).1 w

theorem popCount_varying (w : Nat) (xs : List Nat) : popCount (varying w xs) w = fieldWidth w xs := popCount_not _ w

/-- The fields of a block as the digits of its packed area. -/
def fieldsOf (w : Nat) (xs : List Nat) : List Nat := xs.map (gather · (varying w xs) w)

theorem fieldsOf_lt (w : Nat) (xs : List Nat) : ∀ g ∈ fieldsOf w xs, g < 2 ^ fieldWidth w xs := by
  refine List.forall_mem_map.2 fun x _ => ?_
  rw [← popCount_varying]
  exact gather_lt ..

/-- Fields laid one after another from bit `o` are digits of base `2 ^ k`. -/
theorem foldl_fields (g : Nat → Nat) (k : Nat) (xs : List Nat) (a o : Nat) :
    (xs.foldl (fun (r : Nat × Nat) x => (r.1 + g x * 2 ^ r.2, r.2 + k)) (a, o)).1 = a + 2 ^ o * Nat.ofDigits (2 ^ k) (xs.map g) := by
  induction xs generalizing a o with
  | nil => rfl
  | cons x xs ih =>
    rw [List.foldl_cons, ih, List.map_cons, Nat.ofDigits_cons, Nat.pow_add]
    ring

theorem ofDigits_two_pow_lt {k : Nat} {gs : List Nat} (h : ∀ g ∈ gs, g < 2 ^ k) : Nat.ofDigits (2 ^ k) gs < 2 ^ (k * gs.length) := by
  induction gs with
  | nil => exact Nat.one_pos
  | cons g gs ih =>
    obtain ⟨hg, hgs⟩ := List.forall_mem_cons.1 h
    have hrest : 2 ^ k * (Nat.ofDigits (2 ^ k) gs + 1) ≤ 2 ^ k * 2 ^ (k * gs.length) := Nat.mul_le_mul_left _ (ih hgs)
    rw [Nat.ofDigits_cons, List.length_cons, Nat.mul_succ, Nat.add_comm (k * _), Nat.pow_add]
    rw [Nat.mul_succ] at hrest
    exact (Nat.add_lt_add_right hg _).trans_le ((Nat.add_comm ..).trans_le hrest)

/-- Field `i` lies at bit `i × k`. -/
theorem bits_ofDigits {k : Nat} {gs : List Nat} (h : ∀ g ∈ gs, g < 2 ^ k) (i : Nat) (hi : i < gs.length) :
    bits (Nat.ofDigits (2 ^ k) gs) (i * k) k = gs[i] := by
  induction gs generalizing i with
  | nil => nomatch hi
  | cons g gs ih =>
    obtain ⟨hg, hgs⟩ := List.forall_mem_cons.1 h
    rw [Nat.ofDigits_cons]
    cases i with
    | zero => rw [bits, Nat.zero_mul, Nat.pow_zero, Nat.div_one, Nat.add_mul_mod_self_left, Nat.mod_eq_of_lt hg, List.getElem_cons_zero]
    | succ i =>
      rw [List.getElem_cons_succ, ← ih hgs i (Nat.lt_of_succ_lt_succ hi), bits, bits, Nat.succ_mul, Nat.add_comm (i * k), Nat.pow_add,
        ← Nat.div_div_eq_div_mul, Nat.add_mul_div_left _ _ (Nat.two_pow_pos k), Nat.div_eq_of_lt hg, Nat.zero_add]

/-- The packed area of a block. -/
def packedArea (w : Nat) (xs : List Nat) : Nat := Nat.ofDigits (2 ^ fieldWidth w xs) (fieldsOf w xs)

/-- A packed body: the mask, the constants and the area. -/
theorem packBody_eq (w : Nat) (xs : List Nat) : packBody w xs =
    (fieldWidth w xs, natLe (w / 8) (maskConst w xs).1 ++ natLe (w / 8) (maskConst w xs).2 ++
      natLe (64 * fieldWidth w xs / w) (packedArea w xs)) := by
  have harea := foldl_fields (gather · (varying w xs) w) (fieldWidth w xs) xs 0 0
  rw [Nat.zero_add, Nat.pow_zero, Nat.one_mul] at harea
  rw [packedArea, fieldsOf, ← harea]
  rfl

theorem packedArea_lt (w : Nat) (xs : List Nat) : packedArea w xs < 2 ^ (fieldWidth w xs * xs.length) := by
  have h := ofDigits_two_pow_lt (fieldsOf_lt w xs)
  rwa [fieldsOf, List.length_map] at h

/-- The elements of a block, as the decoder makes them from the constants and the fields of the area. -/
theorem elems_of_packedArea {w : Nat} {xs : List Nat} (hxs : ∀ x ∈ xs, x < 2 ^ w) :
    ((List.range xs.length).map fun i => (maskConst w xs).2 |||
      scatter (bits (packedArea w xs) (i * fieldWidth w xs) (fieldWidth w xs)) (varying w xs) w) = xs := by
  refine List.ext_getElem (by simp) fun i _ hi => ?_
  rw [List.getElem_map, List.getElem_range, packedArea, bits_ofDigits (fieldsOf_lt w xs) i (by simpa [fieldsOf] using hi)]
  simp only [fieldsOf, List.getElem_map]
  rw [scatter_gather, const_or_varying hxs (List.getElem_mem hi)]

/-! A block (R46, R49). -/

/-- The packed forms: PACK8 with flag 2 has bytes as elements, PACK16 with flag 3 halfwords, and fields of at most 7 and 14 bits. -/
def Packs (flag w k : Nat) : Prop := flag = 2 ∧ w = 8 ∧ k ≤ 7 ∨ flag = 3 ∧ w = 16 ∧ k ≤ 14

/-- A packed body of mask `m`, constants `c` and area `v` decodes to the elements that they make. -/
theorem decodeBlock_packed {flag w m c k a v : Nat} (hp : Packs flag w k) (hm : m < 2 ^ (8 * (w / 8))) (hc : c < 2 ^ (8 * (w / 8)))
    (hv : v < 2 ^ (8 * a)) (hk : w - popCount m w = k) (hcm : c &&& ((2 ^ w - 1) ^^^ m) = 0) (ha : 64 * k / w = a)
    (rest : Bytes) (n : Nat) :
    decodeBlock flag (natLe (w / 8) m ++ (natLe (w / 8) c ++ (natLe a v ++ rest))) (2 * (w / 8) + a + n) 0 =
      .ok (((List.range (512 / w)).map fun i => c ||| scatter (bits v (i * k) k) ((2 ^ w - 1) ^^^ m) w).flatMap (natLe (w / 8)),
        2 * (w / 8) + a) := by
  have hlane : (if flag = 2 then 8 else 16) = w := by unfold Packs at hp; split <;> omega
  have hkmax : ¬ (flag = 2 ∧ k = 8 ∨ flag = 3 ∧ 15 ≤ k) := by unfold Packs at hp; omega
  have hflag : flag ≠ 1 ∧ flag ≠ 0 := by unfold Packs at hp; omega
  have hmask := leAt_natLe [] (natLe (w / 8) c ++ (natLe a v ++ rest)) rfl hm
  have hconst := leAt_natLe (natLe (w / 8) m) (natLe a v ++ rest) (length_natLe ..) hc
  have harea := leAt_natLe (natLe (w / 8) m ++ natLe (w / 8) c) rest
    (by rw [List.length_append, length_natLe, length_natLe, Nat.two_mul] : _ = 2 * (w / 8)) hv
  rw [List.nil_append, List.length_nil] at hmask
  rw [List.append_assoc] at harea
  unfold decodeBlock
  rw [if_neg hflag.1, if_neg hflag.2]
  simp only [hlane, Nat.zero_add, hmask, hconst, hk, ha, harea, hcm]
  rw [if_neg (by omega), if_neg hkmax, if_neg (by omega), if_neg (by simp), if_neg (by omega)]

/-- A packed body decodes to its elements. -/
theorem decodeBlock_packBody {flag w : Nat} {xs : List Nat} (hp : Packs flag w (packBody w xs).1) (hxs : ∀ x ∈ xs, x < 2 ^ w)
    (hlength : xs.length = 512 / w) (rest : Bytes) (n : Nat) :
    decodeBlock flag ((packBody w xs).2 ++ rest) ((packBody w xs).2.length + n) 0 =
      .ok (xs.flatMap (natLe (w / 8)), (packBody w xs).2.length) := by
  have hlane : w = 8 ∨ w = 16 := hp.imp (·.2.1) (·.2.1)
  have hbytes : 2 ^ w = 2 ^ (8 * (w / 8)) := congrArg _ (by omega)
  have harea : packedArea w xs < 2 ^ (8 * (64 * fieldWidth w xs / w)) := by
    refine (packedArea_lt w xs).trans_eq (congrArg _ ?_)
    rw [hlength]
    rcases hlane with rfl | rfl <;> omega
  rw [packBody_eq] at hp ⊢
  simp only [List.length_append, length_natLe, List.append_assoc, ← Nat.two_mul, ← Nat.add_assoc]
  rw [decodeBlock_packed hp ((mask_lt hxs).trans_eq hbytes) ((const_lt w xs).trans_eq hbytes) harea rfl (const_and_varying w xs) rfl,
    ← hlength]
  exact congrArg (fun l => Except.ok (List.flatMap (natLe (w / 8)) l, _)) (elems_of_packedArea hxs)

theorem length_blockElems (w : Nat) (b : Bytes) : (blockElems w b).length = 512 / w := by
  simp [blockElems]

theorem blockElems_lt {w : Nat} (hw : 8 * (w / 8) = w) (b : Bytes) : ∀ x ∈ blockElems w b, x < 2 ^ w := by
  refine List.forall_mem_map.2 fun i _ => ?_
  have h := leAt_lt b (w / 8 * i) (w / 8)
  rwa [hw] at h

theorem flatMap_blockElems {w : Nat} (hw : w / 8 * (512 / w) = 64) {b : Bytes} (hb : b.length = 64) :
    (blockElems w b).flatMap (natLe (w / 8)) = b := by
  rw [blockElems, List.flatMap_map, flatMap_natLe_leAt b _ _ (by omega), hw, ← hb, List.take_length]

/-- A packed block decodes to the block. -/
theorem decodeBlock_packBlock {flag w : Nat} {b : Bytes} (hb : b.length = 64) (hp : Packs flag w (packBody w (blockElems w b)).1)
    (rest : Bytes) (n : Nat) :
    decodeBlock flag ((packBody w (blockElems w b)).2 ++ rest) ((packBody w (blockElems w b)).2.length + n) 0 =
      .ok (b, (packBody w (blockElems w b)).2.length) := by
  have hlane : w = 8 ∨ w = 16 := hp.imp (·.2.1) (·.2.1)
  have helems : w / 8 * (512 / w) = 64 := by rcases hlane with rfl | rfl <;> rfl
  rw [decodeBlock_packBody hp (blockElems_lt (by omega) b) (length_blockElems w b), flatMap_blockElems helems hb]

theorem length_packBody_le {w : Nat} {xs : List Nat} {flag : Nat} (hp : Packs flag w (packBody w xs).1) :
    (packBody w xs).2.length ≤ 60 := by
  rw [packBody_eq] at hp ⊢
  simp only [List.length_append, length_natLe]
  rcases hp with ⟨-, rfl, h⟩ | ⟨-, rfl, h⟩ <;> omega

/-- A block of zero bytes. -/
theorem eq_replicate_zero_of_blockElems {b : Bytes} (hb : b.length = 64) (h : (blockElems 8 b).all (· == 0) = true) :
    b = List.replicate 64 0 := by
  have hzero : blockElems 8 b = List.replicate 64 0 :=
    List.eq_replicate_iff.2 ⟨length_blockElems 8 b, fun x hx => by simpa using List.all_eq_true.1 h x hx⟩
  rw [← flatMap_blockElems (w := 8) rfl hb, hzero]
  rfl

/-- The encoder's choice (R46): a zero block, one of the packed forms, or the block itself. -/
theorem encodeBlock_cases (b : Bytes) :
    (encodeBlock b = (1, []) ∧ (blockElems 8 b).all (· == 0) = true) ∨
    (∃ flag w, Packs flag w (packBody w (blockElems w b)).1 ∧ encodeBlock b = (flag, (packBody w (blockElems w b)).2)) ∨
    encodeBlock b = (0, b) := by
  unfold encodeBlock
  dsimp only
  by_cases hz : (blockElems 8 b).all (· == 0) = true
  · exact .inl ⟨if_pos hz, hz⟩
  rw [if_neg hz]
  refine .inr ?_
  by_cases h16 : (packBody 16 (blockElems 16 b)).1 ≤ 14 ∧ (packBody 16 (blockElems 16 b)).2.length <
      (if (packBody 8 (blockElems 8 b)).1 ≤ 7 then (2, (packBody 8 (blockElems 8 b)).2) else (0, b)).2.length
  · exact .inl ⟨3, 16, .inr ⟨rfl, rfl, h16.1⟩, if_pos h16⟩
  rw [if_neg h16]
  split
  next h8 => exact .inl ⟨2, 8, .inl ⟨rfl, rfl, h8⟩, rfl⟩
  next => exact .inr rfl

/-- Kern-64 loses nothing: the decoder gives the encoder's block back and consumes what the encoder wrote, whatever follows. -/
theorem decodeBlock_encodeBlock {b : Bytes} (hb : b.length = 64) (rest : Bytes) (n : Nat) :
    decodeBlock (encodeBlock b).1 ((encodeBlock b).2 ++ rest) ((encodeBlock b).2.length + n) 0 = .ok (b, (encodeBlock b).2.length) := by
  obtain ⟨he, hz⟩ | ⟨flag, w, hp, he⟩ | he := encodeBlock_cases b
  · rw [he, eq_replicate_zero_of_blockElems hb hz]
    rfl
  · rw [he]
    exact decodeBlock_packBlock hb hp rest n
  · have hslice : slice (b ++ rest) 0 64 = b := by rw [slice, List.drop_zero, List.take_left' hb, hb]; exact List.append_nil b
    rw [he, decodeBlock, if_neg Nat.zero_ne_one, if_pos rfl, if_neg (by rw [hb]; omega), hslice, hb]

theorem length_encodeBlock_le {b : Bytes} (hb : b.length = 64) : (encodeBlock b).2.length ≤ 64 := by
  obtain ⟨he, -⟩ | ⟨flag, w, hp, he⟩ | he := encodeBlock_cases b
  · simp [he]
  · rw [he]
    exact (length_packBody_le hp).trans (by decide)
  · rw [he, hb]

/-! The commands of a mover codec (R54). What is stored does not depend on its queue. -/

/-- The state once a codec has taken a folio and left the queue `q`. -/
abbrev kernTaken (q : List Nat) (s : State) : State := unstall .kernEncode { s with flo.toEncode := q }

/-- Whether the requests of a codec for folio `f` must wait, and what the wait changes. -/
abbrev kernWait (s : State) (f : Nat) : Option State :=
  reqWaits .kernEncode (s.folio f).part (chunkOff (s.folio f).chunk) (bodyOff + (hdrAt s (chunkOff (s.folio f).chunk)).blocks * 64) s

theorem recordAt_kernTaken (q : List Nat) (s : State) (o : Nat) : recordAt (kernTaken q s) o = recordAt s o := rfl

theorem readAt_kernTaken (q : List Nat) (s : State) (loc : Nat) : (readAt (kernTaken q s) loc).1 = (readAt s loc).1 := by
  have hcells : cells (kernTaken q s) loc = cells s loc := rfl
  unfold readAt
  rw [hcells]
  cases cells s loc with
  | none => rfl
  | some d =>
    dsimp only
    have hpoison : poisonBit (kernTaken q s) loc = poisonBit s loc := rfl
    have hword : wordOf (kernTaken q s) loc d = wordOf s loc d := rfl
    rw [hpoison, hword]
    split
    · rfl
    · cases decodeWord (wordOf s loc d) <;> rfl

theorem readSector_kernTaken (q : List Nat) (s : State) (o : Nat) : (readSector (kernTaken q s) o).1 = (readSector s o).1 := by
  unfold readSector
  rw [recordAt_kernTaken]
  cases recordAt s o with
  | none => exact readAt_kernTaken ..
  | some d => rfl

theorem peek_kernTaken (q : List Nat) (s : State) (o n : Nat) : peek (kernTaken q s) o n = peek s o n := by
  simp only [peek, peekSector, readSector_kernTaken]

theorem encodable_kernTaken (q : List Nat) (s : State) (h : Hdr) (hdr : Bytes) :
    encodable (kernTaken q s) h hdr = encodable s h hdr := rfl

section
variable {s : State} {f : Nat} {rest : List Nat} (hq : s.flo.toEncode = f :: rest)
include hq

/-- A folio that is no longer a closed solid one leaves the queue. -/
theorem execKernEncode_drops (h : (s.folio f).state ≠ 1 ∨ (s.folio f).kerned = true ∨ (s.folio f).closed = false) :
    execKernEncode s = .next { s with flo.toEncode := rest } := by
  unfold execKernEncode
  rw [hq]
  exact if_pos (by simpa using h)

section
variable (hs : (s.folio f).state = 1) (hk : (s.folio f).kerned = false) (hc : (s.folio f).closed = true)
include hs hk hc

/-- A closed solid folio whose requests must wait. -/
theorem execKernEncode_waits {s1 : State} (hw : kernWait s f = some s1) : execKernEncode s = .next s1 := by
  unfold kernWait at hw
  unfold execKernEncode
  rw [hq]
  dsimp only
  rw [if_neg (by simp [hs, hk, hc]), hw]

/-- A closed solid folio whose requests pass is remembered with the extent it was encoded into, or stays solid. -/
theorem execKernEncode_encodes (hw : kernWait s f = none) {st : Nat} {x : Option (Nat × Nat)} {s1 : State}
    (he : encodeFolio f (kernTaken rest s) = (st, x, s1)) :
    execKernEncode s = .next (x.elim s1 fun x => { s1 with flo.encodes := KMap.insert s1.flo.encodes f x }) := by
  unfold kernWait at hw
  unfold execKernEncode
  rw [hq]
  dsimp only
  rw [if_neg (by simp [hs, hk, hc]), hw]
  dsimp only
  rw [he]
  cases x <;> rfl

end

end

/-- A folio whose header does not agree with its descriptor is logged and stays solid (R49, condition 1). -/
theorem encodeFolio_malformed {f : Nat} {s : State}
    (h : encodable s (hdrAt s (chunkOff (s.folio f).chunk)) (peek s (chunkOff (s.folio f).chunk) 64) = false) :
    encodeFolio f s = (ST.KERN_FORMAT_SVC, none, kernFault .chip 64 ST.KERN_FORMAT_SVC f 0 4 s) := by
  unfold encodeFolio
  exact if_pos (by simp [h])

/-- The same for a folio that a codec has just taken, by its header in the state before. -/
theorem encodeFolio_kernTaken_malformed {f : Nat} {s : State} (rest : List Nat)
    (h : encodable s (hdrAt s (chunkOff (s.folio f).chunk)) (peek s (chunkOff (s.folio f).chunk) 64) = false) :
    encodeFolio f (kernTaken rest s) = (ST.KERN_FORMAT_SVC, none, kernFault .chip 64 ST.KERN_FORMAT_SVC f 0 4 (kernTaken rest s)) := by
  refine encodeFolio_malformed ?_
  rw [hdrAt, peek_kernTaken, encodable_kernTaken]
  exact h

/-- The entry of a folio switched to a kerned extent: its solid one and the count of that are remembered. -/
def FolioEnt.switched (e : FolioEnt) (ch n : Nat) : FolioEnt :=
  { e with chunk := ch, nchunk := n, kerned := true, outst := 0, oldChunk := e.chunk, oldN := e.nchunk, oldOutst := e.outst }

/-- While the solid extent of a folio in use has a count, the switch changes the entry and frees nothing. -/
theorem switchExtent_counted {f : Nat} {s : State} (hs : (s.folio f).state = 1) (ho : (s.folio f).outst ≠ 0) (ch n : Nat) :
    switchExtent f ch n s = s.setFolio f ((s.folio f).switched ch n) := by
  unfold switchExtent
  dsimp only
  rw [if_neg (not_not_intro hs), if_neg ho]
  rfl

/-- The end of an encode forgets the extent it remembered and switches the folio to it. -/
theorem execKernEncodeDone_counted {f ch n : Nat} {s : State} (he : KMap.find? s.flo.encodes f = some (ch, n))
    (hs : (s.folio f).state = 1) (ho : (s.folio f).outst ≠ 0) :
    execKernEncodeDone f s =
      .next ({ s with flo.encodes := KMap.erase s.flo.encodes f }.setFolio f ((s.folio f).switched ch n)) := by
  unfold execKernEncodeDone
  rw [he]
  exact congrArg Host.Outcome.next (switchExtent_counted (s := { s with flo.encodes := KMap.erase s.flo.encodes f }) hs ho ch n)

theorem folio_setFolio_self (s : State) (f : Nat) (e : FolioEnt) : (s.setFolio f e).folio f = e := KMap.get_put_self ..

theorem folio_setFolio_other (s : State) {f g : Nat} (e : FolioEnt) (h : g ≠ f) : (s.setFolio f e).folio g = s.folio g :=
  KMap.get_put_other _ _ _ _ h

end Sys2Proof.Machine

open Sys2Proof Sys2Proof.Machine

/-- Settles O26: a block by `decodeBlock_encodeBlock`, the commands by what each can do with the folio they take. -/
theorem kernEncodingIsLossless : Obligations.KernEncodingIsLossless := by
  unfold Obligations.KernEncodingIsLossless
  refine ⟨fun b rest n hb => ⟨decodeBlock_encodeBlock hb rest n, length_encodeBlock_le hb⟩,
    fun s f rest hq => ⟨execKernEncode_drops hq, fun hs hk hc => ?_⟩, fun s f ch n he hs ho => ?_⟩
  · refine ⟨fun s1 hw => execKernEncode_waits hq hs hk hc hw, fun hw => ⟨fun st x s1 he => ?_, fun st s1 he => ?_, fun hbad => ?_⟩⟩
    · exact execKernEncode_encodes hq hs hk hc hw he
    · exact execKernEncode_encodes hq hs hk hc hw he
    · exact execKernEncode_encodes hq hs hk hc hw (encodeFolio_kernTaken_malformed rest hbad)
  · refine ⟨_, execKernEncodeDone_counted he hs ho, ?_⟩
    rw [folio_setFolio_self]
    exact ⟨rfl, rfl, rfl, rfl, rfl, KMap.find?_erase_self .., fun g hg => folio_setFolio_other _ _ hg, rfl⟩
end

section
/-!
PROOFS. The array code (R59–R61): doubling and products of GF(2^8) as maps that are linear over XOR, the check symbols as the
remainder that cancels the sector at every root of g(x), and what one wrong symbol adds to the syndromes.
-/
namespace Sys2Proof.Machine

/-! Doublings and products. -/

theorem gfTwice_lt {a : Nat} (ha : a < 256) : gfTwice a < 256 := by
  unfold gfTwice
  split <;> omega

theorem testBit_seven {a : Nat} (ha : a < 256) : a.testBit 7 = decide (128 ≤ a) := by
  rw [Nat.testBit_eq_decide_div_mod_eq, Bool.eq_iff_iff, decide_eq_true_eq, decide_eq_true_eq]
  omega

/-- A doubling shifts, and adds the field polynomial where bit 7 goes out. -/
theorem gfTwice_eq {a : Nat} (ha : a < 256) : gfTwice a = (a * 2 ^^^ (if a.testBit 7 then 0x11D else 0)) % 2 ^ 8 := by
  unfold gfTwice
  rw [testBit_seven ha]
  by_cases h : 128 ≤ a
  · simp [h]
  · simp only [h, decide_false, if_false, Bool.false_eq_true, Nat.xor_zero]
    omega

theorem gfTwice_xor {a b : Nat} (ha : a < 256) (hb : b < 256) : gfTwice (a ^^^ b) = gfTwice a ^^^ gfTwice b := by
  have hab : a ^^^ b < 256 := Nat.xor_lt_two_pow (n := 8) ha hb
  have hshift : (a ^^^ b) * 2 = a * 2 ^^^ b * 2 := by
    simpa [Nat.shiftLeft_eq] using Nat.shiftLeft_xor_distrib (a := a) (b := b) (i := 1)
  rw [gfTwice_eq ha, gfTwice_eq hb, gfTwice_eq hab, ← Nat.xor_mod_two_pow, Nat.testBit_xor, hshift]
  congr 1
  cases a.testBit 7 <;> cases b.testBit 7 <;> simp [Nat.xor_assoc, Nat.xor_comm, Nat.xor_left_comm]

theorem gfMulAux_lt (n : Nat) {a : Nat} (ha : a < 256) (x : Nat) : gfMulAux n a x < 256 := by
  induction n generalizing a x with
  | zero => exact Nat.zero_lt_succ _
  | succ n ih =>
    refine Nat.xor_lt_two_pow (n := 8) ?_ (ih (gfTwice_lt ha) _)
    split <;> omega

theorem gfMulAux_xor (n : Nat) {a b : Nat} (ha : a < 256) (hb : b < 256) (x : Nat) :
    gfMulAux n (a ^^^ b) x = gfMulAux n a x ^^^ gfMulAux n b x := by
  induction n generalizing a b x with
  | zero => exact (Nat.xor_self 0).symm
  | succ n ih =>
    simp only [gfMulAux, gfTwice_xor ha hb, ih (gfTwice_lt ha) (gfTwice_lt hb)]
    split <;> simp [Nat.xor_assoc, Nat.xor_left_comm]

theorem gfMul_lt {a : Nat} (ha : a < 256) (x : Nat) : gfMul a x < 256 := gfMulAux_lt 8 ha x

theorem gfMul_xor {a b : Nat} (ha : a < 256) (hb : b < 256) (x : Nat) : gfMul (a ^^^ b) x = gfMul a x ^^^ gfMul b x :=
  gfMulAux_xor 8 ha hb x

theorem gfMul_zero (x : Nat) : gfMul 0 x = 0 := by
  simpa using gfMul_xor (a := 0) (b := 0) (by decide) (by decide) x

/-- A map of symbols that is linear over XOR. -/
structure GfLinear (f : Nat → Nat) : Prop where
  lt : ∀ a < 256, f a < 256
  xor : ∀ a < 256, ∀ b < 256, f (a ^^^ b) = f a ^^^ f b

theorem gfTwice_linear : GfLinear gfTwice := ⟨fun _ => gfTwice_lt, fun _ ha _ hb => gfTwice_xor ha hb⟩

theorem gfMul_linear (x : Nat) : GfLinear (gfMul · x) := ⟨fun _ ha => gfMul_lt ha x, fun _ ha _ hb => gfMul_xor ha hb x⟩

theorem GfLinear.iterate {f : Nat → Nat} (h : GfLinear f) (i : Nat) : GfLinear f^[i] := by
  induction i with
  | zero => exact ⟨fun _ => id, fun _ _ _ _ => rfl⟩
  | succ i ih =>
    refine ⟨fun a ha => ?_, fun a ha b hb => ?_⟩
    · exact ih.lt _ (h.lt a ha)
    · simp only [Function.iterate_succ_apply, h.xor a ha b hb, ih.xor _ (h.lt a ha) _ (h.lt b hb)]

theorem GfLinear.zero {f : Nat → Nat} (h : GfLinear f) : f 0 = 0 := by
  simpa using h.xor 0 (by decide) 0 (by decide)

/-- Linear maps that agree at the eight bits agree. -/
theorem GfLinear.ext {f g : Nat → Nat} (hf : GfLinear f) (hg : GfLinear g) (h : ∀ j < 8, f (2 ^ j) = g (2 ^ j)) :
    ∀ a < 256, f a = g a := by
  have hbelow : ∀ n ≤ 8, ∀ a < 2 ^ n, f a = g a := by
    intro n
    induction n with
    | zero =>
      rintro - a ha
      obtain rfl : a = 0 := by omega
      rw [hf.zero, hg.zero]
    | succ n ih =>
      intro hn a ha
      by_cases hlow : a < 2 ^ n
      · exact ih (by omega) a hlow
      have hbit : 2 ^ n ≤ 2 ^ 7 := Nat.pow_le_pow_right (by decide) (by omega)
      have hrest : a ^^^ 2 ^ n < 2 ^ n := by
        have hset : a.testBit n = true := Nat.testBit_of_two_pow_le_and_two_pow_add_one_gt (by omega) ha
        refine Nat.lt_pow_two_of_testBit _ fun j hj => ?_
        rw [Nat.testBit_xor, Nat.testBit_two_pow]
        rcases Nat.eq_or_lt_of_le hj with rfl | hj
        · simp [hset]
        · simp [Nat.testBit_lt_two_pow (ha.trans_le (Nat.pow_le_pow_right (by decide) hj)), hj.ne]
      have hsplit : a = (a ^^^ 2 ^ n) ^^^ 2 ^ n := by rw [Nat.xor_assoc, Nat.xor_self, Nat.xor_zero]
      rw [hsplit, hf.xor _ (by omega) _ (by omega), hg.xor _ (by omega) _ (by omega), ih (by omega) _ hrest, h n (by omega)]
  exact hbelow 8 le_rfl

/-- Multiplying by the powers of α. -/
theorem gfMul_alpha : ∀ a < 256, gfMul a 1 = a ∧ gfMul a 2 = gfTwice a ∧ gfMul a 4 = gfTwice^[2] a ∧ gfMul a 8 = gfTwice^[3] a := by
  have hext {x i : Nat} (h : ∀ j < 8, gfMul (2 ^ j) x = gfTwice^[i] (2 ^ j)) : ∀ a < 256, gfMul a x = gfTwice^[i] a :=
    (gfMul_linear x).ext (gfTwice_linear.iterate i) h
  exact fun a ha => ⟨hext (i := 0) (by decide) a ha, hext (i := 1) (by decide) a ha, hext (i := 2) (by decide) a ha, hext (i := 3) (by decide) a ha⟩

/-- A product with a power of α is as many doublings. -/
theorem gfMul_gfPow : ∀ i < 36, ∀ a < 256, gfMul a (gfPow 2 i) = gfTwice^[i] a := by
  have hbits : ∀ i < 36, ∀ j < 8, gfMul (2 ^ j) (gfPow 2 i) = gfTwice^[i] (2 ^ j) := by decide +kernel
  exact fun i hi => (gfMul_linear _).ext (gfTwice_linear.iterate i) (hbits i hi)

/-- No symbol but 0 comes back within 35 doublings. -/
theorem not_mem_doublings : ∀ e < 256, 0 < e → 0 < gfTwice e ∧ e ∉ List.iterate gfTwice (gfTwice e) 35 := by
  decide +kernel

/-- Doubled once more or less often, a symbol other than 0 is another one. -/
theorem iterate_gfTwice_ne {i k e : Nat} (hik : i < k) (hk : k < 36) (he : e < 256) (hpos : 0 < e) :
    gfTwice^[i] e ≠ gfTwice^[k] e := by
  induction i generalizing k e with
  | zero =>
    obtain ⟨k, rfl⟩ := Nat.exists_eq_succ_of_ne_zero hik.ne'
    exact fun h => (not_mem_doublings e he hpos).2 (List.mem_iterate.2 ⟨k, by omega, h⟩)
  | succ i ih =>
    obtain ⟨k, rfl⟩ := Nat.exists_eq_succ_of_ne_zero (Nat.ne_of_gt (Nat.zero_lt_of_lt hik))
    exact ih (Nat.lt_of_succ_lt_succ hik) (by omega) (gfTwice_lt he) (not_mem_doublings e he hpos).1

/-! The code word (R59). -/

/-- Every symbol of a word is a byte. -/
abbrev Symbols (w : List Nat) : Prop := ∀ c ∈ w, c < 256

theorem wordAt_cons (x c : Nat) (w : List Nat) : wordAt x (c :: w) = c ^^^ gfMul (wordAt x w) x := rfl

theorem wordAt_lt (x : Nat) {w : List Nat} (hw : Symbols w) : wordAt x w < 256 := by
  induction w with
  | nil => exact Nat.zero_lt_succ _
  | cons c w ih =>
    obtain ⟨hc, hw⟩ := List.forall_mem_cons.1 hw
    exact Nat.xor_lt_two_pow (n := 8) hc (gfMul_lt (ih hw) x)

/-- A word behind another counts shifted by the length of that one. -/
theorem wordAt_append (x : Nat) {v w : List Nat} (hv : Symbols v) (hw : Symbols w) :
    wordAt x (v ++ w) = wordAt x v ^^^ (gfMul · x)^[v.length] (wordAt x w) := by
  induction v with
  | nil => exact (Nat.zero_xor _).symm
  | cons c v ih =>
    obtain ⟨-, hv⟩ := List.forall_mem_cons.1 hv
    rw [List.cons_append, wordAt_cons, wordAt_cons, ih hv, List.length_cons, Function.iterate_succ_apply', Nat.xor_assoc]
    congr 1
    exact gfMul_xor (wordAt_lt x hv) (((gfMul_linear x).iterate _).lt _ (wordAt_lt x hw)) x

/-- The values of two words of one length add. -/
theorem wordAt_zipWith_xor (x : Nat) {v w : List Nat} (hv : Symbols v) (hw : Symbols w) (h : v.length = w.length) :
    wordAt x (List.zipWith (· ^^^ ·) v w) = wordAt x v ^^^ wordAt x w := by
  induction v generalizing w with
  | nil => obtain rfl := List.eq_nil_of_length_eq_zero h.symm; exact (Nat.xor_self 0).symm
  | cons a v ih =>
    cases w with
    | nil => nomatch h
    | cons b w =>
      obtain ⟨-, hv⟩ := List.forall_mem_cons.1 hv
      obtain ⟨-, hw⟩ := List.forall_mem_cons.1 hw
      rw [List.zipWith_cons_cons, wordAt_cons, wordAt_cons, wordAt_cons, ih hv hw (Nat.succ.inj h),
        gfMul_xor (wordAt_lt x hv) (wordAt_lt x hw)]
      simp [Nat.xor_assoc, Nat.xor_left_comm]

theorem symbols_zipWith_xor {v w : List Nat} (hv : Symbols v) (hw : Symbols w) : Symbols (List.zipWith (· ^^^ ·) v w) := by
  intro c hc
  obtain ⟨i, hi, rfl⟩ := List.getElem_of_mem hc
  rw [List.getElem_zipWith]
  exact Nat.xor_lt_two_pow (n := 8) (hv _ (List.getElem_mem _)) (hw _ (List.getElem_mem _))

/-- A wrong symbol adds its error, shifted to its place. -/
theorem wordAt_flipAt (x : Nat) {w : List Nat} (hw : Symbols w) {i e : Nat} (hi : i < w.length) (he : e < 256) :
    wordAt x (flipAt w i e) = wordAt x w ^^^ (gfMul · x)^[i] e := by
  induction w generalizing i with
  | nil => nomatch hi
  | cons c w ih =>
    obtain ⟨-, hw⟩ := List.forall_mem_cons.1 hw
    cases i with
    | zero => simp [flipAt, wordAt_cons, Nat.xor_assoc, Nat.xor_comm]
    | succ i =>
      have htail := ih hw (Nat.lt_of_succ_lt_succ hi)
      show wordAt x (c :: flipAt w i e) = _
      rw [wordAt_cons, wordAt_cons, htail, Function.iterate_succ_apply', Nat.xor_assoc]
      congr 1
      exact gfMul_xor (wordAt_lt x hw) (((gfMul_linear x).iterate i).lt e he) x

theorem flipAt_flipAt {w : List Nat} {i : Nat} (hi : i < w.length) (e : Nat) : flipAt (flipAt w i e) i e = w := by
  simp [flipAt, hi]

/-! The check symbols. -/

/-- The four roots of g(x). -/
abbrev IsRoot (x : Nat) : Prop := x = 1 ∨ x = 2 ∨ x = 4 ∨ x = 8

/-- `t` times the lower coefficients of g(x). -/
def generatorTimes (t : Nat) : List Nat := [gfMul t 0x40, gfMul t 0x78, gfMul t 0x36, gfMul t 0x0F]

theorem symbols_generatorTimes {t : Nat} (ht : t < 256) : Symbols (generatorTimes t) := by
  simp [Symbols, generatorTimes, gfMul_lt ht]

theorem length_generatorTimes (t : Nat) : (generatorTimes t).length = 4 := rfl

theorem generatorTimes_xor {a b : Nat} (ha : a < 256) (hb : b < 256) :
    generatorTimes (a ^^^ b) = List.zipWith (· ^^^ ·) (generatorTimes a) (generatorTimes b) := by
  simp [generatorTimes, gfMul_xor ha hb]

/-- At a root of g(x) its lower terms make x^4. -/
theorem wordAt_generatorTimes {x : Nat} (hx : IsRoot x) : ∀ t < 256, wordAt x (generatorTimes t) = (gfMul · x)^[4] t := by
  have hlinear : GfLinear fun t => wordAt x (generatorTimes t) := by
    refine ⟨fun t ht => wordAt_lt x (symbols_generatorTimes ht), fun a ha b hb => ?_⟩
    rw [generatorTimes_xor ha hb, wordAt_zipWith_xor x (symbols_generatorTimes ha) (symbols_generatorTimes hb)
      ((length_generatorTimes a).trans (length_generatorTimes b).symm)]
  refine hlinear.ext ((gfMul_linear x).iterate 4) ?_
  rcases hx with rfl | rfl | rfl | rfl <;> decide +kernel

/-- One more byte of the sector is one step of the division by g(x). -/
theorem checkSyms_cons {d : List Nat} {c0 c1 c2 c3 : Nat} (h : checkSyms d = [c0, c1, c2, c3]) (b : Nat) :
    checkSyms (b :: d) = List.zipWith (· ^^^ ·) [0, c0, c1, c2] (generatorTimes (b ^^^ c3)) := by
  unfold checkSyms at h ⊢
  rw [List.foldl_reverse] at h ⊢
  rw [List.foldr_cons, h]
  simp [generatorTimes]

/-- The check symbols are the remainder of the sector, moved up by four places. -/
theorem checkSyms_spec {d : List Nat} (hd : Symbols d) : ∃ c0 c1 c2 c3, checkSyms d = [c0, c1, c2, c3] ∧ Symbols [c0, c1, c2, c3] ∧
    ∀ x, IsRoot x → wordAt x [c0, c1, c2, c3] = (gfMul · x)^[4] (wordAt x d) := by
  induction d with
  | nil =>
    refine ⟨0, 0, 0, 0, rfl, by decide, fun x _ => ?_⟩
    rw [show wordAt x [] = 0 from rfl, ((gfMul_linear x).iterate 4).zero]
    simp [wordAt, gfMul_zero]
  | cons b d ih =>
    obtain ⟨hb, hd⟩ := List.forall_mem_cons.1 hd
    obtain ⟨c0, c1, c2, c3, hsyms, hc, hval⟩ := ih hd
    obtain ⟨h0, h1, h2, h3⟩ : c0 < 256 ∧ c1 < 256 ∧ c2 < 256 ∧ c3 < 256 := by simpa [Symbols] using hc
    have ht : b ^^^ c3 < 256 := Nat.xor_lt_two_pow (n := 8) hb h3
    have hlow : Symbols [c0, c1, c2] := by simp [Symbols, h0, h1, h2]
    have hlow0 : Symbols [0, c0, c1, c2] := by simp [Symbols, h0, h1, h2]
    refine ⟨_, _, _, _, checkSyms_cons hsyms b, ?_, fun x hx => ?_⟩
    · exact symbols_zipWith_xor hlow0 (symbols_generatorTimes ht)
    · have hlin := (gfMul_linear x).iterate 4
      have hsplit : wordAt x [c0, c1, c2, c3] = wordAt x [c0, c1, c2] ^^^ (gfMul · x)^[3] c3 := by
        simpa [wordAt, gfMul_zero] using wordAt_append x hlow (w := [c3]) (by simpa [Symbols] using h3)
      have hshift : wordAt x [0, c0, c1, c2] ^^^ (gfMul · x)^[4] c3 = gfMul (wordAt x [c0, c1, c2, c3]) x := by
        rw [hsplit, wordAt_cons, Nat.zero_xor, gfMul_xor (wordAt_lt x hlow) (((gfMul_linear x).iterate 3).lt _ h3),
          Function.iterate_succ_apply']
      have hnext : wordAt x (List.zipWith (· ^^^ ·) [0, c0, c1, c2] (generatorTimes (b ^^^ c3))) =
          (gfMul · x)^[4] b ^^^ gfMul (wordAt x [c0, c1, c2, c3]) x := by
        rw [wordAt_zipWith_xor x hlow0 (symbols_generatorTimes ht) rfl, wordAt_generatorTimes hx _ ht, hlin.xor b hb c3 h3, ← hshift]
        ac_rfl
      refine hnext.trans ?_
      have hmove := (Function.Commute.refl (gfMul · x)).iterate_right 4 |>.eq (wordAt x d)
      rw [hval x hx, wordAt_cons, hlin.xor b hb _ (gfMul_lt (wordAt_lt x hd) x), ← hmove]

/-- The code word of a sector has no syndrome. -/
theorem wordAt_codeWord {d : List Nat} (hd : Symbols d) {x : Nat} (hx : IsRoot x) : wordAt x (checkSyms d ++ d) = 0 := by
  obtain ⟨c0, c1, c2, c3, hsyms, hc, hval⟩ := checkSyms_spec hd
  rw [hsyms, wordAt_append x hc hd, hval x hx]
  exact Nat.xor_self _

/-! Decoding (R61). -/

/-- The code word of a sector's bytes, with fresh check symbols. -/
abbrev codeWord (d : List Nat) : List Nat := checkSyms d ++ d

theorem symbols_codeWord {d : List Nat} (hd : Symbols d) : Symbols (codeWord d) := by
  obtain ⟨c0, c1, c2, c3, hsyms, hc, -⟩ := checkSyms_spec hd
  rw [codeWord, hsyms]
  exact List.forall_mem_append.2 ⟨hc, hd⟩

theorem length_codeWord {d : List Nat} (hd : Symbols d) : (codeWord d).length = 4 + d.length := by
  obtain ⟨c0, c1, c2, c3, hsyms, -, -⟩ := checkSyms_spec hd
  rw [codeWord, hsyms, List.length_append]
  rfl

theorem decodeWord_codeWord {d : List Nat} (hd : Symbols d) : decodeWord (codeWord d) = .clean := by
  have hzero : syndromes (codeWord d) = [0, 0, 0, 0] := by
    simp only [syndromes, codeWord, wordAt_codeWord hd (.inl rfl), wordAt_codeWord hd (.inr (.inl rfl)),
      wordAt_codeWord hd (.inr (.inr (.inl rfl))), wordAt_codeWord hd (.inr (.inr (.inr rfl)))]
  rw [decodeWord, hzero]
  rfl

theorem iterate_gfMul {x m : Nat} (h : ∀ a < 256, gfMul a x = gfTwice^[m] a) (i : Nat) {e : Nat} (he : e < 256) :
    (gfMul · x)^[i] e = gfTwice^[m * i] e := by
  induction i with
  | zero => rfl
  | succ i ih =>
    rw [Function.iterate_succ_apply', ih, h _ ((gfTwice_linear.iterate _).lt e he), ← Function.iterate_add_apply, Nat.mul_succ,
      Nat.add_comm]

/-- The syndromes of a code word with one wrong symbol: the error, doubled 0, 1, 2 and 3 times as often as its place says. -/
theorem syndromes_flipAt {d : List Nat} (hd : Symbols d) {i e : Nat} (hi : i < (codeWord d).length) (he : e < 256) :
    syndromes (flipAt (codeWord d) i e) = [e, gfTwice^[i] e, gfTwice^[2 * i] e, gfTwice^[3 * i] e] := by
  have hroot {x m : Nat} (hx : IsRoot x) (hm : ∀ a < 256, gfMul a x = gfTwice^[m] a) :
      wordAt x (flipAt (codeWord d) i e) = gfTwice^[m * i] e := by
    rw [wordAt_flipAt x (symbols_codeWord hd) hi he, wordAt_codeWord hd hx, Nat.zero_xor, iterate_gfMul hm i he]
  rw [syndromes, hroot (m := 0) (.inl rfl) fun a ha => (gfMul_alpha a ha).1,
    hroot (m := 1) (.inr (.inl rfl)) fun a ha => (gfMul_alpha a ha).2.1,
    hroot (m := 2) (.inr (.inr (.inl rfl))) fun a ha => (gfMul_alpha a ha).2.2.1,
    hroot (m := 3) (.inr (.inr (.inr rfl))) fun a ha => (gfMul_alpha a ha).2.2.2, Nat.zero_mul, Nat.one_mul]
  rfl

/-- One wrong symbol is found at its place. -/
theorem oneError_found {i e : Nat} (hi : i < 36) (he : e < 256) (hpos : 0 < e) :
    oneError e (gfTwice^[i] e) (gfTwice^[2 * i] e) (gfTwice^[3 * i] e) = some (i, e) := by
  have hpow (m : Nat) : gfMul (gfTwice^[m] e) (gfPow 2 i) = gfTwice^[i + m] e := by
    rw [gfMul_gfPow i hi _ ((gfTwice_linear.iterate m).lt e he), Function.iterate_add_apply]
  have hfind : (List.range 36).find? (fun j => decide (e ≠ 0 ∧ gfMul e (gfPow 2 j) = gfTwice^[i] e ∧
      gfMul (gfTwice^[i] e) (gfPow 2 j) = gfTwice^[2 * i] e ∧ gfMul (gfTwice^[2 * i] e) (gfPow 2 j) = gfTwice^[3 * i] e)) = some i := by
    rw [List.find?_range_eq_some]
    refine ⟨decide_eq_true ⟨hpos.ne', hpow 0, ?_, ?_⟩, List.mem_range.2 hi, fun j hj => ?_⟩
    · rw [hpow, Nat.two_mul]
    · rw [hpow, Nat.succ_mul 2, Nat.add_comm]
    · have hne := iterate_gfTwice_ne hj hi he hpos
      rw [← gfMul_gfPow j (hj.trans hi) e he] at hne
      simp [hne]
  rw [oneError]
  exact congrArg (Option.map _) hfind

/-- A code word with one symbol changed decodes to the code word. -/
theorem decodeWord_flipAt {d : List Nat} (hd : Symbols d) (hlen : d.length = 32) {i e : Nat} (hi : i < 36) (hpos : 0 < e)
    (he : e < 256) : decodeWord (flipAt (codeWord d) i e) = .fixed (codeWord d) := by
  have hplace : i < (codeWord d).length := by rw [length_codeWord hd]; omega
  rw [decodeWord, syndromes_flipAt hd hplace he]
  split
  next h => exact absurd (List.cons.inj h).1 hpos.ne'
  next s0 s1 s2 s3 _ h =>
    obtain ⟨rfl, rfl, rfl, rfl⟩ : e = s0 ∧ gfTwice^[i] e = s1 ∧ gfTwice^[2 * i] e = s2 ∧ gfTwice^[3 * i] e = s3 := by simpa using h
    rw [oneError_found hi he hpos]
    exact congrArg Decoded.fixed (flipAt_flipAt hplace e)
  next h => exact absurd rfl (h _ _ _ _)

theorem symbols_toNat (d : Bytes) : Symbols (d.map BitVec.toNat) :=
  List.forall_mem_map.2 fun b _ => b.isLt

end Sys2Proof.Machine

open Sys2Proof Sys2Proof.Machine

/-- Settles O11: the syndromes of a code word are 0, and one wrong symbol makes them the error doubled as its place says. -/
theorem sectorCodeReadsBack : Obligations.SectorCodeReadsBack := by
  unfold Obligations.SectorCodeReadsBack
  intro d hd w
  have hlen : (d.map BitVec.toNat).length = 32 := by rw [List.length_map, hd]
  exact ⟨decodeWord_codeWord (symbols_toNat d), fun i e hi hpos he => decodeWord_flipAt (symbols_toNat d) hlen hi hpos he⟩
end

section
/-!
PROOFS. The arrays of the upper case as reads and writes of sectors meet them (R55, R59–R63, R66): which register fields they
leave, where a sector lies and that two sectors never share a place, what a sector stores, and loops over sectors.
-/
namespace Sys2Proof.Machine

/-! Loops. -/

/-- A property that step `a` of a loop brings about, and the other steps keep, holds at its end; what step `a` needs, the steps
before it keep. -/
theorem foldl_at {α β : Type} {f : β → α → β} {l : List α} (hl : l.Nodup) {a : α} (ha : a ∈ l) {J Q : β → Prop}
    (hbefore : ∀ s, ∀ b ∈ l, b ≠ a → J s → J (f s b)) (hat : ∀ s, J s → Q (f s a))
    (hafter : ∀ s, ∀ b ∈ l, b ≠ a → Q s → Q (f s b)) {s : β} (hs : J s) : Q (l.foldl f s) := by
  obtain ⟨l₁, l₂, rfl⟩ := List.append_of_mem ha
  have hne₁ : ∀ b ∈ l₁, b ≠ a := fun b hb he => (List.nodup_append.1 hl).2.2 b hb a (List.mem_cons_self ..) he
  have hne₂ : ∀ b ∈ l₂, b ≠ a := fun b hb he => (List.nodup_cons.1 (List.nodup_append.1 hl).2.1).1 (he ▸ hb)
  have hj : J (l₁.foldl f s) :=
    List.foldlRecOn l₁ f hs fun t ht b hb => hbefore t b (List.mem_append_left _ hb) (hne₁ b hb) ht
  rw [List.foldl_append, List.foldl_cons]
  exact List.foldlRecOn l₂ f (hat _ hj) fun t ht b hb =>
    hafter t b (List.mem_append_right _ (List.mem_cons_of_mem _ hb)) (hne₂ b hb) ht

/-- What every step of a loop keeps, the loop keeps. -/
theorem foldl_invariant {α β : Type} {f : β → α → β} {l : List α} {I : β → Prop} (h : ∀ s, ∀ a ∈ l, I s → I (f s a))
    {s : β} (hs : I s) : I (l.foldl f s) :=
  List.foldlRecOn l f hs fun t ht a ha => h t a ha ht

/-! Register fields. -/

/-- The register fields that accesses to the upper case, patrols, copies and their reports may change. -/
abbrev accessKeys : List Nat := accessCounts ++ reportKeys

theorem SameRegs.rd_base {s t : State} {ks : List Nat} (h : SameRegs s t ks) {f : Fld} (hf : f.base ∉ ks.map (· / 2 ^ 20)) {i : Nat}
    (hi : i < 2 ^ 20) : t.rd f i = s.rd f i := by
  refine h.rd f i fun hk => hf (List.mem_map.2 ⟨_, hk, ?_⟩)
  rw [Fld.key_eq]
  omega

theorem SameRegs.of_regs {s t : State} (h : t.regs = s.regs) (ks : List Nat) : SameRegs s t ks := fun _ _ => by rw [h]

theorem recordLost_sameRegs {h : Handler} (hh : AboveBlocks h) (r : ErrRec) (s : State) : SameRegs s (recordLost h r s) reportKeys := by
  obtain rfl | ⟨k, hk, rfl⟩ := hh
  · exact recordLost_chip_sameRegs r s
  · have hovf : (RAS_QSTS.OVF k).key 0 ∈ reportKeys := by revert k; decide
    have hlost : (RAS_QSTS.LOST k).key 0 ∈ reportKeys := by revert k; decide
    exact ((SameRegs.refl s _).andWr 1 hovf).andWr _ hlost

/-- A record at a region's handler or the chip's writes the fields that reports write alone (R367–R369). -/
theorem enter_sameRegs (n : Nat) {h : Handler} (hh : AboveBlocks h) (r : ErrRec) (s : State) : SameRegs s (enter n h r s) reportKeys := by
  induction n generalizing h r s with
  | zero => exact .refl s _
  | succ n ih =>
    have hg : AboveBlocks (if r.sev = 3 then .chip else h) := by
      split
      · exact .inl rfl
      · exact hh
    unfold enter
    generalize (if r.sev = 3 then Handler.chip else h) = g at hg
    dsimp only
    split
    · exact .of_regs rfl _
    · split
      · exact fenceNow_sameRegs 1 s
      · split
        · have hbump : SameRegs s (s.bump (RAS_CNT.COUNT 4)) reportKeys := (SameRegs.refl s _).andWr _ (by decide)
          obtain rfl | ⟨k, -, rfl⟩ := hg <;> exact hbump.andThen (ih (.inl rfl) _ _)
        · split
          · exact recordLost_sameRegs hg r s
          · exact .of_regs rfl _

theorem report_sameRegs {h : Handler} (hh : AboveBlocks h) (r : ErrRec) (s : State) : SameRegs s (report h r s) reportKeys :=
  enter_sameRegs 5 hh _ s

/-! Where a sector lies (R55, R66). -/

/-- Fields that no access changes: those that say where sectors lie, and whether their rows are held. -/
theorem remapFields_untouched : ∀ f ∈ [STK_REMAP_ENT.VALID, STK_REMAP_ENT.LAYER, STK_REMAP_ENT.PC, STK_REMAP_ENT.BG, STK_REMAP_ENT.BANK,
    STK_REMAP_ENT.ROW], f.base ∉ accessKeys.map (· / 2 ^ 20) := by
  decide

theorem remapOf_congr {s t : State} (h : SameRegs s t accessKeys) (a : Nat) : remapOf t a = remapOf s a := by
  have hk := offStack_lt a
  have hrd {f : Fld} (hf : f ∈ [STK_REMAP_ENT.VALID, STK_REMAP_ENT.LAYER, STK_REMAP_ENT.PC, STK_REMAP_ENT.BG, STK_REMAP_ENT.BANK,
      STK_REMAP_ENT.ROW]) {n : Nat} (hn : n < 32) : t.rd f (32 * offStack a + n) = s.rd f (32 * offStack a + n) :=
    h.rd_base (remapFields_untouched f hf) (by omega)
  unfold remapOf
  refine List.find?_congr fun n hn => decide_eq_decide.2 ?_
  have hn := List.mem_range.1 hn
  have hflag : t.flag STK_REMAP_ENT.VALID (32 * offStack a + n) = s.flag STK_REMAP_ENT.VALID (32 * offStack a + n) := by
    rw [State.flag, State.flag, hrd (by simp) hn]
  have hentry : remapEntry t (offStack a) n = remapEntry s (offStack a) n := by
    simp only [remapEntry, hrd (by simp : STK_REMAP_ENT.LAYER ∈ _) hn, hrd (by simp : STK_REMAP_ENT.PC ∈ _) hn,
      hrd (by simp : STK_REMAP_ENT.BG ∈ _) hn, hrd (by simp : STK_REMAP_ENT.BANK ∈ _) hn, hrd (by simp : STK_REMAP_ENT.ROW ∈ _) hn]
  rw [hflag, hentry]

theorem locOf_congr {s t : State} (h : SameRegs s t accessKeys) (a : Nat) : locOf t a = locOf s a := by
  rw [locOf, locOf, remapOf_congr h]

theorem remapOf_lt {s : State} {a n : Nat} (h : remapOf s a = some n) : n < 32 := by
  unfold remapOf at h
  exact List.mem_range.1 (List.mem_of_find?_eq_some h)

theorem remapEntry_of_remapOf {s : State} {a n : Nat} (h : remapOf s a = some n) : remapEntry s (offStack a) n = remapWord a := by
  unfold remapOf at h
  dsimp only at h
  have hfound := List.find?_some h
  exact (of_decide_eq_true hfound).2

theorem locOf_eq (s : State) (a : Nat) :
    locOf s a = (remapOf s a).elim a fun n => spareLoc (offStack a) n (offInRow a) := by
  unfold locOf
  cases remapOf s a <;> rfl

/-- Bytes of one sector share every field of their offsets from bit 5 up. -/
theorem bits_add_low {a i lo : Nat} (ha : a % 32 = 0) (hi : i < 32) (hlo : 5 ≤ lo) (wd : Nat) : bits (a + i) lo wd = bits a lo wd := by
  have hsplit : 2 ^ lo = 32 * 2 ^ (lo - 5) := by rw [show (32 : Nat) = 2 ^ 5 from rfl, ← Nat.pow_add]; congr 1; omega
  rw [bits, bits, hsplit, ← Nat.div_div_eq_div_mul, ← Nat.div_div_eq_div_mul]
  congr 2
  omega

theorem remapOf_add {a i : Nat} (s : State) (ha : a % 32 = 0) (hi : i < 32) : remapOf s (a + i) = remapOf s a := by
  have hb {lo : Nat} (hlo : 5 ≤ lo) (wd : Nat) := bits_add_low ha hi hlo wd
  have hword : remapWord (a + i) = remapWord a := by
    simp only [remapWord, offLayer, offPc, offSet, offBg, offBank, offRowNo]
    rw [hb, hb, hb, hb, hb, hb, hb] <;> decide
  have hstack : offStack (a + i) = offStack a := hb (by decide) 3
  simp only [remapOf, hword, hstack]

theorem offInRow_add {a i : Nat} (ha : a % 32 = 0) (hi : i < 32) : offInRow (a + i) = offInRow a + i := by
  have hlow : bits (a + i) 0 6 = bits a 0 6 + i := by simp only [bits]; omega
  rw [offInRow, offInRow, bits_add_low ha hi (by decide), hlow, Nat.add_assoc]

/-- The bytes of a sector stand one after another. -/
theorem locOf_add {a i : Nat} (s : State) (ha : a % 32 = 0) (hi : i < 32) : locOf s (a + i) = locOf s a + i := by
  have hstack : offStack (a + i) = offStack a := bits_add_low ha hi (by decide) 3
  rw [locOf_eq, locOf_eq, remapOf_add s ha hi, hstack, offInRow_add ha hi]
  cases remapOf s a with
  | none => rfl
  | some n => exact (Nat.add_assoc ..).symm

theorem offInRow_lt (a : Nat) : offInRow a < 1024 := by
  simp only [offInRow, bits]
  omega

/-- Sectors lie at multiples of 32. -/
theorem locOf_mod {a : Nat} (s : State) (ha : a % 32 = 0) : locOf s a % 32 = 0 := by
  rw [locOf_eq]
  cases remapOf s a with
  | none => exact ha
  | some n => simp only [Option.elim, spareLoc, offInRow, bits]; omega

theorem remapWord_inj {a b : Nat} (h : remapWord a = remapWord b) :
    offLayer a = offLayer b ∧ offPc a = offPc b ∧ offBg a = offBg b ∧ offBank a = offBank b ∧ offRowNo a = offRowNo b := by
  have hpc (x : Nat) : offPc x < 64 := by
    have h1 := bits_lt x 6 3
    have h2 := bits_lt x 30 3
    rw [offPc, offSet]
    omega
  have hbg (x : Nat) : offBg x < 4 := Nat.xor_lt_two_pow (n := 2) (bits_lt x 13 2) (bits_lt x 17 2)
  have hbank (x : Nat) : offBank x < 4 := bits_lt x 15 2
  have hrow (x : Nat) : offRowNo x < 8192 := bits_lt x 17 13
  have := hpc a; have := hpc b; have := hbg a; have := hbg b; have := hbank a; have := hbank b; have := hrow a; have := hrow b
  rw [remapWord, remapWord] at h
  omega

/-- Numbers that agree above a field and in it agree above its lowest bit. -/
theorem div_eq_of_bits {a b lo wd : Nat} (habove : a / 2 ^ (lo + wd) = b / 2 ^ (lo + wd)) (hfield : bits a lo wd = bits b lo wd) :
    a / 2 ^ lo = b / 2 ^ lo := by
  rw [Nat.pow_add, ← Nat.div_div_eq_div_mul, ← Nat.div_div_eq_div_mul] at habove
  rw [← Nat.div_add_mod (a / 2 ^ lo) (2 ^ wd), ← Nat.div_add_mod (b / 2 ^ lo) (2 ^ wd), habove]
  exact congrArg _ hfield

/-- An offset below 2^40 is what its row and its place there make. -/
theorem off_inj {a b : Nat} (ha : a < 2 ^ 40) (hb : b < 2 ^ 40) (hrow : remapWord a = remapWord b) (hstack : offStack a = offStack b)
    (hplace : offInRow a = offInRow b) : a = b := by
  obtain ⟨hlayer, hpc, hbg, hbank, hrowno⟩ := remapWord_inj hrow
  have hset : bits a 30 3 = bits b 30 3 ∧ bits a 6 3 = bits b 6 3 := by
    have := bits_lt a 6 3; have := bits_lt b 6 3
    simp only [offPc, offSet] at hpc
    omega
  have hgranule : bits a 9 4 = bits b 9 4 ∧ bits a 0 6 = bits b 0 6 := by
    have := bits_lt a 0 6; have := bits_lt b 0 6
    simp only [offInRow] at hplace
    omega
  have hbg' : bits a 13 2 = bits b 13 2 := by
    have hlow : bits a 17 2 = bits b 17 2 := by simp only [offRowNo, bits] at hrowno ⊢; omega
    rw [offBg, offBg, hlow] at hbg
    exact Nat.xor_left_inj.1 hbg
  have h40 : a / 2 ^ (36 + 4) = b / 2 ^ (36 + 4) := by rw [Nat.div_eq_of_lt ha, Nat.div_eq_of_lt hb]
  have h36 : a / 2 ^ (33 + 3) = b / 2 ^ (33 + 3) := div_eq_of_bits h40 hlayer
  have h33 : a / 2 ^ (30 + 3) = b / 2 ^ (30 + 3) := div_eq_of_bits h36 hstack
  have h30 : a / 2 ^ (17 + 13) = b / 2 ^ (17 + 13) := div_eq_of_bits h33 hset.1
  have h17 : a / 2 ^ (15 + 2) = b / 2 ^ (15 + 2) := div_eq_of_bits h30 hrowno
  have h15 : a / 2 ^ (13 + 2) = b / 2 ^ (13 + 2) := div_eq_of_bits h17 hbank
  have h13 : a / 2 ^ (9 + 4) = b / 2 ^ (9 + 4) := div_eq_of_bits h15 hbg'
  have h9 : a / 2 ^ (6 + 3) = b / 2 ^ (6 + 3) := div_eq_of_bits h13 hgranule.1
  have h6 : a / 2 ^ (0 + 6) = b / 2 ^ (0 + 6) := div_eq_of_bits h9 hset.2
  simpa using div_eq_of_bits h6 hgranule.2

/-- Offsets of the upper case lie apart: in their own rows, or each in the spare of its own row. -/
theorem locOf_inj {s : State} {a b : Nat} (ha : a < 2 ^ 40) (hb : b < 2 ^ 40) (h : locOf s a = locOf s b) : a = b := by
  rw [locOf_eq, locOf_eq] at h
  have hpa := offInRow_lt a
  have hpb := offInRow_lt b
  cases hra : remapOf s a with
  | none =>
    cases hrb : remapOf s b with
    | none => simpa [hra, hrb] using h
    | some m => rw [hra, hrb] at h; simp only [Option.elim, spareLoc] at h; omega
  | some n =>
    cases hrb : remapOf s b with
    | none => rw [hra, hrb] at h; simp only [Option.elim, spareLoc] at h; omega
    | some m =>
      rw [hra, hrb] at h
      simp only [Option.elim, spareLoc] at h
      have hn := remapOf_lt hra
      have hm := remapOf_lt hrb
      obtain ⟨hstack, hnm, hplace⟩ : offStack a = offStack b ∧ n = m ∧ offInRow a = offInRow b := by omega
      refine off_inj ha hb ?_ hstack hplace
      rw [← remapEntry_of_remapOf hra, ← remapEntry_of_remapOf hrb, hstack, hnm]

/-! What a sector stores (R59, R62, R63). -/

theorem mapM_eq_some_iff {α β : Type} {f : α → Option β} {l : List α} {d : List β} : l.mapM f = some d ↔ l.map f = d.map some := by
  induction l generalizing d with
  | nil => cases d <;> simp
  | cons a l ih =>
    rw [List.mapM_cons, List.map_cons]
    cases d with
    | nil => cases f a <;> cases l.mapM f <;> simp
    | cons b d => cases f a <;> cases h : l.mapM f <;> simp_all [← ih]

theorem cells_eq_some_iff {s : State} {loc : Nat} {d : Bytes} :
    cells s loc = some d ↔ d.length = 32 ∧ ∀ i < 32, s.byteAt (loc + i) = d[i]? := by
  rw [cells, mapM_eq_some_iff]
  constructor
  · intro h
    have hlen : d.length = 32 := by simpa using (congrArg List.length h).symm
    refine ⟨hlen, fun i hi => ?_⟩
    have hi' := congrArg (·[i]?) h
    simpa [List.getElem?_map, List.getElem?_range hi, hlen, hi, State.byteAt] using hi'
  · rintro ⟨hlen, h⟩
    refine List.ext_getElem (by simp [hlen]) fun i hi _ => ?_
    have hi : i < 32 := by simpa using hi
    have hget := h i hi
    rw [List.getElem?_eq_getElem (by omega)] at hget
    simpa [State.byteAt] using hget

theorem cells_congr {s t : State} {loc : Nat} (h : ∀ i < 32, t.byteAt (loc + i) = s.byteAt (loc + i)) : cells t loc = cells s loc := by
  refine Option.ext fun d => ?_
  rw [cells_eq_some_iff, cells_eq_some_iff]
  exact and_congr_right fun _ => forall₂_congr fun i hi => by rw [h i hi]

theorem length_of_cells {s : State} {loc : Nat} {d : Bytes} (h : cells s loc = some d) : d.length = 32 := (cells_eq_some_iff.1 h).1

/-- What decides the outcome of a read of a written sector: its bytes, check symbols and poison marks. -/
def stored (s : State) (loc : Nat) : Option Bytes × Nat × Nat := (cells s loc, KMap.get 0 s.chk (loc / 32), KMap.get 0 s.psn (loc / 32))

theorem cells_of_stored {s t : State} {loc : Nat} (h : stored t loc = stored s loc) : cells t loc = cells s loc := congrArg Prod.fst h

theorem poisonBit_of_stored {s t : State} {loc : Nat} (h : stored t loc = stored s loc) : poisonBit t loc = poisonBit s loc := by
  have hp : KMap.get 0 t.psn (loc / 32) = KMap.get 0 s.psn (loc / 32) := congrArg (·.2.2) h
  rw [poisonBit, poisonBit, hp]

theorem wordOf_of_stored {s t : State} {loc : Nat} (h : stored t loc = stored s loc) (d : Bytes) : wordOf t loc d = wordOf s loc d := by
  have hc : KMap.get 0 t.chk (loc / 32) = KMap.get 0 s.chk (loc / 32) := congrArg (·.2.1) h
  rw [wordOf, wordOf, hc]

theorem stored_of_arrays {s t : State} (hm : t.mem = s.mem) (hc : t.chk = s.chk) (hp : t.psn = s.psn) (loc : Nat) :
    stored t loc = stored s loc := by
  simp only [stored, cells, hm, hc, hp]

/-! Written and dropped sectors. -/

theorem cells_putSector (loc : Nat) (d : Bytes) (p : Bool) (s : State) :
    cells (putSector loc d p s) loc = some ((List.range 32).map fun i => d.getD i 0) := by
  rw [cells_eq_some_iff]
  refine ⟨by simp, fun i hi => ?_⟩
  rw [putSector_byteAt_self loc d p s hi]
  simp [hi]

/-- A sector of 32 bytes reads as it was written. -/
theorem cells_putSector_of_length {d : Bytes} (h : d.length = 32) (loc : Nat) (p : Bool) (s : State) :
    cells (putSector loc d p s) loc = some d := by
  rw [cells_eq_some_iff]
  refine ⟨h, fun i hi => ?_⟩
  rw [putSector_byteAt_self loc d p s hi, List.getD_eq_getElem?_getD, List.getElem?_eq_getElem (by omega), Option.getD_some]

theorem poisonBit_putSector (loc : Nat) (d : Bytes) (p : Bool) (s : State) : poisonBit (putSector loc d p s) loc = p := by
  have hmark : KMap.get 0 (putSector loc d p s).psn (loc / 32) = if p then 7 else 0 := KMap.get_put_self ..
  rw [poisonBit, hmark]
  cases p <;> rfl

section
variable {l loc : Nat} (hl : l % 32 = 0) (hloc : loc % 32 = 0) (hne : l ≠ loc)
include hl hloc hne

/-- A sector that is written leaves what every other one stores. -/
theorem stored_putSector_other (d : Bytes) (p : Bool) (s : State) : stored (putSector loc d p s) l = stored s l := by
  have hkey : l / 32 ≠ loc / 32 := by omega
  have hcells : cells (putSector loc d p s) l = cells s l := cells_congr fun i hi => putSector_byteAt_other loc d p s (by omega)
  have hchk : KMap.get 0 (putSector loc d p s).chk (l / 32) = KMap.get 0 s.chk (l / 32) := KMap.get_put_other 0 0 _ _ hkey
  have hpsn : KMap.get 0 (putSector loc d p s).psn (l / 32) = KMap.get 0 s.psn (l / 32) := KMap.get_put_other 0 0 _ _ hkey
  rw [stored, stored, hcells, hchk, hpsn]

theorem stored_dropSector_other (s : State) : stored (dropSector loc s) l = stored s l := by
  have hkey : l / 32 ≠ loc / 32 := by omega
  have hcells : cells (dropSector loc s) l = cells s l := cells_congr fun i hi => dropSector_byteAt_other loc s (by omega)
  have hchk : KMap.find? (dropSector loc s).chk (l / 32) = KMap.find? s.chk (l / 32) := KMap.find?_erase_other _ hkey
  have hpsn : KMap.find? (dropSector loc s).psn (l / 32) = KMap.find? s.psn (l / 32) := KMap.find?_erase_other _ hkey
  simp only [stored, hcells, KMap.get, hchk, hpsn]

end

/-- A location holds a sector's bytes, with its poison mark set or not. -/
abbrev HoldsSector (loc : Nat) (d : Bytes) (p : Bool) (t : State) : Prop := cells t loc = some d ∧ poisonBit t loc = p

theorem HoldsSector.of_stored {t u : State} {loc : Nat} {d : Bytes} {p : Bool} (h : HoldsSector loc d p t) (hu : stored u loc = stored t loc) :
    HoldsSector loc d p u := ⟨(cells_of_stored hu).trans h.1, (poisonBit_of_stored hu).trans h.2⟩

theorem HoldsSector.put {d : Bytes} (h : d.length = 32) (loc : Nat) (p : Bool) (s : State) : HoldsSector loc d p (putSector loc d p s) :=
  ⟨cells_putSector_of_length h .., poisonBit_putSector ..⟩

/-! Reads of stored sectors, by their outcome in Table 3.3. -/

section
variable {s : State} {loc : Nat} {d : Bytes} (hc : cells s loc = some d)
include hc

variable (hp : poisonBit s loc = false)
include hp

theorem readAt_clean (h : decodeWord (wordOf s loc d) = .clean) : readAt s loc = (.data d, s) := by
  simp only [readAt, hc, hp, Bool.false_eq_true, if_false, h]

theorem readAt_fixed {w : List Nat} (h : decodeWord (wordOf s loc d) = .fixed w) :
    readAt s loc = (.fixed ((w.drop 4).map (BitVec.ofNat 8)), s) := by
  simp only [readAt, hc, hp, Bool.false_eq_true, if_false, h]

theorem readAt_bad (h : decodeWord (wordOf s loc d) = .bad) : readAt s loc = (.bad, s) := by
  simp only [readAt, hc, hp, Bool.false_eq_true, if_false, h]

end

theorem HandsOnly.chk {s t : State} (h : HandsOnly s t) : t.chk = s.chk := by
  have e : { t with regs := s.regs, ras.handlers := s.ras.handlers }.chk = s.chk := by rw [h]
  exact e

theorem HandsOnly.psn {s t : State} (h : HandsOnly s t) : t.psn = s.psn := by
  have e : { t with regs := s.regs, ras.handlers := s.ras.handlers }.psn = s.psn := by rw [h]
  exact e

theorem HandsOnly.stored {s t : State} (h : HandsOnly s t) (loc : Nat) : stored t loc = stored s loc :=
  stored_of_arrays h.mem h.chk h.psn loc

theorem countKeys_mem : ∀ k < 8, ∀ f ∈ [STK_CNT.COUNT 0, STK_CNT.COUNT 1, STK_CNT.COUNT 2, STK_CNT.COUNT 4, STK_ERR_LOG0.OFFSET_LO,
    STK_ERR_LOG1.OFFSET_HI, STK_ERR_LOG1.KIND, STK_ERR_LOG1.PART], f.key k ∈ accessKeys := by
  decide

theorem stkLog_regs (k kind part off : Nat) (s : State) : { stkLog k kind part off s with regs := s.regs } = s :=
  (((((RegsOnly.refl s).andWr _ _ _).andWr _ _ _).andWr _ _ _).andWr _ _ _).1

theorem stkLog_sameRegs {k : Nat} (hk : k < 8) (kind part off : Nat) (s : State) : SameRegs s (stkLog k kind part off s) accessKeys := by
  have hmem := countKeys_mem k hk
  exact ((((SameRegs.refl s _).andWr _ (hmem _ (by simp))).andWr _ (hmem _ (by simp))).andWr _ (hmem _ (by simp))).andWr _ (hmem _ (by simp))

/-- What counting a read changes: register fields of the counts, the log and the reports, and handlers (Table 3.3). -/
theorem countRead_frame {k : Nat} (hk : k < 8) (kind part off : Nat) (r : SectorRead) (s : State) :
    HandsOnly s (countRead k kind part off r s) ∧ SameRegs s (countRead k kind part off r s) accessKeys := by
  have hbump (f : Fld) (hf : f ∈ [STK_CNT.COUNT 0, STK_CNT.COUNT 1, STK_CNT.COUNT 2, STK_CNT.COUNT 4, STK_ERR_LOG0.OFFSET_LO,
      STK_ERR_LOG1.OFFSET_HI, STK_ERR_LOG1.KIND, STK_ERR_LOG1.PART]) : SameRegs s (s.bump f k) accessKeys :=
    (SameRegs.refl s _).andWr _ (countKeys_mem k hk f hf)
  cases r with
  | data d => exact ⟨rfl, .refl s _⟩
  | fixed d =>
    refine ⟨.after (t := s.bump (STK_CNT.COUNT 0) k) rfl (report_frame ..), (hbump (STK_CNT.COUNT 0) (by simp)).andThen ?_⟩
    exact (report_sameRegs (.inr ⟨k / 2, by omega, rfl⟩) _ _).mono (List.subset_append_right _ _)
  | poison => exact ⟨rfl, hbump (STK_CNT.COUNT 2) (by simp)⟩
  | bad =>
    have hbad : countRead k kind part off .bad s = stkLog k kind part off (s.bump (STK_CNT.COUNT 1) k) := rfl
    rw [hbad]
    exact ⟨.of_regs (regs_after (t := s.bump (STK_CNT.COUNT 1) k) rfl (stkLog_regs ..)),
      (hbump (STK_CNT.COUNT 1) (by simp)).andThen (stkLog_sameRegs hk _ _ _ _)⟩

/-! Galley lines. -/

/-- `t` differs from `s` in galley lines and register fields alone. -/
abbrev LinesOnly (s t : State) : Prop := { t with regs := s.regs, gal.lines := s.gal.lines } = s

section
variable {s t : State} (h : LinesOnly s t)
include h

theorem LinesOnly.mem : t.mem = s.mem := by
  have e : { t with regs := s.regs, gal.lines := s.gal.lines }.mem = s.mem := by rw [h]
  exact e

theorem LinesOnly.chk : t.chk = s.chk := by
  have e : { t with regs := s.regs, gal.lines := s.gal.lines }.chk = s.chk := by rw [h]
  exact e

theorem LinesOnly.psn : t.psn = s.psn := by
  have e : { t with regs := s.regs, gal.lines := s.gal.lines }.psn = s.psn := by rw [h]
  exact e

theorem LinesOnly.stk : t.stk = s.stk := by
  have e : { t with regs := s.regs, gal.lines := s.gal.lines }.stk = s.stk := by rw [h]
  exact e

end

/-- Invalidating the lines of a sector changes lines, and the count of their region (R109). -/
theorem galInvalidate_frame (a : Nat) (s : State) : LinesOnly s (galInvalidate a s) ∧ SameRegs s (galInvalidate a s) accessKeys := by
  have hr : offStack a / 2 < 4 := by have := offStack_lt a; omega
  have hkey : ∀ r < 4, (GAL_CNT.COUNT 2).key r ∈ accessKeys := by decide
  unfold galInvalidate
  generalize List.range 16 = l
  refine foldl_invariant (I := fun t => LinesOnly s t ∧ SameRegs s t accessKeys) (fun t w _ ht => ?_) ⟨rfl, .refl s _⟩
  dsimp only
  split
  · obtain ⟨hframe, hregs⟩ := ht
    refine ⟨hframe, ?_⟩
    generalize hu : { t with gal.lines := _ } = u
    have hsame : SameRegs s u accessKeys := hu ▸ hregs
    exact hsame.andWr (f := GAL_CNT.COUNT 2) _ (hkey _ hr)
  · exact ht

end Sys2Proof.Machine
end

section
/-!
PROOFS. The commands of a stack controller (R71–R74): how one starts and ends, and what the rows of a fill and of a zeroizing
scrub leave in the arrays.
-/
namespace Sys2Proof.Machine

/-! Starting and ending. -/

theorem stkUnit_setStk (s : State) (k : Nat) (u : StkUnit) : (s.setStk k u).stkUnit k = u := KMap.get_put_self ..

theorem signal_stk (p v : Nat) (s : State) : (signal p v s).stk = s.stk := by
  rcases signal_cases p v s with h | ⟨_, h⟩ <;> simp [h]

/-- What a stack shows of a command that has ended. -/
abbrev CmdEnded (t : State) (k status : Nat) : Prop :=
  t.rd STK_CMD_STS.BUSY k = 0 ∧ t.rd STK_CMD_STS.DONE k = 1 ∧ t.rd STK_CMD_STS.STATUS k = status ∧ (t.stkUnit k).cmd = none

theorem stkComplete_regs (k status : Nat) (s : State) :
    (stkComplete k status s).regs = (((s.wr STK_CMD_STS.BUSY k 0).wr STK_CMD_STS.DONE k 1).wr STK_CMD_STS.STATUS k status).regs :=
  signal_regs ..

theorem stkComplete_mem (k status : Nat) (s : State) : (stkComplete k status s).mem = s.mem := signal_mem ..

theorem stkComplete_ended {k status : Nat} (hk : k < 8) (hst : status < 2 ^ 16) (s : State) : CmdEnded (stkComplete k status s) k status := by
  have hk : k < 2 ^ 20 := by omega
  simp only [CmdEnded, rd_congr (stkComplete_regs k status s)]
  refine ⟨?_, ?_, ?_, ?_⟩
  · rw [rd_wr_base _ _ (by decide) hk hk, rd_wr_base _ _ (by decide) hk hk, rd_wr_self]
    rfl
  · rw [rd_wr_base _ _ (by decide) hk hk, rd_wr_self]
    rfl
  · rw [rd_wr_self]
    exact Nat.mod_eq_of_lt hst
  · have hunit : (stkComplete k status s).stkUnit k = { s.stkUnit k with cmd := none } := by
      rw [State.stkUnit, stkComplete, signalNode, signal_stk]
      exact stkUnit_setStk ..
    rw [hunit]

/-- The state once a command of a stack has started at a progress. -/
def cmdStarted (k : Nat) (c : StkCmd) (start : Nat) (s : State) : State :=
  ((s.wr STK_CMD_STS.BUSY k 1).wr STK_CMD_PROG.PROGRESS k start).setStk k { s.stkUnit k with cmd := some c }

theorem cmdStarted_shown {k : Nat} (hk : k < 8) (c : StkCmd) (start : Nat) (s : State) :
    (cmdStarted k c start s).rd STK_CMD_STS.BUSY k = 1 ∧ ((cmdStarted k c start s).stkUnit k).cmd = some c ∧
    (cmdStarted k c start s).rd STK_CMD_PROG.PROGRESS k = start % 2 ^ STK_CMD_PROG.PROGRESS.wd ∧
    SameRegs s (cmdStarted k c start s) [STK_CMD_STS.BUSY.key k, STK_CMD_PROG.PROGRESS.key k] ∧
    { cmdStarted k c start s with regs := s.regs, stk.units := s.stk.units } = s := by
  have hk : k < 2 ^ 20 := by omega
  have hrd (f : Fld) : (cmdStarted k c start s).rd f k = ((s.wr STK_CMD_STS.BUSY k 1).wr STK_CMD_PROG.PROGRESS k start).rd f k := rfl
  refine ⟨?_, ?_, ?_, (SameRegs.wr s STK_CMD_STS.BUSY k 1).trans (SameRegs.wr _ STK_CMD_PROG.PROGRESS k start), rfl⟩
  · rw [hrd, rd_wr_base _ _ (by decide) hk hk, rd_wr_self]
    rfl
  · rw [cmdStarted, stkUnit_setStk]
  · rw [hrd, rd_wr_self]

/-! FILL and ZEROIZE as they are taken (R71, R73, R74). -/

/-- The range of a fill as the registers give it. -/
abbrev fillStart (s : State) (k : Nat) : Nat := s.rd STK_CMD_START.OFFSET k * 4096
abbrev fillStop (s : State) (k : Nat) : Nat := s.rd STK_CMD_END.OFFSET k * 4096
abbrev fillPat (s : State) (k : Nat) : Bytes := (List.range 8).flatMap fun j => natLe 4 (s.rd (STK_CMD_PAT.PAT j) k)

section
variable {s : State} {k : Nat}

theorem exec_fill_busy (h : s.flag STK_CMD_STS.BUSY k = true) : exec (.fill k) s = .next (s.wr STK_CMD_STS.ERR k 1) :=
  if_pos h

theorem exec_zeroize_busy (h : s.flag STK_CMD_STS.BUSY k = true) (m : Nat) : exec (.zeroize k m) s = .next (s.wr STK_CMD_STS.ERR k 1) :=
  if_pos h

theorem exec_stkCmdInvalid_busy (h : s.flag STK_CMD_STS.BUSY k = true) {op : Nat} (hop : op = 1 ∨ op = 2) :
    exec (.stkCmdInvalid k op) s = .next (s.wr STK_CMD_STS.ERR k 1) := by
  show execStkCmdInvalid k op s = _
  rw [execStkCmdInvalid, if_neg (by omega), if_pos hop, if_pos h]

theorem exec_stkCmdInvalid_undefined {op : Nat} (h1 : op ≠ 1) (h2 : op ≠ 2) (h15 : op ≠ 15) :
    exec (.stkCmdInvalid k op) s = .next (s.wr STK_CMD_STS.ERR k 1) := by
  show execStkCmdInvalid k op s = _
  rw [execStkCmdInvalid, if_neg h15, if_neg (by omega)]

variable (hidle : s.flag STK_CMD_STS.BUSY k = false)
include hidle

theorem exec_fill_badRange (h : ¬ (fillStart s k < fillStop s k ∧ fillStop s k ≤ upperSize)) :
    exec (.fill k) s = .next (stkComplete k ST.STK_CMD_RANGE s) := by
  show execFill k s = _
  simp only [execFill, hidle, Bool.false_eq_true, if_false, if_pos h]

section
variable (hrange : fillStart s k < fillStop s k ∧ fillStop s k ≤ upperSize)
include hrange

theorem exec_fill_untouched (h : rangeTouches k (fillStart s k) (fillStop s k) = false) :
    exec (.fill k) s = .next (stkComplete k ST.OK s) := by
  show execFill k s = _
  simp only [execFill, hidle, Bool.false_eq_true, if_false, if_neg (not_not_intro hrange), h, not_false_eq_true, if_true]

theorem exec_fill_starts (h : rangeTouches k (fillStart s k) (fillStop s k) = true) :
    exec (.fill k) s = .next (cmdStarted k (.fill (fillStart s k) (fillStop s k) (fillPat s k)) (fillStart s k) s) := by
  show execFill k s = _
  simp only [execFill, hidle, Bool.false_eq_true, if_false, if_neg (not_not_intro hrange), h, not_true_eq_false]
  rfl

end

theorem exec_zeroize_empty {m : Nat} (h : bitList m 8 = []) : exec (.zeroize k m) s = .next (stkComplete k ST.OK s) := by
  show execZeroize k m s = _
  simp only [execZeroize, hidle, Bool.false_eq_true, if_false, h, List.isEmpty_nil, if_true]

theorem exec_zeroize_owned {m : Nat} (h : ∃ j ∈ bitList m 8, setOwner s k j ≠ none) :
    exec (.zeroize k m) s = .next (stkComplete k ST.STK_CMD_OWNED s) := by
  obtain ⟨j, hj, ho⟩ := h
  have hne : (bitList m 8).isEmpty = false := List.isEmpty_eq_false_iff.2 (List.ne_nil_of_mem hj)
  have hany : (bitList m 8).any (fun j => (setOwner s k j).isSome) = true :=
    List.any_eq_true.2 ⟨j, hj, Option.isSome_iff_ne_none.2 ho⟩
  show execZeroize k m s = _
  simp only [execZeroize, hidle, Bool.false_eq_true, if_false, hne, hany, if_true]

theorem exec_zeroize_starts {m : Nat} (hne : bitList m 8 ≠ []) (h : ∀ j ∈ bitList m 8, setOwner s k j = none) :
    exec (.zeroize k m) s = .next (cmdStarted k (.zero (m % 256)) 0 s) := by
  have hsome : (bitList m 8).isEmpty = false := List.isEmpty_eq_false_iff.2 hne
  have hany : (bitList m 8).any (fun j => (setOwner s k j).isSome) = false :=
    List.any_eq_false.2 fun j hj => by simp [h j hj]
  show execZeroize k m s = _
  simp only [execZeroize, hidle, Bool.false_eq_true, if_false, hsome, hany]
  rfl

end

/-! The rows of a fill (R71, R72). -/

/-- Every row of a range of whole 4 KiB blocks begins before the range ends. -/
theorem rowStart_lt {a b off : Nat} (hlo : 4096 * a ≤ off) (hhi : off < 4096 * b) : rowStart (4096 * a) off < 4096 * b := by
  simp only [rowStart, bits]
  omega

/-- The pattern that a sector holds stays when the same pattern is written to a sector. -/
theorem putSector_keeps_pattern {s : State} {l loc i : Nat} {d : Bytes} (hl : l % 32 = 0) (hloc : loc % 32 = 0) (hi : i < 32)
    (h : s.byteAt (l + i) = some (d.getD i 0)) (p : Bool) : (putSector loc d p s).byteAt (l + i) = some (d.getD i 0) := by
  by_cases he : l = loc
  · rw [he, putSector_byteAt_self loc d p s hi]
  · rw [putSector_byteAt_other loc d p s (by omega), h]

theorem byteAt_congr {s t : State} (h : t.mem = s.mem) (x : Nat) : t.byteAt x = s.byteAt x := by
  rw [State.byteAt, State.byteAt, h]

theorem putSector_regs (loc : Nat) (d : Bytes) (p : Bool) (s : State) : (putSector loc d p s).regs = s.regs := rfl

/-- A fill of one sector. -/
abbrev sectorFilled (off : Nat) (d : Bytes) (s : State) : State := putSector (locOf s off) d false (galInvalidate off s)

theorem sectorFilled_keeps_pattern {t : State} {l off i : Nat} {d : Bytes} (hl : l % 32 = 0) (hoff : off % 32 = 0) (hi : i < 32)
    (hb : t.byteAt (l + i) = some (d.getD i 0)) : (sectorFilled off d t).byteAt (l + i) = some (d.getD i 0) :=
  putSector_keeps_pattern hl (locOf_mod t hoff) hi ((byteAt_congr (galInvalidate_frame off t).1.mem _).trans hb) false

section
variable {s t : State} (h : SameRegs s t accessKeys)
include h

theorem sectorFilled_sameRegs (off : Nat) (d : Bytes) : SameRegs s (sectorFilled off d t) accessKeys :=
  (h.andThen (galInvalidate_frame off t).2).andThen (.of_regs (putSector_regs ..) _)

theorem sectorFilled_self (off : Nat) (d : Bytes) {i : Nat} (hi : i < 32) :
    (sectorFilled off d t).byteAt (locOf s off + i) = some (d.getD i 0) := by
  rw [sectorFilled, locOf_congr h, putSector_byteAt_self _ _ _ _ hi]

theorem sectorFilled_other (off : Nat) (d : Bytes) {x : Nat} (hx : x < locOf s off ∨ locOf s off + 32 ≤ x) :
    (sectorFilled off d t).byteAt x = t.byteAt x := by
  rw [sectorFilled, locOf_congr h, putSector_byteAt_other _ _ _ _ hx, byteAt_congr (galInvalidate_frame off t).1.mem]

end

section
variable {k a b : Nat} {pat : Bytes} (s : State)

/-- Whether a fill of a stack writes a sector. -/
abbrev FillHits (k a b off : Nat) : Prop := off % 32 = 0 ∧ 4096 * a ≤ off ∧ off < 4096 * b ∧ offStack off = k

/-- The whole fill of a range is a fill of each of its sectors of the stack. -/
theorem fillRows_whole : fillRows k (4096 * a) (4096 * b) pat (4096 * b) s =
    (List.range ((4096 * b - 4096 * a) / 32)).foldl
      (fun s i => if FillHits k a b (4096 * a + 32 * i) then sectorFilled (4096 * a + 32 * i) pat s else s) s := by
  have hmin : min (4096 * b) ((4096 * b / 8192 + 1) * 8192) = 4096 * b := by omega
  rw [fillRows, hmin]
  refine List.foldl_ext _ _ _ fun t i hi => ?_
  have hi := List.mem_range.1 hi
  have hend : 4096 * a + 32 * i < 4096 * b := by omega
  have hrow := rowStart_lt (Nat.le_add_right (4096 * a) (32 * i)) hend
  have hmod : (4096 * a + 32 * i) % 32 = 0 := by omega
  have hhits : offStack (4096 * a + 32 * i) = k ∧ rowStart (4096 * a) (4096 * a + 32 * i) < 4096 * b ↔ FillHits k a b (4096 * a + 32 * i) :=
    ⟨fun h => ⟨hmod, Nat.le_add_right .., hend, h.1⟩, fun h => ⟨h.2.2.2, hrow⟩⟩
  exact if_congr hhits rfl rfl

theorem fillRows_holds {off i : Nat} (hit : FillHits k a b off) (hi : i < 32) :
    (fillRows k (4096 * a) (4096 * b) pat (4096 * b) s).byteAt (locOf s off + i) = some (pat.getD i 0) := by
  obtain ⟨hmod, hlo, hhi, hstack⟩ := id hit
  have hn : 4096 * a + 32 * ((off - 4096 * a) / 32) = off := by omega
  rw [fillRows_whole]
  refine (foldl_at (J := fun t => SameRegs s t accessKeys)
    (Q := fun t => SameRegs s t accessKeys ∧ t.byteAt (locOf s off + i) = some (pat.getD i 0)) List.nodup_range
    (List.mem_range.2 (by omega : (off - 4096 * a) / 32 < _)) (fun t j _ _ ht => ?_) (fun t ht => ?_) (fun t j _ _ ht => ?_)
    (SameRegs.refl s _)).2
  · split
    · exact sectorFilled_sameRegs ht _ _
    · exact ht
  · rw [hn, if_pos hit]
    exact ⟨sectorFilled_sameRegs ht _ _, sectorFilled_self ht off pat hi⟩
  · split
    next hj => exact ⟨sectorFilled_sameRegs ht.1 _ _, sectorFilled_keeps_pattern (locOf_mod s hmod) hj.1 hi ht.2⟩
    next => exact ht

theorem fillRows_keeps {x : Nat} (hx : ∀ off, FillHits k a b off → x < locOf s off ∨ locOf s off + 32 ≤ x) :
    (fillRows k (4096 * a) (4096 * b) pat (4096 * b) s).byteAt x = s.byteAt x := by
  rw [fillRows_whole]
  refine (foldl_invariant (I := fun t => SameRegs s t accessKeys ∧ t.byteAt x = s.byteAt x) (fun t j _ ht => ?_) ⟨.refl s _, rfl⟩).2
  obtain ⟨hregs, hbyte⟩ := ht
  split
  next hj => exact ⟨sectorFilled_sameRegs hregs _ _, (sectorFilled_other hregs _ pat (hx _ hj)).trans hbyte⟩
  next => exact ⟨hregs, hbyte⟩

end

/-! The rows of a zeroizing scrub (R73). -/

/-- A sector of zeros. -/
abbrev zeroBytes : Bytes := List.replicate 32 0

/-- One sector of a scrub: its own place, and its place in the spare that serves its row. -/
def sectorZeroed (k off j : Nat) (s : State) : State :=
  (remapOf (putSector off zeroBytes false (galInvalidate off s)) off).elim (putSector off zeroBytes false (galInvalidate off s)) fun e =>
    putSector (spareLoc k e (32 * j)) zeroBytes false (putSector off zeroBytes false (galInvalidate off s))

/-- A scrub of one row of a channel set, and of the first `n` rows of it. -/
def rowZeroed (k set ix : Nat) (s : State) : State :=
  (List.range 32).foldl (fun s j => sectorZeroed k (setRowOff k set ix j) j s) s
def setZeroed (k n set : Nat) (s : State) : State := (List.range n).foldl (fun s ix => rowZeroed k set ix s) s

theorem zeroRows_eq (k mask n : Nat) (s : State) : zeroRows k mask n s = (bitList mask 8).foldl (fun s set => setZeroed k n set s) s := by
  unfold zeroRows
  refine List.foldl_ext _ _ _ fun s set _ => ?_
  unfold setZeroed
  refine List.foldl_ext _ _ _ fun s ix _ => ?_
  unfold rowZeroed
  generalize List.range 32 = l
  refine List.foldl_ext _ _ _ fun s j _ => ?_
  unfold sectorZeroed
  dsimp only
  generalize putSector (setRowOff k set ix j) _ false (galInvalidate (setRowOff k set ix j) s) = u
  cases remapOf u (setRowOff k set ix j) <;> rfl

theorem getD_zeroBytes (i : Nat) : zeroBytes.getD i 0 = 0 := by
  rw [List.getD_eq_getElem?_getD, List.getElem?_replicate]
  split <;> rfl

/-- A byte that is zero stays so when zeros are written anywhere. -/
theorem putSector_keeps_zero {s : State} {x : Nat} (h : s.byteAt x = some 0) (loc : Nat) (p : Bool) :
    (putSector loc zeroBytes p s).byteAt x = some 0 := by
  by_cases hx : x < loc ∨ loc + 32 ≤ x
  · rw [putSector_byteAt_other loc _ p s hx, h]
  · have hself := putSector_byteAt_self loc zeroBytes p s (i := x - loc) (by omega)
    rwa [getD_zeroBytes, Nat.add_sub_of_le (by omega)] at hself

theorem putSector_zero_self (loc : Nat) (p : Bool) (s : State) {i : Nat} (hi : i < 32) :
    (putSector loc zeroBytes p s).byteAt (loc + i) = some 0 := by
  rw [putSector_byteAt_self loc _ p s hi, getD_zeroBytes]

theorem sectorZeroed_keeps_zero {s : State} {x : Nat} (h : s.byteAt x = some 0) (k off j : Nat) :
    (sectorZeroed k off j s).byteAt x = some 0 := by
  have hown := putSector_keeps_zero ((byteAt_congr (galInvalidate_frame off s).1.mem x).trans h) off false
  unfold sectorZeroed
  cases remapOf (putSector off zeroBytes false (galInvalidate off s)) off with
  | none => exact hown
  | some e => exact putSector_keeps_zero hown _ _

theorem sectorZeroed_sameRegs {s t : State} (h : SameRegs s t accessKeys) (k off j : Nat) : SameRegs s (sectorZeroed k off j t) accessKeys := by
  have hown := (h.andThen (galInvalidate_frame off t).2).andThen (.of_regs (putSector_regs off zeroBytes false (galInvalidate off t)) _)
  unfold sectorZeroed
  cases remapOf (putSector off zeroBytes false (galInvalidate off t)) off with
  | none => exact hown
  | some e => exact hown.andThen (.of_regs (putSector_regs ..) _)

/-- A sector that has been scrubbed is zero in its own row, and where its offset leads. -/
theorem sectorZeroed_zero {s t : State} (h : SameRegs s t accessKeys) {off j i : Nat} (hplace : offInRow off = 32 * j) (hi : i < 32) :
    (sectorZeroed (offStack off) off j t).byteAt (off + i) = some 0 ∧
    (sectorZeroed (offStack off) off j t).byteAt (locOf s off + i) = some 0 := by
  have hregs := (h.andThen (galInvalidate_frame off t).2).andThen (.of_regs (putSector_regs off zeroBytes false (galInvalidate off t)) _)
  have hown := putSector_zero_self off false (galInvalidate off t) hi
  unfold sectorZeroed
  rw [remapOf_congr hregs, locOf_eq]
  cases remapOf s off with
  | none => exact ⟨hown, hown⟩
  | some n =>
    simp only [Option.elim, hplace]
    exact ⟨putSector_keeps_zero hown _ _, putSector_zero_self _ _ _ hi⟩

/-- An offset is what the fields of Table 3.2 make. -/
theorem off_eq_fields {off : Nat} (hmod : off % 32 = 0) (hoff : off < 2 ^ 40) :
    off = bits off 36 4 * 2 ^ 36 + offStack off * 2 ^ 33 + offSet off * 2 ^ 30 + bits off 17 13 * 2 ^ 17 + bits off 13 4 * 2 ^ 13 +
      bits off 9 4 * 2 ^ 9 + bits off 6 3 * 2 ^ 6 + bits off 5 1 * 32 := by
  have hstep (lo wd : Nat) : off / 2 ^ lo = 2 ^ wd * (off / 2 ^ (lo + wd)) + bits off lo wd := by
    rw [bits, Nat.pow_add, ← Nat.div_div_eq_div_mul, Nat.div_add_mod]
  have h36 := hstep 36 4
  have h33 : off / 2 ^ 33 = _ := hstep 33 3
  have h30 : off / 2 ^ 30 = _ := hstep 30 3
  have h17 : off / 2 ^ 17 = _ := hstep 17 13
  have h13 : off / 2 ^ 13 = _ := hstep 13 4
  have h9 : off / 2 ^ 9 = _ := hstep 9 4
  have h6 : off / 2 ^ 6 = _ := hstep 6 3
  have h5 : off / 2 ^ 5 = _ := hstep 5 1
  have h0 : off = 2 ^ 5 * (off / 2 ^ 5) := by omega
  rw [Nat.div_eq_of_lt (show off < 2 ^ (36 + 4) from hoff), Nat.mul_zero, Nat.zero_add] at h36
  rw [h36] at h33
  rw [h33] at h30
  rw [h30] at h17
  rw [h17] at h13
  rw [h13] at h9
  rw [h9] at h6
  rw [h6] at h5
  rw [h5] at h0
  refine h0.trans ?_
  simp only [offStack, offSet]
  ring

/-- Every sector of a channel set stands in one of the rows that a scrub goes through. -/
theorem setRowOff_setRowIx {off : Nat} (hmod : off % 32 = 0) (hoff : off < upperSize) :
    setRowIx off < setRows ∧ ∃ j < 32, setRowOff (offStack off) (offSet off) (setRowIx off) j = off ∧ offInRow off = 32 * j := by
  have h40 : off < 2 ^ 40 := by simp only [upperSize] at hoff; omega
  have hfields := off_eq_fields hmod h40
  have hlayer : bits off 36 4 < 12 := by simp only [upperSize] at hoff; simp only [bits]; omega
  have hlow : bits off 0 6 = bits off 5 1 * 32 := by simp only [bits]; omega
  have hrow := bits_lt off 17 13
  have hbank := bits_lt off 13 4
  have hpc := bits_lt off 6 3
  have hgranule := bits_lt off 9 4
  have hhalf := bits_lt off 5 1
  refine ⟨by simp only [setRowIx, setRows]; omega, bits off 9 4 * 2 + bits off 5 1, by omega, ?_, by rw [offInRow, hlow]; omega⟩
  obtain ⟨h1, h2, h3, h4⟩ : setRowIx off % 8192 = bits off 17 13 ∧ setRowIx off / 8192 % 16 = bits off 13 4 ∧
      setRowIx off / 131072 % 8 = bits off 6 3 ∧ setRowIx off / 1048576 = bits off 36 4 := by
    have hq : setRowIx off / 8192 = bits off 36 4 * 128 + bits off 6 3 * 16 + bits off 13 4 := by simp only [setRowIx]; omega
    have hp : setRowIx off / 131072 = bits off 36 4 * 8 + bits off 6 3 := by simp only [setRowIx]; omega
    have hl : setRowIx off / 1048576 = bits off 36 4 := by simp only [setRowIx]; omega
    rw [hq, hp, hl]
    refine ⟨by simp only [setRowIx]; omega, by omega, by omega, rfl⟩
  have h5 : (bits off 9 4 * 2 + bits off 5 1) / 2 = bits off 9 4 := by omega
  have h6 : (bits off 9 4 * 2 + bits off 5 1) % 2 = bits off 5 1 := by omega
  rw [setRowOff, h1, h2, h3, h4, h5, h6]
  exact hfields.symm

theorem rowZeroed_sameRegs {s t : State} (h : SameRegs s t accessKeys) (k set ix : Nat) : SameRegs s (rowZeroed k set ix t) accessKeys :=
  foldl_invariant (I := fun t => SameRegs s t accessKeys) (fun _ _ _ ht => sectorZeroed_sameRegs ht _ _ _) h

theorem setZeroed_sameRegs {s t : State} (h : SameRegs s t accessKeys) (k n set : Nat) : SameRegs s (setZeroed k n set t) accessKeys :=
  foldl_invariant (I := fun t => SameRegs s t accessKeys) (fun _ _ _ ht => rowZeroed_sameRegs ht _ _ _) h

theorem rowZeroed_keeps_zero {x : Nat} {s : State} (h : s.byteAt x = some 0) (k set ix : Nat) : (rowZeroed k set ix s).byteAt x = some 0 :=
  foldl_invariant (I := fun t : State => t.byteAt x = some 0) (fun _ _ _ ht => sectorZeroed_keeps_zero ht _ _ _) h

theorem setZeroed_keeps_zero {x : Nat} {s : State} (h : s.byteAt x = some 0) (k n set : Nat) : (setZeroed k n set s).byteAt x = some 0 :=
  foldl_invariant (I := fun t : State => t.byteAt x = some 0) (fun _ _ _ ht => rowZeroed_keeps_zero ht _ _ _) h

/-- Two bytes are zero. -/
abbrev ZeroAt (x y : Nat) (t : State) : Prop := t.byteAt x = some 0 ∧ t.byteAt y = some 0

/-- A whole scrub leaves zero in every sector of its sets, and in the spares that serve them. -/
theorem zeroRows_zero {s : State} {mask off i : Nat} (hmod : off % 32 = 0) (hoff : off < upperSize) (hset : bitOf mask (offSet off) = true)
    (hi : i < 32) : ZeroAt (off + i) (locOf s off + i) (zeroRows (offStack off) mask setRows s) := by
  obtain ⟨hix, j, hj, hplace, hrow⟩ := setRowOff_setRowIx hmod hoff
  have hmask : offSet off ∈ bitList mask 8 := List.mem_filter.2 ⟨List.mem_range.2 (bits_lt off 30 3), hset⟩
  rw [zeroRows_eq]
  refine foldl_at (J := fun t => SameRegs s t accessKeys) (Q := ZeroAt (off + i) (locOf s off + i))
    (List.nodup_range.filter _) hmask (fun t _ _ _ ht => setZeroed_sameRegs ht _ _ _) (fun t ht => ?_)
    (fun t _ _ _ ht => ⟨setZeroed_keeps_zero ht.1 _ _ _, setZeroed_keeps_zero ht.2 _ _ _⟩) (SameRegs.refl s _)
  refine foldl_at (J := fun t => SameRegs s t accessKeys) (Q := ZeroAt (off + i) (locOf s off + i)) List.nodup_range (List.mem_range.2 hix)
    (fun t _ _ _ ht => rowZeroed_sameRegs ht _ _ _) (fun t ht => ?_)
    (fun t _ _ _ ht => ⟨rowZeroed_keeps_zero ht.1 _ _ _, rowZeroed_keeps_zero ht.2 _ _ _⟩) ht
  refine foldl_at (J := fun t => SameRegs s t accessKeys) (Q := ZeroAt (off + i) (locOf s off + i)) List.nodup_range (List.mem_range.2 hj)
    (fun t _ _ _ ht => sectorZeroed_sameRegs ht _ _ _) (fun t ht => ?_)
    (fun t _ _ _ ht => ⟨sectorZeroed_keeps_zero ht.1 _ _ _, sectorZeroed_keeps_zero ht.2 _ _ _⟩) ht
  rw [hplace]
  exact sectorZeroed_zero ht hrow hi

/-! The end of a command. -/

section
variable {s : State} {k : Nat} {c : StkCmd} (hc : (s.stkUnit k).cmd = some c)
include hc

theorem exec_stkCmdComplete_ends (h : stkReach s k (stkEnd c) c = stkEnd c) :
    exec (.stkCmdComplete k) s = .next (stkComplete k ST.OK (stkRunTo k (stkEnd c) c s)) := by
  show execStkCmdComplete k s = _
  simp only [execStkCmdComplete, hc, if_pos h]

theorem exec_stkCmdComplete_waits (h : stkReach s k (stkEnd c) c ≠ stkEnd c) :
    exec (.stkCmdComplete k) s =
      .next (((heldRows s k).filter fun a => cmdCovers c a).foldl (fun s a => claimWait (.stkCmdComplete k) a s) s) := by
  show execStkCmdComplete k s = _
  simp only [execStkCmdComplete, hc, if_neg h]

theorem exec_stkCmdAbort_ends (reached : Nat) : exec (.stkCmdAbort k reached) s =
    .next (stkComplete k ST.STK_CMD_ABORTED (stkRunTo k (stkReach s k reached c) c s)) := by
  show execStkCmdAbort k reached s = _
  simp only [execStkCmdAbort, hc]

end

theorem exec_stkCmdAbort_idle {s : State} {k : Nat} (hc : (s.stkUnit k).cmd = none) (reached : Nat) : exec (.stkCmdAbort k reached) s = .next s := by
  show execStkCmdAbort k reached s = _
  simp only [execStkCmdAbort, hc]

/-- A wait on a claimed row changes the list of such waits alone (R89, R92). -/
theorem claimWait_frame (c : Instr) (a : Nat) (s : State) : { claimWait c a s with stk.claimWaits := s.stk.claimWaits } = s := by
  unfold claimWait
  split <;> rfl

theorem claimWaits_frame (c : Instr) (l : List Nat) (s : State) :
    { l.foldl (fun s a => claimWait c a s) s with stk.claimWaits := s.stk.claimWaits } = s :=
  foldl_invariant (I := fun t : State => { t with stk.claimWaits := s.stk.claimWaits } = s) (fun t a _ ht => by
    have h := congrArg (fun u : State => { u with stk.claimWaits := s.stk.claimWaits }) (claimWait_frame c a t)
    exact h.trans ht) rfl

/-- What only begins to wait keeps memory and the units of the stacks. -/
theorem mem_stkUnit_of_claimWaits {s t : State} (h : { t with stk.claimWaits := s.stk.claimWaits } = s) (k : Nat) :
    t.mem = s.mem ∧ t.stkUnit k = s.stkUnit k := by
  have hm : { t with stk.claimWaits := s.stk.claimWaits }.mem = s.mem := by rw [h]
  have hu : { t with stk.claimWaits := s.stk.claimWaits }.stkUnit k = s.stkUnit k := by rw [h]
  exact ⟨hm, hu⟩

end Sys2Proof.Machine

open Sys2Proof Sys2Proof.Machine

/-- Settles O12: each command by the equation of the branch it takes, and the rows by `fillRows_holds` and `zeroRows_zero`. When
the rows are written, and that they never pass a held row, are the model's choice (assumption log 27). -/
theorem stackCommandsFollowTheirChecks : Obligations.StackCommandsFollowTheirChecks := by
  unfold Obligations.StackCommandsFollowTheirChecks
  refine ⟨fun s k hk hidle hlt hle => ⟨fun ht => ?_, fun ht => ?_⟩, fun s k hk hidle hbad => ?_,
    fun s k m hk hidle hfree => ⟨fun hne => ?_, fun he => ?_⟩, fun s k m hk hidle hown => ?_,
    fun s k m op hbusy hop => ?_, fun s k op h1 h2 h15 => ?_, fun s k c hk hc => ⟨fun hreach => ?_, fun hreach => ?_⟩,
    fun s k reached c hk hc => ?_, fun s k reached hc => exec_stkCmdAbort_idle hc reached⟩
  · obtain ⟨hbusy, hcmd, hprog, hregs, hframe⟩ := cmdStarted_shown hk (.fill (fillStart s k) (fillStop s k) (fillPat s k)) (fillStart s k) s
    exact ⟨_, exec_fill_starts hidle ⟨Nat.mul_lt_mul_of_pos_right hlt (by decide), hle⟩ ht, hbusy, hcmd, hprog, hregs, hframe⟩
  · obtain ⟨-, hdone, hstatus, -⟩ := stkComplete_ended hk (status := ST.OK) (by decide) s
    exact ⟨_, exec_fill_untouched hidle ⟨Nat.mul_lt_mul_of_pos_right hlt (by decide), hle⟩ ht, hstatus, hdone, stkComplete_mem ..⟩
  · obtain ⟨hbusy, hdone, hstatus, -⟩ := stkComplete_ended hk (status := ST.STK_CMD_RANGE) (by decide) s
    refine ⟨_, exec_fill_badRange hidle fun h => hbad ⟨?_, h.2⟩, hstatus, hdone, hbusy, stkComplete_mem ..⟩
    exact Nat.lt_of_mul_lt_mul_right h.1
  · obtain ⟨hbusy, hcmd, -, hregs, hframe⟩ := cmdStarted_shown hk (.zero (m % 256)) 0 s
    exact ⟨_, exec_zeroize_starts hidle hne hfree, hbusy, hcmd, hregs, hframe⟩
  · obtain ⟨-, hdone, hstatus, -⟩ := stkComplete_ended hk (status := ST.OK) (by decide) s
    exact ⟨_, exec_zeroize_empty hidle he, hstatus, hdone, stkComplete_mem ..⟩
  · obtain ⟨-, hdone, hstatus, -⟩ := stkComplete_ended hk (status := ST.STK_CMD_OWNED) (by decide) s
    exact ⟨_, exec_zeroize_owned hidle hown, hstatus, hdone, stkComplete_mem ..⟩
  · exact ⟨_, exec_fill_busy hbusy, exec_zeroize_busy hbusy m, exec_stkCmdInvalid_busy hbusy hop, rd_wr_self .., .wr ..⟩
  · exact ⟨_, exec_stkCmdInvalid_undefined h1 h2 h15, rd_wr_self .., .wr ..⟩
  · obtain ⟨hbusy, hdone, hstatus, hcmd⟩ := stkComplete_ended hk (status := ST.OK) (by decide) (stkRunTo k (stkEnd c) c s)
    refine ⟨_, exec_stkCmdComplete_ends hc hreach, hbusy, hdone, hstatus, hcmd, ?_, ?_⟩
    · rintro a b pat rfl hpat -
      have hbyte := byteAt_congr (stkComplete_mem k ST.OK (stkRunTo k (4096 * b) (.fill (4096 * a) (4096 * b) pat) s))
      refine ⟨fun off i hit hi => ?_, fun x hx => ?_⟩
      · have hget : pat[i]? = some (pat.getD i 0) := by
          rw [List.getD_eq_getElem?_getD, List.getElem?_eq_getElem (by omega), Option.getD_some]
        rw [locOf_add s hit.1 hi, hget]
        exact (hbyte _).trans (fillRows_holds s hit hi)
      · exact (hbyte x).trans (fillRows_keeps s hx)
    · rintro m rfl - off i hmod hoff rfl hset hi
      have hbyte := byteAt_congr (stkComplete_mem (offStack off) ST.OK (stkRunTo (offStack off) setRows (.zero m) s))
      obtain ⟨hown, hspare⟩ := zeroRows_zero (s := s) hmod hoff hset hi
      rw [locOf_add s hmod hi]
      exact ⟨(hbyte _).trans hown, (hbyte _).trans hspare⟩
  · have hframe := claimWaits_frame (.stkCmdComplete k) ((heldRows s k).filter fun a => cmdCovers c a) s
    obtain ⟨hmem, hunit⟩ := mem_stkUnit_of_claimWaits hframe k
    exact ⟨_, exec_stkCmdComplete_waits hc hreach, hmem, by rw [hunit, hc], hframe⟩
  · obtain ⟨hbusy, hdone, hstatus, hcmd⟩ :=
      stkComplete_ended hk (status := ST.STK_CMD_ABORTED) (by decide) (stkRunTo k (stkReach s k reached c) c s)
    exact ⟨_, exec_stkCmdAbort_ends hc reached, hbusy, hdone, hstatus, hcmd⟩
end

section
/-!
PROOFS. Reads of the upper case and the count of their replays (R65): the count saturates at its field's width even where nothing is
added to it.
-/
namespace Sys2Proof.Machine

/-- A register store that lists a value past the 32 bits of STK_CNT4. -/
def overfullReplays : State := { regs := [((STK_CNT.COUNT 4).key 0, 2 ^ 32)] }

theorem rd_overfullReplays : overfullReplays.rd (STK_CNT.COUNT 4) 0 = 2 ^ 32 := by decide

/-- An access without a replay still writes STK_CNT4, at most all ones. -/
theorem rd_replayed_zero (k part off : Nat) (s : State) :
    (replayed k part off 0 s).rd (STK_CNT.COUNT 4) k = min (2 ^ 32 - 1) (s.rd (STK_CNT.COUNT 4) k) :=
  rd_bumpBy_self s (STK_CNT.COUNT 4) k 0

end Sys2Proof.Machine

open Sys2Proof Sys2Proof.Machine

/-- Refutes O9: its clause on replays speaks of every state, and says that an access without a link CRC failure changes nothing;
where the register store lists 2^32 for the 32 bits of STK_CNT4, adding no replays to the count brings it down to 2^32 − 1. -/
theorem not_stackReadDeliversTheTable : ¬ Obligations.StackReadDeliversTheTable := by
  unfold Obligations.StackReadDeliversTheTable
  rintro ⟨-, -, -, -, hreplays, -⟩
  have hkept : replayed 0 0 0 0 overfullReplays = overfullReplays := (hreplays overfullReplays 0 0 0 0).1 rfl
  have hcount := rd_replayed_zero 0 0 0 overfullReplays
  rw [hkept, rd_overfullReplays] at hcount
  exact absurd hcount (by decide)
end

section
/-!
PROOFS. Remap entries, patrol scrub and refresh (R67–R70, R75): what a copy leaves in a spare row, what a patrol leaves in the row it
scrubs, and that both change the arrays and the counts of reads alone.
-/
namespace Sys2Proof.Machine

/-! What reads and writes of sectors change. -/

/-- `t` differs from `s` in the arrays, register fields, records and free values alone. -/
abbrev ArraysOnly (s t : State) : Prop :=
  { t with regs := s.regs, mem := s.mem, chk := s.chk, psn := s.psn, freeIx := s.freeIx, ras.handlers := s.ras.handlers } = s

section
variable {s t u : State} (h : ArraysOnly s t)
include h

theorem ArraysOnly.stk : t.stk = s.stk := by
  have e : { t with regs := s.regs, mem := s.mem, chk := s.chk, psn := s.psn, freeIx := s.freeIx, ras.handlers := s.ras.handlers }.stk = s.stk := by
    rw [h]
  exact e

theorem ArraysOnly.trans (g : ArraysOnly t u) : ArraysOnly s u :=
  (congrArg (fun x : State =>
    { x with regs := s.regs, mem := s.mem, chk := s.chk, psn := s.psn, freeIx := s.freeIx, ras.handlers := s.ras.handlers }) g).trans h

theorem ArraysOnly.andPut (loc : Nat) (d : Bytes) (p : Bool) : ArraysOnly s (putSector loc d p t) := h

theorem ArraysOnly.andDrop (loc : Nat) : ArraysOnly s (dropSector loc t) := h

theorem ArraysOnly.andWr (f : Fld) (i v : Nat) : ArraysOnly s (t.wr f i v) := h

end

theorem HandsOnly.arraysOnly {s t : State} (h : HandsOnly s t) : ArraysOnly s t :=
  congrArg (fun x : State => { x with mem := s.mem, chk := s.chk, psn := s.psn, freeIx := s.freeIx }) h

/-! A unit of a stack is set: the registers and the arrays stay. -/

theorem setStk_rd (s : State) (k : Nat) (u : StkUnit) (f : Fld) (i : Nat) : (s.setStk k u).rd f i = s.rd f i := rfl

theorem SameRegs.setStk {s t : State} {ks : List Nat} (h : SameRegs s t ks) (k : Nat) (u : StkUnit) : SameRegs s (t.setStk k u) ks := h

theorem stored_setStk (s : State) (k : Nat) (u : StkUnit) (loc : Nat) : stored (s.setStk k u) loc = stored s loc :=
  stored_of_arrays rfl rfl rfl loc

theorem stored_wr (s : State) (f : Fld) (i v loc : Nat) : stored (s.wr f i v) loc = stored s loc := stored_of_arrays rfl rfl rfl loc

/-! The sectors of one row (Table 3.2, R66). -/

/-- Where sector `j` of a row lies, counted from the row's first. -/
abbrev rowPlace (j : Nat) : Nat := j / 2 * 512 + j % 2 * 32

section
variable {b c j : Nat} (hb : b % 8192 = 64 * c) (hc : c < 8) (hj : j < 32)
include hb hc hj

theorem bits_rowPlace_high {lo : Nat} (hlo : 13 ≤ lo) (wd : Nat) : bits (b + rowPlace j) lo wd = bits b lo wd := by
  have hsplit : 2 ^ lo = 8192 * 2 ^ (lo - 13) := by rw [show (8192 : Nat) = 2 ^ 13 from rfl, ← Nat.pow_add]; congr 1; omega
  rw [bits, bits, hsplit, ← Nat.div_div_eq_div_mul, ← Nat.div_div_eq_div_mul]
  congr 2
  simp only [rowPlace]
  omega

theorem offStack_rowPlace : offStack (b + rowPlace j) = offStack b := bits_rowPlace_high hb hc hj (by decide) 3

theorem remapOf_rowPlace (s : State) : remapOf s (b + rowPlace j) = remapOf s b := by
  have hhigh {lo : Nat} (hlo : 13 ≤ lo) (wd : Nat) := bits_rowPlace_high hb hc hj hlo wd
  have hpc : bits (b + rowPlace j) 6 3 = bits b 6 3 := by simp only [bits, rowPlace]; omega
  have hword : remapWord (b + rowPlace j) = remapWord b := by
    simp only [remapWord, offLayer, offPc, offSet, offBg, offBank, offRowNo, hpc]
    rw [hhigh, hhigh, hhigh, hhigh, hhigh, hhigh] <;> decide
  simp only [remapOf, hword, offStack_rowPlace hb hc hj]

theorem offInRow_rowPlace : offInRow (b + rowPlace j) = 32 * j := by
  simp only [offInRow, bits, rowPlace]
  omega

/-- The sectors of a row lie in the row, or all in the spare that serves it. -/
theorem locOf_rowPlace (s : State) :
    locOf s (b + rowPlace j) = (remapOf s b).elim (b + rowPlace j) fun n => spareLoc (offStack b) n (32 * j) := by
  rw [locOf_eq, remapOf_rowPlace hb hc hj, offStack_rowPlace hb hc hj, offInRow_rowPlace hb hc hj]

end

theorem locOf_rowPlace_inj {b c i j : Nat} (hb : b % 8192 = 64 * c) (hc : c < 8) (hi : i < 32) (hj : j < 32) {s : State}
    (h : locOf s (b + rowPlace i) = locOf s (b + rowPlace j)) : i = j := by
  rw [locOf_rowPlace hb hc hi, locOf_rowPlace hb hc hj] at h
  cases hr : remapOf s b with
  | none => simp only [hr, Option.elim, rowPlace] at h; omega
  | some n => simp only [hr, Option.elim, spareLoc] at h; omega

theorem patrolOff_eq (k ix j : Nat) : patrolOff k ix j = patrolOff k ix 0 + rowPlace j := by
  simp only [patrolOff, rowPlace]
  omega

theorem patrolOff_low (k ix : Nat) : patrolOff k ix 0 % 8192 = 64 * (ix / 131072 % 64 % 8) := by
  simp only [patrolOff]
  omega

theorem patrolOff_aligned (k ix j : Nat) : patrolOff k ix j % 32 = 0 := by
  simp only [patrolOff]
  omega

theorem patrolLoc_inj {s : State} {k ix i j : Nat} (hi : i < 32) (hj : j < 32)
    (h : locOf s (patrolOff k ix i) = locOf s (patrolOff k ix j)) : i = j := by
  rw [patrolOff_eq k ix i, patrolOff_eq k ix j] at h
  exact locOf_rowPlace_inj (patrolOff_low k ix) (Nat.mod_lt _ (by decide)) hi hj h

theorem remapOff_aligned (k w j : Nat) : remapOff k w j % 32 = 0 := by
  simp only [remapOff]
  omega

theorem remapOff_lt {k j : Nat} (hk : k < 8) (hj : j < 32) (w : Nat) : remapOff k w j < 2 ^ 40 := by
  have hlayer := bits_lt w 27 4
  have hpc := bits_lt w 21 6
  have hrow := bits_lt w 4 13
  have hbank := bits_lt w 17 2
  have hbg : bits w 19 2 ^^^ bits (bits w 4 13) 0 2 < 2 ^ 2 := Nat.xor_lt_two_pow (bits_lt ..) (bits_lt ..)
  simp only [remapOff]
  omega

theorem spareLoc_aligned (k n j : Nat) : spareLoc k n (32 * j) % 32 = 0 := by
  simp only [spareLoc]
  omega

/-! Patrol of a row (R69, R70). -/

/-- What a patrol of one sector does: it reads and counts, and writes that sector or none. -/
theorem patrolSector_cases {k : Nat} (hk : k < 8) (off : Nat) (s : State) :
    ∃ u, ArraysOnly s u ∧ SameRegs s u accessKeys ∧ u.mem = s.mem ∧ u.chk = s.chk ∧ u.psn = s.psn ∧
      (patrolSector k off s = u ∨ ∃ d p, patrolSector k off s = putSector (locOf s off) d p u) := by
  have hread : ArraysOnly s (readAt s (locOf s off)).2 ∧ SameRegs s (readAt s (locOf s off)).2 accessKeys ∧
      (readAt s (locOf s off)).2.mem = s.mem ∧ (readAt s (locOf s off)).2.chk = s.chk ∧ (readAt s (locOf s off)).2.psn = s.psn := by
    rcases readAt_state s (locOf s off) with h | h <;> rw [h] <;> exact ⟨rfl, .refl s _, rfl, rfl, rfl⟩
  obtain ⟨hframe, hregs, hmem, hchk, hpsn⟩ := hread
  unfold patrolSector
  dsimp only
  generalize (readAt s (locOf s off)).1 = r
  obtain ⟨hhands, hcount⟩ := countRead_frame hk 2 0 off r (readAt s (locOf s off)).2
  refine ⟨_, hframe.trans hhands.arraysOnly, hregs.andThen hcount, hhands.mem.trans hmem, hhands.chk.trans hchk, hhands.psn.trans hpsn, ?_⟩
  cases r with
  | data d => exact .inl rfl
  | fixed d => exact .inr ⟨_, _, rfl⟩
  | poison => exact .inl rfl
  | bad => exact .inr ⟨_, _, rfl⟩

section
variable {s t : State} {k : Nat} (hk : k < 8) (hregs : SameRegs s t accessKeys)
include hk hregs

theorem patrolSector_sameRegs (off : Nat) : SameRegs s (patrolSector k off t) accessKeys := by
  obtain ⟨u, -, hu, -, -, -, h⟩ := patrolSector_cases hk off t
  obtain h | ⟨d, p, h⟩ := h <;> rw [h]
  · exact hregs.andThen hu
  · exact (hregs.andThen hu).andThen (.of_regs (putSector_regs ..) _)

theorem patrolSector_stored_other {l off : Nat} (hl : l % 32 = 0) (hoff : off % 32 = 0) (hne : l ≠ locOf s off) :
    stored (patrolSector k off t) l = stored t l := by
  obtain ⟨u, -, -, hm, hc, hp, h⟩ := patrolSector_cases hk off t
  have hu : stored u l = stored t l := stored_of_arrays hm hc hp l
  obtain h | ⟨d, p, h⟩ := h <;> rw [h]
  · exact hu
  · rw [locOf_congr hregs, stored_putSector_other hl (locOf_mod s hoff) hne, hu]

theorem patrolSector_byteAt_other {x off : Nat} (hx : x < locOf s off ∨ locOf s off + 32 ≤ x) :
    (patrolSector k off t).byteAt x = t.byteAt x := by
  obtain ⟨u, -, -, hm, -, -, h⟩ := patrolSector_cases hk off t
  obtain h | ⟨d, p, h⟩ := h <;> rw [h]
  · exact byteAt_congr hm x
  · rw [locOf_congr hregs, putSector_byteAt_other _ _ _ _ hx, byteAt_congr hm]

end

theorem patrolSector_arraysOnly {s t : State} {k : Nat} (hk : k < 8) (h : ArraysOnly s t) (off : Nat) : ArraysOnly s (patrolSector k off t) := by
  obtain ⟨u, hu, -, -, -, -, hcases⟩ := patrolSector_cases hk off t
  obtain hcases | ⟨d, p, hcases⟩ := hcases <;> rw [hcases]
  · exact h.trans hu
  · exact (h.trans hu).andPut ..

section
variable {s : State} {off : Nat} {d : Bytes} (hc : cells s (locOf s off) = some d) (hp : poisonBit s (locOf s off) = false) (k : Nat)
include hc hp

theorem patrolSector_fixed {w : List Nat} (h : decodeWord (wordOf s (locOf s off) d) = .fixed w) :
    cells (patrolSector k off s) (locOf s off) = some ((List.range 32).map fun i => ((w.drop 4).map (BitVec.ofNat 8)).getD i 0) := by
  unfold patrolSector
  simp only [readAt_fixed hc hp h, cells_putSector]

theorem patrolSector_bad (h : decodeWord (wordOf s (locOf s off) d) = .bad) : poisonBit (patrolSector k off s) (locOf s off) = true := by
  unfold patrolSector
  simp only [readAt_bad hc hp h, poisonBit_putSector]

end

/-- The patrol of one row. -/
def patrolRow (k ix : Nat) (s : State) : State := (List.range 32).foldl (fun s j => patrolSector k (patrolOff k ix j) s) s

theorem patrolRow_frame {k : Nat} (hk : k < 8) (ix : Nat) (s : State) :
    ArraysOnly s (patrolRow k ix s) ∧ SameRegs s (patrolRow k ix s) accessKeys := by
  unfold patrolRow
  exact foldl_invariant (I := fun t => ArraysOnly s t ∧ SameRegs s t accessKeys)
    (fun _ _ _ ht => ⟨patrolSector_arraysOnly hk ht.1 _, patrolSector_sameRegs hk ht.2 _⟩) ⟨rfl, .refl s _⟩

theorem patrolRow_byteAt_other {k : Nat} (hk : k < 8) (ix : Nat) (s : State) {x : Nat}
    (hx : ∀ j < 32, x < locOf s (patrolOff k ix j) ∨ locOf s (patrolOff k ix j) + 32 ≤ x) : (patrolRow k ix s).byteAt x = s.byteAt x :=
  (foldl_invariant (I := fun t => SameRegs s t accessKeys ∧ t.byteAt x = s.byteAt x)
    (fun _ j hj ht => ⟨patrolSector_sameRegs hk ht.1 _,
      (patrolSector_byteAt_other hk ht.1 (hx j (List.mem_range.1 hj))).trans ht.2⟩) ⟨.refl s _, rfl⟩).2

/-- What `t` holds of a sector that decoded with a correction, or not at all, in `s`. -/
abbrev Scrubbed (s : State) (loc : Nat) (d : Bytes) (t : State) : Prop :=
  (∀ w, decodeWord (wordOf s loc d) = .fixed w →
    cells t loc = some ((List.range 32).map fun i => ((w.drop 4).map (BitVec.ofNat 8)).getD i 0)) ∧
  (decodeWord (wordOf s loc d) = .bad → poisonBit t loc = true)

theorem Scrubbed.of_stored {s t u : State} {loc : Nat} {d : Bytes} (h : Scrubbed s loc d t) (hu : stored u loc = stored t loc) :
    Scrubbed s loc d u :=
  ⟨fun w hw => (cells_of_stored hu).trans (h.1 w hw), fun hb => (poisonBit_of_stored hu).trans (h.2 hb)⟩

/-- A patrol of a sector scrubs it, given what it stored when the patrol of its row began. -/
theorem patrolSector_scrubs {s t : State} {off : Nat} {d : Bytes} (hregs : SameRegs s t accessKeys)
    (hst : stored t (locOf s off) = stored s (locOf s off)) (hc : cells s (locOf s off) = some d)
    (hp : poisonBit s (locOf s off) = false) (k : Nat) : Scrubbed s (locOf s off) d (patrolSector k off t) := by
  have hc' := (cells_of_stored hst).trans hc
  have hp' := (poisonBit_of_stored hst).trans hp
  have hword := wordOf_of_stored hst d
  rw [Scrubbed, ← hword]
  rw [← locOf_congr hregs] at hc' hp' ⊢
  exact ⟨fun w hw => patrolSector_fixed hc' hp' k hw, fun hb => patrolSector_bad hc' hp' k hb⟩

theorem patrolRow_scrubs {k : Nat} (hk : k < 8) {s : State} {ix j : Nat} {d : Bytes} (hj : j < 32)
    (hc : cells s (locOf s (patrolOff k ix j)) = some d) (hp : poisonBit s (locOf s (patrolOff k ix j)) = false) :
    Scrubbed s (locOf s (patrolOff k ix j)) d (patrolRow k ix s) := by
  have hal := patrolOff_aligned k ix
  have hother {t : State} (ht : SameRegs s t accessKeys) {i : Nat} (hi : i ∈ List.range 32) (hij : i ≠ j) :
      stored (patrolSector k (patrolOff k ix i) t) (locOf s (patrolOff k ix j)) = stored t (locOf s (patrolOff k ix j)) :=
    patrolSector_stored_other hk ht (locOf_mod s (hal j)) (hal i) fun he => hij (patrolLoc_inj hj (List.mem_range.1 hi) he).symm
  refine (foldl_at
    (J := fun t => SameRegs s t accessKeys ∧ stored t (locOf s (patrolOff k ix j)) = stored s (locOf s (patrolOff k ix j)))
    (Q := fun t => SameRegs s t accessKeys ∧ Scrubbed s (locOf s (patrolOff k ix j)) d t) List.nodup_range (List.mem_range.2 hj)
    (fun t i hi hij ht => ⟨patrolSector_sameRegs hk ht.1 _, (hother ht.1 hi hij).trans ht.2⟩)
    (fun t ht => ⟨patrolSector_sameRegs hk ht.1 _, patrolSector_scrubs ht.1 ht.2 hc hp k⟩)
    (fun t i hi hij ht => ⟨patrolSector_sameRegs hk ht.1 _, ht.2.of_stored (hother ht.1 hi hij)⟩) ⟨.refl s _, rfl⟩).2

/-- The patrol's position after row `ix`. -/
def patrolMoved (k ix : Nat) (s : State) : State :=
  if ix + 1 < stackRows then s.wr STK_PATROL_POS.ROW_INDEX k (ix + 1)
  else (s.wr STK_PATROL_POS.ROW_INDEX k 0).addWrap STK_PATROL_PASS.COUNT k 1

section
variable {s : State} {k : Nat}

theorem claimWait_of_unclaimed {a : Nat} (h : claimHeld s a = false) (c : Instr) : claimWait c a s = s := by
  rw [claimWait, if_neg (by simp [h])]

theorem exec_patrolScrubRow_off (h : s.flag STK_PATROL_CFG.EN k = false) : exec (.patrolScrubRow k []) s = .next s := by
  show execPatrolScrubRow k [] s = _
  simp only [execPatrolScrubRow, upsetAll, List.foldl_nil, h, Bool.false_eq_true, if_false, false_and]

theorem exec_patrolScrubRow_row (hen : s.flag STK_PATROL_CFG.EN k = true) (hopen : stackShut s k = false)
    (hfree : rowHeld s (patrolOff k (s.rd STK_PATROL_POS.ROW_INDEX k) 0) = false) : exec (.patrolScrubRow k []) s =
      .next (patrolMoved k (s.rd STK_PATROL_POS.ROW_INDEX k) (patrolRow k (s.rd STK_PATROL_POS.ROW_INDEX k) s)) := by
  have hclaim : claimHeld s (patrolOff k (s.rd STK_PATROL_POS.ROW_INDEX k) 0) = false := by
    simp only [rowHeld, Bool.or_eq_false_iff] at hfree
    exact hfree.1.1
  show execPatrolScrubRow k [] s = _
  simp only [execPatrolScrubRow, upsetAll, List.foldl_nil, hen, if_true, claimWait_of_unclaimed hclaim, hopen, hfree, Bool.false_eq_true,
    not_false_eq_true, and_self, patrolMoved, patrolRow]
  split <;> rfl

theorem claimWait_keeps (c : Instr) (a b i : Nat) : stackShut (claimWait c a s) i = stackShut s i ∧ rowHeld (claimWait c a s) b = rowHeld s b := by
  unfold claimWait
  split <;> exact ⟨rfl, rfl⟩

/-- A patrol of a shut stack, or of a held row, begins to wait at most. -/
theorem exec_patrolScrubRow_waits (h : stackShut s k = true ∨ rowHeld s (patrolOff k (s.rd STK_PATROL_POS.ROW_INDEX k) 0) = true) :
    ∃ t, exec (.patrolScrubRow k []) s = .next t ∧ { t with stk.claimWaits := s.stk.claimWaits } = s := by
  cases hen : s.flag STK_PATROL_CFG.EN k with
  | false => exact ⟨s, exec_patrolScrubRow_off hen, rfl⟩
  | true =>
    refine ⟨claimWait (.patrolScrubRow k []) (patrolOff k (s.rd STK_PATROL_POS.ROW_INDEX k) 0) s, ?_, claimWait_frame ..⟩
    have hkept := claimWait_keeps (s := s) (.patrolScrubRow k []) (patrolOff k (s.rd STK_PATROL_POS.ROW_INDEX k) 0)
    show execPatrolScrubRow k [] s = _
    simp only [execPatrolScrubRow, upsetAll, List.foldl_nil, hen, if_true]
    refine if_neg fun hruns => ?_
    rw [(hkept 0 k).1, (hkept _ 0).2] at hruns
    exact h.elim hruns.2.1 hruns.2.2

end

theorem patrolMoved_frame {s t : State} (h : ArraysOnly s t) (k ix : Nat) : ArraysOnly s (patrolMoved k ix t) := by
  unfold patrolMoved
  split
  · exact h.andWr ..
  · exact (h.andWr ..).andWr ..

theorem patrolMoved_arrays (k ix : Nat) (s : State) :
    (patrolMoved k ix s).mem = s.mem ∧ (patrolMoved k ix s).chk = s.chk ∧ (patrolMoved k ix s).psn = s.psn := by
  unfold patrolMoved
  split <;> exact ⟨rfl, rfl, rfl⟩

theorem patrolMoved_next {k ix : Nat} (h : ix + 1 < stackRows) (s : State) :
    (patrolMoved k ix s).rd STK_PATROL_POS.ROW_INDEX k = ix + 1 := by
  rw [patrolMoved, if_pos h, rd_wr_self]
  exact Nat.mod_eq_of_lt (h.trans (by decide))

theorem patrolMoved_wraps {k ix : Nat} (hk : k < 8) (h : stackRows ≤ ix + 1) (s : State) :
    (patrolMoved k ix s).rd STK_PATROL_POS.ROW_INDEX k = 0 ∧
    (patrolMoved k ix s).rd STK_PATROL_PASS.COUNT k = (s.rd STK_PATROL_PASS.COUNT k + 1) % 2 ^ 32 := by
  have hk : k < 2 ^ 20 := by omega
  rw [patrolMoved, if_neg (Nat.not_lt.2 h), State.addWrap]
  constructor
  · rw [rd_wr_base _ _ (by decide) hk hk, rd_wr_self, Nat.zero_mod]
  · rw [rd_wr_self, rd_wr_base _ _ (by decide) hk hk]
    rfl

/-! Remap entries (R67, R68). -/

section
variable {s : State} {k v : Nat}

theorem exec_remapInstall_busy (h : s.flag STK_REMAP_STS.BUSY k = true ∨ 12 ≤ bits v 27 4) :
    exec (.remapInstall k v) s = .next (s.wr STK_REMAP_STS.BUSY_ERR k 1) := if_pos h

theorem exec_remapRemove_busy (h : s.flag STK_REMAP_STS.BUSY k = true) :
    exec (.remapRemove k v) s = .next (s.wr STK_REMAP_STS.BUSY_ERR k 1) := if_pos h

theorem exec_remapRemove_idle (h : s.flag STK_REMAP_STS.BUSY k = false) :
    exec (.remapRemove k v) s = .next (setRemap k (s.rd STK_REMAP_SEL.INDEX k) (bits v 4 27 * 16) 0 s) :=
  if_neg (by simp [h])

variable (hidle : s.flag STK_REMAP_STS.BUSY k = false) (hlayer : bits v 27 4 < 12)
include hidle hlayer

theorem exec_remapInstall_inUse (h : s.flag STK_REMAP_ENT.VALID (32 * k + s.rd STK_REMAP_SEL.INDEX k) = true) :
    exec (.remapInstall k v) s = .next (s.wr STK_REMAP_STS.INUSE k 1) := by
  have hfree : ¬ (s.flag STK_REMAP_STS.BUSY k = true ∨ 12 ≤ bits v 27 4) := by simp [hidle, hlayer]
  show execRemapInstall k v s = _
  simp only [execRemapInstall, if_neg hfree, h, if_true]

variable (hunused : s.flag STK_REMAP_ENT.VALID (32 * k + s.rd STK_REMAP_SEL.INDEX k) = false)
include hunused

/-- An entry that is not in use is refused for a row redirected already, and otherwise its copy starts. -/
theorem exec_remapInstall_unused : exec (.remapInstall k v) s =
    if (List.range 32).any fun m => s.flag STK_REMAP_ENT.VALID (32 * k + m) ∧ remapEntry s k m = bits v 4 27 * 16 then
      .next (s.wr STK_REMAP_STS.DUP k 1)
    else .next ((s.wr STK_REMAP_STS.BUSY k 1).setStk k
      { s.stkUnit k with remap := some (s.rd STK_REMAP_SEL.INDEX k, bits v 4 27 * 16) }) := by
  have hfree : ¬ (s.flag STK_REMAP_STS.BUSY k = true ∨ 12 ≤ bits v 27 4) := by simp [hidle, hlayer]
  show execRemapInstall k v s = _
  simp only [execRemapInstall, if_neg hfree, hunused, Bool.false_eq_true, if_false]

theorem exec_remapInstall_dup (h : ∃ m < 32, s.flag STK_REMAP_ENT.VALID (32 * k + m) = true ∧ remapEntry s k m = bits v 4 27 * 16) :
    exec (.remapInstall k v) s = .next (s.wr STK_REMAP_STS.DUP k 1) := by
  obtain ⟨m, hm, hentry⟩ := h
  rw [exec_remapInstall_unused hidle hlayer hunused]
  exact if_pos (List.any_eq_true.2 ⟨m, List.mem_range.2 hm, decide_eq_true hentry⟩)

theorem exec_remapInstall_starts
    (h : ¬ ∃ m < 32, s.flag STK_REMAP_ENT.VALID (32 * k + m) = true ∧ remapEntry s k m = bits v 4 27 * 16) :
    exec (.remapInstall k v) s = .next ((s.wr STK_REMAP_STS.BUSY k 1).setStk k
      { s.stkUnit k with remap := some (s.rd STK_REMAP_SEL.INDEX k, bits v 4 27 * 16) }) := by
  rw [exec_remapInstall_unused hidle hlayer hunused]
  refine if_neg fun hany => h ?_
  obtain ⟨m, hm, hentry⟩ := List.any_eq_true.1 hany
  exact ⟨m, List.mem_range.1 hm, of_decide_eq_true hentry⟩

end

/-- Setting an entry writes its fields and the count of those in use alone. -/
theorem setRemap_regs (k n w valid : Nat) (s : State) : { setRemap k n w valid s with regs := s.regs } = s :=
  (((((((RegsOnly.refl s).andWr _ _ _).andWr _ _ _).andWr _ _ _).andWr _ _ _).andWr _ _ _).andWr _ _ _).andWr _ _ _ |>.1

theorem setRemap_arrays (k n w valid : Nat) (s : State) : (setRemap k n w valid s).mem = s.mem ∧ (setRemap k n w valid s).chk = s.chk ∧
    (setRemap k n w valid s).psn = s.psn ∧ (setRemap k n w valid s).stk = s.stk := by
  have hframe := setRemap_regs k n w valid s
  exact ⟨(congrArg State.mem hframe :), (congrArg State.chk hframe :), (congrArg State.psn hframe :), (congrArg State.stk hframe :)⟩

theorem setRemap_valid {k n : Nat} (hk : k < 8) (hn : n < 32) (w valid : Nat) (s : State) :
    (setRemap k n w valid s).rd STK_REMAP_ENT.VALID (32 * k + n) = valid % 2 := by
  unfold setRemap
  dsimp only
  rw [rd_wr_base _ _ (by decide) (by omega) (by omega), rd_wr_self]
  rfl

/-- What a copy of one sector does: it reads and counts, and writes the sector's place in the spare. -/
theorem copySector_cases {k : Nat} (hk : k < 8) (off dst : Nat) (s : State) :
    ∃ u, HandsOnly s u ∧ (copySector k off dst s = dropSector dst u ∨ ∃ d p, copySector k off dst s = putSector dst d p u) := by
  unfold copySector
  cases hc : cells s off with
  | none => exact ⟨s, rfl, .inl rfl⟩
  | some d =>
    have hread : (readAt s off).2 = s := by
      simp only [readAt, hc]
      split
      · rfl
      · split <;> rfl
    dsimp only
    rw [hread]
    refine ⟨_, (countRead_frame hk 1 0 off (readAt s off).1 s).1, .inr ?_⟩
    cases (readAt s off).1.bytes with
    | none => exact ⟨_, _, rfl⟩
    | some d' => exact ⟨_, _, rfl⟩

theorem copySector_arraysOnly {s t : State} {k : Nat} (hk : k < 8) (h : ArraysOnly s t) (off dst : Nat) :
    ArraysOnly s (copySector k off dst t) := by
  obtain ⟨u, hu, hcases⟩ := copySector_cases hk off dst t
  have hsu := h.trans hu.arraysOnly
  obtain hcases | ⟨d, p, hcases⟩ := hcases <;> rw [hcases]
  · exact hsu.andDrop ..
  · exact hsu.andPut ..

theorem copySector_stored_other {k : Nat} (hk : k < 8) {l dst : Nat} (hl : l % 32 = 0) (hdst : dst % 32 = 0) (hne : l ≠ dst) (off : Nat)
    (s : State) : stored (copySector k off dst s) l = stored s l := by
  obtain ⟨u, hu, hcases⟩ := copySector_cases hk off dst s
  obtain hcases | ⟨d, p, hcases⟩ := hcases <;> rw [hcases]
  · rw [stored_dropSector_other hl hdst hne, hu.stored]
  · rw [stored_putSector_other hl hdst hne, hu.stored]

/-- A clean sector goes to the spare as it stands. -/
theorem copySector_clean {s : State} {off : Nat} {d : Bytes} (hc : cells s off = some d) (hp : poisonBit s off = false)
    (h : decodeWord (wordOf s off d) = .clean) (k dst : Nat) : copySector k off dst s = putSector dst d false s := by
  simp only [copySector, hc, readAt_clean hc hp h, countRead, SectorRead.bytes]

/-- The copy of a row to its spare. -/
def copyRow (k n w : Nat) (s : State) : State :=
  (List.range 32).foldl (fun s j => copySector k (remapOff k w j) (spareLoc k n (32 * j)) s) s

theorem copyRow_arraysOnly {k : Nat} (hk : k < 8) (n w : Nat) (s : State) : ArraysOnly s (copyRow k n w s) := by
  unfold copyRow
  exact foldl_invariant (I := ArraysOnly s) (fun _ _ _ ht => copySector_arraysOnly hk ht _ _) rfl

/-- The spare of a row holds what the row's clean sectors hold: no copy of another sector writes the source, or its place. -/
theorem copyRow_holds {k j : Nat} (hk : k < 8) (hj : j < 32) (n : Nat) {s : State} {w : Nat} {d : Bytes}
    (h : HoldsSector (remapOff k w j) d false s) (hclean : decodeWord (wordOf s (remapOff k w j) d) = .clean) :
    HoldsSector (spareLoc k n (32 * j)) d false (copyRow k n w s) := by
  have hsrc (i : Nat) : remapOff k w j ≠ spareLoc k n (32 * i) := by
    have := remapOff_lt hk hj w
    simp only [spareLoc]
    omega
  have hdst {i : Nat} (hij : i ≠ j) : spareLoc k n (32 * j) ≠ spareLoc k n (32 * i) := by
    simp only [spareLoc]
    omega
  refine foldl_at (J := fun t => stored t (remapOff k w j) = stored s (remapOff k w j)) (Q := HoldsSector (spareLoc k n (32 * j)) d false)
    List.nodup_range (List.mem_range.2 hj) (fun t i _ _ ht => ?_) (fun t ht => ?_) (fun t i _ hij ht => ?_) rfl
  · exact (copySector_stored_other hk (remapOff_aligned ..) (spareLoc_aligned ..) (hsrc i) _ t).trans ht
  · have hword := wordOf_of_stored ht d
    rw [copySector_clean ((cells_of_stored ht).trans h.1) ((poisonBit_of_stored ht).trans h.2) (hword ▸ hclean)]
    exact HoldsSector.put (length_of_cells h.1) ..
  · exact ht.of_stored (copySector_stored_other hk (spareLoc_aligned ..) (spareLoc_aligned ..) (hdst hij) _ t)

/-- A row switches to its spare (R67). -/
def remapSwitched (k n w : Nat) (s : State) : State :=
  ((setRemap k n w 1 s).wr STK_REMAP_STS.BUSY k 0).setStk k { s.stkUnit k with remap := none }

theorem serveWaiting_idle {k : Nat} {s : State} (h : (s.stkUnit k).waiting = []) :
    serveWaiting k s = s.setStk k { s.stkUnit k with waiting := [] } := by
  simp only [serveWaiting, h, accessTurns, List.foldl_nil]

section
variable {s : State} {k n w : Nat} (hr : (s.stkUnit k).remap = some (n, w))
include hr

theorem exec_remapCopyDone_waits (h : claimHeld s (remapOff k w 0) = true) :
    exec (.remapCopyDone k) s = .next (claimWait (.remapCopyDone k) (remapOff k w 0) s) := by
  show execRemapCopyDone k s = _
  simp only [execRemapCopyDone, hr, h, if_true]

theorem exec_remapCopyDone_copies (h : claimHeld s (remapOff k w 0) = false) :
    exec (.remapCopyDone k) s = .next (serveWaiting k (remapSwitched k n w (copyRow k n w s))) := by
  show execRemapCopyDone k s = _
  simp only [execRemapCopyDone, hr, h, Bool.false_eq_true, if_false]
  have hunit (t : State) : ((setRemap k n w 1 t).wr STK_REMAP_STS.BUSY k 0).stkUnit k = t.stkUnit k := by
    obtain ⟨-, -, -, hstk⟩ := setRemap_arrays k n w 1 t
    show KMap.get {} (setRemap k n w 1 t).stk.units k = _
    rw [hstk, State.stkUnit]
  rw [hunit]
  rfl

end

theorem remapSwitched_shown {k n : Nat} (hk : k < 8) (hn : n < 32) (w : Nat) (s : State) :
    (remapSwitched k n w s).rd STK_REMAP_STS.BUSY k = 0 ∧ (remapSwitched k n w s).rd STK_REMAP_ENT.VALID (32 * k + n) = 1 ∧
    (remapSwitched k n w s).stkUnit k = { s.stkUnit k with remap := none } := by
  refine ⟨?_, ?_, stkUnit_setStk ..⟩
  · rw [remapSwitched, setStk_rd, rd_wr_self, Nat.zero_mod]
  · rw [remapSwitched, setStk_rd, rd_wr_base _ _ (by decide) (by omega) (by omega), setRemap_valid hk hn]

theorem remapSwitched_stored (k n w : Nat) (s : State) (loc : Nat) : stored (remapSwitched k n w s) loc = stored s loc := by
  obtain ⟨hmem, hchk, hpsn, -⟩ := setRemap_arrays k n w 1 s
  rw [remapSwitched, stored_setStk, stored_wr]
  exact stored_of_arrays hmem hchk hpsn loc

/-! Refresh (R75). -/

/-- A bank owes `n` refreshes. -/
def refreshOwed (k bank n : Nat) (s : State) : State :=
  s.setStk k { s.stkUnit k with postponed := KMap.put 0 (s.stkUnit k).postponed bank n }

theorem refreshOwed_postponed (k bank n : Nat) (s : State) : KMap.get 0 ((refreshOwed k bank n s).stkUnit k).postponed bank = n := by
  rw [refreshOwed, stkUnit_setStk]
  exact KMap.get_put_self ..

section
variable (s : State) (k bank : Nat)

theorem exec_refresh_idle : exec (.refresh k bank 0) s = .next (refreshOwed k bank 0 s) := rfl

variable {s k bank} {busy : Nat}

theorem exec_refresh_postpones (hb : busy ≠ 0) (h : KMap.get 0 (s.stkUnit k).postponed bank < s.rd STK_REF_CFG.POSTPONE_MAX k) :
    exec (.refresh k bank busy) s = .next (refreshOwed k bank (KMap.get 0 (s.stkUnit k).postponed bank + 1) s) := by
  show execRefresh k bank busy s = _
  simp only [execRefresh, if_neg hb, if_pos h]
  rfl

variable (h : s.rd STK_REF_CFG.POSTPONE_MAX k ≤ KMap.get 0 (s.stkUnit k).postponed bank)
include h

theorem exec_refresh_preempts : exec (.refresh k bank 1) s = .next (refreshOwed k bank 0 (s.bump (STK_CNT.COUNT 6) k)) := by
  show execRefresh k bank 1 s = _
  simp only [execRefresh, if_neg Nat.one_ne_zero, if_neg (Nat.not_lt.2 h), if_true]
  rfl

theorem exec_refresh_takes (hb : 1 < busy) : exec (.refresh k bank busy) s = .next (refreshOwed k bank 0 s) := by
  show execRefresh k bank busy s = _
  simp only [execRefresh, if_neg (show busy ≠ 0 by omega), if_neg (Nat.not_lt.2 h), if_neg (show busy ≠ 1 by omega)]
  rfl

end

end Sys2Proof.Machine

open Sys2Proof Sys2Proof.Machine

/-- Settles O13: each branch by its equation, a copied row by `copyRow_holds` and a patrolled one by `patrolRow_scrubs`. That an
entry in use sets INUSE alone even where the row is redirected already (assumption log 23), and that a refresh leaves none owed (28),
are the model's choice. -/
theorem remapPatrolAndRefresh : Obligations.RemapPatrolAndRefresh := by
  unfold Obligations.RemapPatrolAndRefresh
  refine ⟨fun s k v hk => ⟨fun hidle hlayer hunused hdup => ?_, fun h => ?_, fun hidle hlayer hused => ?_,
      fun hidle hlayer hunused hdup => ?_⟩, fun s k n w hk hn hr => ⟨fun hnone hfree => ?_, fun hheld => ?_⟩,
    fun s k v hk => ⟨fun hsel hidle => ?_, fun hbusy => ?_⟩,
    fun s k hk => ⟨fun hen hopen hfree => ?_, exec_patrolScrubRow_off, exec_patrolScrubRow_waits⟩,
    fun s k bank hk => ⟨?_, fun busy hb hlt => ?_, fun hmax => ⟨?_, fun busy hb => ?_⟩⟩⟩
  · refine ⟨_, exec_remapInstall_starts hidle hlayer hunused hdup, ?_, ?_, (SameRegs.wr s STK_REMAP_STS.BUSY k 1).setStk _ _, rfl⟩
    · rw [setStk_rd, rd_wr_self]
      rfl
    · rw [stkUnit_setStk]
  · exact ⟨_, exec_remapInstall_busy h, rd_wr_self .., .wr ..⟩
  · exact ⟨_, exec_remapInstall_inUse hidle hlayer hused, rd_wr_self .., .wr ..⟩
  · exact ⟨_, exec_remapInstall_dup hidle hlayer hunused hdup, rd_wr_self .., .wr ..⟩
  · obtain ⟨hbusy, hvalid, hunit⟩ := remapSwitched_shown hk hn w (copyRow k n w s)
    have hkept : (copyRow k n w s).stkUnit k = s.stkUnit k := by
      rw [State.stkUnit, (copyRow_arraysOnly hk n w s).stk, State.stkUnit]
    have hwait : ((remapSwitched k n w (copyRow k n w s)).stkUnit k).waiting = [] := by rw [hunit, hkept, hnone]
    refine ⟨_, exec_remapCopyDone_copies hr hfree, ?_⟩
    rw [serveWaiting_idle hwait, setStk_rd, setStk_rd, stkUnit_setStk, hunit]
    refine ⟨hbusy, hvalid, rfl, fun j d hj hc hp hclean => ?_⟩
    exact (copyRow_holds hk hj n ⟨hc, hp⟩ hclean).of_stored ((stored_setStk ..).trans (remapSwitched_stored ..))
  · exact ⟨_, exec_remapCopyDone_waits hr hheld, claimWait_frame ..⟩
  · have hframe := setRemap_regs k (s.rd STK_REMAP_SEL.INDEX k) (bits v 4 27 * 16) 0 s
    obtain ⟨hmem, -⟩ := setRemap_arrays k (s.rd STK_REMAP_SEL.INDEX k) (bits v 4 27 * 16) 0 s
    exact ⟨_, exec_remapRemove_idle hidle, setRemap_valid hk hsel .., hmem, hframe⟩
  · exact ⟨_, exec_remapRemove_busy hbusy, rd_wr_self .., .wr ..⟩
  · obtain ⟨hframe, hregs⟩ := patrolRow_frame hk (s.rd STK_PATROL_POS.ROW_INDEX k) s
    obtain ⟨hmem, hchk, hpsn⟩ := patrolMoved_arrays k (s.rd STK_PATROL_POS.ROW_INDEX k) (patrolRow k (s.rd STK_PATROL_POS.ROW_INDEX k) s)
    have hpass : (patrolRow k (s.rd STK_PATROL_POS.ROW_INDEX k) s).rd STK_PATROL_PASS.COUNT k = s.rd STK_PATROL_PASS.COUNT k :=
      hregs.rd_base (by decide) (by omega)
    refine ⟨_, exec_patrolScrubRow_row hen hopen hfree, fun hnext => patrolMoved_next hnext _, fun hlast => ?_,
      fun j d hj hc hp => ?_, fun x hx => ?_, patrolMoved_frame hframe ..⟩
    · rw [← hpass]
      exact patrolMoved_wraps hk hlast _
    · exact (patrolRow_scrubs hk hj hc hp).of_stored (stored_of_arrays hmem hchk hpsn _)
    · rw [byteAt_congr hmem, patrolRow_byteAt_other hk _ s hx]
  · exact ⟨_, exec_refresh_idle s k bank, refreshOwed_postponed .., rfl⟩
  · exact ⟨_, exec_refresh_postpones hb hlt, refreshOwed_postponed .., rfl⟩
  · refine ⟨_, exec_refresh_preempts hmax, refreshOwed_postponed .., ?_, (SameRegs.wr s (STK_CNT.COUNT 6) k _).setStk _ _, rfl⟩
    rw [refreshOwed, setStk_rd, rd_bump_self, count_wd]
  · exact ⟨_, exec_refresh_takes hmax hb, refreshOwed_postponed .., rfl⟩
end

section
/-!
PROOFS. The vector commands of a platen list (R78, R82–R84, R93, Table 4.5): how the next command of a list runs, what the sorts and
accumulators of its units hold after a load, a clear or a sum, and what own granules read and hold.
-/
namespace Sys2Proof.Machine

/-! The next command of a list (R82, R83). -/

section
variable {s : State} {k u op w : Nat} {r : PltRun} {f : Nat → PltRun → State → CmdRes} (h : NextCmd s k u op r w)
include h

theorem stepList_done (hwait : cmdWaits s r.list w = false) (hopen : opTouches op = false ∨ stackShut s k = false) {c : CmdRes}
    (hf : f w r s = c) (hc : c.fail = 0) : stepList op k u f s =
      c.s.setRun (64 * k + u) { c.run with pos := r.pos + 1, ended := decide (r.list.words.length ≤ r.pos + 1) } := by
  obtain ⟨hrun, hword, hended, hsusp, hop⟩ := h
  have hserved : ¬ (opTouches op = true ∧ stackShut s k = true) := by
    rintro ⟨h1, h2⟩
    simp [h1, h2] at hopen
  simp [stepList, hrun, hword, hended, hsusp, hop, hwait, hserved, hf, hc]

theorem stepList_fails (hwait : cmdWaits s r.list w = false) (hopen : stackShut s k = false) {x : Nat} (hx : x ≠ 0)
    (hf : f w r s = { s := s, run := r, fail := x }) : stepList op k u f s = s.setRun (64 * k + u) (r.failed x) := by
  obtain ⟨hrun, hword, hended, hsusp, hop⟩ := h
  simp [stepList, hrun, hword, hended, hsusp, hop, hwait, hopen, hf, hx, PltRun.failed]

theorem stepList_shut (htouch : opTouches op = true) (hshut : stackShut s k = true) :
    stepList op k u f s = s.setRun (64 * k + u) (r.failed ST.STK_FENCED) := by
  obtain ⟨hrun, hword, hended, hsusp, hop⟩ := h
  have hcode : ST.STK_FENCED ≠ 0 := by decide
  simp [stepList, hrun, hword, hended, hsusp, hop, hshut, htouch, hcode, PltRun.failed]

/-- A command that touches no row waits for none. -/
theorem cmdWaits_of_untouched (hop : opTouches op = false) : cmdWaits s r.list w = false := by
  obtain ⟨-, -, -, -, rfl⟩ := h
  simp only [opTouches, List.contains_eq_mem, decide_eq_false_iff_not, List.mem_cons, List.not_mem_nil, or_false, not_or] at hop
  obtain ⟨h1, h2, h5, h8, h9, -⟩ := hop
  simp [cmdWaits, cmdRanges, h1, h2, h5, h8, h9]

/-- A command that touches no row runs at once. -/
theorem stepList_untouched (hop : opTouches op = false) {c : CmdRes} (hf : f w r s = c) (hc : c.fail = 0) : stepList op k u f s =
    c.s.setRun (64 * k + u) { c.run with pos := r.pos + 1, ended := decide (r.list.words.length ≤ r.pos + 1) } :=
  stepList_done h (cmdWaits_of_untouched h hop) (.inl hop) hf hc

end

theorem pltRun?_setRun (s : State) (key : Nat) (r : PltRun) : pltRun? (s.setRun key r) key = some r := KMap.find?_insert_self ..

theorem rd_setRun (s : State) (key : Nat) (r : PltRun) (f : Fld) (i : Nat) : (s.setRun key r).rd f i = s.rd f i := rfl

/-! Commands on every unit (R84). -/

section
variable {k low w : Nat} {f : CmdRes → Nat → CmdRes} {r : PltRun} {s : State}

theorem onUnits_own (hlow : bits (cmdAddr w) 9 low = 0) (hown : ∀ v ∈ r.list.units, ownOk k r.list w v = true) :
    onUnits k low w f r s = r.list.units.foldl f { s := s, run := r } := by
  have hany : (r.list.units.any fun u => !ownOk k r.list w u) = false := List.any_eq_false.2 fun v hv => by simp [hown v hv]
  simp only [onUnits, hlow, hany, ne_eq, not_true_eq_false, Bool.false_eq_true, or_self, if_false]

theorem onUnits_notOwn (h : bits (cmdAddr w) 9 low ≠ 0 ∨ ∃ v ∈ r.list.units, ownOk k r.list w v = false) :
    onUnits k low w f r s = { s := s, run := r, fail := ST.PLT_ADDR } := by
  refine if_pos (h.imp_right fun ⟨v, hv, hown⟩ => List.any_eq_true.2 ⟨v, hv, ?_⟩)
  rw [hown]
  rfl

end

section
variable {s : State} {k u op w low : Nat} {r : PltRun} {g : Nat → CmdRes → Nat → CmdRes} (h : NextCmd s k u op r w) (hr : Reachable s k r w)
include h hr

theorem stepList_onUnits (hlow : bits (cmdAddr w) 9 low = 0) (hown : ∀ v ∈ r.list.units, ownOk k r.list w v = true) {c : CmdRes}
    (hc : r.list.units.foldl (g w) { s := s, run := r } = c) (hfail : c.fail = 0) :
    stepList op k u (fun w r s => onUnits k low w (g w) r s) s =
      c.s.setRun (64 * k + u) { c.run with pos := r.pos + 1, ended := decide (r.list.words.length ≤ r.pos + 1) } :=
  stepList_done h hr.1 (.inr hr.2) ((onUnits_own hlow hown).trans hc) hfail

theorem stepList_notOwn (hbad : bits (cmdAddr w) 9 low ≠ 0 ∨ ∃ v ∈ r.list.units, ownOk k r.list w v = false) :
    stepList op k u (fun w r s => onUnits k low w (g w) r s) s = s.setRun (64 * k + u) (r.failed ST.PLT_ADDR) :=
  stepList_fails h hr.1 hr.2 (by decide) (onUnits_notOwn hbad)

end

theorem units_nodup (l : PltList) : l.units.Nodup := by
  unfold PltList.units
  split
  · exact List.nodup_range.map fun a b h => Nat.add_left_cancel h
  · exact List.nodup_singleton _

/-! Bits and bytes. -/

theorem maskBits_succ (n : Nat) (p : Nat → Bool) : maskBits (n + 1) p = if p n then maskBits n p + 2 ^ n else maskBits n p := by
  rw [maskBits, List.range_succ, List.foldl_append]
  rfl

theorem maskBits_lt (n : Nat) (p : Nat → Bool) : maskBits n p < 2 ^ n := by
  induction n with
  | zero => exact Nat.one_pos
  | succ n ih =>
    rw [maskBits_succ, Nat.pow_succ]
    split <;> omega

theorem bitOf_maskBits {n i : Nat} (p : Nat → Bool) (hi : i < n) : bitOf (maskBits n p) i = p i := by
  induction n with
  | zero => omega
  | succ n ih =>
    have hlt := maskBits_lt n p
    rw [bitOf_eq_testBit] at ih ⊢
    rw [maskBits_succ]
    obtain rfl | hne := Nat.eq_or_lt_of_le (Nat.le_of_lt_succ hi)
    · split
      next hp => rw [Nat.add_comm, Nat.testBit_two_pow_add_eq, Nat.testBit_lt_two_pow hlt, hp]; rfl
      next hp => rw [Nat.testBit_lt_two_pow hlt, Bool.eq_false_iff.2 hp]
    · split
      · rw [Nat.add_comm, Nat.testBit_two_pow_add_gt hne, ih hne]
      · exact ih hne

theorem maskBits_eq_zero {n : Nat} {p : Nat → Bool} (h : ∀ i < n, p i = false) : maskBits n p = 0 := by
  induction n with
  | zero => rfl
  | succ n ih =>
    rw [maskBits_succ, h n (Nat.lt_succ_self n)]
    exact ih fun i hi => h i (by omega)

/-- An element of a list of blocks of one length. -/
theorem getElem?_flatMap_blocks {α β : Type} {f : α → List β} {c : Nat} (hc : 0 < c) (l : List α) (hf : ∀ a ∈ l, (f a).length = c) (m : Nat) :
    (l.flatMap f)[m]? = (l[m / c]?).bind fun a => (f a)[m % c]? := by
  induction l generalizing m with
  | nil => simp
  | cons a l ih =>
    have ha : (f a).length = c := hf a (List.mem_cons_self ..)
    rw [List.flatMap_cons]
    by_cases hm : m < c
    · rw [List.getElem?_append_left (by omega), Nat.div_eq_of_lt hm, Nat.mod_eq_of_lt hm]
      rfl
    · obtain ⟨n, rfl⟩ := Nat.exists_eq_add_of_le (Nat.not_lt.1 hm)
      rw [List.getElem?_append_right (by omega), ha, Nat.add_sub_cancel_left, ih (fun b hb => hf b (List.mem_cons_of_mem _ hb)),
        Nat.add_div_left _ hc, Nat.add_mod_left]
      rfl

theorem getElem?_natLe {n i : Nat} (v : Nat) (hi : i < n) : (natLe n v)[i]? = some (BitVec.ofNat 8 (v / 256 ^ i)) := by
  induction n generalizing v i with
  | zero => omega
  | succ n ih =>
    cases i with
    | zero => simp [natLe]
    | succ i => rw [natLe, List.getElem?_cons_succ, ih _ (by omega), Nat.div_div_eq_div_mul, Nat.pow_succ']

/-- The bytes of numbers of `n` bytes each, one after another. -/
theorem getElem?_flatMap_natLe {n : Nat} (hn : 0 < n) {j i c : Nat} (hj : j < c) (hi : i < n) (g : Nat → Nat) :
    ((List.range c).flatMap fun j => natLe n (g j))[n * j + i]? = some (BitVec.ofNat 8 (g j / 256 ^ i)) := by
  rw [getElem?_flatMap_blocks hn _ (fun _ _ => length_natLe ..), Nat.mul_add_div hn, Nat.div_eq_of_lt hi, Nat.add_zero, Nat.mul_add_mod,
    Nat.mod_eq_of_lt hi, List.getElem?_range hj]
  exact getElem?_natLe _ hi

theorem length_slice (bs : Bytes) (o n : Nat) : (slice bs o n).length = n := by
  simp only [slice, List.length_append, List.length_take, List.length_drop, List.length_replicate]
  omega

theorem getElem?_slice {bs : Bytes} {o n i : Nat} {b : BitVec 8} (hi : i < n) (h : bs[o + i]? = some b) : (slice bs o n)[i]? = some b := by
  have hlen : o + i < bs.length := (List.getElem?_eq_some_iff.1 h).1
  rw [slice, List.getElem?_append_left (by simp; omega), List.getElem?_take_of_lt hi, List.getElem?_drop, h]

theorem slice_self {d : Bytes} (h : d.length = 32) : slice d 0 32 = d := by
  simp [slice, h]

theorem leAt_one {bs : Bytes} {o : Nat} {x : BitVec 8} (hx : bs[o]? = some x) : leAt bs o 1 = x.toNat := by
  obtain ⟨ho, rfl⟩ := List.getElem?_eq_some_iff.1 hx
  rw [leAt, List.drop_eq_getElem_cons ho, List.take_succ_cons]
  simp [leNat]

theorem leAt_two {bs : Bytes} {o : Nat} {x y : BitVec 8} (hx : bs[o]? = some x) (hy : bs[o + 1]? = some y) :
    leAt bs o 2 = x.toNat + 256 * y.toNat := by
  obtain ⟨ho, rfl⟩ := List.getElem?_eq_some_iff.1 hx
  obtain ⟨ho', rfl⟩ := List.getElem?_eq_some_iff.1 hy
  rw [leAt, List.drop_eq_getElem_cons ho, List.drop_eq_getElem_cons ho', List.take_succ_cons, List.take_succ_cons]
  simp [leNat]

theorem leAt_take {bs : Bytes} {o m n : Nat} (h : o + m ≤ n) : leAt (bs.take n) o m = leAt bs o m := by
  rw [leAt, leAt, List.drop_take, List.take_take, Nat.min_eq_left (by omega)]

theorem ofInt_lt (n : Nat) (i : Int) : ofInt n i < 2 ^ n := by
  have hpos : (0 : Int) < 2 ^ n := by positivity
  have hlt := Int.emod_lt_of_pos i hpos
  have hnn := Int.emod_nonneg i hpos.ne'
  rw [ofInt]
  zify
  rw [Int.toNat_of_nonneg hnn]
  exact_mod_cast hlt

theorem getD_map_range {j n : Nat} (hj : j < n) (g : Nat → Nat) : ((List.range n).map g).getD j 0 = g j := by
  rw [List.getD_eq_getElem?_getD, List.getElem?_map, List.getElem?_range hj]
  rfl

/-! Sorts and accumulators. -/

/-- What a key holds once a run of keys is set. -/
theorem get_putRange (b n : Nat) (v : Nat → Nat) (m : KMap Nat) (x : Nat) :
    KMap.get 0 ((List.range n).foldl (fun m j => KMap.put 0 m (b + j) (v j)) m) x =
      if b ≤ x ∧ x < b + n then v (x - b) else KMap.get 0 m x := by
  induction n with
  | zero => rw [if_neg (by omega)]; rfl
  | succ n ih =>
    rw [List.range_succ, List.foldl_append, List.foldl_cons, List.foldl_nil]
    by_cases hx : x = b + n
    · subst hx
      rw [KMap.get_put_self, if_pos (by omega), Nat.add_sub_cancel_left]
    · rw [KMap.get_put_other _ _ _ _ hx, ih]
      exact if_congr (by omega) rfl rfl

theorem sortPoison_putSort_self (un so : Nat) (lanes : List Nat) (psn : Nat) (s : State) : sortPoison (putSort un so lanes psn s) un so = psn :=
  KMap.get_put_self ..

theorem sortLane_putSort_self (un so : Nat) (lanes : List Nat) (psn : Nat) (s : State) {j : Nat} (hj : j < 128) :
    sortLane (putSort un so lanes psn s) un so j = lanes.getD j 0 % 65536 := by
  have hdef : KMap.get 0 (putSort un so lanes psn s).plt.undef (un * 16 + so) = 0 :=
    KMap.get_put_self 0 s.plt.undef (un * 16 + so) 0
  rw [sortLane, hdef]
  show KMap.get 0 (putSort un so lanes psn s).plt.sorts _ = _
  rw [putSort, get_putRange, if_pos (by omega), Nat.add_sub_cancel_left]

section
variable {un un' so so' : Nat} (h : un' * 16 + so' ≠ un * 16 + so) (lanes : List Nat) (psn : Nat) (s : State)
include h

theorem sortPoison_putSort_other : sortPoison (putSort un so lanes psn s) un' so' = sortPoison s un' so' := KMap.get_put_other 0 0 _ _ h

theorem sortLane_putSort_other {j : Nat} (hj : j < 128) : sortLane (putSort un so lanes psn s) un' so' j = sortLane s un' so' j := by
  have hdef : KMap.get 0 (putSort un so lanes psn s).plt.undef (un' * 16 + so') = KMap.get 0 s.plt.undef (un' * 16 + so') :=
    KMap.get_put_other 0 0 s.plt.undef 0 h
  have hlane : KMap.get 0 (putSort un so lanes psn s).plt.sorts ((un' * 16 + so') * 128 + j) =
      KMap.get 0 s.plt.sorts ((un' * 16 + so') * 128 + j) := by
    rw [putSort, get_putRange, if_neg (by omega)]
  rw [sortLane, sortLane, hdef, hlane]

end

theorem accPoison_putAcc_self (un x : Nat) (lanes : List Nat) (mode psn : Nat) (s : State) : accPoison (putAcc un x lanes mode psn s) un x = psn :=
  KMap.get_put_self ..

theorem accLane_putAcc_self (un x : Nat) (lanes : List Nat) (mode psn : Nat) (s : State) {j : Nat} (hj : j < 128) :
    accLane (putAcc un x lanes mode psn s) un x j = lanes.getD j 0 % 2 ^ 48 := by
  rw [accLane, putAcc, get_putRange, if_pos (by omega), Nat.add_sub_cancel_left]

section
variable {un un' x x' : Nat} (h : un' * 4 + x' ≠ un * 4 + x) (lanes : List Nat) (mode psn : Nat) (s : State)
include h

theorem accPoison_putAcc_other : accPoison (putAcc un x lanes mode psn s) un' x' = accPoison s un' x' := KMap.get_put_other 0 0 _ _ h

theorem accLane_putAcc_other {j : Nat} (hj : j < 128) : accLane (putAcc un x lanes mode psn s) un' x' j = accLane s un' x' j := by
  rw [accLane, putAcc, get_putRange, if_neg (by omega), accLane]

end

/-! Own granules (R84). -/

/-- Sector `q` of own granules from `a`: two sectors of each, 512 bytes apart. -/
def sectorAt (a q : Nat) : Nat := a + 512 * (q / 2) + 32 * (q % 2)

theorem sectorAt_mem {a n q : Nat} (hq : q < 2 * n) : sectorAt a q ∈ granuleSectors a n := by
  refine List.mem_flatMap.2 ⟨q / 2, List.mem_range.2 (by omega), ?_⟩
  obtain h | h := Nat.mod_two_eq_zero_or_one q <;> simp [sectorAt, h]

/-- An address whose `n` granules are one unit's own, in one row of its channel set. -/
abbrev OwnRow (n a : Nat) : Prop := a % 64 = 0 ∧ a % (512 * n) < 512 ∧ a < upperSize

theorem ownRow_of_ownOk {k low w u : Nat} {l : PltList} (hlow : bits (cmdAddr w) 9 low = 0) (hown : ownOk k l w u = true) :
    OwnRow (2 ^ low) (ownAddr l w u) := by
  obtain ⟨-, -, hlt, hgang⟩ := of_decide_eq_true hown
  have hmul : cmdAddr w % 64 = 0 := by rw [cmdAddr, Nat.mul_mod_left]
  have hrow : cmdAddr w % (512 * 2 ^ low) = cmdAddr w % 512 := by
    rw [Nat.mod_mul, show cmdAddr w / 512 % 2 ^ low = 0 from hlow, Nat.mul_zero, Nat.add_zero]
  have hpos : 0 < 2 ^ low := Nat.two_pow_pos low
  refine ⟨by rw [ownAddr]; split <;> omega, ?_, hlt⟩
  rw [ownAddr]
  split
  next hg =>
    have hset := hgang hg
    simp only [bits] at hset
    have hzero : cmdAddr w % (512 * 2 ^ low) = 0 := by omega
    rw [Nat.add_mod, hzero, Nat.zero_add, Nat.mod_mod, Nat.mod_eq_of_lt (by omega)]
    omega
  next => rw [Nat.add_zero]; omega

section
variable {n a a' q q' : Nat} (hn : n = 4 ∨ n = 8) (ha : OwnRow n a) (ha' : OwnRow n a') (hq : q < 2 * n) (hq' : q' < 2 * n)
include hn ha ha' hq hq'

theorem sectorAt_inj (h : sectorAt a q = sectorAt a' q') : a = a' ∧ q = q' := by
  obtain ⟨h64, hrow, -⟩ := ha
  obtain ⟨h64', hrow', -⟩ := ha'
  simp only [sectorAt] at h
  obtain rfl | rfl := hn <;> omega

theorem sectorLoc_inj {s : State} (h : locOf s (sectorAt a q) = locOf s (sectorAt a' q')) : a = a' ∧ q = q' := by
  refine sectorAt_inj hn ha ha' hq hq' (locOf_inj ?_ ?_ h)
  · have := ha.2.2; simp only [upperSize, sectorAt] at *; omega
  · have := ha'.2.2; simp only [upperSize, sectorAt] at *; omega

end

/-- Byte `m` of own granules stands in their sector `m / 32`. -/
theorem locOf_ownByte {a : Nat} (s : State) (ha : a % 64 = 0) (m : Nat) :
    locOf s (a + 512 * (m / 64) + m % 64) = locOf s (sectorAt a (m / 32)) + m % 32 := by
  rw [← locOf_add s (by simp only [sectorAt]; omega) (Nat.mod_lt m (by decide))]
  congr 1
  simp only [sectorAt]
  omega

/-- Byte `i` of lane `j`, in own granules that hold lanes of `c` bytes each. -/
theorem ownByte_lane {c i : Nat} (hc : c = 2 ∨ c = 4) (hi : i < c) (a j : Nat) :
    a + 512 * ((c * j + i) / 64) + (c * j + i) % 64 = a + 512 * (c * j / 64) + c * j % 64 + i := by
  obtain rfl | rfl := hc <;> omega

/-- `t` differs from `s` in the arrays alone. -/
abbrev MemOnly (s t : State) : Prop := { t with mem := s.mem, chk := s.chk, psn := s.psn } = s

section
variable {s t : State} (h : MemOnly s t)
include h

theorem MemOnly.regs : t.regs = s.regs := by
  have e : { t with mem := s.mem, chk := s.chk, psn := s.psn }.regs = s.regs := by rw [h]
  exact e

theorem MemOnly.plt : t.plt = s.plt := by
  have e : { t with mem := s.mem, chk := s.chk, psn := s.psn }.plt = s.plt := by rw [h]
  exact e

theorem MemOnly.andPut (loc : Nat) (d : Bytes) (p : Bool) : MemOnly s (putSector loc d p t) := h

theorem MemOnly.locOf (b : Nat) : locOf t b = Machine.locOf s b := locOf_congr (.of_regs h.regs _) b

end

/-- One sector of own granules is written. -/
abbrev putOwnSector (a : Nat) (bs : Bytes) (psn : Nat) (s : State) (q : Nat) : State :=
  putSector (locOf s (sectorAt a q)) (slice bs (32 * q) 32) (bitOf psn q) s

theorem putGranules_eq (a : Nat) (bs : Bytes) (n psn : Nat) (s : State) :
    putGranules a bs n psn s = (List.range (2 * n)).foldl (putOwnSector a bs psn) s := by
  unfold putGranules
  induction n with
  | zero => rfl
  | succ n ih =>
    have h0 : sectorAt a (2 * n) = a + 512 * n := by simp only [sectorAt]; omega
    have h1 : sectorAt a (2 * n + 1) = a + 512 * n + 32 := by simp only [sectorAt]; omega
    rw [show 2 * (n + 1) = 2 * n + 1 + 1 from rfl, List.range_succ, List.range_succ, List.range_succ, List.foldl_append, List.foldl_append,
      List.foldl_append, ih]
    simp only [List.foldl_cons, List.foldl_nil, putOwnSector, h0, h1]
    rw [show 32 * (2 * n) = 64 * n by omega, show 32 * (2 * n + 1) = 64 * n + 32 by omega]

section
variable {s t : State} {a n : Nat} {bs : Bytes} {psn : Nat} (ht : MemOnly s t)
include ht

theorem putGranules_memOnly : MemOnly s (putGranules a bs n psn t) := by
  rw [putGranules_eq]
  exact foldl_invariant (I := MemOnly s) (fun _ _ _ hu => hu.andPut ..) ht

theorem putGranules_byteAt_other {x : Nat} (hx : ∀ q < 2 * n, x < locOf s (sectorAt a q) ∨ locOf s (sectorAt a q) + 32 ≤ x) :
    (putGranules a bs n psn t).byteAt x = t.byteAt x := by
  rw [putGranules_eq]
  refine (foldl_invariant (I := fun u : State => MemOnly s u ∧ u.byteAt x = t.byteAt x) (fun u q hq hu => ⟨hu.1.andPut .., ?_⟩) ⟨ht, rfl⟩).2
  show (putSector (locOf u (sectorAt a q)) _ _ u).byteAt x = _
  rw [hu.1.locOf, putSector_byteAt_other _ _ _ _ (hx q (List.mem_range.1 hq)), hu.2]

variable (ha : a % 32 = 0)
include ha

theorem putOwnSector_stored_other {l q : Nat} (hl : l % 32 = 0) (hne : l ≠ locOf s (sectorAt a q)) :
    stored (putOwnSector a bs psn t q) l = stored t l := by
  rw [putOwnSector, ht.locOf, stored_putSector_other hl (locOf_mod s (by simp only [sectorAt]; omega)) hne]

theorem putGranules_stored_other {l : Nat} (hl : l % 32 = 0) (hne : ∀ q < 2 * n, l ≠ locOf s (sectorAt a q)) :
    stored (putGranules a bs n psn t) l = stored t l := by
  rw [putGranules_eq]
  refine (foldl_invariant (I := fun u : State => MemOnly s u ∧ stored u l = stored t l) (fun u q hq hu => ⟨hu.1.andPut .., ?_⟩) ⟨ht, rfl⟩).2
  rw [putOwnSector_stored_other hu.1 ha hl (hne q (List.mem_range.1 hq)), hu.2]

theorem putGranules_holds {q : Nat} (hq : q < 2 * n)
    (hne : ∀ i < 2 * n, i ≠ q → locOf s (sectorAt a q) ≠ locOf s (sectorAt a i)) :
    HoldsSector (locOf s (sectorAt a q)) (slice bs (32 * q) 32) (bitOf psn q) (putGranules a bs n psn t) := by
  have hl : locOf s (sectorAt a q) % 32 = 0 := locOf_mod s (by simp only [sectorAt]; omega)
  rw [putGranules_eq]
  refine (foldl_at (J := MemOnly s)
    (Q := fun u => MemOnly s u ∧ HoldsSector (locOf s (sectorAt a q)) (slice bs (32 * q) 32) (bitOf psn q) u) List.nodup_range
    (List.mem_range.2 hq) (fun u i _ _ hu => hu.andPut ..) (fun u hu => ⟨hu.andPut .., ?_⟩) (fun u i hi hiq hu => ⟨hu.1.andPut .., ?_⟩) ht).2
  · rw [← hu.locOf]
    exact HoldsSector.put (length_slice ..) ..
  · exact hu.2.of_stored (putOwnSector_stored_other hu.1 ha hl (hne i (List.mem_range.1 hi) hiq))

end

/-- A byte of a lane, where own granules hold lanes of `c` bytes each. -/
theorem byteAt_of_holds {s t : State} {a c n : Nat} {p : Nat → Bool} {g : Nat → Nat} (hc : c = 2 ∨ c = 4) (hn : c * 128 = 64 * n)
    (ha : a % 64 = 0)
    (h : ∀ q < 2 * n, HoldsSector (locOf s (sectorAt a q)) (slice ((List.range 128).flatMap fun j => natLe c (g j)) (32 * q) 32) (p q) t)
    {j i : Nat} (hj : j < 128) (hi : i < c) :
    t.byteAt (locOf s (a + 512 * (c * j / 64) + c * j % 64 + i)) = some (BitVec.ofNat 8 (g j / 256 ^ i)) := by
  have hm : (c * j + i) % 32 < 32 := Nat.mod_lt _ (by decide)
  have hq : (c * j + i) / 32 < 2 * n := by obtain rfl | rfl := hc <;> omega
  rw [← ownByte_lane hc hi, locOf_ownByte s ha, (cells_eq_some_iff.1 (h _ hq).1).2 _ hm]
  refine getElem?_slice hm ?_
  rw [Nat.div_add_mod]
  exact getElem?_flatMap_natLe (by omega) hj hi g

/-! Commands that write own granules: STS and STX. -/

/-- A command that writes `n` own granules of each unit: the bytes `B` and the poison `P`, both of the unit's own registers. -/
structure GranuleWrites (w n : Nat) (f : CmdRes → Nat → CmdRes) (B : State → Nat → Bytes) (P : State → Nat → Nat) : Prop where
  state (c : CmdRes) (v : Nat) : (f c v).s = putGranules (ownAddr c.run.list w v) (B c.s v) n (P c.s v) c.s
  list (c : CmdRes) (v : Nat) : (f c v).run.list = c.run.list
  status (c : CmdRes) (v : Nat) : (f c v).run.status = c.run.status
  fail (c : CmdRes) (v : Nat) : (f c v).fail = c.fail
  bytes {s t : State} (v : Nat) (h : MemOnly s t) : B t v = B s v
  poison {s t : State} (v : Nat) (h : MemOnly s t) : P t v = P s v

/-- What such a command keeps of its list and of the state, unit by unit. -/
structure Writing (s : State) (r : PltRun) (c : CmdRes) : Prop where
  list : c.run.list = r.list
  status : c.run.status = r.status
  fail : c.fail = 0
  state : MemOnly s c.s

section
variable {w n : Nat} {f : CmdRes → Nat → CmdRes} {B : State → Nat → Bytes} {P : State → Nat → Nat} (hf : GranuleWrites w n f B P)
include hf

theorem GranuleWrites.step {s : State} {r : PltRun} {c : CmdRes} (hc : Writing s r c) (v : Nat) :
    (f c v).s = putGranules (ownAddr r.list w v) (B s v) n (P s v) c.s ∧ Writing s r (f c v) := by
  have hstate : (f c v).s = putGranules (ownAddr r.list w v) (B s v) n (P s v) c.s := by
    rw [hf.state, hc.list, hf.bytes v hc.state, hf.poison v hc.state]
  exact ⟨hstate, ⟨(hf.list c v).trans hc.list, (hf.status c v).trans hc.status, (hf.fail c v).trans hc.fail,
    hstate ▸ putGranules_memOnly hc.state⟩⟩

variable {s : State} {r : PltRun}

theorem GranuleWrites.writing : Writing s r (r.list.units.foldl f { s := s, run := r }) :=
  foldl_invariant (I := Writing s r) (fun _ v _ hc => (hf.step hc v).2) ⟨rfl, rfl, rfl, rfl⟩

theorem GranuleWrites.byteAt_other {x : Nat}
    (hx : ∀ v ∈ r.list.units, ∀ b ∈ granuleSectors (ownAddr r.list w v) n, x < locOf s b ∨ locOf s b + 32 ≤ x) :
    (r.list.units.foldl f { s := s, run := r }).s.byteAt x = s.byteAt x := by
  refine (foldl_invariant (I := fun c => Writing s r c ∧ c.s.byteAt x = s.byteAt x) (fun c v hv hc => ?_) ⟨⟨rfl, rfl, rfl, rfl⟩, rfl⟩).2
  obtain ⟨hstate, hwriting⟩ := hf.step hc.1 v
  refine ⟨hwriting, ?_⟩
  rw [hstate, putGranules_byteAt_other hc.1.state fun q hq => hx v hv _ (sectorAt_mem hq), hc.2]

/-- Each unit's own granules hold its bytes and its poison: no other unit's lie there. -/
theorem GranuleWrites.holds {k : Nat} (hn : n = 4 ∨ n = 8) (hown : ∀ v ∈ r.list.units, ownOk k r.list w v = true)
    (hrow : ∀ v ∈ r.list.units, OwnRow n (ownAddr r.list w v)) {v q : Nat} (hv : v ∈ r.list.units) (hq : q < 2 * n) :
    HoldsSector (locOf s (sectorAt (ownAddr r.list w v) q)) (slice (B s v) (32 * q) 32) (bitOf (P s v) q)
      (r.list.units.foldl f { s := s, run := r }).s := by
  have h32 : ∀ x ∈ r.list.units, ownAddr r.list w x % 32 = 0 := fun x hx => by have := (hrow x hx).1; omega
  have hl : locOf s (sectorAt (ownAddr r.list w v) q) % 32 = 0 :=
    locOf_mod s (by have := h32 v hv; simp only [sectorAt]; omega)
  have hunit : ∀ x ∈ r.list.units, offPc (ownAddr r.list w x) = x := fun x hx => (of_decide_eq_true (hown x hx)).2.1
  refine (foldl_at (J := Writing s r) (Q := fun c => Writing s r c ∧
      HoldsSector (locOf s (sectorAt (ownAddr r.list w v) q)) (slice (B s v) (32 * q) 32) (bitOf (P s v) q) c.s) (units_nodup _) hv
    (fun c x _ _ hc => (hf.step hc x).2) (fun c hc => ?_) (fun c x hx hxv hc => ?_) ⟨rfl, rfl, rfl, rfl⟩).2
  · obtain ⟨hstate, hwriting⟩ := hf.step hc v
    refine ⟨hwriting, ?_⟩
    rw [hstate]
    exact putGranules_holds hc.state (h32 v hv) hq fun i hi hiq he => hiq (sectorLoc_inj hn (hrow v hv) (hrow v hv) hq hi he).2.symm
  · obtain ⟨hstate, hwriting⟩ := hf.step hc.1 x
    refine ⟨hwriting, hc.2.of_stored ?_⟩
    rw [hstate]
    refine putGranules_stored_other hc.1.state (h32 x hx) hl fun i hi he => hxv ?_
    rw [← hunit x hx, ← hunit v hv, (sectorLoc_inj hn (hrow v hv) (hrow x hx) hq hi he).1]

end

/-- A command that writes own granules goes on, and leaves in each unit's its bytes and its poison, and every other byte. -/
theorem GranuleWrites.done {s : State} {k u op w low n : Nat} {r : PltRun} {g : Nat → CmdRes → Nat → CmdRes} {B : State → Nat → Bytes}
    {P : State → Nat → Nat} (hf : GranuleWrites w n (g w) B P) (hn : n = 4 ∨ n = 8) (hpow : 2 ^ low = n) (h : NextCmd s k u op r w)
    (hr : Reachable s k r w) (hlow : bits (cmdAddr w) 9 low = 0) (hown : ∀ v ∈ r.list.units, ownOk k r.list w v = true) :
    ∃ t r', stepList op k u (fun w r s => onUnits k low w (g w) r s) s = t ∧ WentOn t k u r r' ∧
      (∀ v ∈ r.list.units, ownAddr r.list w v % 64 = 0 ∧ ∀ q < 2 * n,
        HoldsSector (locOf s (sectorAt (ownAddr r.list w v) q)) (slice (B s v) (32 * q) 32) (bitOf (P s v) q) t) ∧
      (∀ x, (∀ v ∈ r.list.units, ∀ b ∈ granuleSectors (ownAddr r.list w v) n, x < locOf s b ∨ locOf s b + 32 ≤ x) →
        t.byteAt x = s.byteAt x) ∧
      { t with plt.runs := s.plt.runs, mem := s.mem, chk := s.chk, psn := s.psn } = s := by
  have hrow : ∀ v ∈ r.list.units, OwnRow n (ownAddr r.list w v) := fun v hv => hpow ▸ ownRow_of_ownOk hlow (hown v hv)
  have hwriting := hf.writing (s := s) (r := r)
  have hholds {v q : Nat} (hv : v ∈ r.list.units) (hq : q < 2 * n) := hf.holds hn (s := s) hown hrow hv hq
  have hother {x : Nat} := hf.byteAt_other (s := s) (r := r) (x := x)
  generalize hc : r.list.units.foldl (g w) { s := s, run := r } = c at hwriting hholds hother
  refine ⟨_, _, stepList_onUnits h hr hlow hown hc hwriting.fail, ⟨pltRun?_setRun .., rfl, rfl, hwriting.status⟩, fun v hv => ⟨(hrow v hv).1,
    fun q hq => (hholds hv hq).of_stored (stored_of_arrays rfl rfl rfl _)⟩, fun x hx => hother hx, ?_⟩
  exact congrArg (fun x : State => { x with plt.runs := s.plt.runs }) hwriting.state

/-- The bytes that STS and STX write for a unit. -/
def stsBytes (k w : Nat) (s : State) (v : Nat) : Bytes := (List.range 128).flatMap fun j => natLe 2 (sortLane s (64 * k + v) (cmdRs w) j)
def stxBytes (k w : Nat) (s : State) (v : Nat) : Bytes := (List.range 128).flatMap fun j =>
  natLe 4 (stxWord (KMap.get 0 s.plt.f32 ((64 * k + v) * 4 + cmdRs w % 4)) (accLane s (64 * k + v) (cmdRs w % 4) j))

section
variable {s t : State} (h : t.plt = s.plt)
include h

theorem stsBytes_congr (k w v : Nat) : stsBytes k w t v = stsBytes k w s v := by
  unfold stsBytes sortLane
  rw [h]

theorem stxBytes_congr (k w v : Nat) : stxBytes k w t v = stxBytes k w s v := by
  unfold stxBytes accLane
  rw [h]

theorem sortPoison_congr (un so : Nat) : sortPoison t un so = sortPoison s un so := by rw [sortPoison, h, sortPoison]

theorem accPoison_congr (un x : Nat) : accPoison t un x = accPoison s un x := by rw [accPoison, h, accPoison]

end

/-- The poison marks of the sectors that STS and STX write for a unit: one, or two, for each group of 16 lanes. -/
def stsMarks (k w : Nat) (s : State) (v : Nat) : Nat := sortPoison s (64 * k + v) (cmdRs w)
def stxMarks (k w : Nat) (s : State) (v : Nat) : Nat := maskBits 16 fun i => bitOf (accPoison s (64 * k + v) (cmdRs w % 4)) (i / 2)

theorem stsOn_writes (k w : Nat) : GranuleWrites w 4 (stsOn k w) (stsBytes k w) (stsMarks k w) where
  state _ _ := rfl
  list _ _ := rfl
  status _ _ := rfl
  fail _ _ := by simp only [stsOn]
  bytes v h := stsBytes_congr (MemOnly.plt h) k w v
  poison _ h := sortPoison_congr (MemOnly.plt h) _ _

theorem stxOn_writes (k w : Nat) : GranuleWrites w 8 (stxOn k w) (stxBytes k w) (stxMarks k w) where
  state _ _ := rfl
  list _ _ := rfl
  status _ _ := rfl
  fail _ _ := by simp only [stxOn]
  bytes v h := stxBytes_congr (MemOnly.plt h) k w v
  poison _ h := by rw [stxMarks, accPoison_congr (MemOnly.plt h), stxMarks]

/-! Commands that read own granules: LDS. -/

/-- `t` differs from `s` in the sorts of platen units alone. -/
abbrev SortsOnly (s t : State) : Prop := { t with plt.sorts := s.plt.sorts, plt.undef := s.plt.undef, plt.spsn := s.plt.spsn } = s

/-- The bytes of a sector that reads clean. -/
def sectorBytes (s : State) (b : Nat) : Bytes := (cells s (locOf s b)).getD []

theorem cells_sectorBytes {s : State} {b : Nat} (h : CleanSector s b) : cells s (locOf s b) = some (sectorBytes s b) := by
  obtain ⟨-, d, hd, -⟩ := h
  rw [sectorBytes, hd, Option.getD_some]

theorem readSector_clean {s : State} {b : Nat} (h : CleanSector s b) : readSector s b = (.data (sectorBytes s b), s) := by
  have hcells := cells_sectorBytes h
  obtain ⟨hrec, d, hd, hp, hclean⟩ := h
  have hds : sectorBytes s b = d := by rw [sectorBytes, hd, Option.getD_some]
  rw [readSector, hrec, hds]
  exact readAt_clean hd hp hclean

theorem readCover_granule {s : State} {a : Nat} (ha : a % 64 = 0) (h0 : CleanSector s a) (h1 : CleanSector s (a + 32)) (part : Nat) :
    readCover part a 64 s = ([some (sectorBytes s a), some (sectorBytes s (a + 32))], s) := by
  have hn : (a + 64 + 31) / 32 - a / 32 = 2 := by omega
  have hb : a - a % 32 = a := by omega
  rw [readCover, hn, hb]
  simp only [readMarks, readSector_clean h0, readSector_clean h1, countRead, SectorRead.bytes]

theorem ownGranules_clean {s : State} {a n : Nat} (ha : a % 64 = 0) (h : ∀ q < 2 * n, CleanSector s (sectorAt a q)) (part : Nat) :
    ownGranules part a n s = ((List.range (2 * n)).map fun q => some (sectorBytes s (sectorAt a q)), s) := by
  induction n generalizing a with
  | zero => rfl
  | succ n ih =>
    have h0 : CleanSector s a := h 0 (by omega)
    have h1 : CleanSector s (a + 32) := h 1 (by omega)
    have hshift (q : Nat) : sectorAt a (q + 2) = sectorAt (a + 512) q := by simp only [sectorAt]; omega
    have hrest := ih (a := a + 512) (by omega) fun q hq => by rw [← hshift]; exact h _ (by omega)
    rw [ownGranules, readCover_granule ha h0 h1]
    dsimp only
    rw [hrest, show 2 * (n + 1) = 2 * n + 1 + 1 from rfl, List.range_succ_eq_map, List.range_succ_eq_map]
    simp only [List.map_cons, List.map_map, Function.comp_def, Nat.succ_eq_add_one, Nat.add_assoc, Nat.reduceAdd, hshift]
    rfl

section
variable {s t : State} (h : SortsOnly s t)
include h

theorem SortsOnly.andPut (un so : Nat) (lanes : List Nat) (psn : Nat) : SortsOnly s (putSort un so lanes psn t) := h

theorem SortsOnly.clean {b : Nat} (hb : CleanSector s b) : CleanSector t b := by
  rw [← h] at hb
  exact hb

theorem SortsOnly.sectorBytes (b : Nat) : sectorBytes t b = Machine.sectorBytes s b := by
  have e : Machine.sectorBytes { t with plt.sorts := s.plt.sorts, plt.undef := s.plt.undef, plt.spsn := s.plt.spsn } b =
    Machine.sectorBytes s b := by rw [h]
  exact e

end

/-- The bytes of `n` own granules that read clean. -/
def ownBytes (s : State) (a n : Nat) : Bytes := (List.range (2 * n)).flatMap fun q => sectorBytes s (sectorAt a q)

/-- The granules that LDS reads of a unit, and the lanes that their bytes make. -/
def ldsCount (w : Nat) : Nat := if bitOf (cmdFlags w) 0 then 2 else 4
def lanesOf (w : Nat) (bs : Bytes) : List Nat := if bitOf (cmdFlags w) 0 then lanes8 bs else lanes16 bs

theorem getElem?_ownBytes {s : State} {a n m : Nat} (ha : a % 64 = 0) (h : ∀ q < 2 * n, CleanSector s (sectorAt a q)) (hm : m < 64 * n) :
    ∃ x, (ownBytes s a n)[m]? = some x ∧ s.byteAt (locOf s (a + 512 * (m / 64) + m % 64)) = some x := by
  have hq : m / 32 < 2 * n := by omega
  have hi : m % 32 < 32 := Nat.mod_lt _ (by decide)
  have hcells (q : Nat) (hq : q < 2 * n) := cells_eq_some_iff.1 (cells_sectorBytes (h q hq))
  obtain ⟨hlen, hbytes⟩ := hcells (m / 32) hq
  have hget : (ownBytes s a n)[m]? = (sectorBytes s (sectorAt a (m / 32)))[m % 32]? := by
    rw [ownBytes, getElem?_flatMap_blocks (by decide) _ fun q hq => (hcells q (List.mem_range.1 hq)).1, List.getElem?_range hq]
    rfl
  rw [hget, locOf_ownByte s ha, hbytes _ hi, List.getElem?_eq_getElem (by omega)]
  exact ⟨_, rfl, rfl⟩

theorem ldsOn_clean {k w v : Nat} {c : CmdRes} (ha : ownAddr c.run.list w v % 64 = 0)
    (h : ∀ q < 2 * ldsCount w, CleanSector c.s (sectorAt (ownAddr c.run.list w v) q)) : ldsOn k w c v =
      { c with s := putSort (64 * k + v) (cmdRd w) (lanesOf w (ownBytes c.s (ownAddr c.run.list w v) (ldsCount w))) 0 c.s } := by
  have hread := ownGranules_clean ha h c.run.list.part
  have hbytes : ((((List.range (2 * ldsCount w)).map fun q => some (sectorBytes c.s (sectorAt (ownAddr c.run.list w v) q))).map
      fun d => d.getD []).flatMap fun d => slice d 0 32) = ownBytes c.s (ownAddr c.run.list w v) (ldsCount w) := by
    rw [List.map_map, List.flatMap_map, ownBytes]
    refine List.flatMap_congr fun q hq => ?_
    exact slice_self (length_of_cells (cells_sectorBytes (h q (List.mem_range.1 hq))))
  have hmask : (maskBits 8 fun i => (((List.range (2 * ldsCount w)).map fun q =>
      some (sectorBytes c.s (sectorAt (ownAddr c.run.list w v) q))).getD (if bitOf (cmdFlags w) 0 then i / 2 else i) none).isNone) = 0 := by
    refine maskBits_eq_zero fun i hi => ?_
    have hlt : (if bitOf (cmdFlags w) 0 then i / 2 else i) < 2 * ldsCount w := by
      unfold ldsCount
      split <;> omega
    rw [List.getD_eq_getElem?_getD, List.getElem?_map, List.getElem?_range hlt]
    rfl
  unfold ldsOn
  dsimp only
  rw [show (if bitOf (cmdFlags w) 0 then 2 else 4) = ldsCount w from rfl, hread]
  dsimp only
  rw [hbytes, hmask, if_pos rfl]
  rfl

/-- A sort of a unit holds lanes, none poisoned. -/
abbrev HoldsSort (un so : Nat) (lanes : List Nat) (t : State) : Prop :=
  sortPoison t un so = 0 ∧ ∀ j < 128, sortLane t un so j = lanes.getD j 0 % 65536

theorem HoldsSort.put (un so : Nat) (lanes : List Nat) (s : State) : HoldsSort un so lanes (putSort un so lanes 0 s) :=
  ⟨sortPoison_putSort_self .., fun _ hj => sortLane_putSort_self _ _ _ _ _ hj⟩

theorem HoldsSort.put_other {un un' so psn : Nat} {lanes lanes' : List Nat} {s : State} (hne : un' ≠ un) (h : HoldsSort un' so lanes' s) :
    HoldsSort un' so lanes' (putSort un so lanes psn s) := by
  have hkey : un' * 16 + so ≠ un * 16 + so := by omega
  exact ⟨(sortPoison_putSort_other hkey ..).trans h.1, fun j hj => (sortLane_putSort_other hkey _ _ _ hj).trans (h.2 j hj)⟩

section
variable {s : State} {k w : Nat} {r : PltRun} (ha : ∀ v ∈ r.list.units, ownAddr r.list w v % 64 = 0)
  (hclean : ∀ v ∈ r.list.units, ∀ q < 2 * ldsCount w, CleanSector s (sectorAt (ownAddr r.list w v) q))
include ha hclean

/-- What LDS keeps of its list and of the state, unit by unit. -/
abbrev Loading (s : State) (r : PltRun) (c : CmdRes) : Prop := c.run = r ∧ c.fail = 0 ∧ SortsOnly s c.s

theorem ldsOn_loading {c : CmdRes} (hc : Loading s r c) {v : Nat} (hv : v ∈ r.list.units) : Loading s r (ldsOn k w c v) ∧
    (ldsOn k w c v).s =
      putSort (64 * k + v) (cmdRd w) (lanesOf w (ownBytes s (ownAddr r.list w v) (ldsCount w))) 0 c.s := by
  obtain ⟨hrun, hfail, hsorts⟩ := hc
  have hbytes : ownBytes c.s (ownAddr r.list w v) (ldsCount w) = ownBytes s (ownAddr r.list w v) (ldsCount w) := by
    simp only [ownBytes, hsorts.sectorBytes]
  have hstep : ldsOn k w c v = _ := ldsOn_clean (by rw [hrun]; exact ha v hv) fun q hq => by
    rw [hrun]
    exact hsorts.clean (hclean v hv q hq)
  rw [hrun, hbytes] at hstep
  rw [hstep]
  exact ⟨⟨rfl, hfail, hsorts.andPut ..⟩, rfl⟩

theorem ldsOn_all : Loading s r (r.list.units.foldl (ldsOn k w) { s := s, run := r }) :=
  foldl_invariant (I := Loading s r) (fun _ _ hv hc => (ldsOn_loading ha hclean hc hv).1) ⟨rfl, rfl, rfl⟩

theorem ldsOn_all_holds {v : Nat} (hv : v ∈ r.list.units) :
    HoldsSort (64 * k + v) (cmdRd w) (lanesOf w (ownBytes s (ownAddr r.list w v) (ldsCount w)))
      (r.list.units.foldl (ldsOn k w) { s := s, run := r }).s := by
  refine (foldl_at (J := Loading s r) (Q := fun c => Loading s r c ∧
      HoldsSort (64 * k + v) (cmdRd w) (lanesOf w (ownBytes s (ownAddr r.list w v) (ldsCount w))) c.s) (units_nodup _) hv
    (fun c u hu _ hc => (ldsOn_loading ha hclean hc hu).1) (fun c hc => ?_) (fun c u hu hne hc => ?_) ⟨rfl, rfl, rfl⟩).2
  · obtain ⟨hload, hstate⟩ := ldsOn_loading (k := k) ha hclean hc hv
    exact ⟨hload, hstate ▸ HoldsSort.put ..⟩
  · obtain ⟨hload, hstate⟩ := ldsOn_loading (k := k) ha hclean hc.1 hu
    exact ⟨hload, hstate ▸ hc.2.put_other (by omega)⟩

end

/-- A lane that LDS or PUTS loads from its bytes: 16 bits as they are, or 8 sign-extended. -/
theorem lanesOf_whole {w : Nat} (h : bitOf (cmdFlags w) 0 = false) {bs : Bytes} {j : Nat} (hj : j < 128) :
    (lanesOf w bs).getD j 0 % 65536 = leAt bs (2 * j) 2 := by
  rw [lanesOf, h, if_neg Bool.false_ne_true, lanes16, getD_map_range hj]
  exact Nat.mod_eq_of_lt (leAt_lt bs _ 2)

theorem lanesOf_half {w : Nat} (h : bitOf (cmdFlags w) 0 = true) {bs : Bytes} {j : Nat} (hj : j < 128) :
    (lanesOf w bs).getD j 0 % 65536 = ofInt 16 (sInt 8 (leAt bs j 1)) := by
  rw [lanesOf, if_pos h, lanes8, getD_map_range hj]
  exact Nat.mod_eq_of_lt (ofInt_lt 16 _)

/-- Lane `j` as PUTS takes it from the stream. -/
theorem lanesOf_stream {w j : Nat} (hj : j < 128) (bs : Bytes) :
    (lanesOf w (bs.take (if bitOf (cmdFlags w) 0 then 128 else 256))).getD j 0 % 65536 =
      if bitOf (cmdFlags w) 0 then ofInt 16 (sInt 8 (leAt bs j 1)) else leAt bs (2 * j) 2 := by
  cases hhalf : bitOf (cmdFlags w) 0 with
  | false =>
    rw [lanesOf_whole hhalf hj]
    exact leAt_take (by simp only [Bool.false_eq_true, if_false]; omega)
  | true =>
    rw [lanesOf_half hhalf hj, leAt_take (by simp only [if_true]; omega)]
    rfl

/-- The bytes that make lane `j` as LDS loads it. -/
theorem lanesOf_ownBytes {s : State} {a w j : Nat} (ha : a % 64 = 0) (h : ∀ q < 2 * ldsCount w, CleanSector s (sectorAt a q)) (hj : j < 128) :
    ∃ x y, s.byteAt (locOf s (a + 512 * ((if bitOf (cmdFlags w) 0 then j else 2 * j) / 64) + (if bitOf (cmdFlags w) 0 then j else 2 * j) % 64)) = some x ∧
      (bitOf (cmdFlags w) 0 = false → s.byteAt (locOf s (a + 512 * (2 * j / 64) + 2 * j % 64 + 1)) = some y) ∧
      (lanesOf w (ownBytes s a (ldsCount w))).getD j 0 % 65536 =
        if bitOf (cmdFlags w) 0 then ofInt 16 (sInt 8 x.toNat) else x.toNat + 256 * y.toNat := by
  cases hhalf : bitOf (cmdFlags w) 0 with
  | false =>
    have hcount : ldsCount w = 4 := by rw [ldsCount, hhalf]; rfl
    obtain ⟨x, hx, hbx⟩ := getElem?_ownBytes ha h (m := 2 * j) (by omega)
    obtain ⟨y, hy, hby⟩ := getElem?_ownBytes ha h (m := 2 * j + 1) (by omega)
    rw [ownByte_lane (.inl rfl) (by decide)] at hby
    refine ⟨x, y, hbx, fun _ => hby, ?_⟩
    rw [lanesOf_whole hhalf hj, leAt_two hx hy]
    rfl
  | true =>
    have hcount : ldsCount w = 2 := by rw [ldsCount, hhalf]; rfl
    obtain ⟨x, hx, hbx⟩ := getElem?_ownBytes ha h (m := j) (by omega)
    refine ⟨x, 0, hbx, fun hf => Bool.noConfusion hf, ?_⟩
    rw [lanesOf_half hhalf hj, leAt_one hx]
    rfl

/-! PUTS, XCLR and VMAC. -/

/-- The units' sorts after PUTS. -/
def putsAll (k w : Nat) (us : List Nat) (bs : Bytes) (s : State) : State :=
  us.foldl (fun s v => putSort (64 * k + v) (cmdRd w) (lanesOf w bs) 0 s) s

theorem putsAll_sortsOnly (k w : Nat) (us : List Nat) (bs : Bytes) (s : State) : SortsOnly s (putsAll k w us bs s) := by
  unfold putsAll
  exact foldl_invariant (I := SortsOnly s) (fun _ _ _ ht => ht.andPut ..) rfl

theorem putsAll_holds {us : List Nat} (hus : us.Nodup) {v : Nat} (hv : v ∈ us) (k w : Nat) (bs : Bytes) (s : State) :
    HoldsSort (64 * k + v) (cmdRd w) (lanesOf w bs) (putsAll k w us bs s) :=
  foldl_at (J := fun _ => True) (Q := HoldsSort (64 * k + v) (cmdRd w) (lanesOf w bs)) hus hv (fun _ _ _ _ _ => trivial)
    (fun _ _ => HoldsSort.put ..) (fun _ _ _ hne ht => ht.put_other (by omega)) trivial

/-- `t` differs from `s` in the accumulators of platen units alone. -/
abbrev PltAccsOnly (s t : State) : Prop := { t with plt.accs := s.plt.accs, plt.f32 := s.plt.f32, plt.apsn := s.plt.apsn } = s

theorem PltAccsOnly.andPut {s t : State} (h : PltAccsOnly s t) (un x : Nat) (lanes : List Nat) (mode psn : Nat) :
    PltAccsOnly s (putAcc un x lanes mode psn t) := h

/-- The accumulators after XCLR. -/
def clearUnit (k w : Nat) (s : State) (v : Nat) : State := (bitList (cmdFlags w) 4).foldl (fun s x => putAcc (64 * k + v) x [] 0 0 s) s
def clearAll (k w : Nat) (us : List Nat) (s : State) : State := us.foldl (clearUnit k w) s

/-- An accumulator that is zero, none of it poisoned. -/
abbrev Cleared (n x : Nat) (t : State) : Prop := accPoison t n x = 0 ∧ ∀ j < 128, accLane t n x j = 0

theorem Cleared.put_self (n x : Nat) (s : State) : Cleared n x (putAcc n x [] 0 0 s) :=
  ⟨accPoison_putAcc_self .., fun _ hj => (accLane_putAcc_self _ _ _ _ _ _ hj).trans rfl⟩

theorem Cleared.put {n x : Nat} {s : State} (h : Cleared n x s) (n' x' : Nat) : Cleared n x (putAcc n' x' [] 0 0 s) := by
  by_cases hkey : n * 4 + x = n' * 4 + x'
  · have hpoison : accPoison (putAcc n' x' [] 0 0 s) n x = accPoison (putAcc n' x' [] 0 0 s) n' x' := by rw [accPoison, accPoison, hkey]
    have hlane (j : Nat) : accLane (putAcc n' x' [] 0 0 s) n x j = accLane (putAcc n' x' [] 0 0 s) n' x' j := by rw [accLane, accLane, hkey]
    have hself := Cleared.put_self n' x' s
    exact ⟨hpoison.trans hself.1, fun j hj => (hlane j).trans (hself.2 j hj)⟩
  · exact ⟨(accPoison_putAcc_other hkey ..).trans h.1, fun j hj => (accLane_putAcc_other hkey _ _ _ _ hj).trans (h.2 j hj)⟩

theorem clearAll_accsOnly (k w : Nat) (us : List Nat) (s : State) : PltAccsOnly s (clearAll k w us s) := by
  unfold clearAll
  exact foldl_invariant (I := PltAccsOnly s) (fun _ _ _ ht => foldl_invariant (I := PltAccsOnly s) (fun _ _ _ hu => hu.andPut ..) ht) rfl

theorem clearAll_cleared {k w v x : Nat} {us : List Nat} (hus : us.Nodup) (hv : v ∈ us) (hx : x < 4) (hflag : bitOf (cmdFlags w) x = true)
    (s : State) : Cleared (64 * k + v) x (clearAll k w us s) := by
  have hmem : x ∈ bitList (cmdFlags w) 4 := List.mem_filter.2 ⟨List.mem_range.2 hx, hflag⟩
  refine foldl_at (J := fun _ => True) (Q := Cleared (64 * k + v) x) hus hv (fun _ _ _ _ _ => trivial) (fun t _ => ?_)
    (fun t u _ _ ht => foldl_invariant (I := Cleared (64 * k + v) x) (fun _ _ _ hu => hu.put ..) ht) trivial
  exact foldl_at (J := fun _ => True) (Q := Cleared (64 * k + v) x) (List.nodup_range.filter _) hmem (fun _ _ _ _ _ => trivial)
    (fun _ _ => Cleared.put_self ..) (fun _ _ _ _ hu => hu.put ..) trivial

theorem clearAll_other {k w n x : Nat} {us : List Nat} (hx : x < 4)
    (h : ¬ ((∃ v ∈ us, n = 64 * k + v) ∧ bitOf (cmdFlags w) x = true)) {j : Nat} (hj : j < 128) (s : State) :
    accLane (clearAll k w us s) n x j = accLane s n x j := by
  refine foldl_invariant (I := fun t => accLane t n x j = accLane s n x j) (fun t v hv ht => ?_) rfl
  refine foldl_invariant (I := fun t => accLane t n x j = accLane s n x j) (fun u y hy hu => ?_) ht
  obtain ⟨hy4, hflag⟩ := List.mem_filter.1 hy
  have hy4 := List.mem_range.1 hy4
  refine (accLane_putAcc_other (fun hkey => h ?_) _ _ _ _ hj).trans hu
  obtain ⟨hn, hxy⟩ : n = 64 * k + v ∧ x = y := by omega
  exact ⟨⟨v, hv, hn⟩, hxy ▸ hflag⟩

/-- `t` differs from `s` in accumulators and armed mismatches alone. -/
abbrev VmacOnly (s t : State) : Prop :=
  { t with plt.accs := s.plt.accs, plt.f32 := s.plt.f32, plt.apsn := s.plt.apsn, plt.inject := s.plt.inject } = s

/-- Without an armed mismatch no residue check fails (R88). -/
theorem residues_none {s : State} {k : Nat} {r : PltRun} (h : NoMismatch s k r) :
    ∃ t, residues k 0 r s = ([], r, t) ∧ t.plt.accs = s.plt.accs ∧ t.plt.apsn = s.plt.apsn ∧ VmacOnly s t := by
  have hall : (residues k 0 r s).1 = [] ∧ (residues k 0 r s).2.1 = r ∧ ((residues k 0 r s).2.2.plt.accs = s.plt.accs ∧
      (residues k 0 r s).2.2.plt.apsn = s.plt.apsn ∧ VmacOnly s (residues k 0 r s).2.2) ∧ NoMismatch (residues k 0 r s).2.2 k r := by
    unfold residues
    refine foldl_invariant (I := fun a : List Nat × PltRun × State => a.1 = [] ∧ a.2.1 = r ∧
      (a.2.2.plt.accs = s.plt.accs ∧ a.2.2.plt.apsn = s.plt.apsn ∧ VmacOnly s a.2.2) ∧ NoMismatch a.2.2 k r) ?_ ⟨rfl, rfl, ⟨rfl, rfl, rfl⟩, h⟩
    rintro ⟨bad, r', t⟩ v hv ⟨rfl, rfl, hkept, hnone⟩
    have hstep : residue k v 0 r' t = (false, r', { t with plt.inject := KMap.put 0 t.plt.inject (64 * k + v) 0 }) := by
      simp only [residue, hnone v hv, Nat.add_zero, if_true]
    simp only [ite_self, hstep, Bool.false_eq_true, if_false]
    refine ⟨trivial, trivial, hkept, fun u hu => ?_⟩
    show KMap.get 0 (KMap.put 0 t.plt.inject (64 * k + v) 0) (64 * k + u) = 0
    by_cases hkey : 64 * k + u = 64 * k + v
    · rw [hkey, KMap.get_put_self]
    · rw [KMap.get_put_other 0 0 _ _ hkey, hnone u hu]
  obtain ⟨hbad, hrun, ⟨haccs, hapsn, hframe⟩, -⟩ := hall
  exact ⟨(residues k 0 r s).2.2, Prod.ext hbad (Prod.ext hrun rfl), haccs, hapsn, hframe⟩

section
variable {s t : State} (h : VmacOnly s t)
include h

theorem VmacOnly.andPut (un x : Nat) (lanes : List Nat) (mode psn : Nat) : VmacOnly s (putAcc un x lanes mode psn t) := h

theorem VmacOnly.sortPoison (un so : Nat) : sortPoison t un so = Machine.sortPoison s un so := by
  have e : Machine.sortPoison { t with plt.accs := s.plt.accs, plt.f32 := s.plt.f32, plt.apsn := s.plt.apsn, plt.inject := s.plt.inject } un so =
    Machine.sortPoison s un so := by rw [h]
  exact e

theorem VmacOnly.sortLane (un so j : Nat) : sortLane t un so j = Machine.sortLane s un so j := by
  have e : Machine.sortLane { t with plt.accs := s.plt.accs, plt.f32 := s.plt.f32, plt.apsn := s.plt.apsn, plt.inject := s.plt.inject } un so j =
    Machine.sortLane s un so j := by rw [h]
  exact e

end

/-- The sum that VMAC leaves in an accumulator of a unit, and its poison. -/
abbrev Summed (s : State) (k w v : Nat) (t : State) : Prop :=
  accPoison t (64 * k + v) (cmdRd w % 4) =
    (accPoison s (64 * k + v) (cmdRd w % 4) ||| sortPoison s (64 * k + v) (cmdRs w) ||| sortPoison s (64 * k + v) (cmdArg w % 16)) ∧
  ∀ j < 128, accLane t (64 * k + v) (cmdRd w % 4) j = vmacLane (accLane s (64 * k + v) (cmdRd w % 4) j)
    (sortLane s (64 * k + v) (cmdRs w) j) (sortLane s (64 * k + v) (cmdArg w % 16) j)

/-- An accumulator as it was. -/
abbrev AccKept (s : State) (n x : Nat) (t : State) : Prop := accPoison t n x = accPoison s n x ∧ ∀ j < 128, accLane t n x j = accLane s n x j

theorem vmacOn_sums {s t : State} {k w v : Nat} (h : VmacOnly s t) (hacc : AccKept s (64 * k + v) (cmdRd w % 4) t) :
    Summed s k w v (vmacOn k w [] t v) := by
  refine ⟨?_, fun j hj => ?_⟩
  · rw [vmacOn, accPoison_putAcc_self, hacc.1, h.sortPoison, h.sortPoison]
    rfl
  · rw [vmacOn, accLane_putAcc_self _ _ _ _ _ _ hj, getD_map_range hj, hacc.2 j hj, h.sortLane, h.sortLane]
    exact Nat.mod_eq_of_lt (ofInt_lt 48 _)

theorem vmacOn_other {k w u v : Nat} (hne : u ≠ v) (t : State) : AccKept t (64 * k + v) (cmdRd w % 4) (vmacOn k w [] t u) := by
  have hkey : (64 * k + v) * 4 + cmdRd w % 4 ≠ (64 * k + u) * 4 + cmdRd w % 4 := by omega
  exact ⟨accPoison_putAcc_other hkey .., fun _ hj => accLane_putAcc_other hkey _ _ _ _ hj⟩

theorem vmacOn_only {s t : State} (h : VmacOnly s t) (k w v : Nat) : VmacOnly s (vmacOn k w [] t v) := h.andPut ..

theorem vmacAll_only {s t : State} (h : VmacOnly s t) (k w : Nat) (us : List Nat) : VmacOnly s (us.foldl (vmacOn k w []) t) :=
  foldl_invariant (I := VmacOnly s) (fun _ v _ hu => vmacOn_only hu k w v) h

theorem vmacAll_sums {s t : State} {k w v : Nat} {us : List Nat} (hus : us.Nodup) (hv : v ∈ us) (h : VmacOnly s t)
    (hacc : AccKept s (64 * k + v) (cmdRd w % 4) t) : Summed s k w v (us.foldl (vmacOn k w []) t) := by
  refine foldl_at (f := vmacOn k w []) (J := fun t => VmacOnly s t ∧ AccKept s (64 * k + v) (cmdRd w % 4) t) (Q := Summed s k w v) hus hv
    (fun u x _ hne hu => ⟨vmacOn_only hu.1 k w x, ?_⟩) (fun u hu => vmacOn_sums hu.1 hu.2) (fun u x _ hne hu => ?_) ⟨h, hacc⟩
  · have hkept := vmacOn_other (k := k) (w := w) hne u
    exact ⟨hkept.1.trans hu.2.1, fun j hj => (hkept.2 j hj).trans (hu.2.2 j hj)⟩
  · have hkept := vmacOn_other (k := k) (w := w) hne u
    exact ⟨hkept.1.trans hu.1, fun j hj => (hkept.2 j hj).trans (hu.2 j hj)⟩

/-! FENCE (R93, R109). -/

theorem LinesOnly.trans {s t u : State} (h : LinesOnly s t) (g : LinesOnly t u) : LinesOnly s u :=
  (congrArg (fun x : State => { x with regs := s.regs, gal.lines := s.gal.lines }) g).trans h

/-- Invalidating the lines of what a list wrote changes lines, and their count alone. -/
theorem flushWrote_frame (r : PltRun) (s : State) : LinesOnly s (flushWrote r s).2 ∧ SameRegs s (flushWrote r s).2 accessKeys := by
  unfold flushWrote
  exact foldl_invariant (I := fun t => LinesOnly s t ∧ SameRegs s t accessKeys) (fun t a _ ht =>
    ⟨ht.1.trans (galInvalidate_frame a t).1, ht.2.andThen (galInvalidate_frame a t).2⟩) ⟨rfl, .refl s _⟩

end Sys2Proof.Machine

open Sys2Proof Sys2Proof.Machine

/-- Settles O15: each command by the equation of its list's next step, and what it leaves in sorts, accumulators and granules by a loop
over the list's units, which lie apart. -/
theorem platenVectorCommandsCompute : Obligations.PlatenVectorCommandsCompute := by
  unfold Obligations.PlatenVectorCommandsCompute
  refine ⟨fun s k u r w h => ?_, fun s k u r w h hr hlow hown => ?_, fun s k u r w h hr hlow hown => ?_, fun s k u r w h hlen => ?_,
    fun s k u r w h => ?_, fun s k u r w h hr hlow hown => ?_, fun s k u r w h hnone => ?_, fun s k u r w hk h => ?_,
    fun s k u r w op c hc h => ⟨fun hr hbad => ?_, fun hshut => ?_⟩⟩
  · exact ⟨_, congrArg Host.Outcome.next (stepList_untouched h rfl (c := { s := s, run := r }) rfl rfl), pltRun?_setRun .., rfl⟩
  · have ha : ∀ v ∈ r.list.units, ownAddr r.list w v % 64 = 0 := fun v hv => (ownRow_of_ownOk hlow (hown v hv).1).1
    have hclean : ∀ v ∈ r.list.units, ∀ q < 2 * ldsCount w, CleanSector s (sectorAt (ownAddr r.list w v) q) :=
      fun v hv q hq => (hown v hv).2 _ (sectorAt_mem hq)
    obtain ⟨hrun, hfail, hsorts⟩ := ldsOn_all (k := k) ha hclean
    have hholds {v : Nat} (hv : v ∈ r.list.units) := ldsOn_all_holds (k := k) ha hclean hv
    generalize hc : r.list.units.foldl (ldsOn k w) { s := s, run := r } = c at hrun hfail hsorts hholds
    refine ⟨_, congrArg Host.Outcome.next (stepList_onUnits h hr hlow (fun v hv => (hown v hv).1) hc hfail), ?_, fun v hv => ?_, ?_⟩
    · rw [hrun]
      exact pltRun?_setRun ..
    · obtain ⟨hpoison, hlanes⟩ := hholds hv
      refine ⟨hpoison, fun j hj => ?_⟩
      obtain ⟨x, y, hx, hy, hlane⟩ := lanesOf_ownBytes (ha v hv) (hclean v hv) hj
      exact ⟨x, y, hx, hy, (hlanes j hj).trans hlane⟩
    · exact congrArg (fun x : State => { x with plt.runs := s.plt.runs }) hsorts
  · obtain ⟨t, r', hstep, hwent, hholds, hother, hframe⟩ := (stsOn_writes k w).done (.inl rfl) rfl h hr hlow hown
    refine ⟨t, r', congrArg Host.Outcome.next hstep, hwent, fun v hv j hj => ?_, fun v hv i hi => ((hholds v hv).2 i (by omega)).2, hother, hframe⟩
    obtain ⟨ha, hsectors⟩ := hholds v hv
    have hbyte {i : Nat} (hi : i < 2) := byteAt_of_holds (.inl rfl) (by decide) ha hsectors hj hi
    exact ⟨by simpa using hbyte (i := 0) (by decide), by simpa using hbyte (i := 1) (by decide)⟩
  · have hlong : ¬ (r.list.stream.take (if bitOf (cmdFlags w) 0 then 128 else 256)).length < if bitOf (cmdFlags w) 0 then 128 else 256 := by
      rw [List.length_take, Nat.min_eq_left hlen]
      exact Nat.lt_irrefl _
    have hsorts := putsAll_sortsOnly k w r.list.units (r.list.stream.take (if bitOf (cmdFlags w) 0 then 128 else 256)) s
    refine ⟨_, congrArg Host.Outcome.next (stepList_untouched h rfl (if_neg hlong) rfl), pltRun?_setRun .., fun v hv => ?_, ?_⟩
    · obtain ⟨hpoison, hlanes⟩ :=
        putsAll_holds (units_nodup _) hv k w (r.list.stream.take (if bitOf (cmdFlags w) 0 then 128 else 256)) s
      exact ⟨hpoison, fun j hj => (hlanes j hj).trans (lanesOf_stream hj _)⟩
    · exact congrArg (fun x : State => { x with plt.runs := s.plt.runs }) hsorts
  · have hflag := clearAll_accsOnly k w r.list.units s
    refine ⟨_, congrArg Host.Outcome.next (stepList_untouched h rfl (c := { s := clearAll k w r.list.units s, run := r }) rfl rfl),
      pltRun?_setRun .., fun v hv x hx hf => clearAll_cleared (units_nodup _) hv hx hf s,
      fun n x hx j hj => clearAll_other hx.1 hx.2 hj s, ?_⟩
    exact congrArg (fun x : State => { x with plt.runs := s.plt.runs }) hflag
  · obtain ⟨t, r', hstep, hwent, hholds, hother, hframe⟩ := (stxOn_writes k w).done (.inr rfl) rfl h hr hlow hown
    refine ⟨t, r', congrArg Host.Outcome.next hstep, hwent, fun v hv j hj i hi => ?_, fun v hv i hi => ?_, hother, hframe⟩
    · obtain ⟨ha, hsectors⟩ := hholds v hv
      exact byteAt_of_holds (.inr rfl) (by decide) ha hsectors hj hi
    · exact ((hholds v hv).2 i (by omega)).2.trans (bitOf_maskBits _ hi)
  · obtain ⟨t, hres, haccs, hapsn, honly⟩ := residues_none hnone
    have hkept (v : Nat) : AccKept s (64 * k + v) (cmdRd w % 4) t :=
      ⟨by rw [accPoison, hapsn, accPoison], fun j _ => by rw [accLane, haccs, accLane]⟩
    have hsums {v : Nat} (hv : v ∈ r.list.units) := vmacAll_sums (units_nodup _) hv honly (hkept v)
    have hall := vmacAll_only honly k w r.list.units
    refine ⟨_, congrArg Host.Outcome.next (stepList_untouched h rfl
      (c := { s := r.list.units.foldl (vmacOn k w []) t, run := r }) (by rw [hres]; rfl) rfl), pltRun?_setRun .., fun v hv => hsums hv, ?_⟩
    exact congrArg (fun x : State => { x with plt.runs := s.plt.runs }) hall
  · obtain ⟨hlines, hregs⟩ := flushWrote_frame r s
    have hcount : (flushWrote r s).2.rd (PLT_CNT.COUNT 6) k = s.rd (PLT_CNT.COUNT 6) k := hregs.rd_base (by decide) (by omega)
    refine ⟨_, congrArg Host.Outcome.next (stepList_untouched h rfl
      (c := { s := (flushWrote r s).2.bump (PLT_CNT.COUNT 6) k, run := { r with wrote := [] } }) rfl rfl), pltRun?_setRun .., ?_, hlines.mem, ?_⟩
    · rw [rd_setRun, rd_bump_self, hcount]
      rfl
    · exact congrArg (fun x : State => { x with plt.runs := s.plt.runs }) hlines
  · obtain ⟨rfl, rfl⟩ | ⟨rfl, rfl⟩ | ⟨rfl, rfl⟩ := hc
    · exact ⟨_, congrArg Host.Outcome.next (stepList_notOwn h hr hbad), pltRun?_setRun .., rfl⟩
    · exact ⟨_, congrArg Host.Outcome.next (stepList_notOwn h hr hbad), pltRun?_setRun .., rfl⟩
    · exact ⟨_, congrArg Host.Outcome.next (stepList_notOwn h hr hbad), pltRun?_setRun .., rfl⟩
  · obtain ⟨rfl, rfl⟩ | ⟨rfl, rfl⟩ | ⟨rfl, rfl⟩ := hc
    · exact ⟨_, congrArg Host.Outcome.next (stepList_shut h rfl hshut), pltRun?_setRun .., rfl⟩
    · exact ⟨_, congrArg Host.Outcome.next (stepList_shut h rfl hshut), pltRun?_setRun .., rfl⟩
    · exact ⟨_, congrArg Host.Outcome.next (stepList_shut h rfl hshut), pltRun?_setRun .., rfl⟩
end

section
/-!
PROOFS. The press commands of a gang (R84–R88, R97): what their reads of an extent change, what the chase leaves undefined, the scores and
sums that they stream and accumulate, and the residue check of VMAC.
-/
namespace Sys2Proof.Machine

/-! What reads of the arrays change (Table 3.3). -/

/-- `t` differs from `s` as reads make it: counts, logs and reports, and free values. -/
abbrev ReadOnly (s t : State) : Prop := { t with regs := s.regs, freeIx := s.freeIx, ras.handlers := s.ras.handlers } = s

/-- `t` is `s` after reads of the arrays. -/
structure AfterReads (s t : State) : Prop where
  frame : ReadOnly s t
  regs : SameRegs s t accessKeys

section
variable {s t u : State}

theorem AfterReads.refl (s : State) : AfterReads s s := ⟨rfl, .refl s _⟩

theorem AfterReads.trans (h : AfterReads s t) (g : AfterReads t u) : AfterReads s u :=
  ⟨(congrArg (fun x : State => { x with regs := s.regs, freeIx := s.freeIx, ras.handlers := s.ras.handlers }) g.frame).trans h.frame,
    h.regs.andThen g.regs⟩

theorem HandsOnly.readOnly (h : HandsOnly s t) : ReadOnly s t := congrArg (fun x : State => { x with freeIx := s.freeIx }) h

section
variable (h : AfterReads s t)
include h

theorem AfterReads.mem : t.mem = s.mem := by
  have e : { t with regs := s.regs, freeIx := s.freeIx, ras.handlers := s.ras.handlers }.mem = s.mem := by rw [h.frame]
  exact e

theorem AfterReads.now : t.now = s.now := by
  have e : { t with regs := s.regs, freeIx := s.freeIx, ras.handlers := s.ras.handlers }.now = s.now := by rw [h.frame]
  exact e

theorem AfterReads.plt : t.plt = s.plt := by
  have e : { t with regs := s.regs, freeIx := s.freeIx, ras.handlers := s.ras.handlers }.plt = s.plt := by rw [h.frame]
  exact e

end

end

theorem readAt_after (s : State) (loc : Nat) : AfterReads s (readAt s loc).2 := by
  rcases readAt_state s loc with h | h <;> rw [h] <;> exact ⟨rfl, .refl s _⟩

theorem readSector_after (s : State) (base : Nat) : AfterReads s (readSector s base).2 := by
  unfold readSector
  split
  · exact .refl s
  · exact readAt_after ..

theorem countRead_after (kind part base : Nat) (r : SectorRead) (s : State) :
    AfterReads s (countRead (offStack base) kind part base r s) := by
  obtain ⟨hframe, hregs⟩ := countRead_frame (offStack_lt base) kind part base r s
  exact ⟨hframe.readOnly, hregs⟩

theorem readMarks_after (n part base : Nat) (s : State) : AfterReads s (readMarks n part base s).2 := by
  induction n generalizing base s with
  | zero => exact .refl s
  | succ n ih => exact ((readSector_after s base).trans (countRead_after ..)).trans (ih ..)

theorem readArray_after {part off len : Nat} {s t : State} {d : Option Bytes} (h : readArray part off len s = (d, t)) : AfterReads s t := by
  obtain rfl : (readArray part off len s).2 = t := congrArg Prod.snd h
  exact readMarks_after ..

theorem pressRead_after (part off len : Nat) (s : State) : AfterReads s (pressRead part off len s).2 := readMarks_after ..

theorem pressPlane_after {part base elemOff scaleOff fmt d lo n : Nat} {s t : State} {x : Bytes × Bytes × List Nat}
    (h : pressPlane part base elemOff scaleOff fmt d lo n s = (x, t)) : AfterReads s t := by
  obtain rfl : (pressPlane part base elemOff scaleOff fmt d lo n s).2 = t := congrArg Prod.snd h
  exact (pressRead_after ..).trans (pressRead_after ..)

/-! A command of a gang, and the sorts that its chase leaves undefined (R85). -/

/-- `t` differs from `s` in the sorts that are undefined, and in the free values that they hold. -/
abbrev ChaseOnly (s t : State) : Prop := { t with plt.spsn := s.plt.spsn, plt.undef := s.plt.undef, freeIx := s.freeIx } = s

theorem ChaseOnly.andSpoil {s t : State} (h : ChaseOnly s t) (unit sort : Nat) : ChaseOnly s (spoilSort unit sort t) := h

theorem spoilChase_frame (k set : Nat) (s : State) : ChaseOnly s (spoilChase k set s) := by
  unfold spoilChase
  generalize List.range 8 = l
  exact foldl_invariant (I := ChaseOnly s) (fun _ _ _ ht => ((ht.andSpoil ..).andSpoil ..).andSpoil ..) rfl

/-- What the chase leaves of a gang command's state. -/
structure Chased (s t : State) : Prop where
  regs : t.regs = s.regs
  mem : t.mem = s.mem
  holds : t.plt.holds = s.plt.holds
  parms : t.plt.parms = s.plt.parms
  accs : t.plt.accs = s.plt.accs

theorem ChaseOnly.chased {s t : State} (h : ChaseOnly s t) : Chased s t := by
  have e {α : Type} (p : State → α) : p { t with plt.spsn := s.plt.spsn, plt.undef := s.plt.undef, freeIx := s.freeIx } = p s := by rw [h]
  exact ⟨e (·.regs), e (·.mem), e (·.plt.holds), e (·.plt.parms), e (·.plt.accs)⟩

theorem spoilChase_chased (k set : Nat) (s : State) : Chased s (spoilChase k set s) := (spoilChase_frame k set s).chased

/-- The state after a gang command: the chase's sorts are undefined, and the list has gone on. -/
abbrev gangDone (k u set : Nat) (r : PltRun) (s : State) : State := (spoilChase k set s).setRun (64 * k + u) r

section
variable {s t : State} (h : Chased s t) (key : Nat) (r : PltRun)
include h

theorem Chased.rd (f : Fld) (i : Nat) : (t.setRun key r).rd f i = s.rd f i := (rd_setRun ..).trans (rd_congr h.regs f i)

theorem Chased.pltHold (g : Nat) : pltHold (t.setRun key r) g = Machine.pltHold s g := by
  rw [Machine.pltHold, Machine.pltHold, ← h.holds]
  rfl

theorem Chased.accLane (un x j : Nat) : accLane (t.setRun key r) un x j = Machine.accLane s un x j := by
  rw [Machine.accLane, Machine.accLane, ← h.accs]
  rfl

end

section
variable (k u set : Nat) (r : PltRun) (s : State)

theorem gangDone_mem : (gangDone k u set r s).mem = s.mem := (spoilChase_chased k set s).mem

theorem gangDone_rd (f : Fld) (i : Nat) : (gangDone k u set r s).rd f i = s.rd f i := (spoilChase_chased k set s).rd _ _ f i

theorem gangDone_pltHold (g : Nat) : pltHold (gangDone k u set r s) g = pltHold s g := (spoilChase_chased k set s).pltHold _ _ g

theorem gangDone_accLane (un x j : Nat) : accLane (gangDone k u set r s) un x j = accLane s un x j :=
  (spoilChase_chased k set s).accLane _ _ un x j

theorem gangDone_parms : (gangDone k u set r s).plt.parms = s.plt.parms := (spoilChase_chased k set s).parms

end

section
variable {s : State} {k u op w : Nat} {r : PltRun} {f : Nat → PltRun → State → CmdRes} (h : NextCmd s k u op r w)
  (hwait : cmdWaits s r.list w = false) (hopen : opTouches op = false ∨ stackShut s k = false)
include h hwait hopen

/-- A command that fails. -/
theorem stepList_failed {c : CmdRes} (hf : f w r s = c) (hc : c.fail ≠ 0) : stepList op k u f s =
    c.s.setRun (64 * k + u) { c.run with status := c.fail, cmdIndex := r.pos, ended := true } := by
  obtain ⟨hrun, hword, hended, hsusp, hop⟩ := h
  have hserved : ¬ (opTouches op = true ∧ stackShut s k = true) := by
    rintro ⟨h1, h2⟩
    simp [h1, h2] at hopen
  simp [stepList, hrun, hword, hended, hsusp, hop, hwait, hserved, hf, hc]

/-- A gang command that succeeds. -/
theorem stepList_chased {c : CmdRes} (hf : f w r s = c) (hc : c.fail = 0) : stepList op k u (chased k f) s =
    gangDone k u r.list.target { c.run with pos := r.pos + 1, ended := decide (r.list.words.length ≤ r.pos + 1) } c.s := by
  have hchased : chased k f w r s = { c with s := spoilChase k r.list.target c.s } := by rw [chased, hf]
  rw [stepList_done h hwait hopen hchased hc]

/-- A gang command that fails, in the state that its checks and reads have left. -/
theorem stepList_chased_fails {t : State} {x : Nat} (hf : f w r s = { s := t, run := r, fail := x }) (hx : x ≠ 0) :
    stepList op k u (chased k f) s = gangDone k u r.list.target (r.failed x) t := by
  have hchased : chased k f w r s = { s := spoilChase k r.list.target t, run := r, fail := x } := by rw [chased, hf]
  rw [stepList_failed h hwait hopen hchased hx]
  rfl

end

/-- A list that a command has taken one further. -/
theorem wentOn_gangDone {k u set : Nat} {r r' : PltRun} {s : State} (h : r'.status = r.status) :
    WentOn (gangDone k u set { r' with pos := r.pos + 1, ended := decide (r.list.words.length ≤ r.pos + 1) } s) k u r
      { r' with pos := r.pos + 1, ended := decide (r.list.words.length ≤ r.pos + 1) } :=
  ⟨pltRun?_setRun .., rfl, rfl, h⟩

/-! PARM. -/

section
variable {k w : Nat} {r : PltRun} {s : State}

/-- The state once PARM has set a gang's geometry. -/
abbrev parmSet (k w set : Nat) (s : State) : State := { s with plt.parms := KMap.put 0 s.plt.parms (8 * k + set) w }

theorem parmCmd_formed (h : parmOk w = true) : parm k w r s = { s := parmSet k w r.list.target s, run := r } := if_pos h

theorem parmCmd_malformed (h : parmOk w = false) : parm k w r s = { s := s, run := r, fail := ST.PLT_LIST_FORMAT } := by
  rw [parm, h, if_neg Bool.false_ne_true]

end

/-! The stream of words out of a list. -/

section
variable (r : PltRun) {ws : List (Nat × Bool)}

theorem stream_outs : (r.stream ws).outs = r.outs ++ ws.flatMap fun w => natLe 4 w.1 := rfl

/-- Words none of which is poisoned. -/
theorem stream_clean (h : ∀ w ∈ ws, w.2 = false) : (r.stream ws).outsBad = r.outsBad ∧ (r.stream ws).poison = r.poison := by
  have hnone : (ws.zipIdx.filter fun w : (Nat × Bool) × Nat => w.1.2) = [] := by
    refine List.filter_eq_nil_iff.2 fun w hw => ?_
    rw [h w.1 (List.fst_mem_of_mem_zipIdx hw)]
    exact Bool.false_ne_true
  have hany : ws.any (·.2) = false := List.any_eq_false.2 fun w hw => by rw [h w hw]; exact Bool.false_ne_true
  constructor
  · rw [PltRun.stream, hnone, List.map_nil, List.append_nil]
  · rw [PltRun.stream, hany, Bool.or_false]

end

/-! PSCORE (R86). -/

section
variable {s t : State} (h : t.plt = s.plt)
include h

theorem sortLane_congr (un so j : Nat) : sortLane t un so j = sortLane s un so j := by rw [sortLane, h, sortLane]

theorem NoMismatch.of_plt {k : Nat} {r : PltRun} (hnone : NoMismatch s k r) : NoMismatch t k r := fun v hv => by rw [h, hnone v hv]

end

theorem score_congr {s t : State} (h : ∀ un so j, sortLane t un so j = sortLane s un so j) (k set : Nat) (g : Geo) (key ks : Bytes) (h' p : Nat) :
    score t k set g key ks h' p = score s k set g key ks h' p := by
  simp only [score, h]

/-- The bytes of the scores of a pass, position by position. -/
theorem scores_bytes (s : State) (k set : Nat) (g : Geo) (key ks : Bytes) (bad : Nat → Nat → Bool) (lo hi n np : Nat) :
    ((scores s k set g key ks bad lo hi n np).flatMap fun w => natLe 4 w.1) =
      ((List.range hi).drop lo).flatMap fun p => (List.range np).flatMap fun h' =>
        natLe 4 (if n ≤ p then minusInf32 else score s k set g key ks h' p) := by
  rw [scores, List.flatMap_assoc]
  refine List.flatMap_congr fun p _ => ?_
  rw [List.flatMap_map]
  refine List.flatMap_congr fun h' _ => ?_
  split <;> rfl

theorem scores_clean {s : State} {k set : Nat} {g : Geo} {key ks : Bytes} {bad : Nat → Nat → Bool} {lo hi n np : Nat}
    (h : ∀ h' < np, ∀ p, bad h' p = false) : ∀ w ∈ scores s k set g key ks bad lo hi n np, w.2 = false := by
  intro w hw
  obtain ⟨p, -, hw⟩ := List.mem_flatMap.1 hw
  obtain ⟨h', hh, rfl⟩ := List.mem_map.1 hw
  split
  · rfl
  · exact h h' (List.mem_range.1 hh) p

/-- The sorts of a head's queries lie below sort 12, which holds the query scales (Table 4.7). -/
theorem querySort_lt {g : Geo} {h' i : Nat} (hh : h' < scorePass g) (hi : i < sortsPerHead g) : h' * sortsPerHead g + i < 12 := by
  unfold scorePass at hh
  unfold sortsPerHead at hi ⊢
  split at hh
  next hd => rw [if_pos hd] at hi ⊢; omega
  next hd => rw [if_neg hd] at hi ⊢; omega

theorem queryBad_clean {s : State} {k c h' : Nat} {g : Geo} (hh : h' < scorePass g)
    (h : ∀ rank < 8, ∀ x < 13, sortPoison s (64 * k + 8 * c + rank) x = 0) : queryBad s k c g h' = false := by
  refine List.any_eq_false.2 fun rank hr => ?_
  have hzero := h rank (List.mem_range.1 hr)
  have hqueries : ((List.range (sortsPerHead g)).any fun i => sortPoison s (64 * k + 8 * c + rank) (h' * sortsPerHead g + i) != 0) = false := by
    refine List.any_eq_false.2 fun i hi => ?_
    have hlt := querySort_lt hh (List.mem_range.1 hi)
    simp [hzero _ (show h' * sortsPerHead g + i < 13 by omega)]
  simp [hzero 12 (by decide), hqueries]

/-- The heads that a pass takes of a gang's: from the first that its command names, at most `most`. -/
abbrev passHeads (most pw w : Nat) : Nat := min most (parmH pw + 1 - cmdArg w % 32)

/-- The state in which a gang holds the scores of a pass for the issuer of a list (R97). -/
abbrev scoreHeld (k w pw n : Nat) (l : PltList) (s : State) : State :=
  s.setHold (8 * k + l.target) { held := true, issuer := l.issuer, part := l.part, n := n, since := s.now, hFirst := cmdArg w % 32,
                                 nPass := passHeads (scorePass (parmGeo pw)) pw w }

/-- The words of a pass of scores where no sector that it reads is poisoned and no residue check fails. -/
abbrev passScores (k w pw n set : Nat) (key ks : Bytes) (s : State) : List (Nat × Bool) :=
  scores s k set (parmGeo pw) key ks (fun h' _ => queryBad s k set (parmGeo pw) h') (parmLo pw) (parmHi pw) n
    (passHeads (scorePass (parmGeo pw)) pw w)

theorem planeBad_nil (base elemOff scaleOff fmt d p : Nat) : planeBad [] base elemOff scaleOff fmt d p = false := rfl

section
variable {s s₁ : State} {k w : Nat} {r : PltRun} {hb : Bytes} (href : pscoreRefusal s k w r.list = 0)
  (hread : readArray r.list.part (cmdAddr w) 64 s = (some hb, s₁))
include href hread

/-- The scores of an open solid folio, where no sector is poisoned and no residue check fails. -/
theorem pscore_scores {s₂ s₃ : State} {key ks : Bytes} {pw n : Nat} (hpw : KMap.get 0 s.plt.parms (8 * k + r.list.target) = pw)
    (hn : min (parmHi pw) (Hdr.ofBytes hb).fill = n) (hk : (Hdr.ofBytes hb).kerned = false) (hs : (Hdr.ofBytes hb).sealed = false)
    (hplane : pressPlane r.list.part (cmdAddr w) bodyOff (bodyOff + (parmGeo pw).keyScaleOff) (parmGeo pw).kf (parmGeo pw).d (parmLo pw) n s₁ =
      ((key, ks, []), s₂)) (hres : residues k 0 r s₂ = ([], r, s₃)) :
    pscore k 0 w r s = { s := scoreHeld k w pw n r.list s₃, run := r.stream (passScores k w pw n r.list.target key ks s₃) } := by
  have hnone (l : List Nat) : (l.any fun _ => false) = false := List.any_eq_false.2 fun _ _ => Bool.false_ne_true
  subst hpw hn
  simp [pscore, href, hread, hk, hs, hplane, hres, planeBad_nil, hnone]

/-- A kerned or sealed folio is not scored (R85). -/
theorem pscore_notOpen (h : (Hdr.ofBytes hb).kerned = true ∨ (Hdr.ofBytes hb).sealed = true) (mism : Nat) :
    pscore k mism w r s = { s := s₁.bump (PLT_CNT.COUNT 4) k, run := r, fail := ST.PLT_NOT_OPEN } := by
  simp only [pscore, href, hread, if_pos h]

end


/-! PWACC (R87). -/

theorem unitDims_pos (w : Nat) : 0 < unitDims (parmGeo w) := by
  have hd : 0 < (parmGeo w).d := Nat.mul_pos (by decide) (Nat.two_pow_pos _)
  unfold unitDims
  split <;> omega

/-- The lane that PWACC accumulates for a head and a dimension: the lowest dimension of its class that the unit holds is the lane's. -/
theorem pwUnit_sum {s : State} {w un rank lo n np h' i : Nat} {val vs ws : Bytes} {keep : Bool} (hh : h' < np) (hi : i < (parmGeo w).d)
    (hfirst : ∀ i' < i, i' % unitDims (parmGeo w) = i % unitDims (parmGeo w) → holdsDim (parmGeo w) rank i' = false)
    (hholds : holdsDim (parmGeo w) rank i = true) :
    pwUnit s (parmGeo w) un rank lo n np val vs ws keep (accPlace (parmGeo w) h' i / 128) (accPlace (parmGeo w) h' i % 128) =
      pwLane (parmGeo w) rank lo n np val vs ws h' i
        (if keep then accLane s un (accPlace (parmGeo w) h' i / 128) (accPlace (parmGeo w) h' i % 128) % 2 ^ 32 else posZero) := by
  have hpos := unitDims_pos w
  have hmod : i % unitDims (parmGeo w) < unitDims (parmGeo w) := Nat.mod_lt _ hpos
  have hplace : accPlace (parmGeo w) h' i / 128 * 128 + accPlace (parmGeo w) h' i % 128 = accPlace (parmGeo w) h' i := by omega
  have hhead : accPlace (parmGeo w) h' i / unitDims (parmGeo w) = h' := by
    rw [accPlace, Nat.mul_comm, Nat.mul_add_div hpos, Nat.div_eq_of_lt hmod, Nat.add_zero]
  have hclass : accPlace (parmGeo w) h' i % unitDims (parmGeo w) = i % unitDims (parmGeo w) := by
    rw [accPlace, Nat.mul_comm, Nat.mul_add_mod, Nat.mod_mod]
  have hdim : laneDim (parmGeo w) rank (accPlace (parmGeo w) h' i) = some i := by
    rw [laneDim, hclass, List.head?_filter, List.find?_range_eq_some]
    refine ⟨?_, List.mem_range.2 hi, fun j hj => ?_⟩
    · simp [hholds]
    · by_cases hj' : j % unitDims (parmGeo w) = i % unitDims (parmGeo w)
      · simp [hfirst j hj hj']
      · simp [hj']
  simp only [pwUnit, hplace, hdim, hhead, if_pos hh]

section
variable (k set pw lo n np : Nat) (val vs ws : Bytes) (keep : Bool)

/-- The new lanes of an accumulator of the unit of a rank (R87). -/
def pwLanes (s : State) (rank x : Nat) : List Nat :=
  (List.range 128).map fun j => pwUnit s (parmGeo pw) (64 * k + 8 * set + rank) rank lo n np val vs ws keep x j

/-- The poison that an accumulator keeps where no sector that is read is poisoned (R84). -/
def pwMark (s : State) (rank x : Nat) : Nat := if keep then accPoison s (64 * k + 8 * set + rank) x else 0

/-- The accumulators of the unit of a rank after PWACC. -/
def pwRank (s : State) (rank : Nat) : State :=
  (List.range 4).foldl (fun t x => putAcc (64 * k + 8 * set + rank) x
    (((List.range 4).map (pwLanes k set pw lo n np val vs ws keep s rank)).getD x []) 1
    (((List.range 4).map (pwMark k set keep s rank)).getD x 0) t) s

/-- The accumulators of a gang after PWACC. -/
def pwGang (s : State) : State := (List.range 8).foldl (pwRank k set pw lo n np val vs ws keep) s

theorem pwGang_accsOnly (s : State) : PltAccsOnly s (pwGang k set pw lo n np val vs ws keep s) := by
  unfold pwGang pwRank
  generalize List.range 8 = l8
  generalize List.range 4 = l4
  exact foldl_invariant (I := PltAccsOnly s) (fun _ _ _ ht => foldl_invariant (I := PltAccsOnly s) (fun _ _ _ hu => hu.andPut ..) ht) rfl

end

section
variable {k set pw lo n np : Nat} {val vs ws : Bytes} {keep : Bool}

variable {x j : Nat}

/-- What a lane becomes rests on what that lane held. -/
theorem pwUnit_congr {s t : State} {un rank : Nat} (h : accLane t un x j = accLane s un x j) :
    pwUnit t (parmGeo pw) un rank lo n np val vs ws keep x j = pwUnit s (parmGeo pw) un rank lo n np val vs ws keep x j := by
  simp only [pwUnit, h]

variable (hx : x < 4) (hj : j < 128)
include hx hj

theorem pwRank_lane (s : State) (rank : Nat) :
    accLane (pwRank k set pw lo n np val vs ws keep s rank) (64 * k + 8 * set + rank) x j =
      pwUnit s (parmGeo pw) (64 * k + 8 * set + rank) rank lo n np val vs ws keep x j % 2 ^ 48 := by
  have hlanes : ((List.range 4).map (pwLanes k set pw lo n np val vs ws keep s rank)).getD x [] =
      pwLanes k set pw lo n np val vs ws keep s rank x := by
    rw [List.getD_eq_getElem?_getD, List.getElem?_map, List.getElem?_range hx]
    rfl
  refine foldl_at (J := fun _ => True) (Q := fun t => accLane t (64 * k + 8 * set + rank) x j = _) List.nodup_range (List.mem_range.2 hx)
    (fun _ _ _ _ _ => trivial) (fun t _ => ?_) (fun t y _ hne ht => (accLane_putAcc_other (by omega) _ _ _ _ hj).trans ht) trivial
  rw [accLane_putAcc_self _ _ _ _ _ _ hj, hlanes]
  exact congrArg (· % 2 ^ 48) (getD_map_range hj _)

theorem pwRank_lane_other {rank rank' : Nat} (hne : rank ≠ rank') (s : State) :
    accLane (pwRank k set pw lo n np val vs ws keep s rank) (64 * k + 8 * set + rank') x j = accLane s (64 * k + 8 * set + rank') x j :=
  foldl_invariant (I := fun t => accLane t (64 * k + 8 * set + rank') x j = accLane s (64 * k + 8 * set + rank') x j)
    (fun _ y hy ht => (accLane_putAcc_other (by have := List.mem_range.1 hy; omega) _ _ _ _ hj).trans ht) rfl

/-- Each unit of the gang accumulates in its own lanes. -/
theorem pwGang_lane {rank : Nat} (hr : rank < 8) (s : State) :
    accLane (pwGang k set pw lo n np val vs ws keep s) (64 * k + 8 * set + rank) x j =
      pwUnit s (parmGeo pw) (64 * k + 8 * set + rank) rank lo n np val vs ws keep x j % 2 ^ 48 := by
  have hother {t : State} {rank' : Nat} (hne : rank' ≠ rank) :
      accLane (pwRank k set pw lo n np val vs ws keep t rank') (64 * k + 8 * set + rank) x j = accLane t (64 * k + 8 * set + rank) x j :=
    pwRank_lane_other hx hj hne t
  have hown {t : State} (ht : accLane t (64 * k + 8 * set + rank) x j = accLane s (64 * k + 8 * set + rank) x j) :
      accLane (pwRank k set pw lo n np val vs ws keep t rank) (64 * k + 8 * set + rank) x j =
        pwUnit s (parmGeo pw) (64 * k + 8 * set + rank) rank lo n np val vs ws keep x j % 2 ^ 48 := by
    rw [pwRank_lane hx hj, pwUnit_congr ht]
  exact foldl_at (f := pwRank k set pw lo n np val vs ws keep)
    (J := fun t => accLane t (64 * k + 8 * set + rank) x j = accLane s (64 * k + 8 * set + rank) x j)
    (Q := fun t => accLane t (64 * k + 8 * set + rank) x j =
      pwUnit s (parmGeo pw) (64 * k + 8 * set + rank) rank lo n np val vs ws keep x j % 2 ^ 48) List.nodup_range (List.mem_range.2 hr)
    (fun _ _ _ hne ht => (hother hne).trans ht) (fun _ ht => hown ht) (fun _ _ _ hne ht => (hother hne).trans ht) rfl

end

/-- A list whose stream a command has taken `n` bytes of. -/
abbrev PltRun.took (r : PltRun) (n : Nat) : PltRun := { r with list := { r.list with stream := r.list.stream.drop n } }

/-- The bytes of weights that a pass takes of a list's stream. -/
abbrev weightBytes (pw w : Nat) : Nat := 2 * passHeads (valuePass (parmGeo pw)) pw w * (parmHi pw - parmLo pw)

theorem pwPoison_nil (g : Geo) (base rank lo n np x : Nat) : pwPoison g base rank lo n np x [] = 0 := rfl

/-- PWACC under the issuer's hold, where no sector that it reads is poisoned and no residue check fails. -/
theorem pwacc_sums {s s₁ s₂ : State} {k w pw : Nat} {r : PltRun} {val vs : Bytes} {h : PltHold}
    (hpw : KMap.get 0 s.plt.parms (8 * k + r.list.target) = pw) (hh : pltHold s (8 * k + r.list.target) = h)
    (hext : extentOk k r.list.target (cmdAddr w) = true) (hheld : holdFault s k r.list.target r.list = 0) (hset : pw ≠ 0)
    (hfirst : cmdArg w % 32 ≤ parmH pw) (hlen : weightBytes pw w ≤ r.list.stream.length)
    (hplane : pressPlane r.list.part (cmdAddr w) (bodyOff + (parmGeo pw).valOff) (bodyOff + (parmGeo pw).valScaleOff) (parmGeo pw).vf
      (parmGeo pw).d (parmLo pw) h.n s = ((val, vs, []), s₁))
    (hres : residues k 0 (r.took (weightBytes pw w)) s₁ = ([], r.took (weightBytes pw w), s₂)) :
    pwacc k 0 w r s =
      { s := (pwGang k r.list.target pw (parmLo pw) h.n (passHeads (valuePass (parmGeo pw)) pw w) val vs
          (r.list.stream.take (weightBytes pw w)) (bitOf (cmdFlags w) 0) s₂).setHold (8 * k + r.list.target)
          { h with hFirst := cmdArg w % 32, nPass := passHeads (valuePass (parmGeo pw)) pw w }
        run := r.took (weightBytes pw w) } := by
  have hformed : ¬ (pw = 0 ∨ parmH pw < cmdArg w % 32 ∨ r.list.stream.length < weightBytes pw w) := by omega
  subst hpw hh
  simp only [pwacc, hext, hheld, if_neg hformed, hplane, hres, not_true_eq_false, ne_eq, if_false, List.contains_nil, Bool.false_eq_true,
    pwPoison_nil, Nat.or_zero, List.isEmpty_nil, Bool.not_true, Bool.or_false]
  rfl

/-! XOUT (R87). -/

/-- XOUT waits for no row. -/
theorem cmdWaits_xout {s : State} {k u w : Nat} {r : PltRun} (h : NextCmd s k u 0x0A r w) : cmdWaits s r.list w = false := by
  obtain ⟨-, -, -, -, hop⟩ := h
  simp [cmdWaits, cmdRanges, hop]

section
variable (s : State) (k c : Nat)

/-- The word that XOUT streams for a head and a dimension: the sum over the units that hold it, and whether it is poisoned. -/
def xoutWord (h' i : Nat) : Nat × Bool :=
  let g := parmGeo (KMap.get 0 s.plt.parms (8 * k + c))
  let ranks := (List.range 8).filter fun rank => holdsDim g rank i
  (orderedSum (ranks.map fun rank => accLane s (64 * k + 8 * c + rank) (accPlace g h' i / 128) (accPlace g h' i % 128) % 2 ^ 32),
   ranks.any fun rank => bitOf (accPoison s (64 * k + 8 * c + rank) (accPlace g h' i / 128)) (accPlace g h' i % 128 / 16))

/-- The words that XOUT streams. -/
def xoutWords : List (Nat × Bool) := (List.range (pltHold s (8 * k + c)).nPass).flatMap fun h' =>
  (List.range (parmGeo (KMap.get 0 s.plt.parms (8 * k + c))).d).map (xoutWord s k c h')

/-- The state after XOUT: the hold ends, or its timer starts anew. -/
def xoutHeld (w : Nat) : State :=
  if bitOf (cmdFlags w) 0 then s.setHold (8 * k + c) {} else s.setHold (8 * k + c) { pltHold s (8 * k + c) with since := s.now }

end

theorem xoutWords_bytes (s : State) (k c : Nat) : ((xoutWords s k c).flatMap fun w => natLe 4 w.1) =
    (List.range (pltHold s (8 * k + c)).nPass).flatMap fun h' =>
      (List.range (parmGeo (KMap.get 0 s.plt.parms (8 * k + c))).d).flatMap fun i => natLe 4 (xoutWord s k c h' i).1 := by
  rw [xoutWords, List.flatMap_assoc]
  exact List.flatMap_congr fun _ _ => List.flatMap_map ..

theorem xoutWords_clean {s : State} {k c : Nat} (h : ∀ rank x, accPoison s (64 * k + 8 * c + rank) x = 0) :
    ∀ w ∈ xoutWords s k c, w.2 = false := by
  intro w hw
  obtain ⟨h', -, hw⟩ := List.mem_flatMap.1 hw
  obtain ⟨i, -, rfl⟩ := List.mem_map.1 hw
  refine List.any_eq_false.2 fun rank _ => ?_
  rw [h, bitOf_eq_testBit, Nat.zero_testBit]
  exact Bool.false_ne_true

theorem pltHold_setHold (s : State) (g : Nat) (h : PltHold) : pltHold (s.setHold g h) g = h := by
  unfold State.setHold pltHold
  dsimp only
  split <;> exact KMap.get_put_self ..

theorem xoutHeld_held {s : State} {k c : Nat} (h : (pltHold s (8 * k + c)).held = true) (w : Nat) :
    (pltHold (xoutHeld s k c w) (8 * k + c)).held = !bitOf (cmdFlags w) 0 := by
  unfold xoutHeld
  split
  next hf => rw [pltHold_setHold, hf]; rfl
  next hf => rw [pltHold_setHold, Bool.eq_false_iff.2 hf]; exact h

theorem xoutHeld_mem (s : State) (k c w : Nat) : (xoutHeld s k c w).mem = s.mem := by
  unfold xoutHeld
  split <;> exact setHold_mem ..

section
variable {s : State} {k w : Nat} {r : PltRun}

theorem xout_held (hh : (pltHold s (8 * k + r.list.target)).held = true) (hi : (pltHold s (8 * k + r.list.target)).issuer = r.list.issuer) :
    xout k w r s = { s := xoutHeld s k r.list.target w, run := r.stream (xoutWords s k r.list.target) } :=
  if_neg (not_not_intro ⟨hh, hi⟩)

theorem xout_noHold (h : ¬ ((pltHold s (8 * k + r.list.target)).held = true ∧ (pltHold s (8 * k + r.list.target)).issuer = r.list.issuer))
    (hlost : (pltHold s (8 * k + r.list.target)).lost ≠ some r.list.issuer) :
    xout k w r s = { s := s, run := r, fail := ST.PLT_NO_HOLD } := by
  rw [xout, if_pos h, if_neg hlost]

end

/-! The residue check of VMAC (R88). -/

/-- The register fields that a report of a platen unit may write. -/
abbrev unitKeys (k : Nat) : List Nat := (PLT_CNT.COUNT 7).key k :: reportKeys

/-- A record at a platen unit's handler stays there, is lost there, or passes to its region's (R367–R369). -/
theorem report_platen_sameRegs {k : Nat} (hk : k < 8) (u : Nat) {r : ErrRec} (hsev : r.sev ≠ 3) (s : State) :
    SameRegs s (report (.platen k u) r s) (unitKeys k) := by
  have hup : SameRegs s (s.bump (RAS_CNT.COUNT 4)) reportKeys := (SameRegs.refl s _).andWr _ (by decide)
  unfold report enter
  simp only [hsev, if_false, false_and]
  split
  · exact .of_regs rfl _
  · split
    · exact (hup.andThen (enter_sameRegs 4 (.inr ⟨k / 2, by omega, rfl⟩) _ _)).mono (List.subset_cons_self ..)
    · split
      · exact (SameRegs.refl s _).andWr _ (List.mem_cons_self ..)
      · exact .of_regs rfl _

theorem unitKeys_apart : ∀ k < 8, ∀ n, n = 2 ∨ n = 3 → (PLT_CNT.COUNT n).base ∉ (unitKeys k).map (· / 2 ^ 20) := by
  rintro k hk n (rfl | rfl) <;> revert k <;> decide

theorem rd_report_platen {k n : Nat} (hk : k < 8) (hn : n = 2 ∨ n = 3) (u : Nat) {r : ErrRec} (hsev : r.sev ≠ 3) (s : State) :
    (report (.platen k u) r s).rd (PLT_CNT.COUNT n) k = s.rd (PLT_CNT.COUNT n) k :=
  (report_platen_sameRegs hk u hsev s).rd_base (unitKeys_apart k hk n hn) (by omega)

theorem HandsOnly.plt {s t : State} (h : HandsOnly s t) : t.plt = s.plt := by
  have e : { t with regs := s.regs, ras.handlers := s.ras.handlers }.plt = s.plt := by rw [h]
  exact e

/-- The armed mismatch of a unit is used up. -/
abbrev disarmed (k u : Nat) (s : State) : State := { s with plt.inject := KMap.put 0 s.plt.inject (64 * k + u) 0 }

section
variable {s : State} {k u mism : Nat} {r : PltRun}

theorem residue_none (h : mism + KMap.get 0 s.plt.inject (64 * k + u) = 0) : residue k u mism r s = (false, r, disarmed k u s) := by
  simp only [residue, h, if_true]

/-- The state once a mismatch of a unit has been counted, and corrected by the repetition. -/
abbrev repeated (k u : Nat) (r : PltRun) (s : State) : State :=
  corrected (.platen k u) 2 (64 * k + u) (some r.list.part) 1 0 ((disarmed k u s).bump (PLT_CNT.COUNT 2) k)

theorem residue_once (h : mism + KMap.get 0 s.plt.inject (64 * k + u) = 1) :
    residue k u mism r s = (false, { r with retried := true }, repeated k u r s) := by
  simp only [residue, h, Nat.one_ne_zero, if_false, if_true]

/-- The state once a second mismatch of a unit has been counted and reported. -/
abbrev mismatched (k u : Nat) (r : PltRun) (s : State) : State :=
  report (.platen k u) { sev := 2, subsys := 2, cause := Config.causeCode 3, unit := 64 * k + u, part := some r.list.part,
                         status := ST.PLT_RESIDUE, action := 2 } (((disarmed k u s).bump (PLT_CNT.COUNT 2) k).bump (PLT_CNT.COUNT 3) k)

theorem residue_twice (h : 2 ≤ mism + KMap.get 0 s.plt.inject (64 * k + u)) :
    residue k u mism r s = (true, { r with retried := true, poison := true }, mismatched k u r s) := by
  have h0 : ¬ mism + KMap.get 0 s.plt.inject (64 * k + u) = 0 := by omega
  have h1 : ¬ mism + KMap.get 0 s.plt.inject (64 * k + u) = 1 := by omega
  simp only [residue, if_neg h0, if_neg h1]

theorem repeated_plt : (repeated k u r s).plt = (disarmed k u s).plt := (HandsOnly.plt (report_frame ..)).trans rfl

theorem mismatched_plt : (mismatched k u r s).plt = (disarmed k u s).plt := (HandsOnly.plt (report_frame ..)).trans rfl

theorem rd_repeated (hk : k < 8) :
    (repeated k u r s).rd (PLT_CNT.COUNT 2) k = min (2 ^ 32 - 1) (s.rd (PLT_CNT.COUNT 2) k + 1) := by
  refine (rd_report_platen hk (.inl rfl) u (by simp) _).trans ?_
  rw [rd_bump_self]
  rfl

theorem rd_mismatched (hk : k < 8) :
    (mismatched k u r s).rd (PLT_CNT.COUNT 2) k = min (2 ^ 32 - 1) (s.rd (PLT_CNT.COUNT 2) k + 1) ∧
    (mismatched k u r s).rd (PLT_CNT.COUNT 3) k = min (2 ^ 32 - 1) (s.rd (PLT_CNT.COUNT 3) k + 1) := by
  have hk20 : k < 2 ^ 20 := by omega
  constructor
  · refine (rd_report_platen hk (.inl rfl) u (by simp) _).trans ?_
    rw [rd_bump_base _ (by decide) hk20, rd_bump_self]
    rfl
  · refine (rd_report_platen hk (.inr rfl) u (by simp) _).trans ?_
    rw [rd_bump_self, rd_bump_base _ (by decide) hk20]
    rfl

end

/-- `t` differs from `s` in the armed mismatches alone. -/
abbrev ArmedOnly (s t : State) : Prop := { t with plt.inject := s.plt.inject } = s

theorem units_eq_cons (l : PltList) : ∃ us, l.units = l.first :: us := by
  unfold PltList.units PltList.first
  split
  · exact ⟨_, rfl⟩
  · exact ⟨_, rfl⟩

/-- What the residue checks of units `us`, none of which has a mismatch armed, keep of what the checks before them have found. -/
abbrev ResidueKept (k : Nat) (us bad : List Nat) (r : PltRun) (t : State) (a : List Nat × PltRun × State) : Prop :=
  a.1 = bad ∧ a.2.1 = r ∧ ArmedOnly t a.2.2 ∧ ∀ v ∈ us, KMap.get 0 a.2.2.plt.inject (64 * k + v) = 0

theorem ResidueKept.result {k : Nat} {us bad : List Nat} {r : PltRun} {t : State} {a : List Nat × PltRun × State}
    (h : ResidueKept k us bad r t a) : ∃ u, a = (bad, r, u) ∧ ArmedOnly t u :=
  ⟨a.2.2, Prod.ext h.1 (Prod.ext h.2.1 rfl), h.2.2.1⟩

/-- Where no unit of a list but its first has a mismatch armed, what the residue check of that one finds is all. -/
theorem residues_first {s t : State} {k mism : Nat} {r r' : PltRun} {bad : Bool}
    (hnone : ∀ v ∈ r.list.units, v ≠ r.list.first → KMap.get 0 s.plt.inject (64 * k + v) = 0)
    (hres : residue k r.list.first mism r s = (bad, r', t)) (ht : t.plt.inject = (disarmed k r.list.first s).plt.inject) :
    ∃ u, residues k mism r s = (if bad then [r.list.first] else [], r', u) ∧ ArmedOnly t u := by
  obtain ⟨us, hus⟩ := units_eq_cons r.list
  have hnodup := units_nodup r.list
  rw [hus] at hnodup hnone
  have hfirst : r.list.first ∉ us := (List.nodup_cons.1 hnodup).1
  have hrest : ∀ v ∈ us, KMap.get 0 t.plt.inject (64 * k + v) = 0 := fun v hv => by
    have hne : v ≠ r.list.first := fun he => hfirst (he ▸ hv)
    rw [ht, KMap.get_put_other 0 0 _ _ (by omega), hnone v (List.mem_cons_of_mem _ hv) hne]
  rw [residues, hus, List.foldl_cons]
  simp only [if_true, hres, List.nil_append]
  generalize (if bad = true then [r.list.first] else []) = l
  refine ResidueKept.result (us := us) (k := k) (foldl_invariant ?_ ⟨rfl, rfl, rfl, hrest⟩)
  rintro ⟨l', r₁, x⟩ v hv ⟨rfl, rfl, honly, hnone'⟩
  have hne : v ≠ r.list.first := fun he => hfirst (he ▸ hv)
  have hstep : residue k v 0 r₁ x = (false, r₁, disarmed k v x) := residue_none ((Nat.zero_add _).trans (hnone' v hv))
  simp only [if_neg hne, hstep, Bool.false_eq_true, if_false]
  refine ⟨rfl, rfl, honly, fun w hw => ?_⟩
  by_cases hkey : 64 * k + w = 64 * k + v
  · rw [hkey, KMap.get_put_self]
  · rw [KMap.get_put_other 0 0 _ _ hkey, hnone' w hw]

section
variable {s : State} {k mism : Nat} {r : PltRun}
  (hnone : ∀ v ∈ r.list.units, v ≠ r.list.first → KMap.get 0 s.plt.inject (64 * k + v) = 0)
include hnone

theorem residues_once (h : mism + KMap.get 0 s.plt.inject (64 * k + r.list.first) = 1) :
    ∃ t, residues k mism r s = ([], { r with retried := true }, t) ∧ ArmedOnly (repeated k r.list.first r s) t :=
  residues_first hnone (residue_once h) (congrArg (·.inject) repeated_plt)

theorem residues_twice (h : 2 ≤ mism + KMap.get 0 s.plt.inject (64 * k + r.list.first)) :
    ∃ t, residues k mism r s = ([r.list.first], { r with retried := true, poison := true }, t) ∧
      ArmedOnly (mismatched k r.list.first r s) t :=
  residues_first hnone (residue_twice h) (congrArg (·.inject) mismatched_plt)

end

theorem vmacAll_regs (k w : Nat) (bad us : List Nat) (s : State) : (us.foldl (vmacOn k w bad) s).regs = s.regs :=
  foldl_keeps (f := vmacOn k w bad) (·.regs) (fun _ _ _ => rfl) s

/-- The accumulator of a unit whose residue check has failed twice is poisoned whole. -/
theorem vmacAll_poisoned {us : List Nat} (hus : us.Nodup) {v : Nat} (hv : v ∈ us) (k w : Nat) (s : State) :
    accPoison (us.foldl (vmacOn k w [v]) s) (64 * k + v) (cmdRd w % 4) = 255 := by
  refine foldl_at (f := vmacOn k w [v]) (J := fun _ => True) (Q := fun t => accPoison t (64 * k + v) (cmdRd w % 4) = 255) hus hv
    (fun _ _ _ _ _ => trivial) (fun t _ => ?_) (fun t u _ hne ht => (accPoison_putAcc_other (by omega) ..).trans ht) trivial
  rw [vmacOn, accPoison_putAcc_self, List.contains_eq_mem, if_pos (by simp)]

/-- The state after VMAC on the units of a list. -/
abbrev vmacDone (k w : Nat) (bad : List Nat) (us : List Nat) (s : State) : State := us.foldl (vmacOn k w bad) s

section
variable {s t : State} {k u w mism : Nat} {r r' : PltRun} (h : NextCmd s k u 0x06 r w)
include h

/-- VMAC where no residue check has failed twice. -/
theorem exec_vmac_passes (hres : residues k mism r s = ([], r', t)) (hlist : r'.list = r.list) : exec (.vmac k u mism) s =
    .next ((vmacDone k w [] r.list.units t).setRun (64 * k + u)
      { r' with pos := r.pos + 1, ended := decide (r.list.words.length ≤ r.pos + 1) }) := by
  refine congrArg Host.Outcome.next (stepList_untouched h rfl (c := { s := vmacDone k w [] r.list.units t, run := r' }) ?_ rfl)
  rw [hres]
  simp only [hlist, List.isEmpty_nil, if_true]

/-- VMAC where a residue check has failed twice. -/
theorem exec_vmac_fails {v : Nat} (hres : residues k mism r s = ([v], r', t)) (hlist : r'.list = r.list) : exec (.vmac k u mism) s =
    .next ((vmacDone k w [v] r.list.units t).setRun (64 * k + u)
      { r' with status := ST.PLT_RESIDUE, cmdIndex := r.pos, ended := true }) := by
  refine congrArg Host.Outcome.next (stepList_failed h (cmdWaits_of_untouched h rfl) (.inl rfl)
    (c := { s := vmacDone k w [v] r.list.units t, run := r', fail := ST.PLT_RESIDUE }) ?_ (show ST.PLT_RESIDUE ≠ 0 by decide))
  rw [hres]
  simp only [hlist, List.isEmpty_cons, Bool.false_eq_true, if_false]

end

section
variable {s t : State} (h : VmacOnly s t)
include h

theorem VmacOnly.mem : t.mem = s.mem := by
  have e : { t with plt.accs := s.plt.accs, plt.f32 := s.plt.f32, plt.apsn := s.plt.apsn, plt.inject := s.plt.inject }.mem = s.mem := by rw [h]
  exact e

theorem VmacOnly.now : t.now = s.now := by
  have e : { t with plt.accs := s.plt.accs, plt.f32 := s.plt.f32, plt.apsn := s.plt.apsn, plt.inject := s.plt.inject }.now = s.now := by rw [h]
  exact e

end

theorem ArmedOnly.regs {s t : State} (h : ArmedOnly s t) : t.regs = s.regs := by
  have e : { t with plt.inject := s.plt.inject }.regs = s.regs := by rw [h]
  exact e

theorem PltAccsOnly.mem {s t : State} (h : PltAccsOnly s t) : t.mem = s.mem := by
  have e : { t with plt.accs := s.plt.accs, plt.f32 := s.plt.f32, plt.apsn := s.plt.apsn }.mem = s.mem := by rw [h]
  exact e

theorem accLane_setHold (s : State) (g : Nat) (h : PltHold) (un x j : Nat) : accLane (s.setHold g h) un x j = accLane s un x j := by
  unfold State.setHold
  dsimp only
  split <;> rfl

end Sys2Proof.Machine

open Sys2Proof Sys2Proof.Machine

/-- Settles O16: each command by the equation of the branch that it takes; its reads change counts alone, and a residue check of
an unarmed unit finds nothing. -/
theorem pressCommandsCompute : Obligations.PressCommandsCompute := by
  unfold Obligations.PressCommandsCompute
  refine ⟨fun s k u r w h => ⟨fun hok => ?_, fun hbad => ?_⟩,
    fun s s₁ k u r w hb h hr href hread => ⟨fun s₂ key ks hk hs hnone hplane => ?_, fun hclosed hk => ?_⟩,
    fun s s₁ k u r w val vs h hr hext hheld hset hfirst hlen hnone hplane => ?_,
    fun s k u r w h hopen => ⟨fun hh hi => ?_, fun hno hlost => ?_⟩,
    fun s k u r w mism hk h hothers => ⟨fun hone => ?_, fun htwo => ?_⟩⟩
  · have hstep := stepList_chased (f := parm k) h (cmdWaits_of_untouched h rfl) (.inl rfl) (parmCmd_formed hok) rfl
    have hframe := spoilChase_frame k r.list.target (parmSet k w r.list.target s)
    refine ⟨_, congrArg Host.Outcome.next hstep, pltRun?_setRun .., ?_, ?_⟩
    · rw [gangDone_parms, KMap.get_put_self]
    · exact congrArg (fun x : State => { x with plt.runs := s.plt.runs, plt.parms := s.plt.parms }) hframe
  · have hstep := stepList_chased_fails (f := parm k) h (cmdWaits_of_untouched h rfl) (.inl rfl) (parmCmd_malformed hbad) (by decide)
    have hframe := spoilChase_frame k r.list.target s
    refine ⟨_, congrArg Host.Outcome.next hstep, pltRun?_setRun .., ?_⟩
    exact congrArg (fun x : State => { x with plt.runs := s.plt.runs }) hframe
  · have h₁ : AfterReads s s₁ := readArray_after hread
    have h₂ : AfterReads s₁ s₂ := pressPlane_after hplane
    have hplt : s₂.plt = s.plt := (h₁.trans h₂).plt
    obtain ⟨s₃, hres, -, -, honly⟩ := residues_none (NoMismatch.of_plt hplt hnone)
    have hlane (un so j : Nat) : sortLane s₃ un so j = sortLane s un so j := (honly.sortLane ..).trans (sortLane_congr hplt ..)
    have hpoison (un so : Nat) : sortPoison s₃ un so = sortPoison s un so := (honly.sortPoison ..).trans (sortPoison_congr hplt ..)
    have hstep := stepList_chased h hr.1 (.inr hr.2) (pscore_scores href hread rfl rfl hk hs hplane hres) rfl
    refine ⟨_, _, congrArg Host.Outcome.next hstep, wentOn_gangDone rfl, ?_, fun hclean => stream_clean r (scores_clean fun h' hh p => ?_), ?_, ?_⟩
    · refine (stream_outs r).trans (congrArg (r.outs ++ ·) ((scores_bytes ..).trans ?_))
      simp only [score_congr hlane]
    · exact queryBad_clean (Nat.lt_of_lt_of_le hh (Nat.min_le_left ..)) fun rank hrank x hx => (hpoison ..).trans (hclean rank hrank x hx)
    · rw [gangDone_pltHold, pltHold_setHold, honly.now, (h₁.trans h₂).now]
    · rw [gangDone_mem, setHold_mem, honly.mem, (h₁.trans h₂).mem]
  · have h₁ : AfterReads s s₁ := readArray_after hread
    have hcount : s₁.rd (PLT_CNT.COUNT 4) k = s.rd (PLT_CNT.COUNT 4) k := h₁.regs.rd_base (by decide) (by omega)
    have hstep := stepList_chased_fails h hr.1 (.inr hr.2) (pscore_notOpen href hread hclosed 0) (by decide)
    refine ⟨_, congrArg Host.Outcome.next hstep, pltRun?_setRun .., ?_, ?_⟩
    · rw [gangDone_mem, bump_mem, h₁.mem]
    · rw [gangDone_rd, rd_bump_self, hcount]
      rfl
  · have h₁ : AfterReads s s₁ := pressPlane_after hplane
    obtain ⟨s₂, hres, haccs, -, honly⟩ := residues_none (r := r.took (weightBytes (KMap.get 0 s.plt.parms (8 * k + r.list.target)) w))
      (NoMismatch.of_plt h₁.plt hnone)
    have hlane (un x j : Nat) : accLane s₂ un x j = accLane s un x j := by rw [accLane, haccs, h₁.plt, accLane]
    have hstep := stepList_chased h hr.1 (.inr hr.2) (pwacc_sums rfl rfl hext hheld hset hfirst hlen hplane hres) rfl
    refine ⟨_, _, congrArg Host.Outcome.next hstep, wentOn_gangDone rfl, rfl, fun rank h' i hrank hh hi hplace hlow hholds => ?_, ?_, ?_⟩
    · rw [gangDone_accLane, accLane_setHold, pwGang_lane (by omega) (Nat.mod_lt _ (by decide)) hrank,
        pwUnit_sum hh hi hlow hholds, hlane]
    · rw [gangDone_pltHold, pltHold_setHold]
    · rw [gangDone_mem, setHold_mem, (pwGang_accsOnly ..).mem, honly.mem, h₁.mem]
  · have hstep := stepList_chased h (cmdWaits_xout h) (.inr hopen) (xout_held hh hi) rfl
    refine ⟨_, _, congrArg Host.Outcome.next hstep, wentOn_gangDone rfl, ?_, fun hclean => stream_clean r (xoutWords_clean hclean), ?_, ?_⟩
    · exact (stream_outs r).trans (congrArg (r.outs ++ ·) (xoutWords_bytes ..))
    · rw [gangDone_pltHold, xoutHeld_held hh]
    · rw [gangDone_mem, xoutHeld_mem]
  · have hstep := stepList_chased_fails h (cmdWaits_xout h) (.inr hopen) (xout_noHold hno hlost) (by decide)
    exact ⟨_, congrArg Host.Outcome.next hstep, pltRun?_setRun .., gangDone_mem ..⟩
  · obtain ⟨t, hres, honly⟩ := residues_once hothers hone
    refine ⟨_, _, exec_vmac_passes h hres rfl, ⟨pltRun?_setRun .., rfl, rfl, rfl⟩, rfl, ?_⟩
    rw [rd_setRun, rd_congr (vmacAll_regs ..), rd_congr honly.regs, rd_repeated hk]
  · obtain ⟨t, hres, honly⟩ := residues_twice hothers htwo
    have hfirst : r.list.first ∈ r.list.units := by
      obtain ⟨us, hus⟩ := units_eq_cons r.list
      rw [hus]
      exact List.mem_cons_self ..
    obtain ⟨h2, h3⟩ := rd_mismatched (u := r.list.first) (r := r) (s := s) hk
    refine ⟨_, _, exec_vmac_fails h hres rfl, pltRun?_setRun .., rfl, rfl, rfl, ?_, ?_, vmacAll_poisoned (units_nodup _) hfirst k w t⟩
    · rw [rd_setRun, rd_congr (vmacAll_regs ..), rd_congr honly.regs, h2]
    · rw [rd_setRun, rd_congr (vmacAll_regs ..), rd_congr honly.regs, h3]
end

section
/-!
PROOFS. The way of a platen list (R81–R83, R89, R91, R92, R97, R200): how it is refused or queued, what its start claims, and what is
served and counted when it retires or is suspended and gives its claims up.
-/
namespace Sys2Proof.Machine

/-! What serving the accesses that wait changes. -/

/-- `t` with all that accesses change as it is in `s`: the arrays, register fields, records and free values, galley lines, the chunks
marked in the bitmaps, and what was sent. -/
def beforeAccess (s t : State) : State :=
  { t with regs := s.regs, mem := s.mem, chk := s.chk, psn := s.psn, freeIx := s.freeIx, ras.handlers := s.ras.handlers,
           gal.lines := s.gal.lines, flo.used := s.flo.used, out := s.out }

/-- `t` is `s` after accesses to the upper case. -/
structure AfterAccess (s t : State) : Prop where
  frame : beforeAccess s t = s
  regs : SameRegs s t accessKeys

section
variable {s t u : State}

theorem AfterAccess.refl (s : State) : AfterAccess s s := ⟨rfl, .refl s _⟩

theorem AfterAccess.trans (h : AfterAccess s t) (g : AfterAccess t u) : AfterAccess s u :=
  ⟨(congrArg (beforeAccess s) g.frame).trans h.frame, h.regs.andThen g.regs⟩

theorem AfterReads.afterAccess (h : AfterReads s t) : AfterAccess s t := by
  have e := congrArg (beforeAccess s) h.frame
  exact ⟨e, h.regs⟩

theorem HandsOnly.afterAccess (h : HandsOnly s t) (hregs : SameRegs s t accessKeys) : AfterAccess s t := by
  have e := congrArg (beforeAccess s) h
  exact ⟨e, hregs⟩

theorem LinesOnly.afterAccess (h : LinesOnly s t) (hregs : SameRegs s t accessKeys) : AfterAccess s t := by
  have e := congrArg (beforeAccess s) h
  exact ⟨e, hregs⟩

section
variable (h : AfterAccess s t)
include h

theorem AfterAccess.andPut (loc : Nat) (d : Bytes) (p : Bool) : AfterAccess s (putSector loc d p t) := ⟨h.frame, h.regs⟩

theorem AfterAccess.andEmit (m : OutMsg) : AfterAccess s (t.emit m) := ⟨h.frame, h.regs⟩

theorem AfterAccess.plt : t.plt = s.plt := congrArg (·.plt) h.frame

theorem AfterAccess.claims : t.stk.claims = s.stk.claims := congrArg (·.stk.claims) h.frame

end

end

/-- `t` differs from `s` in the chunks marked in the bitmaps alone. -/
abbrev MarksOnly (s t : State) : Prop := { t with flo.used := s.flo.used } = s

section
variable {s t u : State}

theorem MarksOnly.trans (h : MarksOnly s t) (g : MarksOnly t u) : MarksOnly s u :=
  (congrArg (fun x : State => { x with flo.used := s.flo.used }) g).trans h

theorem MarksOnly.afterAccess (h : MarksOnly s t) : AfterAccess s t := by
  have e := congrArg (beforeAccess s) h
  have hregs := congrArg (·.regs) h
  exact ⟨e, .of_regs hregs _⟩

end

theorem setChunkBit_marks (n : Nat) (free : Bool) (s : State) : MarksOnly s (setChunkBit n free s) := by
  unfold setChunkBit
  split
  · split <;> rfl
  · split <;> rfl

theorem mapByte_marks (place v : Nat) (s : State) : MarksOnly s (mapByte place v s) := by
  unfold mapByte
  generalize List.range 8 = l
  exact foldl_invariant (I := MarksOnly s) (fun _ _ _ ht => ht.trans (setChunkBit_marks ..)) rfl

theorem mapWrite_marks (off : Nat) (data : Bytes) (s : State) : MarksOnly s (mapWrite off data s) := by
  unfold mapWrite
  dsimp only
  split
  · rfl
  · refine foldl_invariant (I := MarksOnly s) (fun t x _ ht => ?_) rfl
    split
    · exact ht.trans (mapByte_marks ..)
    · exact ht

theorem galInvalidate_after (a : Nat) (s : State) : AfterAccess s (galInvalidate a s) := by
  obtain ⟨hframe, hregs⟩ := galInvalidate_frame a s
  exact hframe.afterAccess hregs

/-- A consumption of poison at a region's handler. -/
theorem poisonUse_after {h : Handler} (hh : AboveBlocks h) (subsys unit : Nat) (part : Option Nat) (status addr : Nat) (s : State) :
    AfterAccess s (poisonUse h subsys unit part status addr s) := by
  have hcount : SameRegs s (s.bump (RAS_CNT.COUNT 5)) reportKeys := (SameRegs.refl s _).andWr _ (by decide)
  exact (HandsOnly.after (t := s.bump (RAS_CNT.COUNT 5)) rfl (report_frame ..)).afterAccess
    ((hcount.andThen (report_sameRegs hh _ _)).mono (List.subset_append_right ..))

theorem mergePoison_after (part base : Nat) (r : SectorRead) (s : State) : AfterAccess s (mergePoison part base r s) := by
  have hk := offStack_lt base
  have hcount : SameRegs s (s.bump (STK_CNT.COUNT 1) (offStack base)) accessKeys :=
    (SameRegs.refl s _).andWr _ (countKeys_mem _ hk _ (by simp))
  have hlogged : AfterAccess s (if r = .bad then stkLog (offStack base) 1 part base (s.bump (STK_CNT.COUNT 1) (offStack base))
      else s.bump (STK_CNT.COUNT 1) (offStack base)) := by
    split
    · exact (HandsOnly.of_regs (regs_after (t := s.bump (STK_CNT.COUNT 1) (offStack base)) rfl (stkLog_regs ..))).afterAccess
        (hcount.andThen (stkLog_sameRegs hk 1 part base _))
    · exact (HandsOnly.of_regs rfl).afterAccess hcount
  exact hlogged.trans (poisonUse_after (.inr ⟨offStack base / 2, by omega, rfl⟩) ..)

theorem mergeWrite_after (part off : Nat) (data : Bytes) (poison : Bool) (s : State) : AfterAccess s (mergeWrite part off data poison s) := by
  have hmap : AfterAccess s (mapWrite off data (galInvalidate off s)) :=
    (galInvalidate_after off s).trans (mapWrite_marks ..).afterAccess
  unfold mergeWrite
  dsimp only
  split
  · exact hmap.andPut ..
  · have hread (loc : Nat) : AfterAccess s (readAt (mapWrite off data (galInvalidate off s)) loc).2 :=
      hmap.trans (readAt_after ..).afterAccess
    split
    · exact ((hread _).andPut ..).trans (countRead_after ..).afterAccess
    · exact ((hread _).andPut ..).trans (mergePoison_after ..)

theorem writeSectors_after (part n off : Nat) (data : Bytes) (poison : Bool) (s : State) :
    AfterAccess s (writeSectors part n off data poison s) := by
  induction n generalizing off data s with
  | zero => exact .refl s
  | succ n ih =>
    unfold writeSectors
    dsimp only
    split
    · exact .refl s
    · exact (mergeWrite_after ..).trans (ih ..)

theorem serveAccess_after (x : Access) (s : State) : AfterAccess s (serveAccess x s) := by
  unfold serveAccess
  split
  · exact (writeSectors_after ..).andEmit _
  · have hread : AfterAccess s (readCover x.part x.off x.len s).2 := (readMarks_after ..).afterAccess
    dsimp only
    split
    · exact hread.andEmit _
    · exact hread.andEmit _

/-- Serving those that wait at a stack: its line is set, and accesses are carried out or refused. -/
theorem serveWaiting_after (k : Nat) (s : State) : ∃ u, AfterAccess (s.setStk k u) (serveWaiting k s) := by
  unfold serveWaiting
  dsimp only
  refine ⟨_, foldl_invariant (I := AfterAccess _) (fun t x _ ht => ?_) (.refl _)⟩
  split
  · rw [refuseAccess_eq]
    exact ht.andEmit _
  · exact ht.trans (serveAccess_after x t)

/-! Claims (R89, R92). -/

theorem KMap.key_ne_of_find?_none {α : Type} {m : KMap α} {k : Nat} (h : KMap.find? m k = none) : ∀ e ∈ m, e.1 ≠ k := by
  induction m with
  | nil => exact fun _ he => absurd he List.not_mem_nil
  | cons x r ih =>
    obtain ⟨a, v⟩ := x
    have hne : k ≠ a := fun he => by simp [KMap.find?, he] at h
    rw [KMap.find?, if_neg hne] at h
    exact List.forall_mem_cons.2 ⟨fun he => hne he.symm, ih h⟩

theorem KMap.mem_place_of_mem {α : Type} {m : KMap α} (k : Nat) (v : α) {e : Nat × α} (he : e ∈ m) : e ∈ KMap.place m k v := by
  induction m with
  | nil => exact absurd he List.not_mem_nil
  | cons x r ih =>
    obtain ⟨a, w⟩ := x
    rw [KMap.place]
    split
    · exact List.mem_cons_of_mem _ he
    · obtain rfl | he := List.mem_cons.1 he
      · exact List.mem_cons_self ..
      · exact List.mem_cons_of_mem _ (ih he)

/-- A new key leaves the others. -/
theorem KMap.mem_put_of_mem {α : Type} [DecidableEq α] (d : α) {m : KMap α} {k : Nat} (h : KMap.find? m k = none) (v : α) {e : Nat × α}
    (he : e ∈ m) : e ∈ KMap.put d m k v := by
  have hmem : e ∈ KMap.erase m k := List.mem_filter.2 ⟨he, by simpa using KMap.key_ne_of_find?_none h e he⟩
  unfold KMap.put
  split
  · exact hmem
  · exact KMap.mem_place_of_mem _ _ hmem

/-- The state in which a list claims rows. -/
abbrev claiming (key : Nat) (rows : List Nat) (s : State) : State := { s with stk.claims := KMap.put [] s.stk.claims key rows }

/-- When the waits began that a change of the rows that a list claims ends. -/
def stallEnds (key : Nat) (rows : List Nat) (s : State) : List Nat :=
  ((s.stkUnit (key / 64)).waiting.filter fun x => claimed s x && !claimed (claiming key rows s) x).map (·.since) ++
    (s.stk.claimWaits.filter fun w => claimHeld s w.2.1 && !claimHeld (claiming key rows s) w.2.1).map fun w => w.2.2

/-- The state once waits that began then have been counted. -/
def stallsCounted (k part : Nat) (l : List Nat) (s : State) : State := l.foldl (fun u since => countStall k part since u) s

/-- The line of a stack once those that begin to wait are marked with the time. -/
def waitsMarked (key : Nat) (rows : List Nat) (s : State) (x : StkUnit) : StkUnit :=
  { x with waiting := x.waiting.map fun a => if claimed (claiming key rows s) a && !claimed s a then { a with since := s.now } else a }

/-- The commands that wait on a claim still. -/
def claimWaitsLeft (key : Nat) (rows : List Nat) (s : State) : List (Instr × Nat × Nat) :=
  s.stk.claimWaits.filter fun w => !(claimHeld s w.2.1 && !claimHeld (claiming key rows s) w.2.1)

theorem setClaims_eq (key part : Nat) (rows : List Nat) (s : State) : setClaims key part rows s =
    { (stallsCounted (key / 64) part (stallEnds key rows s) (claiming key rows s)).setStk (key / 64)
        (waitsMarked key rows s (s.stkUnit (key / 64))) with stk.claimWaits := claimWaitsLeft key rows s } := rfl

/-- The register fields that count a wait on a claim (R92, R208). -/
abbrev stallKeys (k part : Nat) : List Nat := [(REAM_PACCT.VALUE 2).key part, (REAM_PACCT.VALUE 8).key part, PLT_CLAIM_STALL.CYCLES.key k]

/-- `t` differs from `s` as the counts of waits make it: register fields and charges. -/
abbrev ChargesOnly (s t : State) : Prop := { t with regs := s.regs, rea := s.rea } = s

theorem countStall_charges (k part since : Nat) {s t : State} (h : ChargesOnly s t) : ChargesOnly s (countStall k part since t) := h

theorem countStall_regs (k part since : Nat) (s : State) : ∃ c pj, (countStall k part since s).regs =
    (((s.addWrap PLT_CLAIM_STALL.CYCLES k c).addWrap (REAM_PACCT.VALUE 2) part c).wr (REAM_PACCT.VALUE 8) part pj).regs := ⟨_, _, rfl⟩

theorem countStall_sameRegs (k part since : Nat) {s t : State} (h : SameRegs s t (stallKeys k part)) :
    SameRegs s (countStall k part since t) (stallKeys k part) := by
  obtain ⟨c, pj, hregs⟩ := countStall_regs k part since t
  have hwritten : SameRegs s (((t.addWrap PLT_CLAIM_STALL.CYCLES k c).addWrap (REAM_PACCT.VALUE 2) part c).wr (REAM_PACCT.VALUE 8) part pj)
      (stallKeys k part) := ((h.andWr _ (by simp)).andWr _ (by simp)).andWr _ (by simp)
  exact hwritten.andThen (.of_regs hregs _)

theorem stallsCounted_charges (k part : Nat) (l : List Nat) (s : State) : ChargesOnly s (stallsCounted k part l s) := by
  unfold stallsCounted
  exact foldl_invariant (I := ChargesOnly s) (fun _ since _ ht => countStall_charges k part since ht) rfl

theorem stallsCounted_sameRegs (k part : Nat) (l : List Nat) (s : State) : SameRegs s (stallsCounted k part l s) (stallKeys k part) := by
  unfold stallsCounted
  exact foldl_invariant (I := fun t => SameRegs s t (stallKeys k part)) (fun _ since _ ht => countStall_sameRegs k part since ht) (.refl s _)

section
variable (key part : Nat) (rows : List Nat) (s : State)

theorem setClaims_sameRegs : SameRegs s (setClaims key part rows s) (stallKeys (key / 64) part) :=
  stallsCounted_sameRegs (key / 64) part (stallEnds key rows s) (claiming key rows s)

theorem setClaims_kept : (setClaims key part rows s).plt = s.plt ∧ (setClaims key part rows s).mem = s.mem ∧
    KMap.get [] (setClaims key part rows s).stk.claims key = rows := by
  have h := stallsCounted_charges (key / 64) part (stallEnds key rows s) (claiming key rows s)
  have hplt := congrArg (·.plt) h
  have hmem := congrArg (·.mem) h
  have hclaims : (setClaims key part rows s).stk.claims = KMap.put [] s.stk.claims key rows := congrArg (·.stk.claims) h
  exact ⟨hplt, hmem, by rw [hclaims, KMap.get_put_self]⟩

theorem setClaims_waiting {k : Nat} (h : (s.stkUnit k).waiting = []) : ((setClaims key part rows s).stkUnit k).waiting = [] := by
  have hstk : (stallsCounted (key / 64) part (stallEnds key rows s) (claiming key rows s)).stk.units = s.stk.units :=
    congrArg (·.stk.units) (stallsCounted_charges (key / 64) part (stallEnds key rows s) (claiming key rows s))
  have hunits : (setClaims key part rows s).stkUnit k =
      KMap.get {} (KMap.put {} s.stk.units (key / 64) (waitsMarked key rows s (s.stkUnit (key / 64)))) k := by rw [← hstk]; rfl
  rw [hunits]
  by_cases hk : k = key / 64
  · rw [hk, KMap.get_put_self, waitsMarked, ← hk, h, List.map_nil]
  · rw [KMap.get_put_other _ _ _ _ hk]
    exact h

/-- A list that claimed nothing yet ends no wait by its claims. -/
theorem setClaims_unclaimed (h : KMap.find? s.stk.claims key = none) : setClaims key part rows s =
    (claiming key rows s).setStk (key / 64) (waitsMarked key rows s (s.stkUnit (key / 64))) := by
  have hheld (a : Nat) (ha : claimHeld s a = true) : claimHeld (claiming key rows s) a = true := by
    obtain ⟨c, hc, hrow⟩ := List.any_eq_true.1 ha
    exact List.any_eq_true.2 ⟨c, KMap.mem_put_of_mem [] h rows hc, hrow⟩
  have hclaimed (x : Access) (hx : claimed s x = true) : claimed (claiming key rows s) x = true := by
    obtain ⟨a, ha, hrow⟩ := List.any_eq_true.1 hx
    exact List.any_eq_true.2 ⟨a, ha, hheld a hrow⟩
  have hends : stallEnds key rows s = [] := by
    have haccess : ((s.stkUnit (key / 64)).waiting.filter fun x => claimed s x && !claimed (claiming key rows s) x) = [] :=
      List.filter_eq_nil_iff.2 fun x _ => by simpa using hclaimed x
    have hcmds : (s.stk.claimWaits.filter fun w => claimHeld s w.2.1 && !claimHeld (claiming key rows s) w.2.1) = [] :=
      List.filter_eq_nil_iff.2 fun w _ => by simpa using hheld w.2.1
    rw [stallEnds, haccess, hcmds]
    rfl
  have hleft : claimWaitsLeft key rows s = s.stk.claimWaits :=
    List.filter_eq_self.2 fun w _ => by simpa [← Bool.not_eq_true, imp_iff_not_or] using hheld w.2.1
  rw [setClaims_eq, hends, hleft]
  rfl

end

/-- The registers of a stack that show the lists that run, and the rows claimed. -/
abbrev statusKeys (k : Nat) : List Nat := [PLT_STS.BUSY.key k, PLT_CLAIM_STS.CLAIMED.key k]

theorem pltStatus_regs (k : Nat) (s : State) : RegsOnly s (pltStatus k s) (statusKeys k) :=
  ((RegsOnly.refl s).andWr _ _ _).andWr _ _ _

theorem rd_pltStatus {k : Nat} (hk : k < 8) (n : Nat) (hn : n = 0 ∨ n = 1) (s : State) :
    (pltStatus k s).rd (PLT_CNT.COUNT n) k = s.rd (PLT_CNT.COUNT n) k := by
  have hapart : ∀ k < 8, ∀ n < 2, (PLT_CNT.COUNT n).key k ∉ statusKeys k := by decide
  exact (pltStatus_regs k s).rd _ _ (hapart k hk n (by omega))

theorem rd_setClaims {k u part n : Nat} (hk : k < 8) (hp : part < 32) (hn : n = 0 ∨ n = 1) (rows : List Nat) (s : State) :
    (setClaims (64 * k + u) part rows s).rd (PLT_CNT.COUNT n) k = s.rd (PLT_CNT.COUNT n) k := by
  refine (setClaims_sameRegs (64 * k + u) part rows s).rd _ _ ?_
  simp only [List.mem_cons, List.not_mem_nil, or_false, not_or, Fld.key, PLT_CNT.COUNT, REAM_PACCT.VALUE, PLT_CLAIM_STALL.CYCLES, Win.ix]
  omega

/-- What a list leaves when it gives up its claims, and the accesses that waited on them are served. -/
theorem releaseClaims_shown {k u part : Nat} (hk : k < 8) (hp : part < 32) (s : State) :
    (releaseClaims k u part s).plt = s.plt ∧ KMap.get [] (releaseClaims k u part s).stk.claims (64 * k + u) = [] ∧
    ((s.stkUnit k).waiting = [] → (releaseClaims k u part s).mem = s.mem) ∧
    ∀ n, n = 0 ∨ n = 1 → (releaseClaims k u part s).rd (PLT_CNT.COUNT n) k = s.rd (PLT_CNT.COUNT n) k := by
  obtain ⟨hplt, hmem, hclaims⟩ := setClaims_kept (64 * k + u) part [] s
  obtain ⟨x, hserved⟩ := serveWaiting_after k (setClaims (64 * k + u) part [] s)
  refine ⟨hserved.plt.trans hplt, ?_, fun hnone => ?_, fun n hn => ?_⟩
  · exact (congrArg (fun m => KMap.get [] m (64 * k + u)) hserved.claims).trans hclaims
  · have hidle := serveWaiting_idle (setClaims_waiting (64 * k + u) part [] s hnone)
    rw [← hmem, releaseClaims, hidle]
    rfl
  · have hserve : (serveWaiting k (setClaims (64 * k + u) part [] s)).rd (PLT_CNT.COUNT n) k =
        (setClaims (64 * k + u) part [] s).rd (PLT_CNT.COUNT n) k := by
      refine (hserved.regs.rd_base ?_ (by omega)).trans (setStk_rd ..)
      obtain rfl | rfl := hn <;> decide
    rw [releaseClaims, rd_pltStatus hk n hn, hserve, rd_setClaims hk hp hn]

/-! A list is refused or queued (R81, R206). -/

theorem charged_plt_now (part n : Nat) (s : State) : (charged part n s).plt = s.plt ∧ (charged part n s).now = s.now := by
  unfold charged regulate
  split
  · exact ⟨rfl, rfl⟩
  · split <;> exact ⟨rfl, rfl⟩

section
variable {s t : State} {k : Nat} {iss : PltIssuer} {hd : Bytes} {ws : List Nat} {st : Bytes}

theorem listRefusal_congr (hregs : t.regs = s.regs) (hplt : t.plt = s.plt) (l : PltList) :
    listRefusal t k hd ws l = listRefusal s k hd ws l := by
  simp only [listRefusal, stackShut_congr hregs, flag_congr hregs, setOwner_congr hregs, pltList, hplt]
  rfl

/-- The state once a list stands last in its stack's queue. -/
abbrev listQueued (k : Nat) (l : PltList) (s : State) : State :=
  { s with plt.queues := KMap.put [] s.plt.queues k (pltList s k ++ [l]) }

/-- The state once a refused list has been counted and logged. -/
abbrev listRefused (k x : Nat) (l : PltList) (s : State) : State := pltLog k x l.first 255 l.part l.tag (s.bump (PLT_CNT.COUNT 5) k)

theorem pltArrive_queued (h : listRefusal s k hd ws (parseList iss hd ws st s.now) = none) :
    pltArrive k iss hd ws st s = listQueued k (parseList iss hd ws st s.now) s := by
  simp only [pltArrive, submitList, h]

theorem pltArrive_refused {x : Nat} (h : listRefusal s k hd ws (parseList iss hd ws st s.now) = some x) :
    pltArrive k iss hd ws st s = pltDeliver { issuer := iss, tag := leAt hd 6 2, status := x, cmdIndex := 255 }
      (listRefused k x (parseList iss hd ws st s.now) s) := by
  simp only [pltArrive, submitList, h]
  rfl

theorem exec_platenListSubmit_passes (hb : bucketPasses s (leAt hd 2 1) = true) : exec (.platenListSubmit k iss hd ws st) s =
    .next (pltArrive k iss hd ws st (charged (leAt hd 2 1) (listBytes ws st) s)) := by
  show Host.Outcome.next (pltSubmit k iss hd ws st s) = _
  rw [pltSubmit, regulate_passes hb]

theorem exec_platenListSubmit_waits (hb : bucketPasses s (leAt hd 2 1) = false) : exec (.platenListSubmit k iss hd ws st) s =
    .next (regWait (.list k iss hd ws st) s) := by
  show Host.Outcome.next (pltSubmit k iss hd ws st s) = _
  rw [pltSubmit, regulate_waits hb]

end

/-- The register fields of a stack's log of what failed (R98). -/
abbrev pltLogKeys (k : Nat) : List Nat :=
  [PLT_ERR_LOG0.STATUS.key k, PLT_ERR_LOG0.UNIT.key k, PLT_ERR_LOG0.CMD_INDEX.key k, PLT_ERR_LOG1.PART.key k, PLT_ERR_LOG1.TAG.key k]

section
variable (k status unit index part tag : Nat) (s : State)

theorem pltLog_regs : RegsOnly s (pltLog k status unit index part tag s) (pltLogKeys k) :=
  (((((RegsOnly.refl s).andWr _ _ _).andWr _ _ _).andWr _ _ _).andWr _ _ _).andWr _ _ _

theorem rd_pltLog {n : Nat} (hn : n < 8) :
    (pltLog k status unit index part tag s).rd (PLT_CNT.COUNT n) k = s.rd (PLT_CNT.COUNT n) k := by
  refine (pltLog_regs k status unit index part tag s).rd _ _ ?_
  simp only [List.mem_cons, List.not_mem_nil, or_false, not_or, Fld.key, PLT_CNT.COUNT, PLT_ERR_LOG0.STATUS, PLT_ERR_LOG0.UNIT,
    PLT_ERR_LOG0.CMD_INDEX, PLT_ERR_LOG1.PART, PLT_ERR_LOG1.TAG, Win.ix]
  omega

end

section
variable {s : State} {k : Nat} {iss : PltIssuer} {hd : Bytes} {ws : List Nat} {st : Bytes} (hpass : bucketPasses s (leAt hd 2 1) = true)
include hpass

/-- A list that no check refuses stands last in its stack's queue. -/
theorem submit_queued (hok : listRefusal s k hd ws (parseList iss hd ws st s.now) = none) :
    let c := charged (leAt hd 2 1) (listBytes ws st) s
    let t := listQueued k (parseList iss hd ws st s.now) c
    exec (.platenListSubmit k iss hd ws st) s = .next t ∧ pltList t k = pltList s k ++ [parseList iss hd ws st s.now] ∧
      SameBut s.plt.queues t.plt.queues k ∧ { t with plt.queues := s.plt.queues } = c := by
  obtain ⟨hregs, -, -⟩ := charged_same (leAt hd 2 1) (listBytes ws st) s
  obtain ⟨hplt, hnow⟩ := charged_plt_now (leAt hd 2 1) (listBytes ws st) s
  have hpasses := exec_platenListSubmit_passes (k := k) (iss := iss) (ws := ws) (st := st) hpass
  generalize charged (leAt hd 2 1) (listBytes ws st) s = c at hregs hplt hnow hpasses ⊢
  have harrive := pltArrive_queued (s := c) (iss := iss) (st := st) (by rw [hnow, listRefusal_congr hregs hplt]; exact hok)
  rw [hnow] at harrive
  have hqueue : c.plt.queues = s.plt.queues := congrArg (·.queues) hplt
  have hlist : pltList c k = pltList s k := by rw [pltList, hqueue, pltList]
  refine ⟨hpasses.trans (congrArg Host.Outcome.next harrive), ?_, fun j hj => ?_, ?_⟩
  · rw [← hlist]
    exact KMap.get_put_self ..
  · rw [← hqueue]
    exact KMap.find?_put_other [] c.plt.queues _ hj
  · rw [← hqueue]

/-- A list that a check refuses is counted and logged, and its record returned. -/
theorem submit_refused {x : Nat} (hbad : listRefusal s k hd ws (parseList iss hd ws st s.now) = some x) :
    let c := charged (leAt hd 2 1) (listBytes ws st) s
    let t := listRefused k x (parseList iss hd ws st s.now) c
    exec (.platenListSubmit k iss hd ws st) s = .next (pltDeliver { issuer := iss, tag := leAt hd 6 2, status := x, cmdIndex := 255 } t) ∧
      t.rd (PLT_CNT.COUNT 5) k = min (2 ^ 32 - 1) (s.rd (PLT_CNT.COUNT 5) k + 1) ∧ t.plt.queues = s.plt.queues ∧
      { t with regs := s.regs } = c := by
  obtain ⟨hregs, -, -⟩ := charged_same (leAt hd 2 1) (listBytes ws st) s
  obtain ⟨hplt, hnow⟩ := charged_plt_now (leAt hd 2 1) (listBytes ws st) s
  have hpasses := exec_platenListSubmit_passes (k := k) (iss := iss) (ws := ws) (st := st) hpass
  generalize charged (leAt hd 2 1) (listBytes ws st) s = c at hregs hplt hnow hpasses ⊢
  have harrive := pltArrive_refused (s := c) (iss := iss) (st := st) (by rw [hnow, listRefusal_congr hregs hplt]; exact hbad)
  rw [hnow] at harrive
  generalize parseList iss hd ws st s.now = l at harrive ⊢
  have hbump : RegsOnly c (c.bump (PLT_CNT.COUNT 5) k) [(PLT_CNT.COUNT 5).key k] := .wr ..
  have hframe := (hbump.trans (pltLog_regs k x l.first 255 l.part l.tag _)).1
  have hqueue := congrArg (·.plt.queues) hframe
  refine ⟨hpasses.trans (congrArg Host.Outcome.next harrive), ?_, hqueue.trans (congrArg (·.queues) hplt), ?_⟩
  · rw [rd_pltLog _ _ _ _ _ _ _ (by omega), rd_bump_self, rd_congr hregs]
    rfl
  · rw [← hregs]
    exact hframe

end

/-! A list starts (R81–R83, R89). -/

/-- The state once a list of the queue runs on its target's first unit, before it claims rows. -/
abbrev listRuns (k u : Nat) (l : PltList) (s : State) : State :=
  ({ s with plt.queues := KMap.put [] s.plt.queues k ((pltList s k).erase l) } : State).setRun (64 * k + u)
    { list := l, start := s.now, budget := s.now }

theorem exec_platenListStart_none {s : State} {k u : Nat} (h : nextList s k u [] (pltList s k) = none) :
    exec (.platenListStart k u) s = .next s := by
  show Host.Outcome.next (startList k u s) = _
  rw [startList, h]

theorem exec_platenListStart_some {s : State} {k u : Nat} {l : PltList} (h : nextList s k u [] (pltList s k) = some l) :
    exec (.platenListStart k u) s = .next (pltStatus k (setClaims (64 * k + u) l.part (listRows l) (listRuns k u l s))) := by
  show Host.Outcome.next (startList k u s) = _
  rw [startList, h]

/-- What a list changes that claims its rows: the rows claimed, and since when accesses wait. -/
theorem claimed_frame {key k : Nat} {s : State} (h : KMap.find? s.stk.claims key = none) (part : Nat) (rows : List Nat) :
    let t := pltStatus k (setClaims key part rows s)
    KMap.get [] t.stk.claims key = rows ∧ SameRegs s t (statusKeys k) ∧
      { t with regs := s.regs, stk.claims := s.stk.claims, stk.units := s.stk.units } = s := by
  have hkept := (setClaims_kept key part rows s).2.2
  rw [setClaims_unclaimed key part rows s h] at hkept ⊢
  have hregs := (pltStatus_regs k ((claiming key rows s).setStk (key / 64) (waitsMarked key rows s (s.stkUnit (key / 64))))).2
  exact ⟨hkept, hregs, rfl⟩

/-- The first of the queue may start when no press state, unit or earlier write stands in its way. -/
theorem nextList_first {s : State} {k u : Nat} {l : PltList} {rest : List PltList} (hu : l.first = u)
    (hfree : ∀ v ∈ l.units, unitBusy s k v = false)
    (hgang : l.gang = true → (pltHold s (8 * k + l.target)).held = true → (pltHold s (8 * k + l.target)).issuer = l.issuer)
    (hwrite : writeAhead s k l = false) : nextList s k u [] (l :: rest) = some l := by
  have hunits : (l.units.all fun v => !unitBusy s k v) = true := List.all_eq_true.2 fun v hv => by rw [hfree v hv]; rfl
  have hholds : holdWaits s k l = false := by
    simp only [holdWaits, Bool.and_eq_false_iff, bne_eq_false_iff_eq]
    by_cases hg : l.gang = true
    · by_cases hh : (pltHold s (8 * k + l.target)).held = true
      · exact .inr (hgang hg hh)
      · exact .inl (.inr (by simpa using hh))
    · exact .inl (.inl (by simpa using hg))
  have hstart : canStart s k [] l = true := by rw [canStart, hunits, hholds, hwrite]; rfl
  exact if_pos ⟨hu, hstart⟩

/-! A list retires (R83, R98). -/

/-- The state once a list has left its unit. -/
def unitLeft (k u : Nat) (l : PltList) (s : State) : State :=
  leaveGang (8 * k + l.gangOf) { s with plt.runs := KMap.erase s.plt.runs (64 * k + u) }

/-- The state once a list that is over has left its unit and been counted and logged; its claims stand still. -/
def retired (k u : Nat) (r : PltRun) (s : State) : State :=
  if r.status = 0 then (unitLeft k u r.list s).bump (PLT_CNT.COUNT 0) k
  else pltLog k r.status r.list.first r.cmdIndex r.list.part r.list.tag ((unitLeft k u r.list s).bump (PLT_CNT.COUNT 0) k)

theorem retired_frame (k u : Nat) (r : PltRun) (s : State) :
    { retired k u r s with regs := (unitLeft k u r.list s).regs } = unitLeft k u r.list s := by
  have hcount : RegsOnly (unitLeft k u r.list s) ((unitLeft k u r.list s).bump (PLT_CNT.COUNT 0) k) [(PLT_CNT.COUNT 0).key k] := .wr ..
  unfold retired
  split
  · exact hcount.1
  · exact (hcount.trans (pltLog_regs ..)).1

/-- Retiring takes the run off; the time, the arrays and the stacks are as before. -/
theorem retired_kept (k u : Nat) (r : PltRun) (s : State) : (retired k u r s).now = s.now ∧ (retired k u r s).mem = s.mem ∧
    (retired k u r s).stk = s.stk ∧ pltRun? (retired k u r s) (64 * k + u) = none := by
  have h := retired_frame k u r s
  have hnow := congrArg (·.now) h
  have hmem := congrArg (·.mem) h
  have hstk := congrArg (·.stk) h
  have hruns := congrArg (fun t => pltRun? t (64 * k + u)) h
  exact ⟨hnow, hmem, hstk, hruns.trans (KMap.find?_erase_self ..)⟩

theorem retired_counted (k u : Nat) (r : PltRun) (s : State) :
    (retired k u r s).rd (PLT_CNT.COUNT 0) k = min (2 ^ 32 - 1) (s.rd (PLT_CNT.COUNT 0) k + 1) := by
  have hcount : ((unitLeft k u r.list s).bump (PLT_CNT.COUNT 0) k).rd (PLT_CNT.COUNT 0) k =
      min (2 ^ 32 - 1) (s.rd (PLT_CNT.COUNT 0) k + 1) := rd_bump_self (unitLeft k u r.list s) (PLT_CNT.COUNT 0) k
  unfold retired
  split
  · exact hcount
  · exact (rd_pltLog _ _ _ _ _ _ _ (by omega)).trans hcount

/-- The record of a list that is over. -/
abbrev PltRun.record (r : PltRun) (now : Nat) : PltDone :=
  { issuer := r.list.issuer, tag := r.list.tag, status := r.status, cmdIndex := r.cmdIndex, retried := r.retried, poison := r.poison,
    preempted := r.preempted, cycles := (now - r.start) * 6 / 5, outs := r.outs, outsBad := r.outsBad }

section
variable {k u : Nat} {r : PltRun} {s : State}

theorem flushWrote_eq (r : PltRun) (s : State) : flushWrote r s = ({ r with wrote := [] }, (flushWrote r s).2) := rfl

theorem exec_platenListRetire_ended (hr : pltRun? s (64 * k + u) = some r) (he : r.ended = true) :
    exec (.platenListRetire k u) s = .next (gangsServe (pltDeliver (r.record s.now)
      (releaseClaims k u r.list.part (retired k u r (flushWrote r s).2)))) := by
  have hnow : (retired k u r (flushWrote r s).2).now = s.now :=
    (retired_kept k u r _).1.trans (congrArg (·.now) (flushWrote_frame r s).1)
  have hretire : retireList k u s =
      (some (r.record s.now), releaseClaims k u r.list.part (retired k u r (flushWrote r s).2)) := by
    rw [← hnow, retireList, hr]
    dsimp only
    rw [if_neg (by simp [he]), flushWrote_eq]
    generalize (flushWrote r s).2 = t
    rfl
  show execPlatenListRetire k u s = _
  rw [execPlatenListRetire, hretire]

/-! A list is suspended after its budget, and resumes (R91). -/

/-- The state once a list is suspended and counted, before it gives its claims up. -/
abbrev suspended (k u : Nat) (r : PltRun) (s : State) : State :=
  (s.setRun (64 * k + u) { r with suspended := true, preempted := true }).bump (PLT_CNT.COUNT 1) k

theorem exec_platenPreempt_over (hr : pltRun? s (64 * k + u) = some r) (he : r.ended = false) (hs : r.suspended = false)
    (hlate : r.budget + 4000 ≤ s.now) : exec (.platenPreempt k u) s = .next (releaseClaims k u r.list.part (suspended k u r s)) := by
  show execPlatenPreempt k u s = _
  rw [execPlatenPreempt, hr]
  exact if_neg (by simp [he, hs, pltBudgetNs]; omega)

theorem exec_platenPreempt_within (hr : pltRun? s (64 * k + u) = some r) (hlate : s.now < r.budget + 4000) :
    exec (.platenPreempt k u) s = .next s := by
  show execPlatenPreempt k u s = _
  rw [execPlatenPreempt, hr]
  exact if_pos (.inr (.inr hlate))

theorem exec_platenResume_suspended (hr : pltRun? s (64 * k + u) = some r) (hs : r.suspended = true) :
    exec (.platenResume k u) s = .next (pltStatus k (setClaims (64 * k + u) r.list.part (listRows r.list)
      (s.setRun (64 * k + u) { r with suspended := false, budget := s.now }))) := by
  show execPlatenResume k u s = _
  rw [execPlatenResume, hr]
  exact if_neg (by simp [hs])

/-! A hold that lasts too long is dropped (R97). -/

/-- A hold that was dropped: not held, and lost for its issuer. -/
abbrev PltHold.dropped (h : PltHold) : PltHold := { h with held := false, lost := some h.issuer, uncounted := false }

section
variable (h : PltHold) (hfree : h.held = false)
include hfree

theorem setHold_free (s : State) (g : Nat) : s.setHold g h =
    (leaveGang g { s with plt.holds := KMap.put {} s.plt.holds g h }).wr PLT_STS.HELD (g / 8)
      (setBits (s.rd PLT_STS.HELD (g / 8)) (g % 8) 1 0) := by
  rw [State.setHold, hfree]
  rfl

theorem setHold_free_rd {g k n : Nat} (hg : g < 64) (hk : k < 8) (s : State) :
    (s.setHold g h).rd (PLT_CNT.COUNT n) k = s.rd (PLT_CNT.COUNT n) k := by
  have hbase : (PLT_CNT.COUNT n).base ≠ PLT_STS.HELD.base := by
    simp only [Fld.base, PLT_CNT.COUNT, PLT_STS.HELD]
    omega
  rw [setHold_free h hfree, rd_wr_base _ _ hbase (by omega) (by omega)]
  rfl

theorem setHold_free_frame (s : State) (g : Nat) :
    { s.setHold g h with regs := s.regs, plt.holds := s.plt.holds, plt.freeAt := s.plt.freeAt } = s := by
  rw [setHold_free h hfree]
  rfl

end

theorem dropHold_held {g : Nat} (h : (pltHold s (8 * k + g)).held = true) : dropHold k g s =
    pltLog k ST.PHASE_LOST (8 * g) 255 (pltHold s (8 * k + g)).part 0
      ((s.setHold (8 * k + g) (pltHold s (8 * k + g)).dropped).bump (PLT_CNT.COUNT 4) k) := if_pos h

/-- A dropped hold changes the gang's press state, since when the gang is free, and registers alone. -/
theorem dropHold_effect {c : Nat} (hk : k < 8) (hc : c < 8) (h : (pltHold s (8 * k + c)).held = true) :
    pltHold (dropHold k c s) (8 * k + c) = (pltHold s (8 * k + c)).dropped ∧
    (dropHold k c s).rd (PLT_CNT.COUNT 4) k = min (2 ^ 32 - 1) (s.rd (PLT_CNT.COUNT 4) k + 1) ∧
    { dropHold k c s with regs := s.regs, plt.holds := s.plt.holds, plt.freeAt := s.plt.freeAt } = s := by
  rw [dropHold_held h]
  have hhold := pltHold_setHold s (8 * k + c) (pltHold s (8 * k + c)).dropped
  have hcount := setHold_free_rd (n := 4) (pltHold s (8 * k + c)).dropped rfl (show 8 * k + c < 64 by omega) hk s
  have hframe := setHold_free_frame (pltHold s (8 * k + c)).dropped rfl s (8 * k + c)
  generalize s.setHold (8 * k + c) (pltHold s (8 * k + c)).dropped = t at hhold hcount hframe ⊢
  have hbump : RegsOnly t (t.bump (PLT_CNT.COUNT 4) k) [(PLT_CNT.COUNT 4).key k] := .wr ..
  have hlog := (hbump.trans (pltLog_regs k ST.PHASE_LOST (8 * c) 255 (pltHold s (8 * k + c)).part 0 _)).1
  refine ⟨(congrArg (fun x => pltHold x (8 * k + c)) hlog).trans hhold, ?counted, ?frame⟩
  case frame =>
    have e := congrArg (fun x : State => { x with regs := s.regs, plt.holds := s.plt.holds, plt.freeAt := s.plt.freeAt }) hlog
    exact e.trans hframe
  case counted =>
    rw [rd_pltLog _ _ _ _ _ _ _ (by omega), rd_bump_self, hcount]
    rfl

theorem exec_phaseTmoExpire_late {c : Nat} (h : (pltHold s (8 * k + c)).held = true) (hin : inTime s k c = false)
    (hlate : s.rd PLT_CFG.PHASE_TMO k * 1000 < s.now - (pltHold s (8 * k + c)).since) :
    exec (.phaseTmoExpire k c) s = .next (gangsServe (dropHold k c s)) := if_pos ⟨h, by simp [hin], hlate⟩

theorem exec_phaseTmoExpire_inTime {c : Nat} (hin : inTime s k c = true) : exec (.phaseTmoExpire k c) s = .next s :=
  if_neg fun ⟨_, h, _⟩ => h hin

end

end Sys2Proof.Machine
open Sys2Proof Sys2Proof.Machine

/-- Settles O14: a submitted list is the first refusal or the queue's last (`pltArrive`); a started or resumed list, which claimed
nothing before, ends no wait by its claims (`claimed_frame`); one that retires or is suspended gives its claims up, and only the
accesses that waited on them write (`releaseClaims_shown`). -/
theorem platenListsQueueStartAndRetire : Obligations.PlatenListsQueueStartAndRetire := by
  unfold Obligations.PlatenListsQueueStartAndRetire
  refine ⟨fun s k iss hd ws st hpass => ⟨fun hok => ?queued, fun x hbad => ?refused⟩, fun s k iss hd ws st hwait => ?waits,
    fun s k u => ⟨fun h => ?noList, fun l h hnone => ?starts, fun l rest hq hu hfree hgang hwrite => ?first⟩,
    fun s k u r hk hr he hp => ?retires, fun s k u r hk hr he hs hp => ⟨fun hlate => ?preempted, fun hwithin => ?within⟩,
    fun s k u r hr hs hnone => ?resumes, fun s k c hk hc hheld hlate => ⟨fun hin => ?dropped, fun hin => ?inTime⟩,
    fun s k v => ⟨fun hgo => ?arms, fun hgo => ?unarmed⟩⟩
  case queued => exact ⟨_, submit_queued hpass hok⟩
  case refused => exact ⟨_, submit_refused hpass hbad⟩
  case waits =>
    obtain ⟨hline, hcount, hregs, hframe⟩ := regWait_effect (.list k iss hd ws st) s
    exact ⟨_, exec_platenListSubmit_waits hwait, hline, hcount, hregs, hframe⟩
  case noList => exact exec_platenListStart_none h
  case starts =>
    obtain ⟨hclaims, hregs, hframe⟩ := claimed_frame (k := k) (s := listRuns k u l s) hnone l.part (listRows l)
    have hqueue := congrArg (fun t => pltList t k) hframe
    have hrun := congrArg (fun t => pltRun? t (64 * k + u)) hframe
    have hmem := congrArg (·.mem) hframe
    have hrest := congrArg (fun t : State => { t with plt.queues := s.plt.queues, plt.runs := s.plt.runs }) hframe
    exact ⟨_, exec_platenListStart_some h, hqueue.trans (KMap.get_put_self ..), hrun.trans (pltRun?_setRun ..), hclaims, hmem, hregs, hrest⟩
  case first =>
    rw [hq]
    exact nextList_first hu hfree hgang hwrite
  case retires =>
    obtain ⟨hlines, hflushed⟩ := flushWrote_frame r s
    obtain ⟨-, hmem, hstk, hoff⟩ := retired_kept k u r (flushWrote r s).2
    obtain ⟨hplt, hclaims, hserved, hcounts⟩ := releaseClaims_shown (u := u) hk hp (retired k u r (flushWrote r s).2)
    refine ⟨_, exec_platenListRetire_ended hr he, ?_, fun hidle => ?_, hclaims, ?_⟩
    · rw [pltRun?, hplt]
      exact hoff
    · rw [hserved (by rw [State.stkUnit, hstk, hlines.stk]; exact hidle), hmem, hlines.mem]
    · rw [hcounts 0 (.inl rfl), retired_counted, hflushed.rd_base (by decide) (by omega)]
  case preempted =>
    obtain ⟨hplt, hclaims, hserved, hcounts⟩ := releaseClaims_shown (u := u) hk hp (suspended k u r s)
    refine ⟨_, exec_platenPreempt_over hr he hs hlate, ?_, ?_, hclaims, hserved⟩
    · rw [pltRun?, hplt]
      exact pltRun?_setRun ..
    · rw [hcounts 1 (.inr rfl), rd_bump_self, rd_setRun]
      rfl
  case within => exact exec_platenPreempt_within hr hwithin
  case resumes =>
    obtain ⟨hclaims, -, hframe⟩ :=
      claimed_frame (k := k) (s := s.setRun (64 * k + u) { r with suspended := false, budget := s.now }) hnone r.list.part (listRows r.list)
    have hrun := congrArg (fun t => pltRun? t (64 * k + u)) hframe
    have hrest := congrArg (fun t : State => { t with plt.runs := s.plt.runs }) hframe
    exact ⟨_, exec_platenResume_suspended hr hs, hrun.trans (pltRun?_setRun ..), hclaims, hrest⟩
  case dropped =>
    obtain ⟨hdropped, hcount, hframe⟩ := dropHold_effect hk hc hheld
    exact ⟨_, exec_phaseTmoExpire_late hheld hin hlate, by rw [hdropped], by rw [hdropped], hcount, hframe⟩
  case inTime => exact exec_phaseTmoExpire_inTime hin
  case arms => exact ⟨_, if_pos hgo, KMap.get_put_self 0 s.plt.inject _ 1, fun j hj => KMap.find?_put_other 0 s.plt.inject 1 hj, rfl⟩
  case unarmed => exact if_neg (by simp [hgo])
end

section
/-!
PROOFS. The galley (R105–R111): what a probe answers, the ways of a request through the galley, what the arrival of a line
changes, and the lines that an invalidation clears.
-/
namespace Sys2Proof.Machine

/-! Single bits, and other register fields of a unit. -/

theorem rd_wr_apart (s : State) {f g : Fld} (i v : Nat) (h : g.base ≠ f.base) : (s.wr f i v).rd g i = s.rd g i :=
  rd_wr_key s v (by rw [Fld.key_eq, Fld.key_eq]; omega)

/-- The cleared bit apart, a word keeps its bits. -/
theorem testBit_clrBit_other (w : Nat) {i j : Nat} (h : j ≠ i) : (clrBit w i).testBit j = w.testBit j := by
  have hl : w % 2 ^ i < 2 ^ i := Nat.mod_lt _ (Nat.two_pow_pos i)
  have hw : 2 ^ i * (w / 2 ^ i) + w % 2 ^ i = w := Nat.div_add_mod ..
  have hclr : clrBit w i = 2 ^ i * (2 * (w / 2 ^ i / 2)) + w % 2 ^ i := by
    have hbit : 2 ^ i * (w / 2 ^ i) = 2 ^ i * (2 * (w / 2 ^ i / 2)) + w / 2 ^ i % 2 * 2 ^ i := by
      rw [Nat.mul_comm (w / 2 ^ i % 2), ← Nat.mul_add, Nat.div_add_mod]
    simp only [clrBit, setBits, bits, pow_one, Nat.zero_mod, Nat.zero_mul, Nat.add_zero]
    omega
  have hsplit := Nat.testBit_two_pow_mul_add (w / 2 ^ i) hl j
  rw [hw] at hsplit
  rw [hclr, Nat.testBit_two_pow_mul_add _ hl, hsplit]
  split
  · rfl
  · obtain ⟨k, hk⟩ : ∃ k, j - i = k + 1 := ⟨j - i - 1, by omega⟩
    rw [hk, Nat.testBit_succ, Nat.testBit_succ, Nat.mul_div_cancel_left _ (by decide)]

/-! Probes (R105). -/

theorem galRegion_lt (off : Nat) : galRegion off < 4 := by
  have := offStack_lt off
  unfold galRegion
  omega

/-- The key of the line that way `w` holds for a request. -/
abbrev wayKey (q : GalReq) (w : Nat) : Nat := galKey (galRegion q.off) (galSet q.off) w

theorem galProbe_answers {s : State} {q : GalReq} {w : Nat} (h : galProbe s q = some w) :
    w < 16 ∧ lineMatches q (galLine s (wayKey q w)) = true ∧
      ((galLine s (wayKey q w)).part = q.part ∨ (q.part = 0 ∧ waySealed s (galRegion q.off) w = false)) := by
  unfold galProbe at h
  have hmatch := List.find?_some h
  simp only [Bool.and_eq_true, Bool.or_eq_true, beq_iff_eq, Bool.not_eq_true'] at hmatch
  exact ⟨List.mem_range.1 (List.mem_of_find?_eq_some h), hmatch⟩

theorem galRefused_part {s : State} {q : GalReq} (h : galRefused s q = true) : q.part = 0 := by
  simp only [galRefused, Bool.and_eq_true, beq_iff_eq] at h
  exact h.1.1

theorem lineMatches_iff (q : GalReq) (l : GalLine) : lineMatches q l = true ↔ l.valid = true ∧ l.tag = galTag q.off ∧
    l.slot = (if q.sealed then q.slot else 0) ∧ l.gen = (if q.sealed then q.gen else 0) := by
  simp only [lineMatches, Bool.and_eq_true, beq_iff_eq, and_assoc]

/-- `s` with the cycles counted that a request lost to others (R107). -/
abbrev conflictsCounted (q : GalReq) (rivals : List Nat) (s : State) : State :=
  s.bumpBy (GAL_CNT.COUNT 4) (galRegion q.off) (galConflicts q.off rivals)

section
variable (q : GalReq) (rivals : List Nat) (s : State)

theorem waySealed_counted {w : Nat} (hw : w < 16) :
    waySealed (conflictsCounted q rivals s) (galRegion q.off) w = waySealed s (galRegion q.off) w := by
  have hbase : ∀ w < 16, (GAL_WAY_OWNER.SEALED w).base ≠ (GAL_CNT.COUNT 4).base := by decide
  have hrd : (conflictsCounted q rivals s).rd (GAL_WAY_OWNER.SEALED w) (galRegion q.off) = s.rd (GAL_WAY_OWNER.SEALED w) (galRegion q.off) :=
    rd_wr_apart s _ _ (hbase w hw)
  rw [waySealed, waySealed, State.flag, State.flag, hrd]

theorem galProbe_counted : galProbe (conflictsCounted q rivals s) q = galProbe s q := by
  unfold galProbe
  refine List.find?_congr fun w hw => ?_
  rw [waySealed_counted q rivals s (List.mem_range.1 hw)]
  rfl

theorem galRefused_counted : galRefused (conflictsCounted q rivals s) q = galRefused s q := by
  unfold galRefused
  dsimp only
  rw [galProbe_counted]
  refine congrArg _ (Bool.eq_iff_iff.2 ?_)
  simp only [List.any_eq_true, Bool.and_eq_true]
  refine exists_congr fun w => and_congr_right fun hw => ?_
  rw [waySealed_counted q rivals s (List.mem_range.1 hw)]
  rfl

end

/-! The ways of a request (R105, R111). -/

/-- `s` with a request at the end of those that wait. -/
abbrev fillAwaited (e : GalReq × Nat) (s : State) : State := { s with gal.fills := s.gal.fills ++ [e] }

/-- `s` with a hit in way `w` counted, and the replacement tree pointed away from it (R106). -/
abbrev hitCounted (q : GalReq) (w : Nat) (s : State) : State :=
  galTouch (galRegion q.off) (galSet q.off) w (s.addWrap GAL_HIT.COUNT (galRegion q.off) 1)

section
variable {s : State} {q : GalReq} {w fails : Nat}

theorem galHit_refused (h : galRefused s q = true) :
    galHit q fails s = (some { status := ST.POISON }, 0, s.bump GUT_XPART_CNT.COUNT) := if_pos h

variable (h : galRefused s q = false)
include h

theorem galHit_miss (hp : galProbe s q = none) : galHit q fails s = (none, 0, s.addWrap GAL_MISS.COUNT (galRegion q.off) 1) := by
  simp only [galHit, h, hp, Bool.false_eq_true, if_false]

variable (hp : galProbe s q = some w)
include hp

theorem galHit_right (hcrc : crc32c (galLine s (wayKey q w)).data = (galLine s (wayKey q w)).crc) :
    galHit q 0 s = (some { data := some (galLine s (wayKey q w)).data }, 0, hitCounted q w s) := by
  simp only [galHit, h, hp, Bool.false_eq_true, if_false]
  exact if_pos ⟨trivial, hcrc⟩

theorem galHit_wrong (hbad : fails ≠ 0 ∨ crc32c (galLine s (wayKey q w)).data ≠ (galLine s (wayKey q w)).crc) :
    galHit q fails s = (none, max fails 1, galSpoil q w (hitCounted q w s)) := by
  simp only [galHit, h, hp, Bool.false_eq_true, if_false]
  exact if_neg fun hok => hbad.elim (· hok.1) (· hok.2)

end

section
variable {s u : State} {q : GalReq} {fails n : Nat} {rivals : List Nat} (hoff : q.off % 128 = 0)
include hoff

theorem exec_galleyRead_answers {o : GalOut} (h : galHit q fails (conflictsCounted q rivals s) = (some o, n, u)) :
    exec (.galleyRead q fails rivals) s = .next (u.emit (.readData q.part q.off (o.data.getD []) o.data.isNone o.status)) := by
  show execGalleyRead q fails rivals s = _
  simp only [execGalleyRead, hoff, Nat.sub_zero, h]

theorem exec_galleyRead_waits (h : galHit q fails (conflictsCounted q rivals s) = (none, n, u)) :
    exec (.galleyRead q fails rivals) s = .next (fillAwaited (q, n) u) := by
  show execGalleyRead q fails rivals s = _
  simp only [execGalleyRead, hoff, Nat.sub_zero, h]

end

/-! The counts of a region. -/

theorem rd_addWrap_self (s : State) (f : Fld) (i n : Nat) : (s.addWrap f i n).rd f i = (s.rd f i + n) % 2 ^ f.wd := rd_wr_self ..

theorem rd_addWrap_apart (s : State) {f g : Fld} (i n : Nat) (h : g.base ≠ f.base) : (s.addWrap f i n).rd g i = s.rd g i :=
  rd_wr_apart s i _ h

theorem rd_conflictsCounted (q : GalReq) (rivals : List Nat) (s : State) :
    (conflictsCounted q rivals s).rd (GAL_CNT.COUNT 4) (galRegion q.off) =
      min (2 ^ 32 - 1) (s.rd (GAL_CNT.COUNT 4) (galRegion q.off) + galConflicts q.off rivals) := rd_bumpBy_self ..

theorem rd_conflictsCounted_apart (q : GalReq) (rivals : List Nat) (s : State) {f : Fld} (h : f.base ≠ (GAL_CNT.COUNT 4).base) :
    (conflictsCounted q rivals s).rd f (galRegion q.off) = s.rd f (galRegion q.off) := rd_wr_apart s _ _ h

/-- A request that was counted in one more field of its region. -/
theorem conflictsCounted_addWrap_sameRegs (q : GalReq) (rivals : List Nat) (f : Fld) (s : State) :
    SameRegs s ((conflictsCounted q rivals s).addWrap f (galRegion q.off) 1) [f.key (galRegion q.off), (GAL_CNT.COUNT 4).key (galRegion q.off)] :=
  ((SameRegs.refl s _).andWr _ (by simp)).andWr _ (by simp)

/-! What a request changes. -/

theorem SameRegs.awaited {s t : State} {ks : List Nat} (h : SameRegs s t ks) (e : GalReq × Nat) : SameRegs s (fillAwaited e t) ks := h

theorem rd_fillAwaited (e : GalReq × Nat) (s : State) (f : Fld) (i : Nat) : (fillAwaited e s).rd f i = s.rd f i := rfl

theorem SameRegs.answered {s u : State} {ks : List Nat} {q : GalReq} (h : SameRegs s (u.addWrap GAL_HIT.COUNT (galRegion q.off) 1) ks)
    (w : Nat) (m : OutMsg) : SameRegs s ((hitCounted q w u).emit m) ks := h

theorem missed_frame {s u : State} (h : { u with regs := s.regs } = s) (e : GalReq × Nat) :
    { fillAwaited e u with regs := s.regs, gal.fills := s.gal.fills } = s :=
  (congrArg (fun x : State => { x with gal.fills := s.gal.fills }) h :)

section
variable {s u : State}

theorem hitCounted_frame (h : { u with regs := s.regs } = s) (q : GalReq) (w : Nat) :
    { hitCounted q w u with regs := s.regs, gal.plru := s.gal.plru } = s :=
  (congrArg (fun x : State => { x with gal.plru := s.gal.plru }) h :)

theorem refused_frame (h : { u with regs := s.regs } = s) (m : OutMsg) :
    { (u.bump GUT_XPART_CNT.COUNT).emit m with regs := s.regs, out := s.out } = s :=
  (congrArg (fun x : State => { x with out := s.out }) h :)

theorem rd_refused (q : GalReq) (rivals : List Nat) (m : OutMsg) (s : State) :
    (((conflictsCounted q rivals s).bump GUT_XPART_CNT.COUNT).emit m).rd GUT_XPART_CNT.COUNT =
      min (2 ^ 32 - 1) (s.rd GUT_XPART_CNT.COUNT + 1) := by
  have hother : (conflictsCounted q rivals s).rd GUT_XPART_CNT.COUNT = s.rd GUT_XPART_CNT.COUNT :=
    rd_wr_base s _ (by decide) (by decide) ((galRegion_lt q.off).trans (by decide))
  exact (rd_bump_self (conflictsCounted q rivals s) GUT_XPART_CNT.COUNT 0).trans (by rw [hother]; rfl)

variable (h : { u with regs := s.regs, gal.plru := s.gal.plru } = s)
include h

theorem answered_frame (m : OutMsg) : { u.emit m with regs := s.regs, out := s.out, gal.plru := s.gal.plru } = s := by
  have e := congrArg (fun x : State => { x with out := s.out }) h
  exact e

variable (q : GalReq) (w : Nat) (e : GalReq × Nat)

theorem spoiled_frame : { fillAwaited e (galSpoil q w u) with
    regs := s.regs, gal.fills := s.gal.fills, gal.lines := s.gal.lines, gal.plru := s.gal.plru } = s := by
  have hframe := congrArg (fun x : State => { x with gal.fills := s.gal.fills, gal.lines := s.gal.lines }) h
  exact hframe

theorem spoiled_fills : (fillAwaited e (galSpoil q w u)).gal.fills = s.gal.fills ++ [e] :=
  congrArg (·.gal.fills ++ [e]) h

theorem spoiled_lines : SameBut s.gal.lines (fillAwaited e (galSpoil q w u)).gal.lines (wayKey q w) := by
  have hlines : u.gal.lines = s.gal.lines := congrArg (·.gal.lines) h
  rw [← hlines]
  exact SameBut.put {} u.gal.lines _ _

end

theorem galLine_setLine (s : State) (k : Nat) (l : GalLine) : galLine (s.setLine k l) k = l := KMap.get_put_self ..

theorem spoiled_invalid (q : GalReq) (w : Nat) (e : GalReq × Nat) (s : State) :
    (galLine (fillAwaited e (galSpoil q w s)) (wayKey q w)).valid = false := by
  have hline : galLine (fillAwaited e (galSpoil q w s)) (wayKey q w) = { galLine s (wayKey q w) with valid := false } :=
    galLine_setLine (s.bump (GAL_CNT.COUNT 0) (galRegion q.off)) ..
  rw [hline]

theorem rd_galSpoil (q : GalReq) (w : Nat) (s : State) : (galSpoil q w s).rd (GAL_CNT.COUNT 0) (galRegion q.off) =
    min (2 ^ 32 - 1) (s.rd (GAL_CNT.COUNT 0) (galRegion q.off) + 1) := rd_bump_self ..

theorem rd_hitCounted_self (q : GalReq) (w : Nat) (s : State) : (hitCounted q w s).rd GAL_HIT.COUNT (galRegion q.off) =
    (s.rd GAL_HIT.COUNT (galRegion q.off) + 1) % 2 ^ 64 := rd_addWrap_self ..

theorem rd_hitCounted (q : GalReq) (w : Nat) (s : State) {f : Fld} (h : f.base ≠ GAL_HIT.COUNT.base) :
    (hitCounted q w s).rd f (galRegion q.off) = s.rd f (galRegion q.off) := rd_addWrap_apart s _ 1 h

/-! What the arrival of a line changes (R106, R108, R111). -/

/-- `t` with all that fills change as it is in `s`: register fields, records and free values, the tokens of the stack buckets, the
lines and the replacement trees. -/
def beforeFill (s t : State) : State :=
  { t with regs := s.regs, freeIx := s.freeIx, ras.handlers := s.ras.handlers, rea.stkTok := s.rea.stkTok,
           gal.lines := s.gal.lines, gal.plru := s.gal.plru }

/-- `t` is `s` after fills. -/
abbrev FillOnly (s t : State) : Prop := beforeFill s t = s

section
variable {s t u : State}

theorem FillOnly.refl (s : State) : FillOnly s s := rfl

theorem FillOnly.andWr (h : FillOnly s t) (f : Fld) (i v : Nat) : FillOnly s (t.wr f i v) := h

theorem FillOnly.andLine (h : FillOnly s t) (k : Nat) (l : GalLine) : FillOnly s (t.setLine k l) := h

theorem FillOnly.andTouch (h : FillOnly s t) (r set w : Nat) : FillOnly s (galTouch r set w t) := h

theorem FillOnly.trans (h : FillOnly s t) (g : FillOnly t u) : FillOnly s u := (congrArg (beforeFill s) g).trans h

theorem AfterReads.fillOnly (h : AfterReads s t) : FillOnly s t := by
  have e := congrArg (beforeFill s) h.frame
  exact e

theorem HandsOnly.fillOnly (h : HandsOnly s t) : FillOnly s t := by
  have e := congrArg (beforeFill s) h
  exact e

theorem FillOnly.kept (h : FillOnly s t) : t.mem = s.mem ∧ t.out = s.out ∧ t.gal.fills = s.gal.fills :=
  ⟨congrArg (·.mem) h, congrArg (·.out) h, congrArg (·.gal.fills) h⟩

end

theorem chargeBucket_fillOnly (p n : Nat) (s : State) : FillOnly s (chargeBucket false p n s) := by
  unfold chargeBucket
  split <;> rfl

theorem countRefusal_fillOnly (off status : Nat) (s : State) : FillOnly s (countRefusal off status s) := by
  unfold countRefusal
  split
  · rfl
  · split <;> rfl

theorem readUpper_fillOnly (part off len : Nat) (s : State) : FillOnly s (readUpper part off len s).2 := by
  have hcharge := chargeBucket_fillOnly part len s
  unfold readUpper
  dsimp only
  split
  · exact hcharge.trans (countRefusal_fillOnly ..)
  · exact hcharge.trans (readArray_after rfl).fillOnly

theorem poisonUse_fillOnly (h : Handler) (subsys unit : Nat) (part : Option Nat) (status addr : Nat) (s : State) :
    FillOnly s (poisonUse h subsys unit part status addr s) :=
  FillOnly.trans (t := s.bump (RAS_CNT.COUNT 5)) rfl (report_frame ..).fillOnly

/-- The line that a request fills with the bytes `d` (R106). -/
abbrev filledLine (q : GalReq) (d : Bytes) : GalLine :=
  { valid := true, tag := galTag q.off, part := q.part, slot := if q.sealed then q.slot else 0, gen := if q.sealed then q.gen else 0,
    data := d, crc := crc32c d }

/-- `s` with way `w` filled. -/
abbrev wayFilled (q : GalReq) (w : Nat) (d : Bytes) (s : State) : State :=
  galTouch (galRegion q.off) (galSet q.off) w ((s.addWrap GAL_FILL.COUNT (galRegion q.off) 1).setLine (wayKey q w) (filledLine q d))

section
variable {s u : State} {q : GalReq}

theorem galFill_shut (h : keyShut s q = true) : galFill q s = ({ status := ST.KEY_RETIRED }, none, s) := if_pos h

variable (h : keyShut s q = false)
include h

theorem galFill_poison (hd : lineData q s = (none, u)) : galFill q s = ({ status := readStatus s q.part q.off 128 }, none,
    poisonUse (.region (galRegion q.off)) 4 (galRegion q.off) (some q.part) (readStatus s q.part q.off 128) q.off u) := by
  simp only [galFill, h, hd, Bool.false_eq_true, if_false]

variable {d : Bytes} (hd : lineData q s = (some d, u))
include hd

theorem galFill_unplaced (hv : galVictim u q = none) :
    galFill q s = ({ data := some d }, none, u.bump (GAL_CNT.COUNT 3) (galRegion q.off)) := by
  simp only [galFill, h, hd, hv, Bool.false_eq_true, if_false]

theorem galFill_placed {w : Nat} (hv : galVictim u q = some w) : galFill q s = ({ data := some d }, some w, wayFilled q w d u) := by
  simp only [galFill, h, hd, hv, Bool.false_eq_true, if_false]

end

theorem galFill_fillOnly (q : GalReq) (s : State) : FillOnly s (galFill q s).2.2 := by
  cases hshut : keyShut s q
  case true =>
    rw [galFill_shut hshut]
    rfl
  case false =>
    have hread : FillOnly s (lineData q s).2 := readUpper_fillOnly ..
    obtain ⟨⟨d, u⟩, hd⟩ : ∃ x, lineData q s = x := ⟨_, rfl⟩
    rw [hd] at hread
    cases d with
    | none =>
      rw [galFill_poison hshut hd]
      exact hread.trans (poisonUse_fillOnly ..)
    | some d =>
      cases hv : galVictim u q with
      | none =>
        rw [galFill_unplaced hshut hd hv]
        exact hread.andWr ..
      | some w =>
        rw [galFill_placed hshut hd hv]
        exact ((hread.andWr ..).andLine ..).andTouch ..

theorem galBad_fillOnly (q : GalReq) (w : Nat) (s : State) : FillOnly s (galBad q w s) :=
  (((((((FillOnly.refl s).andWr _ _ _).andWr _ _ _).andWr _ _ _).andWr _ _ _).andWr _ _ _).andWr _ _ _).andLine _ _
    |>.trans (report_frame ..).fillOnly

theorem galArrive_fillOnly (q : GalReq) (fails : Nat) (s : State) : FillOnly s (galArrive q fails s).2 := by
  have hfill := galFill_fillOnly q s
  unfold galArrive
  split
  next o w t h =>
    rw [h] at hfill
    split
    · split
      · exact hfill
      · exact hfill.trans (report_frame ..).fillOnly
    · exact hfill.trans (galBad_fillOnly ..)
  next o t h =>
    rw [h] at hfill
    exact hfill

/-! The oldest request that waits. -/

/-- `s` with the oldest request taken from those that wait. -/
abbrev fillTaken (q : GalReq) (rest : List (GalReq × Nat)) (s : State) : State := unstall (fillCmd q) { s with gal.fills := rest }

theorem exec_galleyFill_first {s t : State} {q : GalReq} {n : Nat} {rest : List (GalReq × Nat)} {o : GalOut}
    (hf : s.gal.fills = (q, n) :: rest) (hw : fillWaits (fillCmd q) q s = none) (h : galArrive q n (fillTaken q rest s) = (o, t)) :
    exec .galleyFill s = .next (t.emit (.readData q.part q.off (o.data.getD []) o.data.isNone o.status)) := by
  have hfirst : s.gal.fills.find? (fun e => (fillWaits (fillCmd e.1) e.1 s).isNone) = some (q, n) := by
    rw [hf, List.find?_cons_of_pos (by rw [hw]; rfl)]
  have hrest : s.gal.fills.erase (q, n) = rest := by rw [hf, List.erase_cons_head]
  show execGalleyFill s = _
  simp only [execGalleyFill, hfirst, hrest, h]

theorem exec_galleyFill_idle {s : State} (hf : s.gal.fills = []) : exec .galleyFill s = .next s := by
  show execGalleyFill s = _
  rw [execGalleyFill, hf]
  rfl

/-! Lines that read clean (R108). -/

/-- The bytes of `n` sectors from an offset that read clean. -/
def cleanBytes (s : State) (base n : Nat) : Bytes := (List.range n).flatMap fun i => sectorBytes s (base + 32 * i)

theorem readMarks_clean {s : State} {n base : Nat} (h : ∀ i < n, CleanSector s (base + 32 * i)) (part : Nat) :
    readMarks n part base s = ((List.range n).map fun i => some (sectorBytes s (base + 32 * i)), s) := by
  induction n generalizing base with
  | zero => rfl
  | succ n ih =>
    have hshift (i : Nat) : base + 32 + 32 * i = base + 32 * (i + 1) := by omega
    have hrest := ih (base := base + 32) fun i hi => by rw [hshift]; exact h (i + 1) (by omega)
    have hfirst : readSector s base = (.data (sectorBytes s base), s) := readSector_clean (h 0 (by omega))
    simp only [readMarks, hfirst, countRead, hrest, hshift, SectorRead.bytes, List.range_succ_eq_map, List.map_cons, List.map_map]
    rfl

theorem joinMarks_clean (s : State) (off len base n : Nat) :
    joinMarks off len ((List.range n).map fun i => some (sectorBytes s (base + 32 * i))) =
      some (((cleanBytes s base n).drop (off % 32)).take len) := by
  have hall : ((List.range n).map fun i => some (sectorBytes s (base + 32 * i))).mapM id =
      some ((List.range n).map fun i => sectorBytes s (base + 32 * i)) := by
    rw [mapM_eq_some_iff, List.map_map, List.map_map]
    rfl
  rw [joinMarks, hall, cleanBytes, List.flatMap_def]
  rfl

theorem getElem?_cleanBytes {s : State} {base n j : Nat} (hbase : base % 32 = 0) (h : ∀ i < n, CleanSector s (base + 32 * i))
    (hj : j < 32 * n) : (cleanBytes s base n)[j]? = s.byteAt (locOf s (base + j)) := by
  have hcells (i : Nat) (hi : i < n) := cells_eq_some_iff.1 (cells_sectorBytes (h i hi))
  have hq : j / 32 < n := by omega
  have hr : j % 32 < 32 := Nat.mod_lt _ (by decide)
  rw [cleanBytes, getElem?_flatMap_blocks (by decide) _ fun i hi => (hcells i (List.mem_range.1 hi)).1, List.getElem?_range hq,
    show base + j = base + 32 * (j / 32) + j % 32 by omega, locOf_add s (by omega) hr, (hcells _ hq).2 _ hr]
  rfl

theorem length_cleanBytes {s : State} {base n : Nat} (h : ∀ i < n, CleanSector s (base + 32 * i)) : (cleanBytes s base n).length = 32 * n := by
  have hlen : (List.range n).map (fun i => (sectorBytes s (base + 32 * i)).length) = (List.range n).map fun _ => 32 :=
    List.map_congr_left fun i hi => length_of_cells (cells_sectorBytes (h i (List.mem_range.1 hi)))
  rw [cleanBytes, List.length_flatMap, hlen, List.map_const', List.sum_replicate, List.length_range, smul_eq_mul, Nat.mul_comm]

/-- A line's bytes, of which each stands at the location of its offset. -/
abbrev LineBytes (s : State) (off : Nat) (d : Bytes) : Prop := d.length = 128 ∧ ∀ i < 128, d[i]? = s.byteAt (locOf s (off + i))

theorem readArray_clean {s : State} {off : Nat} (h : ∀ b ∈ sectorsOf off 128, CleanSector s b) (part : Nat) :
    ∃ d, readArray part off 128 s = (some d, s) ∧ LineBytes s off d := by
  have hsector : ∀ i < (off + 128 + 31) / 32 - off / 32, CleanSector s (off - off % 32 + 32 * i) :=
    fun i hi => h _ (List.mem_map.2 ⟨i, List.mem_range.2 hi, rfl⟩)
  have hread := readMarks_clean hsector part
  have harray : readArray part off 128 s =
      (some (((cleanBytes s (off - off % 32) ((off + 128 + 31) / 32 - off / 32)).drop (off % 32)).take 128), s) := by
    rw [← joinMarks_clean, readArray, readCover, hread]
  refine ⟨_, harray, ?_, fun i hi => ?_⟩
  · rw [List.length_take, List.length_drop, length_cleanBytes hsector]
    omega
  · rw [List.getElem?_take_of_lt hi, List.getElem?_drop, getElem?_cleanBytes (by omega) hsector (by omega),
      show off - off % 32 + (off % 32 + i) = off + i by omega]

/-- `u` is `s` after a waiting request was taken, and charged to its bucket. -/
abbrev TurnTaken (s u : State) : Prop := { u with rea := s.rea, gal.fills := s.gal.fills } = s

theorem turnTaken_charged (q : GalReq) (rest : List (GalReq × Nat)) (s : State) :
    TurnTaken s (chargeBucket false q.part 128 (fillTaken q rest s)) := by
  unfold chargeBucket
  split <;> rfl

section
variable {s u : State} (h : TurnTaken s u)
include h

theorem TurnTaken.regs : u.regs = s.regs := congrArg (·.regs) h

theorem TurnTaken.lines : u.gal.lines = s.gal.lines := congrArg (·.gal.lines) h

theorem TurnTaken.clean {b : Nat} (hb : CleanSector s b) : CleanSector u b := by
  rw [← h] at hb
  exact hb

theorem TurnTaken.lineBytes {off : Nat} {d : Bytes} (hd : LineBytes u off d) : LineBytes s off d := by
  rw [← h]
  exact hd

theorem TurnTaken.victim (q : GalReq) : galVictim u q = galVictim s q := by
  have e := congrArg (galVictim · q) h
  exact e

end

/-- A miss of an unsealed line whose sectors read clean fills the way chosen (R106, R108). -/
theorem galArrive_clean {s u : State} {q : GalReq} {rest : List (GalReq × Nat)} {w : Nat}
    (hu : chargeBucket false q.part 128 (fillTaken q rest s) = u) (hopen : q.sealed = false) (hok : accessRefusal s q.part q.off 128 = none)
    (hclean : ∀ b ∈ sectorsOf q.off 128, CleanSector s b) (hv : galVictim s q = some w) :
    ∃ d, LineBytes s q.off d ∧ galArrive q 0 (fillTaken q rest s) = ({ data := some d }, wayFilled q w d u) := by
  have hturn : TurnTaken s u := hu ▸ turnTaken_charged q rest s
  obtain ⟨d, hread, hd⟩ := readArray_clean (fun b hb => hturn.clean (hclean b hb)) q.part
  have hupper : readUpper q.part q.off 128 (fillTaken q rest s) = (some d, u) := by
    simp only [readUpper, hu, (accessRefusal_congr hturn.regs q.part q.off 128).trans hok, hread]
  have hline : lineData q (fillTaken q rest s) = (some d, u) := by
    simp only [lineData, hupper, hopen, Option.map_some, Bool.false_eq_true, if_false]
  have hshut : keyShut (fillTaken q rest s) q = false := by rw [keyShut, hopen, Bool.false_and]
  refine ⟨d, hturn.lineBytes hd, ?_⟩
  rw [galArrive, galFill_placed hshut hline ((hturn.victim q).trans hv)]
  rfl

/-- What a filled way shows: its line, and its count. -/
theorem wayFilled_effect (q : GalReq) (w : Nat) (d : Bytes) {s u : State} (h : TurnTaken s u) :
    galLine (wayFilled q w d u) (wayKey q w) = filledLine q d ∧ SameBut s.gal.lines (wayFilled q w d u).gal.lines (wayKey q w) ∧
    (wayFilled q w d u).rd GAL_FILL.COUNT (galRegion q.off) = (s.rd GAL_FILL.COUNT (galRegion q.off) + 1) % 2 ^ 64 ∧
    SameRegs s (wayFilled q w d u) [GAL_FILL.COUNT.key (galRegion q.off)] := by
  have hcount : (wayFilled q w d u).rd GAL_FILL.COUNT (galRegion q.off) = (u.rd GAL_FILL.COUNT (galRegion q.off) + 1) % 2 ^ 64 :=
    rd_addWrap_self ..
  have hregs : SameRegs s (u.addWrap GAL_FILL.COUNT (galRegion q.off) 1) [GAL_FILL.COUNT.key (galRegion q.off)] :=
    (SameRegs.of_regs h.regs _).andWr _ (by simp)
  have hlines : (wayFilled q w d u).gal.lines = KMap.put {} s.gal.lines (wayKey q w) (filledLine q d) := by
    rw [← h.lines]
    rfl
  refine ⟨?_, ?_, hcount.trans (by rw [rd_congr h.regs]), hregs⟩
  · rw [galLine, hlines]
    exact KMap.get_put_self ..
  · rw [hlines]
    exact SameBut.put {} s.gal.lines _ _

theorem emit_unsent {s t : State} (h : t.out = s.out) (m : OutMsg) : { t.emit m with out := s.out } = t := by
  rw [← h]
  rfl

/-! Invalidations (R110). -/

section
variable {r : Nat} {p : Nat → GalLine → Bool} {s : State}

theorem galDrop_invalid {e : Nat × GalLine} (he : e ∈ (galDrop r p s).gal.lines) (hr : e.1 / 262144 = r) (hp : p (e.1 % 16) e.2 = true) :
    e.2.valid = false := by
  obtain ⟨x, -, rfl⟩ := List.mem_map.1 he
  by_cases hx : x.1 / (16384 * 16) = r ∧ p (x.1 % 16) x.2 = true
  · rw [if_pos hx]
  · rw [if_neg hx] at hr hp
    exact absurd ⟨hr, hp⟩ hx

theorem galDrop_keeps {e : Nat × GalLine} (he : e ∈ s.gal.lines) (hno : ¬ (e.1 / 262144 = r ∧ p (e.1 % 16) e.2 = true)) :
    e ∈ (galDrop r p s).gal.lines := List.mem_map.2 ⟨e, he, if_neg hno⟩

theorem galDrop_length : (galDrop r p s).gal.lines.length = s.gal.lines.length := List.length_map ..

end

/-- What an invalidation of an idle region shows: BUSY, the lines that it selects without their valid bits, the others as they were. -/
structure Invalidated (r : Nat) (p : GalLine → Bool) (s t : State) : Prop where
  busy : t.rd GAL_INV_STS.BUSY r = 1
  cleared : ∀ e ∈ t.gal.lines, e.1 / 262144 = r → p e.2 = true → e.2.valid = false
  kept : ∀ e ∈ s.gal.lines, ¬ (e.1 / 262144 = r ∧ p e.2 = true) → e ∈ t.gal.lines
  count : t.gal.lines.length = s.gal.lines.length
  regs : SameRegs s t [GAL_INV_STS.BUSY.key r]
  frame : { t with regs := s.regs, gal.lines := s.gal.lines } = s

theorem galInv_idle {r : Nat} {s : State} (h : s.flag GAL_INV_STS.BUSY r = false) (p : GalLine → Bool) : Invalidated r p s (galInv r p s) := by
  rw [galInv, h, if_neg Bool.false_ne_true]
  exact ⟨rd_wr_self s GAL_INV_STS.BUSY r 1, fun e he hr hp => galDrop_invalid he hr hp, fun e he hno => galDrop_keeps he hno, galDrop_length,
    SameRegs.wr s GAL_INV_STS.BUSY r 1, rfl⟩

theorem galInv_busy {r : Nat} {s : State} (h : s.flag GAL_INV_STS.BUSY r = true) (p : GalLine → Bool) : galInv r p s = s := if_pos h

theorem exec_galInvDone_idle {r : Nat} {s : State} (h : s.flag GAL_INV_STS.BUSY r = false) : exec (.galInvDone r) s = .next s :=
  if_neg (by simp [h])

theorem exec_galInvDone_busy {r : Nat} {s : State} (h : s.flag GAL_INV_STS.BUSY r = true) :
    exec (.galInvDone r) s = .next ((s.wr GAL_INV_STS.BUSY r 0).wr GAL_INV_STS.DONE r 1) := if_pos h

theorem rd_galWayOff (r w : Nat) (s : State) : (galWayOff r w s).rd GAL_WAY_EN.EN r = clrBit (s.rd GAL_WAY_EN.EN r) w % 2 ^ 16 := rd_wr_self ..

theorem wayEnabled_galWayOff_self (r w : Nat) (s : State) : wayEnabled (galWayOff r w s) r w = false := by
  rw [wayEnabled, rd_galWayOff, bitOf_eq_testBit, Nat.testBit_mod_two_pow, testBit_clrBit_self, Bool.and_false]

theorem wayEnabled_galWayOff_other {v w : Nat} (hv : v < 16) (hne : v ≠ w) (r : Nat) (s : State) :
    wayEnabled (galWayOff r w s) r v = wayEnabled s r v := by
  rw [wayEnabled, rd_galWayOff, bitOf_eq_testBit, Nat.testBit_mod_two_pow, testBit_clrBit_other _ hne, decide_eq_true hv, Bool.true_and,
    wayEnabled, bitOf_eq_testBit]

end Sys2Proof.Machine

open Sys2Proof Sys2Proof.Machine

/-- Settles O17: a request by what its probe finds (`galHit`), the oldest that waits by what the arrival of its line changes
(`galArrive_fillOnly`, `galArrive_clean`), and an invalidation by the lines that it drops. -/
theorem galleyServesOnlyItsOwner : Obligations.GalleyServesOnlyItsOwner := by
  unfold Obligations.GalleyServesOnlyItsOwner
  refine ⟨fun s q w h => ?answers, fun s q rivals hoff hr => ⟨fun w hp hcrc => ?hits, fun w fails hp hbad => ?spoils, fun fails hp => ?misses⟩,
    fun s q fails rivals hoff hr => ?refuses, fun s q n rest hf hw => ?fills, fun s => exec_galleyFill_idle, fun s r p k hidle => ?invalidates,
    fun s r p k hbusy => ?completes, fun s r w hw => ?disables⟩
  case answers =>
    obtain ⟨hlt, hmatch, hpart⟩ := galProbe_answers h
    obtain ⟨hvalid, htag, hslot, hgen⟩ := (lineMatches_iff ..).1 hmatch
    exact ⟨hlt, hvalid, htag, hpart, hslot, hgen⟩
  case hits =>
    have hhit := galHit_right (s := conflictsCounted q rivals s) ((galRefused_counted ..).trans hr) ((galProbe_counted ..).trans hp) hcrc
    refine ⟨_, exec_galleyRead_answers hoff hhit, rfl, ?_, ?_,
      (conflictsCounted_addWrap_sameRegs q rivals GAL_HIT.COUNT s).answered w _, answered_frame (hitCounted_frame rfl q w) _⟩
    · rw [emit_rd, rd_hitCounted_self, rd_conflictsCounted_apart q rivals s (by decide)]
    · rw [emit_rd, rd_hitCounted q w _ (by decide), rd_conflictsCounted]
  case spoils =>
    have hhit := galHit_wrong (s := conflictsCounted q rivals s) ((galRefused_counted ..).trans hr) ((galProbe_counted ..).trans hp) hbad
    have hframe := hitCounted_frame (s := s) (u := conflictsCounted q rivals s) rfl q w
    refine ⟨_, exec_galleyRead_waits hoff hhit, spoiled_fills hframe q w _, ?_, spoiled_invalid .., spoiled_lines hframe q w _,
      spoiled_frame hframe q w _⟩
    rw [rd_fillAwaited, rd_galSpoil, rd_hitCounted q w _ (by decide), rd_conflictsCounted_apart q rivals s (by decide)]
  case misses =>
    have hhit := galHit_miss (s := conflictsCounted q rivals s) (fails := fails) ((galRefused_counted ..).trans hr) ((galProbe_counted ..).trans hp)
    refine ⟨_, exec_galleyRead_waits hoff hhit, rfl, ?_, ?_, (conflictsCounted_addWrap_sameRegs q rivals GAL_MISS.COUNT s).awaited _,
      missed_frame rfl _⟩
    · rw [rd_fillAwaited, rd_addWrap_self, rd_conflictsCounted_apart q rivals s (by decide)]
      rfl
    · rw [rd_fillAwaited, rd_addWrap_apart _ _ _ (by decide), rd_conflictsCounted]
  case refuses =>
    have hhit := galHit_refused (s := conflictsCounted q rivals s) (fails := fails) ((galRefused_counted ..).trans hr)
    exact ⟨_, exec_galleyRead_answers hoff hhit, rfl, galRefused_part hr, rd_refused q rivals _ s, refused_frame rfl _⟩
  case fills =>
    have hfill := galArrive_fillOnly q n (fillTaken q rest s)
    obtain ⟨hmem, hout, hfills⟩ := hfill.kept
    obtain ⟨o, t, harr⟩ : ∃ o t, galArrive q n (fillTaken q rest s) = (o, t) := ⟨_, _, rfl⟩
    rw [harr] at hmem hout hfills
    refine ⟨_, o, exec_galleyFill_first hf hw harr, hfills, hmem, harr.trans (congrArg (Prod.mk o) (emit_unsent hout _).symm),
      congrArg (_ :: ·) hout, ?_⟩
    rintro w rfl hopen hok hclean hv
    obtain ⟨d, ⟨hlen, hbytes⟩, hplaced⟩ := galArrive_clean rfl hopen hok hclean hv
    obtain ⟨rfl, ht⟩ := Prod.mk.inj (harr.symm.trans hplaced)
    obtain ⟨hline, hlines, hcount, hregs⟩ := wayFilled_effect q w d (turnTaken_charged q rest s)
    rw [← ht] at hline hlines hcount hregs
    refine ⟨d, rfl, hlen, hbytes, hline.trans ?_, hlines, hcount, hregs⟩
    rw [filledLine, hopen]
    rfl
  case invalidates =>
    have hall := galInv_idle hidle fun _ => true
    have hpart := galInv_idle hidle fun l => l.part == p
    have hslot := galInv_idle hidle fun l => l.slot == k
    refine ⟨exec_galInvDone_idle hidle, ⟨_, rfl, hall.busy, ?_, ?_, hall.count, hall.regs, hall.frame⟩,
      ⟨_, rfl, hpart.busy, ?_, ?_, hpart.regs, hpart.frame⟩, ⟨_, rfl, hslot.busy, ?_, ?_, hslot.regs, hslot.frame⟩⟩
    · exact fun e he hr => hall.cleared e he hr rfl
    · exact fun e he hr => hall.kept e he fun h => hr h.1
    · exact fun e he hr hp => hpart.cleared e he hr (beq_iff_eq.2 hp)
    · exact fun e he hno => hpart.kept e he fun h => hno ⟨h.1, beq_iff_eq.1 h.2⟩
    · exact fun e he hr hk => hslot.cleared e he hr (beq_iff_eq.2 hk)
    · exact fun e he hno => hslot.kept e he fun h => hno ⟨h.1, beq_iff_eq.1 h.2⟩
  case completes =>
    refine ⟨congrArg Host.Outcome.next (galInv_busy hbusy _), congrArg Host.Outcome.next (galInv_busy hbusy _),
      congrArg Host.Outcome.next (galInv_busy hbusy _), _, exec_galInvDone_busy hbusy, ?_, rd_wr_self .., (RegsOnly.wr s _ _ _).andWr _ _ _⟩
    exact (rd_wr_apart _ _ _ (by decide)).trans (rd_wr_self ..)
  case disables =>
    refine ⟨_, if_pos hw, wayEnabled_galWayOff_self r w s, fun v hv hne => wayEnabled_galWayOff_other hv hne r s,
      fun e he hr hway => galDrop_invalid he hr (beq_iff_eq.2 hway), fun e he hno => galDrop_keeps he fun h => hno ⟨h.1, beq_iff_eq.1 h.2⟩,
      SameRegs.wr s GAL_WAY_EN.EN r _, rfl⟩
end

section
/-!
PROOFS. A block's control (R115, R116, R118, R121, R176): what the start of a composition changes, the watchdog's stop, the lift of a
fence, and an armed mismatch.
-/
namespace Sys2Proof.Machine

/-! A block's state. -/

@[simp] theorem blk_setBlk (s : State) (b : Nat) (x : BlkSt) : (s.setBlk b x).blk b = x := KMap.get_put_self ..

/-! Counts of folios (R176). -/

/-- `t` differs from `s` in the folio unit's records of folios alone. -/
abbrev FoliosOnly (s t : State) : Prop := { t with flo.folios := s.flo.folios } = s

theorem addOutst_foliosOnly {s t : State} (h : FoliosOnly s t) (f : FSlot) : FoliosOnly s (addOutst f t) := by
  unfold addOutst
  split
  · exact h
  · exact h

theorem outst_addOutst_self {f : FSlot} (h : f.folio ≠ 0) (s : State) :
    ((addOutst f s).folio f.folio).outst = (s.folio f.folio).outst + 1 := by
  rw [addOutst, if_neg h, folio_setFolio_self]

theorem folio_addOutst_other {f : FSlot} {g : Nat} (h : g ≠ f.folio) (s : State) : (addOutst f s).folio g = s.folio g := by
  unfold addOutst
  split
  · rfl
  · exact folio_setFolio_other s _ h

/-- `s` with the count of each folio of a composition raised. -/
abbrev slotsCounted (l : List FSlot) (s : State) : State := l.foldl (fun s f => addOutst f s) s

theorem slotsCounted_foliosOnly (l : List FSlot) (s : State) : FoliosOnly s (slotsCounted l s) :=
  foldl_invariant (I := FoliosOnly s) (fun _ f _ ht => addOutst_foliosOnly ht f) rfl

theorem outst_slotsCounted {l : List FSlot} (hl : (l.map (·.folio)).Nodup) {g : Nat} (hg : g ∈ l.map (·.folio)) (h : g ≠ 0) (s : State) :
    ((slotsCounted l s).folio g).outst = (s.folio g).outst + 1 := by
  obtain ⟨f, hf, rfl⟩ := List.mem_map.1 hg
  have hne {x : FSlot} (hx : x ∈ l) (hxf : x ≠ f) : f.folio ≠ x.folio := fun he => hxf (List.inj_on_of_nodup_map hl hx hf he.symm)
  exact foldl_at (f := fun s f => addOutst f s) (J := fun t => t.folio f.folio = s.folio f.folio)
    (Q := fun t => (t.folio f.folio).outst = (s.folio f.folio).outst + 1) (List.Nodup.of_map _ hl) hf
    (fun t x hx hxf ht => (folio_addOutst_other (hne hx hxf) t).trans ht) (fun t ht => by rw [outst_addOutst_self h, ht])
    (fun t x hx hxf ht => by rw [folio_addOutst_other (hne hx hxf), ht]) rfl

/-! Idle warm cycles (Table 9.2). -/

/-- The register fields that a block's warm cycles are charged to. -/
abbrev warmKeys (s : State) (b : Nat) : List Nat :=
  (blockOwner s b).toList.flatMap fun p => [(REAM_PACCT.VALUE 8).key p, (REAM_PACCT.VALUE 9).key p]

theorem chargeOver_charges {s t : State} (h : ChargesOnly s t) (p : Nat) (i : Item) (n : Nat) : ChargesOnly s (chargeOver p i n t) := h

theorem chargePart_warm_sameRegs {s t : State} {p : Nat} {ks : List Nat} (h : SameRegs s t ks) (h8 : (REAM_PACCT.VALUE 8).key p ∈ ks)
    (h9 : (REAM_PACCT.VALUE 9).key p ∈ ks) (n : Nat) (boost : Bool) : SameRegs s (chargePart p .warm n boost t) ks := by
  have hcount : SameRegs s (t.addWrap (REAM_PACCT.VALUE 9) p n) ks := h.andWr _ h9
  unfold chargePart
  dsimp only
  generalize hu : State.mk .. = u
  have hsame : SameRegs s u ks := hu ▸ hcount
  exact hsame.andWr _ h8

theorem chargeOver_warm_sameRegs {s t : State} {p : Nat} {ks : List Nat} (h : SameRegs s t ks) (h8 : (REAM_PACCT.VALUE 8).key p ∈ ks)
    (h9 : (REAM_PACCT.VALUE 9).key p ∈ ks) (n : Nat) : SameRegs s (chargeOver p .warm n t) ks := by
  unfold chargeOver
  dsimp only
  generalize hu : { t with rea.rest := _ } = u
  have hsame : SameRegs s u ks := hu ▸ h
  exact chargePart_warm_sameRegs hsame h8 h9 n false

/-- Settling a block's warm cycles charges them to its owner. -/
theorem settleWarm_frame (b : Nat) (s : State) : ChargesOnly s (settleWarm b s) ∧ SameRegs s (settleWarm b s) (warmKeys s b) := by
  unfold settleWarm
  dsimp only
  split
  · generalize hu : { s with rea.idleAt := _ } = u
    have hframe : ChargesOnly s u := hu ▸ rfl
    have hregs : SameRegs s u (warmKeys s b) := hu ▸ SameRegs.refl s _
    have howner : blockOwner u b = blockOwner s b := hu ▸ rfl
    rw [howner]
    cases hp : blockOwner s b with
    | none => exact ⟨hframe, fun _ _ => hregs _ (by simp [hp])⟩
    | some p =>
      have hkeys : (REAM_PACCT.VALUE 8).key p ∈ warmKeys s b ∧ (REAM_PACCT.VALUE 9).key p ∈ warmKeys s b := by simp [hp]
      dsimp only
      split
      · exact ⟨hframe, hregs⟩
      · exact ⟨chargeOver_charges hframe .., chargeOver_warm_sameRegs hregs hkeys.1 hkeys.2 _⟩
  · exact ⟨rfl, .refl s _⟩

/-! The start of a composition (R121, R176). -/

/-- `t` with all that the start of a composition changes before it takes its block as it is in `s`: charges, the access times of
runs and the counts of folios. -/
def beforeStart (s t : State) : State := { t with regs := s.regs, rea := s.rea, flo.folios := s.flo.folios, flo.runs := s.flo.runs }

/-- `t` differs from `s` in the access times of runs alone. -/
abbrev RunsOnly (s t : State) : Prop := { t with flo.runs := s.flo.runs } = s

/-- A composition with its folio slots as they stand at its dispatch. -/
def refreshed (s : State) (c : Comp) : Comp :=
  if c.append then c
  else { c with slots := c.slots.map (refreshSlot s (((s.att? c.att).map fun a => (slotOf a.ticket c.slot).kvLen).getD 0)) }

theorem refreshed_kept (s : State) (c : Comp) :
    (refreshed s c).att = c.att ∧ (refreshed s c).slot = c.slot ∧ (refreshed s c).entry = c.entry := by
  unfold refreshed
  split <;> exact ⟨rfl, rfl, rfl⟩

theorem refreshSlot_folio (s : State) (kv : Nat) (f : FSlot) : (refreshSlot s kv f).folio = f.folio := by
  unfold refreshSlot
  split <;> rfl

theorem refreshed_folios (s : State) (c : Comp) : (refreshed s c).slots.map (·.folio) = c.slots.map (·.folio) := by
  unfold refreshed
  split
  · rfl
  · rw [List.map_map]
    exact List.map_congr_left fun f _ => refreshSlot_folio s _ f

/-- A block that has taken a composition. -/
abbrev BlkSt.taken (x : BlkSt) (c : Comp) (rest : List Comp) (now : Nat) : BlkSt :=
  { x with cur := some c, queue := rest, pc := c.entry, start := now, cycles := 0, strict := false, repeats := 0, emitted := [], press := [],
           waited := false }

/-- `s` with composition `c` running on a block. -/
abbrev compRuns (b : Nat) (c : Comp) (rest : List Comp) (s : State) : State :=
  (s.setBlk b ((s.blk b).taken c rest s.now)).wr CMP_SEQ_STS.STATE b 1

theorem startComp_eq (b : Nat) (c : Comp) (rest : List Comp) (s : State) : ∃ u, RunsOnly (settleWarm b s) u ∧
    startComp b c rest s = compRuns b (refreshed s c) rest (slotsCounted (refreshed s c).slots u) := by
  unfold startComp
  dsimp only
  refine ⟨_, ?_, rfl⟩
  split
  · split <;> rfl
  · rfl

/-- The state in which a composition takes its block. -/
structure Starting (s : State) (b : Nat) (l : List FSlot) (t : State) : Prop where
  frame : beforeStart s t = s
  regs : SameRegs s t (warmKeys s b)
  counts : (l.map (·.folio)).Nodup → ∀ g ∈ l.map (·.folio), g ≠ 0 → (t.folio g).outst = (s.folio g).outst + 1

theorem slotsCounted_starting {s u : State} {b : Nat} (hu : RunsOnly (settleWarm b s) u) (l : List FSlot) :
    Starting s b l (slotsCounted l u) := by
  obtain ⟨hcharges, hwarm⟩ := settleWarm_frame b s
  have hfolios := slotsCounted_foliosOnly l u
  have hframe : beforeStart s u = s :=
    (congrArg (beforeStart s) hu).trans (congrArg (fun x : State => { x with flo.folios := s.flo.folios, flo.runs := s.flo.runs }) hcharges)
  have hregs : u.regs = (settleWarm b s).regs := congrArg (·.regs) hu
  have hsame : u.flo.folios = s.flo.folios := (congrArg (·.flo.folios) hu).trans (congrArg (·.flo.folios) hcharges)
  refine ⟨(congrArg (beforeStart s) hfolios).trans hframe, hwarm.andThen (.of_regs ?_ _), fun hl g hg h => ?_⟩
  · exact (congrArg (·.regs) hfolios).trans hregs
  · rw [outst_slotsCounted hl hg h, State.folio, State.folio, hsame]

section
variable {s t : State} {b : Nat} {l : List FSlot} (h : Starting s b l t)
include h

theorem Starting.now : t.now = s.now := congrArg (·.now) h.frame

theorem Starting.blocks : t.cmp.blocks = s.cmp.blocks := congrArg (·.cmp.blocks) h.frame

theorem Starting.blk : t.blk b = s.blk b := by rw [State.blk, h.blocks, State.blk]

variable (c : Comp) (rest : List Comp)

theorem Starting.taken : (compRuns b c rest t).blk b = (s.blk b).taken c rest s.now := by
  rw [← h.blk, ← h.now]
  exact blk_setBlk ..

theorem Starting.sameRegs : SameRegs s (compRuns b c rest t) (CMP_SEQ_STS.STATE.key b :: warmKeys s b) := by
  have hregs : SameRegs s (t.setBlk b ((t.blk b).taken c rest t.now)) (CMP_SEQ_STS.STATE.key b :: warmKeys s b) :=
    h.regs.mono (List.subset_cons_self ..)
  exact hregs.andWr 1 (List.mem_cons_self ..)

theorem Starting.sameBlocks : SameBut s.cmp.blocks (compRuns b c rest t).cmp.blocks b := by
  have hput : (compRuns b c rest t).cmp.blocks = KMap.put {} t.cmp.blocks b ((t.blk b).taken c rest t.now) := rfl
  rw [hput, h.blocks]
  exact SameBut.put {} s.cmp.blocks b _

theorem Starting.runsFrame : { compRuns b c rest t with
    regs := s.regs, rea := s.rea, flo.folios := s.flo.folios, flo.runs := s.flo.runs, cmp.blocks := s.cmp.blocks } = s := by
  have e := congrArg (fun x : State => { x with cmp.blocks := s.cmp.blocks }) h.frame
  exact e

end

/-! Dispatch (R121, R176). -/

/-- The run of a composition, if it has one, is in the upper case. -/
abbrev RunPresent (s : State) (c : Comp) : Prop := ∃ cv l i, compRun s c = some (cv, l, i) ∧ tierState s cv l = 0

section
variable {s : State} {b : Nat} {c : Comp} {rest : List Comp} (hcur : (s.blk b).cur = none) (hq : (s.blk b).queue = c :: rest)
  (hopen : blkFenced s b = false) (hrun : s.rd CMP_SEQ_STS.STATE b ≠ 5)
include hcur hq hopen hrun

theorem exec_dispatch_starts (hp : compRun s c = none ∨ RunPresent s c) (hcount : c.slots.any (outstFull s) = false) :
    exec (.dispatch b) s = .next (startComp b c rest s) := by
  show execDispatch b s = _
  obtain hnone | ⟨cv, l, i, hsome, htier⟩ := hp
  · simp only [execDispatch, hcur, hq, hopen, hrun, hnone, Bool.false_eq_true, or_self, if_false]
  · simp only [execDispatch, hcur, hq, hopen, hrun, hsome, htier, hcount, Bool.false_eq_true, or_self, if_false, zero_ne_one,
      OfNat.zero_ne_ofNat, ne_eq, not_true]

theorem exec_dispatch_waits (hp : RunPresent s c) (hcount : c.slots.any (outstFull s) = true) : exec (.dispatch b) s =
    .next (if (s.blk b).waited then s else (s.setBlk b { s.blk b with waited := true }).bump (FLO_CNT.COUNT 5)) := by
  show execDispatch b s = _
  obtain ⟨cv, l, i, hsome, htier⟩ := hp
  simp only [execDispatch, hcur, hq, hopen, hrun, hsome, htier, hcount, Bool.false_eq_true, or_self, if_false, zero_ne_one,
    OfNat.zero_ne_ofNat, ne_eq, not_true, if_true]

end

theorem outstFull_false {s : State} {l : List FSlot} (h : ∀ f ∈ l, (s.folio f.folio).outst < 65535) : l.any (outstFull s) = false := by
  refine List.any_eq_false.2 fun f hf => ?_
  have hlt := h f hf
  simp only [outstFull, Bool.and_eq_true, decide_eq_true_eq, not_and]
  omega

theorem outstFull_true {s : State} {l : List FSlot} (h : ∃ f ∈ l, f.folio ≠ 0 ∧ 65535 ≤ (s.folio f.folio).outst) :
    l.any (outstFull s) = true := by
  obtain ⟨f, hf, hne, hfull⟩ := h
  exact List.any_eq_true.2 ⟨f, hf, by simp [outstFull, hne, hfull]⟩

/-! The watchdog (R115). -/

/-- The register fields that a composition's failure is logged in. -/
abbrev cmpLogKeys (b : Nat) : List Nat :=
  [CMP_ERR_LOG0.STATUS.key b, CMP_ERR_LOG0.PC.key b, CMP_ERR_LOG1.KIND.key b, CMP_ERR_LOG1.PART.key b, CMP_ERR_LOG1.CELL.key b]

theorem cmpLog_regs (b status cell kind : Nat) (s : State) : RegsOnly s (cmpLog b status cell kind s) (cmpLogKeys b) :=
  ((((RegsOnly.wr s _ _ _).andWr _ _ _).andWr _ _ _).andWr _ _ _).andWr _ _ _

theorem rd_cmpLog_status {status : Nat} (h : status < 2 ^ 16) (b cell kind : Nat) (s : State) :
    (cmpLog b status cell kind s).rd CMP_ERR_LOG0.STATUS b = status := by
  simp only [cmpLog]
  rw [rd_wr_apart _ _ _ (by decide), rd_wr_apart _ _ _ (by decide), rd_wr_apart _ _ _ (by decide), rd_wr_apart _ _ _ (by decide), rd_wr_self]
  exact Nat.mod_eq_of_lt h

theorem rd_cmpLog_kind {kind : Nat} (h : kind < 2 ^ 4) (b status cell : Nat) (s : State) :
    (cmpLog b status cell kind s).rd CMP_ERR_LOG1.KIND b = kind := by
  simp only [cmpLog]
  rw [rd_wr_apart _ _ _ (by decide), rd_wr_apart _ _ _ (by decide), rd_wr_self]
  exact Nat.mod_eq_of_lt h

theorem rd_cmpLog_count (b status cell kind : Nat) (s : State) :
    (cmpLog b status cell kind s).rd (CMP_CNT.COUNT 4) b = s.rd (CMP_CNT.COUNT 4) b := by
  simp only [cmpLog]
  rw [rd_wr_apart _ _ _ (by decide), rd_wr_apart _ _ _ (by decide), rd_wr_apart _ _ _ (by decide), rd_wr_apart _ _ _ (by decide),
    rd_wr_apart _ _ _ (by decide)]

/-- `s` with the expiry of a block's watchdog logged and counted. -/
abbrev expiryLogged (b : Nat) (s : State) : State := (cmpLog b ST.CMP_WATCHDOG 0 3 s).bump (CMP_CNT.COUNT 4) b

theorem expiryLogged_regs (b : Nat) (s : State) : RegsOnly s (expiryLogged b s) (cmpLogKeys b ++ [(CMP_CNT.COUNT 4).key b]) :=
  (cmpLog_regs b ST.CMP_WATCHDOG 0 3 s).andWr _ _ _

theorem rd_expiryLogged (b : Nat) (s : State) : (expiryLogged b s).rd CMP_ERR_LOG0.STATUS b = ST.CMP_WATCHDOG ∧
    (expiryLogged b s).rd CMP_ERR_LOG1.KIND b = 3 ∧
    (expiryLogged b s).rd (CMP_CNT.COUNT 4) b = min (2 ^ 32 - 1) (s.rd (CMP_CNT.COUNT 4) b + 1) := by
  refine ⟨?_, ?_, ?_⟩
  · exact (rd_wr_apart _ _ _ (by decide)).trans (rd_cmpLog_status (by decide) ..)
  · exact (rd_wr_apart _ _ _ (by decide)).trans (rd_cmpLog_kind (by decide) ..)
  · rw [rd_bump_self, rd_cmpLog_count]
    rfl

/-! Fences and injection (R116, R118). -/

theorem unfence_fenced {s : State} {b : Nat} (hf : blkFenced s b = true) (hcur : (s.blk b).cur = none) (hq : (s.blk b).queue = []) :
    unfence b s = (s.wr CMP_SEQ_STS.STATE b 0).wr CMP_FENCE_CFG.FAILS b 0 := if_pos ⟨hf, hcur, hq⟩

theorem unfence_other {s : State} {b : Nat} (h : blkFenced s b = false ∨ (s.blk b).cur ≠ none ∨ (s.blk b).queue ≠ []) : unfence b s = s :=
  if_neg fun ⟨hf, hcur, hq⟩ => h.elim (fun h => Bool.false_ne_true (h.symm.trans hf)) fun h => h.elim (· hcur) (· hq)

/-- A block with one mismatch armed in a cell. -/
abbrev BlkSt.armed (x : BlkSt) (place : Nat) : BlkSt := { x with inject := KMap.put 0 x.inject place 1 }

end Sys2Proof.Machine

open Sys2Proof Sys2Proof.Machine

/-- Settles O18: a dispatch starts the composition on the state with its folios counted (`slotsCounted_starting`) or waits, the watchdog
logs in register fields alone, and a lifted fence and an armed mismatch are single writes. -/
theorem blockControlStartsAndStops : Obligations.BlockControlStartsAndStops := by
  unfold Obligations.BlockControlStartsAndStops
  refine ⟨fun s b c rest hcur hq hopen hrun hp hcount => ?starts, fun s b c rest hcur hq hopen hrun hp hfull => ?waits,
    fun s b hcur hrun => ⟨fun hlate => ?expires, fun hin => ?inTime⟩, fun s b hfenced hcur hq => ?lifts, fun s b h => ?unlifted,
    fun s b v hgo => ?unarmed, fun s b v hgo => ?arms⟩
  case starts =>
    obtain ⟨u, hu, hstart⟩ := startComp_eq b c rest s
    have h := slotsCounted_starting hu (refreshed s c).slots
    obtain ⟨hatt, hslot, hentry⟩ := refreshed_kept s c
    have hexec := exec_dispatch_starts hcur hq hopen hrun hp (outstFull_false hcount)
    rw [hstart] at hexec
    generalize slotsCounted (refreshed s c).slots u = t at h hexec
    have hblk := h.taken (refreshed s c) rest
    have hcounts := h.counts
    rw [refreshed_folios] at hcounts
    refine ⟨_, refreshed s c, hexec, by rw [hblk], hatt, hslot, hentry, by rw [hblk], (congrArg BlkSt.pc hblk).trans hentry, by rw [hblk],
      by rw [hblk], by rw [hblk], by rw [hblk], rd_wr_self .., fun hnodup f hf hne => hcounts hnodup f.folio (List.mem_map_of_mem hf) hne,
      h.sameRegs (refreshed s c) rest, h.sameBlocks (refreshed s c) rest, h.runsFrame (refreshed s c) rest⟩
  case waits =>
    have hexec := exec_dispatch_waits hcur hq hopen hrun hp (outstFull_true hfull)
    cases hwaited : (s.blk b).waited
    case true =>
      rw [hwaited, if_pos rfl] at hexec
      exact ⟨_, hexec, by rw [← hwaited], fun _ => rfl, fun h => absurd h (by simp)⟩
    case false =>
      rw [hwaited, if_neg Bool.false_ne_true] at hexec
      refine ⟨_, hexec, blk_setBlk .., fun h => absurd h (by simp), fun _ => ⟨?_, ?_, rfl⟩⟩
      · exact rd_bump_self (s.setBlk b { s.blk b with waited := true }) (FLO_CNT.COUNT 5) 0
      · exact SameRegs.wr (s.setBlk b { s.blk b with waited := true }) (FLO_CNT.COUNT 5) 0 _
  case expires =>
    exact ⟨_, expiryLogged b s, if_pos ⟨Option.isSome_iff_ne_none.2 hcur, hrun, hlate⟩, rfl, fun _ => rd_expiryLogged b s,
      expiryLogged_regs b s⟩
  case inTime => exact if_neg fun ⟨_, _, hlate⟩ => Nat.not_lt.2 hin hlate
  case lifts =>
    refine ⟨_, congrArg Host.Outcome.next (unfence_fenced hfenced hcur hq), ?_, rd_wr_self .., (RegsOnly.wr s _ _ _).andWr _ _ _⟩
    rw [blkFenced, rd_wr_apart _ _ _ (by decide), rd_wr_self]
    rfl
  case unlifted => exact congrArg Host.Outcome.next (unfence_other h)
  case unarmed => exact congrArg Host.Outcome.next (if_neg (Bool.eq_false_iff.1 hgo))
  case arms =>
    exact ⟨(s.blk b).armed (2 * bits v 0 4 + bits v 6 1), congrArg Host.Outcome.next (if_pos hgo), KMap.get_put_self 0 (s.blk b).inject _ 1, rfl,
      fun j hj => KMap.get_put_other 0 0 (s.blk b).inject 1 hj⟩
end

section
/-!
PROOFS. One instruction of a block (R122–R124, R147): what `runIns` does with the word in stage F, and that every instruction
command is one run of it.
-/
namespace Sys2Proof.Machine

/-! The word in stage F. -/

section
variable {s : State} {b op : Nat} {f : Nat → BlkSt → State → Ins}

theorem runIns_idle (h : blockRuns s b = false) : runIns op b f s = s := by
  simp [runIns, h]

section
variable (h : blockRuns s b = true)
include h

theorem runIns_pcBeyond (hpc : 8191 < (s.blk b).pc) : runIns op b f s = progFault b ST.CMP_PC s := by
  simp [runIns, h, hpc]

variable (hpc : (s.blk b).pc ≤ 8191)
include hpc

theorem runIns_undefined (hdef : insDefined (iOp (insWord s b)) = false) : runIns op b f s = progFault b ST.CMP_ILLEGAL s := by
  simp [runIns, h, Nat.not_lt.2 hpc, hdef]

theorem runIns_otherOpcode (hdef : insDefined (iOp (insWord s b)) = true) (hop : iOp (insWord s b) ≠ op) : runIns op b f s = s := by
  simp [runIns, h, Nat.not_lt.2 hpc, hdef, hop]

theorem runIns_illegal (hop : iOp (insWord s b) = op) (hlegal : insLegal (insWord s b) = false) :
    runIns op b f s = progFault b ST.CMP_ILLEGAL s := by
  cases hdef : insDefined (iOp (insWord s b))
  case false => exact runIns_undefined h hpc hdef
  case true => simp [runIns, h, Nat.not_lt.2 hpc, hop, hop ▸ hdef, hlegal]

end

/-- A legal word of the opcode does what its instruction says. -/
theorem runIns_at {w : Nat} (h : AtIns s b op w) {r : Ins} (hr : f w (s.blk b) s = r) : runIns op b f s = insApply b r s := by
  obtain ⟨hrun, hpc, rfl, rfl, hlegal⟩ := h
  have hdef : insDefined (iOp (insWord s b)) = true := by
    simp only [insLegal, Bool.and_eq_true] at hlegal
    exact hlegal.1.1
  simp [runIns, hrun, Nat.not_lt.2 hpc, hdef, hlegal, hr]

end

/-! The instruction commands (Table 6.7). -/

/-- The commands that run one instruction, each with its opcode. -/
abbrev insCommands (b : Nat) (m : Mismatch) : List (Instr × Nat) :=
  [(.cmpNop b, 0x00), (.alu b, 0x01), (.li b, 0x02), (.ldc b, 0x03), (.br b, 0x04), (.plog b, 0x05), (.mpos b, 0x06), (.pcnt b, 0x07),
    (.sync b, 0x08), (.rchk b, 0x09), (.endIns b, 0x0A), (.fexp b {}, 0x10), (.ldq b, 0x11), (.pemit b, 0x12), (.aemit b, 0x13), (.psc b, 0x14),
    (.pwv b, 0x15), (.azero b, 0x20), (.tmul b m, 0x21), (.qkdot b m, 0x22), (.dq b m, 0x23), (.qnt b m, 0x24), (.rot b m, 0x25),
    (.maskq b, 0x26), (.maskp b, 0x27), (.rmax b, 0x28), (.expw b m, 0x29), (.wacc b m, 0x2A), (.rksum b m, 0x2B)]

/-- Every one of them runs the word in stage F, if it has the command's opcode. -/
theorem exec_insCommand {c : Instr} {op b : Nat} {m : Mismatch} (hc : (c, op) ∈ insCommands b m) (s : State) :
    ∃ f, exec c s = .next (runIns op b f s) := by
  have hall : ∀ e ∈ insCommands b m, ∃ f, exec e.1 s = .next (runIns e.2 b f s) := by
    rw [← List.forall_iff_forall_mem]
    and_intros <;> exact ⟨_, rfl⟩
  exact hall _ hc

/-! Accumulators that are awaited (R122). -/

section
variable {s : State} {b w : Nat} (hawaits : (s.blk b).awaits (tAd w) = true)
include hawaits

theorem exec_azero_awaits (h : AtIns s b 0x20 w) : exec (.azero b) s = .next s :=
  congrArg Host.Outcome.next (runIns_at h (r := .wait) (if_pos hawaits))

theorem compute_awaits {op : Nat} {m : Mismatch} {ok : Nat → BlkSt → Bool} {cyc : Nat → Nat} {f : Nat → BlkSt → Option BlkSt}
    {spoil : Nat → BlkSt → BlkSt} (h : AtIns s b op w) (hok : ok w (s.blk b) = true) : compute op b m ok cyc f spoil s = s :=
  runIns_at h (r := .wait) (by simp only [hok, hawaits, not_true, if_true, if_false])

theorem exec_tmul_awaits (h : AtIns s b 0x21 w) (m : Mismatch) (hcols : colsOk w = true) (hcls : fpClasses (tFa w) (tFb w) = true) :
    exec (.tmul b m) s = .next s :=
  congrArg Host.Outcome.next (compute_awaits hawaits h (Bool.and_eq_true_iff.2 ⟨hcls, hcols⟩))

theorem exec_maskp_awaits (h : AtIns s b 0x27 w) (hcols : colsOk w = true) (hpe : tPe w = true) : exec (.maskp b) s = .next s :=
  congrArg Host.Outcome.next (runIns_at h (r := .wait) (by
    simp only [hcols, hpe, hawaits, not_true, or_self, if_true, if_false]))

end

end Sys2Proof.Machine

open Sys2Proof Sys2Proof.Machine

/-- Settles O23: every command runs the word in stage F (`exec_insCommand`), so each clause is what `runIns` does with such a word. -/
theorem unfitInstructionsStop : Obligations.UnfitInstructionsStop := by
  unfold Obligations.UnfitInstructionsStop
  intro s b m c op hc
  obtain ⟨f, hf⟩ := exec_insCommand hc s
  rw [hf]
  refine ⟨fun h => by rw [runIns_idle h], fun h hpc => by rw [runIns_pcBeyond h hpc], fun h hpc hdef => by rw [runIns_undefined h hpc hdef],
    fun h hpc hop hlegal => by rw [runIns_illegal h hpc hop hlegal], fun h hpc hdef hop => by rw [runIns_otherOpcode h hpc hdef hop],
    fun w hat hawaits hcols => ⟨?azero, ?tmul, ?maskp⟩⟩
  case azero =>
    rintro rfl
    obtain rfl : c = .azero b := by simpa using hc
    exact hf ▸ exec_azero_awaits hawaits hat
  case tmul =>
    rintro rfl hcls
    obtain rfl : c = .tmul b m := by simpa using hc
    exact hf ▸ exec_tmul_awaits hawaits hat m hcols hcls
  case maskp =>
    rintro rfl hpe
    obtain rfl : c = .maskp b := by simpa using hc
    exact hf ▸ exec_maskp_awaits hawaits hat hcols hpe
end

section
/-!
PROOFS. The scalar, predicate and control instructions (R123, R124, R126, R141, R145, R146): the ALU as 64-bit machine arithmetic, scalars
and predicates after a write, and the end of a composition.
-/
namespace Sys2Proof.Machine

/-! The ALU (Table 6.8). -/

theorem sInt_eq_toInt {x : Nat} (hx : x < 2 ^ 64) : sInt 64 x = (BitVec.ofNat 64 x).toInt := by
  have hmod : x % 2 ^ 64 = x := Nat.mod_eq_of_lt hx
  rw [sInt, BitVec.toInt_eq_toNat_cond, BitVec.toNat_ofNat, hmod]
  split <;> split <;> omega

theorem ofInt_toInt (n : Nat) (v : BitVec n) : ofInt n v.toInt = v.toNat := by
  have h := BitVec.toNat_ofInt (n := n) v.toInt
  rw [BitVec.ofInt_toInt] at h
  simpa [ofInt] using h.symm

section
variable {x y : Nat} (hx : x < 2 ^ 64) (hy : y < 2 ^ 64)
include hx

theorem toNat_ofNat_operand : (BitVec.ofNat 64 x).toNat = x := Nat.mod_eq_of_lt hx

theorem aluOp_shifts : aluOp 5 x y = (BitVec.ofNat 64 x <<< (y % 64)).toNat ∧ aluOp 6 x y = (BitVec.ofNat 64 x >>> (y % 64)).toNat ∧
    aluOp 7 x y = ((BitVec.ofNat 64 x).sshiftRight (y % 64)).toNat := by
  refine ⟨?_, ?_, ?_⟩
  · rw [BitVec.toNat_shiftLeft, toNat_ofNat_operand hx, Nat.shiftLeft_eq]
    rfl
  · rw [BitVec.toNat_ushiftRight, toNat_ofNat_operand hx, Nat.shiftRight_eq_div_pow]
    rfl
  · show ofInt 64 (sInt 64 x / 2 ^ (y % 64)) = _
    rw [← ofInt_toInt, BitVec.toInt_sshiftRight, ← sInt_eq_toInt hx, Int.shiftRight_eq_div_pow]
    norm_cast

include hy

omit hx in
/-- The difference, for an opcode that is not written out: the kernel would count 2^64 down by ones to evaluate it. -/
theorem aluOp_difference {fn : Nat} (hfn : fn = 1) : aluOp fn x y = (x + 2 ^ 64 - y) % 2 ^ 64 := by
  unfold aluOp
  split
  case h_2 => rw [Nat.mod_eq_of_lt hy]
  all_goals contradiction

theorem aluOp_sums : aluOp 0 x y = (BitVec.ofNat 64 x + BitVec.ofNat 64 y).toNat ∧
    aluOp 1 x y = (BitVec.ofNat 64 x - BitVec.ofNat 64 y).toNat ∧ aluOp 10 x y = (BitVec.ofNat 64 x * BitVec.ofNat 64 y).toNat := by
  rw [BitVec.toNat_add, BitVec.toNat_sub, BitVec.toNat_mul, toNat_ofNat_operand hx, toNat_ofNat_operand hy]
  refine ⟨rfl, (aluOp_difference hy rfl).trans ?_, rfl⟩
  congr 1
  omega

theorem aluOp_masks : aluOp 2 x y = (BitVec.ofNat 64 x &&& BitVec.ofNat 64 y).toNat ∧
    aluOp 3 x y = (BitVec.ofNat 64 x ||| BitVec.ofNat 64 y).toNat ∧ aluOp 4 x y = (BitVec.ofNat 64 x ^^^ BitVec.ofNat 64 y).toNat := by
  rw [BitVec.toNat_and, BitVec.toNat_or, BitVec.toNat_xor, toNat_ofNat_operand hx, toNat_ofNat_operand hy]
  exact ⟨rfl, rfl, rfl⟩

theorem aluOp_choices : aluOp 8 x y = (if (BitVec.ofNat 64 x).sle (BitVec.ofNat 64 y) then x else y) ∧
    aluOp 9 x y = (if (BitVec.ofNat 64 x).sle (BitVec.ofNat 64 y) then y else x) := by
  simp only [BitVec.sle_iff_toInt_le, ← sInt_eq_toInt hx, ← sInt_eq_toInt hy]
  exact ⟨rfl, rfl⟩

end

/-! Scalars and predicates (Table 5.1). -/

section
variable (x : BlkSt)

@[simp] theorem a_zero : x.a 0 = 0 := rfl

theorem a_setA_self (r v : Nat) : (x.setA r v).a r = if r = 0 then 0 else v % 2 ^ 64 := by
  by_cases hr : r = 0 <;> simp [BlkSt.setA, BlkSt.a, hr]

theorem a_setA_other {r q : Nat} (h : q ≠ r) (v : Nat) : (x.setA r v).a q = x.a q := by
  by_cases hr : r = 0
  · simp [BlkSt.setA, hr]
  · simp [BlkSt.setA, BlkSt.a, hr, KMap.get_put_other 0 0 _ _ h]

/-- A write of a scalar changes the scalars alone. -/
theorem setA_frame (r v : Nat) : { x.setA r v with scal := x.scal } = x := by
  unfold BlkSt.setA
  split <;> rfl

theorem p_setP_self (i v : Nat) : (x.setP i v).p i = v % 2 ^ 64 := KMap.get_put_self ..

theorem p_setP_other {i j : Nat} (h : j ≠ i) (v : Nat) : (x.setP i v).p j = x.p j := KMap.get_put_other 0 0 _ _ h

end

/-- Bit `r` of a mask over the rows is its predicate's value there. -/
theorem bitOf_maskOf (f : Nat → Bool) {r : Nat} (hr : r < 64) : bitOf (maskOf f % 2 ^ 64) r = f r := by
  have hfold : ∀ n, ((List.range n).foldl (fun m r => if f r then setBit m r else m) 0) < 2 ^ n ∧
      ∀ r < n, ((List.range n).foldl (fun m r => if f r then setBit m r else m) 0).testBit r = f r := by
    intro n
    induction n with
    | zero => simp
    | succ n ih =>
      obtain ⟨hlt, hbits⟩ := ih
      rw [List.range_succ, List.foldl_append, List.foldl_cons, List.foldl_nil]
      generalize (List.range n).foldl (fun m r => if f r then setBit m r else m) 0 = m at hlt hbits
      have hset : setBit m n = 2 ^ n + m := by
        simp [setBit, setBits, bits, Nat.div_eq_of_lt hlt, Nat.add_comm]
      have htop : m.testBit n = false := Nat.testBit_lt_two_pow hlt
      cases hf : f n
      case false =>
        refine ⟨by simpa [Nat.pow_succ] using by omega, fun r hr => ?_⟩
        obtain rfl | hne := eq_or_ne r n
        · simpa [hf] using htop
        · simpa using hbits r (by omega)
      case true =>
        refine ⟨by simp only [if_true, hset, Nat.pow_succ]; omega, fun r hr => ?_⟩
        rw [if_pos rfl, hset]
        obtain rfl | hne := eq_or_ne r n
        · rw [Nat.testBit_two_pow_add_eq, htop, hf, Bool.not_false]
        · rw [Nat.testBit_two_pow_add_gt (by omega), hbits r (by omega)]
  obtain ⟨hlt, hbits⟩ := hfold 64
  rw [bitOf_eq_testBit, maskOf, Nat.mod_eq_of_lt hlt, hbits r hr]

end Sys2Proof.Machine
end

section
/-!
PROOFS. The end of a composition (R141, R157, R176, R208): what its charges and the rest of its block's gate leave as it was.
-/
namespace Sys2Proof.Machine

/-! Charges leave the blocks' window (R208, R212). -/

/-- `t` with all that the end of a composition changes as it is in `s`. -/
def beforeEnd (s t : State) : State :=
  { t with regs := s.regs, rea := s.rea, flo.folios := s.flo.folios, col.atts := s.col.atts, cmp.blocks := s.cmp.blocks }

/-- `t` differs from `s` in what the end of a composition changes alone. -/
abbrev EndOnly (s t : State) : Prop := beforeEnd s t = s

theorem EndOnly.trans {s t u : State} (h : EndOnly s t) (g : EndOnly t u) : EndOnly s u := (congrArg (beforeEnd s) g).trans h

theorem ChargesOnly.endOnly {s t : State} (h : ChargesOnly s t) : EndOnly s t := by
  have e := congrArg (beforeEnd s) h
  exact e

theorem acctFields_ream (i : Item) : (REAM_PACCT.VALUE i.ix).base / 2 ^ 26 = Win.ream.ix ∧ (REAM_PUNLOG.VALUE i.ix).base / 2 ^ 26 = Win.ream.ix := by
  cases i <;> decide

section
variable {s t : State} {p : Nat} (hp : p < 32) (i : Item) (n : Nat) (boost : Bool)

include hp in
theorem chargePart_cmpKept (h : WinKept .cmp s t) : WinKept .cmp s (chargePart p i n boost t) := by
  have hcount : WinKept .cmp s (t.addWrap (REAM_PACCT.VALUE i.ix) p n) := h.andWr _ (by rw [(acctFields_ream i).1]; decide) (by omega)
  unfold chargePart
  dsimp only
  generalize hu : State.mk .. = u
  have hkept : WinKept .cmp s u := hu ▸ hcount
  exact hkept.andWr _ (by decide) (by omega)

include hp in
theorem chargeLost_cmpKept (s : State) : WinKept .cmp s (chargeLost p i n boost s) := by
  have hpart := chargePart_cmpKept hp i n boost (.refl .cmp s)
  unfold chargeLost
  dsimp only
  split
  · generalize hu : State.mk .. = u
    have hkept : WinKept .cmp s u := hu ▸ hpart
    exact hkept.andWr _ (by rw [(acctFields_ream i).2]; decide) (by omega)
  · exact hpart

theorem chargeAtt_cmpKept {k : Nat} (hpart : ∀ a, s.att? k = some a → a.part < 32) (ten : Nat) : WinKept .cmp s (chargeAtt k ten i n boost s) := by
  unfold chargeAtt
  split
  · exact chargeLost_cmpKept (Nat.mod_lt _ (by decide)) i n boost s
  · rename_i a ha
    exact chargePart_cmpKept (hpart a ha) i n boost (.of_regs rfl)

theorem chargeAtt_endOnly (k ten : Nat) (s : State) : EndOnly s (chargeAtt k ten i n boost s) := by
  unfold chargeAtt
  split
  · unfold chargeLost
    dsimp only
    split <;> rfl
  · rfl

theorem chargeAtt_cmp (k ten : Nat) (s : State) : (chargeAtt k ten i n boost s).cmp = s.cmp := by
  unfold chargeAtt
  split
  · unfold chargeLost
    dsimp only
    split <;> rfl
  · rfl

end

/-! The counts of a block, and what keeps them. -/

/-- A block's owner, its finished compositions and its busy cycles are the same in both states. -/
abbrev CountsKept (b : Nat) (s t : State) : Prop :=
  blockOwner t b = blockOwner s b ∧ t.rd (CMP_CNT.COUNT 0) b = s.rd (CMP_CNT.COUNT 0) b ∧ t.rd CMP_BUSY_CYC.CYCLES b = s.rd CMP_BUSY_CYC.CYCLES b

theorem blockOwner_congr {s t : State} {b : Nat} (hassigned : t.rd CMP_OWNER.ASSIGNED b = s.rd CMP_OWNER.ASSIGNED b)
    (howner : t.rd CMP_OWNER.OWNER b = s.rd CMP_OWNER.OWNER b) : blockOwner t b = blockOwner s b := by
  rw [blockOwner, blockOwner, State.flag, State.flag, hassigned, howner]

theorem WinKept.counts {s t : State} (h : WinKept .cmp s t) {b : Nat} (hb : b < 64) : CountsKept b s t := by
  have hlt : b < 2 ^ 20 := by omega
  refine ⟨?_, h.rd (by decide) hlt, h.rd (by decide) hlt⟩
  exact blockOwner_congr (h.rd (by decide) hlt) (h.rd (by decide) hlt)

theorem wr_countsKept (s : State) {f : Fld} (hf : f = CMP_SEQ_STS.STATE ∨ f = CMP_SEQ_STS.CLK_ON) (b v : Nat) : CountsKept b s (s.wr f b v) := by
  have hapart : ∀ g ∈ [CMP_OWNER.ASSIGNED, CMP_OWNER.OWNER, CMP_CNT.COUNT 0, CMP_BUSY_CYC.CYCLES], (s.wr f b v).rd g b = s.rd g b := by
    intro g hg
    refine rd_wr_apart s b v ?_
    revert g
    rcases hf with rfl | rfl <;> decide
  simp only [List.forall_mem_cons] at hapart
  obtain ⟨hassigned, howner, hcount, hbusy, -⟩ := hapart
  exact ⟨blockOwner_congr hassigned howner, hcount, hbusy⟩

theorem settleWarm_cmpKept {s : State} {b : Nat} (howner : ∀ p, blockOwner s b = some p → p < 32) : WinKept .cmp s (settleWarm b s) := by
  intro k hk
  refine (settleWarm_frame b s).2 k fun hmem => ?_
  obtain ⟨p, hp, hkey⟩ := List.mem_flatMap.1 hmem
  have hlt : p < 2 ^ 20 := by
    have := howner p (Option.mem_toList.1 hp)
    omega
  rw [List.mem_pair] at hkey
  rcases hkey with rfl | rfl <;> rw [Fld.key_div _ hlt] at hk <;> revert hk <;> decide

/-! The composition leaves its block. -/

/-- What the end of a composition of `n` cycles leaves: the block's state `x`, its counts, and everything else. -/
structure Freed (s : State) (b n : Nat) (x : BlkSt) (t : State) : Prop where
  frame : EndOnly s t
  blk : t.blk b = x
  blocks : SameBut s.cmp.blocks t.cmp.blocks b
  counts : b < 64 → blockOwner t b = blockOwner s b ∧ t.rd (CMP_CNT.COUNT 0) b = s.rd (CMP_CNT.COUNT 0) b ∧
    t.rd CMP_BUSY_CYC.CYCLES b = (s.rd CMP_BUSY_CYC.CYCLES b + n) % 2 ^ 64

section
variable {s t : State} {b n : Nat} {x : BlkSt} (h : Freed s b n x t)
include h

/-- A further change that keeps the blocks and their counts. -/
theorem Freed.andThen {u : State} (hframe : EndOnly t u) (hcmp : u.cmp = t.cmp) (hcounts : b < 64 → CountsKept b t u) : Freed s b n x u where
  frame := h.frame.trans hframe
  blk := by rw [State.blk, hcmp]; exact h.blk
  blocks := hcmp ▸ h.blocks
  counts hb := by
    obtain ⟨howner, hcount, hbusy⟩ := hcounts hb
    rw [howner, hcount, hbusy]
    exact h.counts hb

theorem Freed.andGateShut (howner : b < 64 → ∀ p, blockOwner s b = some p → p < 32) : Freed s b n x (gateShut b t) := by
  have hcharges := (settleWarm_frame b t).1
  refine (h.andThen hcharges.endOnly (congrArg (·.cmp) hcharges) fun hb => ?_).andThen rfl rfl fun _ =>
    wr_countsKept _ (.inr rfl) b 0
  exact (settleWarm_cmpKept ((h.counts hb).1 ▸ howner hb)).counts hb

theorem Freed.andGateRest (howner : b < 64 → ∀ p, blockOwner s b = some p → p < 32) : Freed s b n x (gateRest b t) := by
  unfold gateRest
  dsimp only
  split_ifs
  · exact h.andGateShut howner
  · exact h
  · exact h

theorem Freed.andIdle : Freed s b n x (unstall (.fexp b {}) { t with rea.idleAt := KMap.put 0 t.rea.idleAt b t.now }) :=
  h.andThen rfl rfl fun _ => ⟨rfl, rfl, rfl⟩

end

/-- A block's state once its composition has been taken off it. -/
abbrev BlkSt.freed (x : BlkSt) : BlkSt :=
  { x with cur := none, lists := x.lists.map fun l => { l with live := false }, waited := false, stream := none, port := {}, press := [],
           emitted := [], cycles := 0, repeats := 0 }

theorem dropOutst_foliosOnly {s t : State} (h : FoliosOnly s t) (f : FSlot) : FoliosOnly s (dropOutst f t) := by
  unfold dropOutst
  dsimp only
  split
  · exact h
  · split <;> exact h

theorem FoliosOnly.endOnly {s t : State} (h : FoliosOnly s t) : EndOnly s t := by
  have e := congrArg (beforeEnd s) h
  exact e

/-- A state whose charges are made, its busy cycles counted and its folios' counts settled, with the block freed. -/
theorem freed_of_charged {s u v : State} {b n : Nat} (x : BlkSt) (hkept : WinKept .cmp s u) (hcharged : EndOnly s u) (hcmp : u.cmp = s.cmp)
    (hfolios : FoliosOnly (u.addWrap CMP_BUSY_CYC.CYCLES b n) v) : Freed s b n x (v.setBlk b x) where
  frame := (hcharged.trans (t := u) (u := u.addWrap CMP_BUSY_CYC.CYCLES b n) rfl).trans (hfolios.endOnly.trans rfl)
  blk := blk_setBlk ..
  blocks := by
    have hblocks : v.cmp.blocks = s.cmp.blocks := (congrArg (·.cmp.blocks) hfolios).trans (congrArg (·.blocks) hcmp)
    rw [← hblocks]
    exact SameBut.put {} v.cmp.blocks b x
  counts hb := by
    have hregs : (v.setBlk b x).regs = (u.addWrap CMP_BUSY_CYC.CYCLES b n).regs := (congrArg (·.regs) hfolios :)
    obtain ⟨howner, hcount, hbusy⟩ := hkept.counts hb
    refine ⟨(blockOwner_congr ?_ ?_).trans howner, ?_, ?_⟩
    · rw [rd_congr hregs, rd_addWrap_apart _ _ _ (by decide)]
    · rw [rd_congr hregs, rd_addWrap_apart _ _ _ (by decide)]
    · rw [rd_congr hregs, rd_addWrap_apart _ _ _ (by decide), hcount]
    · rw [rd_congr hregs, rd_addWrap_self, hbusy]
      rfl

theorem takeComp_freed {s : State} {b : Nat} {c : Comp} (hcur : (s.blk b).cur = some c) (hpart : ∀ a, s.att? c.att = some a → a.part < 32)
    (howner : ∀ p, blockOwner s b = some p → p < 32) : Freed s b (s.blk b).cycles (s.blk b).freed (takeComp b s) := by
  unfold takeComp
  simp only [hcur]
  have hfolios (u : State) : FoliosOnly u (c.slots.foldl (fun s f => dropOutst f s) u) :=
    foldl_invariant (I := FoliosOnly u) (fun _ f _ ht => dropOutst_foliosOnly ht f) rfl
  have hfreed := freed_of_charged (b := b) (n := (s.blk b).cycles) (s.blk b).freed
    (chargeAtt_cmpKept .cmp (s.blk b).cycles (boosted s b) hpart (compTenant s c)) (chargeAtt_endOnly ..) (chargeAtt_cmp ..) (hfolios _)
  refine Freed.andGateRest (Freed.andIdle ?_) fun _ => howner
  split
  · exact hfreed
  · exact hfreed.andThen rfl rfl fun _ => wr_countsKept _ (.inl rfl) b 0

theorem setApp_endOnly (k slot : Nat) (f : AppSt → AppSt) (s : State) : EndOnly s (setApp k slot f s) := by
  unfold setApp
  split <;> rfl

theorem setApp_kept (k slot : Nat) (f : AppSt → AppSt) (s : State) : (setApp k slot f s).cmp = s.cmp ∧ (setApp k slot f s).regs = s.regs := by
  unfold setApp
  split <;> exact ⟨rfl, rfl⟩

/-- The state in which END takes the composition off: one instruction later, with the composition counted. -/
abbrev endCounted (b : Nat) (s : State) : State := (s.setBlk b ((s.blk b).took 1)).bump (CMP_CNT.COUNT 0) b

theorem endComp_freed {s : State} {b : Nat} {c : Comp} (hcur : (s.blk b).cur = some c) (hpart : ∀ a, s.att? c.att = some a → a.part < 32)
    (howner : ∀ p, blockOwner s b = some p → p < 32) :
    Freed (endCounted b s) b ((s.blk b).cycles + 1) ((s.blk b).took 1).freed (endComp b (s.blk b) s) := by
  have hblk : (endCounted b s).blk b = (s.blk b).took 1 := blk_setBlk ..
  have hcounted : CountsKept b s (s.setBlk b ((s.blk b).took 1)) := ⟨rfl, rfl, rfl⟩
  have htaken := takeComp_freed (s := endCounted b s) (b := b) (c := c) (by rw [hblk]; exact hcur) hpart fun p hp => howner p (by
    rw [← hp]
    exact (blockOwner_congr (rd_wr_apart _ _ _ (by decide)) (rd_wr_apart _ _ _ (by decide))).symm)
  rw [hblk] at htaken
  unfold endComp
  dsimp only
  split
  · obtain ⟨hcmp, hregs⟩ := setApp_kept (s.blk b).comp.att (s.blk b).comp.slot (fun y => { y with state := 1 }) (takeComp b (endCounted b s))
    exact htaken.andThen (setApp_endOnly ..) hcmp
      fun _ => ⟨blockOwner_congr (rd_congr hregs ..) (rd_congr hregs ..), rd_congr hregs .., rd_congr hregs ..⟩
  · exact htaken

end Sys2Proof.Machine
end

section
/-!
PROOFS. The scalar, predicate and control instructions (Table 6.8), each by the branch that it takes.
-/
namespace Sys2Proof.Machine

section
variable {s : State} {b w : Nat}

/-- An instruction that takes cycles and leaves block `x` changes that block alone. -/
theorem runIns_ok {op cyc : Nat} {x : BlkSt} {f : Nat → BlkSt → State → Ins} (h : AtIns s b op w) (hr : f w (s.blk b) s = .ok cyc x s) :
    Host.Outcome.next (runIns op b f s) = (.next (s.setBlk b (x.took cyc)) : Host.Outcome State Fault Refusal) :=
  congrArg Host.Outcome.next (runIns_at h hr)

theorem exec_ldc_aligned (h : AtIns s b 0x03 w) (halign : bits w 0 32 % 2 ^ sFn w = 0) (hlt : bits w 0 32 < 384) :
    exec (.ldc b) s = .next (s.setBlk b (((s.blk b).setA (sRd w) (leAt (s.blk b).comp.context (bits w 0 32) (2 ^ sFn w))).took 1)) :=
  runIns_ok h (if_neg (not_or.2 ⟨not_not.2 halign, Nat.not_le.2 hlt⟩))

theorem exec_br_falls (h : AtIns s b 0x04 w) (hcond : condOp (sFn w) ((s.blk b).a (sRa w)) ((s.blk b).a (sRb w)) = false) :
    exec (.br b) s = .next (s.setBlk b ((s.blk b).took 1)) :=
  runIns_ok h (if_neg (Bool.eq_false_iff.1 hcond))

theorem exec_br_jumps (h : AtIns s b 0x04 w) (hcond : condOp (sFn w) ((s.blk b).a (sRa w)) ((s.blk b).a (sRb w)) = true)
    (hlo : 0 ≤ ((s.blk b).pc : Int) + sImm w) (hhi : ((s.blk b).pc : Int) + sImm w ≤ 8191) : exec (.br b) s =
      .next (s.setBlk b { s.blk b with pc := (((s.blk b).pc : Int) + sImm w).toNat, cycles := (s.blk b).cycles + 3 }) :=
  congrArg Host.Outcome.next (runIns_at h (r := .jump 3 (((s.blk b).pc : Int) + sImm w).toNat s)
    ((if_pos hcond).trans (if_neg (not_or.2 ⟨Int.not_lt.2 hlo, Int.not_lt.2 hhi⟩))))

theorem exec_plog_inRange (h : AtIns s b 0x05 w) (ha : sFn w = 7 ∨ sRa w ≤ 7) (hb : sRb w ≤ 7) : exec (.plog b) s =
    .next (s.setBlk b (((s.blk b).setP (sRd w) (plogOp (sFn w) ((s.blk b).p (sRa w)) ((s.blk b).p (sRb w)) ((s.blk b).a (sRa w)))).took 1)) :=
  runIns_ok h (if_neg (by omega))

theorem exec_pcnt_inRange (h : AtIns s b 0x07 w) (ha : sRa w ≤ 7) :
    exec (.pcnt b) s = .next (s.setBlk b (((s.blk b).setA (sRd w) (popCount ((s.blk b).p (sRa w)) 64)).took 1)) :=
  runIns_ok h (if_neg (Nat.not_lt.2 ha))

theorem exec_sync_goesOn (h : AtIns s b 0x08 w) (hemits : emitsWait s b (s.blk b).comp = false) (hpress : sFn w = 0 → (s.blk b).press = []) :
    exec (.sync b) s = .next (s.setBlk b ((s.blk b).took 1)) := by
  refine runIns_ok h ?_
  by_cases hfn : sFn w = 0
  · simp [hfn, hpress hfn, hemits]
  · simp [hfn, hemits]

theorem exec_sync_waits (h : AtIns s b 0x08 w) (hout : emitsWait s b (s.blk b).comp = true ∨ (sFn w = 0 ∧ (s.blk b).press ≠ [])) :
    exec (.sync b) s = .next s := by
  refine congrArg Host.Outcome.next (runIns_at h (r := .wait) ?_)
  by_cases hfn : sFn w = 0
  · rcases hout with hemits | ⟨-, hpress⟩
    · simp [hfn, hemits]
    · simp [hfn, hpress]
  · simp [hfn, hout.resolve_right (hfn ·.1)]

/-- Words of RCHK name one of its four functions. -/
theorem rchk_fn_lt (h : AtIns s b 0x09 w) : sFn w < 4 := by
  obtain ⟨-, -, -, hop, hlegal⟩ := h
  have hzero : bits w 34 7 = 0 := by
    simp only [insLegal, Bool.and_eq_true, hop] at hlegal
    simpa using List.all_eq_true.1 hlegal.1.2 (34, 7) (by decide)
  simp only [sFn, bits] at hzero ⊢
  omega

/-- RCHK reads the repeats or sets the mode (R146). -/
theorem exec_rchk_cases (h : AtIns s b 0x09 w) : ∃ x', exec (.rchk b) s = .next (s.setBlk b (x'.took 1)) ∧
    (sFn w = 0 ∧ x' = s.blk b ∨ sFn w = 1 ∧ x' = (s.blk b).setA (sRd w) (s.blk b).repeats ∨
      sFn w = 2 ∧ x' = { s.blk b with strict := true } ∨ sFn w = 3 ∧ x' = { s.blk b with strict := false }) := by
  have hlt := rchk_fn_lt h
  obtain hfn | hfn | hfn | hfn : sFn w = 0 ∨ sFn w = 1 ∨ sFn w = 2 ∨ sFn w = 3 := by omega
  · exact ⟨_, runIns_ok h (by simp only [hfn]), .inl ⟨hfn, rfl⟩⟩
  · exact ⟨_, runIns_ok h (by simp only [hfn]), .inr (.inl ⟨hfn, rfl⟩)⟩
  · exact ⟨_, runIns_ok h (by simp only [hfn]), .inr (.inr (.inl ⟨hfn, rfl⟩))⟩
  · exact ⟨_, runIns_ok h (by simp only [hfn]), .inr (.inr (.inr ⟨hfn, rfl⟩))⟩

theorem exec_end_waits (h : AtIns s b 0x0A w) (hemits : emitsWait s b (s.blk b).comp = true) : exec (.endIns b) s = .next s :=
  congrArg Host.Outcome.next (runIns_at h (r := .wait) (if_pos hemits))

theorem exec_end_misses (h : AtIns s b 0x0A w) (hemits : emitsWait s b (s.blk b).comp = false)
    (hwhole : compWhole (s.blk b).comp (s.blk b) = false) : exec (.endIns b) s = .next (progFault b ST.CMP_NO_EMIT s) :=
  congrArg Host.Outcome.next (runIns_at h (r := .fault ST.CMP_NO_EMIT)
    ((if_neg (Bool.eq_false_iff.1 hemits)).trans (if_pos (Bool.eq_false_iff.1 hwhole))))

theorem exec_end_ends (h : AtIns s b 0x0A w) (hemits : emitsWait s b (s.blk b).comp = false)
    (hwhole : compWhole (s.blk b).comp (s.blk b) = true) : exec (.endIns b) s = .next (endComp b (s.blk b) s) :=
  congrArg Host.Outcome.next (runIns_at h (r := .ends (endComp b (s.blk b) s))
    ((if_neg (Bool.eq_false_iff.1 hemits)).trans (if_neg (not_not.2 hwhole))))

/-- The composition that a running block runs. -/
theorem cur_of_atIns {op : Nat} (h : AtIns s b op w) : (s.blk b).cur = some (s.blk b).comp := by
  obtain ⟨hrun, -⟩ := h
  obtain ⟨c, hc⟩ : ∃ c, (s.blk b).cur = some c := by
    simp only [blockRuns, Bool.and_eq_true] at hrun
    exact Option.isSome_iff_exists.1 hrun.1.1
  rw [BlkSt.comp, hc, Option.getD_some]

end

theorem li_value_lt (s : State) (b w : Nat) :
    (if sFn w = 0 then ofInt 64 (sImm w) else (s.blk b).a (sRd w) % 2 ^ 32 + bits w 0 32 * 2 ^ 32) < 2 ^ 64 := by
  split
  · exact ofInt_lt ..
  · have hlo : (s.blk b).a (sRd w) % 2 ^ 32 < 2 ^ 32 := Nat.mod_lt _ (by decide)
    have hhi : bits w 0 32 < 2 ^ 32 := bits_lt ..
    omega

theorem popCount_le (w n : Nat) : popCount w n ≤ n :=
  (List.length_filter_le ..).trans (by simp)

end Sys2Proof.Machine

open Sys2Proof Sys2Proof.Machine

/-- Settles O19: each instruction by the branch it takes, its destination by the laws of scalars and predicates, and the end of a
composition by what `takeComp` leaves (`endComp_freed`). -/
theorem scalarInstructionsCompute : Obligations.ScalarInstructionsCompute := by
  unfold Obligations.ScalarInstructionsCompute
  refine ⟨fun x y hx hy => ?alu, fun s b w => ?_⟩
  case alu =>
    obtain ⟨hadd, hsub, hmul⟩ := aluOp_sums hx hy
    obtain ⟨hand, hor, hxor⟩ := aluOp_masks hx hy
    obtain ⟨hshl, hshr, hsar⟩ := aluOp_shifts (y := y) hx
    obtain ⟨hmin, hmax⟩ := aluOp_choices hx hy
    exact ⟨hadd, hsub, hand, hor, hxor, hshl, hshr, hsar, hmin, hmax, hmul⟩
  intro x
  refine ⟨fun h => runIns_ok h rfl, fun h => ?aluIns, fun h => ?li, fun h halign hlt => ?ldc, exec_br_falls, exec_br_jumps,
    fun h ha hb => ?plog, fun h => ?mpos, fun h ha => ?pcnt, exec_sync_goesOn, exec_sync_waits, exec_end_waits, fun h => ?rchk,
    fun h hemits hwhole hpart howner => ?ends, exec_end_misses⟩
  case aluIns =>
    exact ⟨_, runIns_ok h rfl, a_setA_self .., fun r hr => a_setA_other x hr _, setA_frame ..⟩
  case li =>
    refine ⟨_, runIns_ok h rfl, fun hrd => ?_, a_zero _, fun r hr => a_setA_other x hr _, setA_frame ..⟩
    exact (a_setA_self ..).trans ((if_neg hrd).trans (Nat.mod_eq_of_lt (li_value_lt s b w)))
  case ldc =>
    exact ⟨_, exec_ldc_aligned h halign hlt, fun hrd => (a_setA_self ..).trans (if_neg hrd), a_zero _, fun r hr => a_setA_other x hr _,
      setA_frame ..⟩
  case plog =>
    exact ⟨_, exec_plog_inRange h ha hb, p_setP_self .., fun i hi => p_setP_other x hi _, rfl⟩
  case mpos =>
    refine ⟨_, runIns_ok h rfl, fun r hr => ?_, fun i hi => p_setP_other x hi _, rfl⟩
    rw [p_setP_self]
    exact bitOf_maskOf _ hr
  case pcnt =>
    refine ⟨_, exec_pcnt_inRange h ha, fun hrd => ?_, a_zero _, fun r hr => a_setA_other x hr _, setA_frame ..⟩
    exact (a_setA_self ..).trans ((if_neg hrd).trans (Nat.mod_eq_of_lt ((popCount_le ..).trans_lt (by decide))))
  case rchk =>
    obtain ⟨x', hexec, ⟨hfn, rfl⟩ | ⟨hfn, rfl⟩ | ⟨hfn, rfl⟩ | ⟨hfn, rfl⟩⟩ := exec_rchk_cases h
    · exact ⟨_, hexec, by omega, by omega, by omega, fun _ => rfl, rfl⟩
    · refine ⟨_, hexec, fun _ hrd => (a_setA_self ..).trans (if_neg hrd), by omega, by omega, fun _ => ?_, ?_⟩
      · exact (congrArg BlkSt.strict (setA_frame x (sRd w) x.repeats) :)
      · exact (congrArg (fun y : BlkSt => { y with strict := x.strict }) (setA_frame x (sRd w) x.repeats) :)
    · exact ⟨_, hexec, by omega, fun _ => rfl, by omega, by omega, rfl⟩
    · exact ⟨_, hexec, by omega, by omega, fun _ => rfl, by omega, rfl⟩
  case ends =>
    have hfreed := endComp_freed (cur_of_atIns h) hpart howner
    have hblocks : SameBut s.cmp.blocks (endCounted b s).cmp.blocks b :=
      SameBut.put ({} : BlkSt) s.cmp.blocks b ((s.blk b).took 1)
    refine ⟨_, exec_end_ends h hemits hwhole, by rw [hfreed.blk], (congrArg BlkSt.queue hfreed.blk :), fun hb => ?_,
      fun j hj => (hfreed.blocks j hj).trans (hblocks j hj), EndOnly.trans (t := endCounted b s) rfl hfreed.frame⟩
    obtain ⟨-, hcount, hbusy⟩ := hfreed.counts hb
    have hbefore : (endCounted b s).rd CMP_BUSY_CYC.CYCLES b = s.rd CMP_BUSY_CYC.CYCLES b := rd_wr_apart _ _ _ (by decide)
    exact ⟨hcount.trans (rd_bump_self ..), by rw [hbusy, hbefore, Nat.add_assoc]⟩
end

section
/-!
PROOFS. The press instructions (R122, R142, R176): what their turn comes to once their operands fit, and the lists that they issue.
-/
namespace Sys2Proof.Machine

/-! The turn of a press instruction. -/

/-- A press instruction whose operands fit: it waits for its accumulators, stops on poison, waits for its folio's count, or issues its
list, which leaves `issued`. -/
def pressTurn (b : Nat) (f : FSlot) (accs : List Nat) (bad : Bool) (issued s : State) : Ins :=
  if accs.any (s.blk b).awaits then .wait
  else if bad then .poison
  else if outstFull s f then pressWait b (s.blk b) s
  else .ends issued

section
variable {s issued : State} {b : Nat} {f : FSlot} {accs : List Nat} {bad : Bool}

theorem pressTurn_awaits (h : ∃ a ∈ accs, (s.blk b).awaits a = true) : pressTurn b f accs bad issued s = .wait :=
  if_pos (List.any_eq_true.2 h)

variable (hfree : ∀ a ∈ accs, (s.blk b).awaits a = false) (hclean : bad = false)
include hfree hclean

theorem pressTurn_free : pressTurn b f accs bad issued s = if outstFull s f then pressWait b (s.blk b) s else .ends issued := by
  have hany : accs.any (s.blk b).awaits = false := List.any_eq_false.2 fun a ha => Bool.eq_false_iff.1 (hfree a ha)
  simp only [pressTurn, hany, hclean, Bool.false_eq_true, if_false]

theorem pressTurn_issues (hroom : outstFull s f = false) : pressTurn b f accs bad issued s = .ends issued := by
  rw [pressTurn_free hfree hclean, hroom, if_neg Bool.false_ne_true]

theorem pressTurn_full (hfull : outstFull s f = true) : pressTurn b f accs bad issued s =
    if (s.blk b).waited then .wait else .ends ((s.setBlk b { s.blk b with waited := true }).bump (FLO_CNT.COUNT 5)) := by
  rw [pressTurn_free hfree hclean, hfull, if_pos rfl, pressWait]

end

/-- A command that runs a press instruction with fitting operands issues its list, or waits and counts that once. -/
theorem press_clauses {s issued : State} {b : Nat} {c : Instr} {f : FSlot} {accs : List Nat} {bad : Bool}
    (hexec : exec c s = .next (insApply b (pressTurn b f accs bad issued s) s)) :
    ((∀ a ∈ accs, (s.blk b).awaits a = false) → bad = false →
      (outstFull s f = false → exec c s = .next issued) ∧
      (outstFull s f = true → (s.blk b).waited = true → exec c s = .next s) ∧
      (outstFull s f = true → (s.blk b).waited = false → ∃ t, exec c s = .next t ∧ t.blk b = { s.blk b with waited := true } ∧
        t.rd (FLO_CNT.COUNT 5) = min (2 ^ 32 - 1) (s.rd (FLO_CNT.COUNT 5) + 1) ∧ { t with regs := s.regs, cmp.blocks := s.cmp.blocks } = s)) ∧
    ((∃ a ∈ accs, (s.blk b).awaits a = true) → exec c s = .next s) := by
  refine ⟨fun hfree hclean => ⟨fun hroom => ?issues, fun hfull hwaited => ?waitsOn, fun hfull hwaited => ?waits⟩, fun hawaits => ?awaits⟩
  case issues => rw [hexec, pressTurn_issues hfree hclean hroom, insApply]
  case waitsOn => rw [hexec, pressTurn_full hfree hclean hfull, if_pos hwaited, insApply]
  case waits =>
    rw [hexec, pressTurn_full hfree hclean hfull, if_neg (Bool.eq_false_iff.1 hwaited), insApply]
    exact ⟨_, rfl, blk_setBlk .., rd_bump_self (s.setBlk b { s.blk b with waited := true }) (FLO_CNT.COUNT 5) 0, rfl⟩
  case awaits => rw [hexec, pressTurn_awaits hawaits, insApply]

/-! The lists (R142). -/

/-- What a block remembers of the list that PSC issues. -/
abbrev scoreOut (b w : Nat) (x : BlkSt) : PressOut :=
  { tag := pressTag b (mFslot w), fslot := mFslot w, ad := mAd w, np := min (scorePass (slotAt x w).geo) (mFlags w % 16 + 1),
    count := mCount w, first := mFirst w }

/-- The words of the list of PSC: PARM, the PUTS of its data, and PSCORE. -/
abbrev scoreWords (b w lo hi : Nat) (x : BlkSt) : List Nat :=
  parmWord (slotAt x w).geo (mFirst w + mFlags w % 16) hi lo :: (pressQueries w (scoreOut b w x).np (slotAt x w).geo x).2 ++
    [cmdWord 0x08 0 0 (mFirst w) (slotAt x w).base 0]

/-- The bytes that its PUTS take. -/
abbrev scoreData (b w : Nat) (x : BlkSt) : Bytes := (pressQueries w (scoreOut b w x).np (slotAt x w).geo x).1

/-- Whether a query row or scale row of PSC carries poison. -/
abbrev scoreBad (b w : Nat) (x : BlkSt) : Bool :=
  (List.range (ceilDiv (slotAt x w).geo.d 64)).any (fun t => x.tileBad (mTd w + t) (scoreOut b w x).np) || x.tileBad (mTs w) (scoreOut b w x).np

/-- What a block remembers of the list that PWV issues. -/
abbrev valueOut (b w : Nat) (x : BlkSt) : PressOut :=
  { two := true, tag := pressTag b (mFslot w), fslot := mFslot w, ad := mAd w, np := min (valuePass (slotAt x w).geo) (mFlags w % 16 + 1),
    count := (slotAt x w).geo.d, first := mFirst w }

/-- The words of the list of PWV: PWACC and XOUT. -/
abbrev valueWords (w : Nat) (x : BlkSt) : List Nat :=
  [cmdWord 0x09 0 0 (mFirst w) (slotAt x w).base 0, cmdWord 0x0A 0 0 0 0 (bits (mFlags w) 4 1)]

/-- The tiles that hold the weights of PWV. -/
abbrev weightTiles (b w : Nat) (x : BlkSt) : Nat := ceilDiv (ceilDiv (mCount w) 64 * (valueOut b w x).np) 32

/-- Whether a row of weights of PWV carries poison. -/
abbrev valueBad (b w : Nat) (x : BlkSt) : Bool :=
  (List.range (weightTiles b w x)).any fun t => x.tileBad (mTd w + t) (min 64 (mCount w))

/-- A block issues a list with the words and data that its instruction gives it, in the cycles that their bytes take. -/
abbrev listIssued (b : Nat) (f : FSlot) (p : PressOut) (words : List Nat) (data : Bytes) (s : State) : State :=
  pressIssue b f p words data (4 + ceilDiv (16 + 8 * words.length + data.length) 512) (s.blk b) s

section
variable {s : State} {b w : Nat}

theorem any_above_false {l : List Nat} (h : ∀ a ∈ l, a ≤ 3) : (l.any fun a => decide (3 < a)) = false :=
  List.any_eq_false.2 fun a ha => by simpa using h a ha

theorem exec_psc_turn {lo hi : Nat} (h : AtIns s b 0x14 w) (hspan : parmSpan w (s.blk b) (slotAt (s.blk b) w) = some (lo, hi))
    (hslot : slotOk (s.blk b) w = true) (hpress : (slotAt (s.blk b) w).press = true) (hfmt : mFmt w = 4) (hcount : mCount w ≤ 1024)
    (hlast : mFirst w + mFlags w % 16 ≤ 15) (htd : mTd w + ceilDiv (slotAt (s.blk b) w).geo.d 64 ≤ 16)
    (haccs : ∀ a ∈ (scoreOut b w (s.blk b)).accs, a ≤ 3) :
    exec (.psc b) s = .next (insApply b (pressTurn b (slotAt (s.blk b) w) (scoreOut b w (s.blk b)).accs (scoreBad b w (s.blk b))
      (listIssued b (slotAt (s.blk b) w) (scoreOut b w (s.blk b)) (scoreWords b w lo hi (s.blk b)) (scoreData b w (s.blk b)) s) s) s) := by
  refine congrArg Host.Outcome.next (runIns_at h ?_)
  simp only [hspan]
  refine if_neg ?_
  simp only [hslot, hpress, hfmt, any_above_false haccs, not_true, ne_eq, Bool.false_eq_true, or_false, false_or, not_or, not_lt]
  exact ⟨hcount, hlast, htd⟩

theorem exec_pwv_turn (h : AtIns s b 0x15 w) (hslot : slotOk (s.blk b) w = true) (hcount : mCount w ≤ 1024)
    (hlast : mFirst w + mFlags w % 16 ≤ 15) (htd : mTd w + weightTiles b w (s.blk b) ≤ 16)
    (haccs : ∀ a ∈ (valueOut b w (s.blk b)).accs, a ≤ 3) :
    exec (.pwv b) s = .next (insApply b (pressTurn b (slotAt (s.blk b) w) (valueOut b w (s.blk b)).accs (valueBad b w (s.blk b))
      (listIssued b (slotAt (s.blk b) w) (valueOut b w (s.blk b)) (valueWords w (s.blk b))
        (pressWeights w (valueOut b w (s.blk b)).np (s.blk b)) s) s) s) := by
  refine congrArg Host.Outcome.next (runIns_at h (if_neg ?_))
  simp only [hslot, any_above_false haccs, not_true, Bool.false_eq_true, or_false, false_or, not_or, not_lt]
  exact ⟨hcount, hlast, htd⟩

end

theorem any_range_false {n : Nat} {p : Nat → Bool} (h : ∀ t < n, p t = false) : (List.range n).any p = false :=
  List.any_eq_false.2 fun t ht => Bool.eq_false_iff.1 (h t (List.mem_range.1 ht))

end Sys2Proof.Machine

open Sys2Proof Sys2Proof.Machine

/-- Settles O21: both instructions take a turn (`exec_psc_turn`, `exec_pwv_turn`) whose outcomes are those of `press_clauses`. -/
theorem pressInstructionsIssueLists : Obligations.PressInstructionsIssueLists := by
  unfold Obligations.PressInstructionsIssueLists
  refine ⟨fun s b w lo hi h => ?psc, fun s b w h => ?pwv⟩
  case psc =>
    intro x f g np p words data hspan hslot hpress hfmt hcount hlast htd haccs
    obtain ⟨hturn, hawaits⟩ := press_clauses (exec_psc_turn h hspan hslot hpress hfmt hcount hlast htd haccs)
    refine ⟨fun hfree htiles hscales => hturn hfree ?_, hawaits⟩
    exact (congrArg (· || _) (any_range_false htiles)).trans hscales
  case pwv =>
    intro x f g np p tiles words data hslot hcount hlast htd haccs
    obtain ⟨hturn, hawaits⟩ := press_clauses (exec_pwv_turn h hslot hcount hlast htd haccs)
    exact ⟨fun hfree htiles => hturn hfree (any_range_false htiles), hawaits⟩
end

section
/-!
PROOFS. The computing instructions (R113, R125, R136): a computing instruction that passes its checks, the scalars that EXPW leaves alone,
and a block with a scalar wider than 64 bits, for which the statement on EXPW fails.
-/
namespace Sys2Proof.Machine

/-! Computing instructions. -/

/-- The failures of a checked operation depend on the block through its injections alone. -/
theorem failures_congr {x y : BlkSt} (h : y.inject = x.inject) (b op : Nat) (m : Mismatch) (s : State) :
    failures b op m y s = failures b op m x s := by
  unfold failures
  rw [h]

/-- A computing instruction in range, with its accumulator free, no poison and no check failing, leaves what it computes. -/
theorem compute_passes {s : State} {b op w : Nat} {m : Mismatch} {ok : Nat → BlkSt → Bool} {cyc : Nat → Nat} {f : Nat → BlkSt → Option BlkSt}
    {spoil : Nat → BlkSt → BlkSt} {y : BlkSt} (h : AtIns s b op w) (hawaits : (s.blk b).awaits (tAd w) = false) (hok : ok w (s.blk b) = true)
    (hf : f w (s.blk b) = some y) (hinject : y.inject = (s.blk b).inject) (hpass : failures b op m (s.blk b) s = []) :
    compute op b m ok cyc f spoil s = s.setBlk b (y.took (cyc w)) := by
  refine runIns_at h (r := .ok (cyc w) y s) ?_
  simp only [hok, hawaits, hf, not_true, Bool.false_eq_true, if_false, checked, (failures_congr hinject ..).trans hpass]

/-! The scalars of EXPW (R136). -/

/-- EXPW that does not clear its sums leaves a scalar that no column's sum stands in as it was, and no injection is taken. -/
theorem expw_keeps {w tau q : Nat} {x : BlkSt} (hclean : x.accBad (tAd w) (tC0 w) (tNc w) = false) (hinit : tInit w = false)
    (hq : ∀ c < tNc w, q ≠ tRb w + c % tS w) : ∃ y, expw w tau x = some y ∧ y.a q = x.a q ∧ y.inject = x.inject := by
  simp only [expw, hclean, hinit, Bool.false_eq_true, if_false]
  refine ⟨_, rfl, ?_⟩
  refine foldl_invariant (I := fun y : BlkSt => y.a q = x.a q ∧ y.inject = x.inject) (fun _ _ _ hrow => ?_) ⟨rfl, rfl⟩
  refine foldl_invariant (I := fun y : BlkSt => y.a q = x.a q ∧ y.inject = x.inject) (fun _ c hc hy => ?_) hrow
  obtain ⟨ha, hinject⟩ := hy
  exact ⟨(a_setA_other _ (hq c (List.mem_range.1 hc)) _).trans ha, (congrArg BlkSt.inject (setA_frame ..)).trans hinject⟩

/-- EXPW of one column for two queries, on the scalars 4 and 5, with its sums in the scalars 1 and 2 and not cleared. -/
def unevenWord : Nat := 0x29 * 2 ^ 56 + 1 * 2 ^ 11 + 4 * 2 ^ 6 + 1 * 2

/-- A running block with that word in stage F, whose scalar 2 is wider than 64 bits; no column counts for its query. -/
def wideScalar : State :=
  { regs := [(CMP_SEQ_STS.STATE.key 0, 1), (CMP_SEQ_STS.CLK_ON.key 0, 1)]
    cmp.prog := [(0, natLe 8 unevenWord)]
    cmp.blocks := [(0, { cur := some { tau := 0x3F800000 }, scal := [(2, 2 ^ 64)] })] }

theorem wideScalar_atIns : AtIns wideScalar 0 0x29 unevenWord := by decide

end Sys2Proof.Machine

open Sys2Proof Sys2Proof.Machine

/-- Refutes O22: its clause on EXPW says of every state that the sum of each of the S queries is reduced modulo 2^64, but a query that
none of the NC columns belongs to has its scalar left alone, and the statement does not bound that scalar. -/
theorem not_tensorInstructionsCompute : ¬ Obligations.TensorInstructionsCompute := by
  unfold Obligations.TensorInstructionsCompute
  intro h
  have hawaits : (wideScalar.blk 0).awaits (tAd unevenWord) = false := by decide
  have hclean : (wideScalar.blk 0).accBad (tAd unevenWord) (tC0 unevenWord) (tNc unevenWord) = false := by decide
  have hpass : failures 0 0x29 {} (wideScalar.blk 0) wideScalar = [] := by decide
  have htau : tauOk (wideScalar.blk 0).comp.tau = true := by decide
  obtain ⟨-, -, -, -, -, -, -, -, hexpw, -, -⟩ := h wideScalar 0 unevenWord {} hawaits
  obtain ⟨-, hdone⟩ := hexpw wideScalar_atIns (by decide) htau (by decide) (by decide) (by decide) hpass
  obtain ⟨x', hexec, hsums, -⟩ := hdone hclean
  obtain ⟨-, hsum⟩ := hsums (by decide)
  obtain ⟨y, hy, ha, hinject⟩ := expw_keeps (q := 2) (tau := (wideScalar.blk 0).comp.tau) hclean (by decide) (by decide)
  have hexec' : exec (.expw 0 {}) wideScalar = _ :=
    congrArg Host.Outcome.next (compute_passes wideScalar_atIns hawaits (by decide) hy hinject hpass)
  have hblk := congrArg (State.blk · 0) (Host.Outcome.next.inj (hexec.symm.trans hexec'))
  simp only [blk_setBlk] at hblk
  have hsame : x'.a 2 = y.a 2 := (congrArg (BlkSt.a · 2) hblk :)
  have hwide : (wideScalar.blk 0).a 2 = 2 ^ 64 := by decide
  have hnarrow : x'.a 2 < 2 ^ 64 := (hsum 1 (by decide) (by decide)).trans_lt (Nat.mod_lt _ (by decide))
  omega
end

section
/-!
PROOFS. Tickets (R148, R152, R303, R405): what ends a ticket before its attempt begins, and the attempt that stands once it has begun.
-/
namespace Sys2Proof.Machine

/-! The grounds of the node's own state (R152). -/

section
variable {s : State} {p : Nat} {root : Bool}

theorem stateRefuse_fenced (h : s.rd RAS_NODE_STS.STATE = 3 ∨ partFenced s p = true) : stateRefuse s p root = some ST.FENCED := if_pos h

theorem stateRefuse_inReset (hopen : ¬ (s.rd RAS_NODE_STS.STATE = 3 ∨ partFenced s p = true)) (h : s.flag HST_PRT_STS.RST_BUSY p = true) :
    stateRefuse s p root = some ST.PRT_RESET := by
  simp only [stateRefuse, if_neg hopen, if_pos h]

variable (hopen : ¬ (s.rd RAS_NODE_STS.STATE = 3 ∨ partFenced s p = true)) (hreset : s.flag HST_PRT_STS.RST_BUSY p = false)

include hopen hreset

theorem stateRefuse_notAdmitted (h : s.rd RAS_NODE_STS.STATE ≠ 2) : stateRefuse s p root = some ST.NOT_ADMITTED := by
  simp only [stateRefuse, if_neg hopen, hreset, Bool.false_eq_true, if_false, if_pos h]

variable (hadmitted : s.rd RAS_NODE_STS.STATE = 2)

include hadmitted

theorem stateRefuse_epochBehind (h : s.rd RAS_NBR_AHEAD.NBR ≠ 0) : stateRefuse s p root = some ST.EPOCH_BEHIND := by
  have hfence := (not_or.1 hopen).2
  simp [stateRefuse, hfence, hreset, hadmitted, h]

theorem stateRefuse_reams (h : s.rd RAS_NBR_AHEAD.NBR = 0) :
    stateRefuse s p root = if root = true ∧ (policyOf s p).maxReams ≤ admitted s p then some ST.REAM_BUSY else none := by
  have hfence := (not_or.1 hopen).2
  simp [stateRefuse, hfence, hreset, hadmitted, h]

end

/-! The way of a ticket: taken, a repeat, refused, or accepted (R152, R303, R405). -/

theorem exec_ticket_waits {s : State} (h : s.rd RSP_FORME_STS.STATE = 4 ∨ nodeAdmits s = false) : exec .ticket s = .next s :=
  if_pos (h.imp_right fun h => by simp [h])

/-- The ticket that a whole message brings. -/
abbrev tktOf (fs : List Frame) : TktIn :=
  { part := (fs.headD {}).part, src := (fs.headD {}).src, word := (fs.headD {}).arg, whole := (joinMsg fs).isSome, data := fs.flatMap (·.pay) }

theorem exec_ticket_takes {s t : State} {fs : List Frame} (hhold : s.rd RSP_FORME_STS.STATE ≠ 4) (hadmits : nodeAdmits s = true)
    (htaken : takeMsg (fun f => f.ty == 1) s = some (fs, t)) : exec .ticket s = .next (receiveTicket (tktOf fs) (framesBytes fs) t) := by
  change execTicket s = _
  simp only [execTicket, hhold, hadmits, htaken, not_true, or_self, if_false]

section
variable {s : State} {x : TktIn} {n : Nat}

theorem receiveTicket_heldReam (hsrc : x.from? = .reg) (hroot : x.root = true) (hream : (s.ream? x.part (tktReam x.data)).isSome = true) :
    receiveTicket x n s = chargeDropped x n (s.bump COL_DUP_CNT.COUNT) := by
  simp only [receiveTicket, hroot, hream, hsrc, and_self, if_true]

section
variable {j : Nat} {a : Att} (hroot : x.root = false) (hheld : heldAttempt s x = some (j, a))

include hroot hheld

theorem receiveTicket_repeat (h : a.attempt = tktAttempt x.data) : receiveTicket x n s = chargeDropped x n (s.bump COL_DUP_CNT.COUNT) := by
  simp only [receiveTicket, hroot, hheld, h, Bool.false_eq_true, false_and, if_false, lt_irrefl, if_true]

theorem receiveTicket_earlier (h : tktAttempt x.data < a.attempt) :
    receiveTicket x n s = chargeDropped x n (s.bump COL_STALE_CNT.COUNT) := by
  simp only [receiveTicket, hroot, hheld, Bool.false_eq_true, false_and, if_false, h.not_gt, h.ne']

end

theorem receiveTicket_unheld (hream : x.root = false ∨ s.ream? x.part (tktReam x.data) = none) (hheld : heldAttempt s x = none) :
    receiveTicket x n s = checkTicket x n s := by
  have hnew : ¬ (x.root = true ∧ (s.ream? x.part (tktReam x.data)).isSome = true) := by
    rintro ⟨hroot, hsome⟩
    rcases hream with h | h
    · rw [h] at hroot; cases hroot
    · rw [h] at hsome; cases hsome
  simp only [receiveTicket, if_neg hnew, hheld]

theorem checkTicket_stateRefused {st : Nat} (h : stateRefuse s x.part x.root = some st) : checkTicket x n s = refuse x n st 0xFFFF s := by
  simp only [checkTicket, h]

variable (hstate : stateRefuse s x.part x.root = none)

include hstate

theorem checkTicket_refused {st i : Nat} (h : tktCheck s x = some (st, i)) : checkTicket x n s = refuse x n st i s := by
  simp only [checkTicket, hstate, h]

variable (hcheck : tktCheck s x = none) {d : SigDesc} (hsig : sigOf? s (tktSig x.data) x.part = some d)

include hcheck hsig

theorem checkTicket_lookupFails {st i : Nat} {t : State} (h : lookupAll (tktRole s x d) x.data x.part s = (some (st, i), t)) :
    checkTicket x n s = refuse x n st i t := by
  simp only [checkTicket, hstate, hcheck, hsig, h]

theorem checkTicket_accepts {t : State} (h : lookupAll (tktRole s x d) x.data x.part s = (none, t))
    (hepoch : x.host = true ∨ wEpoch x.word = d.epoch) : checkTicket x n s = acceptTicket x d n t := by
  have hfits : ¬ (¬ x.host = true ∧ wEpoch x.word ≠ d.epoch) := fun ⟨hhost, hne⟩ => hepoch.elim hhost hne
  simp only [checkTicket, hstate, hcheck, hsig, h, if_neg hfits]

end

theorem tktCheck_badHeader {x : TktIn} (h : badHeader x = true) (s : State) : tktCheck s x = some (ST.TKT_FORMAT, 0xFFFF) := if_pos h

theorem badHeader_of_checked {s : State} {x : TktIn} (h : tktCheck s x = none) : badHeader x = false :=
  Bool.eq_false_iff.2 fun hbad => by rw [tktCheck_badHeader hbad] at h; cases h

/-! Taking a message and looking up its slots take no time. -/

theorem occSub_now (f : Frame) (s : State) : (occSub f s).now = s.now := by
  unfold occSub
  split
  · rfl
  · dsimp only
    split <;> rfl

theorem takeMsg_now {p : Frame → Bool} {s t : State} {fs : List Frame} (h : takeMsg p s = some (fs, t)) : t.now = s.now := by
  unfold takeMsg at h
  split at h
  · cases h
  · cases h
    exact foldl_keeps State.now (by exact fun _ _ _ => occSub_now ..) s

theorem dirFind_now (part role conv : Nat) (s : State) : (dirFind part role conv s).2.now = s.now := by
  unfold dirFind
  split <;> rfl

theorem convFind_now (part role conv : Nat) (s : State) : (convFind part role conv s).2.now = s.now := dirFind_now ..

theorem lookupSlot_state (role : Nat) (b : Bytes) (part i : Nat) (s : State) :
    (lookupSlot role b part i s).2 = (convFind part role (slotOf b i).conv s).2 := by
  unfold lookupSlot
  dsimp only
  split
  · rename_i h
    rw [h]
  · rename_i h
    rw [h]
    split_ifs <;> rfl

theorem lookupAll_now (role : Nat) (b : Bytes) (part : Nat) (s : State) : (lookupAll role b part s).2.now = s.now := by
  refine foldl_invariant (I := fun r : Option (Nat × Nat) × State => r.2.now = s.now) (fun r i _ hr => ?_) rfl
  split
  · exact hr
  · exact ((congrArg State.now (lookupSlot_state ..)).trans (convFind_now ..)).trans hr

/-! An attempt that stands with nothing but charges added. -/

/-- The node holds the attempt under its key as it is given, but for what it has been charged. -/
def AttStands (k : Nat) (a : Att) (s : State) : Prop := ∃ c, s.att? k = some { a with charges := c }

section
variable {k : Nat} {a : Att} {s : State}

theorem AttStands.of_col {t : State} (h : AttStands k a s) (hcol : t.col = s.col) : AttStands k a t := by
  obtain ⟨c, hc⟩ := h
  exact ⟨c, by rw [State.att?, hcol]; exact hc⟩

theorem AttStands.setAtt (s : State) (k : Nat) (a : Att) : AttStands k a (s.setAtt k a) := ⟨a.charges, KMap.find?_insert_self ..⟩

theorem AttStands.chargeAtt (h : AttStands k a s) (ten : Nat) (i : Item) (n : Nat) (boost : Bool) :
    AttStands k a (chargeAtt k ten i n boost s) := by
  obtain ⟨c, hc⟩ := h
  unfold Machine.chargeAtt
  rw [hc]
  exact ⟨_, KMap.find?_insert_self ..⟩

theorem AttStands.chargeTicket (h : AttStands k a s) (b : Bytes) (i : Item) (n : Nat) : AttStands k a (chargeTicket k b i n s) := by
  unfold Machine.chargeTicket
  dsimp only
  split
  · exact h.chargeAtt ..
  · split
    · exact h.chargeAtt ..
    · exact (foldl_invariant (I := AttStands k a) (fun _ _ _ ht => ht.chargeAtt ..) h).chargeAtt ..

theorem AttStands.unpark (h : AttStands k a s) (hparked : a.parked = []) : AttStands k a (unpark k s) := by
  obtain ⟨c, hc⟩ := h
  unfold Machine.unpark
  rw [hc]
  simp only [hparked, List.take_nil, List.drop_nil, List.foldl_nil]
  exact ⟨c, by rw [← hparked]; exact KMap.find?_insert_self ..⟩

theorem AttStands.startAppend (h : AttStands k a s) (d : SigDesc) {i : Nat} (happ : (slotOf a.ticket i).app = false) :
    AttStands k a (startAppend k d i s) := by
  have hs := h
  obtain ⟨c, hc⟩ := h
  unfold Machine.startAppend
  rw [hc]
  dsimp only
  split
  · exact hs
  · rw [if_pos (.inl (by simp [happ]))]
    exact hs

theorem AttStands.askAudit (h : AttStands k a s) (haudit : a.audit = false) : AttStands k a (askAudit k s) := by
  have hs := h
  obtain ⟨c, hc⟩ := h
  unfold Machine.askAudit
  rw [hc]
  dsimp only
  split
  · exact hs
  · rw [if_pos (.inl (by simp [haudit]))]
    exact hs

theorem AttStands.paid (h : AttStands k a s) (b : Bytes) (i : Item) (n : Nat) :
    AttStands k a (if n = 0 then s else Machine.chargeTicket k b i n s) := by
  split
  · exact h
  · exact h.chargeTicket ..

theorem replicate_leaf (h : AttStands k a s) {d : SigDesc} (hkids : d.kids a.pos = []) : replicate k d s = s := by
  obtain ⟨c, hc⟩ := h
  simp only [replicate, hc, hkids, List.foldl_nil]

theorem AttStands.sent (h : AttStands k a s) (m : Bool) {d : SigDesc} (hkids : d.kids a.pos = []) :
    AttStands k a (if m then s else replicate k d s) := by
  rw [replicate_leaf h hkids, ite_self]
  exact h

end

/-! The fetch queue and INFLIGHT stand apart from the collator's state (R184, R220, R221). -/

theorem foldl_col {α : Type} {f : State → α → State} {l : List α} (hf : ∀ s a, (f s a).col = s.col) (s : State) : (l.foldl f s).col = s.col :=
  foldl_keeps State.col (fun s a _ => hf s a) s

theorem setTier_col (c l v : Nat) (s : State) : (setTier c l v s).col = s.col := foldl_col (by exact fun _ _ => rfl) s

theorem undoEncs_col (x : SpillSt) (s : State) : (undoEncs x s).col = s.col := foldl_col (by exact fun _ _ => rfl) s

theorem undoSpill_col (x : SpillSt) (s : State) : (undoSpill x s).col = s.col := by
  have hplaces : (undoEncs x (x.places.foldl (fun s y => tierRelease x.pool y.2.1 s) s)).col = s.col :=
    (undoEncs_col ..).trans (foldl_col (by exact fun _ _ => rfl) s)
  unfold undoSpill
  dsimp only
  refine (setTier_col ..).trans ?_
  split
  · exact hplaces
  · split <;> exact hplaces

theorem tierDone_col (st : Nat) (s : State) : (tierDone st s).col = s.col := rfl

theorem spillCancel_col (c l : Nat) (s : State) : (spillCancel c l s).col = s.col := by
  unfold spillCancel
  split
  · dsimp only
    split
    · exact (tierDone_col ..).trans ((bump_col ..).trans (undoSpill_col ..))
    · exact (bump_col ..).trans (undoSpill_col ..)
  · rfl

theorem fetchAdd_col (e : FetchEnt) (s : State) : (fetchAdd e s).col = s.col := by
  unfold fetchAdd
  dsimp only
  split
  · split <;> rfl
  · rfl

theorem fetchAddIf_col (p : Prop) [Decidable p] (e : FetchEnt) (s : State) : (if p then fetchAdd e s else s).col = s.col := by
  split
  · exact fetchAdd_col ..
  · rfl

theorem demandEntry_col (k role : Nat) (b : Bytes) (part i : Nat) (s : State) : (demandEntry k role b part i s).col = s.col := by
  have hcancel (c l : Nat) : (if tierState s c l = 1 then spillCancel c l s else s).col = s.col := by
    split
    · exact spillCancel_col ..
    · rfl
  unfold demandEntry
  dsimp only
  split
  · rfl
  · exact (fetchAddIf_col ..).trans (hcancel ..)

theorem scheduledEntry_col (k role : Nat) (b : Bytes) (part dist i : Nat) (s : State) :
    (scheduledEntry k role b part dist i s).col = s.col := by
  unfold scheduledEntry
  dsimp only
  split
  · rfl
  · exact fetchAddIf_col ..

theorem fetchEntries_col (k role : Nat) (b : Bytes) (part : Nat) (s : State) : (fetchEntries k role b part s).col = s.col :=
  (foldl_col (by exact fun s _ => foldl_col (by exact fun _ _ => scheduledEntry_col ..) s) _).trans
    (foldl_col (by exact fun _ _ => demandEntry_col ..) s)

theorem moveInflight_col (part role : Nat) (t : Bytes) (up : Bool) (s : State) : (moveInflight part role t up s).col = s.col :=
  foldl_col (by exact fun _ _ => by split <;> rfl) s

/-! An attempt begins (R152, R296, R308). -/

/-- The policy under which an attempt begins (R193): its ream's at the root, and the one in force at any other node. -/
def beginPolicy (a : Att) (s : State) : Policy :=
  match s.ream? a.part a.ream with
  | some r => if a.pos == 0 && a.mirrorOf.isNone then r.pol else policyOf s a.part
  | none => policyOf s a.part

/-- At a leaf, with nothing to append and no audit asked for, a begun attempt stands as the ticket gave it, from now on. -/
theorem beginAttempt_stands {a : Att} {d : SigDesc} (hkids : d.kids a.pos = []) (happs : ∀ i < tktNslot a.ticket, (slotOf a.ticket i).app = false)
    (haudit : a.audit = false) (hparked : a.parked = []) (n : Nat) (i : Item) (s : State) : ∃ tag pol,
    AttStands (attKey a.part a.ream a.pos a.mirrorOf.isSome) { a with tag := tag, start := s.now, pol := pol, flight := true }
      (beginAttempt a d n i s) := by
  refine ⟨(slotTag a.part (tktNslot a.ticket) s).1, beginPolicy a s, ?_⟩
  unfold beginAttempt
  dsimp only
  refine AttStands.askAudit ?_ haudit
  refine foldl_invariant (fun _ i hi ht => (ht.startAppend d (happs i (List.mem_range.1 hi))).unpark hparked) ?_
  refine AttStands.of_col (.sent (.paid (.of_col (.setAtt ..) (moveInflight_col ..)) ..) _ hkids) (fetchEntries_col ..)

/-- The attempt that a ticket with the right header asks for at its position, without an audit. -/
abbrev askedAtt (x : TktIn) (standin : Bool) : Att :=
  { part := x.part, ream := tktReam x.data, step := tktStep x.data, attempt := tktAttempt x.data, sig := tktSig x.data, ticket := x.data,
    pos := if x.root then 0 else wPos x.word, standin := standin }

theorem ticketAtt_unaudited {x : TktIn} (hbad : badHeader x = false) (haudit : wAudit x.word = false) (s : State) (d : SigDesc) :
    ∃ standin, ticketAtt s x (some d) = askedAtt x standin := by
  cases hroot : x.root with
  | true => exact ⟨false, by simp [ticketAtt, askedAtt, hbad, hroot]⟩
  | false =>
    have hpos : wPos x.word ≠ 0 := by
      intro h
      simp [TktIn.root, h, haudit] at hroot
    exact ⟨wStandin x.word, by simp [ticketAtt, askedAtt, asAuditor, hbad, hroot, haudit, hpos]⟩

theorem admitTicket_unaudited {x : TktIn} {s : State} (h : s.rd COL_AUDIT_CFG.N x.part = 0) : (admitTicket x s).1 = false := by
  simp [admitTicket, h]

theorem acceptTicket_root {x : TktIn} (h : x.root = true) (d : SigDesc) (n : Nat) (s : State) : acceptTicket x d n s =
    beginAttempt { ticketAtt s x (some d) with audit := (admitTicket x s).1 } d n x.item (admitTicket x s).2 := if_pos h

theorem acceptTicket_member {x : TktIn} (h : x.root = false) (d : SigDesc) (n : Nat) (s : State) : acceptTicket x d n s =
    beginAttempt (ticketAtt s x (some d)) d n x.item s := if_neg (by simp [h])

theorem acceptTicket_stands {x : TktIn} {d : SigDesc} {s : State} (hbad : badHeader x = false) (haudit : wAudit x.word = false)
    (hnth : x.root = true → s.rd COL_AUDIT_CFG.N x.part = 0) (hkids : d.kids (if x.root then 0 else wPos x.word) = [])
    (happs : ∀ i < tktNslot x.data, (slotOf x.data i).app = false) (n : Nat) : ∃ standin tag pol,
    AttStands (attKey x.part (tktReam x.data) (if x.root then 0 else wPos x.word) false)
      { askedAtt x standin with tag := tag, start := s.now, pol := pol, flight := true } (acceptTicket x d n s) := by
  obtain ⟨standin, ha⟩ := ticketAtt_unaudited hbad haudit s d
  refine ⟨standin, ?_⟩
  rcases Bool.eq_false_or_eq_true x.root with hroot | hroot
  · rw [acceptTicket_root hroot, ha, admitTicket_unaudited (hnth hroot)]
    exact beginAttempt_stands (a := askedAtt x standin) hkids happs rfl rfl n x.item (admitTicket x s).2
  · rw [acceptTicket_member hroot, ha]
    exact beginAttempt_stands (a := askedAtt x standin) hkids happs rfl rfl n x.item s

end Sys2Proof.Machine

open Sys2Proof Sys2Proof.Machine

/-- Settles O24: the grounds of the node's state, Table 7.3 and the lookups are tried one after the other; what an accepted ticket then starts
at a leaf with nothing to append and no audit leaves the new attempt as the ticket gave it, but for its charges. That a repeated ticket counts as a
duplicate or as stale, and is charged, is the model's reading (log entries 73 and 74). -/
theorem ticketsAreCheckedInOrder : Obligations.TicketsAreCheckedInOrder := by
  unfold Obligations.TicketsAreCheckedInOrder
  refine ⟨fun s p root => ⟨stateRefuse_fenced, fun hopen => stateRefuse_inReset hopen, fun hopen hreset =>
      ⟨stateRefuse_notAdmitted hopen hreset, stateRefuse_epochBehind hopen hreset, fun hadmitted hepoch => ?reams⟩⟩,
    fun s => exec_ticket_waits, fun s x hbad => tktCheck_badHeader hbad s, fun s fs s1 hhold hadmits htaken => ?taken⟩
  case reams =>
    rw [stateRefuse_reams hopen hreset hadmitted hepoch]
    refine ⟨fun hroot hfull => if_pos ⟨hroot, hfull⟩, fun hroom => if_neg ?_⟩
    rintro ⟨hroot, hfull⟩
    rcases hroom with h | h
    · simp [hroot] at h
    · omega
  case taken =>
    rw [exec_ticket_takes hhold hadmits htaken]
    intro f x n k
    refine ⟨fun hroot hream => congrArg Host.Outcome.next (receiveTicket_heldReam rfl hroot hream), fun hroot j a hheld =>
      ⟨fun h => congrArg Host.Outcome.next (receiveTicket_repeat hroot hheld h),
        fun h => congrArg Host.Outcome.next (receiveTicket_earlier hroot hheld h)⟩, fun hream hheld => ?_⟩
    rw [receiveTicket_unheld (x := x) hream hheld]
    refine ⟨fun st h => congrArg Host.Outcome.next (checkTicket_stateRefused h), fun hstate =>
      ⟨fun st i h => congrArg Host.Outcome.next (checkTicket_refused hstate h), fun hcheck d hsig =>
        ⟨fun st i s2 h => congrArg Host.Outcome.next (checkTicket_lookupFails hstate hcheck hsig h), fun s2 hlooked hepoch => ?_⟩⟩⟩
    rw [checkTicket_accepts hstate hcheck hsig hlooked hepoch]
    refine ⟨rfl, fun hkids happs haudit hnth => ?_⟩
    obtain ⟨standin, tag, pol, c, hstands⟩ := acceptTicket_stands (badHeader_of_checked hcheck) haudit hnth hkids happs n
    have hnow : s2.now = s.now := by
      have hlast := lookupAll_now (tktRole s1 x d) x.data x.part s1
      rw [hlooked] at hlast
      exact hlast.trans (takeMsg_now htaken)
    exact ⟨_, _, rfl, hstands, rfl, rfl, rfl, rfl, rfl, rfl, hnow⟩
end
section
/-!
PROOFS. Partials and results (R163, R164, R167, R168, R298–R301, R322, R327): the merge, what becomes of a partial that arrives, and how a whole
fold leaves its node.
-/
namespace Sys2Proof.Machine

/-! The merge (R164), and a fold that takes a partial at once (R167). -/

theorem merge_empties {a b : Tri} (ha : a.m = minusInf32) (hb : b.m = minusInf32) : merge a b = Tri.empty a.o.length := if_pos ⟨ha, hb⟩

section
variable {a b : Tri} (h : ¬ (a.m = minusInf32 ∧ b.m = minusInf32))

include h

/-- The maxima and the sums of a merge of partials that are not both empty, as the rule writes them. -/
theorem merge_rescales :
    let fa := exp32 (fsub a.m (fmax a.m b.m))
    let fb := exp32 (fsub b.m (fmax a.m b.m))
    merge a b = { m := fmax a.m b.m, l := fadd (fmul fa a.l) (fmul fb b.l), o := (a.o.zip b.o).map fun x => fadd (fmul fa x.1) (fmul fb x.2) } :=
  if_neg h

theorem merge_element {i x y : Nat} (hx : a.o[i]? = some x) (hy : b.o[i]? = some y) :
    (merge a b).o[i]? = some (fadd (fmul (exp32 (fsub a.m (fmax a.m b.m))) x) (fmul (exp32 (fsub b.m (fmax a.m b.m))) y)) := by
  have hzip : (a.o.zip b.o)[i]? = some (x, y) := List.getElem?_zip_eq_some.2 ⟨hx, hy⟩
  rw [merge_rescales h]
  simp only [List.getElem?_map, hzip, Option.map_some]

end

/-- Under fast merging a fold without an audit takes the one partial that waits, and nothing waits after it. -/
theorem drainVec_fast {a : Att} (haudit : attAudits a = false) {v : VecFold} (hbuf : v.buf = []) (code : Nat) (t : Tri) :
    a.drainVec true { v with buf := v.buf ++ [(code, t)] } = VecFold.take false (code, t) { v with buf := [(code, t)] } := by
  simp [Att.drainVec, VecFold.drain, VecFold.next?, VecFold.take, haudit, hbuf]

theorem take_unordered (x : Nat × Tri) (v : VecFold) : (VecFold.take false x v).acc = some ((v.acc.map fun a => merge a x.2).getD x.2) := by
  cases h : v.acc <;> simp [VecFold.take, h]

/-! A row of partials enters the folds of an attempt. -/

/-- Put partials into their folds, in order. -/
def offerAll (fast : Nat → Bool) (slot code : Nat) (place : Nat → Nat) (tri : Nat → Tri) (l : List Nat) (a : Att) : Att :=
  l.foldl (fun a v => a.offer (fast a.part) slot (place v) code (tri v)) a

/-- The merge order is that of the attempt's partition throughout, and what the attempt has seen does not matter. -/
theorem foldl_offer_seen (fast : Nat → Bool) (slot code : Nat) (place : Nat → Nat) (tri : Nat → Tri) (l : List Nat) (a : Att)
    (seen : List (Nat × Nat × Nat × Nat)) :
    l.foldl (fun b v => b.offer (fast a.part) slot (place v) code (tri v)) { a with seen := seen } =
      { offerAll fast slot code place tri l a with seen := seen } := by
  induction l generalizing a with
  | nil => rfl
  | cons v r ih => exact ih (a.offer (fast a.part) slot (place v) code (tri v))

theorem offerAll_frame (fast : Nat → Bool) (slot code : Nat) (place : Nat → Nat) (tri : Nat → Tri) (l : List Nat) (a : Att) :
    { offerAll fast slot code place tri l a with folds := a.folds } = a :=
  foldl_invariant (I := fun b : Att => { b with folds := a.folds } = a) (by exact fun _ _ _ hb => hb) rfl

theorem offerAll_seen_frame (fast : Nat → Bool) (slot code : Nat) (place : Nat → Nat) (tri : Nat → Tri) (l : List Nat) (a : Att) :
    { offerAll fast slot code place tri l a with seen := a.seen, folds := a.folds } = a :=
  congrArg (fun b : Att => { b with seen := a.seen }) (offerAll_frame ..)

theorem att?_setAtt (s : State) (k : Nat) (a : Att) : (s.setAtt k a).att? k = some a := KMap.find?_insert_self ..

/-! FOLIO_PARTIAL_ACCEPT (R163, R299, R300). -/

theorem exec_folioPartialAccept {s : State} {b : Nat} {e : Emit} (h : s.cmp.emits.find? (fun e => e.block == b) = some e) :
    exec (.folioPartialAccept b) s = .next (acceptEmit e s) := by
  change execFolioPartialAccept b s = _
  simp only [execFolioPartialAccept, h]

/-- The state without an emit that has left its port. -/
abbrev emitGone (e : Emit) (s : State) : State := { s with cmp.emits := s.cmp.emits.erase e }

theorem acceptEmit_unheld {s : State} {e : Emit} (h : s.att? e.att = none) : acceptEmit e s = (emitGone e s).bump COL_STALE_CNT.COUNT := by
  simp only [acceptEmit, h]

/-- The partial of a vector as an emit carries it, in FP32. -/
abbrev emitWidened (e : Emit) (v : Nat) : Tri :=
  if e.bf16 then { e.tris.getD v {} with o := (e.tris.getD v {}).o.map widen } else e.tris.getD v {}

/-- The attempt with an emit's partials in their folds, and the record remembered. -/
abbrev emitTaken (s : State) (e : Emit) (a : Att) : Att :=
  { offerAll (modeFast s) e.slot e.key (e.first + ·) (emitWidened e) (List.range e.tris.length) a with seen := (e.slot, 0, e.key, e.first) :: a.seen }

section
variable {s : State} {e : Emit} {a : Att} (ha : s.att? e.att = some a)

include ha

theorem acceptEmit_stale (h : a.attempt ≠ e.attempt ∨ a.step ≠ e.step) : acceptEmit e s = (emitGone e s).bump COL_STALE_CNT.COUNT := by
  simp only [acceptEmit, ha, if_pos h]

theorem acceptEmit_mine (hattempt : a.attempt = e.attempt) (hstep : a.step = e.step) : acceptEmit e s =
    if (e.slot, 0, e.key, e.first) ∈ a.seen then (emitGone e s).bump COL_DUP_CNT.COUNT
    else if e.poison then failPart e.att ST.POISON (poisonUse .chip 12 0 (some a.part) ST.POISON 0 (emitGone e s))
    else if emitRoom s a e = false then s
    else settleLocal e.att ((emitGone e s).setAtt e.att (emitTaken s e a)) := by
  rw [emitTaken, ← foldl_offer_seen]
  simp [acceptEmit, emitGone, emitWidened, ha, ← hattempt, ← hstep]

end

theorem settleLocal_unaudited {s : State} {k : Nat} {a : Att} (ha : s.att? k = some a) (haudit : a.audit = false) : settleLocal k s = s := by
  simp [settleLocal, ha, haudit]

/-! PARTIAL_MSG (R299–R301). -/

section
variable {s t : State} {fs : List Frame} (htaken : takeMsg (fun f => f.ty == 2 && !(wAudit f.arg)) s = some (fs, t))
  (hopen : partFenced t (fs.headD {}).part = false)

include htaken hopen

theorem exec_partialMsg_stale (h : parentAtt t (fs.headD {}).part (fs.headD {}).msg (wPos (fs.headD {}).arg) = none ∨ joinMsg fs = none) :
    exec .partialMsg s = .next (t.bumpBy COL_STALE_CNT.COUNT 0 (staleRecords fs)) := by
  change execPartialMsg s = _
  simp only [execPartialMsg, htaken, hopen, Bool.false_eq_true, if_false]
  split
  · rename_i hatt hjoin
    rw [hatt, hjoin] at h
    simp at h
  · rfl

theorem exec_partialMsg_takes {k : Nat} {a : Att} {b : Bytes}
    (hatt : parentAtt t (fs.headD {}).part (fs.headD {}).msg (wPos (fs.headD {}).arg) = some (k, a)) (hjoin : joinMsg fs = some b) :
    exec .partialMsg s = .next (takeRecords k (wPos (fs.headD {}).arg) (recordsOf (tktNslot a.ticket) b)
      (chargeRecs k ((recordsOf (tktNslot a.ticket) b).map fun r => (r.slot, r.bytes.length)) (framesBytes fs) t)) := by
  change execPartialMsg s = _
  simp only [execPartialMsg, htaken, hopen, Bool.false_eq_true, if_false, hatt, hjoin]

end

/-- A child's record is of the attempt, its step and its vectors. -/
abbrev RecMine (a : Att) (r : PartRec) : Prop :=
  r.ream = a.ream ∧ r.part = a.part ∧ r.attempt = a.attempt ∧ r.step = a.step ∧ r.level = 1 ∧ recFits a r = true

section
variable {s : State} {k child : Nat} {r : PartRec} {rest : List PartRec} {a : Att} (ha : s.att? k = some a)

include ha

theorem takeRecords_stale (h : ¬ RecMine a r) : takeRecords k child (r :: rest) s = takeRecords k child rest (s.bump COL_STALE_CNT.COUNT) := by
  simp only [takeRecords, ha]
  refine if_pos ?_
  simpa only [RecMine, not_and_or] using h

variable (hmine : RecMine a r)

include hmine

theorem takeRecords_mine : takeRecords k child (r :: rest) s =
    if (r.slot, 1, r.key, r.first) ∈ a.seen then takeRecords k child rest (s.bump COL_DUP_CNT.COUNT)
    else if r.poison then endServe k ST.POISON child (poisonUse .chip 12 0 (some a.part) ST.POISON 0 s)
    else if recRoom s a child r = false then failPart k ST.COL_STORE_FULL s
    else takeRecords k child rest (s.setAtt k { offerAll (modeFast s) r.slot (childCode child) (r.first + ·) (fun v => r.tris.getD v {})
      (List.range r.tris.length) a with seen := (r.slot, 1, r.key, r.first) :: a.seen }) := by
  obtain ⟨hream, hpart, hattempt, hstep, hlevel, hfits⟩ := hmine
  rw [← foldl_offer_seen]
  simp [takeRecords, ha, hream, hpart, hattempt, hstep, hlevel, hfits]

end

/-! An attempt is over (R210, R303), and its ream with it (R327). -/

theorem dropAtt_gone (s : State) (k : Nat) : (s.dropAtt k).att? k = none := KMap.find?_erase_self ..

theorem endAttempt_gone (k status : Nat) (last : Bool) (s : State) : (endAttempt k status last s).att? k = none := by
  unfold endAttempt
  split
  · assumption
  · exact dropAtt_gone ..

theorem attDone_gone (k : Nat) (s : State) : (attDone k s).att? k = none := endAttempt_gone ..

theorem occSub_col (f : Frame) (s : State) : (occSub f s).col = s.col := by
  unfold occSub
  split
  · rfl
  · dsimp only
    split <;> rfl

theorem frameGone_col (f : Frame) (s : State) : (frameGone f s).col = s.col := by
  unfold frameGone
  split <;> rfl

theorem deliver_col (f : Frame) (s : State) : (deliver f s).col = s.col := by
  unfold deliver
  split
  · exact (frameGone_col ..).trans (occSub_col ..)
  · split
    · exact occSub_col ..
    · exact frameGone_col ..

theorem tagHead_col (code c : Nat) (wasEmpty : Bool) (s : State) : (tagHead code c wasEmpty s).col = s.col := by
  unfold tagHead
  dsimp only
  split <;> rfl

theorem enqueue_col (code : Nat) (f : Frame) (s : State) : (enqueue code f s).col = s.col := by
  unfold enqueue
  split
  · exact frameGone_col ..
  · dsimp only
    split
    · exact tagHead_col ..
    · rfl

theorem sendFrame_col (f : Frame) (s : State) : (sendFrame f s).2.col = s.col := by
  unfold sendFrame
  dsimp only
  split
  · exact deliver_col ..
  · split
    · exact enqueue_col ..
    · exact frameGone_col ..
    · exact frameGone_col ..

/-- The state in which a ream's colophon goes out: the ream is no longer admitted. -/
def reamDropped (r : Ream) (s : State) : State :=
  let u := if r.flight then moveInflight r.part 0 r.ticket false s else s
  { u with col.reams := KMap.erase u.col.reams (reamKey r.part r.ream) }

theorem reamDropped_atts (r : Ream) (s : State) : (reamDropped r s).col.atts = s.col.atts := by
  unfold reamDropped
  dsimp only
  split
  · exact congrArg (·.atts) (moveInflight_col ..)
  · rfl

theorem completeReam_col (r : Ream) (status failSlot len : Nat) (s : State) : (completeReam r status failSlot len s).col = (reamDropped r s).col := by
  unfold completeReam
  dsimp only
  split
  · rfl
  · exact sendFrame_col ..

theorem completeReam_gone (r : Ream) (status failSlot len : Nat) (s : State) :
    KMap.find? (completeReam r status failSlot len s).col.reams (reamKey r.part r.ream) = none := by
  rw [completeReam_col]
  exact KMap.find?_erase_self ..

theorem completeReam_att? (r : Ream) (status failSlot len : Nat) (s : State) (k : Nat) : (completeReam r status failSlot len s).att? k = s.att? k := by
  rw [State.att?, completeReam_col, reamDropped_atts, State.att?]

/-- Completing the ream of an attempt that is over leaves neither. -/
theorem completeReam_over (r : Ream) (status failSlot len : Nat) {s : State} {k : Nat} (h : s.att? k = none) :
    (completeReam r status failSlot len s).att? k = none ∧
      KMap.find? (completeReam r status failSlot len s).col.reams (reamKey r.part r.ream) = none :=
  ⟨(completeReam_att? ..).trans h, completeReam_gone ..⟩

/-! NODE_PARTIAL_SEND (R298). -/

/-- An attempt with its fold, appends and audit whole does not wait. -/
theorem not_waits_of_whole {a : Att} (hfolded : a.folded = true) (happended : a.appended = true) (haudited : a.audit = true → a.audited = true) :
    ¬ (a.folded = false ∨ a.appended = false ∨ (a.audit = true ∧ a.audited = false)) := by
  rintro (h | h | ⟨haudit, h⟩)
  · simp [hfolded] at h
  · simp [happended] at h
  · simp [haudited haudit] at h

/-- The node partial records of an attempt, and the frame that carries them: to the parent, or to the member whose audit it computes. -/
abbrev nodeRecs (s : State) (d : SigDesc) (a : Att) : List Bytes := (List.range (tktNslot a.ticket)).map fun i => (nodeRec s d a i).bytes
abbrev nodeFrame (part ream pos : Nat) (d : SigDesc) (a : Att) : Frame :=
  { ty := 2, tc := 2, part := part, dst := a.mirrorOf.getD (d.server (d.parent pos)), msg := ream,
    arg := sigWord false false d.epoch a.mirrorOf.isSome false pos }
/-- Records with their slots and lengths. -/
abbrev recLens (recs : List Bytes) : List (Nat × Nat) := ((List.range recs.length).zip recs).map fun r => (r.1, r.2.length)

section
variable {s : State} {part ream pos : Nat} {audit : Bool} {a : Att} {d : SigDesc} (ha : s.att? (attKey part ream pos audit) = some a)
  (hsig : sigOf? s a.sig part = some d)

include ha hsig

theorem exec_nodePartialSend_waits (h : a.folded = false ∨ a.appended = false ∨ (a.audit = true ∧ a.audited = false)) :
    exec (.nodePartialSend part ream pos audit) s = .next s := by
  change execNodePartialSend part ream pos audit s = _
  simp only [execNodePartialSend, ha, hsig]
  refine if_pos ?_
  simp only [Bool.not_eq_true]
  tauto

variable (hfolded : a.folded = true) (happended : a.appended = true) (haudited : a.audit = true → a.audited = true)
  (hup : a.pos ≠ 0 ∨ a.mirrorOf.isSome = true)

include hfolded happended haudited hup

theorem exec_nodePartialSend_whole : exec (.nodePartialSend part ream pos audit) s =
    let b := (nodeRecs s d a).flatten
    let sent := sendMsg (nodeFrame part ream pos d a) b s
    if sent.1 = false ∧ a.mirrorOf = none then .next (failPart (attKey part ream pos audit) ST.FAB_NO_ROUTE sent.2)
    else .next (attDone (attKey part ream pos audit)
      (chargeRecs (attKey part ream pos audit) (recLens (nodeRecs s d a)) (framesBytes (msgFrames (nodeFrame part ream pos d a) b)) sent.2)) := by
  change execNodePartialSend part ream pos audit s = _
  have hwhole := not_waits_of_whole hfolded happended haudited
  have hgoes : ¬ (a.folded = false ∨ a.appended = false ∨ (a.audit = true ∧ a.audited = false) ∨ (a.pos = 0 ∧ a.mirrorOf.isNone = true)) := by
    rintro (h | h | h | ⟨hpos, hnone⟩)
    · exact hwhole (.inl h)
    · exact hwhole (.inr (.inl h))
    · exact hwhole (.inr (.inr h))
    · exact hup.elim (· hpos) (by simp [Option.isNone_iff_eq_none.1 hnone])
  simp only [execNodePartialSend, ha, hsig, Bool.not_eq_true, if_neg hgoes]
  cases hmirror : a.mirrorOf <;> simp [nodeFrame, nodeRecs, recLens, hmirror]

end

/-! ROOT_FINISH (R168, R322, R327). -/

theorem EndOnly.job {s t : State} (h : EndOnly s t) : t.job = s.job := by
  have e := congrArg State.job h
  exact e

theorem jobDesc_chargeColophon (k : Nat) (src : CmdSrc) (ticket : Bytes) (s : State) (part ring seq : Nat) :
    jobDesc (chargeColophon k src ticket s) part ring seq = jobDesc s part ring seq := by
  have hjob : (chargeColophon k src ticket s).job = s.job := by
    cases src <;> exact (chargeAtt_endOnly ..).job
  unfold jobDesc
  rw [hjob]

/-- The frame that carries a result to the requester of a ream. -/
abbrev resultFrame (part ream : Nat) (r : Ream) : Frame := { ty := 3, tc := 2, part := part, dst := tktReqNode r.ticket, msg := ream }

section
variable {s : State} {part ream : Nat} {ok : Bool} {a : Att} {r : Ream} {d : SigDesc} (ha : s.att? (attKey part ream 0 false) = some a)
  (hr : s.ream? part ream = some r) (hsig : sigOf? s a.sig part = some d)

include ha hr hsig

theorem exec_rootFinish_waits (h : a.folded = false ∨ a.appended = false ∨ (a.audit = true ∧ a.audited = false)) :
    exec (.rootFinish part ⟨ream, ok⟩) s = .next s := by
  change execRootFinish part ⟨ream, ok⟩ s = _
  simp only [execRootFinish, ha, hr, hsig]
  refine if_pos ?_
  simpa only [Bool.not_eq_true] using h

variable (hfolded : a.folded = true) (happended : a.appended = true) (haudited : a.audit = true → a.audited = true)

include hfolded happended haudited

theorem exec_rootFinish_frames (hsrc : r.src = .reg) : exec (.rootFinish part ⟨ream, ok⟩) s =
    let b := (resultRecs s d a).flatten
    let sent := sendMsg (resultFrame part ream r) b s
    if sent.1 = false then .next (failPart (attKey part ream 0 false) ST.FAB_NO_ROUTE sent.2)
    else .next (completeReam r ST.OK 0xFFFF b.length (attDone (attKey part ream 0 false) (chargeColophon (attKey part ream 0 false) r.src r.ticket
      (chargeRecs (attKey part ream 0 false) (recLens (resultRecs s d a)) (framesBytes (msgFrames (resultFrame part ream r) b)) sent.2)))) := by
  change execRootFinish part ⟨ream, ok⟩ s = _
  simp only [execRootFinish, ha, hr, hsig, hsrc, Bool.not_eq_true, if_neg (not_waits_of_whole hfolded happended haudited), resultFrame, recLens]

theorem exec_rootFinish_host {p q n : Nat} (hsrc : r.src = .host p q n) : exec (.rootFinish part ⟨ream, ok⟩) s =
    let b := (resultRecs s d a).flatten
    let u := chargeColophon (attKey part ream 0 false) r.src r.ticket s
    .next (if leAt (jobDesc s p q n) 0x20 4 < b.length then
        completeReam r ST.HST_RES_SHORT 0xFFFF b.length (attDone (attKey part ream 0 false) u)
      else if ok = false then completeReam r ST.HST_DMA 0xFFFF 0 (attDone (attKey part ream 0 false) (u.bump HST_DMA_ERR_CNT.COUNT))
      else completeReam r ST.OK 0xFFFF b.length
        (hostOut p q n b (attDone (attKey part ream 0 false) (chargeHostRecs (attKey part ream 0 false) (recLens (resultRecs s d a)) u)))) := by
  change execRootFinish part ⟨ream, ok⟩ s = _
  simp only [execRootFinish, ha, hr, hsig, hsrc, Bool.not_eq_true, if_neg (not_waits_of_whole hfolded happended haudited), recLens,
    apply_ite Host.Outcome.next, jobDesc_chargeColophon]

end

end Sys2Proof.Machine

open Sys2Proof Sys2Proof.Machine

/-- Settles O27: each partial and record goes one way by its attempt, what was seen of it and the room for it, and a row of partials enters the
folds whatever the attempt has seen; an attempt that is over is gone under its key, and a completed ream under its own. Room record by record, which records are stale or repeats, and
the host that takes no result are the model's readings (log entries 258, 259 and 300 to 302). -/
theorem partialsFoldIntoResults : Obligations.PartialsFoldIntoResults := by
  unfold Obligations.PartialsFoldIntoResults
  refine ⟨fun a b => ⟨merge_empties, fun h => ?merged⟩, fun a slot v code t haudit hbuf => ?offered, fun s b e he => ?emit,
    fun s t fs htaken => ?message, fun s k child r rest a ha => ?record, fun s part ream pos audit a d ha hsig => ?sent,
    fun s part ream ok a r d ha hr hsig => ?finished⟩
  case merged =>
    refine ⟨by rw [merge_rescales h], by rw [merge_rescales h], ?_, fun i x y hx hy => merge_element h hx hy⟩
    rw [merge_rescales h]
    simp
  case offered =>
    refine ⟨_, KMap.find?_insert_self .., ?_, ?_⟩ <;> rw [drainVec_fast haudit hbuf]
    · simp [VecFold.take]
    · exact take_unordered ..
  case emit =>
    rw [exec_folioPartialAccept he]
    refine ⟨fun hatt => congrArg Host.Outcome.next (acceptEmit_unheld hatt), fun a ha =>
      ⟨fun hother => congrArg Host.Outcome.next (acceptEmit_stale ha hother), fun hattempt hstep hseen => ?_,
        fun hattempt hstep hnew hclean => ?_⟩⟩ <;>
    rw [acceptEmit_mine ha hattempt hstep]
    · rw [if_pos hseen]
    · rw [if_neg hnew, if_neg (by simp [hclean])]
      refine ⟨fun hroom => by rw [if_pos hroom], fun hroom => ?_⟩
      rw [if_neg (by simp [hroom])]
      have hframe := offerAll_seen_frame (modeFast s) e.slot e.key (e.first + ·) (emitWidened e) (List.range e.tris.length) a
      refine ⟨_, _, rfl, fun haudit => settleLocal_unaudited (att?_setAtt ..) ?_, att?_setAtt .., rfl, rfl, hframe, rfl, rfl⟩
      exact (congrArg Att.audit hframe).trans haudit
  case message =>
    intro f hopen
    exact ⟨exec_partialMsg_stale htaken hopen, fun k a b => exec_partialMsg_takes htaken hopen⟩
  case record =>
    refine ⟨takeRecords_stale ha, fun hmine hseen => ?_, fun hmine hnew => ?_⟩ <;> rw [takeRecords_mine ha hmine]
    · rw [if_pos hseen]
    · rw [if_neg hnew]
      refine ⟨fun hpoison => by rw [if_pos hpoison], fun hclean hroom => ?_, fun hclean hroom => ?_⟩ <;> rw [if_neg (by simp [hclean])]
      · rw [if_pos hroom]
      · rw [if_neg (by simp [hroom])]
        exact ⟨_, _, rfl, att?_setAtt .., rfl, rfl, offerAll_seen_frame .., rfl⟩
  case sent =>
    refine ⟨exec_nodePartialSend_waits ha hsig, fun hfolded happended haudited hup => ?_⟩
    rw [exec_nodePartialSend_whole ha hsig hfolded happended haudited hup]
    intro k f recs sent
    refine ⟨fun hgoes => ⟨_, if_neg ?_, rfl, attDone_gone ..⟩, fun hlost hmirror => if_pos ⟨hlost, hmirror⟩⟩
    rintro ⟨hlost, hmirror⟩
    rcases hgoes with h | h
    · exact Bool.false_ne_true (hlost.symm.trans h)
    · simp [hmirror] at h
  case finished =>
    refine ⟨exec_rootFinish_waits ha hr hsig, fun hfolded happended haudited => ?_⟩
    intro k recs b tagged f sent
    obtain hsrc | ⟨p, q, n, hsrc⟩ : r.src = .reg ∨ ∃ p q n, r.src = .host p q n := by cases r.src <;> simp
    · rw [exec_rootFinish_frames ha hr hsig hfolded happended haudited hsrc]
      refine ⟨fun _ hlost => if_pos hlost, fun hgoes => ?_⟩
      have hsent : sent.1 = true := hgoes.resolve_left (not_not_intro hsrc)
      refine ⟨_, if_neg (hsent ▸ Bool.true_eq_false.mp), and_assoc.1 ⟨completeReam_over _ _ _ _ (attDone_gone ..), fun _ => rfl,
        fun p q n hhost => ?_⟩⟩
      cases hsrc.symm.trans hhost
    · rw [exec_rootFinish_host ha hr hsig hfolded happended haudited hsrc]
      refine ⟨fun hreg => ?_, fun _ => ⟨_, rfl, and_assoc.1 ⟨?_, fun hreg => ?_, fun p' q' n' hhost => ?_⟩⟩⟩
      · cases hsrc.symm.trans hreg
      · split
        · exact completeReam_over _ _ _ _ (attDone_gone ..)
        · split
          · exact completeReam_over _ _ _ _ (attDone_gone ..)
          · exact completeReam_over _ _ _ _ (attDone_gone ..)
      · cases hsrc.symm.trans hreg
      · cases hsrc.symm.trans hhost
        exact ⟨fun hshort => if_pos hshort, fun hfits hrefused => by rw [if_neg hfits.not_gt, if_pos hrefused],
          fun hfits htaken => by rw [if_neg hfits.not_gt, if_neg (by simp [htaken])]⟩
end

section
/-!
PROOFS. The catchword unit (R187–R190): the first match of a search, the places of the entries after inserts and deletes, the
register fields that its commands write, and the entries that parity loses.
-/
namespace Sys2Proof.Machine

/-! Lists in the order of a rank, and sparse data so listed. -/

theorem find?_eq_some_of_least {β : Type} {l : List β} {rank : β → Nat} (hl : l.Pairwise fun x y => rank x < rank y) {p : β → Bool} {a : β}
    (ha : a ∈ l) (hp : p a = true) (hleast : ∀ x ∈ l, p x = true → rank a ≤ rank x) : l.find? p = some a := by
  obtain ⟨l₁, l₂, rfl⟩ := List.append_of_mem ha
  refine List.find?_eq_some_iff_append.2 ⟨hp, l₁, l₂, rfl, fun x hx => ?_⟩
  have hbefore : rank x < rank a := (List.pairwise_append.1 hl).2.2 x hx a (List.mem_cons_self ..)
  cases hpx : p x
  · rfl
  · exact absurd (hleast x (List.mem_append_left _ hx) hpx) (by omega)

section
variable {α : Type} {m : KMap α}

theorem KMap.mem_of_find? {k : Nat} {v : α} (h : KMap.find? m k = some v) : (k, v) ∈ m := by
  induction m with
  | nil => cases h
  | cons e r ih =>
    obtain ⟨a, w⟩ := e
    rw [KMap.find?] at h
    split at h
    next hk => cases h; exact hk ▸ List.mem_cons_self ..
    next => exact List.mem_cons_of_mem _ (ih h)

theorem KMap.pairwise_of_sorted (h : KMap.sorted m = true) : m.Pairwise fun x y => x.1 < y.1 := by
  induction m with
  | nil => exact .nil
  | cons e r ih =>
    obtain ⟨habove, hr⟩ := (KMap.sorted_cons e.1 e.2 r).1 h
    exact .cons habove (ih hr)

theorem KMap.find?_of_mem (h : KMap.sorted m = true) {e : Nat × α} (he : e ∈ m) : KMap.find? m e.1 = some e.2 := by
  induction m with
  | nil => cases he
  | cons x r ih =>
    obtain ⟨habove, hr⟩ := (KMap.sorted_cons x.1 x.2 r).1 h
    obtain rfl | he := List.mem_cons.1 he
    · exact if_pos rfl
    · exact (if_neg (Nat.ne_of_gt (habove e he))).trans (ih hr he)

end

/-! The search (R188). -/

/-- The entry `x` answers a search. -/
abbrev CwdMatch (s : State) (key mask banks units start : Nat) (x : Nat × CwdEnt) : Prop :=
  bitOf banks (x.1 / 32768) = true ∧ bankUnits s (x.1 / 32768) = units ∧ start ≤ x.1 % 32768 ∧ x.2.key &&& mask = key &&& mask

theorem cwdSearch_eq (s : State) (key mask banks units start : Nat) : cwdSearch s key mask banks units start =
    (List.find? (fun x => decide (CwdMatch s key mask banks units start x)) s.cwd.ents).map fun x => (x.1 / 32768, x.1 % 32768, x.2) := by
  unfold cwdSearch
  refine congrArg (Option.map _) (congrArg (List.find? · s.cwd.ents) (funext fun x => ?_))
  simp only [Bool.decide_and, Bool.decide_eq_true, Bool.and_assoc]
  rfl

theorem cwdSearch_none {s : State} {key mask banks units start : Nat} (h : ∀ x ∈ s.cwd.ents, ¬ CwdMatch s key mask banks units start x) :
    cwdSearch s key mask banks units start = none := by
  rw [cwdSearch_eq, List.find?_eq_none.2 fun x hx hd => h x hx (of_decide_eq_true hd)]
  rfl

theorem cwdKey_div {p : Nat} (hp : p < 32768) (b : Nat) : cwdKey b p / 32768 = b := by unfold cwdKey; omega

theorem cwdKey_mod {p : Nat} (hp : p < 32768) (b : Nat) : cwdKey b p % 32768 = p := by unfold cwdKey; omega

theorem cwdKey_divMod (k : Nat) : cwdKey (k / 32768) (k % 32768) = k := by unfold cwdKey; omega

/-- Of the entries that answer a search, listed by rising place, it finds the one of the lowest place. -/
theorem cwdSearch_least {s : State} (hs : KMap.sorted s.cwd.ents = true) {key mask banks units start b p : Nat} {e : CwdEnt} (hp : p < 32768)
    (he : cwdEnt s b p = some e) (hbank : bitOf banks b = true) (hunits : bankUnits s b = units) (hstart : start ≤ p)
    (hkey : e.key &&& mask = key &&& mask)
    (hleast : ∀ x ∈ s.cwd.ents, CwdMatch s key mask banks units start x → cwdKey b p ≤ x.1) :
    cwdSearch s key mask banks units start = some (b, p, e) := by
  have hfound : (List.find? (fun x => decide (CwdMatch s key mask banks units start x)) s.cwd.ents) = some (cwdKey b p, e) := by
    refine find?_eq_some_of_least (KMap.pairwise_of_sorted hs) (KMap.mem_of_find? he) (decide_eq_true ?_)
      fun x hx hd => hleast x hx (of_decide_eq_true hd)
    simpa only [CwdMatch, cwdKey_div hp, cwdKey_mod hp] using ⟨hbank, hunits, hstart, hkey⟩
  rw [cwdSearch_eq, hfound, Option.map_some, cwdKey_div hp, cwdKey_mod hp]

/-- A search does not depend on more than the entries, and the widths of the banks it selects. -/
theorem cwdSearch_congr {s t : State} {banks : Nat} (hents : t.cwd.ents = s.cwd.ents)
    (hunits : ∀ x ∈ s.cwd.ents, bitOf banks (x.1 / 32768) = true → bankUnits t (x.1 / 32768) = bankUnits s (x.1 / 32768))
    (key mask units start : Nat) : cwdSearch t key mask banks units start = cwdSearch s key mask banks units start := by
  rw [cwdSearch_eq, cwdSearch_eq, hents]
  refine congrArg (Option.map _) (List.find?_congr fun x hx => decide_eq_decide.2 ?_)
  exact and_congr_right fun hbank => by rw [hunits x hx hbank]

/-! The register fields that the unit reads, beside those that it counts in. -/

/-- The field that counts searches leaves the widths of the banks, and the key and mask registers. -/
theorem cwdFields_uncounted : (∀ b < 8, (CWD_BANK_CFG.WIDTH b).base ≠ (CWD_CNT.COUNT 0).base) ∧
    ∀ k < 12, (CWD_KEY.BITS k).base ≠ (CWD_CNT.COUNT 0).base ∧ (CWD_MASK.BITS k).base ≠ (CWD_CNT.COUNT 0).base := by
  decide

/-- The state in which a search is counted (R188). -/
abbrev searchCounted (s : State) : State := s.bump (CWD_CNT.COUNT 0)

theorem bankUnits_searchCounted (s : State) {b : Nat} (hb : b < 8) : bankUnits (searchCounted s) b = bankUnits s b := by
  rw [bankUnits, bankUnits, rd_bump_base s (cwdFields_uncounted.1 b hb) (by decide)]

theorem cwdUnits_le {w : Nat} (hw : w < 4) : cwdUnits w ≤ 4 := by
  unfold cwdUnits
  split <;> omega

theorem foldl_range_congr {β : Type} {f g : β → Nat → β} {n : Nat} (h : ∀ x, ∀ k < n, f x k = g x k) (a : β) :
    (List.range n).foldl f a = (List.range n).foldl g a :=
  List.foldl_ext f g a fun x k hk => h x k (List.mem_range.1 hk)

theorem cwdRegKey_searchCounted (s : State) {u : Nat} (hu : u ≤ 4) : cwdRegKey (searchCounted s) u = cwdRegKey s u :=
  foldl_range_congr (fun n k hk => by rw [rd_bump_base s (cwdFields_uncounted.2 k (by omega)).1 (by decide)]) 0

theorem cwdRegMask_searchCounted (s : State) {u : Nat} (hu : u ≤ 4) : cwdRegMask (searchCounted s) u = cwdRegMask s u :=
  foldl_range_congr (fun n k hk => by rw [rd_bump_base s (cwdFields_uncounted.2 k (by omega)).2 (by decide)]) 0

/-! What a search or a read answers. -/

/-- The result registers and the status after a hit (R188, R189). -/
theorem rd_cwdResult (b p res : Nat) (s : State) :
    let t := (cwdResult 1 b p res s).wr CWD_STS.STATUS 0 ST.OK
    t.rd CWD_RES.HIT = 1 ∧ t.rd CWD_RES.BANK = b % 8 ∧ t.rd CWD_RES.POS = p % 32768 ∧ t.rd CWD_RES.RESULT = res % 2 ^ 32 ∧
      t.rd CWD_STS.STATUS = ST.OK := by
  refine ⟨?_, ?_, ?_, ?_, rd_wr_self ..⟩
  · rw [cwdResult, rd_wr_apart, rd_wr_apart, rd_wr_apart, rd_wr_apart, rd_wr_self] <;> decide
  · rw [cwdResult, rd_wr_apart, rd_wr_apart, rd_wr_apart, rd_wr_self]
    · rfl
    all_goals decide
  · rw [cwdResult, rd_wr_apart, rd_wr_apart, rd_wr_self]
    · rfl
    all_goals decide
  · rw [cwdResult, rd_wr_apart, rd_wr_self]
    · rfl
    decide

theorem rd_cwdMissed (s : State) : let t := (s.wr CWD_RES.HIT 0 0).wr CWD_STS.STATUS 0 ST.CWD_NOT_FOUND
    t.rd CWD_RES.HIT = 0 ∧ t.rd CWD_STS.STATUS = ST.CWD_NOT_FOUND := by
  refine ⟨?_, rd_wr_self ..⟩
  rw [rd_wr_apart, rd_wr_self]
  · rfl
  · decide

/-- The fields that a hit and its status write. -/
abbrev hitKeys : List Nat := [CWD_RES.HIT.key 0, CWD_RES.BANK.key 0, CWD_RES.POS.key 0, CWD_RES.RESULT.key 0, CWD_STS.STATUS.key 0]

theorem cwdResult_regsOnly (hit b p res st : Nat) (s : State) : RegsOnly s ((cwdResult hit b p res s).wr CWD_STS.STATUS 0 st) hitKeys :=
  (((((RegsOnly.refl s).andWr ..).andWr ..).andWr ..).andWr ..).andWr ..

theorem cwdMissed_regsOnly (s : State) : RegsOnly s ((s.wr CWD_RES.HIT 0 0).wr CWD_STS.STATUS 0 ST.CWD_NOT_FOUND)
    [CWD_RES.HIT.key 0, CWD_STS.STATUS.key 0] :=
  ((RegsOnly.refl s).andWr ..).andWr ..

section
variable {w banks pos : Nat} {bad : List (Nat × Nat)} {s u : State} (hu : parityFails bad (searchCounted s) = u)
include hu

theorem exec_cwdSearch_hit {b p : Nat} {e : CwdEnt}
    (h : cwdSearch u (cwdRegKey u (cwdUnits w)) (cwdRegMask u (cwdUnits w)) banks (cwdUnits w) pos = some (b, p, e)) :
    exec (.cwdSearch w banks pos bad) s = .next ((cwdResult 1 b p e.res u).wr CWD_STS.STATUS 0 ST.OK) := by
  subst hu
  change execCwdSearch w banks pos bad s = _
  simp only [execCwdSearch, h]

theorem exec_cwdSearch_miss (h : cwdSearch u (cwdRegKey u (cwdUnits w)) (cwdRegMask u (cwdUnits w)) banks (cwdUnits w) pos = none) :
    exec (.cwdSearch w banks pos bad) s = .next ((u.wr CWD_RES.HIT 0 0).wr CWD_STS.STATUS 0 ST.CWD_NOT_FOUND) := by
  subst hu
  change execCwdSearch w banks pos bad s = _
  simp only [execCwdSearch, h]

/-- A search ends in a state that differs in register fields from the one in which its parity failures are reported. -/
theorem exec_cwdSearch_regs : ∃ t, exec (.cwdSearch w banks pos bad) s = .next t ∧ { t with regs := u.regs } = u := by
  cases h : cwdSearch u (cwdRegKey u (cwdUnits w)) (cwdRegMask u (cwdUnits w)) banks (cwdUnits w) pos with
  | none => exact ⟨_, exec_cwdSearch_miss hu h, (cwdMissed_regsOnly ..).1⟩
  | some r =>
    obtain ⟨b, p, e⟩ := r
    exact ⟨_, exec_cwdSearch_hit hu h, (cwdResult_regsOnly ..).1⟩

end

/-- What a search without parity failures looks up is what stands before it is counted. -/
theorem cwdSearch_searchCounted {s : State} (hents : ∀ x ∈ s.cwd.ents, x.1 < 8 * 32768) {w : Nat} (hw : w < 4) (banks pos : Nat) :
    cwdSearch (searchCounted s) (cwdRegKey (searchCounted s) (cwdUnits w)) (cwdRegMask (searchCounted s) (cwdUnits w)) banks (cwdUnits w) pos =
      cwdSearch s (cwdRegKey s (cwdUnits w)) (cwdRegMask s (cwdUnits w)) banks (cwdUnits w) pos := by
  have hu := cwdUnits_le hw
  rw [cwdRegKey_searchCounted s hu, cwdRegMask_searchCounted s hu]
  refine cwdSearch_congr (s := s) (t := searchCounted s) rfl (fun x hx _ => bankUnits_searchCounted s ?_) ..
  have hlt := hents x hx
  omega

end Sys2Proof.Machine
end

section
/-!
PROOFS. What the commands of the catchword unit do to its entries (R187, R189, R190): the free places of a group, inserts, ordered
inserts, deletes and reads, and the entries that parity loses.
-/
namespace Sys2Proof.Machine

/-! Free places (R189). -/

theorem mem_groupFree {s : State} {b g q : Nat} : q ∈ groupFree s b g ↔ q / 64 = g ∧ cwdEnt s b q = none := by
  simp only [groupFree, List.mem_filterMap, List.mem_range, Option.isNone_iff_eq_none, Option.ite_none_right_eq_some, Option.some.injEq]
  constructor
  · rintro ⟨i, hi, hfree, rfl⟩
    exact ⟨by omega, hfree⟩
  · rintro ⟨rfl, hfree⟩
    have hq : 64 * (q / 64) + q % 64 = q := by omega
    exact ⟨q % 64, by omega, by rwa [hq], hq⟩

theorem groupFree_pairwise (s : State) (b g : Nat) : (groupFree s b g).Pairwise (· < ·) := by
  refine List.Pairwise.filterMap _ (fun i j hij x hx y hy => ?_) List.pairwise_lt_range
  simp only [Option.ite_none_right_eq_some, Option.some.injEq] at hx hy
  omega

/-- The first free place at or above `p` in its group is the free one below which, from `p` on, none is. -/
theorem groupFree_first {s : State} {b p q : Nat} (hg : q / 64 = p / 64) (hpq : p ≤ q) (hfree : cwdEnt s b q = none)
    (hocc : ∀ j, p ≤ j → j < q → (cwdEnt s b j).isSome = true) :
    (groupFree s b (p / 64)).find? (fun x => decide (p ≤ x)) = some q := by
  refine find?_eq_some_of_least (rank := id) (groupFree_pairwise ..) (mem_groupFree.2 ⟨hg, hfree⟩) (decide_eq_true hpq) fun x hx hd => ?_
  by_contra hlt
  have hsome := hocc x (of_decide_eq_true hd) (Nat.lt_of_not_le hlt)
  rw [(mem_groupFree.1 hx).2] at hsome
  exact Bool.false_ne_true hsome

/-- The group in which an unordered insert finds its place: the first that keeps two free. -/
abbrev groupWithRoom (s : State) (b : Nat) : Option (List Nat) :=
  ((List.range (bankPlaces s b / 64)).map (groupFree s b)).find? fun l => decide (2 ≤ l.length)

theorem groupWithRoom_none {s : State} {b : Nat} (h : ∀ g, (groupFree s b g).length < 2) : groupWithRoom s b = none := by
  refine List.find?_eq_none.2 fun l hl hd => ?_
  obtain ⟨g, -, rfl⟩ := List.mem_map.1 hl
  exact Nat.not_le.2 (h g) (of_decide_eq_true hd)

/-- Where a group keeps two places free, an insert finds one of them in the bank, and another remains. -/
theorem groupWithRoom_some {s : State} {b g : Nat} (hg : g < bankPlaces s b / 64) (hlen : 2 ≤ (groupFree s b g).length) :
    ∃ p q r, groupWithRoom s b = some (p :: q :: r) ∧ p < bankPlaces s b ∧ cwdEnt s b p = none ∧ q ≠ p ∧ q / 64 = p / 64 ∧ cwdEnt s b q = none := by
  have hsome : (groupWithRoom s b).isSome = true :=
    List.find?_isSome.2 ⟨_, List.mem_map.2 ⟨g, List.mem_range.2 hg, rfl⟩, decide_eq_true hlen⟩
  obtain ⟨l, hl⟩ := Option.isSome_iff_exists.1 hsome
  have hroom : 2 ≤ l.length := by simpa using List.find?_some hl
  obtain ⟨g', hg', rfl⟩ := List.mem_map.1 (List.mem_of_find?_eq_some hl)
  obtain ⟨p, q, r, hpqr⟩ : ∃ p q r, groupFree s b g' = p :: q :: r := by
    match hm : groupFree s b g' with
    | [] => rw [hm] at hroom; exact absurd hroom (by simp)
    | [_] => rw [hm] at hroom; exact absurd hroom (by simp)
    | p :: q :: r => exact ⟨p, q, r, rfl⟩
  obtain ⟨hp, hpfree⟩ := mem_groupFree.1 (hpqr ▸ List.mem_cons_self .. : p ∈ groupFree s b g')
  obtain ⟨hq, hqfree⟩ := mem_groupFree.1 (hpqr ▸ List.mem_cons_of_mem _ (List.mem_cons_self ..) : q ∈ groupFree s b g')
  have hlt : p < q := List.rel_of_pairwise_cons (hpqr ▸ groupFree_pairwise s b g') (List.mem_cons_self ..)
  have hbank := List.mem_range.1 hg'
  exact ⟨p, q, r, hpqr ▸ hl, by omega, hpfree, by omega, by omega, hqfree⟩

theorem bankPlaces_le (s : State) (b : Nat) : bankPlaces s b ≤ 32768 := by
  unfold bankPlaces
  split
  · omega
  · exact Nat.div_le_self ..

/-! Entries put and dropped. -/

theorem cwdKey_inj_left {b p q : Nat} (h : p ≠ q) : cwdKey b p ≠ cwdKey b q := by unfold cwdKey; omega

theorem cwdEnt_cwdPut_self (b p : Nat) (e : CwdEnt) (s : State) : cwdEnt (cwdPut b p e s) b p = some e := KMap.find?_insert_self ..

theorem cwdPut_sameBut (b p : Nat) (e : CwdEnt) (s : State) : SameBut s.cwd.ents (cwdPut b p e s).cwd.ents (cwdKey b p) :=
  fun _ hk => KMap.find?_insert_other _ _ hk

theorem cwdEnt_cwdDrop_self (b p : Nat) (s : State) : cwdEnt (cwdDrop b p s) b p = none := KMap.find?_erase_self ..

theorem cwdDrop_sameBut (b p : Nat) (s : State) : SameBut s.cwd.ents (cwdDrop b p s).cwd.ents (cwdKey b p) :=
  fun _ hk => KMap.find?_erase_other _ hk

theorem cwdEnt_wr (s : State) (f : Fld) (i v b p : Nat) : cwdEnt (s.wr f i v) b p = cwdEnt s b p := rfl

/-! Entries moved up (R189). -/

/-- Moving up the entries from `p` on moves those above `p`, and then that at `p`. -/
theorem cwdShift_moves {b p q : Nat} {s : State} {e : CwdEnt} (hpq : p < q) (he : cwdEnt (cwdShift b (p + 1) q s) b p = some e) :
    cwdShift b p q s = cwdPut b (p + 1) e (cwdDrop b p (cwdShift b (p + 1) q s)) := by
  have hn : q - p = q - (p + 1) + 1 := by omega
  have hfrom : q - 1 - (q - (p + 1)) = p := by omega
  have hto : q - (q - (p + 1)) = p + 1 := by omega
  unfold cwdShift at he ⊢
  rw [hn, List.range_succ, List.foldl_append, List.foldl_cons, List.foldl_nil, hfrom, hto, he]

/-- Where the entries of positions `[p, q)` are moved up to the free place `q`, `p` is free, each place above it up to `q` holds
what stood before it, and every other place what it held. -/
theorem find?_cwdShift {b p q : Nat} {s : State} (hpq : p ≤ q) (hfree : cwdEnt s b q = none)
    (hocc : ∀ j, p ≤ j → j < q → (cwdEnt s b j).isSome = true) (k : Nat) :
    KMap.find? (cwdShift b p q s).cwd.ents k =
      if k = cwdKey b p then none else if cwdKey b p < k ∧ k ≤ cwdKey b q then KMap.find? s.cwd.ents (k - 1) else KMap.find? s.cwd.ents k := by
  induction hpq using Nat.decreasingInduction generalizing k with
  | self =>
    have hid : cwdShift b q q s = s := by simp [cwdShift]
    rw [hid]
    split
    next hk => exact hk ▸ hfree
    next => exact (if_neg (by omega)).symm
  | of_succ p hpq ih =>
    have ih := ih fun j hj => hocc j (by omega)
    obtain ⟨e, he⟩ := Option.isSome_iff_exists.1 (hocc p (Nat.le_refl _) hpq)
    have hsucc : cwdKey b (p + 1) = cwdKey b p + 1 := rfl
    have hstands : cwdEnt (cwdShift b (p + 1) q s) b p = some e := by
      rw [cwdEnt, ih, if_neg (by omega), if_neg (by omega)]
      exact he
    have hle : cwdKey b (p + 1) ≤ cwdKey b q := Nat.add_le_add_left hpq _
    have hput := cwdPut_sameBut b (p + 1) e (cwdDrop b p (cwdShift b (p + 1) q s))
    have hdrop := cwdDrop_sameBut b p (cwdShift b (p + 1) q s)
    rw [cwdShift_moves hpq hstands]
    by_cases htop : k = cwdKey b (p + 1)
    · rw [if_neg (by omega), if_pos (by omega), htop, hsucc]
      exact (cwdEnt_cwdPut_self ..).trans he.symm
    · rw [hput k htop]
      by_cases hk : k = cwdKey b p
      · rw [if_pos hk, hk]
        exact cwdEnt_cwdDrop_self ..
      · rw [hdrop k hk, ih, if_neg htop, if_neg hk]
        exact if_congr (by omega) rfl rfl

/-- Moving entries up changes nothing but entries. -/
theorem cwdShift_frame (b p q : Nat) (s : State) : { cwdShift b p q s with cwd.ents := s.cwd.ents } = s := by
  unfold cwdShift
  refine foldl_invariant (I := fun t : State => { t with cwd.ents := s.cwd.ents } = s) (fun t i _ ht => ?_) rfl
  split
  · exact ht
  · exact ht

/-! Inserts (R189). -/

section
variable {s : State} {b p key res : Nat}

theorem cwdInsert_dup (h : cwdHas s b key = true) : cwdInsert b key res s = cwdRefuse ST.CWD_DUP s := if_pos h

section
variable (h : cwdHas s b key = false)
include h

theorem cwdInsert_full (hroom : groupWithRoom s b = none) : cwdInsert b key res s = cwdRefuse ST.CWD_GROUP_FULL s := by
  simp only [cwdInsert, h, hroom, Bool.false_eq_true, if_false]

theorem cwdInsert_placed {r : List Nat} (hroom : groupWithRoom s b = some (p :: r)) :
    cwdInsert b key res s = (ST.OK, p, cwdPut b p { key := key, res := res } s) := by
  simp only [cwdInsert, h, hroom, Bool.false_eq_true, if_false]

theorem cwdInsertAt_full (hlen : (groupFree s b (p / 64)).length < 2) : cwdInsertAt b p key res s = cwdRefuse ST.CWD_GROUP_FULL s := by
  simp only [cwdInsertAt, h, Bool.false_eq_true, if_false]
  split
  · exact if_neg fun hroom => Nat.not_le.2 hlen hroom.2
  · rfl

theorem cwdInsertAt_placed {q : Nat} (hp : p < bankPlaces s b) (hlen : 2 ≤ (groupFree s b (p / 64)).length)
    (hfirst : (groupFree s b (p / 64)).find? (fun x => decide (p ≤ x)) = some q) :
    cwdInsertAt b p key res s = (ST.OK, p, cwdPut b p { key := key, res := res } (cwdShift b p q s)) := by
  simp only [cwdInsertAt, h, hfirst, Bool.false_eq_true, if_false]
  exact if_pos ⟨hp, hlen⟩

end

/-- What the unit shows of a refused insert: its status, and the count of refusals. -/
theorem cwdInsertDone_refused {st : Nat} (hst : st ≠ ST.OK) (hlt : st < 2 ^ 16) (b : Nat) (s : State) :
    let t := cwdInsertDone b (cwdRefuse st s)
    t.rd CWD_STS.STATUS = st ∧ t.rd (CWD_CNT.COUNT 3) = min (2 ^ 32 - 1) (s.rd (CWD_CNT.COUNT 3) + 1) ∧
      RegsOnly s t [(CWD_CNT.COUNT 3).key 0, CWD_STS.STATUS.key 0] := by
  have hdone : cwdInsertDone b (cwdRefuse st s) = (s.bump (CWD_CNT.COUNT 3)).wr CWD_STS.STATUS 0 st :=
    congrArg (fun u : State => u.wr CWD_STS.STATUS 0 st) (if_neg hst)
  rw [hdone]
  refine ⟨(rd_wr_self ..).trans (Nat.mod_eq_of_lt hlt), ?_, ((RegsOnly.refl s).andWr ..).andWr ..⟩
  rw [rd_wr_apart _ _ _ (by decide)]
  exact rd_bump_self ..

/-- What the unit shows of an insert that has found its place. -/
theorem cwdInsertDone_placed (b p : Nat) (s : State) :
    let t := cwdInsertDone b (ST.OK, p, s)
    t.rd CWD_RES.BANK = b % 8 ∧ t.rd CWD_RES.POS = p % 2 ^ 15 ∧ t.rd CWD_STS.STATUS = ST.OK ∧ { t with regs := s.regs } = s := by
  refine ⟨?_, ?_, rd_wr_self .., ((((RegsOnly.refl s).andWr ..).andWr ..).andWr CWD_STS.STATUS 0 ST.OK).1⟩ <;>
    simp only [cwdInsertDone, if_true]
  · rw [rd_wr_apart _ _ _ (by decide), rd_wr_apart _ _ _ (by decide), rd_wr_self]
    rfl
  · rw [rd_wr_apart _ _ _ (by decide), rd_wr_self]
    rfl

theorem cwd_cwdInsertDone (b p : Nat) (s : State) : (cwdInsertDone b (ST.OK, p, s)).cwd = s.cwd := by
  simp only [cwdInsertDone, if_true, wr_cwd]

end

section
variable {s : State} {w b : Nat} (hb : b < 8)
include hb

theorem exec_cwdInsert_misfit (h : ¬ (bankUnits s b = cwdUnits w ∧ 0 < cwdUnits w)) :
    exec (.cwdInsert w b) s = .next (cwdInsertDone b (cwdRefuse ST.CWD_GROUP_FULL s)) := by
  change execCwdInsert w b s = _
  simp only [execCwdInsert, Nat.mod_eq_of_lt hb, if_neg h]

theorem exec_cwdInsertOrdered_misfit (h : ¬ (bankUnits s b = cwdUnits w ∧ 0 < cwdUnits w)) (pos : Nat) :
    exec (.cwdInsertOrdered w b pos) s = .next (cwdInsertDone b (cwdRefuse ST.CWD_GROUP_FULL s)) := by
  change execCwdInsertOrdered w b pos s = _
  simp only [execCwdInsertOrdered, Nat.mod_eq_of_lt hb, if_neg h]

theorem exec_cwdInsert_fits (h : bankUnits s b = cwdUnits w ∧ 0 < cwdUnits w) :
    exec (.cwdInsert w b) s = .next (cwdInsertDone b (cwdInsert b (cwdRegKey s (cwdUnits w)) (s.rd CWD_DATA.RESULT) s)) := by
  change execCwdInsert w b s = _
  simp only [execCwdInsert, Nat.mod_eq_of_lt hb, if_pos h]

theorem exec_cwdInsertOrdered_fits (h : bankUnits s b = cwdUnits w ∧ 0 < cwdUnits w) (pos : Nat) :
    exec (.cwdInsertOrdered w b pos) s =
      .next (cwdInsertDone b (cwdInsertAt b pos (cwdRegKey s (cwdUnits w)) (s.rd CWD_DATA.RESULT) s)) := by
  change execCwdInsertOrdered w b pos s = _
  simp only [execCwdInsertOrdered, Nat.mod_eq_of_lt hb, if_pos h]

/-- A bank of another width, or one without a group that keeps two places free for a new key, refuses both inserts. -/
theorem exec_cwdInserts_full (h : bankUnits s b ≠ cwdUnits w ∨ cwdUnits w = 0 ∨
      (cwdHas s b (cwdRegKey s (cwdUnits w)) = false ∧ ∀ g, (groupFree s b g).length < 2)) (pos : Nat) :
    exec (.cwdInsert w b) s = .next (cwdInsertDone b (cwdRefuse ST.CWD_GROUP_FULL s)) ∧
      exec (.cwdInsertOrdered w b pos) s = .next (cwdInsertDone b (cwdRefuse ST.CWD_GROUP_FULL s)) := by
  by_cases hfit : bankUnits s b = cwdUnits w ∧ 0 < cwdUnits w
  · obtain h | h | ⟨hnew, hfull⟩ := h
    · exact absurd hfit.1 h
    · exact absurd hfit.2 (by omega)
    · rw [exec_cwdInsert_fits hb hfit, exec_cwdInsertOrdered_fits hb hfit, cwdInsert_full hnew (groupWithRoom_none hfull),
        cwdInsertAt_full hnew (hfull _)]
      exact ⟨rfl, rfl⟩
  · exact ⟨exec_cwdInsert_misfit hb hfit, exec_cwdInsertOrdered_misfit hb hfit pos⟩

/-! Deletes and reads (R189). -/

section
variable {p : Nat} {e : CwdEnt} (he : cwdEnt s b p = some e)
include he

theorem exec_cwdDelete_held : exec (.cwdDelete b p) s = .next ((cwdDrop b p s).wr CWD_STS.STATUS 0 ST.OK) := by
  change execCwdDelete b p s = _
  simp only [execCwdDelete, Nat.mod_eq_of_lt hb, he]

/-- The words `l` of an entry's key in the key registers. -/
abbrev keyWords (e : CwdEnt) (l : List Nat) (s : State) : State :=
  l.foldl (fun s k => s.wr (CWD_KEY.BITS k) 0 (bits e.key (32 * k) 32)) s

theorem exec_cwdRead_held : exec (.cwdRead b p false) s = .next ((cwdResult 1 b p e.res (keyWords e (List.range 12) s)).wr CWD_STS.STATUS 0 ST.OK) := by
  change execCwdRead b p false s = _
  simp only [execCwdRead, Nat.mod_eq_of_lt hb, Bool.false_eq_true, if_false, he]

end

theorem exec_cwdDelete_empty {p : Nat} (he : cwdEnt s b p = none) : exec (.cwdDelete b p) s = .next (s.wr CWD_STS.STATUS 0 ST.CWD_NOT_FOUND) := by
  change execCwdDelete b p s = _
  simp only [execCwdDelete, Nat.mod_eq_of_lt hb, he]

theorem exec_cwdRead_empty {p : Nat} (he : cwdEnt s b p = none) :
    exec (.cwdRead b p false) s = .next ((s.wr CWD_RES.HIT 0 0).wr CWD_STS.STATUS 0 ST.CWD_NOT_FOUND) := by
  change execCwdRead b p false s = _
  simp only [execCwdRead, Nat.mod_eq_of_lt hb, Bool.false_eq_true, if_false, he]

theorem exec_cwdRead_lost {p : Nat} (he : cwdEnt (parityFail b p s) b p = none) :
    exec (.cwdRead b p true) s = .next (((parityFail b p s).wr CWD_RES.HIT 0 0).wr CWD_STS.STATUS 0 ST.CWD_NOT_FOUND) := by
  change execCwdRead b p true s = _
  simp only [execCwdRead, Nat.mod_eq_of_lt hb, if_true, he]

end

theorem keyWords_regsOnly (e : CwdEnt) (l : List Nat) (s : State) : { keyWords e l s with regs := s.regs } = s :=
  regs_foldl (fun s k => s.wr (CWD_KEY.BITS k) 0 (bits e.key (32 * k) 32)) (by exact fun _ _ => rfl) l s

theorem keyField_base (k : Nat) : (CWD_KEY.BITS k).base = (Win.cwd.ix * 2 ^ 20 + (0x10 + 4 * k)) * 64 := by
  rfl

/-- The registers of a key keep apart from one another, and from the result and status. -/
theorem keyFields_apart {k j : Nat} (h : k ≠ j) : (CWD_KEY.BITS k).base ≠ (CWD_KEY.BITS j).base := by
  have hk := keyField_base k
  have hj := keyField_base j
  omega

theorem keyFields_unshown {k : Nat} (hk : k < 12) {f : Fld}
    (hf : f ∈ [CWD_RES.HIT, CWD_RES.BANK, CWD_RES.POS, CWD_RES.RESULT, CWD_STS.STATUS]) : (CWD_KEY.BITS k).base ≠ f.base := by
  obtain ⟨hwin, hoff⟩ : f.win = .cwd ∧ 0x78 ≤ f.off := by
    revert f
    decide
  rw [keyField_base, Fld.base, hwin]
  omega

/-- Word `k` of CWD_KEY becomes that of the entry's key. -/
theorem rd_keyWords (e : CwdEnt) {l : List Nat} (hl : l.Nodup) {k : Nat} (hk : k ∈ l) (s : State) :
    (keyWords e l s).rd (CWD_KEY.BITS k) = bits e.key (32 * k) 32 := by
  refine foldl_at (f := fun s k => s.wr (CWD_KEY.BITS k) 0 (bits e.key (32 * k) 32)) (J := fun _ => True)
    (Q := fun t : State => t.rd (CWD_KEY.BITS k) = bits e.key (32 * k) 32) hl hk (fun _ _ _ _ _ => trivial)
    (fun t _ => (rd_wr_self ..).trans (Nat.mod_eq_of_lt (bits_lt ..))) (fun t j _ hne ht => ?_) trivial
  rwa [rd_wr_apart _ _ _ (keyFields_apart hne.symm)]

/-! Parity (R190). -/

/-- `t` differs from `s` in register fields, handlers and entries alone. -/
abbrev ParityOnly (s t : State) : Prop := { t with regs := s.regs, ras.handlers := s.ras.handlers, cwd.ents := s.cwd.ents } = s

theorem ParityOnly.trans {s t u : State} (h : ParityOnly s t) (g : ParityOnly t u) : ParityOnly s u :=
  (congrArg (fun x : State => { x with regs := s.regs, ras.handlers := s.ras.handlers, cwd.ents := s.cwd.ents }) g).trans h

theorem ParityOnly.andWr {s t : State} (h : ParityOnly s t) (f : Fld) (i v : Nat) : ParityOnly s (t.wr f i v) := h

theorem ParityOnly.mem {s t : State} (h : ParityOnly s t) : t.mem = s.mem := by
  have e := congrArg State.mem h
  exact e

theorem ParityOnly.flo {s t : State} (h : ParityOnly s t) : t.flo = s.flo := by
  have e := congrArg State.flo h
  exact e

/-- The state in which an entry that parity loses is gone, counted and logged, before its record is entered. -/
abbrev parityLogged (b p : Nat) (e : CwdEnt) (s : State) : State :=
  ((((cwdDrop b p s).bump (CWD_CNT.COUNT 2)).wr CWD_ERR_LOG.BANK 0 b).wr CWD_ERR_LOG.TYPE 0 (bits e.key 92 4)).wr CWD_ERR_LOG.POS 0 p

section
variable {s : State} {b p : Nat}

theorem parityFail_empty (h : cwdEnt s b p = none) : parityFail b p s = s := by
  simp only [parityFail, h]

theorem parityFail_held {e : CwdEnt} (h : cwdEnt s b p = some e) : parityFail b p s =
    report .chip { sev := 2, subsys := 7, cause := Config.causeCode 20, addr := p } (parityLogged b p e s) := by
  simp only [parityFail, h]

end

theorem HandsOnly.cwd {s t : State} (h : HandsOnly s t) : t.cwd = s.cwd := by
  have e : { t with regs := s.regs, ras.handlers := s.ras.handlers }.cwd = s.cwd := by rw [h]
  exact e

theorem parityFail_frame (b p : Nat) (s : State) : ParityOnly s (parityFail b p s) := by
  cases h : cwdEnt s b p with
  | none => rw [parityFail_empty h]
  | some e =>
    rw [parityFail_held h]
    have hreport := congrArg (fun x : State => { x with cwd.ents := (parityLogged b p e s).cwd.ents }) (report_frame .chip
      { sev := 2, subsys := 7, cause := Config.causeCode 20, addr := p } (parityLogged b p e s))
    have hdrop : ParityOnly s (cwdDrop b p s) := rfl
    exact ((((hdrop.andWr ..).andWr ..).andWr ..).andWr ..).trans hreport

/-- Parity drops the entry at its place, and no other. -/
theorem find?_parityFail (b p : Nat) (s : State) (k : Nat) :
    KMap.find? (parityFail b p s).cwd.ents k = if k = cwdKey b p then none else KMap.find? s.cwd.ents k := by
  cases h : cwdEnt s b p with
  | none =>
    rw [parityFail_empty h]
    split
    next hk => exact hk ▸ h
    next => rfl
  | some e =>
    rw [parityFail_held h, (report_frame ..).cwd]
    split
    next hk => exact hk ▸ cwdEnt_cwdDrop_self b p s
    next hk => exact cwdDrop_sameBut b p s k hk

theorem parityCount_unreported : (CWD_CNT.COUNT 2).base ∉ reportKeys.map (· / 2 ^ 20) := by decide

/-- An entry that parity drops is counted in CWD_CNT2. -/
theorem rd_parityFail (b p : Nat) (s : State) : (parityFail b p s).rd (CWD_CNT.COUNT 2) =
    if (cwdEnt s b p).isSome = true then min (2 ^ 32 - 1) (s.rd (CWD_CNT.COUNT 2) + 1) else s.rd (CWD_CNT.COUNT 2) := by
  cases h : cwdEnt s b p with
  | none => rw [parityFail_empty h]; rfl
  | some e =>
    rw [parityFail_held h, SameRegs.rd_base (report_chip_sameRegs _ _) parityCount_unreported (by decide), rd_wr_apart _ _ _ (by decide),
      rd_wr_apart _ _ _ (by decide), rd_wr_apart _ _ _ (by decide)]
    exact rd_bump_self ..

theorem parityFails_frame (bad : List (Nat × Nat)) (s : State) : ParityOnly s (parityFails bad s) :=
  foldl_invariant (I := ParityOnly s) (fun _ x _ ht => ht.trans (parityFail_frame x.1 x.2 _)) rfl

/-- The places that parity finds bad are empty afterwards. -/
theorem cwdEnt_parityFails {bad : List (Nat × Nat)} {x : Nat × Nat} (hx : x ∈ bad) (s : State) : cwdEnt (parityFails bad s) x.1 x.2 = none := by
  obtain ⟨l₁, l₂, rfl⟩ := List.append_of_mem hx
  rw [parityFails, List.foldl_append, List.foldl_cons]
  refine foldl_invariant (I := fun t => cwdEnt t x.1 x.2 = none) (fun t y _ ht => ?_) ((find?_parityFail ..).trans (if_pos rfl))
  rw [cwdEnt, find?_parityFail]
  split
  · rfl
  · exact ht

/-- Every other place holds what it held. -/
theorem find?_parityFails {bad : List (Nat × Nat)} {k : Nat} (hk : ∀ x ∈ bad, cwdKey x.1 x.2 ≠ k) (s : State) :
    KMap.find? (parityFails bad s).cwd.ents k = KMap.find? s.cwd.ents k :=
  foldl_keeps (fun t => KMap.find? t.cwd.ents k) (fun _ x hx => (find?_parityFail ..).trans (if_neg (hk x hx).symm)) s

/-- The entries that a sweep of places without repetition drops are each counted. -/
theorem rd_parityFails {bad : List (Nat × Nat)} (hbad : (bad.map fun x => cwdKey x.1 x.2).Nodup) {s : State}
    (hs : s.rd (CWD_CNT.COUNT 2) ≤ 2 ^ 32 - 1) : (parityFails bad s).rd (CWD_CNT.COUNT 2) =
      min (2 ^ 32 - 1) (s.rd (CWD_CNT.COUNT 2) + bad.countP fun x => (cwdEnt s x.1 x.2).isSome) := by
  induction bad generalizing s with
  | nil => exact (Nat.min_eq_right hs).symm
  | cons x r ih =>
    obtain ⟨hx, hr⟩ := List.nodup_cons.1 hbad
    have hcount := rd_parityFail x.1 x.2 s
    have hrest : (r.countP fun y => (cwdEnt (parityFail x.1 x.2 s) y.1 y.2).isSome) = r.countP fun y => (cwdEnt s y.1 y.2).isSome := by
      refine List.countP_congr fun y hy => ?_
      rw [cwdEnt, find?_parityFail, if_neg fun he => hx (List.mem_map.2 ⟨y, hy, he⟩), cwdEnt]
    have hle : (parityFail x.1 x.2 s).rd (CWD_CNT.COUNT 2) ≤ 2 ^ 32 - 1 := by
      rw [hcount]
      split <;> omega
    rw [parityFails, List.foldl_cons]
    rw [← parityFails, ih hr hle, hrest, hcount, List.countP_cons]
    split <;> omega

end Sys2Proof.Machine
end

section
/-!
PROOFS. The catchword unit's obligation (R187–R190), and the directory entry that the folio unit inserts again.
-/
namespace Sys2Proof.Machine

/-! An entry enters at its place. -/

/-- The entry that the key words and the result word hold. -/
abbrev regEnt (s : State) (w : Nat) : CwdEnt := { key := cwdRegKey s (cwdUnits w), res := s.rd CWD_DATA.RESULT }

/-- The state in which an insert has put the entry `e` at place `p` and answers it. -/
abbrev cwdEntered (b p : Nat) (e : CwdEnt) (s : State) : State := cwdInsertDone b (ST.OK, p, cwdPut b p e s)

section
variable (b p : Nat) (e : CwdEnt) (s : State)

theorem cwdEnt_cwdEntered_self : cwdEnt (cwdEntered b p e s) b p = some e := by
  rw [cwdEnt, cwd_cwdInsertDone]
  exact cwdEnt_cwdPut_self ..

theorem cwdEntered_sameBut : SameBut s.cwd.ents (cwdEntered b p e s).cwd.ents (cwdKey b p) := by
  rw [cwd_cwdInsertDone]
  exact cwdPut_sameBut b p e s

theorem cwdEntered_frame : { cwdEntered b p e s with regs := s.regs, cwd.ents := s.cwd.ents } = s := by
  obtain ⟨-, -, -, hregs⟩ := cwdInsertDone_placed b p (cwdPut b p e s)
  exact congrArg (fun x : State => { x with regs := s.regs, cwd.ents := s.cwd.ents }) hregs

end

section
variable {s : State} {w b : Nat} (hb : b < 8) (hfits : bankUnits s b = cwdUnits w ∧ 0 < cwdUnits w)
  (hnew : cwdHas s b (cwdRegKey s (cwdUnits w)) = false)
include hb hfits hnew

/-- An insert takes the first free place of a group that keeps another one free. -/
theorem exec_cwdInsert_enters {p : Nat} {r : List Nat} (hroom : groupWithRoom s b = some (p :: r)) :
    exec (.cwdInsert w b) s = .next (cwdEntered b p (regEnt s w) s) := by
  rw [exec_cwdInsert_fits hb hfits, cwdInsert_placed hnew hroom]

/-- An ordered insert takes its own place, once the entries from there to the first free place have moved up by one. -/
theorem exec_cwdInsertOrdered_enters {p q : Nat} (hp : p < bankPlaces s b) (hlen : 2 ≤ (groupFree s b (p / 64)).length)
    (hfirst : (groupFree s b (p / 64)).find? (fun q => decide (p ≤ q)) = some q) :
    exec (.cwdInsertOrdered w b p) s = .next (cwdEntered b p (regEnt s w) (cwdShift b p q s)) := by
  rw [exec_cwdInsertOrdered_fits hb hfits, cwdInsertAt_placed hnew hp hlen hfirst]

end

section
variable {s : State} {b p q : Nat} (hpq : p ≤ q) (hfree : cwdEnt s b q = none) (hocc : ∀ j, p ≤ j → j < q → (cwdEnt s b j).isSome = true)
  (e : CwdEnt)
include hpq hfree hocc

/-- The entries from the place of an ordered insert to the first free place have moved up by one. -/
theorem cwdEnt_cwdEntered_moved {j : Nat} (hpj : p ≤ j) (hjq : j < q) :
    cwdEnt (cwdEntered b p e (cwdShift b p q s)) b (j + 1) = cwdEnt s b j := by
  have hkey : cwdKey b (j + 1) = cwdKey b j + 1 := rfl
  have hlow : cwdKey b p ≤ cwdKey b j := Nat.add_le_add_left hpj _
  have hhigh : cwdKey b (j + 1) ≤ cwdKey b q := Nat.add_le_add_left hjq _
  rw [cwdEnt, cwdEntered_sameBut b p e _ _ (by omega), find?_cwdShift hpq hfree hocc, if_neg (by omega), if_pos (by omega)]
  rfl

/-- Places outside of these keep what they hold. -/
theorem find?_cwdEntered_outside {k : Nat} (hk : k < cwdKey b p ∨ cwdKey b q < k) :
    KMap.find? (cwdEntered b p e (cwdShift b p q s)).cwd.ents k = KMap.find? s.cwd.ents k := by
  have hle : cwdKey b p ≤ cwdKey b q := Nat.add_le_add_left hpq _
  rw [cwdEntered_sameBut b p e _ _ (by omega), find?_cwdShift hpq hfree hocc, if_neg (by omega), if_neg (by omega)]

end

/-! The entry that a read shows. -/

/-- The state in which a read shows the entry `e` of place `p`. -/
abbrev cwdShown (b p : Nat) (e : CwdEnt) (s : State) : State :=
  (cwdResult 1 b p e.res (keyWords e (List.range 12) s)).wr CWD_STS.STATUS 0 ST.OK

theorem rd_cwdShown_key (b p : Nat) (e : CwdEnt) (s : State) {k : Nat} (hk : k < 12) :
    (cwdShown b p e s).rd (CWD_KEY.BITS k) = bits e.key (32 * k) 32 := by
  have hapart (f : Fld) (hf : f ∈ [CWD_RES.HIT, CWD_RES.BANK, CWD_RES.POS, CWD_RES.RESULT, CWD_STS.STATUS]) := keyFields_unshown hk hf
  rw [cwdShown, cwdResult, rd_wr_apart _ _ _ (hapart _ (by simp)), rd_wr_apart _ _ _ (hapart _ (by simp)), rd_wr_apart _ _ _ (hapart _ (by simp)),
    rd_wr_apart _ _ _ (hapart _ (by simp)), rd_wr_apart _ _ _ (hapart _ (by simp)), rd_keyWords e List.nodup_range (List.mem_range.2 hk)]

/-! The parity sweep (R188). -/

/-- Places without repetition have keys without repetition. -/
theorem cwdKeys_nodup {l : List (Nat × Nat)} (h : l.Nodup) (hplaces : ∀ x ∈ l, x.2 < 32768) : (l.map fun x => cwdKey x.1 x.2).Nodup := by
  refine List.Nodup.map_on (fun x hx y hy hxy => ?_) h
  have hxp := hplaces x hx
  have hyp := hplaces y hy
  exact Prod.ext ((cwdKey_div hxp x.1).symm.trans ((congrArg (· / 32768) hxy).trans (cwdKey_div hyp y.1)))
    ((cwdKey_mod hxp x.1).symm.trans ((congrArg (· % 32768) hxy).trans (cwdKey_mod hyp y.1)))

section
variable {s : State} (bad : List (Nat × Nat))

theorem exec_cwdParitySweep_early (h : s.due .sweep 1000000 = false) : exec (.cwdParitySweep bad) s = .next s := by
  change Host.Outcome.next (s.atPeriod .sweep 1000000 (parityFails bad)) = _
  rw [State.atPeriod, h]
  rfl

theorem exec_cwdParitySweep_due (h : s.due .sweep 1000000 = true) :
    exec (.cwdParitySweep bad) s = .next (parityFails bad { s with periods := KMap.insert s.periods Period.sweep.ix s.now }) := by
  change Host.Outcome.next (s.atPeriod .sweep 1000000 (parityFails bad)) = _
  rw [State.atPeriod, h]
  rfl

end

/-! Reinsertion of a directory entry (R190). -/

section
variable {s : State} {c : Nat}

/-- The key of the directory entry of conversation record `c`. -/
abbrev convKey (s : State) (c : Nat) : Nat := dirKey (s.conv c).part (s.conv c).role (s.conv c).conv

theorem exec_cwdReinsert_held (h : (s.conv c).state ≠ 1 ∨ (cwdSearch s (convKey s c) (fullMask 1) 255 1 0).isSome = true) :
    exec (.cwdReinsert c) s = .next s := by
  change execCwdReinsert c s = _
  refine if_neg ?_
  rintro ⟨hstate, hnone⟩
  rw [Option.isNone_iff_eq_none] at hnone
  rw [hnone] at h
  exact h.elim (· hstate) (by simp)

theorem exec_cwdReinsert_lost (hstate : (s.conv c).state = 1) (hnone : cwdSearch s (convKey s c) (fullMask 1) 255 1 0 = none) {t : State}
    (hins : cwdInsertType 1 1 (convKey s c) c s = (ST.OK, t)) : exec (.cwdReinsert c) s = .next (t.bump (FLO_CNT.COUNT 6)) := by
  change execCwdReinsert c s = _
  unfold execCwdReinsert
  dsimp only
  rw [if_pos ⟨hstate, Option.isNone_iff_eq_none.2 hnone⟩, hins]
  rfl

end

end Sys2Proof.Machine

open Sys2Proof Sys2Proof.Machine

/-- Settles O31: a search by `cwdSearch_least`, inserts by the group in which they find their place, an ordered one by
`find?_cwdShift`, and parity by what one bad entry changes. -/
theorem catchwordUnitFindsAndKeepsEntries : Obligations.CatchwordUnitFindsAndKeepsEntries := by
  unfold Obligations.CatchwordUnitFindsAndKeepsEntries
  refine ⟨fun s w banks pos hs hents hw => ⟨fun b p e hb hp he hbank hunits hpos hkey hleast => ?hit, fun hnone => ?miss⟩,
    fun s w banks pos bad => ?searched,
    fun s w b pos hb h c hc => ?full, fun s w b hb hunits hpos => ⟨fun hhas => ?dup, fun hnew ⟨g, hg, hlen⟩ => ?placed,
      fun p q hp hnew hlen hg hpq hfree hocc => ?ordered⟩,
    fun s b p e hb he => ⟨⟨_, exec_cwdDelete_held hb he, ?deleted⟩, ⟨_, exec_cwdRead_held hb he, ?read⟩⟩,
    fun s b p hb he => ⟨exec_cwdDelete_empty hb he, exec_cwdRead_empty hb he⟩, fun s b p e hb he => ?lost,
    fun s bad => ⟨exec_cwdParitySweep_early bad, fun hdue => ?sweep⟩,
    fun s c => ⟨exec_cwdReinsert_held, fun hstate hnone s1 hins => exec_cwdReinsert_lost hstate hnone hins⟩⟩
  case hit =>
    have hfound := cwdSearch_least hs hp he hbank hunits hpos hkey fun x hx ⟨hxbank, hxunits, hxpos, hxkey⟩ => by
      have hplace := hleast (x.1 / 32768) (x.1 % 32768) x.2 (by rw [cwdEnt, cwdKey_divMod]; exact KMap.find?_of_mem hs hx)
        (Nat.mod_lt _ (by decide)) hxbank hxunits hxpos hxkey
      rwa [cwdKey_divMod] at hplace
    refine ⟨_, exec_cwdSearch_hit rfl ((cwdSearch_searchCounted hents hw ..).trans hfound), ?_⟩
    obtain ⟨hhit, hbankRd, hposRd, hres, hsts⟩ := rd_cwdResult b p e.res (searchCounted s)
    exact ⟨hhit, hbankRd.trans (Nat.mod_eq_of_lt hb), hposRd.trans (Nat.mod_eq_of_lt hp), hres, hsts,
      (RegsOnly.wr s ..).trans (cwdResult_regsOnly ..)⟩
  case miss =>
    refine ⟨_, exec_cwdSearch_miss rfl ((cwdSearch_searchCounted hents hw ..).trans (cwdSearch_none hnone)), ?_⟩
    obtain ⟨hhit, hsts⟩ := rd_cwdMissed (searchCounted s)
    exact ⟨hhit, hsts, (RegsOnly.wr s ..).trans (cwdMissed_regsOnly _)⟩
  case searched =>
    obtain ⟨t, ht, hregs⟩ := exec_cwdSearch_regs (w := w) (banks := banks) (pos := pos) (bad := bad) (s := s) rfl
    have hcwd := congrArg State.cwd hregs
    have hents : t.cwd.ents = (parityFails bad (searchCounted s)).cwd.ents := congrArg CwdSt.ents hcwd
    refine ⟨t, ht, fun x hx => ?_, fun k hk => ?_, ?_⟩
    · rw [cwdEnt, hents]
      exact cwdEnt_parityFails hx _
    · rw [hents, find?_parityFails hk]
      rfl
    · exact (congrArg State.mem hregs).trans (parityFails_frame ..).mem
  case full =>
    obtain ⟨hins, hord⟩ := exec_cwdInserts_full hb h pos
    have hshown := cwdInsertDone_refused (st := ST.CWD_GROUP_FULL) (by decide) (by decide) b s
    simp only [List.mem_cons, List.not_mem_nil, or_false] at hc
    obtain rfl | rfl := hc
    · exact ⟨_, hins, hshown⟩
    · exact ⟨_, hord, hshown⟩
  case dup =>
    refine ⟨_, exec_cwdInsert_fits hb ⟨hunits, hpos⟩, ?_⟩
    rw [cwdInsert_dup hhas]
    exact cwdInsertDone_refused (by decide) (by decide) b s
  case placed =>
    obtain ⟨p, q, r, hroom, hp, hpfree, hne, hq, hqfree⟩ := groupWithRoom_some hg hlen
    obtain ⟨hbank, hplace, hsts, -⟩ := cwdInsertDone_placed b p (cwdPut b p (regEnt s w) s)
    exact ⟨_, p, exec_cwdInsert_enters hb ⟨hunits, hpos⟩ hnew hroom, hp, hpfree, cwdEnt_cwdEntered_self ..,
      ⟨q, hq, (cwdEntered_sameBut b p _ s _ (cwdKey_inj_left hne)).trans hqfree⟩, cwdEntered_sameBut b p _ s, hplace,
      hbank.trans (Nat.mod_eq_of_lt hb), hsts, cwdEntered_frame ..⟩
  case ordered =>
    have hfirst := groupFree_first hg hpq hfree hocc
    obtain ⟨-, -, hsts, -⟩ := cwdInsertDone_placed b p (cwdPut b p (regEnt s w) (cwdShift b p q s))
    have hframe := congrArg (fun x : State => { x with regs := s.regs, cwd.ents := s.cwd.ents })
      (cwdEntered_frame b p (regEnt s w) (cwdShift b p q s))
    exact ⟨_, exec_cwdInsertOrdered_enters hb ⟨hunits, hpos⟩ hnew hp hlen hfirst, cwdEnt_cwdEntered_self ..,
      fun j => cwdEnt_cwdEntered_moved hpq hfree hocc _, fun k => find?_cwdEntered_outside hpq hfree hocc _, hsts,
      hframe.trans (congrArg (fun x : State => { x with regs := s.regs }) (cwdShift_frame b p q s))⟩
  case deleted =>
    exact ⟨cwdEnt_cwdDrop_self b p s, cwdDrop_sameBut b p s, rd_wr_self .., by exact SameRegs.wr (cwdDrop b p s) _ _ _, rfl⟩
  case read =>
    obtain ⟨-, -, -, hres, hsts⟩ := rd_cwdResult b p e.res (keyWords e (List.range 12) s)
    exact ⟨fun k hk => rd_cwdShown_key b p e s hk, hres, hsts, regs_after (keyWords_regsOnly e (List.range 12) s) (cwdResult_regsOnly ..).1⟩
  case lost =>
    have hgone : cwdEnt (parityFail b p s) b p = none := (find?_parityFail ..).trans (if_pos rfl)
    obtain ⟨hhit, hsts⟩ := rd_cwdMissed (parityFail b p s)
    refine ⟨_, exec_cwdRead_lost hb hgone, hgone, ?_, hsts, hhit⟩
    rw [rd_wr_apart _ _ _ (by decide), rd_wr_apart _ _ _ (by decide), rd_parityFail, he]
    rfl
  case sweep =>
    have hexec := exec_cwdParitySweep_due bad hdue
    generalize hu : { s with periods := KMap.insert s.periods Period.sweep.ix s.now } = u at hexec
    have hframe := parityFails_frame bad u
    refine ⟨_, hexec, fun x hx => cwdEnt_parityFails hx u, fun k hk => (find?_parityFails hk u).trans (hu ▸ rfl), fun hnodup hplaces => ?_,
      hframe.mem.trans (hu ▸ rfl), hframe.flo.trans (hu ▸ rfl)⟩
    by_cases hover : 2 ^ 32 - 1 < s.rd (CWD_CNT.COUNT 2)
    · exact .inr hover
    · subst hu
      exact .inl (rd_parityFails (cwdKeys_nodup hnodup hplaces) (Nat.le_of_not_lt hover))
end

section
/-!
PROOFS. The directory commands (R172, R183–R186, R189): when the oldest command is taken, how it is refused, and what each does where it
acts.
-/
namespace Sys2Proof.Machine

/-! The oldest command (R183). -/

section
variable {s : State} {op : Nat} {act : CmdSrc → DirCmd → State → State}

theorem dirStep_idle (h : s.flo.waiting = []) : dirStep op act s = s := by
  simp only [dirStep, h]

variable {src : CmdSrc} {b : Bytes} {rest : List (CmdSrc × Bytes)} (hw : s.flo.waiting = (src, b) :: rest)
include hw

theorem dirStep_leaves (h : s.flo.closing ≠ none ∨ leAt b 0 1 ≠ op) : dirStep op act s = s := by
  simp only [dirStep, hw]
  exact if_pos (h.imp_left Option.isSome_iff_ne_none.2)

/-- A command of its own operation, with no close running, is refused or acts, and malformed records after it end. -/
theorem dirStep_takes (hclosing : s.flo.closing = none) (hop : leAt b 0 1 = op) : dirStep op act s =
    floNext (if floOn s = false then floDone src ST.FLO_DISABLED [] (dirTaken s rest)
      else if dirFormOk b = false then floDone src ST.DIR_CMD_FORMAT [] (dirTaken s rest)
      else if cmdFenced s (dirCmd b).part = true then floDone src ST.FENCED [] (dirTaken s rest)
      else act src (dirCmd b) (dirTaken s rest)) := by
  have htaken : ¬ (s.flo.closing.isSome = true ∨ leAt b 0 1 ≠ op) := by simp [hclosing, hop]
  simp only [dirStep, hw, if_neg htaken, Bool.not_eq_true]
  rfl

end

section
variable {s : State} {op : Nat} {src : CmdSrc} {b : Bytes} {rest : List (CmdSrc × Bytes)} (h : NextDir s op src b rest)
include h

theorem dirStep_acts (act : CmdSrc → DirCmd → State → State) : dirStep op act s = floNext (act src (dirCmd b) (dirTaken s rest)) := by
  obtain ⟨hw, hclosing, hop, hon, hopen, hform⟩ := h
  rw [dirStep_takes hw hclosing hop, if_neg (by simp [hon]), if_neg (by simp [hform]), if_neg (by simp [hopen])]

/-- A command that ends at once. -/
theorem dirStep_ends {act : CmdSrc → DirCmd → State → State} {st : Nat} {res : Bytes} {t : State}
    (hact : act src (dirCmd b) (dirTaken s rest) = floDone src st res t) : Host.Outcome.next (dirStep op act s) =
      (.next (dirEnds src st res t) : Host.Outcome State Fault Refusal) := by
  rw [dirStep_acts h, hact, dirEnds]

end

/-- The directory commands, each with its operation (Table 8.6). -/
abbrev dirCommands : List (Instr × Nat) :=
  [(.convOpen, 1), (.convClose, 2), (.convShare, 3), (.convImpose, 4), (.aclGrant, 5), (.aclDrop, 6),
    (.prefixPut, 7), (.prefixDrop, 8), (.prefixFind, 9)]

/-- Each of them takes the oldest command, if it is its own. -/
theorem exec_dirCommand {c : Instr} {op : Nat} (h : (c, op) ∈ dirCommands) :
    ∃ act, ∀ s, exec c s = .next (dirStep op act s) := by
  simp only [dirCommands, List.mem_cons, Prod.mk.injEq, List.not_mem_nil, or_false] at h
  obtain ⟨rfl, rfl⟩ | ⟨rfl, rfl⟩ | ⟨rfl, rfl⟩ | ⟨rfl, rfl⟩ | ⟨rfl, rfl⟩ | ⟨rfl, rfl⟩ |
      ⟨rfl, rfl⟩ | ⟨rfl, rfl⟩ | ⟨rfl, rfl⟩ := h <;>
    exact ⟨_, fun _ => rfl⟩

/-- While a close runs, nothing that waits is ended (R183). -/
theorem floNext_closing {s : State} (h : s.flo.closing ≠ none) : floNext s = s := by
  unfold floNext
  match s.flo.waiting.length with
  | 0 => rfl
  | n + 1 =>
    unfold floDrain
    split
    · rfl
    · exact if_pos (.inl (Option.isSome_iff_ne_none.2 h))

theorem conv_setConv_self (s : State) (c : Nat) (r : ConvRec) : (s.setConv c r).conv c = r := KMap.get_put_self ..

theorem conv_setConv_other (s : State) {c e : Nat} (r : ConvRec) (h : e ≠ c) : (s.setConv c r).conv e = s.conv e := KMap.get_put_other _ _ _ _ h

theorem conv_congr {s t : State} (h : t.flo.convs = s.flo.convs) (c : Nat) : t.conv c = s.conv c := by rw [State.conv, State.conv, h]

/-! What lookups and changes of the catchword leave (R177). -/

/-- The counts of lookups and of searches. -/
abbrev lookupKeys : List Nat := [(FLO_CNT.COUNT 4).key 0, (CWD_CNT.COUNT 0).key 0]

theorem dirFind_regsOnly (part role conv : Nat) (s : State) : RegsOnly s (dirFind part role conv s).2 lookupKeys := by
  have hcount : RegsOnly s (s.bump (FLO_CNT.COUNT 4)) [(FLO_CNT.COUNT 4).key 0] := .wr ..
  unfold dirFind
  split
  · exact hcount.mono (by simp)
  · exact hcount.andWr ..

theorem convFind_regsOnly {part role conv : Nat} {s t : State} {r : Option Nat} (h : convFind part role conv s = (r, t)) : RegsOnly s t lookupKeys := by
  obtain rfl : (convFind part role conv s).2 = t := congrArg Prod.snd h
  exact dirFind_regsOnly ..

theorem RegsOnly.flo {s t : State} {ks : List Nat} (h : RegsOnly s t ks) : t.flo = s.flo := by
  have e := congrArg State.flo h.1
  exact e

theorem RegsOnly.mem {s t : State} {ks : List Nat} (h : RegsOnly s t ks) : t.mem = s.mem := by
  have e := congrArg State.mem h.1
  exact e

theorem cwdInsert_flo (b key res : Nat) (s : State) : (cwdInsert b key res s).2.2.flo = s.flo := by
  unfold cwdInsert
  split
  · rfl
  · dsimp only
    split <;> rfl

theorem cwdInsertType_flo {ty units key res : Nat} {s t : State} {st : Nat} (h : cwdInsertType ty units key res s = (st, t)) : t.flo = s.flo := by
  obtain rfl : (cwdInsertType ty units key res s).2 = t := congrArg Prod.snd h
  unfold cwdInsertType
  dsimp only
  split
  · rfl
  · have hbanks := foldl_invariant (I := fun r : Nat × State => r.2.flo = s.flo)
      (f := fun (r : Nat × State) b => if r.1 = ST.OK then r
        else
          let (st, _, s') := cwdInsert b key res r.2
          if st = ST.OK then (st, s') else r)
      (l := (List.range 8).filter fun b => decide (s.rd (CWD_BANK_CFG.TYPE b) = ty ∧ bankUnits s b = units)) (s := (ST.CWD_GROUP_FULL, s))
      (fun r b _ hr => by
        dsimp only
        split
        · exact hr
        · split
          · exact (cwdInsert_flo ..).trans hr
          · exact hr) rfl
    split <;> exact hbanks

theorem cwdDeleteKey_flo_mem (units key : Nat) (s : State) :
    (cwdDeleteKey units key s).2.flo = s.flo ∧ (cwdDeleteKey units key s).2.mem = s.mem := by
  unfold cwdDeleteKey
  split <;> exact ⟨rfl, rfl⟩

end Sys2Proof.Machine
end

section
/-!
PROOFS. What each directory command does where it acts (R183–R186, R189).
-/
namespace Sys2Proof.Machine

section
variable {s : State} {src : CmdSrc} {b : Bytes} {rest : List (CmdSrc × Bytes)}

/-! CONV_OPEN (R183). -/

/-- The conversation record that a CONV_OPEN asks for. -/
abbrev recordAsked (s : State) (d : DirCmd) : ConvRec :=
  impose { conv := d.conv, state := 1, role := bits d.arg 16 1, part := d.part, sealed := modeSealed s d.part, spread := bits d.arg 17 1,
           tenant := d.ten, keySlot := if modeSealed s d.part then d.arg % 65536 else 0 } d.pay

/-- The key slot that a CONV_OPEN names is the partition's, or none is needed. -/
abbrev slotFits (s : State) (d : DirCmd) : Prop :=
  modeSealed s d.part = true → (keySlot s (d.arg % 65536)).state = 1 ∧ (keySlot s (d.arg % 65536)).part = d.part

/-- The key of the directory entry that a CONV_OPEN asks for. -/
abbrev keyAsked (s : State) (d : DirCmd) : Nat := dirKey d.part (recordAsked s d).role d.conv

section
variable (h : NextDir s 1 src b rest)
include h

theorem exec_convOpen_badGeometry (hbad : badGeometry s (recordAsked s (dirCmd b)) = true) :
    exec .convOpen s = .next (dirEnds src ST.DIR_GEOMETRY [] (dirTaken s rest)) :=
  dirStep_ends h (if_pos hbad)

variable (hgood : badGeometry s (recordAsked s (dirCmd b)) = false)
include hgood

theorem exec_convOpen_badSlot (hsealed : modeSealed s (dirCmd b).part = true)
    (hslot : ¬ ((keySlot s ((dirCmd b).arg % 65536)).state = 1 ∧ (keySlot s ((dirCmd b).arg % 65536)).part = (dirCmd b).part)) :
    exec .convOpen s = .next (dirEnds src ST.KEY_SLOT [] (dirTaken s rest)) :=
  dirStep_ends h ((if_neg (ne_true_of_eq_false hgood)).trans (if_pos ⟨hsealed, hslot⟩))

variable (hslot : slotFits s (dirCmd b))
include hslot

theorem exec_convOpen_held (hheld : (cwdSearch s (keyAsked s (dirCmd b)) (fullMask 1) 255 1 0).isSome = true) :
    exec .convOpen s = .next (dirEnds src ST.DIR_CONV_EXISTS [] (dirTaken s rest)) :=
  dirStep_ends h ((if_neg (ne_true_of_eq_false hgood)).trans ((if_neg fun hno => hno.2 (hslot hno.1)).trans (if_pos hheld)))

variable (hnew : cwdSearch s (keyAsked s (dirCmd b)) (fullMask 1) 255 1 0 = none)
include hnew

omit h in
theorem convOpen_new : convOpen src (dirCmd b) (dirTaken s rest) =
    (freeConv s).elim (floDone src ST.FOLIO_TBL_FULL [] (dirTaken s rest)) fun c =>
      let r := cwdInsertType 1 1 (keyAsked s (dirCmd b)) c (dirTaken s rest)
      if r.1 ≠ ST.OK then floDone src ST.FOLIO_TBL_FULL [] r.2
      else floDone src ST.OK [] ((zeroRuns c (maxRun s) r.2).setConv c (recordAsked s (dirCmd b))) := by
  have hnone : ¬ (cwdSearch s (keyAsked s (dirCmd b)) (fullMask 1) 255 1 0).isSome = true := by simp [hnew]
  refine (if_neg (ne_true_of_eq_false hgood)).trans ((if_neg fun hno => hno.2 (hslot hno.1)).trans ((if_neg hnone).trans ?_))
  have hsame : freeConv (dirTaken s rest) = freeConv s := rfl
  rw [hsame]
  cases freeConv s <;> rfl

theorem exec_convOpen_tableFull (hfull : freeConv s = none) :
    exec .convOpen s = .next (dirEnds src ST.FOLIO_TBL_FULL [] (dirTaken s rest)) :=
  dirStep_ends h (by rw [convOpen_new hgood hslot hnew, hfull]; rfl)

variable {c : Nat} (hfree : freeConv s = some c) {st : Nat} {s1 : State}
  (hins : cwdInsertType 1 1 (keyAsked s (dirCmd b)) c (dirTaken s rest) = (st, s1))
include hfree hins

theorem exec_convOpen_bankFull (hst : st ≠ ST.OK) : exec .convOpen s = .next (dirEnds src ST.FOLIO_TBL_FULL [] s1) :=
  dirStep_ends h (by
    rw [convOpen_new hgood hslot hnew, hfree, Option.elim_some, hins]
    exact if_pos hst)

theorem exec_convOpen_enters (hst : st = ST.OK) :
    exec .convOpen s = .next (dirEnds src ST.OK [] ((zeroRuns c (maxRun s) s1).setConv c (recordAsked s (dirCmd b)))) :=
  dirStep_ends h (by
    rw [convOpen_new hgood hslot hnew, hfree, Option.elim_some, hins]
    exact if_neg (not_not_intro hst))

end

/-! CONV_CLOSE and CONV_IMPOSE (R183, R184). -/

/-- A lookup leaves the conversation records. -/
theorem conv_of_convFind {part role conv : Nat} {r : Option Nat} {u t : State} (hlook : convFind part role conv u = (r, t)) (c : Nat) :
    t.conv c = u.conv c := conv_congr (congrArg FloSt.convs (convFind_regsOnly hlook).flo) c

theorem exec_convClose_held (h : NextDir s 2 src b rest) {c : Nat} {s1 : State}
    (hfind : convFind (dirCmd b).part (bits (dirCmd b).arg 16 1) (dirCmd b).conv (dirTaken s rest) = (some c, s1)) :
    let u := (cwdDeleteKey 1 (dirKey (dirCmd b).part (bits (dirCmd b).arg 16 1) (dirCmd b).conv) s1).2
    exec .convClose s = .next { u.setConv c { u.conv c with state := 2 } with flo.closing := some (src, c) } := by
  refine congrArg Host.Outcome.next ((dirStep_acts h _).trans ?_)
  simp only [hfind]
  exact floNext_closing (Option.some_ne_none _)

theorem exec_convClose_unknown (h : NextDir s 2 src b rest) {s1 : State}
    (hfind : convFind (dirCmd b).part (bits (dirCmd b).arg 16 1) (dirCmd b).conv (dirTaken s rest) = (none, s1)) :
    exec .convClose s = .next (dirEnds src ST.DIR_NO_CONV [] s1) :=
  dirStep_ends h (by simp only [hfind])

section
variable (h : NextDir s 4 src b rest)
include h

theorem exec_convImpose_unknown {s1 : State}
    (hfind : convFind (dirCmd b).part (bits (dirCmd b).arg 16 1) (dirCmd b).conv (dirTaken s rest) = (none, s1)) :
    exec .convImpose s = .next (dirEnds src ST.DIR_NO_CONV [] s1) :=
  dirStep_ends h (by simp only [hfind])

variable {c : Nat} {s1 : State}
  (hfind : convFind (dirCmd b).part (bits (dirCmd b).arg 16 1) (dirCmd b).conv (dirTaken s rest) = (some c, s1))
include hfind

/-- CONV_IMPOSE of a record that keeps the other fields replaces it, and is refused of one that does not. -/
theorem exec_convImpose_known : exec .convImpose s =
    let n := impose (s.conv c) (dirCmd b).pay
    if { n with sig := (s.conv c).sig, primary := (s.conv c).primary, mirror := (s.conv c).mirror } ≠ s.conv c then
      .next (dirEnds src ST.DIR_GEOMETRY [] s1)
    else .next (dirEnds src ST.OK [] (s1.setConv c n)) := by
  have hconv : s1.conv c = s.conv c := conv_of_convFind hfind c
  refine (congrArg Host.Outcome.next (dirStep_acts h _)).trans ?_
  simp only [hfind, hconv]
  split <;> rfl

end

/-! Access entries (R186). -/

theorem exec_aclGrant (h : NextDir s 5 src b rest) {st : Nat} {s1 : State}
    (hins : cwdInsertType 2 1 (accessKey (dirCmd b).part ((dirCmd b).arg % 65536) (dirCmd b).conv) (bits (dirCmd b).arg 16 2) (dirTaken s rest) =
      (st, s1)) :
    exec .aclGrant s = .next (dirEnds src st [] s1) :=
  dirStep_ends h (by simp only [hins])

theorem exec_aclDrop (h : NextDir s 6 src b rest) {ok : Bool} {s1 : State}
    (hdel : cwdDeleteKey 1 (accessKey (dirCmd b).part ((dirCmd b).arg % 65536) (dirCmd b).conv) (dirTaken s rest) = (ok, s1)) :
    exec .aclDrop s = .next (dirEnds src (if ok then ST.OK else ST.CWD_NOT_FOUND) [] s1) :=
  dirStep_ends h (by simp only [hdel])

/-! Prefix entries (R189). -/

section
variable (h : NextDir s 7 src b rest)
include h

theorem exec_prefixPut_unknown {s1 : State} (hfind : convFind (dirCmd b).part 0 (dirCmd b).conv (dirTaken s rest) = (none, s1)) :
    exec .prefixPut s = .next (dirEnds src ST.DIR_NO_CONV [] s1) :=
  dirStep_ends h (by simp only [hfind])

theorem exec_prefixPut_known {c k st p : Nat} {s1 s2 : State}
    (hfind : convFind (dirCmd b).part 0 (dirCmd b).conv (dirTaken s rest) = (some c, s1))
    (hbank : bankOf s1 (prefixKeyOf s (dirCmd b)).2.2 (prefixKeyOf s (dirCmd b)).1 = some k)
    (hins : cwdInsertAt k (prefixPlace s1 k (prefixKeyOf s (dirCmd b)).2.1) (prefixKeyOf s (dirCmd b)).2.1 c s1 = (st, p, s2)) :
    exec .prefixPut s = .next (dirEnds src st [] s2) := by
  have hkey : prefixKeyOf (dirTaken s rest) (dirCmd b) = prefixKeyOf s (dirCmd b) := rfl
  exact dirStep_ends h (by simp only [hkey, hfind, hbank, hins])

end

theorem exec_prefixDrop (h : NextDir s 8 src b rest) {ok : Bool} {s1 : State}
    (hdel : cwdDeleteKey (prefixKeyOf s (dirCmd b)).1 (prefixKeyOf s (dirCmd b)).2.1 (dirTaken s rest) = (ok, s1)) :
    exec .prefixDrop s = .next (dirEnds src (if ok then ST.OK else ST.CWD_NOT_FOUND) [] s1) := by
  have hkey : prefixKeyOf (dirTaken s rest) (dirCmd b) = prefixKeyOf s (dirCmd b) := rfl
  exact dirStep_ends h (by simp only [hkey, hdel])

theorem bitOf_banks {b : Nat} (h : bitOf 255 b = true) : b < 8 := by
  rw [bitOf_eq_testBit] at h
  by_contra hb
  rw [Nat.testBit_lt_two_pow (Nat.lt_of_lt_of_le (by decide) (Nat.pow_le_pow_right (by decide) (Nat.le_of_not_lt hb)) : 255 < 2 ^ b)] at h
  exact Bool.false_ne_true h

/-- A counted search of all eight banks finds what stood before it was counted. -/
theorem cwdSearch_counted (s : State) (key mask units start : Nat) :
    cwdSearch (searchCounted s) key mask 255 units start = cwdSearch s key mask 255 units start :=
  cwdSearch_congr (s := s) (t := searchCounted s) rfl (fun _ _ hbank => bankUnits_searchCounted s (bitOf_banks hbank)) ..

/-- What PREFIX_FIND looks up. -/
abbrev prefixFound (s : State) (d : DirCmd) : Option (Nat × Nat × CwdEnt) :=
  cwdSearch s (prefixKeyOf s d).2.1 (fullMask (prefixKeyOf s d).1) 255 (prefixKeyOf s d).1 0

section
variable (h : NextDir s 9 src b rest)
include h

theorem exec_prefixFind_hit {k p : Nat} {e : CwdEnt} (hfound : prefixFound s (dirCmd b) = some (k, p, e)) :
    exec .prefixFind s =
      .next (dirEnds src ST.OK (natLe 8 (s.conv e.res).conv ++ natLe 4 ((dirCmd b).arg / 256)) (searchCounted (dirTaken s rest))) := by
  have hkey : prefixKeyOf (dirTaken s rest) (dirCmd b) = prefixKeyOf s (dirCmd b) := rfl
  have hcounted := (cwdSearch_counted (dirTaken s rest) (prefixKeyOf s (dirCmd b)).2.1 (fullMask (prefixKeyOf s (dirCmd b)).1)
    (prefixKeyOf s (dirCmd b)).1 0).trans hfound
  exact dirStep_ends h (by simp only [hkey, hcounted]; rfl)

theorem exec_prefixFind_miss (hnone : prefixFound s (dirCmd b) = none) :
    exec .prefixFind s = .next (dirEnds src ST.CWD_NOT_FOUND [] (searchCounted (dirTaken s rest))) := by
  have hkey : prefixKeyOf (dirTaken s rest) (dirCmd b) = prefixKeyOf s (dirCmd b) := rfl
  have hcounted := (cwdSearch_counted (dirTaken s rest) (prefixKeyOf s (dirCmd b)).2.1 (fullMask (prefixKeyOf s (dirCmd b)).1)
    (prefixKeyOf s (dirCmd b)).1 0).trans hnone
  exact dirStep_ends h (by simp only [hkey, hcounted])

end

end

end Sys2Proof.Machine
end

section
/-!
PROOFS. CONV_SHARE (R185), the end of a command at the registers (R183), and the obligation of the directory commands.
-/
namespace Sys2Proof.Machine

/-! Lookups leave what CONV_SHARE reads. -/

theorem remapOf_stkKept {s t : State} (h : WinKept .stk s t) (a : Nat) : remapOf t a = remapOf s a := by
  have hk := offStack_lt a
  have hrd {f : Fld} (hf : f.base / 2 ^ 26 = Win.stk.ix) {n : Nat} (hn : n < 32) : t.rd f (32 * offStack a + n) = s.rd f (32 * offStack a + n) :=
    h.rd hf (by omega)
  unfold remapOf
  refine List.find?_congr fun n hn => decide_eq_decide.2 ?_
  have hn := List.mem_range.1 hn
  simp only [State.flag, remapEntry, hrd (by decide : STK_REMAP_ENT.VALID.base / 2 ^ 26 = _) hn,
    hrd (by decide : STK_REMAP_ENT.LAYER.base / 2 ^ 26 = _) hn,
    hrd (by decide : STK_REMAP_ENT.PC.base / 2 ^ 26 = _) hn, hrd (by decide : STK_REMAP_ENT.BG.base / 2 ^ 26 = _) hn,
    hrd (by decide : STK_REMAP_ENT.BANK.base / 2 ^ 26 = _) hn, hrd (by decide : STK_REMAP_ENT.ROW.base / 2 ^ 26 = _) hn]

theorem locOf_stkKept {s t : State} (h : WinKept .stk s t) (a : Nat) : locOf t a = locOf s a := by
  rw [locOf, locOf, remapOf_stkKept h]

theorem lookupKeys_notStk : ∀ k ∈ lookupKeys, k / 2 ^ 46 ≠ Win.stk.ix := by decide

/-- Two lookups change no more than one. -/
theorem RegsOnly.andThen {s t u : State} {ks : List Nat} (h : RegsOnly s t ks) (g : RegsOnly t u ks) : RegsOnly s u ks :=
  ⟨regs_after h.1 g.1, h.2.andThen g.2⟩

theorem RegsOnly.exists_regs {s t : State} {ks : List Nat} (h : RegsOnly s t ks) : ∃ r, t = { s with regs := r } :=
  ⟨t.regs, congrArg (fun x : State => { x with regs := t.regs }) h.1⟩

/-- The fields that say how large the parts of the table area are and where it starts. -/
theorem tableFields_uncounted : ∀ f ∈ [FLO_CFG.MAXRUN_LOG2, FLO_CFG.NFOLIO_LOG2, FLO_CFG.NCONV_LOG2, FLO_LEAF_CFG.NLEAF, FLO_TBL_BASE.OFFSET],
    f.key 0 ∉ lookupKeys := by
  decide

section
variable {s t : State} (h : RegsOnly s t lookupKeys)
include h

theorem RegsOnly.lookupRd {f : Fld}
    (hf : f ∈ [FLO_CFG.MAXRUN_LOG2, FLO_CFG.NFOLIO_LOG2, FLO_CFG.NCONV_LOG2, FLO_LEAF_CFG.NLEAF, FLO_TBL_BASE.OFFSET]) :
    t.rd f = s.rd f := h.rd f 0 (tableFields_uncounted f hf)

theorem RegsOnly.runsOf (c : Nat) : runsOf t c = runsOf s c := by
  have hconv : t.conv c = s.conv c := conv_congr (congrArg FloSt.convs h.flo) c
  have hmax : maxRun t = maxRun s := by rw [maxRun, maxRun, h.lookupRd (by simp)]
  simp only [Machine.runsOf, runIx, hconv, hmax]

theorem RegsOnly.leavesLeft : leavesLeft t = leavesLeft s := by
  rw [Machine.leavesLeft, Machine.leavesLeft, leavesLow, leavesLow, h.flo, h.lookupRd (by simp)]

theorem RegsOnly.sharePlan (c i j len : Nat) : sharePlan t c i j len = sharePlan s c i j len := by
  obtain ⟨r, rfl⟩ := h.exists_regs
  rfl

theorem RegsOnly.leavesNeeded (i : Nat) (es : List (Nat × Nat)) : leavesNeeded t i es = leavesNeeded s i es := by
  obtain ⟨r, rfl⟩ := h.exists_regs
  rfl

theorem RegsOnly.tblPoison (off : Nat) : tblPoison t off = tblPoison s off := by
  have hstk : WinKept .stk s t := fun k hk => h.2 k fun hmem => lookupKeys_notStk k hmem hk
  have hpsn : t.psn = s.psn := by
    obtain ⟨r, rfl⟩ := h.exists_regs
    rfl
  simp only [Machine.tblPoison, h.lookupRd (by simp : FLO_TBL_BASE.OFFSET ∈ _), locOf_stkKept hstk, poisonBit, hpsn]

theorem RegsOnly.leafPoison : leafPoison t = leafPoison s := by
  have hleaf : tblLeafFree t = tblLeafFree s := by
    simp only [tblLeafFree, tblLeaf, tblRun, tblConv, tblFree, h.lookupRd (by simp : FLO_LEAF_CFG.NLEAF ∈ _),
      h.lookupRd (by simp : FLO_CFG.NFOLIO_LOG2 ∈ _), h.lookupRd (by simp : FLO_CFG.NCONV_LOG2 ∈ _), h.lookupRd (by simp : FLO_CFG.MAXRUN_LOG2 ∈ _)]
  rw [Machine.leafPoison, Machine.leafPoison, h.leavesLeft, hleaf, h.tblPoison]

end

/-! CONV_SHARE (R185). -/

/-- The runs of the two conversations, in pairs, and what each pair would copy. -/
abbrev sharePairs (s : State) (x y : Nat) : List (Nat × Nat) := (runsOf s x).zip (runsOf s y)
abbrev planOf (s : State) (x len : Nat) (p : Nat × Nat) : List (Nat × Nat) × Bool := sharePlan s x p.1 p.2 len

/-- The two conversations agree in the fields that R185 names, and the length is whole spans. -/
abbrev SharesAgree (s : State) (x y len : Nat) : Prop :=
  (s.conv x).desc = (s.conv y).desc ∧ (s.conv x).sealed = (s.conv y).sealed ∧ (s.conv x).keySlot = (s.conv y).keySlot ∧
  (s.conv x).nlayer = (s.conv y).nlayer ∧ (s.conv x).nhg = (s.conv y).nhg ∧ (s.conv x).posLo = (s.conv y).posLo ∧
  (s.conv x).hgLo = (s.conv y).hgLo ∧ (s.conv x).hgHi = (s.conv y).hgHi ∧ len % spanOf s x = 0

abbrev ShareClash (s : State) (x y len : Nat) : Prop := ∃ p ∈ sharePairs s x y, (planOf s x len p).2 = true
abbrev ShareClosed (s : State) (x y len : Nat) : Prop := ∀ p ∈ sharePairs s x y, ∀ e ∈ (planOf s x len p).1, (s.folio e.2).closed = true
abbrev ShareFits (s : State) (x y len : Nat) : Prop := ∀ p ∈ sharePairs s x y, ∀ e ∈ (planOf s x len p).1, e.1 < 8192
/-- The leaf blocks that the copies take. -/
abbrev shareNeed (s : State) (x y len : Nat) : Nat := ((sharePairs s x y).map fun p => leavesNeeded s p.1 (planOf s x len p).1).sum

section
variable {s : State} {src : CmdSrc} {b : Bytes} {rest : List (CmdSrc × Bytes)} {x y : Nat} {s1 s2 : State}
  (hx : convFind (dirCmd b).part (bits (leAt (dirCmd b).pay 0 1) 0 1) (dirCmd b).conv (dirTaken s rest) = (some x, s1))
  (hy : convFind (dirCmd b).part (bits (leAt (dirCmd b).pay 0 1) 0 1) (dirCmd b).conv2 s1 = (some y, s2))
include hx hy

/-- CONV_SHARE of two held conversations, by what stands before the lookups. -/
theorem convShare_held (len : Nat) (hlen : len = (dirCmd b).arg) : convShare src (dirCmd b) (dirTaken s rest) =
    if ¬ SharesAgree s x y len then floDone src ST.SHARE_MISMATCH [] s2
    else if ShareClash s x y len then floDone src ST.SHARE_MISMATCH [] s2
    else if ¬ ShareClosed s x y len then floDone src ST.SHARE_OPEN [] s2
    else if ¬ ShareFits s x y len then floDone src ST.RUN_FULL [] s2
    else if leavesLeft s < shareNeed s x y len then floDone src ST.FOLIO_TBL_FULL [] s2
    else if leafPoison s = true ∧ (∃ p ∈ sharePairs s x y, leavesNeeded s p.1 (planOf s x len p).1 ≠ 0) then
      floDone src ST.POISON [] (tableFatal true s2)
    else floDone src ST.OK [] ((sharePairs s x y).foldl (fun s p => shareRun x p.1 p.2 len s) s2) := by
  subst hlen
  have h := (convFind_regsOnly hx).andThen (convFind_regsOnly hy)
  have hconv (c : Nat) : s2.conv c = s.conv c := conv_congr (congrArg FloSt.convs h.flo) c
  have hfolio (f : Nat) : s2.folio f = s.folio f := by rw [State.folio, h.flo]; rfl
  have hspan (c : Nat) : spanOf s2 c = spanOf s c := by
    obtain ⟨r, rfl⟩ := h.exists_regs
    rfl
  have hruns (c : Nat) : runsOf s2 c = runsOf s c := h.runsOf c
  have hplan (c i j len : Nat) : sharePlan s2 c i j len = sharePlan s c i j len := h.sharePlan c i j len
  have hneeded (i : Nat) (es : List (Nat × Nat)) : leavesNeeded s2 i es = leavesNeeded s i es := h.leavesNeeded i es
  have hleft : leavesLeft s2 = leavesLeft s := h.leavesLeft
  have hpoison : leafPoison s2 = leafPoison s := h.leafPoison
  simp only [convShare, hx, hy, hconv, hspan, hruns, hplan, hfolio, hneeded, hleft, hpoison]
  have hzip : (sharePairs s x y).zip ((sharePairs s x y).map (planOf s x (dirCmd b).arg)) =
      (sharePairs s x y).map fun p => (p, planOf s x (dirCmd b).arg p) := by
    simpa using (List.zip_map' (f := id) (g := planOf s x (dirCmd b).arg) (l := sharePairs s x y))
  refine if_congr Iff.rfl rfl (if_congr ?clash rfl (if_congr ?closed rfl (if_congr ?fits rfl (if_congr ?need rfl (if_congr ?poison rfl rfl)))))
  case clash => simp only [List.any_map, List.any_eq_true, Function.comp_apply]
  case closed => simp [ShareClosed]
  case fits => simp [ShareFits]
  case need => rw [hzip, List.map_map, ← List.sum_eq_foldl_nat]; rfl
  case poison => rw [hzip]; simp

section
variable (h : NextDir s 3 src b rest)
include h

theorem exec_convShare_mismatch (hbad : ¬ SharesAgree s x y (dirCmd b).arg ∨ ShareClash s x y (dirCmd b).arg) :
    exec .convShare s = .next (dirEnds src ST.SHARE_MISMATCH [] s2) := by
  refine dirStep_ends h ((convShare_held hx hy _ rfl).trans ?_)
  by_cases hagree : SharesAgree s x y (dirCmd b).arg
  · exact (if_neg (not_not_intro hagree)).trans (if_pos (hbad.resolve_left (not_not_intro hagree)))
  · exact if_pos hagree

variable (hagree : SharesAgree s x y (dirCmd b).arg) (hclash : ¬ ShareClash s x y (dirCmd b).arg)
include hagree hclash

theorem exec_convShare_open (hopen : ¬ ShareClosed s x y (dirCmd b).arg) : exec .convShare s = .next (dirEnds src ST.SHARE_OPEN [] s2) := by
  refine dirStep_ends h ((convShare_held hx hy _ rfl).trans ?_)
  rw [if_neg (not_not_intro hagree), if_neg hclash, if_pos hopen]

variable (hclosed : ShareClosed s x y (dirCmd b).arg)
include hclosed

theorem exec_convShare_past (hpast : ¬ ShareFits s x y (dirCmd b).arg) : exec .convShare s = .next (dirEnds src ST.RUN_FULL [] s2) := by
  refine dirStep_ends h ((convShare_held hx hy _ rfl).trans ?_)
  rw [if_neg (not_not_intro hagree), if_neg hclash, if_neg (not_not_intro hclosed), if_pos hpast]

variable (hfits : ShareFits s x y (dirCmd b).arg)
include hfits

theorem exec_convShare_noLeaves (hless : leavesLeft s < shareNeed s x y (dirCmd b).arg) :
    exec .convShare s = .next (dirEnds src ST.FOLIO_TBL_FULL [] s2) := by
  refine dirStep_ends h ((convShare_held hx hy _ rfl).trans ?_)
  rw [if_neg (not_not_intro hagree), if_neg hclash, if_neg (not_not_intro hclosed), if_neg (not_not_intro hfits), if_pos hless]

theorem exec_convShare_copies (hleaves : shareNeed s x y (dirCmd b).arg ≤ leavesLeft s) (hclean : leafPoison s = false) :
    exec .convShare s = .next (dirEnds src ST.OK [] ((sharePairs s x y).foldl (fun s p => shareRun x p.1 p.2 (dirCmd b).arg s) s2)) := by
  refine dirStep_ends h ((convShare_held hx hy _ rfl).trans ?_)
  rw [if_neg (not_not_intro hagree), if_neg hclash, if_neg (not_not_intro hclosed), if_neg (not_not_intro hfits), if_neg hleaves.not_gt,
    if_neg (by simp [hclean])]

end

end

/-- A handle that the directory does not hold ends CONV_SHARE, whichever it is. -/
theorem exec_convShare_unknown {s : State} {src : CmdSrc} {b : Bytes} {rest : List (CmdSrc × Bytes)} {x y : Option Nat} {s1 s2 : State}
    (h : NextDir s 3 src b rest)
    (hx : convFind (dirCmd b).part (bits (leAt (dirCmd b).pay 0 1) 0 1) (dirCmd b).conv (dirTaken s rest) = (x, s1))
    (hy : convFind (dirCmd b).part (bits (leAt (dirCmd b).pay 0 1) 0 1) (dirCmd b).conv2 s1 = (y, s2)) (hnone : x = none ∨ y = none) :
    exec .convShare s = .next (dirEnds src ST.DIR_NO_CONV [] s2) := by
  refine dirStep_ends h ?_
  simp only [convShare, hx, hy]
  obtain rfl | rfl := hnone
  · rfl
  · cases x <;> rfl

/-! The end of a command at the registers (R183). -/

theorem floDone_reg_shown (st : Nat) (res : Bytes) (s : State) :
    let t := floDone .reg st res s
    t.rd FLO_CMD_STS.BUSY = 0 ∧ t.rd FLO_CMD_STS.DONE = 1 ∧ (st < 65536 → t.rd FLO_CMD_STS.STATUS = st) ∧
      RegsOnly s t [(FLO_CNT.COUNT 3).key 0, FLO_CMD_STS.BUSY.key 0, FLO_CMD_STS.DONE.key 0, FLO_CMD_STS.STATUS.key 0] := by
  refine ⟨?_, ?_, fun hst => (rd_wr_self ..).trans (Nat.mod_eq_of_lt hst), ((((RegsOnly.refl s).andWr ..).andWr ..).andWr ..).andWr ..⟩
  · rw [floDone, rd_wr_apart _ _ _ (by decide), rd_wr_apart _ _ _ (by decide), rd_wr_self]
    rfl
  · rw [floDone, rd_wr_apart _ _ _ (by decide), rd_wr_self]
    rfl

end Sys2Proof.Machine

open Sys2Proof Sys2Proof.Machine

/-- Settles O29: who takes the oldest command by `dirStep_takes`, and where it acts, what each command does. -/
theorem directoryCommandsAct : Obligations.DirectoryCommandsAct := by
  unfold Obligations.DirectoryCommandsAct
  refine ⟨fun s c op hc => ?taken, fun s src b rest => ⟨fun h => ?opened, fun h c s1 hfind => ?closed,
      fun s1 hfind => ⟨fun h => exec_convClose_unknown h hfind, fun h => exec_convImpose_unknown h hfind⟩,
      fun s1 hfind h => exec_prefixPut_unknown h hfind, fun h c s1 hfind => ?imposed,
      fun h st s1 hins => exec_aclGrant h hins, fun h ok s1 hdel => exec_aclDrop h hdel,
      fun h c s1 st p s2 k hfind hbank hins => exec_prefixPut_known h hfind hbank hins, fun h ok s1 hdel => exec_prefixDrop h hdel,
      fun h k p e hfound => exec_prefixFind_hit h hfound, fun h hnone => exec_prefixFind_miss h hnone⟩,
    fun s src b rest x y s1 s2 h hx hy => ⟨fun hbad => exec_convShare_mismatch hx hy h hbad,
      fun hagree hclash hopen => exec_convShare_open hx hy h hagree hclash hopen,
      fun hagree hclash hclosed hpast => exec_convShare_past hx hy h hagree hclash hclosed hpast,
      fun hagree hclash hclosed hfits hless => exec_convShare_noLeaves hx hy h hagree hclash hclosed hfits hless,
      fun hagree hclash hclosed hfits hleaves hclean => exec_convShare_copies hx hy h hagree hclash hclosed hfits hleaves hclean⟩,
    fun s src b rest s1 s2 x y h hx hy hnone => exec_convShare_unknown h hx hy hnone, fun s st res => ⟨_, rfl, floDone_reg_shown st res s⟩⟩
  case taken =>
    obtain ⟨act, hexec⟩ := exec_dirCommand hc
    rw [hexec]
    refine ⟨fun hw => congrArg Host.Outcome.next (dirStep_idle hw), fun src b rest hw =>
      ⟨fun hother => congrArg Host.Outcome.next (dirStep_leaves hw hother),
      fun hclosing hop => ?_⟩⟩
    rw [dirStep_takes hw hclosing hop]
    refine ⟨fun hoff => by rw [if_pos hoff]; rfl, fun hon hform => ?_, fun hon hform hfenced => ?_⟩
    · rw [if_neg (by simp [hon]), if_pos hform]
      rfl
    · rw [if_neg (by simp [hon]), if_neg (by simp [hform]), if_pos hfenced]
      rfl
  case opened =>
    refine ⟨exec_convOpen_badGeometry h, exec_convOpen_badSlot h, fun hgood hslot => ⟨exec_convOpen_held h hgood hslot,
      exec_convOpen_tableFull h hgood hslot, fun hnew c st s1 hfree hst hins => exec_convOpen_bankFull h hgood hslot hnew hfree hins hst,
      fun hnew c s1 hfree hins => ⟨_, _, exec_convOpen_enters h hgood hslot hnew hfree hins rfl, rfl, conv_setConv_self .., fun e he => ?_⟩⟩⟩
    exact (conv_setConv_other _ _ he).trans (conv_congr (congrArg FloSt.convs (cwdInsertType_flo hins)) e)
  case closed =>
    have hlook := convFind_regsOnly hfind
    obtain ⟨hflo, hmem⟩ := cwdDeleteKey_flo_mem 1 (dirKey (dirCmd b).part (bits (dirCmd b).arg 16 1) (dirCmd b).conv) s1
    have hconv (e : Nat) : (cwdDeleteKey 1 (dirKey (dirCmd b).part (bits (dirCmd b).arg 16 1) (dirCmd b).conv) s1).2.conv e = s.conv e :=
      conv_congr (congrArg FloSt.convs (hflo.trans hlook.flo)) e
    refine ⟨_, exec_convClose_held h hfind, rfl, ?_, fun e he => ?_, ?_, rfl, ?_⟩
    · exact (conv_setConv_self ..).trans (by rw [hconv])
    · exact (conv_setConv_other _ _ he).trans (hconv e)
    · exact congrArg FloSt.waiting (hflo.trans hlook.flo)
    · exact hmem.trans hlook.mem
  case imposed =>
    rw [exec_convImpose_known h hfind]
    exact ⟨fun hchanged => if_pos hchanged, fun hkept => if_neg (not_not_intro hkept)⟩
end

section
/-!
PROOFS. Folios let go of (R181, R182, R184): FOLIO_FREE, and the end of a close.
-/
namespace Sys2Proof.Machine

/-! FOLIO_FREE (R181). -/

/-- The extents in use once extent `c` is free, unless `keep`. -/
abbrev usedWithout (keep : Prop) [Decidable keep] (c : Nat) (m : KMap Nat) : KMap Nat := if keep then m else KMap.erase m c

theorem find?_usedWithout_other {keep : Prop} [Decidable keep] {c d : Nat} (m : KMap Nat) (h : d ≠ c) :
    KMap.find? (usedWithout keep c m) d = KMap.find? m d := by
  unfold usedWithout
  split
  · rfl
  · exact KMap.find?_erase_other m h

theorem find?_usedWithout_of_none {keep : Prop} [Decidable keep] {c d : Nat} {m : KMap Nat} (h : KMap.find? m d = none) :
    KMap.find? (usedWithout keep c m) d = none := by
  by_cases hd : d = c
  · unfold usedWithout
    split
    · exact h
    · exact hd ▸ KMap.find?_erase_self m c
  · rw [find?_usedWithout_other m hd, h]

theorem freeExtent_unless (keep : Prop) [Decidable keep] (c : Nat) (s : State) :
    (if keep then s else freeExtent c s) = { s with flo.used := usedWithout keep c s.flo.used } := by
  unfold usedWithout
  split <;> rfl

section
variable {s : State} {f : Nat}

/-- The extents in use once those that an unused folio holds are free. -/
abbrev usedAfter (s : State) (e : FolioEnt) : KMap Nat :=
  usedWithout (e.oldN = 0 ∨ e.oldOutst ≠ 0) e.oldChunk (usedWithout (e.nchunk = 0 ∨ e.tierRef ≠ 0) e.chunk s.flo.used)

/-- The record of a folio that is free. -/
abbrev FolioEnt.gone (e : FolioEnt) : FolioEnt :=
  { e with state := 0, oldN := if e.oldOutst = 0 then 0 else e.oldN, oldChunk := if e.oldOutst = 0 then 0 else e.oldChunk }

/-- A folio that nothing names or uses gives up its extents, and its number is free. -/
theorem folioFree_unused (h : (s.folio f).state = 2 ∧ (s.folio f).refs = 0 ∧ (s.folio f).outst = 0) : folioFree f s =
    (pushFolioId f ({ s with flo.used := usedAfter s (s.folio f) }.setFolio f (s.folio f).gone)).bump (FLO_CNT.COUNT 1) := by
  unfold folioFree
  dsimp only
  rw [if_pos h, freeExtent_unless, freeExtent_unless]

theorem folioFree_replaced (h : ¬ ((s.folio f).state = 2 ∧ (s.folio f).refs = 0 ∧ (s.folio f).outst = 0)) (hold : (s.folio f).oldN ≠ 0)
    (hidle : (s.folio f).oldOutst = 0) : folioFree f s =
      ((freeExtent (s.folio f).oldChunk s).setFolio f { s.folio f with oldN := 0, oldChunk := 0 }).bump (FLO_CNT.COUNT 1) :=
  (if_neg h).trans (if_pos ⟨hold, hidle⟩)

theorem folioFree_used (h : ¬ ((s.folio f).state = 2 ∧ (s.folio f).refs = 0 ∧ (s.folio f).outst = 0))
    (hold : (s.folio f).oldN = 0 ∨ (s.folio f).oldOutst ≠ 0) : folioFree f s = s :=
  (if_neg h).trans (if_neg fun hfree => hold.elim hfree.1 (· hfree.2))

/-- The extent of an unused folio that has one here is free afterwards. -/
theorem usedAfter_chunk {e : FolioEnt} (hn : e.nchunk ≠ 0) (href : e.tierRef = 0) : KMap.find? (usedAfter s e) e.chunk = none := by
  refine find?_usedWithout_of_none ?_
  unfold usedWithout
  rw [if_neg (not_or.2 ⟨hn, not_not_intro href⟩)]
  exact KMap.find?_erase_self ..

theorem usedAfter_other {e : FolioEnt} {c : Nat} (hc : c ≠ e.chunk) (hold : c ≠ e.oldChunk) :
    KMap.find? (usedAfter s e) c = KMap.find? s.flo.used c := by
  rw [find?_usedWithout_other _ hold, find?_usedWithout_other _ hc]

end

/-- Counting an event changes its count alone. -/
theorem bump_sameRegs (s : State) (f : Fld) (i : Nat) : SameRegs s (s.bump f i) [f.key i] := SameRegs.wr _ _ _ _

/-- `t` differs from `s` in register fields and, of the folio unit, in its folio records, free numbers and extents in use. -/
abbrev FreesOnly (s t : State) : Prop :=
  { t with regs := s.regs, flo.folios := s.flo.folios, flo.freed := s.flo.freed, flo.used := s.flo.used } = s

section
variable {s t : State} (h : FreesOnly s t)
include h

theorem FreesOnly.andFolio (f : Nat) (e : FolioEnt) : FreesOnly s (t.setFolio f e) := h
theorem FreesOnly.andPush (f : Nat) : FreesOnly s (pushFolioId f t) := h
theorem FreesOnly.andExtents (used : KMap Nat) : FreesOnly s { t with flo.used := used } := h
theorem FreesOnly.andBump (f : Fld) (i : Nat) : FreesOnly s (t.bump f i) := h

end

theorem bump_folio (s : State) (f : Fld) (i g : Nat) : (s.bump f i).folio g = s.folio g := rfl
theorem pushFolioId_folio (f : Nat) (s : State) (g : Nat) : (pushFolioId f s).folio g = s.folio g := rfl

/-- What a free folio leaves: its record `e`, its number on the free stack, and the extents `used`. -/
theorem folioGone_shown (s : State) (f : Nat) (used : KMap Nat) (e : FolioEnt) :
    let t := (pushFolioId f ({ s with flo.used := used }.setFolio f e)).bump (FLO_CNT.COUNT 1)
    t.folio f = e ∧ t.flo.freed = f :: s.flo.freed ∧ t.flo.used = used ∧ (∀ g, g ≠ f → t.folio g = s.folio g) ∧
      t.rd (FLO_CNT.COUNT 1) = min (2 ^ 32 - 1) (s.rd (FLO_CNT.COUNT 1) + 1) ∧ SameRegs s t [(FLO_CNT.COUNT 1).key 0] ∧ FreesOnly s t := by
  have hframe : FreesOnly s s := rfl
  refine ⟨?_, rfl, rfl, fun g hg => ?_, rd_bump_self .., bump_sameRegs s _ _, (((hframe.andExtents used).andFolio f e).andPush f).andBump ..⟩
  · rw [bump_folio, pushFolioId_folio, folio_setFolio_self]
  · rw [bump_folio, pushFolioId_folio, folio_setFolio_other _ _ hg]
    rfl

/-- What a free replaced extent leaves: the folio's record `e`, and the other extents. -/
theorem extentGone_shown (s : State) (f c : Nat) (e : FolioEnt) :
    let t := ((freeExtent c s).setFolio f e).bump (FLO_CNT.COUNT 1)
    t.folio f = e ∧ KMap.find? t.flo.used c = none ∧ (∀ d, d ≠ c → KMap.find? t.flo.used d = KMap.find? s.flo.used d) ∧
      (∀ g, g ≠ f → t.folio g = s.folio g) ∧ t.rd (FLO_CNT.COUNT 1) = min (2 ^ 32 - 1) (s.rd (FLO_CNT.COUNT 1) + 1) ∧
      SameRegs s t [(FLO_CNT.COUNT 1).key 0] ∧ { t with regs := s.regs, flo.folios := s.flo.folios, flo.used := s.flo.used } = s := by
  have hframe : { freeExtent c s with regs := s.regs, flo.folios := s.flo.folios, flo.used := s.flo.used } = s := rfl
  refine ⟨?_, KMap.find?_erase_self .., fun _ hd => KMap.find?_erase_other _ hd, fun g hg => ?_, rd_bump_self .., bump_sameRegs s _ _, ?_⟩
  · rw [bump_folio, folio_setFolio_self]
  · rw [bump_folio, folio_setFolio_other _ _ hg]
    rfl
  · exact hframe

/-! References dropped (R182). -/

/-- A folio with `n` references fewer. -/
abbrev FolioEnt.dropped (n : Nat) (e : FolioEnt) : FolioEnt :=
  { e with refs := e.refs - n, state := if n ≠ 0 ∧ e.refs ≤ n then 2 else e.state }

theorem FolioEnt.dropped_zero (e : FolioEnt) : e.dropped 0 = e := rfl

theorem FolioEnt.dropped_dropped (m n : Nat) (e : FolioEnt) : (e.dropped m).dropped n = e.dropped (m + n) := by
  have hrefs : e.refs - m - n = e.refs - (m + n) := by omega
  have hstate : (if n ≠ 0 ∧ e.refs - m ≤ n then 2 else if m ≠ 0 ∧ e.refs ≤ m then 2 else e.state) =
      if m + n ≠ 0 ∧ e.refs ≤ m + n then 2 else e.state := by
    split_ifs <;> omega
  simp only [FolioEnt.dropped, hrefs, hstate]

theorem folio_dropRef (g f : Nat) (s : State) : (dropRef g s).folio f = (s.folio f).dropped (if g = f then 1 else 0) := by
  by_cases h : g = f
  · subst h
    rw [if_pos rfl, dropRef, folio_setFolio_self]
    simp only [FolioEnt.dropped, ne_eq, one_ne_zero, not_false_eq_true, true_and]
  · rw [if_neg h, FolioEnt.dropped_zero]
    exact folio_setFolio_other _ _ (Ne.symm h)

/-- Dropping a reference for each folio of a list drops as many of a folio as the list names it. -/
theorem folio_dropRefs (l : List Nat) (f : Nat) (s : State) : (l.foldl (fun s g => dropRef g s) s).folio f = (s.folio f).dropped (l.count f) := by
  induction l generalizing s with
  | nil => rfl
  | cons g r ih =>
    rw [List.foldl_cons, ih, folio_dropRef, FolioEnt.dropped_dropped, List.count_cons]
    simp only [beq_iff_eq, Nat.add_comm]

end Sys2Proof.Machine
end

section
/-!
PROOFS. The end of a close (R184): what letting go of runs in the lower case leaves, what the folios and leaf blocks of the others
become, and the accounting record.
-/
namespace Sys2Proof.Machine

/-! The runs of a closed conversation in the upper case (R182). -/

/-- One run let go of: a reference of each folio that its vector names, and its leaf blocks. -/
abbrev runLetGo (i : Nat) (s : State) : State := freeLeaves i (List.foldl (fun s (e : Nat × Nat) => dropRef e.2 s) s (s.run i).vec)
abbrev runsLetGo (is : List Nat) (s : State) : State := is.foldl (fun s i => runLetGo i s) s

/-- The folios that a run's vector names. -/
abbrev namedBy (s : State) (i : Nat) : List Nat := List.map (fun e : Nat × Nat => e.2) (s.run i).vec

/-- `t` differs from `s` in folio records and freed leaf blocks alone. -/
abbrev LetGoOnly (s t : State) : Prop := { t with flo.folios := s.flo.folios, flo.leafFreed := s.flo.leafFreed } = s

theorem LetGoOnly.trans {s t u : State} (h : LetGoOnly s t) (g : LetGoOnly t u) : LetGoOnly s u :=
  (congrArg (fun x : State => { x with flo.folios := s.flo.folios, flo.leafFreed := s.flo.leafFreed }) g).trans h

theorem LetGoOnly.convs {s t : State} (h : LetGoOnly s t) : t.flo.convs = s.flo.convs := by
  have e := congrArg (fun x : State => x.flo.convs) h
  exact e

theorem LetGoOnly.run {s t : State} (h : LetGoOnly s t) (i : Nat) : t.run i = s.run i := by
  have e := congrArg (fun x : State => x.run i) h
  exact e

theorem dropRefs_letGo (l : List (Nat × Nat)) (s : State) : LetGoOnly s (l.foldl (fun s e => dropRef e.2 s) s) :=
  foldl_invariant (I := LetGoOnly s) (by exact fun _ _ _ ht => ht) rfl

theorem runLetGo_only (i : Nat) (s : State) : LetGoOnly s (runLetGo i s) := (dropRefs_letGo _ s).trans rfl

theorem runsLetGo_only (is : List Nat) (s : State) : LetGoOnly s (runsLetGo is s) :=
  foldl_invariant (I := LetGoOnly s) (fun _ i _ ht => ht.trans (runLetGo_only i _)) rfl

theorem folio_runLetGo (i f : Nat) (s : State) : (runLetGo i s).folio f = (s.folio f).dropped ((namedBy s i).count f) := by
  rw [← folio_dropRefs, List.foldl_map]
  rfl

/-- Each folio loses one reference for each place that names it. -/
theorem folio_runsLetGo (is : List Nat) (f : Nat) (s : State) :
    (runsLetGo is s).folio f = (s.folio f).dropped ((is.flatMap (namedBy s)).count f) := by
  induction is generalizing s with
  | nil => rfl
  | cons i r ih =>
    have hrest : r.flatMap (namedBy (runLetGo i s)) = r.flatMap (namedBy s) :=
      List.flatMap_congr fun j _ => congrArg (fun u : RunRec => u.vec.map (·.2)) ((runLetGo_only i s).run j)
    rw [runsLetGo, List.foldl_cons]
    rw [ih, hrest, folio_runLetGo, FolioEnt.dropped_dropped, List.flatMap_cons, List.count_append]

theorem leafFreed_runLetGo (i : Nat) (s : State) : (runLetGo i s).flo.leafFreed = (s.run i).leaf.map (·.2) ++ s.flo.leafFreed := by
  have hvec := dropRefs_letGo (s.run i).vec s
  have hfreed : (List.foldl (fun s (e : Nat × Nat) => dropRef e.2 s) s (s.run i).vec).flo.leafFreed = s.flo.leafFreed :=
    foldl_keeps (fun u => u.flo.leafFreed) (by exact fun _ _ _ => rfl) s
  exact congrArg₂ (fun (u : RunRec) freed => u.leaf.map (·.2) ++ freed) (hvec.run i) hfreed

/-- The leaf blocks of each run are free. -/
theorem leaf_mem_runsLetGo {is : List Nat} {i : Nat} (hi : i ∈ is) (s : State) {e : Nat × Nat} (he : e ∈ (s.run i).leaf) :
    e.2 ∈ (runsLetGo is s).flo.leafFreed := by
  obtain ⟨l₁, l₂, rfl⟩ := List.append_of_mem hi
  rw [runsLetGo, List.foldl_append, List.foldl_cons]
  refine foldl_invariant (I := fun t : State => e.2 ∈ t.flo.leafFreed) (fun t j _ ht => ?_) ?_
  · rw [leafFreed_runLetGo]
    exact List.mem_append_right _ ht
  · rw [leafFreed_runLetGo, (runsLetGo_only l₁ s).run]
    exact List.mem_append_left _ (List.mem_map.2 ⟨e, he, rfl⟩)

/-! The runs in the lower case, or on their way (R220, R233). -/

theorem foldl_convs {α : Type} {f : State → α → State} {l : List α} (hf : ∀ s a, (f s a).flo.convs = s.flo.convs) (s : State) :
    (l.foldl f s).flo.convs = s.flo.convs :=
  foldl_keeps (fun u => u.flo.convs) (fun s a _ => hf s a) s

theorem setTier_convs (c l v : Nat) (s : State) : (setTier c l v s).flo.convs = s.flo.convs := foldl_convs (by exact fun _ _ => rfl) s

theorem undoEncs_convs (x : SpillSt) (s : State) : (undoEncs x s).flo.convs = s.flo.convs := foldl_convs (by exact fun _ _ => rfl) s

theorem undoSpill_convs (x : SpillSt) (s : State) : (undoSpill x s).flo.convs = s.flo.convs := by
  have hplaces : (undoEncs x (x.places.foldl (fun s y => tierRelease x.pool y.2.1 s) s)).flo.convs = s.flo.convs :=
    (undoEncs_convs ..).trans (foldl_convs (by exact fun _ _ => rfl) s)
  unfold undoSpill
  dsimp only
  refine (setTier_convs ..).trans ?_
  split
  · exact hplaces
  · split <;> exact hplaces

theorem tierDone_flo (st : Nat) (s : State) : (tierDone st s).flo = s.flo := rfl

theorem fetchDrop_flo (c l : Nat) (s : State) : (fetchDrop c l s).flo = s.flo := rfl

theorem dropLease_flo (e : LeaseEnt) (s : State) : (dropLease e s).flo = s.flo := rfl

theorem spillCancel_convs (c l : Nat) (s : State) : (spillCancel c l s).flo.convs = s.flo.convs := by
  unfold spillCancel
  split
  next x _ =>
    have hcounted := (congrArg FloSt.convs (bump_flo (undoSpill x s) (TIER_CNT.COUNT 2) 0)).trans (undoSpill_convs x s)
    dsimp only
    split
    · exact (congrArg FloSt.convs (tierDone_flo ..)).trans hcounted
    · exact hcounted
  next => rfl

theorem undoFetch_convs (c l : Nat) (s : State) : (undoFetch c l s).flo.convs = s.flo.convs := by
  have hplaces : (undoPlaces c l s).flo.convs = s.flo.convs :=
    foldl_convs (by exact fun _ _ => foldl_convs (by exact fun _ _ => rfl) _) s
  exact (setTier_convs ..).trans hplaces

theorem releaseTier_convs (c l : Nat) (refs : List Nat) (s : State) : (releaseTier c l refs s).2.flo.convs = s.flo.convs := by
  unfold releaseTier
  split
  · split
    · rfl
    · split <;> rfl
  · exact foldl_convs (by exact fun _ _ => rfl) s

theorem closeTier_convs (c l : Nat) (s : State) : (closeTier c l s).flo.convs = s.flo.convs := by
  have hfetch : (fetchDrop c l (if tierState (spillCancel c l s) c l = 3 then undoFetch c l (spillCancel c l s) else spillCancel c l s)).flo.convs =
      s.flo.convs := by
    rw [fetchDrop_flo]
    split
    · exact (undoFetch_convs ..).trans (spillCancel_convs ..)
    · exact spillCancel_convs ..
  unfold closeTier
  dsimp only
  generalize fetchDrop c l _ = u at hfetch
  split
  · split
    · exact hfetch
    · have hrelease := releaseTier_convs c l [] u
      split
      next heq => exact (heq ▸ hrelease).trans hfetch
      next heq => exact (congrArg FloSt.convs ((dropLease_flo ..).trans (bump_flo ..))).trans ((heq ▸ hrelease).trans hfetch)
      next heq => exact (congrArg FloSt.convs (dropLease_flo ..)).trans ((heq ▸ hrelease).trans hfetch)
  · exact (releaseTier_convs ..).trans hfetch

/-- Where no run is in the lower case or on its way, letting go of a layer there empties its place in the fetch queue alone. -/
theorem closeTier_resident {c l : Nat} {s : State} (hspills : s.tier.spills = []) (hleases : s.tier.leases = []) (htier : tierState s c l ≠ 3)
    (hfolios : runSpilled s c l = []) : closeTier c l s = fetchDrop c l s := by
  have hcancel : spillCancel c l s = s := by
    unfold spillCancel
    rw [hspills]
    rfl
  have hspilled : runSpilled (fetchDrop c l s) c l = [] := hfolios
  have hlease : leaseOf (fetchDrop c l s) c l = none := by
    unfold leaseOf fetchDrop
    rw [hleases]
    rfl
  unfold closeTier
  dsimp only
  rw [hcancel, if_neg htier, hspilled, hlease]
  unfold releaseTier
  rw [hlease]
  rfl

/-- `t` differs from `s` in the fetch queue alone. -/
abbrev QueueOnly (s t : State) : Prop := { t with tier.fetchq := s.tier.fetchq } = s

theorem QueueOnly.exists_queue {s t : State} (h : QueueOnly s t) : ∃ q, t = { s with tier.fetchq := q } :=
  ⟨t.tier.fetchq, congrArg (fun x : State => { x with tier.fetchq := t.tier.fetchq }) h⟩

/-- The state in which the layers of a closed conversation have been let go of in the lower case. -/
abbrev tiersClosed (c : Nat) (s : State) : State := (List.range (s.conv c).nlayer).foldl (fun s l => closeTier c l s) s

theorem tiersClosed_convs (c : Nat) (s : State) : (tiersClosed c s).flo.convs = s.flo.convs := foldl_convs (fun s l => closeTier_convs c l s) s

theorem runSpilled_resident {s : State} {c l : Nat} (hl : l < (s.conv c).nlayer)
    (hfolios : ∀ i ∈ runsOf s c, ∀ e ∈ (s.run i).vec, (s.folio e.2).state ≠ 3) : runSpilled s c l = [] := by
  refine List.filter_eq_nil_iff.2 fun f hf => ?_
  obtain ⟨x, hx, rfl⟩ := List.mem_map.1 hf
  obtain ⟨h, hh, hx⟩ := List.mem_flatMap.1 hx
  obtain ⟨e, he, rfl⟩ := List.mem_map.1 hx
  obtain ⟨j, hj, rfl⟩ := List.mem_map.1 hh
  have hrun : runIx s c l ((s.conv c).hgLo + j) ∈ runsOf s c :=
    List.mem_flatMap.2 ⟨l, List.mem_range.2 hl, List.mem_map.2 ⟨j, hj, rfl⟩⟩
  simpa using hfolios _ hrun e he

theorem tiersClosed_resident {s : State} {c : Nat} (hspills : s.tier.spills = []) (hleases : s.tier.leases = []) (htier : ∀ l, tierState s c l ≠ 3)
    (hfolios : ∀ i ∈ runsOf s c, ∀ e ∈ (s.run i).vec, (s.folio e.2).state ≠ 3) : QueueOnly s (tiersClosed c s) := by
  refine foldl_invariant (I := QueueOnly s) (fun t l hl ht => ?_) rfl
  have hspilled := runSpilled_resident (List.mem_range.1 hl) hfolios
  have htier := htier l
  obtain ⟨q, rfl⟩ := ht.exists_queue
  exact congrArg (fun x : State => { x with tier.fetchq := s.tier.fetchq })
    (closeTier_resident (s := { s with tier.fetchq := q }) hspills hleases htier hspilled)

/-! The accounting record (R210, R211). -/

/-- The folio unit of `t` is that of `s` but for the chunks marked in the bitmaps, where a written record may reach. -/
abbrev FloKept (s t : State) : Prop := { t.flo with used := s.flo.used } = s.flo

theorem FloKept.trans {s t u : State} (h : FloKept s t) (g : FloKept t u) : FloKept s u :=
  (congrArg (fun x : FloSt => { x with used := s.flo.used }) g).trans h

theorem FloKept.of_flo {s t : State} (h : t.flo = s.flo) : FloKept s t := congrArg (fun x : FloSt => { x with used := s.flo.used }) h

theorem FloKept.convs {s t : State} (h : FloKept s t) : t.flo.convs = s.flo.convs := by
  have e := congrArg FloSt.convs h
  exact e

theorem FloKept.leafFreed {s t : State} (h : FloKept s t) : t.flo.leafFreed = s.flo.leafFreed := by
  have e := congrArg FloSt.leafFreed h
  exact e

theorem FloKept.folio {s t : State} (h : FloKept s t) (f : Nat) : t.folio f = s.folio f := by
  have e := congrArg FloSt.folios h
  exact congrArg (KMap.get {} · f) e

theorem FillOnly.floKept {s t : State} (h : FillOnly s t) : FloKept s t := by
  have e := congrArg State.flo h
  exact .of_flo e

theorem AfterAccess.floKept {s t : State} (h : AfterAccess s t) : FloKept s t := by
  have e := congrArg State.flo h.frame
  exact e

theorem writeUpper_floKept {s u : State} (hu : u.flo = s.flo) (part off : Nat) (data : Bytes) : FloKept s (writeUpper part off data u) := by
  have hcharge := (FloKept.of_flo hu).trans (chargeBucket_fillOnly part data.length u).floKept
  unfold writeUpper
  dsimp only
  split
  · exact hcharge.trans (countRefusal_fillOnly ..).floKept
  · exact hcharge.trans (writeSectors_after ..).floKept

theorem signal_flo (p v : Nat) (s : State) : (signal p v s).flo = s.flo := by
  obtain h | ⟨-, h⟩ := signal_cases p v s <;> rw [h]
  rfl

theorem divert_flo (h : AcctHead) (c : Charge) (nj : Nat) (s : State) : (divert h c nj s).flo = s.flo := by
  unfold divert
  dsimp only
  split
  · simp only [bump_flo, addWrap_flo]
  · split <;> simp only [bump_flo, addWrap_flo]

theorem acctRecord_floKept (h : AcctHead) (c : Charge) (s : State) : FloKept s (acctRecord h c s) := by
  unfold acctRecord
  split
  · rfl
  · dsimp only
    split
    · exact .of_flo (divert_flo ..)
    · generalize hw : writeUpper 0 _ _ _ = u
      have hwritten : FloKept s u := by
        subst hw
        exact writeUpper_floKept (by rfl) ..
      split
      · exact hwritten.trans (.of_flo (by rw [signalNode, signal_flo, emit_flo, addWrap_flo]))
      · exact hwritten.trans (.of_flo (by rw [emit_flo, addWrap_flo]))

end Sys2Proof.Machine
end

section
/-!
PROOFS. CONV_CLOSE_COMPLETE (R184): the close that waits and the close that ends, and the obligation of the folios freed at zero
(R181, R182, R184).
-/
namespace Sys2Proof.Machine

/-! The close is at its end (R184). -/

/-- The upper case, once the runs of conversation `c` have been let go of in both. -/
abbrev runsClosed (c : Nat) (s : State) : State :=
  runsLetGo (runsOf (tiersClosed c s) c) (tiersClosed c s)

/-- The state in which all that conversation `c` held has been let go of and the record of it made, before
its own record is free. -/
def closeSettled (c : Nat) (s : State) : State :=
  acctRecord
    { ty := 2, part := (s.conv c).part, tenant := (s.conv c).tenant, delta := -(convChunks (tiersClosed c s) c : Int), conv := (s.conv c).conv }
    ((KMap.find? (runsClosed c s).rea.spill c).getD {}) (runsClosed c s)

theorem closeSettled_floKept (c : Nat) (s : State) : FloKept (runsClosed c s) (closeSettled c s) := by
  unfold closeSettled
  exact acctRecord_floKept ..

/-- No close runs in `u` any more, and the conversation record `r` is free. -/
def closeEnded (c : Nat) (r : ConvRec) (u : State) : State :=
  { u.setConv c { r with state := 0 } with flo.closing := none, rea.spill := KMap.erase u.rea.spill c }

section
variable (c : Nat) (r : ConvRec) (u : State)

theorem closeEnded_closing : (closeEnded c r u).flo.closing = none := rfl
theorem closeEnded_folio (f : Nat) : (closeEnded c r u).folio f = u.folio f := rfl
theorem closeEnded_leafFreed : (closeEnded c r u).flo.leafFreed = u.flo.leafFreed := rfl
theorem conv_closeEnded_self : (closeEnded c r u).conv c = { r with state := 0 } := conv_setConv_self ..
theorem conv_closeEnded_other {e : Nat} (h : e ≠ c) : (closeEnded c r u).conv e = u.conv e := conv_setConv_other u _ h

end

/-- The state in which the close is over, before its command ends. -/
abbrev closeDone (c : Nat) (s : State) : State := closeEnded c (s.conv c) (closeSettled c s)

section
variable {s : State} {src : CmdSrc} {c : Nat}

theorem exec_convCloseComplete_none (h : s.flo.closing = none) : exec .convCloseComplete s = .next s := by
  change execConvCloseComplete s = _
  simp only [execConvCloseComplete, h]

section
variable (h : s.flo.closing = some (src, c))
include h

theorem exec_convCloseComplete_waits (hin : (s.conv c).inflight ≠ 0) : exec .convCloseComplete s = .next s := by
  change execConvCloseComplete s = _
  simp only [execConvCloseComplete, h]
  exact if_pos hin

theorem exec_convCloseComplete_ends (hin : (s.conv c).inflight = 0) : exec .convCloseComplete s = .next (dirEnds src ST.OK [] (closeDone c s)) := by
  change execConvCloseComplete s = _
  simp only [execConvCloseComplete, h, hin, ne_eq, not_true_eq_false, if_false, dirEnds, closeDone, closeEnded, closeSettled, runsClosed, tiersClosed,
    runsLetGo, runLetGo]

end

theorem conv_closeSettled (c e : Nat) (s : State) : (closeSettled c s).conv e = s.conv e :=
  conv_congr ((closeSettled_floKept c s).convs.trans ((runsLetGo_only ..).convs.trans (tiersClosed_convs ..))) e

end

/-- What the end of a close leaves of folios and leaf blocks, where no run is in the lower case or on its way. -/
theorem closeDone_resident {s : State} {c : Nat} (hspills : s.tier.spills = []) (hleases : s.tier.leases = []) (htier : ∀ l, tierState s c l ≠ 3)
    (hfolios : ∀ i ∈ runsOf s c, ∀ e ∈ (s.run i).vec, (s.folio e.2).state ≠ 3) :
    (∀ f, (closeDone c s).folio f = (s.folio f).dropped (((runsOf s c).flatMap (namedBy s)).count f)) ∧
      ∀ i ∈ runsOf s c, ∀ e ∈ (s.run i).leaf, e.2 ∈ (closeDone c s).flo.leafFreed := by
  obtain ⟨q, hq⟩ := (tiersClosed_resident hspills hleases htier hfolios).exists_queue
  have hkept := closeSettled_floKept c s
  unfold runsClosed at hkept
  rw [hq] at hkept
  refine ⟨fun f => ?_, fun i hi e he => ?_⟩
  · rw [closeEnded_folio, hkept.folio, folio_runsLetGo]
    rfl
  · rw [closeEnded_leafFreed, hkept.leafFreed]
    exact leaf_mem_runsLetGo hi _ he

end Sys2Proof.Machine

open Sys2Proof Sys2Proof.Machine

/-- Settles O30: FOLIO_FREE by its three cases, and the end of a close by the references that the runs let go drop. -/
theorem foliosAreFreedAtZero : Obligations.FoliosAreFreedAtZero := by
  unfold Obligations.FoliosAreFreedAtZero
  refine ⟨fun s f => ⟨fun hstate hrefs houtst => ?unused, fun hused hold hidle => ?replaced,
      fun hused hold => congrArg Host.Outcome.next (folioFree_used hused hold)⟩,
    fun s h => exec_convCloseComplete_none h, fun s src c h => ⟨exec_convCloseComplete_waits h, fun hin => ?ended⟩⟩
  case unused =>
    obtain ⟨hfolio, hfreed, hused, hother, hcount, hregs, hframe⟩ := folioGone_shown s f (usedAfter s (s.folio f)) (s.folio f).gone
    refine ⟨_, congrArg Host.Outcome.next (folioFree_unused ⟨hstate, hrefs, houtst⟩), congrArg FolioEnt.state hfolio, hfreed,
      fun hn href => ?_, hother, fun c hc hold => ?_, hcount, hregs, hframe⟩
    · rw [hused]
      exact usedAfter_chunk hn href
    · rw [hused]
      exact usedAfter_other hc hold
  case replaced =>
    obtain ⟨hfolio, hextent, hextents, hother, hcount, hregs, hframe⟩ :=
      extentGone_shown s f (s.folio f).oldChunk { s.folio f with oldN := 0, oldChunk := 0 }
    exact ⟨_, congrArg Host.Outcome.next (folioFree_replaced hused hold hidle), hfolio, hextent, hextents, hother, hcount, hregs, hframe⟩
  case ended =>
    refine ⟨_, exec_convCloseComplete_ends h hin, conv_closeEnded_self .., fun e he => ?_, closeEnded_closing ..,
      fun hspills hleases htier hfolios => ?_⟩
    · rw [conv_closeEnded_other _ _ _ he, conv_closeSettled]
    · obtain ⟨hfolio, hleaf⟩ := closeDone_resident hspills hleases htier hfolios
      exact ⟨fun f => ⟨congrArg FolioEnt.refs (hfolio f), congrArg FolioEnt.state (hfolio f)⟩, hleaf⟩
end

section
/-!
PROOFS. Serving gangs takes no time (R200): what the ends of attempts, their records and messages, and the placement of compositions
leave of the node's time.
-/
namespace Sys2Proof.Machine

theorem foldl_now {α : Type} {f : State → α → State} {l : List α} (hf : ∀ s a, (f s a).now = s.now) (s : State) :
    (l.foldl f s).now = s.now :=
  foldl_keeps State.now (fun s a _ => hf s a) s

/-! Charges and records (R208, R210, R211). -/

theorem AfterAccess.now {s t : State} (h : AfterAccess s t) : t.now = s.now := congrArg (·.now) h.frame

theorem ChargesOnly.now {s t : State} (h : ChargesOnly s t) : t.now = s.now := congrArg (·.now) h

theorem chargeAtt_now (k ten : Nat) (i : Item) (n : Nat) (boost : Bool) (s : State) : (chargeAtt k ten i n boost s).now = s.now :=
  congrArg (·.now) (chargeAtt_endOnly i n boost k ten s)

theorem settleWarm_now (b : Nat) (s : State) : (settleWarm b s).now = s.now := (settleWarm_frame b s).1.now

/-- `t` with all that a record of the ring changes as it is in `s`: what accesses and fills change, the energy left over, the mark
of a gap, and the pending bit of its signal. -/
def beforeRecord (s t : State) : State :=
  { t with regs := s.regs, mem := s.mem, chk := s.chk, psn := s.psn, freeIx := s.freeIx, ras.handlers := s.ras.handlers,
           gal.lines := s.gal.lines, gal.plru := s.gal.plru, flo.used := s.flo.used, out := s.out, hst.msixPend := s.hst.msixPend,
           rea.stkTok := s.rea.stkTok, rea.carry := s.rea.carry, rea.gap := s.rea.gap }

/-- `t` is `s` but for what a record of the ring changes. -/
abbrev RecordOnly (s t : State) : Prop := beforeRecord s t = s

section
variable {s t u : State}

theorem RecordOnly.trans (h : RecordOnly s t) (g : RecordOnly t u) : RecordOnly s u := (congrArg (beforeRecord s) g).trans h

theorem RecordOnly.now (h : RecordOnly s t) : t.now = s.now := congrArg (·.now) h
theorem RecordOnly.rest (h : RecordOnly s t) : t.rea.rest = s.rea.rest := congrArg (·.rea.rest) h
theorem RecordOnly.lastAcct (h : RecordOnly s t) : t.rea.lastAcct = s.rea.lastAcct := congrArg (·.rea.lastAcct) h

theorem AfterAccess.recordOnly (h : AfterAccess s t) : RecordOnly s t := by
  have e := congrArg (beforeRecord s) h.frame
  exact e

theorem FillOnly.recordOnly (h : FillOnly s t) : RecordOnly s t := by
  have e := congrArg (beforeRecord s) h
  exact e

theorem RecordOnly.andWrap (h : RecordOnly s t) (f : Fld) (i n : Nat) : RecordOnly s (t.addWrap f i n) := h

theorem RecordOnly.andEmit (h : RecordOnly s t) (m : OutMsg) : RecordOnly s (t.emit m) := h

theorem RecordOnly.andLost (h : RecordOnly s t) (gap : KMap Nat) (f : Fld) : RecordOnly s ({ t with rea.gap := gap }.bump f) := h

end

theorem writeUpper_recordOnly {s u : State} (hu : RecordOnly s u) (part off : Nat) (data : Bytes) : RecordOnly s (writeUpper part off data u) := by
  have hcharge := hu.trans (chargeBucket_fillOnly part data.length u).recordOnly
  unfold writeUpper
  dsimp only
  split
  · exact hcharge.trans (countRefusal_fillOnly ..).recordOnly
  · exact hcharge.trans (writeSectors_after ..).recordOnly

theorem signal_recordOnly {s t : State} (ht : RecordOnly s t) (p v : Nat) : RecordOnly s (signal p v t) := by
  obtain h | ⟨-, h⟩ := signal_cases p v t <;> rw [h]
  · exact ht
  · exact ht

theorem divert_recordOnly {s t : State} (ht : RecordOnly s t) (h : AcctHead) (c : Charge) (nj : Nat) : RecordOnly s (divert h c nj t) := by
  unfold divert
  dsimp only
  generalize hu : (if h.ty = 1 then _ else _ : State) = u
  have hadded : RecordOnly s u := by
    subst hu
    split_ifs
    · exact (((((ht.andWrap ..).andWrap ..).andWrap ..).andWrap ..).andWrap ..).andWrap ..
    · exact (ht.andWrap ..).andWrap ..
    · exact ht
  exact ((hadded.andWrap ..).andWrap ..).andLost ..

/-- Forming a record writes the ring, or the unlogged accumulators where it is full. -/
theorem acctRecord_recordOnly (h : AcctHead) (c : Charge) (s : State) : RecordOnly s (acctRecord h c s) := by
  unfold acctRecord
  split
  · rfl
  · dsimp only
    split
    · exact divert_recordOnly (by rfl) ..
    · generalize hw : writeUpper 0 _ _ _ = u
      have hwritten : RecordOnly s u := by
        subst hw
        exact writeUpper_recordOnly (by rfl) ..
      split
      · exact signal_recordOnly ((hwritten.andWrap ..).andEmit _) ..
      · exact hwritten

theorem acctRecord_now (h : AcctHead) (c : Charge) (s : State) : (acctRecord h c s).now = s.now := (acctRecord_recordOnly h c s).now

theorem takeSpill_now (o : OwedChunks) (s : State) : (takeSpill o s).2.now = s.now := by
  unfold takeSpill
  split <;> rfl

theorem acctStorage_now (h : AcctHead) (os : List OwedChunks) (s : State) : (acctStorage h os s).now = s.now := by
  unfold acctStorage
  refine foldl_now (fun s t => ?_) s
  dsimp only
  refine (acctRecord_now ..).trans ?_
  refine foldl_invariant (I := fun r : Charge × State => r.2.now = s.now) ?_ ?_
  · exact fun r o _ hr => (takeSpill_now o r.2).trans hr
  · rfl

theorem acctTenants_now (a : Att) (status : Nat) (s : State) : (acctTenants a status s).now = s.now := foldl_now (fun _ _ => acctRecord_now ..) s

theorem acctAttempt_now (a : Att) (status : Nat) (last : Bool) (s : State) : (acctAttempt a status last s).now = s.now := by
  have htenants := acctTenants_now a status s
  unfold acctAttempt
  dsimp only
  split_ifs
  · exact (acctStorage_now ..).trans htenants
  · exact htenants
  · exact htenants

/-! Blocks (R112, R176, R303). -/

theorem gateShut_now (b : Nat) (s : State) : (gateShut b s).now = s.now := settleWarm_now b s

theorem gateOpen_now (b : Nat) (s : State) : (gateOpen b s).now = s.now := by
  unfold gateOpen
  split <;> rfl

theorem gateRest_now (b : Nat) (s : State) : (gateRest b s).now = s.now := by
  unfold gateRest
  dsimp only
  split_ifs
  · exact gateShut_now b s
  · rfl
  · rfl

theorem dropOutst_now (f : FSlot) (s : State) : (dropOutst f s).now = s.now := by
  unfold dropOutst
  dsimp only
  split_ifs <;> rfl

theorem takeComp_now (b : Nat) (s : State) : (takeComp b s).now = s.now := by
  unfold takeComp
  dsimp only
  split
  · rfl
  next c _ =>
    refine (gateRest_now ..).trans ?_
    generalize hu : List.foldl _ _ c.slots = u
    have hdropped : u.now = s.now := hu ▸ (foldl_now (fun _ _ => dropOutst_now ..) _).trans (chargeAtt_now ..)
    unfold unstall
    dsimp only
    split <;> exact hdropped

theorem dropQueued_now (p : PltList → Bool) (s : State) : (dropQueued p s).now = s.now := foldl_now (by exact fun _ _ => rfl) _

theorem listEnds_now (b tag : Nat) (s : State) : (listEnds b tag s).now = s.now := by
  unfold listEnds
  split
  · rfl
  · exact dropOutst_now ..

theorem dropLists_now (b : Nat) (s : State) : (dropLists b s).now = s.now := by
  unfold dropLists
  dsimp only
  exact (foldl_now (fun _ _ => listEnds_now ..) _).trans (dropQueued_now ..)

theorem clearBlock_now (k b : Nat) (s : State) : (clearBlock k b s).now = s.now := by
  unfold clearBlock
  dsimp only
  refine (gateRest_now ..).trans ?_
  simp only [apply_ite State.now, takeComp_now, dropLists_now, ite_self]
  rfl

/-! Messages (R248–R258, R302). -/

theorem frameGone_now (f : Frame) (s : State) : (frameGone f s).now = s.now := by
  unfold frameGone
  split <;> rfl

theorem tagHead_now (code c : Nat) (wasEmpty : Bool) (s : State) : (tagHead code c wasEmpty s).now = s.now := by
  unfold tagHead
  dsimp only
  split <;> rfl

theorem enqueue_now (code : Nat) (f : Frame) (s : State) : (enqueue code f s).now = s.now := by
  unfold enqueue
  dsimp only
  split
  · exact frameGone_now ..
  · split
    · exact tagHead_now ..
    · rfl

theorem deliver_now (f : Frame) (s : State) : (deliver f s).now = s.now := by
  unfold deliver
  split_ifs
  · exact (frameGone_now ..).trans (occSub_now ..)
  · exact occSub_now ..
  · exact frameGone_now ..

theorem sendFrame_now (f : Frame) (s : State) : (sendFrame f s).2.now = s.now := by
  unfold sendFrame
  dsimp only
  split
  · exact deliver_now ..
  · split
    · exact enqueue_now ..
    · exact frameGone_now ..
    · exact frameGone_now ..

theorem sendUrgent_now (f : Frame) (s : State) : (sendUrgent f s).now = s.now := by
  unfold sendUrgent
  dsimp only
  split
  · exact deliver_now ..
  · split <;> rfl

theorem sendAborts_now (part pos : Nat) (root : Bool) (m : AbortMsg) (d : SigDesc) (a : Option Att) (except : Nat) (s : State) :
    (sendAborts part pos root m d a except s).now = s.now := foldl_now (by exact fun _ _ => sendUrgent_now ..) s

theorem noteAbort_now (part : Nat) (m : AbortMsg) (root : Bool) (s : State) : (noteAbort part m root s).2.now = s.now := by
  unfold noteAbort
  dsimp only
  split <;> rfl

/-! The ends of attempts and reams (R301–R305, R327). -/

theorem moveInflight_now (part role : Nat) (t : Bytes) (up : Bool) (s : State) : (moveInflight part role t up s).now = s.now := by
  refine foldl_now (fun s h => ?_) s
  split <;> rfl

theorem dropAtt_now (s : State) (k : Nat) : (s.dropAtt k).now = s.now := rfl

theorem endAttempt_now (k status : Nat) (last : Bool) (s : State) : (endAttempt k status last s).now = s.now := by
  unfold endAttempt
  dsimp only
  split
  · rfl
  · generalize hu : State.mk .. = u
    have hcleared : ((List.range 64).foldl (fun s b => clearBlock k b s) u).now = s.now :=
      (foldl_now (fun _ _ => clearBlock_now ..) u).trans (hu ▸ rfl)
    rw [dropAtt_now]
    split
    · exact (moveInflight_now ..).trans ((acctAttempt_now ..).trans hcleared)
    · exact (acctAttempt_now ..).trans hcleared

theorem stopAttempt_now (k status faultPos : Nat) (last : Bool) (s : State) : (stopAttempt k status faultPos last s).now = s.now := by
  unfold stopAttempt
  dsimp only
  split
  · rfl
  · rw [bump_now, wr_now, wr_now, wr_now, wr_now, endAttempt_now]

theorem chargeColophon_now (k : Nat) (src : CmdSrc) (t : Bytes) (s : State) : (chargeColophon k src t s).now = s.now := by
  unfold chargeColophon
  split <;> exact chargeAtt_now ..

theorem completeReam_now (r : Ream) (status failSlot len : Nat) (s : State) : (completeReam r status failSlot len s).now = s.now := by
  have hmoved : (if r.flight then moveInflight r.part 0 r.ticket false s else s).now = s.now := by
    split
    · exact moveInflight_now ..
    · rfl
  unfold completeReam
  dsimp only
  split
  · exact hmoved
  · exact (sendFrame_now ..).trans hmoved

theorem stopHeld_now (r : Ream) (status faultPos : Nat) (s : State) : (stopHeld r status faultPos s).2.now = s.now := by
  unfold stopHeld
  dsimp only
  split
  · dsimp only
    split
    · rfl
    · exact moveInflight_now ..
  · refine (stopAttempt_now ..).trans ?_
    split
    · rfl
    · exact moveInflight_now ..

theorem rootFault_now (part ream attempt status faultPos : Nat) (s : State) : (rootFault part ream attempt status faultPos s).now = s.now := by
  unfold rootFault
  split
  · rfl
  next r _ =>
    dsimp only
    split
    · rfl
    generalize (faultClass status faultPos r.lastTmo == .ends || decide (s.rd COL_CFG.MAX_ATTEMPT ≤ attempt) ||
      (sigOf? s (tktSig r.ticket) part).isNone) = ends
    generalize hx : (if ends = true then _ else _ : Ream × State) = x
    have hstopped : x.2.now = s.now := by
      subst hx
      split
      · exact (stopAttempt_now ..).trans (chargeColophon_now ..)
      · exact stopHeld_now ..
    split
    · exact (completeReam_now ..).trans hstopped
    · generalize hu : sendAborts _ _ _ _ _ _ _ _ = u
      have hsent : u.now = s.now := by
        subst hu
        refine (sendAborts_now ..).trans ((noteAbort_now ..).trans ?_)
        split_ifs <;> exact hstopped
      split
      · exact (completeReam_now ..).trans hsent
      · exact hsent

theorem endPart_now (k status faultPos : Nat) (s : State) : (endPart k status faultPos s).now = s.now := by
  unfold endPart
  split
  · rfl
  · split_ifs
    · exact endAttempt_now ..
    · exact rootFault_now ..
    · refine (stopAttempt_now ..).trans ?_
      split
      · exact (sendAborts_now ..).trans (noteAbort_now ..)
      · rfl

theorem failAtt_now (k status : Nat) (s : State) : (failAtt k status s).now = s.now := by
  unfold failAtt
  split
  · rfl
  · exact endPart_now ..

/-! Placement (R198–R203). -/

theorem placeComp_now (x : PendComp) (s : State) : (placeComp x s).now = s.now := gateOpen_now ..

theorem rehome_now {x y : PendComp} {s t : State} (h : rehome x s = some (y, t)) : t.now = s.now := by
  obtain ⟨n, -, hn⟩ := Option.map_eq_some_iff.1 h
  dsimp only at hn
  split at hn <;> cases hn <;> rfl

theorem placeParked_now (x : PendComp) (s : State) : (placeParked x s).now = s.now := by
  unfold placeParked
  split
  · split
    · exact failAtt_now ..
    · refine (placeComp_now ..).trans ?_
      split <;> rfl
  · split
    · exact placeComp_now ..
    · split
      · exact failAtt_now ..
      next h => exact (placeComp_now ..).trans (rehome_now h)

theorem setAtt_now (s : State) (k : Nat) (a : Att) : (s.setAtt k a).now = s.now := rfl

theorem unpark_now (k : Nat) (s : State) : (unpark k s).now = s.now := by
  unfold unpark
  split
  · rfl
  · refine foldl_now (fun s x => ?_) _
    split
    · exact placeParked_now ..
    · rfl

theorem placeLate_now (k : Nat) (press : Bool) (gs : List GangWait) (s : State) : (placeLate k press gs s).now = s.now := by
  unfold placeLate
  split
  · rfl
  · split
    · exact failAtt_now ..
    · rw [unpark_now, setAtt_now, bumpBy_now, bumpBy_now, bumpBy_now]

theorem gangServe_now (set : Nat) (s : State) : (gangServe set s).now = s.now := by
  unfold gangServe
  split
  · rfl
  · refine foldl_now (fun s e => ?_) s
    split
    · rfl
    · exact placeLate_now ..

theorem gangsServe_now (s : State) : (gangsServe s).now = s.now := foldl_now (fun _ _ => gangServe_now ..) s

end Sys2Proof.Machine
end

section
/-!
PROOFS. The ream scheduler's picks (R195, R202–R204): commits of weights, the ticket that the slot pipeline serves, and the
composition that enters a dispatch queue.
-/
namespace Sys2Proof.Machine

/-! The least of a list. -/

/-- A loop that keeps, of two elements, one whose key is not above the other's ends with an element of the least key. -/
theorem foldl_least {α : Type} {pick : Option α → α → Option α} {key : α → Nat} (hfirst : ∀ x, pick none x = some x) {l : List α}
    (hnext : ∀ y ∈ l, ∀ x ∈ l, (pick (some y) x = some x ∧ key x ≤ key y) ∨ (pick (some y) x = some y ∧ key y ≤ key x)) {a : α}
    (h : l.foldl pick none = some a) : a ∈ l ∧ ∀ y ∈ l, key a ≤ key y := by
  cases l with
  | nil => cases h
  | cons y r =>
    rw [List.foldl_cons, hfirst] at h
    induction r generalizing y with
    | nil =>
      cases h
      simp
    | cons x r ih =>
      have hsub : x :: r ⊆ y :: x :: r := List.subset_cons_self ..
      have hskip : y :: r ⊆ y :: x :: r := List.cons_subset_cons _ (List.subset_cons_self ..)
      rw [List.foldl_cons] at h
      obtain ⟨hpick, hle⟩ | ⟨hpick, hle⟩ := hnext y (by simp) x (by simp) <;> rw [hpick] at h
      · obtain ⟨hmem, hleast⟩ := ih x (fun u hu v hv => hnext u (hsub hu) v (hsub hv)) h
        exact ⟨hsub hmem, List.forall_mem_cons.2 ⟨(hleast x (by simp)).trans hle, hleast⟩⟩
      · obtain ⟨hmem, hleast⟩ := ih y (fun u hu v hv => hnext u (hskip hu) v (hskip hv)) h
        obtain ⟨hy, hr⟩ := List.forall_mem_cons.1 hleast
        exact ⟨hskip hmem, List.forall_mem_cons.2 ⟨hy, List.forall_mem_cons.2 ⟨hy.trans hle, hr⟩⟩⟩

/-! The commit of the weights (R204). -/

/-- The active weights of a partition, each with its shadow. -/
def weightFlds : List (Fld × Fld) :=
  (REAM_PW_ACT.WEIGHT, REAM_PW.WEIGHT) :: (List.range 16).map fun c => (REAM_CW_ACT.W c, REAM_CW.W c)

/-- `s` with the shadow weights of partition `p` copied to the active ones. -/
abbrev partCommitted (p : Nat) (s : State) : State := weightFlds.foldl (fun s w => s.wr w.1 p (s.rd w.2 p)) s

theorem applyReamCommit_idle {s : State} (h : s.rd REAM_COMMIT_STS.PEND = 0) : applyReamCommit s = s :=
  if_pos (by simp [State.flag, h])

theorem applyReamCommit_pending {s : State} (h : s.rd REAM_COMMIT_STS.PEND = 1) :
    applyReamCommit s = ((List.range 32).foldl (fun s p => partCommitted p s) s).wr REAM_COMMIT_STS.PEND 0 0 :=
  if_neg (by simp [State.flag, h])

/-- Shadow weights, active weights and the mark of the commit are different fields; an active weight has eight bits. -/
theorem weightFlds_apart : ∀ w ∈ weightFlds, w.1.base ≠ REAM_COMMIT_STS.PEND.base ∧ w.1.wd = 8 ∧
    ∀ v ∈ weightFlds, w.2.base ≠ v.1.base ∧ (w ≠ v → w.1.base ≠ v.1.base) := by
  decide

theorem weightFlds_nodup : weightFlds.Nodup := by decide

section
variable {w : Fld × Fld} (hw : w ∈ weightFlds) {p : Nat}
include hw

theorem partCommitted_shadow {q : Nat} (hp : p < 32) (hq : q < 32) (s : State) : (partCommitted p s).rd w.2 q = s.rd w.2 q := by
  obtain ⟨-, -, hapart⟩ := weightFlds_apart w hw
  exact foldl_keeps (fun t : State => t.rd w.2 q) (fun t v hv => rd_wr_base t _ (hapart v hv).1 (by omega) (by omega)) s

theorem partCommitted_active (s : State) : (partCommitted p s).rd w.1 p = s.rd w.2 p % 256 := by
  obtain ⟨-, hwd, hapart⟩ := weightFlds_apart w hw
  refine foldl_at (J := fun t : State => t.rd w.2 p = s.rd w.2 p) (Q := fun t : State => t.rd w.1 p = s.rd w.2 p % 256) weightFlds_nodup hw
    (fun t v hv _ ht => ?_) (fun t ht => ?_) (fun t v hv hne ht => ?_) rfl
  · rw [rd_wr_apart t p _ (hapart v hv).1, ht]
  · rw [rd_wr_self, hwd, ht]
    rfl
  · rw [rd_wr_apart t p _ ((hapart v hv).2 hne.symm), ht]

theorem partCommitted_otherPart {q : Nat} (hp : p < 32) (hq : q < 32) (hne : q ≠ p) (s : State) :
    (partCommitted p s).rd w.1 q = s.rd w.1 q := by
  obtain ⟨-, -, hapart⟩ := weightFlds_apart w hw
  refine foldl_keeps (fun t : State => t.rd w.1 q) (fun t v hv => ?_) s
  obtain rfl | hwv := eq_or_ne w v
  · exact rd_wr_ix t _ hne
  · exact rd_wr_base t _ ((hapart v hv).2 hwv) (by omega) (by omega)

/-- A commit copies the shadow weights of every partition. -/
theorem applyReamCommit_active {s : State} (h : s.rd REAM_COMMIT_STS.PEND = 1) (hp : p < 32) :
    (applyReamCommit s).rd w.1 p = s.rd w.2 p % 256 := by
  rw [applyReamCommit_pending h, rd_wr_base _ _ (weightFlds_apart w hw).1 (by omega) (by omega)]
  have hlt (q : Nat) (hq : q ∈ List.range 32) : q < 32 := List.mem_range.1 hq
  exact foldl_at (f := fun s p => partCommitted p s) (J := fun t => t.rd w.2 p = s.rd w.2 p) (Q := fun t => t.rd w.1 p = s.rd w.2 p % 256)
    List.nodup_range (List.mem_range.2 hp) (fun t q hq _ ht => (partCommitted_shadow hw (hlt q hq) hp t).trans ht)
    (fun t ht => by rw [partCommitted_active hw, ht])
    (fun t q hq hne ht => (partCommitted_otherPart hw (hlt q hq) hp hne.symm t).trans ht) rfl

end

theorem applyReamCommit_done {s : State} (h : s.rd REAM_COMMIT_STS.PEND = 1) : (applyReamCommit s).rd REAM_COMMIT_STS.PEND = 0 := by
  rw [applyReamCommit_pending h]
  exact rd_wr_self ..

/-! The slot pipeline (R195, R203). -/

/-- The ticket served is queued, and no queued one of a partition without a batch at work has a smaller tag. -/
theorem nextTicket_least {s : State} {k : Nat} {a : Att} (h : nextTicket s = some (k, a)) : (k, a) ∈ s.col.atts ∧ a.next < tktNslot a.ticket ∧
    ∀ e ∈ s.col.atts, e.2.next < tktNslot e.2.ticket → batchHeld s e.2.part = false → a.tag ≤ e.2.tag := by
  have hspec := foldl_least (key := fun e : Nat × Att => e.2.tag) (fun _ => rfl) (fun y _ x _ => ?picks) h
  case picks =>
    dsimp only
    split
    next hsmaller => exact .inl ⟨rfl, by omega⟩
    next hnot => exact .inr ⟨rfl, by omega⟩
  simp only [List.mem_filter, Bool.and_eq_true, decide_eq_true_eq, Bool.not_eq_true'] at hspec
  obtain ⟨⟨hin, hqueued, -⟩, hleast⟩ := hspec
  exact ⟨hin, hqueued, fun e he hn hheld => hleast e ⟨he, hn, hheld⟩⟩

section
variable {s : State}

theorem exec_slotPipelineServe_stopped (h : nodeRuns s = false) : exec .slotPipelineServe s = .next s :=
  if_pos (by simp [h])

variable (hrun : nodeRuns s = true)
include hrun

theorem exec_slotPipelineServe_idle (h : nextTicket (applyReamCommit s) = none) : exec .slotPipelineServe s = .next (applyReamCommit s) := by
  change execSlotPipelineServe s = _
  simp only [execSlotPipelineServe, hrun, not_true_eq_false, if_false, h]

theorem exec_slotPipelineServe_serves (hpend : s.rd REAM_COMMIT_STS.PEND = 0) {k : Nat} {a : Att} (h : nextTicket s = some (k, a)) :
    exec .slotPipelineServe s = .next ({ s with rea.v1 := a.tag }.setAtt k { a with due := true }) := by
  change execSlotPipelineServe s = _
  simp only [execSlotPipelineServe, hrun, not_true_eq_false, if_false, applyReamCommit_idle hpend, h]

end

/-! Admission into the dispatch queues (R202, R203). -/

theorem tagLe_iff {a b : Nat} (ha : a < 2 ^ 47) (hb : b < 2 ^ 47) : tagLe a b = true ↔ a ≤ b := by
  unfold tagLe tagMod
  rw [decide_eq_true_iff]
  omega

theorem nextPending_mem {s : State} {b : Nat} {x : PendComp} (h : nextPending s b = some x) : x ∈ s.rea.pool ∧ x.block = b := by
  have hspec := foldl_least (key := fun _ => 0) (fun _ => rfl) (fun y _ x _ => ?picks) h
  case picks =>
    dsimp only
    split_ifs <;> simp
  simpa only [List.mem_filter, decide_eq_true_eq] using hspec.1

/-- Where no tag has passed half of the tags' circle, the composition admitted has the smallest tag of its block. -/
theorem nextPending_least {s : State} {b : Nat} {x : PendComp} (hsmall : ∀ y ∈ s.rea.pool, y.tag < 2 ^ 47) (h : nextPending s b = some x) :
    ∀ y ∈ s.rea.pool, y.block = b → x.tag ≤ y.tag := by
  have hspec := foldl_least (key := PendComp.tag) (fun _ => rfl) (fun y hy x hx => ?picks) h
  case picks =>
    have hle := tagLe_iff (hsmall x (List.mem_of_mem_filter hx)) (hsmall y (List.mem_of_mem_filter hy))
    dsimp only
    split_ifs with heq hfirst hbefore
    · exact .inl ⟨rfl, heq.ge⟩
    · exact .inr ⟨rfl, heq.le⟩
    · exact .inl ⟨rfl, hle.1 hbefore⟩
    · exact .inr ⟨rfl, by have := mt hle.2 hbefore; omega⟩
  exact fun y hy hb => hspec.2 y (List.mem_filter.2 ⟨hy, decide_eq_true hb⟩)

theorem gateOpen_of_open {s : State} {b : Nat} (h : s.flag CMP_SEQ_STS.CLK_ON b = true) : gateOpen b s = s := if_pos h

theorem clockOn_of_blockAccepts {s : State} {b part : Nat} (h : blockAccepts s b part = true) : s.flag CMP_SEQ_STS.CLK_ON b = true := by
  simp only [blockAccepts, Bool.and_eq_true] at h
  tauto

section
variable {s : State} {b : Nat} {x : PendComp} (hpend : s.rd REAM_COMMIT_STS.PEND = 0) (hx : nextPending s b = some x)
include hpend hx

theorem exec_dispatchQueueAdmit_waits (h : blockAccepts s b x.comp.part = false) : exec (.dispatchQueueAdmit b) s = .next s := by
  change execDispatchQueueAdmit b s = _
  simp only [execDispatchQueueAdmit, applyReamCommit_idle hpend, hx, h, Bool.false_eq_true, not_false_eq_true, if_true]

/-- A block that accepts has its clock on, so that its gate stays as it is. -/
theorem exec_dispatchQueueAdmit_admits (h : blockAccepts s b x.comp.part = true) : exec (.dispatchQueueAdmit b) s =
    .next ({ s with rea.vb := KMap.put 0 s.rea.vb b x.tag, rea.pool := s.rea.pool.erase x }.setBlk b
      { s.blk b with queue := (s.blk b).queue ++ [x.comp] }) := by
  change execDispatchQueueAdmit b s = _
  simp only [execDispatchQueueAdmit, applyReamCommit_idle hpend, hx, h, not_true_eq_false, if_false]
  exact congrArg Host.Outcome.next (gateOpen_of_open (clockOn_of_blockAccepts (s := s) h))

end

end Sys2Proof.Machine
end

section
/-!
PROOFS. The ream scheduler in time (R155, R196, R200, R205, R206, R210): placement batches, gang waits, starvation, the refill of
the regulators' buckets, the records of overhead, and the obligation of the scheduler.
-/
namespace Sys2Proof.Machine

/-! Placement batches (R155, R159, R196, R220, R223). -/

/-- The runs of a batch that are all in the upper case let it go on, and nothing changes. -/
theorem batchResident_all {s : State} {k : Nat} {a : Att} (ha : s.att? k = some a) (h : ∀ x ∈ batchRuns s a, tierState s x.1 x.2.1 = 0) :
    batchResident k s = (true, s) := by
  unfold batchResident
  rw [ha]
  dsimp only
  refine foldl_invariant (I := (· = (true, s))) (fun r x hx hr => ?_) rfl
  rw [hr]
  simp only [h x hx]

theorem batchHanding_of_resident {s : State} {a : Att} (h : ∀ x ∈ batchRuns s a, tierState s x.1 x.2.1 = 0) : batchHanding s a = false :=
  List.any_eq_false.2 fun x hx => by simp [h x hx]

section
variable {s : State} {part ream pos : Nat} {audit : Bool} {a : Att} (ha : s.att? (attKey part ream pos audit) = some a) (hrun : nodeRuns s = true)
  (hparked : a.parked = [])
include ha hrun hparked

theorem exec_placementBatch_waits (h : a.due = false ∨ batchAppends a = true) : exec (.placementBatch part ream pos audit) s = .next s := by
  have hnot : ¬ a.due = true ∨ batchAppends a = true := h.imp_left fun hdue => by simp [hdue]
  change execPlacementBatch part ream pos audit s = _
  simp only [execPlacementBatch, ha, hrun, hparked, List.isEmpty_nil, not_true_eq_false, if_false]
  exact if_pos hnot

theorem exec_placementBatch_places (hdue : a.due = true) (happs : batchAppends a = false) (h : ∀ x ∈ batchRuns s a, tierState s x.1 x.2.1 = 0) :
    exec (.placementBatch part ream pos audit) s = .next (placeBatch (attKey part ream pos audit) a s) := by
  change execPlacementBatch part ream pos audit s = _
  simp only [execPlacementBatch, ha, hrun, hparked, hdue, happs, batchHanding_of_resident h, batchResident_all ha h, List.isEmpty_nil,
    not_true_eq_false, Bool.false_eq_true, or_self, if_false, Option.getD_some]

end

/-! Gang waits (R200). -/

/-- Where no folio waits for a gang, none is served. -/
theorem gangsServe_of_none {s : State} (h : ∀ e ∈ s.col.atts, e.2.gangs = []) : gangsServe s = s := by
  have hsets : (s.col.atts.flatMap fun e : Nat × Att => e.2.gangs.map fun g => folioSet g.fslot) = [] :=
    List.flatMap_eq_nil_iff.2 fun e he => by rw [h e he, List.map_nil]
  rw [gangsServe, hsets]
  rfl

section
variable {s : State} {part ream pos : Nat} {audit : Bool} {a : Att} (ha : (gangsServe s).att? (attKey part ream pos audit) = some a)
include ha

theorem exec_gangWaitExpire_inTime (h : ∀ g ∈ a.gangs, s.now ≤ g.since + a.pol.gangWait) :
    exec (.gangWaitExpire part ream pos audit) s = .next (gangsServe s) := by
  have hnone : a.gangs.filter (fun g => decide (g.since + a.pol.gangWait < s.now)) = [] :=
    List.filter_eq_nil_iff.2 fun g hg => by simpa using h g hg
  change execGangWaitExpire part ream pos audit s = _
  simp only [execGangWaitExpire, ha, gangsServe_now, hnone]

theorem exec_gangWaitExpire_late {g : GangWait} {gs : List GangWait}
    (h : a.gangs.filter (fun g => decide (g.since + a.pol.gangWait < s.now)) = g :: gs) :
    exec (.gangWaitExpire part ream pos audit) s = .next (placeLate (attKey part ream pos audit) false (g :: gs) (gangsServe s)) := by
  change execGangWaitExpire part ream pos audit s = _
  simp only [execGangWaitExpire, ha, gangsServe_now, h]

end

/-! Starvation (R205). How its age is measured, and that it is reported besides its signal, are the model's choices (logs 58 and 248). -/

/-- `s` with partition `p` marked starved and counted, and with the signal of it (R205). -/
abbrev starveMarked (p : Nat) (s : State) : State := (s.raise REAM_STARVE_STS.STARVE 0 (2 ^ p)).bump REAM_STARVE_CNT.COUNT
abbrev starved (p : Nat) (s : State) : State := signalNode (starveMarked p s)

theorem signalNode_regs (s : State) : (signalNode s).regs = s.regs := signal_regs ..

theorem signal_frame (p v : Nat) (s : State) : { signal p v s with out := s.out, hst.msixPend := s.hst.msixPend } = s := by
  obtain h | ⟨-, h⟩ := signal_cases p v s <;> rw [h]
  rfl

theorem bitOf_raise {f : Fld} {p : Nat} (hp : p < f.wd) (i : Nat) (s : State) : bitOf ((s.raise f i (2 ^ p)).rd f i) p = true := by
  rw [State.raise, rd_wr_self, bitOf_eq_testBit, Nat.testBit_mod_two_pow, Nat.testBit_or, Nat.testBit_two_pow_self, Bool.or_true, Bool.and_true,
    decide_eq_true hp]

theorem starved_mark {p : Nat} (hp : p < 32) (s : State) : bitOf ((starved p s).rd REAM_STARVE_STS.STARVE) p = true := by
  have hcounted : (starveMarked p s).rd REAM_STARVE_STS.STARVE = (s.raise REAM_STARVE_STS.STARVE 0 (2 ^ p)).rd REAM_STARVE_STS.STARVE :=
    rd_wr_apart _ _ _ (by decide)
  rw [rd_congr (signalNode_regs _), hcounted]
  exact bitOf_raise hp 0 s

theorem starved_count (p : Nat) (s : State) :
    (starved p s).rd REAM_STARVE_CNT.COUNT = min (2 ^ 32 - 1) (s.rd REAM_STARVE_CNT.COUNT + 1) := by
  rw [rd_congr (signalNode_regs _), rd_bump_self, State.raise, rd_wr_apart _ _ _ (by decide)]
  rfl

theorem starved_sameRegs (p : Nat) (s : State) :
    SameRegs s (starved p s) [REAM_STARVE_STS.STARVE.key 0, REAM_STARVE_CNT.COUNT.key 0] := by
  have hmarked : SameRegs s (starveMarked p s) [REAM_STARVE_STS.STARVE.key 0, REAM_STARVE_CNT.COUNT.key 0] :=
    ((SameRegs.refl s _).andWr _ (by simp)).andWr _ (by simp)
  exact hmarked.andThen (.of_regs (signalNode_regs _) _)

theorem starved_frame (p : Nat) (s : State) :
    { starved p s with regs := s.regs, out := s.out, hst.msixPend := s.hst.msixPend } = s := by
  have e := congrArg (fun t : State => { t with regs := s.regs }) (signal_frame 0 62 (starveMarked p s))
  exact e

theorem exec_partitionStarvation_past {s : State} {p : Nat} (hthr : s.rd REAM_CFG.STARVE_US ≠ 0) (hp : p < 32)
    (hage : s.rd REAM_CFG.STARVE_US + 1 ≤ partAge s p / 1000) (hnew : bitOf (s.rd REAM_STARVE_STS.STARVE) p = false) :
    exec (.partitionStarvation p) s =
      .next (report .chip { sev := 0, subsys := 8, cause := Config.causeCode 66, part := some p } (starved p s)) :=
  if_pos ⟨hthr, hp, hage, by simp [hnew]⟩

/-! The refill of the buckets (R206). That the first refill is due at once is the model's choice (log 303). -/

/-- `t` differs from `s` in the buckets' tokens alone. -/
abbrev TokensOnly (s t : State) : Prop := { t with rea.stkTok := s.rea.stkTok, rea.gutTok := s.rea.gutTok } = s

theorem TokensOnly.regWait {s t : State} (h : TokensOnly s t) : t.rea.regWait = s.rea.regWait := congrArg (·.rea.regWait) h

/-- Only tokens, and the time of the refill itself, differ from the state before it. -/
theorem TokensOnly.withPeriods {s t : State} {q : KMap Nat} (h : TokensOnly { s with periods := q } t) :
    { t with rea.stkTok := s.rea.stkTok, rea.gutTok := s.rea.gutTok, periods := s.periods } = s :=
  congrArg (fun u : State => { u with periods := s.periods }) h

/-- `s` after the addition of each microsecond to every bucket. -/
def refilled (s : State) : State := (List.range 32).foldl (fun s p => regAdd true p (regAdd false p s)) s

theorem setTokens_tokensOnly {s t : State} (h : TokensOnly s t) (gut : Bool) (p : Nat) (v : Int) : TokensOnly s (setTokens gut p v t) := by
  cases gut <;> exact h

theorem tokens_setTokens_other {gut g : Bool} {p q : Nat} (h : g ≠ gut ∨ q ≠ p) (v : Int) (s : State) :
    tokens (setTokens g q v s) gut p = tokens s gut p := by
  obtain rfl | hg := eq_or_ne g gut
  · have hq : q ≠ p := h.resolve_left (not_not_intro rfl)
    cases g <;> exact KMap.get_put_other _ _ _ _ hq.symm
  · obtain rfl := Bool.eq_not.2 hg
    cases gut <;> rfl

/-- What a bucket holds after the addition of a microsecond. -/
def tokensAfter (s : State) (gut : Bool) (p : Nat) : Int := min (tokens s gut p + regRate s gut p * 1000) (regBurst s gut p * 4096)

section
variable {s t : State} (hen : s.flag REAM_REG_CTL.EN = true) (h : TokensOnly s t)
include hen h

theorem regAdd_eq (gut : Bool) (p : Nat) :
    regAdd gut p t = setTokens gut p (min (tokens t gut p + regRate s gut p * 1000) (regBurst s gut p * 4096)) t := by
  have hregs : t.regs = s.regs := congrArg (·.regs) h
  have hon : t.flag REAM_REG_CTL.EN = true := by rw [flag_congr hregs, hen]
  rw [regAdd, if_neg (not_not_intro hon), regRate, regBurst, rd_congr hregs, rd_congr hregs, regRate, regBurst]

theorem regAdd_tokensOnly (gut : Bool) (p : Nat) : TokensOnly s (regAdd gut p t) := by
  rw [regAdd_eq hen h]
  exact setTokens_tokensOnly h ..

theorem tokens_regAdd_other {gut g : Bool} {p q : Nat} (hne : g ≠ gut ∨ q ≠ p) : tokens (regAdd g q t) gut p = tokens t gut p := by
  rw [regAdd_eq hen h, tokens_setTokens_other hne]

theorem tokens_regAdd_self {gut : Bool} {p : Nat} (ht : tokens t gut p = tokens s gut p) : tokens (regAdd gut p t) gut p = tokensAfter s gut p := by
  rw [regAdd_eq hen h, tokens_setTokens, ht, tokensAfter]

/-- Both additions to a partition leave the buckets of the others. -/
theorem tokens_regAdds_other {p q : Nat} (hne : q ≠ p) (gut : Bool) : tokens (regAdd true q (regAdd false q t)) gut p = tokens t gut p := by
  rw [tokens_regAdd_other hen (regAdd_tokensOnly hen h ..) (.inr hne), tokens_regAdd_other hen h (.inr hne)]

theorem tokens_regAdds_self {gut : Bool} {p : Nat} (ht : tokens t gut p = tokens s gut p) :
    tokens (regAdd true p (regAdd false p t)) gut p = tokensAfter s gut p := by
  have hfirst := regAdd_tokensOnly hen h false p
  cases gut with
  | false => rw [tokens_regAdd_other hen hfirst (.inl (by decide)), tokens_regAdd_self hen h ht]
  | true => exact tokens_regAdd_self hen hfirst ((tokens_regAdd_other hen h (.inl (by decide))).trans ht)

end

section
variable {s : State} (hen : s.flag REAM_REG_CTL.EN = true)
include hen

theorem refilled_tokensOnly : TokensOnly s (refilled s) := by
  unfold refilled
  generalize List.range 32 = l
  exact foldl_invariant (I := TokensOnly s) (fun _ _ _ ht => regAdd_tokensOnly hen (regAdd_tokensOnly hen ht ..) ..) rfl

theorem tokens_refilled {p : Nat} (hp : p < 32) (gut : Bool) : tokens (refilled s) gut p = tokensAfter s gut p := by
  unfold refilled
  refine (foldl_at (J := fun t => TokensOnly s t ∧ tokens t gut p = tokens s gut p)
    (Q := fun t => TokensOnly s t ∧ tokens t gut p = tokensAfter s gut p) List.nodup_range (List.mem_range.2 hp)
    (fun t q _ hne ht => ?_) (fun t ht => ?_) (fun t q _ hne ht => ?_) ⟨rfl, rfl⟩).2
  all_goals
    obtain ⟨honly, htok⟩ := ht
    refine ⟨regAdd_tokensOnly hen (regAdd_tokensOnly hen honly ..) .., ?_⟩
  · rw [tokens_regAdds_other hen honly hne, htok]
  · exact tokens_regAdds_self hen honly htok
  · rw [tokens_regAdds_other hen honly hne, htok]

end

/-- Where no request waits for tokens, none passes. -/
theorem regServe_of_none {s : State} (h : s.rea.regWait = []) : regServe s = s := by
  have hsame : { s with rea.regWait := [] } = s := by rw [← h]
  rw [regServe, h, hsame]
  rfl

theorem exec_regulatorRefill_early {s : State} (h : s.due .refill 1000 = false) : exec .regulatorRefill s = .next s := by
  change execRegulatorRefill s = _
  rw [execRegulatorRefill, State.atPeriod, if_neg (by simp [h])]

/-- `s` with the time of its refill noted. -/
abbrev refillNoted (s : State) : State := { s with periods := KMap.insert s.periods Period.refill.ix s.now }

theorem exec_regulatorRefill_due {s : State} (hen : s.flag REAM_REG_CTL.EN = true) (hwait : s.rea.regWait = []) (h : s.due .refill 1000 = true) :
    exec .regulatorRefill s = .next (refilled (refillNoted s)) := by
  change execRegulatorRefill s = _
  rw [execRegulatorRefill, State.atPeriod, if_pos h]
  have hon : (refillNoted s).flag REAM_REG_CTL.EN = true := hen
  have hnone : (refilled (refillNoted s)).rea.regWait = [] := (refilled_tokensOnly hon).regWait.trans hwait
  unfold refilled at hnone ⊢
  generalize List.range 32 = l at hnone ⊢
  exact congrArg Host.Outcome.next (regServe_of_none hnone)

/-! The records of overhead (R210). -/

theorem settleWarm_lastAcct (b : Nat) (s : State) : (settleWarm b s).rea.lastAcct = s.rea.lastAcct := by
  unfold settleWarm
  dsimp only
  split
  · split
    · split <;> rfl
    · rfl
  · rfl

/-- A partition's record of overhead: what it carries is taken from what is left to it. -/
abbrev overheadRecorded (p : Nat) (s : State) : State :=
  acctRecord { ty := 3, part := p } ((KMap.find? s.rea.rest p).getD {}) { s with rea.rest := KMap.erase s.rea.rest p }

theorem rest_overheadRecorded (p : Nat) (s : State) : (overheadRecorded p s).rea.rest = KMap.erase s.rea.rest p :=
  (acctRecord_recordOnly ..).rest

theorem lastAcct_overheadRecorded (p : Nat) (s : State) : (overheadRecorded p s).rea.lastAcct = s.rea.lastAcct :=
  (acctRecord_recordOnly ..).lastAcct

/-- The state in which the overhead of every partition has been recorded. -/
def overheadsRecorded (s : State) : State :=
  (List.range 32).foldl (fun s p => overheadRecorded p s) ((List.range 64).foldl (fun s b => settleWarm b s) { s with rea.lastAcct := s.now })

theorem lastAcct_overheadsRecorded (s : State) : (overheadsRecorded s).rea.lastAcct = s.now := by
  have hwarm (u : State) : ((List.range 64).foldl (fun s b => settleWarm b s) u).rea.lastAcct = u.rea.lastAcct :=
    foldl_keeps (fun t : State => t.rea.lastAcct) (fun t b _ => settleWarm_lastAcct b t) u
  have hrecorded (u : State) : ((List.range 32).foldl (fun s p => overheadRecorded p s) u).rea.lastAcct = u.rea.lastAcct :=
    foldl_keeps (fun t : State => t.rea.lastAcct) (fun t p _ => lastAcct_overheadRecorded p t) u
  rw [overheadsRecorded, hrecorded, hwarm]

theorem rest_overheadsRecorded {p : Nat} (hp : p < 32) (s : State) : KMap.find? (overheadsRecorded s).rea.rest p = none := by
  unfold overheadsRecorded
  refine foldl_at (f := fun s p => overheadRecorded p s) (J := fun _ => True) (Q := fun t => KMap.find? t.rea.rest p = none) List.nodup_range
    (List.mem_range.2 hp) (fun _ _ _ _ _ => trivial) (fun t _ => ?_) (fun t q _ hne ht => ?_) trivial
  · rw [rest_overheadRecorded, KMap.find?_erase_self]
  · rw [rest_overheadRecorded, KMap.find?_erase_other _ hne.symm, ht]

section
variable {s : State}

theorem exec_acctPeriod_early (h : s.now < s.rea.lastAcct + s.rd REAM_ACCT_CFG.PERIOD_MS * 1000000) : exec .acctPeriod s = .next s := if_pos h

theorem exec_acctPeriod_passed (h : s.rea.lastAcct + s.rd REAM_ACCT_CFG.PERIOD_MS * 1000000 ≤ s.now) :
    exec .acctPeriod s = .next (overheadsRecorded s) := if_neg (Nat.not_lt.2 h)

end

end Sys2Proof.Machine

open Sys2Proof Sys2Proof.Machine

/-- Settles O28: each operation by what it leaves, the picks by tag with `foldl_least`, and the gangs' waits by `gangsServe_now`. -/
theorem schedulerServesByTag : Obligations.SchedulerServesByTag := by
  unfold Obligations.SchedulerServesByTag
  refine ⟨fun s v => ⟨fun h => ?commit, fun h => ?noCommit⟩, fun s hpend hrun hidle => ?committed,
    fun s hstopped => exec_slotPipelineServe_stopped hstopped, fun s k a hrun hpend hnext => ?served, fun s b x hpend hx => ?admitted,
    fun s part ream pos audit a ha hrun hparked => ⟨exec_placementBatch_waits ha hrun hparked, exec_placementBatch_places ha hrun hparked⟩,
    fun s part ream pos audit a ha => ⟨exec_gangWaitExpire_inTime ha, fun g gs => exec_gangWaitExpire_late ha⟩,
    fun s => gangsServe_of_none, fun s p hthr hp hage hnew => ⟨starved p s, exec_partitionStarvation_past hthr hp hage hnew, starved_mark hp s,
      starved_count p s, starved_sameRegs p s, starved_frame p s⟩,
    fun s => exec_regulatorRefill_early, fun s hen hwait hdue => ?refilled,
    fun s => ⟨exec_acctPeriod_early, fun hpassed => ⟨_, exec_acctPeriod_passed hpassed, lastAcct_overheadsRecorded s,
      fun p hp => rest_overheadsRecorded hp s⟩⟩⟩
  case commit => exact congrArg Host.Outcome.next (if_pos h)
  case noCommit => exact congrArg Host.Outcome.next (if_neg (by simp [h]))
  case committed =>
    refine ⟨_, exec_slotPipelineServe_idle hrun hidle, applyReamCommit_done hpend, fun p hp =>
      ⟨applyReamCommit_active (List.mem_cons_self ..) hpend hp, fun c hc => ?_⟩⟩
    have hfld : (REAM_CW_ACT.W c, REAM_CW.W c) ∈ weightFlds := List.mem_cons_of_mem _ (List.mem_map.2 ⟨c, List.mem_range.2 hc, rfl⟩)
    exact applyReamCommit_active hfld hpend hp
  case served =>
    obtain ⟨hmem, hqueued, hleast⟩ := nextTicket_least hnext
    refine ⟨hmem, hqueued, hleast, _, exec_slotPipelineServe_serves hrun hpend hnext, rfl, att?_setAtt .., fun j hj => ?_, rfl⟩
    exact KMap.find?_insert_other _ _ hj
  case admitted =>
    obtain ⟨hmem, hblock⟩ := nextPending_mem hx
    refine ⟨hmem, hblock, fun hsmall => nextPending_least hsmall hx, fun h => ⟨_, exec_dispatchQueueAdmit_admits hpend hx h, ?_⟩,
      exec_dispatchQueueAdmit_waits hpend hx⟩
    rw [blk_setBlk]
    exact ⟨rfl, rfl, rfl, KMap.get_put_self .., rfl⟩
  case refilled =>
    have hon : (refillNoted s).flag REAM_REG_CTL.EN = true := hen
    exact ⟨_, exec_regulatorRefill_due hen hwait hdue, fun p hp => tokens_refilled hon hp, (refilled_tokensOnly hon).withPeriods⟩
end
